-- ==== Sys2Proof/Word.lean ====
section
/-! DEFINITION. The word types of the KN-9600 and their plainest arithmetic (R7, R10, R11). -/

namespace Sys2Proof

/-- A setup register, 32 bits (R12). -/
abbrev Word := BitVec 32

/-- One byte. -/
abbrev Byte := BitVec 8

/-- Ticks of one MCLK period (R7). -/
def mclkTicks : Nat := 1024

/-- Ticks of one event cycle (R7). -/
def eventTicks : Nat := 2048

/-- Ticks of one microsecond: 1,638.4 per nanosecond (R7). -/
def ticksPerUs : Nat := 1638400

/-- A field of `w` bits of `v` from bit `lsb` up. -/
def bitsOf (v lsb w : Nat) : Nat := v / 2 ^ lsb % 2 ^ w

/-- One bit of `v`. -/
def bitOf (v i : Nat) : Bool := v / 2 ^ i % 2 == 1

/-- `v` with its field of `w` bits from `lsb` up replaced by `x`. -/
def putBits (v lsb w x : Nat) : Nat :=
  v / 2 ^ (lsb + w) * 2 ^ (lsb + w) + x % 2 ^ w * 2 ^ lsb + v % 2 ^ lsb

/-- The two's complement reading of `v` at width `w` (R11). -/
def signedOf (v w : Nat) : Int :=
  if bitOf v (w - 1) then (v % 2 ^ w : Int) - 2 ^ w else (v % 2 ^ w : Int)

/-- The two's complement pattern of `x` at width `w` (R11). -/
def patternOf (x : Int) (w : Nat) : Nat := (x % (2 ^ w : Int)).toNat

/-- Addition that saturates at the greatest value of `w` bits (R17). -/
def satAdd (w a b : Nat) : Nat := min (a + b) (2 ^ w - 1)

end Sys2Proof
end

