-- ==== Sys2Proof/Syntax.lean ====
section
/-! DEFINITION. The commands of the KN-9600: one constructor for every row of the opcode table, with the operands that the row's rule gives it or
that the world outside the model supplies (log 4). -/

namespace Sys2Proof

/-- What a forerunner fabric message carries (R450). -/
inductive FabBody where
  | discover (src : Nat)
  | node (src : Nat)
  | event (line : Nat) (level : Bool)
  | regWr (offset value : Nat)
  | regRd (src offset : Nat)
  | regRsp (value : Nat)
  deriving DecidableEq, Repr

/-- A range of host memory: a bus address and a length (R419). -/
structure HostRange where
  addr : Nat
  len : Nat
  deriving DecidableEq, Repr

/-- What a received header frame is: idle; one whose reserved bits are not 0; or one whose TYPE is not sent (R419, R422). -/
inductive HeaderCase where
  | idle
  | reserved (typ : Fin 256) (bits : Fin 32)
  | unknown (typ : Fin 256)
  deriving DecidableEq, Repr

/-- Where a host access goes: a session's doorbell page, or BAR0, and the offset there (R386). -/
structure Place where
  page : Option (Fin 16)
  off : Fin 1048576
  deriving DecidableEq, Repr

/-- What goes wrong with a flit: a received one fails its CRC here; one that the port sent fails at the peer, whose NAK names it (R435); a received one carries
a message of a type that is not sent (R438); or the flit that failed here comes again and passes (R435). -/
inductive FlitCase where
  | crc
  | nak (num : Nat)
  | badType
  | replayed
  deriving DecidableEq, Repr

/-- Which device answers a remote access, and with what status (R442). -/
structure RaccAnswer where
  crate : Fin 16
  device : Fin 32
  status : Fin 256
  deriving DecidableEq, Repr

/-- A flit that goes wrong at a port. -/
structure FlitFail where
  port : Fin 4
  how : FlitCase
  deriving DecidableEq, Repr

/-- Voltages of an input's P and N ball in µV (R99–R101, R500). -/
structure BallVolts where
  p : Int
  n : Int
  deriving DecidableEq, Repr

/-- What the supply monitor finds of a bank: VIOB or VIOA, in mV (R104). -/
structure BankReading where
  viob : Bool
  mv : Nat
  deriving DecidableEq, Repr

/-- What a supply monitor finds of rail 0, 1 or 2: its deviation from the nominal value in tenths of a percent (R461). -/
structure RailReading where
  rail : Fin 3
  dev : Int
  deriving DecidableEq, Repr

/-- The two measurements of a calibration attempt, each a full set of corrections in steps of the unit's trims (R341, R346). -/
structure TrimSets where
  first : List Int
  second : List Int
  deriving DecidableEq, Repr

/-- A command: an access of a register, a message, or an event of the part (the rows of spec/opcode_table.json). Operands that name a unit are its
number: `k` a session, `n` a slice, `o` an output, `c` a core or a Sedge cell, `g` a generator or a channel group, `p` a port. -/
inductive Instr where
  /-- BAR0_WRITE (R15). -/
  | bar0Write (page : Option (Fin 16)) (off : Fin 1048576) (v : Word)
  /-- BAR0_BAD_SIZE_ACCESS (R12). -/
  | bar0BadSizeAccess (at_ : Place) (write : Bool) (be : Fin 16)
  /-- PAIR_LO_READ (R13). -/
  | pairLoRead (page : Option (Fin 16)) (off : Fin 1048576)
  /-- PAIR_HI_READ (R13). -/
  | pairHiRead (page : Option (Fin 16)) (off : Fin 1048576)
  /-- PAIR_LO_WRITE (R13). -/
  | pairLoWrite (page : Option (Fin 16)) (off : Fin 1048576) (v : Word)
  /-- PAIR_HI_WRITE (R13). -/
  | pairHiWrite (page : Option (Fin 16)) (off : Fin 1048576) (v : Word)
  /-- RC_FIELD_READ (R16). -/
  | rcFieldRead (page : Option (Fin 16)) (off : Fin 1048576)
  /-- SYS_COMMIT_GO (R46). -/
  | sysCommitGo (scope : Fin 16) (target : Fin 256)
  /-- COMMIT_PINNING_DONE (R232). -/
  | commitPinningDone (pages : List (Nat × List Byte)) (failed : List (Nat × Nat))
  /-- HANDSHAKE_WATCHDOG (R459). -/
  | handshakeWatchdog (u : Fin 8)
  /-- REF_LOST (R55). -/
  | refLost (word : Nat)
  /-- RANGE_WINDOW_END (R56). -/
  | rangeWindowEnd (present throughout : Bool) (count word : Nat)
  /-- REF_QUALIFIED (R57). -/
  | refQualified (phase : Int)
  /-- PLL_LOCK_DECLARED (R59). -/
  | pllLockDeclared (phase : Int)
  /-- LOCK_TRIP (R56). -/
  | lockTrip (word : Nat)
  /-- LOCK_TRIP_COMPARE (R56). -/
  | lockTripCompare (diffPpm : Nat)
  /-- RECOVER_DONE (R66). -/
  | recoverDone
  /-- HOLD_LIMIT_EXCEEDED (R67). -/
  | holdLimitExceeded
  /-- SYNC_PULSE (R71). -/
  | syncPulse
  /-- EPOCH_INSTANT (R72). -/
  | epochInstant
  /-- TBC48_WRAP (R69). -/
  | tbc48Wrap
  /-- TBC_WRAP (R69). -/
  | tbcWrap
  /-- RELOCK (R63). -/
  | relock
  /-- EMIT (R75). -/
  | emit
  /-- SYNCOUT_PERIODIC (R75). -/
  | syncoutPeriodic
  /-- SLICE_PERIOD_START (R78). -/
  | slicePeriodStart (n : Fin 12) (t : Nat) (balls : List BallVolts)
  /-- UNIT_START_FROM_IDLE (R171). -/
  | unitStartFromIdle (u : Fin 28)
  /-- AO_SAMPLE_SLOT_START (R297). -/
  | aoSampleSlotStart (o : Fin 16)
  /-- REFLEX_ASSERT (R113). -/
  | reflexAssert (c : Fin 64)
  /-- REFLEX_DEASSERT (R116). -/
  | reflexDeassert (c : Fin 64)
  /-- MODE_CHANGE_HIZ_END (R105). -/
  | modeChangeHizEnd (n : Fin 12) (l : Fin 8)
  /-- SUPPLY_BANK (R104). -/
  | supplyBank (m : BankReading)
  /-- SPARE_FORCE (R123). -/
  | spareForce (n : Fin 12) (l : Fin 8)
  /-- SPARE_RESTORE (R123). -/
  | spareRestore (n : Fin 12) (l : Fin 8) (err : Int)
  /-- SPARE_TG8_CONNECTED (R121). -/
  | spareTg8Connected (n : Fin 12)
  /-- SPARE_TRIMS_SETTLED (R121). -/
  | spareTrimsSettled (n : Fin 12)
  /-- SPARE_LOOPBACK_CHECK (R121). -/
  | spareLoopbackCheck (n : Fin 12) (pass : Bool)
  /-- SPARE_TAKEOVER (R121). -/
  | spareTakeover (n : Fin 12)
  /-- MICROWORD_COMPLETE (R131). -/
  | microwordComplete (c : Fin 4)
  /-- CONDITION_TRUE (R137). -/
  | conditionTrue (c : Fin 4)
  /-- WAIT_TIMEOUT (R138). -/
  | waitTimeout (c : Fin 4)
  /-- STALL_RELEASE (R144). -/
  | stallRelease (c : Fin 4)
  /-- CS_PATROL (R127). -/
  | csPatrol (a : Fin 16384)
  /-- HALT (R152). -/
  | halt (c : Fin 4)
  /-- RESUME (R152). -/
  | resume (c : Fin 4)
  /-- STEP (R152). -/
  | step (c : Fin 4)
  /-- SEQUENCE_COMPLETE (R148). -/
  | sequenceComplete (k : Fin 16)
  /-- CORE_DISPATCH (R363). -/
  | coreDispatch (c : Fin 4)
  /-- CSW_ADDR_WRITE (R164). -/
  | cswAddrWrite (v : Word)
  /-- CSW_DATA0_READ (R164). -/
  | cswData0Read
  /-- CSW_DATA5_READ (R164). -/
  | cswData5Read
  /-- JUMP_REQUEST (R176). -/
  | jumpRequest (lines : Nat)
  /-- SHADOW_STAGED (R180). -/
  | shadowStaged (u : Fin 28) (which : Bool)
  /-- FW_PROGRAM_LOADED (R192). -/
  | fwProgramLoaded (g : Fin 4)
  /-- FW_SCR_DATA_WRITE (R205). -/
  | fwScrDataWrite (g : Fin 4) (v : Word)
  /-- PAGE_TABLE_WALK_DONE (R222). -/
  | pageTableWalkDone (k : Fin 16) (page ecc : Nat)
  /-- PAGE_FILL_COMPLETE (R226). -/
  | pageFillComplete (k : Fin 16) (page : Nat) (err : Bool) (data : List Byte)
  /-- FILL_TIMEOUT (R227). -/
  | fillTimeout (k : Fin 16) (page : Nat)
  /-- REFILL_READ_COMPLETE (R228). -/
  | refillReadComplete (u : Fin 28) (which : Fin 3) (count ecc : Nat)
  /-- VS_INV_TLB (R221). -/
  | vsInvTlb (k : Fin 16)
  /-- VS_INV_PAGES (R221). -/
  | vsInvPages (k : Fin 16)
  /-- TRIGGER_ARM (R243). -/
  | triggerArm (u : Fin 8)
  /-- TRIGGER_STOP (R251). -/
  | triggerStop (u : Fin 8)
  /-- TRIGGER_FORCE (R245). -/
  | triggerForce (u : Fin 8)
  /-- ARM_EVENT (R243). -/
  | armEvent (u : Fin 8)
  /-- TRIGGER_FIRE (R241). -/
  | triggerFire (u : Fin 8)
  /-- PRE_TRIGGER_FULL (R248). -/
  | preTriggerFull (u : Fin 8)
  /-- POST_TRIGGER_END (R249). -/
  | postTriggerEnd (u : Fin 8)
  /-- FAIL_UNIT_TIMEOUT (R511). -/
  | failUnitTimeout (k : Fin 16)
  /-- GLEANER_WRITE_DONE (R256). -/
  | gleanerWriteDone (k : Fin 16) (r : Fin 3) (src : Fin 128)
  /-- MASK_WINDOW_JUDGE (R264). -/
  | maskWindowJudge (m : Fin 16)
  /-- STRAY_JUDGE (R264). -/
  | strayJudge (m : Fin 16)
  /-- STAMP_EDGE (R270). -/
  | stampEdge (i : Fin 112) (t : Nat) (v : BallVolts)
  /-- STAMP_LINE_FLUSH (R281). -/
  | stampLineFlush (k : Fin 16)
  /-- MU_GATE_OPEN (R283). -/
  | muGateOpen (u : Fin 16)
  /-- MU_GATE_CLOSE (R283). -/
  | muGateClose (u : Fin 16)
  /-- AO_SLEW_MOVE (R305). -/
  | aoSlewMove (o : Fin 16)
  /-- AO_DETECTOR_SET (R307). -/
  | aoDetectorSet (o : Fin 16) (open_ : Bool)
  /-- AO_DETECTOR_CLEAR (R307). -/
  | aoDetectorClear (o : Fin 16) (open_ : Bool)
  /-- AO_MON_UPDATE (R306). -/
  | aoMonUpdate (o : Fin 16) (forceV loadI : Int)
  /-- AO_RANGE_ENABLE (R312). -/
  | aoRangeEnable (o : Fin 16)
  /-- AO_TBL_DATA_WRITE (R302). -/
  | aoTblDataWrite (o : Fin 16) (v : Word)
  /-- HR_SW_SET (R319). -/
  | hrSwSet (mask clr : Nat)
  /-- HR_SW_CLR (R319). -/
  | hrSwClr (mask : Nat)
  /-- HR_SW_PULSE (R319). -/
  | hrSwPulse (mask : Nat)
  /-- EVENT_EDGE_SAMPLED (R337). -/
  | eventEdgeSampled (ev : Fin 256) (acts : Nat) (rose : Bool)
  /-- RING_HOLDOFF_END (R338). -/
  | ringHoldoffEnd (k : Fin 16) (ev : Fin 256)
  /-- SEDGE_FILTER_SETTLE (R328). -/
  | sedgeFilterSettle (c : Fin 64)
  /-- CG_ON_EDGE (R330). -/
  | cgOnEdge (g : Fin 16)
  /-- CG_OFF_EDGE (R330). -/
  | cgOffEdge (g : Fin 16)
  /-- CAL_CMD (R343). -/
  | calCmd (u : Fin 64)
  /-- CAL_INTERVAL_EXPIRY (R343). -/
  | calIntervalExpiry (u : Fin 36)
  /-- TEMP_READING (R460). -/
  | tempReading (t : Int)
  /-- CAL_RUN_START (R345). -/
  | calRunStart
  /-- CAL_ATTEMPT_END (R346). -/
  | calAttemptEnd (m : TrimSets) (quals : List Nat)
  /-- TEARDOWN (R360). -/
  | teardown (k : Fin 16)
  /-- TEARDOWN_SCRUB (R361). -/
  | teardownScrub (k : Fin 16)
  /-- TEARDOWN_DONE (R360). -/
  | teardownDone (k : Fin 16)
  /-- SESSION_ABORT (R375). -/
  | sessionAbort (k : Fin 16)
  /-- SHOT_START (R368). -/
  | shotStart (k : Fin 16)
  /-- SHOT_TRIGGER_TIMEOUT (R370). -/
  | shotTriggerTimeout (k : Fin 16)
  /-- SHOT_SEQUENCE_START (R369). -/
  | shotSequenceStart (k : Fin 16)
  /-- SHOT_TALLY_CLOSE (R371). -/
  | shotTallyClose (k : Fin 16)
  /-- NOP (R394). -/
  | nop (k : Fin 16)
  /-- REG_WRITE (R394). -/
  | regWrite (k : Fin 16) (data : List Byte)
  /-- REG_READ (R394). -/
  | regRead (k : Fin 16) (data : List Byte)
  /-- COMMIT (R38). -/
  | commit (k : Fin 16)
  /-- LOAD_IMAGE (R162). -/
  | loadImage (k : Fin 16) (image : List Byte)
  /-- WRITE_SEGMENTS (R165). -/
  | writeSegments (k : Fin 16) (data : List Byte)
  /-- TABLE_LOAD (R394). -/
  | tableLoad (k : Fin 16) (data : List Byte)
  /-- DMA_WRITE (R394). -/
  | dmaWrite (k : Fin 16) (data : List Byte)
  /-- DMA_READ (R394). -/
  | dmaRead (k : Fin 16) (ecc : Fin 3)
  /-- INVALIDATE (R221). -/
  | invalidate (k : Fin 16)
  /-- START (R149). -/
  | start (k : Fin 16)
  /-- SHOT (R366). -/
  | shot (k : Fin 16)
  /-- ABORT (R403). -/
  | abort (k : Fin 16)
  /-- DB_CMD_TAIL (R390). -/
  | dbCmdTail (k : Fin 16) (idx : Fin 65536)
  /-- DESCRIPTOR_READ_DONE (R392). -/
  | descriptorReadDone (k : Fin 16) (bytes : List Byte)
  /-- DESCRIPTOR_READ_TIMEOUT (R400). -/
  | descriptorReadTimeout (k : Fin 16) (bad : Bool)
  /-- DB_GO (R405). -/
  | dbGo (k : Fin 16) (tag : Fin 65536)
  /-- DB_HEAD (R390). -/
  | dbHead (k : Fin 16) (r : Fin 3) (idx : Fin 65536) (rearm : Bool)
  /-- DB_DATA_HEAD (R408). -/
  | dbDataHead (k : Fin 16) (head : Fin 1073741824) (lap : Bool)
  /-- RING_ENABLE (R389). -/
  | ringEnable (k : Fin 16) (r : Fin 4) (v : Word)
  /-- RING_DISABLE (R389). -/
  | ringDisable (k : Fin 16) (r : Fin 4) (v : Word)
  /-- DATA_AREA_ENABLE (R412). -/
  | dataAreaEnable (k : Fin 16) (v : Word)
  /-- FORWARD_PIECE_TIMER (R408). -/
  | forwardPieceTimer (k : Fin 16) (r : Fin 3)
  /-- INTERRUPT_MOD_TIME (R410). -/
  | interruptModTime (k : Fin 16) (r : Fin 3)
  /-- FUNCTION_LEVEL_RESET (R385). -/
  | functionLevelReset (k : Fin 16)
  /-- D3HOT_ENTRY (R385). -/
  | d3hotEntry (k : Fin 16)
  /-- VF_ENABLE_CLEAR (R385). -/
  | vfEnableClear
  /-- IDLE (R419). -/
  | idle (toHost : Bool) (how : HeaderCase) (ndata : Fin 25)
  /-- INIT (R429). -/
  | init (toHost hostReset : Bool)
  /-- STATE (R425). -/
  | state (v : Fin 256)
  /-- LANE (R423). -/
  | lane (toHost : Bool) (lane : Fin 8)
  /-- REG_WR (R419). -/
  | regWr (off : Fin 1048576) (v : Word)
  /-- REG_RD (R419). -/
  | regRd (off : Fin 1048576)
  /-- REG_RSP (R419). -/
  | regRsp (v : Word)
  /-- CMD (R419). -/
  | cmd (k : Fin 16) (tag : Fin 65536) (epoch : Fin 16) (bytes : List Byte)
  /-- GO (R419). -/
  | go (k : Fin 16) (inst : Fin 65536 × Fin 16)
  /-- CREDIT (R419). -/
  | credit (k : Fin 16) (completion capture event data : Nat)
  /-- HOST_RD_REQ (R419). -/
  | hostRdReq (k : Fin 16) (inst : Option (Fin 65536 × Fin 16)) (r : HostRange)
  /-- HOST_RD_DATA (R419). -/
  | hostRdData (k : Fin 16) (inst : Option (Fin 65536 × Fin 16)) (data : List Byte)
  /-- HOST_WR (R419). -/
  | hostWr (k : Fin 16) (inst : Option (Fin 65536 × Fin 16)) (addr : Nat) (data : List Byte)
  /-- RING_POST (R419). -/
  | ringPost (k : Fin 16) (r : Fin 3) (inst : Option (Fin 65536 × Fin 16)) (entry : List Byte) (intr : Bool)
  /-- FIELD_RESET (R470). -/
  | fieldReset
  /-- STILE_FRAME_CRC_FAIL (R420). -/
  | stileFrameCrcFail (toHost : Bool)
  /-- STILE_LANE_FAIL (R423). -/
  | stileLaneFail (toHost : Bool) (lane : Fin 9)
  /-- F2H_SIGNAL_LOSS (R425). -/
  | f2hSignalLoss
  /-- LINK_FAULT_INIT_RETRY (R425). -/
  | linkFaultInitRetry
  /-- FIELD_STILE_LOSS (R428). -/
  | fieldStileLoss
  /-- ORPHAN_TIMEOUT (R428). -/
  | orphanTimeout
  /-- ST_CTRL_FIELD_RESET (R430). -/
  | stCtrlFieldReset
  /-- DISCOVER (R439). -/
  | discover (p : Fin 4) (hop : Nat)
  /-- REPORT (R439). -/
  | report (path : List Nat) (role serial : Nat)
  /-- ASSIGN (R439). -/
  | assign (dev : Fin 32) (crate : Fin 16) (cluster : Fin 8) (via : Option (Fin 4))
  /-- ALIGN (R445). -/
  | align (p : Fin 4) (t1 t2 t3 t4 : Option Int) (asked up : Bool)
  /-- EPOCH (R444). -/
  | epoch (p : Fin 4) (offset : Nat) (ago : Nat)
  /-- RACC_WR (R442). -/
  | raccWr (via : Option (Fin 4)) (crate : Fin 16) (dev : Fin 32) (off : Fin 1048576) (v : Word)
  /-- RACC_RD (R442). -/
  | raccRd (via : Option (Fin 4)) (crate : Fin 16) (dev : Fin 32) (off : Fin 1048576)
  /-- RACC_RSP (R442). -/
  | raccRsp (p : Fin 4) (value : Word) (ans : RaccAnswer)
  /-- EVCFG (R448). -/
  | evcfg (crate cluster : Fin 65536) (scope : Fin 256)
  /-- EVENT_RECORD (R448). -/
  | eventRecord (p : Fin 4) (cycle : Fin 65536) (line : Fin 8) (level : Bool)
  /-- CRATE_EVENT_RELEASE (R448). -/
  | crateEventRelease
  /-- CRATE_EVENT_APPLY (R448). -/
  | crateEventApply
  /-- TL_FLIT_CRC_FAIL (R435). -/
  | tlFlitCrcFail (f : FlitFail)
  /-- TL_TRAINING_DONE (R436). -/
  | tlTrainingDone (p : Fin 4) (lanes : Fin 3)
  /-- TL_LANE_FAIL (R436). -/
  | tlLaneFail (p : Fin 4) (lane : Fin 2)
  /-- TL_DISC_START (R439). -/
  | tlDiscStart
  /-- DISCOVERY_DONE (R439). -/
  | discoveryDone (depth : Fin 9)
  /-- TL_ALIGN_START (R446). -/
  | tlAlignStart
  /-- ALIGN_EXCHANGE_TIMER (R445). -/
  | alignExchangeTimer (p : Fin 4)
  /-- ALIGN_SLEW_DONE (R446). -/
  | alignSlewDone (residual : Int)
  /-- TL_RACC_GO (R442). -/
  | tlRaccGo (v : Word)
  /-- RACC_TIMEOUT (R442). -/
  | raccTimeout
  /-- FABRIC_MESSAGE (R450). -/
  | fabricMessage (p : Fin 4) (node : Fin 65536) (body : FabBody)
  /-- DDR_PATROL_READ (R457). -/
  | ddrPatrolRead (addr : Nat) (ecc : Fin 3)
  /-- SUPPLY (R461). -/
  | supply (m : RailReading)
  /-- SUPPLY_AO (R455). -/
  | supplyAo
  /-- TG_SELF_CHECK (R462). -/
  | tgSelfCheck (n : Fin 12) (g : Fin 9) (err : Int)
  /-- FLT_CORE_OFFLINE (R464). -/
  | fltCoreOffline (c : Fin 4)
  /-- FLT_CORE_ONLINE (R464). -/
  | fltCoreOnline (c : Fin 4)
  /-- INJECTION_ARM (R466). -/
  | injectionArm (n : Fin 65536)
  /-- INJECTION_CANCEL (R466). -/
  | injectionCancel
  /-- INJECTION_DURATION_END (R466). -/
  | injectionDurationEnd
  /-- CS_STAGE_SET (R465). -/
  | csStageSet (k : Fin 16)
  /-- CS_STAGE_CLEAR (R465). -/
  | csStageClear (k : Fin 16)
  /-- CS_SWAP_GO (R465). -/
  | csSwapGo (k : Fin 16)
  /-- HOST_POWER_ON (R472). -/
  | hostPowerOn
  /-- HOST_CONVENTIONAL_RESET (R472). -/
  | hostConventionalReset
  /-- FIELD_POWER_ON (R471). -/
  | fieldPowerOn
  /-- FRESET_N (R470). -/
  | fresetN
  /-- FIELD_SUPPLY_LOSS (R470). -/
  | fieldSupplyLoss
  /-- FIELD_BOOT (R473). -/
  | fieldBoot (mvA mvB : Nat)
  /-- DDR_TRAINING_DONE (R474). -/
  | ddrTrainingDone (ok : Bool) (mib : Fin 131072)
  /-- NVM_F_LOAD (R482). -/
  | nvmFLoad
  /-- NVM_F_PROGRAM (R482). -/
  | nvmFProgram
  /-- STORE_CAL (R483). -/
  | storeCal
  /-- NVM_H_LOAD (R484). -/
  | nvmHLoad
  /-- NVM_H_PROGRAM (R484). -/
  | nvmHProgram
  /-- NVM_WRITE_DONE (R482). -/
  | nvmWriteDone (host : Bool)
  /-- STILE_SIGNAL_PRESENT (R425). -/
  | stileSignalPresent
  /-- TL_PEER_SIGNAL (R436). -/
  | tlPeerSignal (p : Fin 4)
  /-- PHASE_ACCUMULATOR_ADD (R300). -/
  | phaseAccumulatorAdd (o : Fin 16)
  /-- SEDGE_FLIP_FLOP_CAPTURE (R329). -/
  | sedgeFlipFlopCapture (c : Fin 64)
  /-- HOST_DATA_READ_TIMEOUT (R400). -/
  | hostDataReadTimeout (k : Fin 16) (bad : Bool)
  /-- SPI_NOR_BOOT_DONE (R477). -/
  | spiNorBootDone (header image script : List Byte)
  /-- SUPPLY_BANK_RETURN (R104). -/
  | supplyBankReturn (m : BankReading)
  deriving DecidableEq, Repr

end Sys2Proof
end

