-- ==== Sys2Proof/Config.lean ====
section
/-! DEFINITION. What one part fixes and the spec leaves open: opaque constants, of which nothing can be proved. -/

namespace Sys2Proof

/-- The free values of the machine, one for each value of the state's counter (log 6). -/
opaque Config.freeValue : Nat → Nat

/-- Code that the band-limited kernel forms from 16 samples on each side, nearest first, at a distance in ticks from the first of them and with a sample
period, where the rule fixes none (R298, log 7). -/
opaque Config.bandLimited : List Nat → List Nat → Nat → Nat → Nat

/-- By how much an entry of the part's sine table differs from the sine, in units of 2^-40: the precision of the table is not stated (R300, log 7). -/
opaque Config.sineErr : Nat → Int

/-- Contents of an output's table entry never written (R302, log 7): output, entry. -/
opaque Config.aoTable : Nat → Nat → Nat

/-- Contents of a scramble-table entry never written (R205, log 7): generator, entry. -/
opaque Config.scramble : Nat → Nat → Nat

/-- Words of the field NVM whose content is the part's own: the factory block, the calibration copies and the reserved area (R479, R481, log 7);
address and write count. -/
opaque Config.nvmContent : Nat → Nat → Nat

/-- How far a threshold has settled between its old and its new value: channel × 2, plus 1 for VTH_HI; tick (R109, log 7). -/
opaque Config.settling : Nat → Nat → Nat

/-- What the PCI Express link trained to: 0 for its speed, 1 for its width (HI_LINK, log 7). -/
opaque Config.link : Nat → Nat

/-- Whether the mean of two measurements that lies half a step between two trim steps is rounded up: unit, trim, sum of the two (R346, log 66). -/
opaque Config.trimTie : Nat → Nat → Int → Bool

/-- The phase error that the PLL measures at a tick, within the bounds that the spec states (R59, R66, log 7). -/
opaque Config.phaseErr : Nat → Nat

end Sys2Proof
end

