-- ==== Sys2Proof/Machine/RegMap.lean ====
section
/-! DEFINITION. The setup register map (spec/20_register_map.md and the field tables of every chapter): one name per register row,
its base offset, index strides, fields with access code and reset value, its owner, its commit scope, its live-committable bits and its class. -/

namespace Sys2Proof.Machine

/-- The registers of the part, one constructor per row of the field tables (R485, R412). -/
inductive Reg where
  | EP_WALL_HDRM | EP_WALL_MIN | EP_WALL_CTRL | EP_WALL_STARVE | SYS_COMMIT | SYS_COMMIT_STATUS
  | SYS_COMMIT_INFO | TB_REF_CFG | TB_STATUS | TB_EVENTS | TB_CTRL | TB_HOLD
  | TB_PHASE | TB_TBC_LO | TB_TBC_HI | TB_EPOCH_LO | TB_EPOCH_HI | TB_EPOCH_CTRL
  | TB_SYNC_PERIOD | TB_EPOCH_STAT | TB_SYNC_SNAP_LO | TB_SYNC_SNAP_HI | EP_EDGE_CNT0 | EP_EDGE_CNT1
  | EP_TS_SEL | EP_TS_STATUS | EP_TS_PERIOD_LO | EP_TS_PERIOD_HI | EP_TS_ORDER | EP_TS_FMT
  | EP_TS_T_ON | EP_TS_T_DATA | EP_TS_T_RET | EP_TS_T_STRB | EP_TS_T_CLOSE | CH_SLICE_CFG
  | CH_BANK_STATUS | CH_DS_CFG | CH_DS_TIME | CH_SPARE_CTRL | CH_SPARE_STATUS | CH_LANE_CFG
  | CH_LVL | CH_REFLEX | CH_SAFE | CH_LANE_STAT | CH_LANE_CNT | SQ_CS_ECC
  | SQ_CS_ECC_ADDR | SQ_LOAD_STATUS | SQ_REGION_STATE | SQ_CTRL | SQ_STATUS | SQ_PC
  | SQ_LC0 | SQ_LC1 | SQ_FLAGS | SQ_FAULT | SQ_SPAN_REC | SQ_SPAN_LC0
  | SQ_SPAN_LC1 | SQ_CNT | SQ_SPAN_STK | CSW_ADDR | CSW_DATA | CSW_META
  | EP_SEG_STATUS | EP_SEG_PASS | EP_SEG_VEC | EP_JUMP_CNT0 | EP_JUMP_CNT1 | FW_CFG
  | FW_SCR_CFG | FW_SCR_OFS | FW_STATUS | FW_CNT | FW_SCR_ADDR | FW_SCR_DATA
  | FW_INIT | FW_REG | FW_PMAP | FW_PMRK | VS_RESV | VS_PT_BASE
  | VS_PLANE | VS_PF | VS_PC | VS_INV | VS_SESS_STAT | VS_FAULT_VA_LO
  | VS_FAULT_VA_HI | VS_PC_CNT | VS_PC_BASE | VS_SL_PIN | VS_SL_STAT | VS_SL_SLIP
  | VS_SL_SLIPT_LO | VS_SL_SLIPT_HI | VS_SL_UIDX_LO | VS_SL_UIDX_HI | VS_SL_CNT | TG_CFG
  | TG_SRC | TG_PAT | TG_COUNT | TG_WIN | TG_PRE | TG_POST
  | TG_CAP | TG_REARM | TG_CTRL | TG_STATUS | TG_CNT | TG_DEAD_LO
  | TG_DEAD_HI | GL_FB_STAT | GL_FB_LOST | GL_RGN_BASE | GL_RGN_SIZE | GL_RGN_WPTR
  | GL_RGN_RPTR | GL_FAILS | GL_LOST | GL_MT_CFG | GL_MT_EXP | GL_MT_TOL
  | GL_MT_VMAX | GL_MT_VIOL | GL_MT_PASS | TM_IN_CFG | TM_IN_CNT | TM_IN_STAT
  | TM_SESS_STORED | TM_SESS_LOST | TM_MU_CFG | TM_MU_GATE | TM_MU_AVG | TM_MU_CNT0
  | TM_MU_CNT1 | TM_MU_RESULTS | AO_CFG | AO_SPER | AO_FTW_LO | AO_FTW_HI
  | AO_NCO | AO_AMPL | AO_OFFSET | AO_SLEW | AO_STATUS | AO_MON
  | AO_SUPV_CNT | AO_CNT | AO_WALL_HDRM | AO_WALL_CTRL | AO_REFILL | AO_SLIP
  | AO_SLIPT_LO | AO_SLIPT_HI | AO_TBL_ADDR | AO_TBL_DATA | AO_CLIP | AO_INFO
  | HR_SW | HR_SW_STATE | HR_JL_EN | HR_JL_SRC | HR_DV_CFG | HR_DV_COAL
  | HR_FLAG | HR_LEVEL | HR_ECNT_SEL | HR_ECNT | HR_SC_IN | HR_SC_CFG
  | HR_CG_MASK | HR_CG_CTL | HR_CG_STAT | HR_SLM | HR_SL_COAL | HR_AOE
  | HR_AO_COAL | HR_HC_EN | HR_HC_SRC | HR_RING_EN | HR_RING_CFG | HR_RING_CNT
  | CAL_CFG | CAL_INTERVAL | CAL_CMD | CAL_STATUS | CAL_UNIT_STAT | CAL_UNIT_CNT
  | CAL_CH_QUAL | CAL_AO_QUAL | CAL_LN_QUAL | RM_SWITCHES | RM_MEM_INST | RM_OWN_UNITS
  | RM_OWN_IO | RM_OWN_MEAS | RM_OWN_CS | RM_MEM_BASE | RM_MEM_SIZE | RM_SESS_CFG
  | RM_SESS_CTRL | RM_SESS_STAT | RM_SESS_SHOTS | RM_SESS_WAIT | RM_HIST_CFG | RM_HIST_BASE_LO
  | RM_HIST_BASE_HI | HI_LINK | HI_ACC_LOG | HI_ACC_CNT | DB_CMD_TAIL | DB_GO
  | DB_HEAD | DB_DATA_HEAD | RING_STAT | RING_HELD | RING_ERR | DB_CNT0
  | DB_CNT1 | DB_CNT2 | RING_BASE_LO | RING_BASE_HI | RING_ENTRIES | RING_CTL
  | DATA_BASE_LO | DATA_BASE_HI | DATA_SIZE | DATA_CFG | ST_STATUS | ST_EVENTS
  | ST_CNT | ST_DOWN_CNT | ST_CTRL | ST_F_CFG | ST_F_CNT | TL_ROLE
  | TL_DISC_CTRL | TL_DISC_STAT | TL_CLUSTER | TL_EV_CFG | TL_EV_DELAY | TL_EV_CNT
  | TL_ALIGN_CTRL | TL_ALIGN_STAT | TL_ALIGN_PHASE | TL_FAB_CFG | TL_RACC_TGT | TL_RACC_OFS
  | TL_RACC_DATA | TL_RACC_STAT | TL_PORT_CFG | TL_PORT_STAT | TL_PORT_LAT | TL_PORT_CNT
  | TL_PORT_EVENTS | TL_ROUTE | FLT_FIRST | FLT_FIRST_TBC_LO | FLT_FIRST_TBC_HI | FLT_DDR_ADDR_LO
  | FLT_DDR_ADDR_HI | FLT_TEMP | FLT_TEMP_CFG | FLT_SUPPLY | FLT_SC_CFG | FLT_SC_STAT
  | FLT_CORE | FLT_CNT | FLT_INJ_SEL | FLT_INJ_CTRL | FLT_CS_STAGE | FLT_CS_SWAP
  | NVM_H_STAT | NVM_H_ADDR | NVM_H_DATA | NVM_H_CTRL | NVM_F_STAT | NVM_F_ADDR
  | NVM_F_DATA | NVM_F_CTRL | NVM_F_COUNT | NVM_BOOT_STAT | NVM_BOOT_CMT | SYS_ID
  | SYS_STEP | SYS_STATUS | SYS_SCRATCH | SYS_COMMIT_WHERE | SYS_COMMIT_LAST | SYS_COMMIT_LFID
  | AO_SEG_STATUS | AO_SEG_PASS | AO_SEG_VEC | AO_JUMP_CNT0 | AO_JUMP_CNT1 | MSIX_TABLE
  | MSIX_PBA
  deriving DecidableEq, Repr

/-- The access codes of R15. -/
inductive Acc where
  | ro | rw | rws | w1c | wo | rc
  deriving DecidableEq, Repr

/-- Who a register belongs to (R354, R492): the device, a session by the first index, a unit by an index, or a doorbell page. -/
inductive OwnKind where
  | device | session | slice | furrow | trigger | output | mu | mt | input | page
  deriving DecidableEq, Repr

/-- Half of a register pair (R13). -/
inductive PairHalf where
  | no | lo | hi
  deriving DecidableEq, Repr

/-- One field of a register: lowest bit, width, access code, reset value. -/
structure FieldRow where
  lsb : Nat
  width : Nat
  acc : Acc
  reset : Nat
  deriving DecidableEq, Repr

/-- One row of the register map: base key, (stride, count) of each index in descending stride order, fields, owner, commit scope
(8 marks the ownership fields of R355), live-committable bits, class number of its field identifier (R491), pair half. -/
structure RegRow where
  base : Nat
  dims : List (Nat × Nat)
  fields : List FieldRow
  own : OwnKind
  scope : Option Nat
  live : Nat
  cls : Nat
  pair : PairHalf
  deriving DecidableEq, Repr

/-- A named field of a named register. -/
structure Fld where
  reg : Reg
  lsb : Nat
  width : Nat
  deriving DecidableEq, Repr

end Sys2Proof.Machine

/-! The rows, one definition per register. A doorbell-page register of function fn has its key at 2^28 + fn × 4096; a register of the timing-set
window has the timing set as its first index. -/
namespace Sys2Proof.Machine.RowOf
def EP_WALL_HDRM : RegRow := ⟨0x20100, [(0x2000, 12)], [⟨0, 32, .ro, 0⟩], .slice, none, 0, 0, .no⟩
def EP_WALL_MIN : RegRow := ⟨0x20104, [(0x2000, 12)], [⟨0, 32, .rc, 0xffffffff⟩], .slice, none, 0, 0, .no⟩
def EP_WALL_CTRL : RegRow := ⟨0x20108, [(0x2000, 12)], [⟨0, 16, .rw, 0x40⟩, ⟨16, 9, .ro, 0⟩], .slice, none, 0, 0, .no⟩
def EP_WALL_STARVE : RegRow := ⟨0x2010c, [(0x2000, 12)], [⟨0, 16, .rc, 0⟩], .slice, none, 0, 0, .no⟩
def SYS_COMMIT : RegRow := ⟨0x40, [], [⟨0, 4, .wo, 0⟩, ⟨8, 8, .wo, 0⟩, ⟨31, 1, .wo, 0⟩], .device, none, 0, 0, .no⟩
def SYS_COMMIT_STATUS : RegRow := ⟨0x44, [], [⟨0, 1, .ro, 0⟩, ⟨1, 1, .ro, 0⟩, ⟨8, 8, .ro, 0⟩, ⟨16, 16, .ro, 0⟩], .device, none, 0, 0, .no⟩
def SYS_COMMIT_INFO : RegRow := ⟨0x48, [], [⟨0, 16, .ro, 0⟩, ⟨16, 8, .rc, 0⟩, ⟨24, 1, .rw, 0⟩], .device, none, 0, 0, .no⟩
def TB_REF_CFG : RegRow := ⟨0x4000, [], [⟨0, 2, .rws, 2⟩, ⟨2, 1, .rws, 0⟩, ⟨8, 4, .rws, 2⟩], .device, (some 0), 0, 0x10, .no⟩
def TB_STATUS : RegRow := ⟨0x4004, [], [⟨0, 3, .ro, 0⟩, ⟨3, 1, .ro, 0⟩, ⟨4, 1, .ro, 0⟩, ⟨5, 1, .ro, 0⟩, ⟨6, 1, .ro, 0⟩, ⟨8, 8, .ro, 0⟩], .device, none, 0, 0, .no⟩
def TB_EVENTS : RegRow := ⟨0x4008, [], [⟨0, 1, .w1c, 0⟩, ⟨1, 1, .w1c, 0⟩, ⟨2, 1, .w1c, 0⟩, ⟨3, 1, .w1c, 0⟩, ⟨4, 1, .w1c, 0⟩, ⟨5, 1, .w1c, 0⟩, ⟨6, 1, .w1c, 0⟩, ⟨7, 1, .w1c, 0⟩, ⟨8, 1, .w1c, 0⟩, ⟨9, 1, .w1c, 0⟩], .device, none, 0, 0, .no⟩
def TB_CTRL : RegRow := ⟨0x400c, [], [⟨0, 1, .wo, 0⟩], .device, none, 0, 0, .no⟩
def TB_HOLD : RegRow := ⟨0x4010, [], [⟨0, 16, .rw, 0x64⟩, ⟨16, 16, .ro, 0⟩], .device, none, 0, 0, .no⟩
def TB_PHASE : RegRow := ⟨0x4014, [], [⟨0, 16, .ro, 0⟩], .device, none, 0, 0, .no⟩
def TB_TBC_LO : RegRow := ⟨0x4018, [], [⟨0, 32, .ro, 0⟩], .device, none, 0, 0, .lo⟩
def TB_TBC_HI : RegRow := ⟨0x401c, [], [⟨0, 32, .ro, 0⟩], .device, none, 0, 0, .hi⟩
def TB_EPOCH_LO : RegRow := ⟨0x4020, [], [⟨11, 21, .rw, 0⟩], .device, none, 0, 0, .lo⟩
def TB_EPOCH_HI : RegRow := ⟨0x4024, [], [⟨0, 32, .rw, 0⟩], .device, none, 0, 0, .hi⟩
def TB_EPOCH_CTRL : RegRow := ⟨0x4028, [], [⟨0, 1, .rw, 0⟩, ⟨1, 2, .rw, 0⟩, ⟨4, 4, .rw, 2⟩, ⟨8, 2, .rw, 0⟩, ⟨10, 1, .wo, 0⟩], .device, none, 0, 0, .no⟩
def TB_SYNC_PERIOD : RegRow := ⟨0x402c, [], [⟨0, 32, .rw, 0⟩], .device, none, 0, 0, .no⟩
def TB_EPOCH_STAT : RegRow := ⟨0x4030, [], [⟨0, 8, .rc, 0⟩, ⟨8, 8, .rc, 0⟩], .device, none, 0, 0, .no⟩
def TB_SYNC_SNAP_LO : RegRow := ⟨0x4038, [], [⟨0, 32, .ro, 0⟩], .device, none, 0, 0, .lo⟩
def TB_SYNC_SNAP_HI : RegRow := ⟨0x403c, [], [⟨0, 32, .ro, 0⟩], .device, none, 0, 0, .hi⟩
def EP_EDGE_CNT0 : RegRow := ⟨0x20180, [(0x2000, 12), (0x8, 8)], [⟨0, 16, .rc, 0⟩, ⟨16, 16, .rc, 0⟩], .slice, none, 0, 0, .no⟩
def EP_EDGE_CNT1 : RegRow := ⟨0x20184, [(0x2000, 12), (0x8, 8)], [⟨0, 16, .rc, 0⟩], .slice, none, 0, 0, .no⟩
def EP_TS_SEL : RegRow := ⟨0x20200, [(0x2000, 12)], [⟨0, 5, .rw, 0⟩], .slice, none, 0, 0, .no⟩
def EP_TS_STATUS : RegRow := ⟨0x20204, [(0x2000, 12)], [⟨0, 5, .ro, 0⟩, ⟨8, 1, .ro, 0⟩], .slice, none, 0, 0, .no⟩
def EP_TS_PERIOD_LO : RegRow := ⟨0x20210, [(0x100000, 32), (0x2000, 12)], [⟨0, 32, .rws, 0x800⟩], .slice, (some 2), 0xFFFFFFFF, 0x40, .lo⟩
def EP_TS_PERIOD_HI : RegRow := ⟨0x20214, [(0x100000, 32), (0x2000, 12)], [⟨0, 17, .rws, 0⟩], .slice, (some 2), 0xFFFFFFFF, 0x41, .hi⟩
def EP_TS_ORDER : RegRow := ⟨0x20218, [(0x100000, 32), (0x2000, 12)], [⟨0, 3, .rws, 0⟩, ⟨3, 3, .rws, 1⟩, ⟨6, 3, .rws, 2⟩, ⟨9, 3, .rws, 3⟩, ⟨12, 3, .rws, 4⟩], .slice, (some 2), 0xFFFFFFFF, 0x42, .no⟩
def EP_TS_FMT : RegRow := ⟨0x20300, [(0x100000, 32), (0x2000, 12), (0x20, 8)], [⟨0, 3, .rws, 0⟩, ⟨3, 1, .rws, 0⟩], .slice, (some 2), 0xFFFFFFFF, 0x43, .no⟩
def EP_TS_T_ON : RegRow := ⟨0x20304, [(0x100000, 32), (0x2000, 12), (0x20, 8)], [⟨0, 32, .rws, 0⟩], .slice, (some 2), 0xFFFFFFFF, 0x44, .no⟩
def EP_TS_T_DATA : RegRow := ⟨0x20308, [(0x100000, 32), (0x2000, 12), (0x20, 8)], [⟨0, 32, .rws, 0⟩], .slice, (some 2), 0xFFFFFFFF, 0x45, .no⟩
def EP_TS_T_RET : RegRow := ⟨0x2030c, [(0x100000, 32), (0x2000, 12), (0x20, 8)], [⟨0, 32, .rws, 0⟩], .slice, (some 2), 0xFFFFFFFF, 0x46, .no⟩
def EP_TS_T_STRB : RegRow := ⟨0x20310, [(0x100000, 32), (0x2000, 12), (0x20, 8)], [⟨0, 32, .rws, 0⟩], .slice, (some 2), 0xFFFFFFFF, 0x47, .no⟩
def EP_TS_T_CLOSE : RegRow := ⟨0x20314, [(0x100000, 32), (0x2000, 12), (0x20, 8)], [⟨0, 32, .rws, 0⟩], .slice, (some 2), 0xFFFFFFFF, 0x48, .no⟩
def CH_SLICE_CFG : RegRow := ⟨0x20400, [(0x2000, 12)], [⟨0, 1, .rws, 0⟩, ⟨1, 3, .rws, 0⟩], .slice, (some 2), 0, 0x50, .no⟩
def CH_BANK_STATUS : RegRow := ⟨0x20404, [(0x2000, 12)], [⟨0, 1, .ro, 0⟩, ⟨1, 1, .ro, 0⟩], .slice, none, 0, 0, .no⟩
def CH_DS_CFG : RegRow := ⟨0x20410, [(0x2000, 12), (0x4, 4)], [⟨0, 2, .rws, 0⟩, ⟨2, 1, .rws, 0⟩, ⟨3, 1, .rws, 0⟩, ⟨4, 8, .rws, 0⟩, ⟨12, 3, .rws, 0⟩], .slice, (some 2), 0, 0x51, .no⟩
def CH_DS_TIME : RegRow := ⟨0x20420, [(0x2000, 12), (0x4, 4)], [⟨0, 16, .rws, 0⟩, ⟨16, 16, .rws, 0⟩], .slice, (some 2), 0xFFFFFFFF, 0x52, .no⟩
def CH_SPARE_CTRL : RegRow := ⟨0x20440, [(0x2000, 12)], [⟨0, 3, .rw, 0⟩, ⟨3, 1, .wo, 0⟩, ⟨4, 1, .wo, 0⟩], .slice, none, 0, 0, .no⟩
def CH_SPARE_STATUS : RegRow := ⟨0x20444, [(0x2000, 12)], [⟨0, 1, .ro, 0⟩, ⟨1, 3, .ro, 0⟩, ⟨4, 1, .ro, 0⟩, ⟨5, 1, .w1c, 0⟩, ⟨6, 1, .w1c, 0⟩, ⟨8, 8, .ro, 0⟩, ⟨16, 16, .ro, 0⟩], .slice, none, 0, 0, .no⟩
def CH_LANE_CFG : RegRow := ⟨0x20500, [(0x2000, 12), (0x20, 8)], [⟨0, 2, .rws, 0⟩, ⟨2, 1, .rws, 1⟩, ⟨8, 6, .rws, 0x14⟩, ⟨16, 2, .rws, 2⟩], .slice, (some 2), 0x3f00, 0x53, .no⟩
def CH_LVL : RegRow := ⟨0x20504, [(0x2000, 12), (0x20, 8)], [⟨0, 12, .rws, 0⟩, ⟨12, 1, .rws, 0⟩, ⟨16, 12, .rws, 0⟩, ⟨28, 2, .rws, 0⟩], .slice, (some 2), 0xFFFFFFFF, 0x54, .no⟩
def CH_REFLEX : RegRow := ⟨0x20508, [(0x2000, 12), (0x20, 8)], [⟨0, 6, .rws, 0⟩, ⟨6, 1, .rws, 0⟩, ⟨8, 3, .rws, 2⟩], .slice, (some 2), 0xFFFFFFFF, 0x55, .no⟩
def CH_SAFE : RegRow := ⟨0x2050c, [(0x2000, 12), (0x20, 8)], [⟨0, 2, .rws, 0⟩, ⟨2, 2, .rws, 1⟩], .slice, (some 2), 0xFFFFFFFF, 0x56, .no⟩
def CH_LANE_STAT : RegRow := ⟨0x20510, [(0x2000, 12), (0x20, 8)], [⟨0, 1, .ro, 0⟩, ⟨1, 1, .ro, 0⟩, ⟨2, 1, .ro, 0⟩, ⟨3, 1, .ro, 0⟩, ⟨4, 2, .ro, 0⟩], .slice, none, 0, 0, .no⟩
def CH_LANE_CNT : RegRow := ⟨0x20514, [(0x2000, 12), (0x20, 8)], [⟨0, 16, .rc, 0⟩, ⟨16, 16, .rc, 0⟩], .slice, none, 0, 0, .no⟩
def SQ_CS_ECC : RegRow := ⟨0x10000, [], [⟨0, 16, .rc, 0⟩, ⟨16, 8, .rc, 0⟩], .device, none, 0, 0, .no⟩
def SQ_CS_ECC_ADDR : RegRow := ⟨0x10004, [], [⟨0, 14, .ro, 0⟩], .device, none, 0, 0, .no⟩
def SQ_LOAD_STATUS : RegRow := ⟨0x10008, [], [⟨0, 8, .ro, 0⟩, ⟨8, 8, .ro, 0⟩, ⟨16, 14, .ro, 0⟩], .device, none, 0, 0, .no⟩
def SQ_REGION_STATE : RegRow := ⟨0x1000c, [], [⟨0, 16, .ro, 0⟩, ⟨16, 16, .ro, 0⟩], .device, none, 0, 0, .no⟩
def SQ_CTRL : RegRow := ⟨0x10100, [(0x100, 4)], [⟨0, 1, .wo, 0⟩, ⟨1, 1, .wo, 0⟩, ⟨2, 1, .wo, 0⟩], .device, none, 0, 0, .no⟩
def SQ_STATUS : RegRow := ⟨0x10104, [(0x100, 4)], [⟨0, 3, .ro, 0⟩, ⟨3, 1, .ro, 0⟩, ⟨4, 5, .ro, 0⟩, ⟨12, 4, .ro, 0⟩], .device, none, 0, 0, .no⟩
def SQ_PC : RegRow := ⟨0x10108, [(0x100, 4)], [⟨0, 14, .ro, 0⟩], .device, none, 0, 0, .no⟩
def SQ_LC0 : RegRow := ⟨0x1010c, [(0x100, 4)], [⟨0, 24, .ro, 0⟩], .device, none, 0, 0, .no⟩
def SQ_LC1 : RegRow := ⟨0x10110, [(0x100, 4)], [⟨0, 24, .ro, 0⟩], .device, none, 0, 0, .no⟩
def SQ_FLAGS : RegRow := ⟨0x10114, [(0x100, 4)], [⟨0, 8, .ro, 0⟩, ⟨8, 1, .ro, 0⟩], .device, none, 0, 0, .no⟩
def SQ_FAULT : RegRow := ⟨0x10118, [(0x100, 4)], [⟨0, 4, .ro, 0⟩, ⟨8, 14, .ro, 0⟩, ⟨31, 1, .w1c, 0⟩], .device, none, 0, 0, .no⟩
def SQ_SPAN_REC : RegRow := ⟨0x1011c, [(0x100, 4)], [⟨0, 14, .ro, 0⟩, ⟨16, 6, .ro, 0⟩, ⟨22, 5, .ro, 0⟩, ⟨31, 1, .w1c, 0⟩], .device, none, 0, 0, .no⟩
def SQ_SPAN_LC0 : RegRow := ⟨0x10120, [(0x100, 4)], [⟨0, 24, .ro, 0⟩], .device, none, 0, 0, .no⟩
def SQ_SPAN_LC1 : RegRow := ⟨0x10124, [(0x100, 4)], [⟨0, 24, .ro, 0⟩], .device, none, 0, 0, .no⟩
def SQ_CNT : RegRow := ⟨0x10128, [(0x100, 4)], [⟨0, 16, .rc, 0⟩, ⟨16, 16, .rc, 0⟩], .device, none, 0, 0, .no⟩
def SQ_SPAN_STK : RegRow := ⟨0x10140, [(0x100, 4), (0x4, 8)], [⟨0, 14, .ro, 0⟩, ⟨16, 14, .ro, 0⟩], .device, none, 0, 0, .no⟩
def CSW_ADDR : RegRow := ⟨0xc0000, [], [⟨0, 14, .rw, 0⟩, ⟨14, 1, .rw, 0⟩], .device, none, 0, 0, .no⟩
def CSW_DATA : RegRow := ⟨0xc0004, [(0x4, 6)], [⟨0, 32, .ro, 0⟩], .device, none, 0, 0, .no⟩
def CSW_META : RegRow := ⟨0xc001c, [], [⟨0, 2, .ro, 0⟩, ⟨2, 1, .ro, 0⟩, ⟨3, 1, .ro, 0⟩, ⟨4, 4, .ro, 0⟩], .device, none, 0, 0, .no⟩
def EP_SEG_STATUS : RegRow := ⟨0x20600, [(0x2000, 12)], [⟨0, 12, .ro, 0⟩, ⟨12, 3, .ro, 0⟩, ⟨15, 1, .ro, 0⟩, ⟨16, 1, .ro, 0⟩, ⟨17, 1, .ro, 0⟩, ⟨18, 1, .ro, 0⟩], .slice, none, 0, 0, .no⟩
def EP_SEG_PASS : RegRow := ⟨0x20604, [(0x2000, 12)], [⟨0, 32, .ro, 0⟩], .slice, none, 0, 0, .no⟩
def EP_SEG_VEC : RegRow := ⟨0x20608, [(0x2000, 12)], [⟨0, 32, .ro, 0⟩], .slice, none, 0, 0, .no⟩
def EP_JUMP_CNT0 : RegRow := ⟨0x2060c, [(0x2000, 12)], [⟨0, 16, .rc, 0⟩, ⟨16, 16, .rc, 0⟩], .slice, none, 0, 0, .no⟩
def EP_JUMP_CNT1 : RegRow := ⟨0x20610, [(0x2000, 12)], [⟨0, 16, .rc, 0⟩, ⟨16, 16, .rc, 0⟩], .slice, none, 0, 0, .no⟩
def FW_CFG : RegRow := ⟨0x18000, [(0x100, 4)], [⟨0, 12, .rws, 0⟩, ⟨16, 14, .rws, 0⟩], .furrow, (some 3), 0, 0x30, .no⟩
def FW_SCR_CFG : RegRow := ⟨0x18004, [(0x100, 4)], [⟨0, 1, .rws, 0⟩, ⟨1, 1, .rws, 0⟩], .furrow, (some 3), 0xFFFFFFFF, 0x31, .no⟩
def FW_SCR_OFS : RegRow := ⟨0x18008, [(0x100, 4)], [⟨0, 16, .rws, 0⟩, ⟨16, 16, .rws, 0⟩], .furrow, (some 3), 0xFFFFFFFF, 0x32, .no⟩
def FW_STATUS : RegRow := ⟨0x1800c, [(0x100, 4)], [⟨0, 3, .ro, 0⟩, ⟨3, 1, .ro, 0⟩, ⟨4, 7, .ro, 0⟩, ⟨12, 4, .ro, 0⟩, ⟨16, 14, .ro, 0⟩, ⟨31, 1, .w1c, 0⟩], .furrow, none, 0, 0, .no⟩
def FW_CNT : RegRow := ⟨0x18010, [(0x100, 4)], [⟨0, 16, .rc, 0⟩, ⟨16, 16, .rc, 0⟩], .furrow, none, 0, 0, .no⟩
def FW_SCR_ADDR : RegRow := ⟨0x18018, [(0x100, 4)], [⟨0, 16, .rw, 0⟩, ⟨16, 1, .rw, 0⟩], .furrow, none, 0, 0, .no⟩
def FW_SCR_DATA : RegRow := ⟨0x1801c, [(0x100, 4)], [⟨0, 16, .rw, 0⟩], .furrow, none, 0, 0, .no⟩
def FW_INIT : RegRow := ⟨0x18040, [(0x100, 4), (0x4, 16)], [⟨0, 32, .rws, 0⟩], .furrow, (some 3), 0xFFFFFFFF, 0x33, .no⟩
def FW_REG : RegRow := ⟨0x18080, [(0x100, 4), (0x4, 16)], [⟨0, 32, .ro, 0⟩], .furrow, none, 0, 0, .no⟩
def FW_PMAP : RegRow := ⟨0x18800, [(0x20, 12), (0x4, 4)], [⟨0, 15, .rws, 0x2000⟩, ⟨16, 15, .rws, 0x2000⟩], .slice, (some 2), 0xFFFFFFFF, 0x34, .no⟩
def FW_PMRK : RegRow := ⟨0x18810, [(0x20, 12), (0x4, 2)], [⟨0, 7, .rws, 0x7e⟩, ⟨8, 7, .rws, 0x7e⟩, ⟨16, 7, .rws, 0x7e⟩, ⟨24, 7, .rws, 0x7e⟩], .slice, (some 2), 0xFFFFFFFF, 0x35, .no⟩
def VS_RESV : RegRow := ⟨0x40000, [], [⟨0, 1, .rws, 0⟩], .device, (some 0), 0, 0x60, .no⟩
def VS_PT_BASE : RegRow := ⟨0x40100, [(0x40, 16)], [⟨0, 17, .rws, 0⟩], .session, (some 1), 0, 0x61, .no⟩
def VS_PLANE : RegRow := ⟨0x40104, [(0x40, 16)], [⟨0, 32, .rws, 0x100⟩], .session, (some 1), 0, 0x62, .no⟩
def VS_PF : RegRow := ⟨0x40108, [(0x40, 16)], [⟨0, 7, .rws, 4⟩, ⟨16, 10, .rws, 0xa⟩], .session, (some 1), 0, 0x63, .no⟩
def VS_PC : RegRow := ⟨0x4010c, [(0x40, 16)], [⟨0, 20, .rws, 0⟩], .session, (some 1), 0, 0x64, .no⟩
def VS_INV : RegRow := ⟨0x40110, [(0x40, 16)], [⟨0, 1, .wo, 0⟩, ⟨1, 1, .wo, 0⟩], .session, none, 0, 0, .no⟩
def VS_SESS_STAT : RegRow := ⟨0x40114, [(0x40, 16)], [⟨0, 3, .ro, 0⟩, ⟨4, 4, .ro, 0⟩, ⟨8, 1, .ro, 0⟩, ⟨31, 1, .w1c, 0⟩], .session, none, 0, 0, .no⟩
def VS_FAULT_VA_LO : RegRow := ⟨0x40118, [(0x40, 16)], [⟨0, 32, .ro, 0⟩], .session, none, 0, 0, .lo⟩
def VS_FAULT_VA_HI : RegRow := ⟨0x4011c, [(0x40, 16)], [⟨0, 16, .ro, 0⟩], .session, none, 0, 0, .hi⟩
def VS_PC_CNT : RegRow := ⟨0x40120, [(0x40, 16)], [⟨0, 16, .rc, 0⟩, ⟨16, 16, .rc, 0⟩], .session, none, 0, 0, .no⟩
def VS_PC_BASE : RegRow := ⟨0x40124, [(0x40, 16)], [⟨0, 20, .rws, 0⟩], .session, (some 1), 0, 0x65, .no⟩
def VS_SL_PIN : RegRow := ⟨0x40800, [(0x40, 12)], [⟨0, 15, .ro, 0⟩, ⟨16, 16, .ro, 0⟩], .slice, none, 0, 0, .no⟩
def VS_SL_STAT : RegRow := ⟨0x40804, [(0x40, 12)], [⟨0, 14, .ro, 0⟩, ⟨14, 1, .ro, 0⟩, ⟨15, 1, .ro, 0⟩], .slice, none, 0, 0, .no⟩
def VS_SL_SLIP : RegRow := ⟨0x40808, [(0x40, 12)], [⟨0, 32, .ro, 0⟩], .slice, none, 0, 0, .no⟩
def VS_SL_SLIPT_LO : RegRow := ⟨0x4080c, [(0x40, 12)], [⟨0, 32, .ro, 0⟩], .slice, none, 0, 0, .lo⟩
def VS_SL_SLIPT_HI : RegRow := ⟨0x40810, [(0x40, 12)], [⟨0, 32, .ro, 0⟩], .slice, none, 0, 0, .hi⟩
def VS_SL_UIDX_LO : RegRow := ⟨0x40814, [(0x40, 12)], [⟨0, 32, .ro, 0⟩], .slice, none, 0, 0, .lo⟩
def VS_SL_UIDX_HI : RegRow := ⟨0x40818, [(0x40, 12)], [⟨0, 16, .ro, 0⟩], .slice, none, 0, 0, .hi⟩
def VS_SL_CNT : RegRow := ⟨0x4081c, [(0x40, 12)], [⟨0, 16, .rc, 0⟩, ⟨16, 16, .rc, 0⟩], .slice, none, 0, 0, .no⟩
def TG_CFG : RegRow := ⟨0x48000, [(0x40, 8)], [⟨0, 3, .rws, 0⟩, ⟨3, 2, .rws, 0⟩, ⟨5, 1, .rws, 0⟩, ⟨6, 2, .rws, 0⟩, ⟨8, 1, .rws, 0⟩], .trigger, (some 5), 0, 0x70, .no⟩
def TG_SRC : RegRow := ⟨0x48004, [(0x40, 8)], [⟨0, 8, .rws, 0⟩, ⟨8, 8, .rws, 0⟩, ⟨16, 8, .rws, 0⟩, ⟨24, 8, .rws, 0⟩], .trigger, (some 5), 0, 0x71, .no⟩
def TG_PAT : RegRow := ⟨0x48008, [(0x40, 8)], [⟨0, 8, .rws, 0⟩, ⟨8, 8, .rws, 0⟩], .trigger, (some 5), 0xFFFFFFFF, 0x72, .no⟩
def TG_COUNT : RegRow := ⟨0x4800c, [(0x40, 8)], [⟨0, 24, .rws, 1⟩], .trigger, (some 5), 0xFFFFFFFF, 0x73, .no⟩
def TG_WIN : RegRow := ⟨0x48010, [(0x40, 8)], [⟨0, 16, .rws, 0⟩, ⟨16, 16, .rws, 0⟩], .trigger, (some 5), 0xFFFFFFFF, 0x74, .no⟩
def TG_PRE : RegRow := ⟨0x48014, [(0x40, 8)], [⟨0, 32, .rws, 0⟩], .trigger, (some 5), 0, 0x75, .no⟩
def TG_POST : RegRow := ⟨0x48018, [(0x40, 8)], [⟨0, 32, .rws, 0⟩], .trigger, (some 5), 0, 0x76, .no⟩
def TG_CAP : RegRow := ⟨0x4801c, [(0x40, 8)], [⟨0, 12, .rws, 0⟩, ⟨16, 16, .rws, 1⟩], .trigger, (some 5), 0, 0x77, .no⟩
def TG_REARM : RegRow := ⟨0x48020, [(0x40, 8)], [⟨0, 32, .rws, 0⟩], .trigger, (some 5), 0, 0x78, .no⟩
def TG_CTRL : RegRow := ⟨0x48024, [(0x40, 8)], [⟨0, 1, .wo, 0⟩, ⟨1, 1, .wo, 0⟩, ⟨2, 1, .wo, 0⟩], .trigger, none, 0, 0, .no⟩
def TG_STATUS : RegRow := ⟨0x48028, [(0x40, 8)], [⟨0, 2, .ro, 0⟩, ⟨2, 1, .ro, 0⟩], .trigger, none, 0, 0, .no⟩
def TG_CNT : RegRow := ⟨0x4802c, [(0x40, 8)], [⟨0, 16, .rc, 0⟩, ⟨16, 16, .rc, 0⟩], .trigger, none, 0, 0, .no⟩
def TG_DEAD_LO : RegRow := ⟨0x48030, [(0x40, 8)], [⟨0, 32, .ro, 0⟩], .trigger, none, 0, 0, .lo⟩
def TG_DEAD_HI : RegRow := ⟨0x48034, [(0x40, 8)], [⟨0, 16, .ro, 0⟩], .trigger, none, 0, 0, .hi⟩
def GL_FB_STAT : RegRow := ⟨0x4c000, [(0x8, 12)], [⟨0, 15, .ro, 0⟩], .slice, none, 0, 0, .no⟩
def GL_FB_LOST : RegRow := ⟨0x4c004, [(0x8, 12)], [⟨0, 32, .rc, 0⟩], .slice, none, 0, 0, .no⟩
def GL_RGN_BASE : RegRow := ⟨0x4c100, [(0x80, 16), (0x10, 3)], [⟨0, 30, .rws, 0⟩], .session, (some 1), 0, 0x80, .no⟩
def GL_RGN_SIZE : RegRow := ⟨0x4c104, [(0x80, 16), (0x10, 3)], [⟨0, 30, .rws, 0⟩, ⟨31, 1, .rws, 0⟩], .session, (some 1), 0, 0x81, .no⟩
def GL_RGN_WPTR : RegRow := ⟨0x4c108, [(0x80, 16), (0x10, 3)], [⟨0, 30, .ro, 0⟩, ⟨30, 1, .ro, 0⟩], .session, none, 0, 0, .no⟩
def GL_RGN_RPTR : RegRow := ⟨0x4c10c, [(0x80, 16), (0x10, 3)], [⟨0, 30, .rw, 0⟩, ⟨30, 1, .rw, 0⟩], .session, none, 0, 0, .no⟩
def GL_FAILS : RegRow := ⟨0x4c130, [(0x80, 16)], [⟨0, 32, .ro, 0⟩], .session, none, 0, 0, .no⟩
def GL_LOST : RegRow := ⟨0x4c134, [(0x80, 16)], [⟨0, 16, .rc, 0⟩, ⟨16, 16, .rc, 0⟩], .session, none, 0, 0, .no⟩
def GL_MT_CFG : RegRow := ⟨0x4d000, [(0x20, 16)], [⟨0, 1, .rws, 0⟩, ⟨1, 2, .rws, 0⟩, ⟨3, 1, .rws, 0⟩, ⟨4, 2, .rws, 0⟩, ⟨6, 2, .rws, 0⟩, ⟨8, 7, .rws, 0⟩, ⟨16, 7, .rws, 0⟩], .mt, (some 1), 0, 0x82, .no⟩
def GL_MT_EXP : RegRow := ⟨0x4d004, [(0x20, 16)], [⟨0, 32, .rws, 0⟩], .mt, (some 1), 0, 0x83, .no⟩
def GL_MT_TOL : RegRow := ⟨0x4d008, [(0x20, 16)], [⟨0, 16, .rws, 0⟩, ⟨16, 16, .rws, 0⟩], .mt, (some 1), 0, 0x84, .no⟩
def GL_MT_VMAX : RegRow := ⟨0x4d00c, [(0x20, 16)], [⟨0, 24, .rws, 1⟩], .mt, (some 1), 0, 0x85, .no⟩
def GL_MT_VIOL : RegRow := ⟨0x4d010, [(0x20, 16)], [⟨0, 32, .ro, 0⟩], .mt, none, 0, 0, .no⟩
def GL_MT_PASS : RegRow := ⟨0x4d014, [(0x20, 16)], [⟨0, 32, .ro, 0⟩], .mt, none, 0, 0, .no⟩
def TM_IN_CFG : RegRow := ⟨0x50000, [(0x4, 112)], [⟨0, 1, .rws, 0⟩, ⟨1, 2, .rws, 0⟩, ⟨3, 2, .rws, 0⟩], .input, (some 1), 0, 0x90, .no⟩
def TM_IN_CNT : RegRow := ⟨0x50200, [(0x4, 112)], [⟨0, 16, .rc, 0⟩, ⟨16, 16, .rc, 0⟩], .input, none, 0, 0, .no⟩
def TM_IN_STAT : RegRow := ⟨0x50400, [(0x4, 112)], [⟨0, 10, .ro, 0⟩], .input, none, 0, 0, .no⟩
def TM_SESS_STORED : RegRow := ⟨0x50600, [(0x10, 16)], [⟨0, 32, .ro, 0⟩], .session, none, 0, 0, .no⟩
def TM_SESS_LOST : RegRow := ⟨0x50604, [(0x10, 16)], [⟨0, 32, .rc, 0⟩], .session, none, 0, 0, .no⟩
def TM_MU_CFG : RegRow := ⟨0x50800, [(0x20, 16)], [⟨0, 1, .rws, 0⟩, ⟨1, 3, .rws, 0⟩, ⟨4, 2, .rws, 0⟩, ⟨6, 2, .rws, 0⟩, ⟨8, 7, .rws, 0⟩, ⟨16, 7, .rws, 0⟩], .mu, (some 1), 0, 0x91, .no⟩
def TM_MU_GATE : RegRow := ⟨0x50804, [(0x20, 16)], [⟨0, 8, .rws, 0⟩, ⟨8, 1, .rws, 0⟩, ⟨9, 1, .rws, 0⟩], .mu, (some 1), 0, 0x92, .no⟩
def TM_MU_AVG : RegRow := ⟨0x50808, [(0x20, 16)], [⟨0, 24, .rws, 1⟩], .mu, (some 1), 0, 0x93, .no⟩
def TM_MU_CNT0 : RegRow := ⟨0x5080c, [(0x20, 16)], [⟨0, 16, .ro, 0⟩, ⟨16, 16, .ro, 0⟩], .mu, none, 0, 0, .no⟩
def TM_MU_CNT1 : RegRow := ⟨0x50810, [(0x20, 16)], [⟨0, 16, .ro, 0⟩, ⟨16, 16, .ro, 0⟩], .mu, none, 0, 0, .no⟩
def TM_MU_RESULTS : RegRow := ⟨0x50814, [(0x20, 16)], [⟨0, 32, .ro, 0⟩], .mu, none, 0, 0, .no⟩
def AO_CFG : RegRow := ⟨0x58000, [(0x80, 16)], [⟨0, 3, .rws, 0⟩, ⟨3, 2, .rws, 0⟩, ⟨5, 1, .rws, 0⟩, ⟨6, 2, .rws, 2⟩, ⟨8, 1, .rws, 0⟩, ⟨9, 1, .rws, 0⟩, ⟨10, 1, .rws, 0⟩], .output, (some 4), 0x2f8, 0xa0, .no⟩
def AO_SPER : RegRow := ⟨0x58004, [(0x80, 16)], [⟨0, 32, .rws, 0x10000⟩], .output, (some 4), 0xFFFFFFFF, 0xa1, .no⟩
def AO_FTW_LO : RegRow := ⟨0x58008, [(0x80, 16)], [⟨0, 32, .rws, 0⟩], .output, (some 4), 0xFFFFFFFF, 0xa2, .lo⟩
def AO_FTW_HI : RegRow := ⟨0x5800c, [(0x80, 16)], [⟨0, 16, .rws, 0⟩], .output, (some 4), 0xFFFFFFFF, 0xa3, .hi⟩
def AO_NCO : RegRow := ⟨0x58010, [(0x80, 16)], [⟨0, 16, .rws, 0⟩, ⟨16, 4, .rws, 0xe⟩, ⟨20, 1, .rws, 0⟩], .output, (some 4), 0xFFFFFFFF, 0xa4, .no⟩
def AO_AMPL : RegRow := ⟨0x58014, [(0x80, 16)], [⟨0, 20, .rws, 0⟩], .output, (some 4), 0xFFFFFFFF, 0xa5, .no⟩
def AO_OFFSET : RegRow := ⟨0x58018, [(0x80, 16)], [⟨0, 20, .rws, 0x80000⟩], .output, (some 4), 0xFFFFFFFF, 0xa6, .no⟩
def AO_SLEW : RegRow := ⟨0x5801c, [(0x80, 16)], [⟨0, 20, .rws, 0⟩, ⟨20, 1, .rws, 0⟩, ⟨21, 11, .rws, 1⟩], .output, (some 4), 0xFFFFFFFF, 0xa7, .no⟩
def AO_STATUS : RegRow := ⟨0x58020, [(0x80, 16)], [⟨0, 3, .ro, 0⟩, ⟨3, 1, .ro, 0⟩, ⟨4, 1, .ro, 0⟩, ⟨5, 1, .ro, 0⟩, ⟨6, 1, .ro, 0⟩, ⟨7, 1, .ro, 0⟩], .output, none, 0, 0, .no⟩
def AO_MON : RegRow := ⟨0x58024, [(0x80, 16)], [⟨0, 16, .ro, 0⟩, ⟨16, 16, .ro, 0⟩], .output, none, 0, 0, .no⟩
def AO_SUPV_CNT : RegRow := ⟨0x58028, [(0x80, 16)], [⟨0, 16, .rc, 0⟩, ⟨16, 16, .rc, 0⟩], .output, none, 0, 0, .no⟩
def AO_CNT : RegRow := ⟨0x5802c, [(0x80, 16)], [⟨0, 16, .rc, 0⟩, ⟨16, 16, .rc, 0⟩], .output, none, 0, 0, .no⟩
def AO_WALL_HDRM : RegRow := ⟨0x58030, [(0x80, 16)], [⟨0, 32, .ro, 0⟩], .output, none, 0, 0, .no⟩
def AO_WALL_CTRL : RegRow := ⟨0x58034, [(0x80, 16)], [⟨0, 16, .rw, 0x40⟩, ⟨16, 7, .ro, 0⟩], .output, none, 0, 0, .no⟩
def AO_REFILL : RegRow := ⟨0x5804c, [(0x80, 16)], [⟨0, 13, .ro, 0⟩, ⟨13, 1, .ro, 0⟩, ⟨14, 1, .ro, 0⟩], .output, none, 0, 0, .no⟩
def AO_SLIP : RegRow := ⟨0x58050, [(0x80, 16)], [⟨0, 32, .ro, 0⟩], .output, none, 0, 0, .no⟩
def AO_SLIPT_LO : RegRow := ⟨0x58054, [(0x80, 16)], [⟨0, 32, .ro, 0⟩], .output, none, 0, 0, .lo⟩
def AO_SLIPT_HI : RegRow := ⟨0x58058, [(0x80, 16)], [⟨0, 32, .ro, 0⟩], .output, none, 0, 0, .hi⟩
def AO_TBL_ADDR : RegRow := ⟨0x5805c, [(0x80, 16)], [⟨0, 14, .rw, 0⟩, ⟨14, 1, .rw, 0⟩], .output, none, 0, 0, .no⟩
def AO_TBL_DATA : RegRow := ⟨0x58060, [(0x80, 16)], [⟨0, 32, .rw, 0⟩], .output, none, 0, 0, .no⟩
def AO_CLIP : RegRow := ⟨0x58064, [(0x80, 16)], [⟨0, 16, .rc, 0⟩, ⟨16, 16, .rc, 0⟩], .output, none, 0, 0, .no⟩
def AO_INFO : RegRow := ⟨0x58800, [], [⟨0, 32, .ro, 0x78000⟩], .device, none, 0, 0, .no⟩
def HR_SW : RegRow := ⟨0x60000, [], [⟨0, 8, .wo, 0⟩, ⟨8, 8, .wo, 0⟩, ⟨16, 8, .wo, 0⟩], .device, none, 0, 0, .no⟩
def HR_SW_STATE : RegRow := ⟨0x60004, [], [⟨0, 8, .ro, 0⟩], .device, none, 0, 0, .no⟩
def HR_JL_EN : RegRow := ⟨0x60010, [], [⟨0, 16, .rws, 0⟩], .device, (some 6), 0, 0xb0, .no⟩
def HR_JL_SRC : RegRow := ⟨0x60014, [(0x4, 4)], [⟨0, 32, .rws, 0⟩], .device, (some 6), 0, 0xb1, .no⟩
def HR_DV_CFG : RegRow := ⟨0x60040, [(0x4, 8)], [⟨0, 18, .rws, 0⟩], .device, (some 6), 0, 0xb2, .no⟩
def HR_DV_COAL : RegRow := ⟨0x60060, [], [⟨0, 16, .rc, 0⟩], .device, none, 0, 0, .no⟩
def HR_FLAG : RegRow := ⟨0x60080, [(0x4, 8)], [⟨0, 32, .w1c, 0⟩], .device, none, 0, 0, .no⟩
def HR_LEVEL : RegRow := ⟨0x600a0, [(0x4, 8)], [⟨0, 32, .ro, 0⟩], .device, none, 0, 0, .no⟩
def HR_ECNT_SEL : RegRow := ⟨0x60100, [(0x8, 16)], [⟨0, 8, .rw, 0⟩, ⟨8, 1, .rw, 0⟩], .device, none, 0, 0, .no⟩
def HR_ECNT : RegRow := ⟨0x60104, [(0x8, 16)], [⟨0, 32, .rc, 0⟩], .device, none, 0, 0, .no⟩
def HR_SC_IN : RegRow := ⟨0x60400, [(0x8, 64)], [⟨0, 8, .rws, 0⟩, ⟨8, 8, .rws, 0⟩, ⟨16, 8, .rws, 0⟩, ⟨24, 8, .rws, 0⟩], .device, (some 6), 0, 0xb3, .no⟩
def HR_SC_CFG : RegRow := ⟨0x60404, [(0x8, 64)], [⟨0, 16, .rws, 0⟩, ⟨16, 4, .rws, 0⟩, ⟨20, 5, .rws, 0⟩, ⟨25, 1, .rws, 0⟩, ⟨26, 2, .rws, 0⟩, ⟨28, 1, .rws, 0⟩, ⟨29, 1, .rws, 0⟩], .device, (some 6), 0, 0xb4, .no⟩
def HR_CG_MASK : RegRow := ⟨0x60800, [(0x20, 16), (0x4, 3)], [⟨0, 32, .rws, 0⟩], .device, (some 6), 0, 0xb5, .no⟩
def HR_CG_CTL : RegRow := ⟨0x6080c, [(0x20, 16)], [⟨0, 8, .rws, 0⟩, ⟨8, 8, .rws, 0⟩, ⟨16, 1, .rws, 0⟩, ⟨17, 1, .rws, 0⟩, ⟨18, 3, .rws, 7⟩, ⟨21, 1, .rws, 1⟩, ⟨22, 1, .rws, 0⟩], .device, (some 6), 0, 0xb6, .no⟩
def HR_CG_STAT : RegRow := ⟨0x60810, [(0x20, 16)], [⟨0, 1, .ro, 1⟩, ⟨16, 16, .rc, 0⟩], .device, none, 0, 0, .no⟩
def HR_SLM : RegRow := ⟨0x61000, [(0x40, 12), (0x4, 8)], [⟨0, 20, .rws, 0⟩, ⟨20, 1, .rws, 0⟩], .slice, (some 2), 0xFFFFFFFF, 0xb7, .no⟩
def HR_SL_COAL : RegRow := ⟨0x61020, [(0x40, 12)], [⟨0, 16, .rc, 0⟩], .slice, none, 0, 0, .no⟩
def HR_AOE : RegRow := ⟨0x61400, [(0x10, 16)], [⟨0, 8, .rws, 1⟩], .output, (some 4), 0xFFFFFFFF, 0xb8, .no⟩
def HR_AO_COAL : RegRow := ⟨0x61404, [(0x10, 16)], [⟨0, 16, .rc, 0⟩], .output, none, 0, 0, .no⟩
def HR_HC_EN : RegRow := ⟨0x61800, [(0x80, 16)], [⟨0, 32, .rws, 0⟩], .session, (some 1), 0, 0xb9, .no⟩
def HR_HC_SRC : RegRow := ⟨0x61804, [(0x80, 16), (0x4, 8)], [⟨0, 32, .rws, 0⟩], .session, (some 1), 0, 0xba, .no⟩
def HR_RING_EN : RegRow := ⟨0x61840, [(0x80, 16), (0x4, 8)], [⟨0, 32, .rws, 0⟩], .session, (some 1), 0, 0xbb, .no⟩
def HR_RING_CFG : RegRow := ⟨0x61860, [(0x80, 16)], [⟨0, 16, .rws, 0⟩], .session, (some 1), 0, 0xbc, .no⟩
def HR_RING_CNT : RegRow := ⟨0x61864, [(0x80, 16)], [⟨0, 32, .rc, 0⟩], .session, none, 0, 0, .no⟩
def CAL_CFG : RegRow := ⟨0x70000, [], [⟨0, 8, .rw, 0x1e⟩, ⟨8, 1, .rw, 1⟩, ⟨9, 1, .rw, 0⟩], .device, none, 0, 0, .no⟩
def CAL_INTERVAL : RegRow := ⟨0x70004, [], [⟨0, 32, .rw, 0xe10⟩], .device, none, 0, 0, .no⟩
def CAL_CMD : RegRow := ⟨0x70008, [], [⟨0, 6, .wo, 0⟩, ⟨31, 1, .wo, 0⟩], .device, none, 0, 0, .no⟩
def CAL_STATUS : RegRow := ⟨0x7000c, [], [⟨0, 1, .ro, 0⟩, ⟨1, 6, .ro, 0⟩, ⟨8, 6, .ro, 0⟩], .device, none, 0, 0, .no⟩
def CAL_UNIT_STAT : RegRow := ⟨0x70100, [(0x4, 36)], [⟨0, 3, .ro, 0⟩, ⟨3, 1, .ro, 0⟩, ⟨4, 3, .ro, 0⟩, ⟨7, 2, .ro, 0⟩, ⟨16, 12, .ro, 0⟩], .device, none, 0, 0, .no⟩
def CAL_UNIT_CNT : RegRow := ⟨0x70200, [(0x4, 36)], [⟨0, 12, .rc, 0⟩, ⟨12, 10, .rc, 0⟩, ⟨22, 10, .rc, 0⟩], .device, none, 0, 0, .no⟩
def CAL_CH_QUAL : RegRow := ⟨0x70400, [(0x4, 112)], [⟨0, 16, .ro, 0xffff⟩, ⟨16, 16, .ro, 0xffff⟩], .device, none, 0, 0, .no⟩
def CAL_AO_QUAL : RegRow := ⟨0x70600, [(0x4, 16)], [⟨0, 16, .ro, 0xffff⟩, ⟨16, 3, .ro, 0⟩], .device, none, 0, 0, .no⟩
def CAL_LN_QUAL : RegRow := ⟨0x70700, [(0x4, 8)], [⟨0, 8, .ro, 0⟩, ⟨8, 12, .ro, 0⟩], .device, none, 0, 0, .no⟩
def RM_SWITCHES : RegRow := ⟨0x6000, [], [⟨0, 32, .rc, 0⟩], .device, none, 0, 0, .no⟩
def RM_MEM_INST : RegRow := ⟨0x6004, [], [⟨0, 17, .ro, 0⟩], .device, none, 0, 0, .no⟩
def RM_OWN_UNITS : RegRow := ⟨0x6100, [(0x80, 16)], [⟨0, 12, .rws, 0⟩, ⟨12, 4, .rws, 0⟩, ⟨16, 8, .rws, 0⟩], .device, (some 8), 0, 0x20, .no⟩
def RM_OWN_IO : RegRow := ⟨0x6104, [(0x80, 16)], [⟨0, 16, .rws, 0⟩, ⟨16, 16, .rws, 0⟩], .device, (some 8), 0, 0x21, .no⟩
def RM_OWN_MEAS : RegRow := ⟨0x6108, [(0x80, 16)], [⟨0, 16, .rws, 0⟩, ⟨16, 16, .rws, 0⟩], .device, (some 8), 0, 0x22, .no⟩
def RM_OWN_CS : RegRow := ⟨0x610c, [(0x80, 16)], [⟨0, 16, .rws, 0⟩], .device, (some 8), 0, 0x23, .no⟩
def RM_MEM_BASE : RegRow := ⟨0x6110, [(0x80, 16)], [⟨0, 16, .rws, 0⟩], .device, (some 8), 0, 0x24, .no⟩
def RM_MEM_SIZE : RegRow := ⟨0x6114, [(0x80, 16)], [⟨0, 17, .rws, 0⟩], .device, (some 8), 0, 0x25, .no⟩
def RM_SESS_CFG : RegRow := ⟨0x6118, [(0x80, 16)], [⟨0, 2, .rws, 0⟩, ⟨2, 1, .rws, 0⟩], .device, (some 8), 0, 0x26, .no⟩
def RM_SESS_CTRL : RegRow := ⟨0x611c, [(0x80, 16)], [⟨0, 1, .wo, 0⟩, ⟨1, 1, .wo, 0⟩, ⟨2, 1, .wo, 0⟩], .device, none, 0, 0, .no⟩
def RM_SESS_STAT : RegRow := ⟨0x6120, [(0x80, 16)], [⟨0, 3, .ro, 0⟩, ⟨3, 2, .ro, 0⟩, ⟨5, 1, .ro, 0⟩, ⟨8, 3, .ro, 0⟩], .session, none, 0, 0, .no⟩
def RM_SESS_SHOTS : RegRow := ⟨0x6124, [(0x80, 16)], [⟨0, 32, .ro, 0⟩], .session, none, 0, 0, .no⟩
def RM_SESS_WAIT : RegRow := ⟨0x6128, [(0x80, 16)], [⟨0, 32, .rc, 0⟩], .session, none, 0, 0, .no⟩
def RM_HIST_CFG : RegRow := ⟨0x6140, [(0x80, 16), (0x10, 4)], [⟨0, 1, .rws, 0⟩, ⟨4, 4, .rws, 0⟩, ⟨8, 5, .rws, 0⟩, ⟨16, 11, .rws, 0⟩], .session, (some 1), 0, 0x27, .no⟩
def RM_HIST_BASE_LO : RegRow := ⟨0x6144, [(0x80, 16), (0x10, 4)], [⟨0, 32, .rws, 0⟩], .session, (some 1), 0, 0x28, .lo⟩
def RM_HIST_BASE_HI : RegRow := ⟨0x6148, [(0x80, 16), (0x10, 4)], [⟨0, 16, .rws, 0⟩], .session, (some 1), 0, 0x29, .hi⟩
def HI_LINK : RegRow := ⟨0x1000, [], [⟨0, 4, .ro, 0⟩, ⟨4, 6, .ro, 0⟩], .device, none, 0, 0, .no⟩
def HI_ACC_LOG : RegRow := ⟨0x1004, [], [⟨0, 20, .ro, 0⟩, ⟨20, 1, .ro, 0⟩, ⟨21, 4, .ro, 0⟩, ⟨31, 1, .w1c, 0⟩], .device, none, 0, 0, .no⟩
def HI_ACC_CNT : RegRow := ⟨0x1008, [], [⟨0, 16, .rc, 0⟩], .device, none, 0, 0, .no⟩
def DB_CMD_TAIL : RegRow := ⟨0x10000000, [(0x1000, 16)], [⟨0, 16, .wo, 0⟩], .page, none, 0, 0, .no⟩
def DB_GO : RegRow := ⟨0x10000004, [(0x1000, 16)], [⟨0, 16, .wo, 0⟩, ⟨31, 1, .wo, 0⟩], .page, none, 0, 0, .no⟩
def DB_HEAD : RegRow := ⟨0x10000008, [(0x1000, 16), (0x4, 3)], [⟨0, 16, .wo, 0⟩, ⟨31, 1, .wo, 0⟩], .page, none, 0, 0, .no⟩
def DB_DATA_HEAD : RegRow := ⟨0x10000014, [(0x1000, 16)], [⟨0, 30, .wo, 0⟩, ⟨30, 1, .wo, 0⟩], .page, none, 0, 0, .no⟩
def RING_STAT : RegRow := ⟨0x10000100, [(0x1000, 16)], [⟨0, 16, .ro, 0⟩, ⟨16, 1, .ro, 0⟩, ⟨17, 1, .ro, 0⟩, ⟨18, 1, .ro, 0⟩], .page, none, 0, 0, .no⟩
def RING_HELD : RegRow := ⟨0x10000104, [(0x1000, 16)], [⟨0, 16, .ro, 0⟩, ⟨16, 4, .ro, 0⟩], .page, none, 0, 0, .no⟩
def RING_ERR : RegRow := ⟨0x10000108, [(0x1000, 16)], [⟨0, 8, .ro, 0⟩, ⟨8, 3, .ro, 0⟩, ⟨12, 2, .ro, 0⟩], .page, none, 0, 0, .no⟩
def DB_CNT0 : RegRow := ⟨0x1000010c, [(0x1000, 16)], [⟨0, 16, .rc, 0⟩, ⟨16, 16, .rc, 0⟩], .page, none, 0, 0, .no⟩
def DB_CNT1 : RegRow := ⟨0x10000110, [(0x1000, 16)], [⟨0, 16, .rc, 0⟩, ⟨16, 16, .rc, 0⟩], .page, none, 0, 0, .no⟩
def DB_CNT2 : RegRow := ⟨0x10000114, [(0x1000, 16)], [⟨0, 32, .rc, 0⟩], .page, none, 0, 0, .no⟩
def RING_BASE_LO : RegRow := ⟨0x10000200, [(0x1000, 16), (0x10, 4)], [⟨0, 32, .rw, 0⟩], .page, none, 0, 0, .lo⟩
def RING_BASE_HI : RegRow := ⟨0x10000204, [(0x1000, 16), (0x10, 4)], [⟨0, 32, .rw, 0⟩], .page, none, 0, 0, .hi⟩
def RING_ENTRIES : RegRow := ⟨0x10000208, [(0x1000, 16), (0x10, 4)], [⟨0, 17, .rw, 0⟩], .page, none, 0, 0, .no⟩
def RING_CTL : RegRow := ⟨0x1000020c, [(0x1000, 16), (0x10, 4)], [⟨0, 1, .rw, 0⟩, ⟨8, 6, .rw, 0⟩, ⟨16, 8, .rw, 0⟩, ⟨24, 8, .rw, 0⟩], .page, none, 0, 0, .no⟩
def DATA_BASE_LO : RegRow := ⟨0x10000240, [(0x1000, 16)], [⟨0, 32, .rw, 0⟩], .page, none, 0, 0, .lo⟩
def DATA_BASE_HI : RegRow := ⟨0x10000244, [(0x1000, 16)], [⟨0, 32, .rw, 0⟩], .page, none, 0, 0, .hi⟩
def DATA_SIZE : RegRow := ⟨0x10000248, [(0x1000, 16)], [⟨0, 24, .rw, 0⟩], .page, none, 0, 0, .no⟩
def DATA_CFG : RegRow := ⟨0x1000024c, [(0x1000, 16)], [⟨0, 1, .rw, 0⟩, ⟨1, 1, .rw, 0⟩, ⟨2, 1, .rw, 0⟩, ⟨8, 8, .rw, 0x10⟩], .page, none, 0, 0, .no⟩
def ST_STATUS : RegRow := ⟨0x2000, [], [⟨0, 3, .ro, 0⟩, ⟨4, 4, .ro, 0xf⟩, ⟨8, 4, .ro, 0xf⟩], .device, none, 0, 0, .no⟩
def ST_EVENTS : RegRow := ⟨0x2004, [], [⟨0, 1, .w1c, 0⟩, ⟨1, 1, .w1c, 0⟩, ⟨2, 1, .w1c, 0⟩, ⟨3, 1, .w1c, 0⟩, ⟨4, 1, .w1c, 0⟩], .device, none, 0, 0, .no⟩
def ST_CNT : RegRow := ⟨0x2008, [], [⟨0, 16, .rc, 0⟩, ⟨16, 8, .rc, 0⟩], .device, none, 0, 0, .no⟩
def ST_DOWN_CNT : RegRow := ⟨0x200c, [], [⟨0, 16, .rc, 0⟩, ⟨16, 16, .rc, 0⟩], .device, none, 0, 0, .no⟩
def ST_CTRL : RegRow := ⟨0x2010, [], [⟨0, 1, .wo, 0⟩], .device, none, 0, 0, .no⟩
def ST_F_CFG : RegRow := ⟨0x2100, [], [⟨0, 1, .rw, 1⟩], .device, none, 0, 0, .no⟩
def ST_F_CNT : RegRow := ⟨0x2104, [], [⟨0, 16, .rc, 0⟩, ⟨16, 8, .rc, 0⟩], .device, none, 0, 0, .no⟩
def TL_ROLE : RegRow := ⟨0x78000, [], [⟨0, 2, .ro, 0⟩, ⟨2, 1, .ro, 0⟩, ⟨8, 5, .ro, 0⟩, ⟨16, 4, .ro, 0⟩, ⟨24, 3, .ro, 0⟩, ⟨31, 1, .ro, 0⟩], .device, none, 0, 0, .no⟩
def TL_DISC_CTRL : RegRow := ⟨0x78004, [], [⟨0, 1, .wo, 0⟩], .device, none, 0, 0, .no⟩
def TL_DISC_STAT : RegRow := ⟨0x78008, [], [⟨0, 1, .ro, 0⟩, ⟨1, 5, .ro, 0⟩, ⟨6, 3, .ro, 0⟩, ⟨9, 4, .ro, 0⟩, ⟨16, 8, .ro, 0⟩], .device, none, 0, 0, .no⟩
def TL_CLUSTER : RegRow := ⟨0x7800c, [], [⟨0, 3, .rw, 0⟩], .device, none, 0, 0, .no⟩
def TL_EV_CFG : RegRow := ⟨0x78010, [], [⟨0, 8, .rws, 0⟩, ⟨8, 8, .rws, 0⟩, ⟨16, 10, .rws, 0xf0⟩], .device, (some 0), 0, 0xc0, .no⟩
def TL_EV_DELAY : RegRow := ⟨0x78014, [], [⟨0, 16, .ro, 0⟩, ⟨16, 16, .ro, 0⟩], .device, none, 0, 0, .no⟩
def TL_EV_CNT : RegRow := ⟨0x78018, [], [⟨0, 12, .rc, 0⟩, ⟨12, 12, .rc, 0⟩, ⟨24, 8, .rc, 0⟩], .device, none, 0, 0, .no⟩
def TL_ALIGN_CTRL : RegRow := ⟨0x78020, [], [⟨0, 1, .wo, 0⟩, ⟨1, 1, .rw, 1⟩], .device, none, 0, 0, .no⟩
def TL_ALIGN_STAT : RegRow := ⟨0x78024, [], [⟨0, 3, .ro, 0⟩, ⟨3, 1, .w1c, 0⟩, ⟨16, 16, .ro, 0⟩], .device, none, 0, 0, .no⟩
def TL_ALIGN_PHASE : RegRow := ⟨0x78028, [], [⟨0, 16, .ro, 0⟩], .device, none, 0, 0, .no⟩
def TL_FAB_CFG : RegRow := ⟨0x78030, [], [⟨0, 16, .rws, 0⟩, ⟨16, 16, .rws, 0⟩], .device, (some 0), 0, 0xc1, .no⟩
def TL_RACC_TGT : RegRow := ⟨0x78040, [], [⟨0, 5, .rw, 0⟩, ⟨8, 4, .rw, 0⟩, ⟨16, 1, .rw, 0⟩, ⟨31, 1, .wo, 0⟩], .device, none, 0, 0, .no⟩
def TL_RACC_OFS : RegRow := ⟨0x78044, [], [⟨0, 20, .rw, 0⟩], .device, none, 0, 0, .no⟩
def TL_RACC_DATA : RegRow := ⟨0x78048, [], [⟨0, 32, .rw, 0⟩], .device, none, 0, 0, .no⟩
def TL_RACC_STAT : RegRow := ⟨0x7804c, [], [⟨0, 1, .ro, 0⟩, ⟨8, 8, .ro, 0⟩], .device, none, 0, 0, .no⟩
def TL_PORT_CFG : RegRow := ⟨0x78100, [(0x40, 4)], [⟨0, 2, .rws, 1⟩, ⟨2, 1, .rws, 1⟩], .device, (some 7), 0x4, 0xc2, .no⟩
def TL_PORT_STAT : RegRow := ⟨0x78104, [(0x40, 4)], [⟨0, 3, .ro, 0⟩, ⟨3, 1, .ro, 0⟩, ⟨4, 2, .ro, 0⟩, ⟨6, 2, .ro, 0⟩, ⟨8, 5, .ro, 0⟩, ⟨16, 4, .ro, 0⟩], .device, none, 0, 0, .no⟩
def TL_PORT_LAT : RegRow := ⟨0x78108, [(0x40, 4)], [⟨0, 20, .ro, 0⟩], .device, none, 0, 0, .no⟩
def TL_PORT_CNT : RegRow := ⟨0x7810c, [(0x40, 4)], [⟨0, 16, .rc, 0⟩, ⟨16, 8, .rc, 0⟩], .device, none, 0, 0, .no⟩
def TL_PORT_EVENTS : RegRow := ⟨0x78110, [(0x40, 4)], [⟨0, 1, .w1c, 0⟩, ⟨1, 1, .w1c, 0⟩, ⟨2, 1, .w1c, 0⟩, ⟨3, 1, .w1c, 0⟩], .device, none, 0, 0, .no⟩
def TL_ROUTE : RegRow := ⟨0x78400, [(0x4, 64)], [⟨0, 16, .rw, 0⟩, ⟨16, 5, .rw, 0⟩, ⟨24, 2, .rw, 0⟩, ⟨31, 1, .rw, 0⟩], .device, none, 0, 0, .no⟩
def FLT_FIRST : RegRow := ⟨0x80000, [], [⟨0, 6, .ro, 0⟩, ⟨6, 1, .ro, 0⟩, ⟨8, 8, .ro, 0⟩, ⟨16, 4, .ro, 0⟩, ⟨20, 1, .ro, 0⟩, ⟨31, 1, .w1c, 0⟩], .device, none, 0, 0, .no⟩
def FLT_FIRST_TBC_LO : RegRow := ⟨0x80004, [], [⟨0, 32, .ro, 0⟩], .device, none, 0, 0, .lo⟩
def FLT_FIRST_TBC_HI : RegRow := ⟨0x80008, [], [⟨0, 16, .ro, 0⟩], .device, none, 0, 0, .hi⟩
def FLT_DDR_ADDR_LO : RegRow := ⟨0x8000c, [], [⟨0, 32, .ro, 0⟩], .device, none, 0, 0, .lo⟩
def FLT_DDR_ADDR_HI : RegRow := ⟨0x8001c, [], [⟨0, 4, .ro, 0⟩], .device, none, 0, 0, .hi⟩
def FLT_TEMP : RegRow := ⟨0x80010, [], [⟨0, 12, .ro, 0⟩, ⟨12, 1, .ro, 0⟩, ⟨13, 1, .ro, 0⟩], .device, none, 0, 0, .no⟩
def FLT_TEMP_CFG : RegRow := ⟨0x80014, [], [⟨0, 12, .rw, 0x3e8⟩, ⟨16, 12, .rw, 0x44c⟩], .device, none, 0, 0, .no⟩
def FLT_SUPPLY : RegRow := ⟨0x80018, [], [⟨0, 5, .ro, 0⟩], .device, none, 0, 0, .no⟩
def FLT_SC_CFG : RegRow := ⟨0x80020, [], [⟨0, 8, .rw, 0xa⟩, ⟨16, 12, .rw, 0x40⟩], .device, none, 0, 0, .no⟩
def FLT_SC_STAT : RegRow := ⟨0x80040, [(0x4, 12)], [⟨0, 9, .ro, 0⟩, ⟨9, 1, .ro, 0⟩, ⟨16, 16, .ro, 0⟩], .device, none, 0, 0, .no⟩
def FLT_CORE : RegRow := ⟨0x80080, [(0x4, 4)], [⟨0, 1, .wo, 0⟩, ⟨1, 1, .wo, 0⟩, ⟨2, 2, .ro, 0⟩, ⟨4, 1, .ro, 0⟩, ⟨5, 1, .w1c, 0⟩], .device, none, 0, 0, .no⟩
def FLT_CNT : RegRow := ⟨0x80104, [(0x4, 24)], [⟨0, 32, .rc, 0⟩], .device, none, 0, 0, .no⟩
def FLT_INJ_SEL : RegRow := ⟨0x80200, [], [⟨0, 6, .rw, 0⟩, ⟨6, 1, .rw, 0⟩, ⟨8, 8, .rw, 0⟩], .device, none, 0, 0, .no⟩
def FLT_INJ_CTRL : RegRow := ⟨0x80204, [], [⟨0, 16, .rw, 0⟩, ⟨16, 1, .wo, 0⟩, ⟨17, 1, .wo, 0⟩, ⟨18, 1, .ro, 0⟩, ⟨19, 1, .w1c, 0⟩, ⟨20, 1, .w1c, 0⟩], .device, none, 0, 0, .no⟩
def FLT_CS_STAGE : RegRow := ⟨0x80300, [(0x8, 16)], [⟨0, 1, .rw, 0⟩], .session, none, 0, 0, .no⟩
def FLT_CS_SWAP : RegRow := ⟨0x80304, [(0x8, 16)], [⟨0, 1, .wo, 0⟩, ⟨1, 1, .ro, 0⟩], .session, none, 0, 0, .no⟩
def NVM_H_STAT : RegRow := ⟨0x90000, [], [⟨0, 1, .ro, 0⟩, ⟨1, 1, .ro, 0⟩, ⟨2, 1, .w1c, 0⟩], .device, none, 0, 0, .no⟩
def NVM_H_ADDR : RegRow := ⟨0x90004, [], [⟨0, 8, .rw, 0⟩, ⟨8, 1, .rw, 0⟩], .device, none, 0, 0, .no⟩
def NVM_H_DATA : RegRow := ⟨0x90008, [], [⟨0, 32, .rw, 0⟩], .device, none, 0, 0, .no⟩
def NVM_H_CTRL : RegRow := ⟨0x9000c, [], [⟨0, 1, .wo, 0⟩, ⟨1, 1, .wo, 0⟩], .device, none, 0, 0, .no⟩
def NVM_F_STAT : RegRow := ⟨0x90100, [], [⟨0, 1, .ro, 0⟩, ⟨1, 1, .ro, 0⟩, ⟨2, 1, .ro, 0⟩, ⟨3, 1, .ro, 0⟩, ⟨4, 1, .ro, 0⟩, ⟨5, 1, .w1c, 0⟩, ⟨16, 12, .ro, 0⟩], .device, none, 0, 0, .no⟩
def NVM_F_ADDR : RegRow := ⟨0x90104, [], [⟨0, 16, .rw, 0⟩, ⟨16, 1, .rw, 0⟩, ⟨17, 1, .rw, 0⟩], .device, none, 0, 0, .no⟩
def NVM_F_DATA : RegRow := ⟨0x90108, [], [⟨0, 32, .rw, 0⟩], .device, none, 0, 0, .no⟩
def NVM_F_CTRL : RegRow := ⟨0x9010c, [], [⟨0, 1, .wo, 0⟩, ⟨1, 1, .wo, 0⟩, ⟨2, 1, .wo, 0⟩], .device, none, 0, 0, .no⟩
def NVM_F_COUNT : RegRow := ⟨0x90110, [], [⟨0, 32, .ro, 0⟩], .device, none, 0, 0, .no⟩
def NVM_BOOT_STAT : RegRow := ⟨0x90114, [], [⟨0, 1, .ro, 0⟩, ⟨1, 1, .ro, 0⟩, ⟨2, 1, .ro, 0⟩, ⟨3, 2, .ro, 0⟩, ⟨5, 1, .ro, 0⟩, ⟨8, 8, .ro, 0⟩, ⟨16, 16, .ro, 0⟩], .device, none, 0, 0, .no⟩
def NVM_BOOT_CMT : RegRow := ⟨0x90118, [], [⟨0, 8, .ro, 0⟩, ⟨16, 16, .ro, 0⟩], .device, none, 0, 0, .no⟩
def SYS_ID : RegRow := ⟨0x0, [], [⟨0, 16, .ro, 0x1e7a⟩, ⟨16, 16, .ro, 0x9600⟩], .device, none, 0, 0, .no⟩
def SYS_STEP : RegRow := ⟨0x4, [], [⟨0, 8, .ro, 0⟩, ⟨8, 8, .ro, 1⟩], .device, none, 0, 0, .no⟩
def SYS_STATUS : RegRow := ⟨0x8, [], [⟨0, 3, .ro, 0⟩, ⟨3, 1, .ro, 0⟩, ⟨4, 5, .ro, 0⟩, ⟨9, 1, .ro, 0⟩], .device, none, 0, 0, .no⟩
def SYS_SCRATCH : RegRow := ⟨0x10, [], [⟨0, 32, .rw, 0⟩], .device, none, 0, 0, .no⟩
def SYS_COMMIT_WHERE : RegRow := ⟨0x4c, [], [⟨0, 20, .ro, 0⟩, ⟨20, 5, .ro, 0⟩, ⟨25, 1, .ro, 0⟩, ⟨28, 4, .ro, 0⟩], .device, none, 0, 0, .no⟩
def SYS_COMMIT_LAST : RegRow := ⟨0x50, [], [⟨0, 16, .ro, 0⟩, ⟨16, 12, .ro, 0⟩], .device, none, 0, 0, .no⟩
def SYS_COMMIT_LFID : RegRow := ⟨0x54, [], [⟨0, 8, .ro, 0⟩, ⟨16, 16, .ro, 0⟩], .device, none, 0, 0, .no⟩
def AO_SEG_STATUS : RegRow := ⟨0x58038, [(0x80, 16)], [⟨0, 12, .ro, 0⟩, ⟨12, 3, .ro, 0⟩, ⟨15, 1, .ro, 0⟩, ⟨16, 1, .ro, 0⟩, ⟨17, 1, .ro, 0⟩, ⟨18, 1, .ro, 0⟩], .output, none, 0, 0, .no⟩
def AO_SEG_PASS : RegRow := ⟨0x5803c, [(0x80, 16)], [⟨0, 32, .ro, 0⟩], .output, none, 0, 0, .no⟩
def AO_SEG_VEC : RegRow := ⟨0x58040, [(0x80, 16)], [⟨0, 32, .ro, 0⟩], .output, none, 0, 0, .no⟩
def AO_JUMP_CNT0 : RegRow := ⟨0x58044, [(0x80, 16)], [⟨0, 16, .rc, 0⟩, ⟨16, 16, .rc, 0⟩], .output, none, 0, 0, .no⟩
def AO_JUMP_CNT1 : RegRow := ⟨0x58048, [(0x80, 16)], [⟨0, 16, .rc, 0⟩, ⟨16, 16, .rc, 0⟩], .output, none, 0, 0, .no⟩
def MSIX_TABLE : RegRow := ⟨0x10000800, [(0x1000, 16), (0x4, 256)], [⟨0, 32, .rw, 0⟩], .page, none, 0, 0, .no⟩
def MSIX_PBA : RegRow := ⟨0x10000c00, [(0x1000, 16), (0x4, 2)], [⟨0, 32, .ro, 0⟩], .page, none, 0, 0, .no⟩
end Sys2Proof.Machine.RowOf

namespace Sys2Proof.Machine

/-- The row of each register. A doorbell-page register of function fn has its key at 2^28 + fn × 4096; a register of the timing-set window
has the timing set as its first index. -/
def Reg.row : Reg → RegRow
  | .EP_WALL_HDRM => RowOf.EP_WALL_HDRM
  | .EP_WALL_MIN => RowOf.EP_WALL_MIN
  | .EP_WALL_CTRL => RowOf.EP_WALL_CTRL
  | .EP_WALL_STARVE => RowOf.EP_WALL_STARVE
  | .SYS_COMMIT => RowOf.SYS_COMMIT
  | .SYS_COMMIT_STATUS => RowOf.SYS_COMMIT_STATUS
  | .SYS_COMMIT_INFO => RowOf.SYS_COMMIT_INFO
  | .TB_REF_CFG => RowOf.TB_REF_CFG
  | .TB_STATUS => RowOf.TB_STATUS
  | .TB_EVENTS => RowOf.TB_EVENTS
  | .TB_CTRL => RowOf.TB_CTRL
  | .TB_HOLD => RowOf.TB_HOLD
  | .TB_PHASE => RowOf.TB_PHASE
  | .TB_TBC_LO => RowOf.TB_TBC_LO
  | .TB_TBC_HI => RowOf.TB_TBC_HI
  | .TB_EPOCH_LO => RowOf.TB_EPOCH_LO
  | .TB_EPOCH_HI => RowOf.TB_EPOCH_HI
  | .TB_EPOCH_CTRL => RowOf.TB_EPOCH_CTRL
  | .TB_SYNC_PERIOD => RowOf.TB_SYNC_PERIOD
  | .TB_EPOCH_STAT => RowOf.TB_EPOCH_STAT
  | .TB_SYNC_SNAP_LO => RowOf.TB_SYNC_SNAP_LO
  | .TB_SYNC_SNAP_HI => RowOf.TB_SYNC_SNAP_HI
  | .EP_EDGE_CNT0 => RowOf.EP_EDGE_CNT0
  | .EP_EDGE_CNT1 => RowOf.EP_EDGE_CNT1
  | .EP_TS_SEL => RowOf.EP_TS_SEL
  | .EP_TS_STATUS => RowOf.EP_TS_STATUS
  | .EP_TS_PERIOD_LO => RowOf.EP_TS_PERIOD_LO
  | .EP_TS_PERIOD_HI => RowOf.EP_TS_PERIOD_HI
  | .EP_TS_ORDER => RowOf.EP_TS_ORDER
  | .EP_TS_FMT => RowOf.EP_TS_FMT
  | .EP_TS_T_ON => RowOf.EP_TS_T_ON
  | .EP_TS_T_DATA => RowOf.EP_TS_T_DATA
  | .EP_TS_T_RET => RowOf.EP_TS_T_RET
  | .EP_TS_T_STRB => RowOf.EP_TS_T_STRB
  | .EP_TS_T_CLOSE => RowOf.EP_TS_T_CLOSE
  | .CH_SLICE_CFG => RowOf.CH_SLICE_CFG
  | .CH_BANK_STATUS => RowOf.CH_BANK_STATUS
  | .CH_DS_CFG => RowOf.CH_DS_CFG
  | .CH_DS_TIME => RowOf.CH_DS_TIME
  | .CH_SPARE_CTRL => RowOf.CH_SPARE_CTRL
  | .CH_SPARE_STATUS => RowOf.CH_SPARE_STATUS
  | .CH_LANE_CFG => RowOf.CH_LANE_CFG
  | .CH_LVL => RowOf.CH_LVL
  | .CH_REFLEX => RowOf.CH_REFLEX
  | .CH_SAFE => RowOf.CH_SAFE
  | .CH_LANE_STAT => RowOf.CH_LANE_STAT
  | .CH_LANE_CNT => RowOf.CH_LANE_CNT
  | .SQ_CS_ECC => RowOf.SQ_CS_ECC
  | .SQ_CS_ECC_ADDR => RowOf.SQ_CS_ECC_ADDR
  | .SQ_LOAD_STATUS => RowOf.SQ_LOAD_STATUS
  | .SQ_REGION_STATE => RowOf.SQ_REGION_STATE
  | .SQ_CTRL => RowOf.SQ_CTRL
  | .SQ_STATUS => RowOf.SQ_STATUS
  | .SQ_PC => RowOf.SQ_PC
  | .SQ_LC0 => RowOf.SQ_LC0
  | .SQ_LC1 => RowOf.SQ_LC1
  | .SQ_FLAGS => RowOf.SQ_FLAGS
  | .SQ_FAULT => RowOf.SQ_FAULT
  | .SQ_SPAN_REC => RowOf.SQ_SPAN_REC
  | .SQ_SPAN_LC0 => RowOf.SQ_SPAN_LC0
  | .SQ_SPAN_LC1 => RowOf.SQ_SPAN_LC1
  | .SQ_CNT => RowOf.SQ_CNT
  | .SQ_SPAN_STK => RowOf.SQ_SPAN_STK
  | .CSW_ADDR => RowOf.CSW_ADDR
  | .CSW_DATA => RowOf.CSW_DATA
  | .CSW_META => RowOf.CSW_META
  | .EP_SEG_STATUS => RowOf.EP_SEG_STATUS
  | .EP_SEG_PASS => RowOf.EP_SEG_PASS
  | .EP_SEG_VEC => RowOf.EP_SEG_VEC
  | .EP_JUMP_CNT0 => RowOf.EP_JUMP_CNT0
  | .EP_JUMP_CNT1 => RowOf.EP_JUMP_CNT1
  | .FW_CFG => RowOf.FW_CFG
  | .FW_SCR_CFG => RowOf.FW_SCR_CFG
  | .FW_SCR_OFS => RowOf.FW_SCR_OFS
  | .FW_STATUS => RowOf.FW_STATUS
  | .FW_CNT => RowOf.FW_CNT
  | .FW_SCR_ADDR => RowOf.FW_SCR_ADDR
  | .FW_SCR_DATA => RowOf.FW_SCR_DATA
  | .FW_INIT => RowOf.FW_INIT
  | .FW_REG => RowOf.FW_REG
  | .FW_PMAP => RowOf.FW_PMAP
  | .FW_PMRK => RowOf.FW_PMRK
  | .VS_RESV => RowOf.VS_RESV
  | .VS_PT_BASE => RowOf.VS_PT_BASE
  | .VS_PLANE => RowOf.VS_PLANE
  | .VS_PF => RowOf.VS_PF
  | .VS_PC => RowOf.VS_PC
  | .VS_INV => RowOf.VS_INV
  | .VS_SESS_STAT => RowOf.VS_SESS_STAT
  | .VS_FAULT_VA_LO => RowOf.VS_FAULT_VA_LO
  | .VS_FAULT_VA_HI => RowOf.VS_FAULT_VA_HI
  | .VS_PC_CNT => RowOf.VS_PC_CNT
  | .VS_PC_BASE => RowOf.VS_PC_BASE
  | .VS_SL_PIN => RowOf.VS_SL_PIN
  | .VS_SL_STAT => RowOf.VS_SL_STAT
  | .VS_SL_SLIP => RowOf.VS_SL_SLIP
  | .VS_SL_SLIPT_LO => RowOf.VS_SL_SLIPT_LO
  | .VS_SL_SLIPT_HI => RowOf.VS_SL_SLIPT_HI
  | .VS_SL_UIDX_LO => RowOf.VS_SL_UIDX_LO
  | .VS_SL_UIDX_HI => RowOf.VS_SL_UIDX_HI
  | .VS_SL_CNT => RowOf.VS_SL_CNT
  | .TG_CFG => RowOf.TG_CFG
  | .TG_SRC => RowOf.TG_SRC
  | .TG_PAT => RowOf.TG_PAT
  | .TG_COUNT => RowOf.TG_COUNT
  | .TG_WIN => RowOf.TG_WIN
  | .TG_PRE => RowOf.TG_PRE
  | .TG_POST => RowOf.TG_POST
  | .TG_CAP => RowOf.TG_CAP
  | .TG_REARM => RowOf.TG_REARM
  | .TG_CTRL => RowOf.TG_CTRL
  | .TG_STATUS => RowOf.TG_STATUS
  | .TG_CNT => RowOf.TG_CNT
  | .TG_DEAD_LO => RowOf.TG_DEAD_LO
  | .TG_DEAD_HI => RowOf.TG_DEAD_HI
  | .GL_FB_STAT => RowOf.GL_FB_STAT
  | .GL_FB_LOST => RowOf.GL_FB_LOST
  | .GL_RGN_BASE => RowOf.GL_RGN_BASE
  | .GL_RGN_SIZE => RowOf.GL_RGN_SIZE
  | .GL_RGN_WPTR => RowOf.GL_RGN_WPTR
  | .GL_RGN_RPTR => RowOf.GL_RGN_RPTR
  | .GL_FAILS => RowOf.GL_FAILS
  | .GL_LOST => RowOf.GL_LOST
  | .GL_MT_CFG => RowOf.GL_MT_CFG
  | .GL_MT_EXP => RowOf.GL_MT_EXP
  | .GL_MT_TOL => RowOf.GL_MT_TOL
  | .GL_MT_VMAX => RowOf.GL_MT_VMAX
  | .GL_MT_VIOL => RowOf.GL_MT_VIOL
  | .GL_MT_PASS => RowOf.GL_MT_PASS
  | .TM_IN_CFG => RowOf.TM_IN_CFG
  | .TM_IN_CNT => RowOf.TM_IN_CNT
  | .TM_IN_STAT => RowOf.TM_IN_STAT
  | .TM_SESS_STORED => RowOf.TM_SESS_STORED
  | .TM_SESS_LOST => RowOf.TM_SESS_LOST
  | .TM_MU_CFG => RowOf.TM_MU_CFG
  | .TM_MU_GATE => RowOf.TM_MU_GATE
  | .TM_MU_AVG => RowOf.TM_MU_AVG
  | .TM_MU_CNT0 => RowOf.TM_MU_CNT0
  | .TM_MU_CNT1 => RowOf.TM_MU_CNT1
  | .TM_MU_RESULTS => RowOf.TM_MU_RESULTS
  | .AO_CFG => RowOf.AO_CFG
  | .AO_SPER => RowOf.AO_SPER
  | .AO_FTW_LO => RowOf.AO_FTW_LO
  | .AO_FTW_HI => RowOf.AO_FTW_HI
  | .AO_NCO => RowOf.AO_NCO
  | .AO_AMPL => RowOf.AO_AMPL
  | .AO_OFFSET => RowOf.AO_OFFSET
  | .AO_SLEW => RowOf.AO_SLEW
  | .AO_STATUS => RowOf.AO_STATUS
  | .AO_MON => RowOf.AO_MON
  | .AO_SUPV_CNT => RowOf.AO_SUPV_CNT
  | .AO_CNT => RowOf.AO_CNT
  | .AO_WALL_HDRM => RowOf.AO_WALL_HDRM
  | .AO_WALL_CTRL => RowOf.AO_WALL_CTRL
  | .AO_REFILL => RowOf.AO_REFILL
  | .AO_SLIP => RowOf.AO_SLIP
  | .AO_SLIPT_LO => RowOf.AO_SLIPT_LO
  | .AO_SLIPT_HI => RowOf.AO_SLIPT_HI
  | .AO_TBL_ADDR => RowOf.AO_TBL_ADDR
  | .AO_TBL_DATA => RowOf.AO_TBL_DATA
  | .AO_CLIP => RowOf.AO_CLIP
  | .AO_INFO => RowOf.AO_INFO
  | .HR_SW => RowOf.HR_SW
  | .HR_SW_STATE => RowOf.HR_SW_STATE
  | .HR_JL_EN => RowOf.HR_JL_EN
  | .HR_JL_SRC => RowOf.HR_JL_SRC
  | .HR_DV_CFG => RowOf.HR_DV_CFG
  | .HR_DV_COAL => RowOf.HR_DV_COAL
  | .HR_FLAG => RowOf.HR_FLAG
  | .HR_LEVEL => RowOf.HR_LEVEL
  | .HR_ECNT_SEL => RowOf.HR_ECNT_SEL
  | .HR_ECNT => RowOf.HR_ECNT
  | .HR_SC_IN => RowOf.HR_SC_IN
  | .HR_SC_CFG => RowOf.HR_SC_CFG
  | .HR_CG_MASK => RowOf.HR_CG_MASK
  | .HR_CG_CTL => RowOf.HR_CG_CTL
  | .HR_CG_STAT => RowOf.HR_CG_STAT
  | .HR_SLM => RowOf.HR_SLM
  | .HR_SL_COAL => RowOf.HR_SL_COAL
  | .HR_AOE => RowOf.HR_AOE
  | .HR_AO_COAL => RowOf.HR_AO_COAL
  | .HR_HC_EN => RowOf.HR_HC_EN
  | .HR_HC_SRC => RowOf.HR_HC_SRC
  | .HR_RING_EN => RowOf.HR_RING_EN
  | .HR_RING_CFG => RowOf.HR_RING_CFG
  | .HR_RING_CNT => RowOf.HR_RING_CNT
  | .CAL_CFG => RowOf.CAL_CFG
  | .CAL_INTERVAL => RowOf.CAL_INTERVAL
  | .CAL_CMD => RowOf.CAL_CMD
  | .CAL_STATUS => RowOf.CAL_STATUS
  | .CAL_UNIT_STAT => RowOf.CAL_UNIT_STAT
  | .CAL_UNIT_CNT => RowOf.CAL_UNIT_CNT
  | .CAL_CH_QUAL => RowOf.CAL_CH_QUAL
  | .CAL_AO_QUAL => RowOf.CAL_AO_QUAL
  | .CAL_LN_QUAL => RowOf.CAL_LN_QUAL
  | .RM_SWITCHES => RowOf.RM_SWITCHES
  | .RM_MEM_INST => RowOf.RM_MEM_INST
  | .RM_OWN_UNITS => RowOf.RM_OWN_UNITS
  | .RM_OWN_IO => RowOf.RM_OWN_IO
  | .RM_OWN_MEAS => RowOf.RM_OWN_MEAS
  | .RM_OWN_CS => RowOf.RM_OWN_CS
  | .RM_MEM_BASE => RowOf.RM_MEM_BASE
  | .RM_MEM_SIZE => RowOf.RM_MEM_SIZE
  | .RM_SESS_CFG => RowOf.RM_SESS_CFG
  | .RM_SESS_CTRL => RowOf.RM_SESS_CTRL
  | .RM_SESS_STAT => RowOf.RM_SESS_STAT
  | .RM_SESS_SHOTS => RowOf.RM_SESS_SHOTS
  | .RM_SESS_WAIT => RowOf.RM_SESS_WAIT
  | .RM_HIST_CFG => RowOf.RM_HIST_CFG
  | .RM_HIST_BASE_LO => RowOf.RM_HIST_BASE_LO
  | .RM_HIST_BASE_HI => RowOf.RM_HIST_BASE_HI
  | .HI_LINK => RowOf.HI_LINK
  | .HI_ACC_LOG => RowOf.HI_ACC_LOG
  | .HI_ACC_CNT => RowOf.HI_ACC_CNT
  | .DB_CMD_TAIL => RowOf.DB_CMD_TAIL
  | .DB_GO => RowOf.DB_GO
  | .DB_HEAD => RowOf.DB_HEAD
  | .DB_DATA_HEAD => RowOf.DB_DATA_HEAD
  | .RING_STAT => RowOf.RING_STAT
  | .RING_HELD => RowOf.RING_HELD
  | .RING_ERR => RowOf.RING_ERR
  | .DB_CNT0 => RowOf.DB_CNT0
  | .DB_CNT1 => RowOf.DB_CNT1
  | .DB_CNT2 => RowOf.DB_CNT2
  | .RING_BASE_LO => RowOf.RING_BASE_LO
  | .RING_BASE_HI => RowOf.RING_BASE_HI
  | .RING_ENTRIES => RowOf.RING_ENTRIES
  | .RING_CTL => RowOf.RING_CTL
  | .DATA_BASE_LO => RowOf.DATA_BASE_LO
  | .DATA_BASE_HI => RowOf.DATA_BASE_HI
  | .DATA_SIZE => RowOf.DATA_SIZE
  | .DATA_CFG => RowOf.DATA_CFG
  | .ST_STATUS => RowOf.ST_STATUS
  | .ST_EVENTS => RowOf.ST_EVENTS
  | .ST_CNT => RowOf.ST_CNT
  | .ST_DOWN_CNT => RowOf.ST_DOWN_CNT
  | .ST_CTRL => RowOf.ST_CTRL
  | .ST_F_CFG => RowOf.ST_F_CFG
  | .ST_F_CNT => RowOf.ST_F_CNT
  | .TL_ROLE => RowOf.TL_ROLE
  | .TL_DISC_CTRL => RowOf.TL_DISC_CTRL
  | .TL_DISC_STAT => RowOf.TL_DISC_STAT
  | .TL_CLUSTER => RowOf.TL_CLUSTER
  | .TL_EV_CFG => RowOf.TL_EV_CFG
  | .TL_EV_DELAY => RowOf.TL_EV_DELAY
  | .TL_EV_CNT => RowOf.TL_EV_CNT
  | .TL_ALIGN_CTRL => RowOf.TL_ALIGN_CTRL
  | .TL_ALIGN_STAT => RowOf.TL_ALIGN_STAT
  | .TL_ALIGN_PHASE => RowOf.TL_ALIGN_PHASE
  | .TL_FAB_CFG => RowOf.TL_FAB_CFG
  | .TL_RACC_TGT => RowOf.TL_RACC_TGT
  | .TL_RACC_OFS => RowOf.TL_RACC_OFS
  | .TL_RACC_DATA => RowOf.TL_RACC_DATA
  | .TL_RACC_STAT => RowOf.TL_RACC_STAT
  | .TL_PORT_CFG => RowOf.TL_PORT_CFG
  | .TL_PORT_STAT => RowOf.TL_PORT_STAT
  | .TL_PORT_LAT => RowOf.TL_PORT_LAT
  | .TL_PORT_CNT => RowOf.TL_PORT_CNT
  | .TL_PORT_EVENTS => RowOf.TL_PORT_EVENTS
  | .TL_ROUTE => RowOf.TL_ROUTE
  | .FLT_FIRST => RowOf.FLT_FIRST
  | .FLT_FIRST_TBC_LO => RowOf.FLT_FIRST_TBC_LO
  | .FLT_FIRST_TBC_HI => RowOf.FLT_FIRST_TBC_HI
  | .FLT_DDR_ADDR_LO => RowOf.FLT_DDR_ADDR_LO
  | .FLT_DDR_ADDR_HI => RowOf.FLT_DDR_ADDR_HI
  | .FLT_TEMP => RowOf.FLT_TEMP
  | .FLT_TEMP_CFG => RowOf.FLT_TEMP_CFG
  | .FLT_SUPPLY => RowOf.FLT_SUPPLY
  | .FLT_SC_CFG => RowOf.FLT_SC_CFG
  | .FLT_SC_STAT => RowOf.FLT_SC_STAT
  | .FLT_CORE => RowOf.FLT_CORE
  | .FLT_CNT => RowOf.FLT_CNT
  | .FLT_INJ_SEL => RowOf.FLT_INJ_SEL
  | .FLT_INJ_CTRL => RowOf.FLT_INJ_CTRL
  | .FLT_CS_STAGE => RowOf.FLT_CS_STAGE
  | .FLT_CS_SWAP => RowOf.FLT_CS_SWAP
  | .NVM_H_STAT => RowOf.NVM_H_STAT
  | .NVM_H_ADDR => RowOf.NVM_H_ADDR
  | .NVM_H_DATA => RowOf.NVM_H_DATA
  | .NVM_H_CTRL => RowOf.NVM_H_CTRL
  | .NVM_F_STAT => RowOf.NVM_F_STAT
  | .NVM_F_ADDR => RowOf.NVM_F_ADDR
  | .NVM_F_DATA => RowOf.NVM_F_DATA
  | .NVM_F_CTRL => RowOf.NVM_F_CTRL
  | .NVM_F_COUNT => RowOf.NVM_F_COUNT
  | .NVM_BOOT_STAT => RowOf.NVM_BOOT_STAT
  | .NVM_BOOT_CMT => RowOf.NVM_BOOT_CMT
  | .SYS_ID => RowOf.SYS_ID
  | .SYS_STEP => RowOf.SYS_STEP
  | .SYS_STATUS => RowOf.SYS_STATUS
  | .SYS_SCRATCH => RowOf.SYS_SCRATCH
  | .SYS_COMMIT_WHERE => RowOf.SYS_COMMIT_WHERE
  | .SYS_COMMIT_LAST => RowOf.SYS_COMMIT_LAST
  | .SYS_COMMIT_LFID => RowOf.SYS_COMMIT_LFID
  | .AO_SEG_STATUS => RowOf.AO_SEG_STATUS
  | .AO_SEG_PASS => RowOf.AO_SEG_PASS
  | .AO_SEG_VEC => RowOf.AO_SEG_VEC
  | .AO_JUMP_CNT0 => RowOf.AO_JUMP_CNT0
  | .AO_JUMP_CNT1 => RowOf.AO_JUMP_CNT1
  | .MSIX_TABLE => RowOf.MSIX_TABLE
  | .MSIX_PBA => RowOf.MSIX_PBA

def regPart0 : List Reg := [.EP_WALL_HDRM, .EP_WALL_MIN, .EP_WALL_CTRL, .EP_WALL_STARVE, .SYS_COMMIT, .SYS_COMMIT_STATUS, .SYS_COMMIT_INFO, .TB_REF_CFG, .TB_STATUS, .TB_EVENTS, .TB_CTRL, .TB_HOLD, .TB_PHASE, .TB_TBC_LO, .TB_TBC_HI, .TB_EPOCH_LO, .TB_EPOCH_HI, .TB_EPOCH_CTRL, .TB_SYNC_PERIOD, .TB_EPOCH_STAT, .TB_SYNC_SNAP_LO, .TB_SYNC_SNAP_HI, .EP_EDGE_CNT0, .EP_EDGE_CNT1, .EP_TS_SEL, .EP_TS_STATUS, .EP_TS_PERIOD_LO, .EP_TS_PERIOD_HI, .EP_TS_ORDER, .EP_TS_FMT, .EP_TS_T_ON, .EP_TS_T_DATA, .EP_TS_T_RET, .EP_TS_T_STRB, .EP_TS_T_CLOSE, .CH_SLICE_CFG, .CH_BANK_STATUS, .CH_DS_CFG, .CH_DS_TIME, .CH_SPARE_CTRL, .CH_SPARE_STATUS, .CH_LANE_CFG, .CH_LVL, .CH_REFLEX, .CH_SAFE, .CH_LANE_STAT, .CH_LANE_CNT, .SQ_CS_ECC, .SQ_CS_ECC_ADDR, .SQ_LOAD_STATUS]
def regPart1 : List Reg := [.SQ_REGION_STATE, .SQ_CTRL, .SQ_STATUS, .SQ_PC, .SQ_LC0, .SQ_LC1, .SQ_FLAGS, .SQ_FAULT, .SQ_SPAN_REC, .SQ_SPAN_LC0, .SQ_SPAN_LC1, .SQ_CNT, .SQ_SPAN_STK, .CSW_ADDR, .CSW_DATA, .CSW_META, .EP_SEG_STATUS, .EP_SEG_PASS, .EP_SEG_VEC, .EP_JUMP_CNT0, .EP_JUMP_CNT1, .FW_CFG, .FW_SCR_CFG, .FW_SCR_OFS, .FW_STATUS, .FW_CNT, .FW_SCR_ADDR, .FW_SCR_DATA, .FW_INIT, .FW_REG, .FW_PMAP, .FW_PMRK, .VS_RESV, .VS_PT_BASE, .VS_PLANE, .VS_PF, .VS_PC, .VS_INV, .VS_SESS_STAT, .VS_FAULT_VA_LO, .VS_FAULT_VA_HI, .VS_PC_CNT, .VS_PC_BASE, .VS_SL_PIN, .VS_SL_STAT, .VS_SL_SLIP, .VS_SL_SLIPT_LO, .VS_SL_SLIPT_HI, .VS_SL_UIDX_LO, .VS_SL_UIDX_HI]
def regPart2 : List Reg := [.VS_SL_CNT, .TG_CFG, .TG_SRC, .TG_PAT, .TG_COUNT, .TG_WIN, .TG_PRE, .TG_POST, .TG_CAP, .TG_REARM, .TG_CTRL, .TG_STATUS, .TG_CNT, .TG_DEAD_LO, .TG_DEAD_HI, .GL_FB_STAT, .GL_FB_LOST, .GL_RGN_BASE, .GL_RGN_SIZE, .GL_RGN_WPTR, .GL_RGN_RPTR, .GL_FAILS, .GL_LOST, .GL_MT_CFG, .GL_MT_EXP, .GL_MT_TOL, .GL_MT_VMAX, .GL_MT_VIOL, .GL_MT_PASS, .TM_IN_CFG, .TM_IN_CNT, .TM_IN_STAT, .TM_SESS_STORED, .TM_SESS_LOST, .TM_MU_CFG, .TM_MU_GATE, .TM_MU_AVG, .TM_MU_CNT0, .TM_MU_CNT1, .TM_MU_RESULTS, .AO_CFG, .AO_SPER, .AO_FTW_LO, .AO_FTW_HI, .AO_NCO, .AO_AMPL, .AO_OFFSET, .AO_SLEW, .AO_STATUS, .AO_MON]
def regPart3 : List Reg := [.AO_SUPV_CNT, .AO_CNT, .AO_WALL_HDRM, .AO_WALL_CTRL, .AO_REFILL, .AO_SLIP, .AO_SLIPT_LO, .AO_SLIPT_HI, .AO_TBL_ADDR, .AO_TBL_DATA, .AO_CLIP, .AO_INFO, .HR_SW, .HR_SW_STATE, .HR_JL_EN, .HR_JL_SRC, .HR_DV_CFG, .HR_DV_COAL, .HR_FLAG, .HR_LEVEL, .HR_ECNT_SEL, .HR_ECNT, .HR_SC_IN, .HR_SC_CFG, .HR_CG_MASK, .HR_CG_CTL, .HR_CG_STAT, .HR_SLM, .HR_SL_COAL, .HR_AOE, .HR_AO_COAL, .HR_HC_EN, .HR_HC_SRC, .HR_RING_EN, .HR_RING_CFG, .HR_RING_CNT, .CAL_CFG, .CAL_INTERVAL, .CAL_CMD, .CAL_STATUS, .CAL_UNIT_STAT, .CAL_UNIT_CNT, .CAL_CH_QUAL, .CAL_AO_QUAL, .CAL_LN_QUAL, .RM_SWITCHES, .RM_MEM_INST, .RM_OWN_UNITS, .RM_OWN_IO, .RM_OWN_MEAS]
def regPart4 : List Reg := [.RM_OWN_CS, .RM_MEM_BASE, .RM_MEM_SIZE, .RM_SESS_CFG, .RM_SESS_CTRL, .RM_SESS_STAT, .RM_SESS_SHOTS, .RM_SESS_WAIT, .RM_HIST_CFG, .RM_HIST_BASE_LO, .RM_HIST_BASE_HI, .HI_LINK, .HI_ACC_LOG, .HI_ACC_CNT, .DB_CMD_TAIL, .DB_GO, .DB_HEAD, .DB_DATA_HEAD, .RING_STAT, .RING_HELD, .RING_ERR, .DB_CNT0, .DB_CNT1, .DB_CNT2, .RING_BASE_LO, .RING_BASE_HI, .RING_ENTRIES, .RING_CTL, .DATA_BASE_LO, .DATA_BASE_HI, .DATA_SIZE, .DATA_CFG, .ST_STATUS, .ST_EVENTS, .ST_CNT, .ST_DOWN_CNT, .ST_CTRL, .ST_F_CFG, .ST_F_CNT, .TL_ROLE, .TL_DISC_CTRL, .TL_DISC_STAT, .TL_CLUSTER, .TL_EV_CFG, .TL_EV_DELAY, .TL_EV_CNT, .TL_ALIGN_CTRL, .TL_ALIGN_STAT, .TL_ALIGN_PHASE, .TL_FAB_CFG]
def regPart5 : List Reg := [.TL_RACC_TGT, .TL_RACC_OFS, .TL_RACC_DATA, .TL_RACC_STAT, .TL_PORT_CFG, .TL_PORT_STAT, .TL_PORT_LAT, .TL_PORT_CNT, .TL_PORT_EVENTS, .TL_ROUTE, .FLT_FIRST, .FLT_FIRST_TBC_LO, .FLT_FIRST_TBC_HI, .FLT_DDR_ADDR_LO, .FLT_DDR_ADDR_HI, .FLT_TEMP, .FLT_TEMP_CFG, .FLT_SUPPLY, .FLT_SC_CFG, .FLT_SC_STAT, .FLT_CORE, .FLT_CNT, .FLT_INJ_SEL, .FLT_INJ_CTRL, .FLT_CS_STAGE, .FLT_CS_SWAP, .NVM_H_STAT, .NVM_H_ADDR, .NVM_H_DATA, .NVM_H_CTRL, .NVM_F_STAT, .NVM_F_ADDR, .NVM_F_DATA, .NVM_F_CTRL, .NVM_F_COUNT, .NVM_BOOT_STAT, .NVM_BOOT_CMT, .SYS_ID, .SYS_STEP, .SYS_STATUS, .SYS_SCRATCH, .SYS_COMMIT_WHERE, .SYS_COMMIT_LAST, .SYS_COMMIT_LFID, .AO_SEG_STATUS, .AO_SEG_PASS, .AO_SEG_VEC, .AO_JUMP_CNT0, .AO_JUMP_CNT1, .MSIX_TABLE]
def regPart6 : List Reg := [.MSIX_PBA]

/-- Every register, in the order of the map. -/
def Reg.all : List Reg := regPart0 ++ regPart1 ++ regPart2 ++ regPart3 ++ regPart4 ++ regPart5 ++ regPart6

end Sys2Proof.Machine

namespace Sys2Proof.Machine.F
def EP_WALL_HDRM_HEADROOM : Fld := ⟨.EP_WALL_HDRM, 0, 32⟩
def EP_WALL_MIN_MIN_HEADROOM : Fld := ⟨.EP_WALL_MIN, 0, 32⟩
def EP_WALL_CTRL_LOW_TH : Fld := ⟨.EP_WALL_CTRL, 0, 16⟩
def EP_WALL_CTRL_DEPTH : Fld := ⟨.EP_WALL_CTRL, 16, 9⟩
def EP_WALL_STARVE_STARVE_COUNT : Fld := ⟨.EP_WALL_STARVE, 0, 16⟩
def SYS_COMMIT_SCOPE : Fld := ⟨.SYS_COMMIT, 0, 4⟩
def SYS_COMMIT_TARGET : Fld := ⟨.SYS_COMMIT, 8, 8⟩
def SYS_COMMIT_GO : Fld := ⟨.SYS_COMMIT, 31, 1⟩
def SYS_COMMIT_STATUS_BUSY : Fld := ⟨.SYS_COMMIT_STATUS, 0, 1⟩
def SYS_COMMIT_STATUS_PENDING : Fld := ⟨.SYS_COMMIT_STATUS, 1, 1⟩
def SYS_COMMIT_STATUS_STATUS : Fld := ⟨.SYS_COMMIT_STATUS, 8, 8⟩
def SYS_COMMIT_STATUS_FIELD_ID : Fld := ⟨.SYS_COMMIT_STATUS, 16, 16⟩
def SYS_COMMIT_INFO_SEQ : Fld := ⟨.SYS_COMMIT_INFO, 0, 16⟩
def SYS_COMMIT_INFO_DROPPED : Fld := ⟨.SYS_COMMIT_INFO, 16, 8⟩
def SYS_COMMIT_INFO_VIEW : Fld := ⟨.SYS_COMMIT_INFO, 24, 1⟩
def TB_REF_CFG_FREQ : Fld := ⟨.TB_REF_CFG, 0, 2⟩
def TB_REF_CFG_BW : Fld := ⟨.TB_REF_CFG, 2, 1⟩
def TB_REF_CFG_QUAL : Fld := ⟨.TB_REF_CFG, 8, 4⟩
def TB_STATUS_STATE : Fld := ⟨.TB_STATUS, 0, 3⟩
def TB_STATUS_REF_PRESENT : Fld := ⟨.TB_STATUS, 3, 1⟩
def TB_STATUS_REF_IN_RANGE : Fld := ⟨.TB_STATUS, 4, 1⟩
def TB_STATUS_REF_NOMINAL : Fld := ⟨.TB_STATUS, 5, 1⟩
def TB_STATUS_EPOCH_SUSPECT : Fld := ⟨.TB_STATUS, 6, 1⟩
def TB_STATUS_EPOCH_SEQ : Fld := ⟨.TB_STATUS, 8, 8⟩
def TB_EVENTS_REF_LOST : Fld := ⟨.TB_EVENTS, 0, 1⟩
def TB_EVENTS_REF_QUALIFIED : Fld := ⟨.TB_EVENTS, 1, 1⟩
def TB_EVENTS_LOCKED : Fld := ⟨.TB_EVENTS, 2, 1⟩
def TB_EVENTS_HOLDOVER : Fld := ⟨.TB_EVENTS, 3, 1⟩
def TB_EVENTS_RECOVERED : Fld := ⟨.TB_EVENTS, 4, 1⟩
def TB_EVENTS_LOCK_FAULT : Fld := ⟨.TB_EVENTS, 5, 1⟩
def TB_EVENTS_EPOCH_DONE : Fld := ⟨.TB_EVENTS, 6, 1⟩
def TB_EVENTS_SYNC_SEEN : Fld := ⟨.TB_EVENTS, 7, 1⟩
def TB_EVENTS_TBC48_WRAP : Fld := ⟨.TB_EVENTS, 8, 1⟩
def TB_EVENTS_TBC_WRAP : Fld := ⟨.TB_EVENTS, 9, 1⟩
def TB_CTRL_RELOCK : Fld := ⟨.TB_CTRL, 0, 1⟩
def TB_HOLD_HOLD_LIMIT : Fld := ⟨.TB_HOLD, 0, 16⟩
def TB_HOLD_LAST_HOLD : Fld := ⟨.TB_HOLD, 16, 16⟩
def TB_PHASE_PHASE_ERR : Fld := ⟨.TB_PHASE, 0, 16⟩
def TB_TBC_LO_TBC : Fld := ⟨.TB_TBC_LO, 0, 32⟩
def TB_TBC_HI_TBC : Fld := ⟨.TB_TBC_HI, 0, 32⟩
def TB_EPOCH_LO_VALUE : Fld := ⟨.TB_EPOCH_LO, 11, 21⟩
def TB_EPOCH_HI_VALUE : Fld := ⟨.TB_EPOCH_HI, 0, 32⟩
def TB_EPOCH_CTRL_ARM : Fld := ⟨.TB_EPOCH_CTRL, 0, 1⟩
def TB_EPOCH_CTRL_SRC : Fld := ⟨.TB_EPOCH_CTRL, 1, 2⟩
def TB_EPOCH_CTRL_LAG : Fld := ⟨.TB_EPOCH_CTRL, 4, 4⟩
def TB_EPOCH_CTRL_SYNCOUT_MODE : Fld := ⟨.TB_EPOCH_CTRL, 8, 2⟩
def TB_EPOCH_CTRL_EMIT : Fld := ⟨.TB_EPOCH_CTRL, 10, 1⟩
def TB_SYNC_PERIOD_PERIOD : Fld := ⟨.TB_SYNC_PERIOD, 0, 32⟩
def TB_EPOCH_STAT_UNARMED : Fld := ⟨.TB_EPOCH_STAT, 0, 8⟩
def TB_EPOCH_STAT_REJECT : Fld := ⟨.TB_EPOCH_STAT, 8, 8⟩
def TB_SYNC_SNAP_LO_SNAP : Fld := ⟨.TB_SYNC_SNAP_LO, 0, 32⟩
def TB_SYNC_SNAP_HI_SNAP : Fld := ⟨.TB_SYNC_SNAP_HI, 0, 32⟩
def EP_EDGE_CNT0_EDGE_ORDER : Fld := ⟨.EP_EDGE_CNT0, 0, 16⟩
def EP_EDGE_CNT0_EDGE_WIDEN : Fld := ⟨.EP_EDGE_CNT0, 16, 16⟩
def EP_EDGE_CNT1_COLLIDE : Fld := ⟨.EP_EDGE_CNT1, 0, 16⟩
def EP_TS_SEL_TS : Fld := ⟨.EP_TS_SEL, 0, 5⟩
def EP_TS_STATUS_ACTIVE_TS : Fld := ⟨.EP_TS_STATUS, 0, 5⟩
def EP_TS_STATUS_PLAYING : Fld := ⟨.EP_TS_STATUS, 8, 1⟩
def EP_TS_PERIOD_LO_PERIOD : Fld := ⟨.EP_TS_PERIOD_LO, 0, 32⟩
def EP_TS_PERIOD_HI_PERIOD : Fld := ⟨.EP_TS_PERIOD_HI, 0, 17⟩
def EP_TS_ORDER_ORD0 : Fld := ⟨.EP_TS_ORDER, 0, 3⟩
def EP_TS_ORDER_ORD1 : Fld := ⟨.EP_TS_ORDER, 3, 3⟩
def EP_TS_ORDER_ORD2 : Fld := ⟨.EP_TS_ORDER, 6, 3⟩
def EP_TS_ORDER_ORD3 : Fld := ⟨.EP_TS_ORDER, 9, 3⟩
def EP_TS_ORDER_ORD4 : Fld := ⟨.EP_TS_ORDER, 12, 3⟩
def EP_TS_FMT_FMT : Fld := ⟨.EP_TS_FMT, 0, 3⟩
def EP_TS_FMT_POL : Fld := ⟨.EP_TS_FMT, 3, 1⟩
def EP_TS_T_ON_TIME : Fld := ⟨.EP_TS_T_ON, 0, 32⟩
def EP_TS_T_DATA_TIME : Fld := ⟨.EP_TS_T_DATA, 0, 32⟩
def EP_TS_T_RET_TIME : Fld := ⟨.EP_TS_T_RET, 0, 32⟩
def EP_TS_T_STRB_TIME : Fld := ⟨.EP_TS_T_STRB, 0, 32⟩
def EP_TS_T_CLOSE_TIME : Fld := ⟨.EP_TS_T_CLOSE, 0, 32⟩
def CH_SLICE_CFG_BANK : Fld := ⟨.CH_SLICE_CFG, 0, 1⟩
def CH_SLICE_CFG_VIO_CLASS : Fld := ⟨.CH_SLICE_CFG, 1, 3⟩
def CH_BANK_STATUS_VIOA_OK : Fld := ⟨.CH_BANK_STATUS, 0, 1⟩
def CH_BANK_STATUS_VIOB_OK : Fld := ⟨.CH_BANK_STATUS, 1, 1⟩
def CH_DS_CFG_SRC : Fld := ⟨.CH_DS_CFG, 0, 2⟩
def CH_DS_CFG_POL : Fld := ⟨.CH_DS_CFG, 2, 1⟩
def CH_DS_CFG_STATIC : Fld := ⟨.CH_DS_CFG, 3, 1⟩
def CH_DS_CFG_LANES : Fld := ⟨.CH_DS_CFG, 4, 8⟩
def CH_DS_CFG_MARKER : Fld := ⟨.CH_DS_CFG, 12, 3⟩
def CH_DS_TIME_LEAD : Fld := ⟨.CH_DS_TIME, 0, 16⟩
def CH_DS_TIME_LAG : Fld := ⟨.CH_DS_TIME, 16, 16⟩
def CH_SPARE_CTRL_LANE : Fld := ⟨.CH_SPARE_CTRL, 0, 3⟩
def CH_SPARE_CTRL_FORCE : Fld := ⟨.CH_SPARE_CTRL, 3, 1⟩
def CH_SPARE_CTRL_RESTORE : Fld := ⟨.CH_SPARE_CTRL, 4, 1⟩
def CH_SPARE_STATUS_IN_USE : Fld := ⟨.CH_SPARE_STATUS, 0, 1⟩
def CH_SPARE_STATUS_LANE : Fld := ⟨.CH_SPARE_STATUS, 1, 3⟩
def CH_SPARE_STATUS_BUSY : Fld := ⟨.CH_SPARE_STATUS, 4, 1⟩
def CH_SPARE_STATUS_RESTORE_REFUSED : Fld := ⟨.CH_SPARE_STATUS, 5, 1⟩
def CH_SPARE_STATUS_FORCE_REFUSED : Fld := ⟨.CH_SPARE_STATUS, 6, 1⟩
def CH_SPARE_STATUS_FAILED : Fld := ⟨.CH_SPARE_STATUS, 8, 8⟩
def CH_SPARE_STATUS_LAST_GAP : Fld := ⟨.CH_SPARE_STATUS, 16, 16⟩
def CH_LANE_CFG_MODE : Fld := ⟨.CH_LANE_CFG, 0, 2⟩
def CH_LANE_CFG_TERM : Fld := ⟨.CH_LANE_CFG, 2, 1⟩
def CH_LANE_CFG_SWING : Fld := ⟨.CH_LANE_CFG, 8, 6⟩
def CH_LANE_CFG_ZOUT : Fld := ⟨.CH_LANE_CFG, 16, 2⟩
def CH_LVL_VTH_LO : Fld := ⟨.CH_LVL, 0, 12⟩
def CH_LVL_EDGE_TH : Fld := ⟨.CH_LVL, 12, 1⟩
def CH_LVL_VTH_HI : Fld := ⟨.CH_LVL, 16, 12⟩
def CH_LVL_HYST : Fld := ⟨.CH_LVL, 28, 2⟩
def CH_REFLEX_CELL : Fld := ⟨.CH_REFLEX, 0, 6⟩
def CH_REFLEX_EN : Fld := ⟨.CH_REFLEX, 6, 1⟩
def CH_REFLEX_ALT : Fld := ⟨.CH_REFLEX, 8, 3⟩
def CH_SAFE_FAULT_ACT : Fld := ⟨.CH_SAFE, 0, 2⟩
def CH_SAFE_ABORT_ACT : Fld := ⟨.CH_SAFE, 2, 2⟩
def CH_LANE_STAT_FORCED : Fld := ⟨.CH_LANE_STAT, 0, 1⟩
def CH_LANE_STAT_SAFE : Fld := ⟨.CH_LANE_STAT, 1, 1⟩
def CH_LANE_STAT_SPARED : Fld := ⟨.CH_LANE_STAT, 2, 1⟩
def CH_LANE_STAT_HELD : Fld := ⟨.CH_LANE_STAT, 3, 1⟩
def CH_LANE_STAT_BAND : Fld := ⟨.CH_LANE_STAT, 4, 2⟩
def CH_LANE_CNT_REFLEX_CNT : Fld := ⟨.CH_LANE_CNT, 0, 16⟩
def CH_LANE_CNT_MASKED : Fld := ⟨.CH_LANE_CNT, 16, 16⟩
def SQ_CS_ECC_CORRECTED : Fld := ⟨.SQ_CS_ECC, 0, 16⟩
def SQ_CS_ECC_UNCORRECTABLE : Fld := ⟨.SQ_CS_ECC, 16, 8⟩
def SQ_CS_ECC_ADDR_LAST_ADDR : Fld := ⟨.SQ_CS_ECC_ADDR, 0, 14⟩
def SQ_LOAD_STATUS_STATUS : Fld := ⟨.SQ_LOAD_STATUS, 0, 8⟩
def SQ_LOAD_STATUS_ERR : Fld := ⟨.SQ_LOAD_STATUS, 8, 8⟩
def SQ_LOAD_STATUS_WHERE : Fld := ⟨.SQ_LOAD_STATUS, 16, 14⟩
def SQ_REGION_STATE_LOADED : Fld := ⟨.SQ_REGION_STATE, 0, 16⟩
def SQ_REGION_STATE_IN_USE : Fld := ⟨.SQ_REGION_STATE, 16, 16⟩
def SQ_CTRL_HALT : Fld := ⟨.SQ_CTRL, 0, 1⟩
def SQ_CTRL_RESUME : Fld := ⟨.SQ_CTRL, 1, 1⟩
def SQ_CTRL_STEP : Fld := ⟨.SQ_CTRL, 2, 1⟩
def SQ_STATUS_STATE : Fld := ⟨.SQ_STATUS, 0, 3⟩
def SQ_STATUS_IN_SPAN : Fld := ⟨.SQ_STATUS, 3, 1⟩
def SQ_STATUS_DEPTH : Fld := ⟨.SQ_STATUS, 4, 5⟩
def SQ_STATUS_SESSION : Fld := ⟨.SQ_STATUS, 12, 4⟩
def SQ_PC_PC : Fld := ⟨.SQ_PC, 0, 14⟩
def SQ_LC0_COUNT : Fld := ⟨.SQ_LC0, 0, 24⟩
def SQ_LC1_COUNT : Fld := ⟨.SQ_LC1, 0, 24⟩
def SQ_FLAGS_F : Fld := ⟨.SQ_FLAGS, 0, 8⟩
def SQ_FLAGS_TIMED_OUT : Fld := ⟨.SQ_FLAGS, 8, 1⟩
def SQ_FAULT_CODE : Fld := ⟨.SQ_FAULT, 0, 4⟩
def SQ_FAULT_ADDR : Fld := ⟨.SQ_FAULT, 8, 14⟩
def SQ_FAULT_VALID : Fld := ⟨.SQ_FAULT, 31, 1⟩
def SQ_SPAN_REC_START : Fld := ⟨.SQ_SPAN_REC, 0, 14⟩
def SQ_SPAN_REC_WORDS : Fld := ⟨.SQ_SPAN_REC, 16, 6⟩
def SQ_SPAN_REC_DEPTH : Fld := ⟨.SQ_SPAN_REC, 22, 5⟩
def SQ_SPAN_REC_VALID : Fld := ⟨.SQ_SPAN_REC, 31, 1⟩
def SQ_SPAN_LC0_COUNT : Fld := ⟨.SQ_SPAN_LC0, 0, 24⟩
def SQ_SPAN_LC1_COUNT : Fld := ⟨.SQ_SPAN_LC1, 0, 24⟩
def SQ_CNT_STALLS : Fld := ⟨.SQ_CNT, 0, 16⟩
def SQ_CNT_DEFERRED : Fld := ⟨.SQ_CNT, 16, 16⟩
def SQ_SPAN_STK_ENTRY_LO : Fld := ⟨.SQ_SPAN_STK, 0, 14⟩
def SQ_SPAN_STK_ENTRY_HI : Fld := ⟨.SQ_SPAN_STK, 16, 14⟩
def CSW_ADDR_ADDR : Fld := ⟨.CSW_ADDR, 0, 14⟩
def CSW_ADDR_AUTOINC : Fld := ⟨.CSW_ADDR, 14, 1⟩
def CSW_DATA_DATA : Fld := ⟨.CSW_DATA, 0, 32⟩
def CSW_META_TYPE : Fld := ⟨.CSW_META, 0, 2⟩
def CSW_META_ECC_CORR : Fld := ⟨.CSW_META, 2, 1⟩
def CSW_META_ECC_UNCORR : Fld := ⟨.CSW_META, 3, 1⟩
def CSW_META_REGION : Fld := ⟨.CSW_META, 4, 4⟩
def EP_SEG_STATUS_SEG_IDX : Fld := ⟨.EP_SEG_STATUS, 0, 12⟩
def EP_SEG_STATUS_PHASE : Fld := ⟨.EP_SEG_STATUS, 12, 3⟩
def EP_SEG_STATUS_STAGED_A : Fld := ⟨.EP_SEG_STATUS, 15, 1⟩
def EP_SEG_STATUS_STAGED_B : Fld := ⟨.EP_SEG_STATUS, 16, 1⟩
def EP_SEG_STATUS_JUMP_PENDING : Fld := ⟨.EP_SEG_STATUS, 17, 1⟩
def EP_SEG_STATUS_PENDING_TGT : Fld := ⟨.EP_SEG_STATUS, 18, 1⟩
def EP_SEG_PASS_PASS : Fld := ⟨.EP_SEG_PASS, 0, 32⟩
def EP_SEG_VEC_VEC : Fld := ⟨.EP_SEG_VEC, 0, 32⟩
def EP_JUMP_CNT0_TAKEN : Fld := ⟨.EP_JUMP_CNT0, 0, 16⟩
def EP_JUMP_CNT0_MERGED : Fld := ⟨.EP_JUMP_CNT0, 16, 16⟩
def EP_JUMP_CNT1_LOST : Fld := ⟨.EP_JUMP_CNT1, 0, 16⟩
def EP_JUMP_CNT1_STAGE_WAIT : Fld := ⟨.EP_JUMP_CNT1, 16, 16⟩
def FW_CFG_SLICES : Fld := ⟨.FW_CFG, 0, 12⟩
def FW_CFG_PC0 : Fld := ⟨.FW_CFG, 16, 14⟩
def FW_SCR_CFG_XEN : Fld := ⟨.FW_SCR_CFG, 0, 1⟩
def FW_SCR_CFG_YEN : Fld := ⟨.FW_SCR_CFG, 1, 1⟩
def FW_SCR_OFS_XOFF : Fld := ⟨.FW_SCR_OFS, 0, 16⟩
def FW_SCR_OFS_YOFF : Fld := ⟨.FW_SCR_OFS, 16, 16⟩
def FW_STATUS_STATE : Fld := ⟨.FW_STATUS, 0, 3⟩
def FW_STATUS_PROG_OK : Fld := ⟨.FW_STATUS, 3, 1⟩
def FW_STATUS_PLEN : Fld := ⟨.FW_STATUS, 4, 7⟩
def FW_STATUS_FAULT : Fld := ⟨.FW_STATUS, 12, 4⟩
def FW_STATUS_ERR_ADDR : Fld := ⟨.FW_STATUS, 16, 14⟩
def FW_STATUS_VALID : Fld := ⟨.FW_STATUS, 31, 1⟩
def FW_CNT_SHORT : Fld := ⟨.FW_CNT, 0, 16⟩
def FW_CNT_SCR_REJECT : Fld := ⟨.FW_CNT, 16, 16⟩
def FW_SCR_ADDR_INDEX : Fld := ⟨.FW_SCR_ADDR, 0, 16⟩
def FW_SCR_ADDR_AUTOINC : Fld := ⟨.FW_SCR_ADDR, 16, 1⟩
def FW_SCR_DATA_ENTRY : Fld := ⟨.FW_SCR_DATA, 0, 16⟩
def FW_INIT_VALUE : Fld := ⟨.FW_INIT, 0, 32⟩
def FW_REG_VALUE : Fld := ⟨.FW_REG, 0, 32⟩
def FW_PMAP_LANE_EVEN : Fld := ⟨.FW_PMAP, 0, 15⟩
def FW_PMAP_LANE_ODD : Fld := ⟨.FW_PMAP, 16, 15⟩
def FW_PMRK_MRK0 : Fld := ⟨.FW_PMRK, 0, 7⟩
def FW_PMRK_MRK1 : Fld := ⟨.FW_PMRK, 8, 7⟩
def FW_PMRK_MRK2 : Fld := ⟨.FW_PMRK, 16, 7⟩
def FW_PMRK_MRK3 : Fld := ⟨.FW_PMRK, 24, 7⟩
def VS_RESV_WIDE : Fld := ⟨.VS_RESV, 0, 1⟩
def VS_PT_BASE_BASE : Fld := ⟨.VS_PT_BASE, 0, 17⟩
def VS_PLANE_STRIDE : Fld := ⟨.VS_PLANE, 0, 32⟩
def VS_PF_DIST : Fld := ⟨.VS_PF, 0, 7⟩
def VS_PF_FILL_TO : Fld := ⟨.VS_PF, 16, 10⟩
def VS_PC_PAGES : Fld := ⟨.VS_PC, 0, 20⟩
def VS_INV_TLB : Fld := ⟨.VS_INV, 0, 1⟩
def VS_INV_PAGES : Fld := ⟨.VS_INV, 1, 1⟩
def VS_SESS_STAT_FAULT : Fld := ⟨.VS_SESS_STAT, 0, 3⟩
def VS_SESS_STAT_UNIT : Fld := ⟨.VS_SESS_STAT, 4, 4⟩
def VS_SESS_STAT_IS_AO : Fld := ⟨.VS_SESS_STAT, 8, 1⟩
def VS_SESS_STAT_VALID : Fld := ⟨.VS_SESS_STAT, 31, 1⟩
def VS_FAULT_VA_LO_VA : Fld := ⟨.VS_FAULT_VA_LO, 0, 32⟩
def VS_FAULT_VA_HI_VA : Fld := ⟨.VS_FAULT_VA_HI, 0, 16⟩
def VS_PC_CNT_FILLS : Fld := ⟨.VS_PC_CNT, 0, 16⟩
def VS_PC_CNT_DEMAND : Fld := ⟨.VS_PC_CNT, 16, 16⟩
def VS_PC_BASE_BASE : Fld := ⟨.VS_PC_BASE, 0, 20⟩
def VS_SL_PIN_PINNED : Fld := ⟨.VS_SL_PIN, 0, 15⟩
def VS_SL_PIN_HEADS_SKIPPED : Fld := ⟨.VS_SL_PIN, 16, 16⟩
def VS_SL_STAT_LEVEL : Fld := ⟨.VS_SL_STAT, 0, 14⟩
def VS_SL_STAT_SLIPPING : Fld := ⟨.VS_SL_STAT, 14, 1⟩
def VS_SL_STAT_PINNED_SRC : Fld := ⟨.VS_SL_STAT, 15, 1⟩
def VS_SL_SLIP_SLIP_SLOTS : Fld := ⟨.VS_SL_SLIP, 0, 32⟩
def VS_SL_SLIPT_LO_SLIP_TICKS : Fld := ⟨.VS_SL_SLIPT_LO, 0, 32⟩
def VS_SL_SLIPT_HI_SLIP_TICKS : Fld := ⟨.VS_SL_SLIPT_HI, 0, 32⟩
def VS_SL_UIDX_LO_INDEX : Fld := ⟨.VS_SL_UIDX_LO, 0, 32⟩
def VS_SL_UIDX_HI_INDEX : Fld := ⟨.VS_SL_UIDX_HI, 0, 16⟩
def VS_SL_CNT_UNDERRUNS : Fld := ⟨.VS_SL_CNT, 0, 16⟩
def VS_SL_CNT_GANG_SLIPS : Fld := ⟨.VS_SL_CNT, 16, 16⟩
def TG_CFG_MODE : Fld := ⟨.TG_CFG, 0, 3⟩
def TG_CFG_EDGE_A : Fld := ⟨.TG_CFG, 3, 2⟩
def TG_CFG_LVL : Fld := ⟨.TG_CFG, 5, 1⟩
def TG_CFG_EDGE_B : Fld := ⟨.TG_CFG, 6, 2⟩
def TG_CFG_ARM_EV_EN : Fld := ⟨.TG_CFG, 8, 1⟩
def TG_SRC_SRC_A : Fld := ⟨.TG_SRC, 0, 8⟩
def TG_SRC_SRC_B : Fld := ⟨.TG_SRC, 8, 8⟩
def TG_SRC_ARM_EV : Fld := ⟨.TG_SRC, 16, 8⟩
def TG_SRC_PBASE : Fld := ⟨.TG_SRC, 24, 8⟩
def TG_PAT_PMASK : Fld := ⟨.TG_PAT, 0, 8⟩
def TG_PAT_PVAL : Fld := ⟨.TG_PAT, 8, 8⟩
def TG_COUNT_COUNT : Fld := ⟨.TG_COUNT, 0, 24⟩
def TG_WIN_WIN_OPEN : Fld := ⟨.TG_WIN, 0, 16⟩
def TG_WIN_WIN_CLOSE : Fld := ⟨.TG_WIN, 16, 16⟩
def TG_PRE_SLOTS : Fld := ⟨.TG_PRE, 0, 32⟩
def TG_POST_SLOTS : Fld := ⟨.TG_POST, 0, 32⟩
def TG_CAP_CAP_SLICES : Fld := ⟨.TG_CAP, 0, 12⟩
def TG_CAP_DIV : Fld := ⟨.TG_CAP, 16, 16⟩
def TG_REARM_REARM : Fld := ⟨.TG_REARM, 0, 32⟩
def TG_CTRL_ARM : Fld := ⟨.TG_CTRL, 0, 1⟩
def TG_CTRL_STOP : Fld := ⟨.TG_CTRL, 1, 1⟩
def TG_CTRL_FORCE : Fld := ⟨.TG_CTRL, 2, 1⟩
def TG_STATUS_STATE : Fld := ⟨.TG_STATUS, 0, 2⟩
def TG_STATUS_DONE : Fld := ⟨.TG_STATUS, 2, 1⟩
def TG_CNT_IGNORED : Fld := ⟨.TG_CNT, 0, 16⟩
def TG_CNT_FIRED : Fld := ⟨.TG_CNT, 16, 16⟩
def TG_DEAD_LO_DEAD : Fld := ⟨.TG_DEAD_LO, 0, 32⟩
def TG_DEAD_HI_DEAD : Fld := ⟨.TG_DEAD_HI, 0, 16⟩
def GL_FB_STAT_LEVEL : Fld := ⟨.GL_FB_STAT, 0, 15⟩
def GL_FB_LOST_FB_LOST : Fld := ⟨.GL_FB_LOST, 0, 32⟩
def GL_RGN_BASE_BASE : Fld := ⟨.GL_RGN_BASE, 0, 30⟩
def GL_RGN_SIZE_SIZE : Fld := ⟨.GL_RGN_SIZE, 0, 30⟩
def GL_RGN_SIZE_MODE : Fld := ⟨.GL_RGN_SIZE, 31, 1⟩
def GL_RGN_WPTR_PTR : Fld := ⟨.GL_RGN_WPTR, 0, 30⟩
def GL_RGN_WPTR_LAP : Fld := ⟨.GL_RGN_WPTR, 30, 1⟩
def GL_RGN_RPTR_PTR : Fld := ⟨.GL_RGN_RPTR, 0, 30⟩
def GL_RGN_RPTR_LAP : Fld := ⟨.GL_RGN_RPTR, 30, 1⟩
def GL_FAILS_FAILS : Fld := ⟨.GL_FAILS, 0, 32⟩
def GL_LOST_REGION_LOST : Fld := ⟨.GL_LOST, 0, 16⟩
def GL_LOST_CAPS_LOST : Fld := ⟨.GL_LOST, 16, 16⟩
def GL_MT_CFG_EN : Fld := ⟨.GL_MT_CFG, 0, 1⟩
def GL_MT_CFG_STOP : Fld := ⟨.GL_MT_CFG, 1, 2⟩
def GL_MT_CFG_STRAY_EN : Fld := ⟨.GL_MT_CFG, 3, 1⟩
def GL_MT_CFG_EDGE_A : Fld := ⟨.GL_MT_CFG, 4, 2⟩
def GL_MT_CFG_EDGE_B : Fld := ⟨.GL_MT_CFG, 6, 2⟩
def GL_MT_CFG_IN_A : Fld := ⟨.GL_MT_CFG, 8, 7⟩
def GL_MT_CFG_IN_B : Fld := ⟨.GL_MT_CFG, 16, 7⟩
def GL_MT_EXP_EXP : Fld := ⟨.GL_MT_EXP, 0, 32⟩
def GL_MT_TOL_TOL_LO : Fld := ⟨.GL_MT_TOL, 0, 16⟩
def GL_MT_TOL_TOL_HI : Fld := ⟨.GL_MT_TOL, 16, 16⟩
def GL_MT_VMAX_VMAX : Fld := ⟨.GL_MT_VMAX, 0, 24⟩
def GL_MT_VIOL_COUNT : Fld := ⟨.GL_MT_VIOL, 0, 32⟩
def GL_MT_PASS_COUNT : Fld := ⟨.GL_MT_PASS, 0, 32⟩
def TM_IN_CFG_STAMP_EN : Fld := ⟨.TM_IN_CFG, 0, 1⟩
def TM_IN_CFG_EDGE : Fld := ⟨.TM_IN_CFG, 1, 2⟩
def TM_IN_CFG_STORE : Fld := ⟨.TM_IN_CFG, 3, 2⟩
def TM_IN_CNT_LOST : Fld := ⟨.TM_IN_CNT, 0, 16⟩
def TM_IN_CNT_TOO_CLOSE : Fld := ⟨.TM_IN_CNT, 16, 16⟩
def TM_IN_STAT_LEVEL : Fld := ⟨.TM_IN_STAT, 0, 10⟩
def TM_SESS_STORED_ENTRIES : Fld := ⟨.TM_SESS_STORED, 0, 32⟩
def TM_SESS_LOST_REGION_LOST : Fld := ⟨.TM_SESS_LOST, 0, 32⟩
def TM_MU_CFG_EN : Fld := ⟨.TM_MU_CFG, 0, 1⟩
def TM_MU_CFG_MODE : Fld := ⟨.TM_MU_CFG, 1, 3⟩
def TM_MU_CFG_EDGE_A : Fld := ⟨.TM_MU_CFG, 4, 2⟩
def TM_MU_CFG_EDGE_B : Fld := ⟨.TM_MU_CFG, 6, 2⟩
def TM_MU_CFG_IN_A : Fld := ⟨.TM_MU_CFG, 8, 7⟩
def TM_MU_CFG_IN_B : Fld := ⟨.TM_MU_CFG, 16, 7⟩
def TM_MU_GATE_GATE_EV : Fld := ⟨.TM_MU_GATE, 0, 8⟩
def TM_MU_GATE_POL : Fld := ⟨.TM_MU_GATE, 8, 1⟩
def TM_MU_GATE_ALWAYS : Fld := ⟨.TM_MU_GATE, 9, 1⟩
def TM_MU_AVG_AVG : Fld := ⟨.TM_MU_AVG, 0, 24⟩
def TM_MU_CNT0_STOP_EARLY : Fld := ⟨.TM_MU_CNT0, 0, 16⟩
def TM_MU_CNT0_UNPAIRED : Fld := ⟨.TM_MU_CNT0, 16, 16⟩
def TM_MU_CNT1_RESTART : Fld := ⟨.TM_MU_CNT1, 0, 16⟩
def TM_MU_CNT1_EXTRA : Fld := ⟨.TM_MU_CNT1, 16, 16⟩
def TM_MU_RESULTS_RESULTS : Fld := ⟨.TM_MU_RESULTS, 0, 32⟩
def AO_CFG_SPAN : Fld := ⟨.AO_CFG, 0, 3⟩
def AO_CFG_SRC : Fld := ⟨.AO_CFG, 3, 2⟩
def AO_CFG_GATE : Fld := ⟨.AO_CFG, 5, 1⟩
def AO_CFG_INTERP : Fld := ⟨.AO_CFG, 6, 2⟩
def AO_CFG_SENSE : Fld := ⟨.AO_CFG, 8, 1⟩
def AO_CFG_ABORT_ACT : Fld := ⟨.AO_CFG, 9, 1⟩
def AO_CFG_SUPV_ACT : Fld := ⟨.AO_CFG, 10, 1⟩
def AO_SPER_PERIOD : Fld := ⟨.AO_SPER, 0, 32⟩
def AO_FTW_LO_FTW : Fld := ⟨.AO_FTW_LO, 0, 32⟩
def AO_FTW_HI_FTW : Fld := ⟨.AO_FTW_HI, 0, 16⟩
def AO_NCO_PHOFF : Fld := ⟨.AO_NCO, 0, 16⟩
def AO_NCO_TBITS : Fld := ⟨.AO_NCO, 16, 4⟩
def AO_NCO_TINTERP : Fld := ⟨.AO_NCO, 20, 1⟩
def AO_AMPL_AMPL : Fld := ⟨.AO_AMPL, 0, 20⟩
def AO_OFFSET_OFFSET : Fld := ⟨.AO_OFFSET, 0, 20⟩
def AO_SLEW_STEP : Fld := ⟨.AO_SLEW, 0, 20⟩
def AO_SLEW_EN : Fld := ⟨.AO_SLEW, 20, 1⟩
def AO_SLEW_RATE_DIV : Fld := ⟨.AO_SLEW, 21, 11⟩
def AO_STATUS_STATE : Fld := ⟨.AO_STATUS, 0, 3⟩
def AO_STATUS_STALE : Fld := ⟨.AO_STATUS, 3, 1⟩
def AO_STATUS_LIMITING : Fld := ⟨.AO_STATUS, 4, 1⟩
def AO_STATUS_COMPLIANCE : Fld := ⟨.AO_STATUS, 5, 1⟩
def AO_STATUS_OPEN_LOAD : Fld := ⟨.AO_STATUS, 6, 1⟩
def AO_STATUS_RANGE_CHG : Fld := ⟨.AO_STATUS, 7, 1⟩
def AO_MON_FORCE_V : Fld := ⟨.AO_MON, 0, 16⟩
def AO_MON_LOAD_I : Fld := ⟨.AO_MON, 16, 16⟩
def AO_SUPV_CNT_COMPLIANCE_CNT : Fld := ⟨.AO_SUPV_CNT, 0, 16⟩
def AO_SUPV_CNT_OPEN_CNT : Fld := ⟨.AO_SUPV_CNT, 16, 16⟩
def AO_CNT_UNDERRUNS : Fld := ⟨.AO_CNT, 0, 16⟩
def AO_CNT_STARVE_COUNT : Fld := ⟨.AO_CNT, 16, 16⟩
def AO_WALL_HDRM_HEADROOM : Fld := ⟨.AO_WALL_HDRM, 0, 32⟩
def AO_WALL_CTRL_LOW_TH : Fld := ⟨.AO_WALL_CTRL, 0, 16⟩
def AO_WALL_CTRL_DEPTH : Fld := ⟨.AO_WALL_CTRL, 16, 7⟩
def AO_REFILL_LEVEL : Fld := ⟨.AO_REFILL, 0, 13⟩
def AO_REFILL_SLIPPING : Fld := ⟨.AO_REFILL, 13, 1⟩
def AO_REFILL_PINNED_SRC : Fld := ⟨.AO_REFILL, 14, 1⟩
def AO_SLIP_SLIP_SLOTS : Fld := ⟨.AO_SLIP, 0, 32⟩
def AO_SLIPT_LO_SLIP_TICKS : Fld := ⟨.AO_SLIPT_LO, 0, 32⟩
def AO_SLIPT_HI_SLIP_TICKS : Fld := ⟨.AO_SLIPT_HI, 0, 32⟩
def AO_TBL_ADDR_INDEX : Fld := ⟨.AO_TBL_ADDR, 0, 14⟩
def AO_TBL_ADDR_AUTOINC : Fld := ⟨.AO_TBL_ADDR, 14, 1⟩
def AO_TBL_DATA_ENTRY : Fld := ⟨.AO_TBL_DATA, 0, 32⟩
def AO_CLIP_CLIPS : Fld := ⟨.AO_CLIP, 0, 16⟩
def AO_CLIP_TBL_REJECT : Fld := ⟨.AO_CLIP, 16, 16⟩
def AO_INFO_LATENCY : Fld := ⟨.AO_INFO, 0, 32⟩
def HR_SW_SET : Fld := ⟨.HR_SW, 0, 8⟩
def HR_SW_CLR : Fld := ⟨.HR_SW, 8, 8⟩
def HR_SW_PULSE : Fld := ⟨.HR_SW, 16, 8⟩
def HR_SW_STATE_SW : Fld := ⟨.HR_SW_STATE, 0, 8⟩
def HR_JL_EN_EN : Fld := ⟨.HR_JL_EN, 0, 16⟩
def HR_JL_SRC_SRC : Fld := ⟨.HR_JL_SRC, 0, 32⟩
def HR_DV_CFG_EN : Fld := ⟨.HR_DV_CFG, 0, 18⟩
def HR_DV_COAL_COALESCED : Fld := ⟨.HR_DV_COAL, 0, 16⟩
def HR_FLAG_BITS : Fld := ⟨.HR_FLAG, 0, 32⟩
def HR_LEVEL_BITS : Fld := ⟨.HR_LEVEL, 0, 32⟩
def HR_ECNT_SEL_EV : Fld := ⟨.HR_ECNT_SEL, 0, 8⟩
def HR_ECNT_SEL_EN : Fld := ⟨.HR_ECNT_SEL, 8, 1⟩
def HR_ECNT_COUNT : Fld := ⟨.HR_ECNT, 0, 32⟩
def HR_SC_IN_IN0 : Fld := ⟨.HR_SC_IN, 0, 8⟩
def HR_SC_IN_IN1 : Fld := ⟨.HR_SC_IN, 8, 8⟩
def HR_SC_IN_IN2 : Fld := ⟨.HR_SC_IN, 16, 8⟩
def HR_SC_IN_IN3 : Fld := ⟨.HR_SC_IN, 24, 8⟩
def HR_SC_CFG_LUT : Fld := ⟨.HR_SC_CFG, 0, 16⟩
def HR_SC_CFG_INEN : Fld := ⟨.HR_SC_CFG, 16, 4⟩
def HR_SC_CFG_FILT : Fld := ⟨.HR_SC_CFG, 20, 5⟩
def HR_SC_CFG_FF : Fld := ⟨.HR_SC_CFG, 25, 1⟩
def HR_SC_CFG_EDGE : Fld := ⟨.HR_SC_CFG, 26, 2⟩
def HR_SC_CFG_PERMIT : Fld := ⟨.HR_SC_CFG, 28, 1⟩
def HR_SC_CFG_INIT : Fld := ⟨.HR_SC_CFG, 29, 1⟩
def HR_CG_MASK_CH : Fld := ⟨.HR_CG_MASK, 0, 32⟩
def HR_CG_CTL_ON_EV : Fld := ⟨.HR_CG_CTL, 0, 8⟩
def HR_CG_CTL_OFF_EV : Fld := ⟨.HR_CG_CTL, 8, 8⟩
def HR_CG_CTL_ON_EN : Fld := ⟨.HR_CG_CTL, 16, 1⟩
def HR_CG_CTL_OFF_EN : Fld := ⟨.HR_CG_CTL, 17, 1⟩
def HR_CG_CTL_OFF_STATE : Fld := ⟨.HR_CG_CTL, 18, 3⟩
def HR_CG_CTL_INIT : Fld := ⟨.HR_CG_CTL, 21, 1⟩
def HR_CG_CTL_EN : Fld := ⟨.HR_CG_CTL, 22, 1⟩
def HR_CG_STAT_ENABLED : Fld := ⟨.HR_CG_STAT, 0, 1⟩
def HR_CG_STAT_CHANGES : Fld := ⟨.HR_CG_STAT, 16, 16⟩
def HR_SLM_EN : Fld := ⟨.HR_SLM, 0, 20⟩
def HR_SLM_STRETCH : Fld := ⟨.HR_SLM, 20, 1⟩
def HR_SL_COAL_COALESCED : Fld := ⟨.HR_SL_COAL, 0, 16⟩
def HR_AOE_EN : Fld := ⟨.HR_AOE, 0, 8⟩
def HR_AO_COAL_COALESCED : Fld := ⟨.HR_AO_COAL, 0, 16⟩
def HR_HC_EN_EN : Fld := ⟨.HR_HC_EN, 0, 32⟩
def HR_HC_SRC_SRC : Fld := ⟨.HR_HC_SRC, 0, 32⟩
def HR_RING_EN_EN : Fld := ⟨.HR_RING_EN, 0, 32⟩
def HR_RING_CFG_HOLDOFF : Fld := ⟨.HR_RING_CFG, 0, 16⟩
def HR_RING_CNT_MERGED : Fld := ⟨.HR_RING_CNT, 0, 32⟩
def CAL_CFG_TEMP_DELTA : Fld := ⟨.CAL_CFG, 0, 8⟩
def CAL_CFG_AUTO_EN : Fld := ⟨.CAL_CFG, 8, 1⟩
def CAL_CFG_AO_PLAYING : Fld := ⟨.CAL_CFG, 9, 1⟩
def CAL_INTERVAL_SECONDS : Fld := ⟨.CAL_INTERVAL, 0, 32⟩
def CAL_CMD_UNIT : Fld := ⟨.CAL_CMD, 0, 6⟩
def CAL_CMD_GO : Fld := ⟨.CAL_CMD, 31, 1⟩
def CAL_STATUS_BUSY : Fld := ⟨.CAL_STATUS, 0, 1⟩
def CAL_STATUS_UNIT : Fld := ⟨.CAL_STATUS, 1, 6⟩
def CAL_STATUS_DUE : Fld := ⟨.CAL_STATUS, 8, 6⟩
def CAL_UNIT_STAT_STATE : Fld := ⟨.CAL_UNIT_STAT, 0, 3⟩
def CAL_UNIT_STAT_DEGRADED : Fld := ⟨.CAL_UNIT_STAT, 3, 1⟩
def CAL_UNIT_STAT_CAUSE : Fld := ⟨.CAL_UNIT_STAT, 4, 3⟩
def CAL_UNIT_STAT_FAILED : Fld := ⟨.CAL_UNIT_STAT, 7, 2⟩
def CAL_UNIT_STAT_TEMP : Fld := ⟨.CAL_UNIT_STAT, 16, 12⟩
def CAL_UNIT_CNT_ACCEPTED : Fld := ⟨.CAL_UNIT_CNT, 0, 12⟩
def CAL_UNIT_CNT_REJECTED : Fld := ⟨.CAL_UNIT_CNT, 12, 10⟩
def CAL_UNIT_CNT_ABANDONED : Fld := ⟨.CAL_UNIT_CNT, 22, 10⟩
def CAL_CH_QUAL_T_RMS : Fld := ⟨.CAL_CH_QUAL, 0, 16⟩
def CAL_CH_QUAL_T_WORST : Fld := ⟨.CAL_CH_QUAL, 16, 16⟩
def CAL_AO_QUAL_RESID : Fld := ⟨.CAL_AO_QUAL, 0, 16⟩
def CAL_AO_QUAL_SPAN : Fld := ⟨.CAL_AO_QUAL, 16, 3⟩
def CAL_LN_QUAL_EYE_W : Fld := ⟨.CAL_LN_QUAL, 0, 8⟩
def CAL_LN_QUAL_EYE_H : Fld := ⟨.CAL_LN_QUAL, 8, 12⟩
def RM_SWITCHES_SWITCHES : Fld := ⟨.RM_SWITCHES, 0, 32⟩
def RM_MEM_INST_MIB : Fld := ⟨.RM_MEM_INST, 0, 17⟩
def RM_OWN_UNITS_SLICES : Fld := ⟨.RM_OWN_UNITS, 0, 12⟩
def RM_OWN_UNITS_FW : Fld := ⟨.RM_OWN_UNITS, 12, 4⟩
def RM_OWN_UNITS_TG : Fld := ⟨.RM_OWN_UNITS, 16, 8⟩
def RM_OWN_IO_AO : Fld := ⟨.RM_OWN_IO, 0, 16⟩
def RM_OWN_IO_TRIGIN : Fld := ⟨.RM_OWN_IO, 16, 16⟩
def RM_OWN_MEAS_MU : Fld := ⟨.RM_OWN_MEAS, 0, 16⟩
def RM_OWN_MEAS_MT : Fld := ⟨.RM_OWN_MEAS, 16, 16⟩
def RM_OWN_CS_REGIONS : Fld := ⟨.RM_OWN_CS, 0, 16⟩
def RM_MEM_BASE_BASE : Fld := ⟨.RM_MEM_BASE, 0, 16⟩
def RM_MEM_SIZE_SIZE : Fld := ⟨.RM_MEM_SIZE, 0, 17⟩
def RM_SESS_CFG_PRIO : Fld := ⟨.RM_SESS_CFG, 0, 2⟩
def RM_SESS_CFG_DEDICATED : Fld := ⟨.RM_SESS_CFG, 2, 1⟩
def RM_SESS_CTRL_TEARDOWN : Fld := ⟨.RM_SESS_CTRL, 0, 1⟩
def RM_SESS_CTRL_SCRUB : Fld := ⟨.RM_SESS_CTRL, 1, 1⟩
def RM_SESS_CTRL_ABORT : Fld := ⟨.RM_SESS_CTRL, 2, 1⟩
def RM_SESS_STAT_STATE : Fld := ⟨.RM_SESS_STAT, 0, 3⟩
def RM_SESS_STAT_CORE : Fld := ⟨.RM_SESS_STAT, 3, 2⟩
def RM_SESS_STAT_BURST : Fld := ⟨.RM_SESS_STAT, 5, 1⟩
def RM_SESS_STAT_PHASE : Fld := ⟨.RM_SESS_STAT, 8, 3⟩
def RM_SESS_SHOTS_SHOTS : Fld := ⟨.RM_SESS_SHOTS, 0, 32⟩
def RM_SESS_WAIT_MAX_WAIT : Fld := ⟨.RM_SESS_WAIT, 0, 32⟩
def RM_HIST_CFG_EN : Fld := ⟨.RM_HIST_CFG, 0, 1⟩
def RM_HIST_CFG_MU : Fld := ⟨.RM_HIST_CFG, 4, 4⟩
def RM_HIST_CFG_SHIFT : Fld := ⟨.RM_HIST_CFG, 8, 5⟩
def RM_HIST_CFG_BINS : Fld := ⟨.RM_HIST_CFG, 16, 11⟩
def RM_HIST_BASE_LO_BASE : Fld := ⟨.RM_HIST_BASE_LO, 0, 32⟩
def RM_HIST_BASE_HI_BASE : Fld := ⟨.RM_HIST_BASE_HI, 0, 16⟩
def HI_LINK_SPEED : Fld := ⟨.HI_LINK, 0, 4⟩
def HI_LINK_WIDTH : Fld := ⟨.HI_LINK, 4, 6⟩
def HI_ACC_LOG_OFFSET : Fld := ⟨.HI_ACC_LOG, 0, 20⟩
def HI_ACC_LOG_WRITE : Fld := ⟨.HI_ACC_LOG, 20, 1⟩
def HI_ACC_LOG_BE : Fld := ⟨.HI_ACC_LOG, 21, 4⟩
def HI_ACC_LOG_VALID : Fld := ⟨.HI_ACC_LOG, 31, 1⟩
def HI_ACC_CNT_COUNT : Fld := ⟨.HI_ACC_CNT, 0, 16⟩
def DB_CMD_TAIL_TAIL : Fld := ⟨.DB_CMD_TAIL, 0, 16⟩
def DB_GO_TAG : Fld := ⟨.DB_GO, 0, 16⟩
def DB_GO_GO : Fld := ⟨.DB_GO, 31, 1⟩
def DB_HEAD_HEAD : Fld := ⟨.DB_HEAD, 0, 16⟩
def DB_HEAD_REARM : Fld := ⟨.DB_HEAD, 31, 1⟩
def DB_DATA_HEAD_HEAD : Fld := ⟨.DB_DATA_HEAD, 0, 30⟩
def DB_DATA_HEAD_LAP : Fld := ⟨.DB_DATA_HEAD, 30, 1⟩
def RING_STAT_CMD_HEAD : Fld := ⟨.RING_STAT, 0, 16⟩
def RING_STAT_HELD : Fld := ⟨.RING_STAT, 16, 1⟩
def RING_STAT_GO_LATCHED : Fld := ⟨.RING_STAT, 17, 1⟩
def RING_STAT_STOPPED : Fld := ⟨.RING_STAT, 18, 1⟩
def RING_HELD_HELD_TAG : Fld := ⟨.RING_HELD, 0, 16⟩
def RING_HELD_HELD_EPOCH : Fld := ⟨.RING_HELD, 16, 4⟩
def RING_ERR_STATUS : Fld := ⟨.RING_ERR, 0, 8⟩
def RING_ERR_RING : Fld := ⟨.RING_ERR, 8, 3⟩
def RING_ERR_FIELD : Fld := ⟨.RING_ERR, 12, 2⟩
def DB_CNT0_GO_MISS : Fld := ⟨.DB_CNT0, 0, 16⟩
def DB_CNT0_DB_BAD : Fld := ⟨.DB_CNT0, 16, 16⟩
def DB_CNT1_EPOCH_STALL : Fld := ⟨.DB_CNT1, 0, 16⟩
def DB_CNT1_STALE : Fld := ⟨.DB_CNT1, 16, 16⟩
def DB_CNT2_EVT_DROPPED : Fld := ⟨.DB_CNT2, 0, 32⟩
def RING_BASE_LO_BASE : Fld := ⟨.RING_BASE_LO, 0, 32⟩
def RING_BASE_HI_BASE : Fld := ⟨.RING_BASE_HI, 0, 32⟩
def RING_ENTRIES_ENTRIES : Fld := ⟨.RING_ENTRIES, 0, 17⟩
def RING_CTL_ENABLE : Fld := ⟨.RING_CTL, 0, 1⟩
def RING_CTL_VEC : Fld := ⟨.RING_CTL, 8, 6⟩
def RING_CTL_MOD_COUNT : Fld := ⟨.RING_CTL, 16, 8⟩
def RING_CTL_MOD_TIME : Fld := ⟨.RING_CTL, 24, 8⟩
def DATA_BASE_LO_BASE : Fld := ⟨.DATA_BASE_LO, 0, 32⟩
def DATA_BASE_HI_BASE : Fld := ⟨.DATA_BASE_HI, 0, 32⟩
def DATA_SIZE_SIZE : Fld := ⟨.DATA_SIZE, 0, 24⟩
def DATA_CFG_FWD_FAIL : Fld := ⟨.DATA_CFG, 0, 1⟩
def DATA_CFG_FWD_CAP : Fld := ⟨.DATA_CFG, 1, 1⟩
def DATA_CFG_FWD_STAMP : Fld := ⟨.DATA_CFG, 2, 1⟩
def DATA_CFG_CHUNK : Fld := ⟨.DATA_CFG, 8, 8⟩
def ST_STATUS_FIELD : Fld := ⟨.ST_STATUS, 0, 3⟩
def ST_STATUS_H2F_SPARE : Fld := ⟨.ST_STATUS, 4, 4⟩
def ST_STATUS_F2H_SPARE : Fld := ⟨.ST_STATUS, 8, 4⟩
def ST_EVENTS_FIELD_UP : Fld := ⟨.ST_EVENTS, 0, 1⟩
def ST_EVENTS_FIELD_DOWN : Fld := ⟨.ST_EVENTS, 1, 1⟩
def ST_EVENTS_SPARE_H2F : Fld := ⟨.ST_EVENTS, 2, 1⟩
def ST_EVENTS_SPARE_F2H : Fld := ⟨.ST_EVENTS, 3, 1⟩
def ST_EVENTS_RETRY_EXHAUST : Fld := ⟨.ST_EVENTS, 4, 1⟩
def ST_CNT_CRC_ERR : Fld := ⟨.ST_CNT, 0, 16⟩
def ST_CNT_BAD_MSG : Fld := ⟨.ST_CNT, 16, 8⟩
def ST_DOWN_CNT_DOWN_RD : Fld := ⟨.ST_DOWN_CNT, 0, 16⟩
def ST_DOWN_CNT_DOWN_WR : Fld := ⟨.ST_DOWN_CNT, 16, 16⟩
def ST_CTRL_FIELD_RESET : Fld := ⟨.ST_CTRL, 0, 1⟩
def ST_F_CFG_ORPHAN_ACT : Fld := ⟨.ST_F_CFG, 0, 1⟩
def ST_F_CNT_CRC_ERR : Fld := ⟨.ST_F_CNT, 0, 16⟩
def ST_F_CNT_BAD_MSG : Fld := ⟨.ST_F_CNT, 16, 8⟩
def TL_ROLE_ROLE : Fld := ⟨.TL_ROLE, 0, 2⟩
def TL_ROLE_FROM_NVM : Fld := ⟨.TL_ROLE, 2, 1⟩
def TL_ROLE_DEVICE : Fld := ⟨.TL_ROLE, 8, 5⟩
def TL_ROLE_CRATE : Fld := ⟨.TL_ROLE, 16, 4⟩
def TL_ROLE_CLUSTER : Fld := ⟨.TL_ROLE, 24, 3⟩
def TL_ROLE_NUMBERED : Fld := ⟨.TL_ROLE, 31, 1⟩
def TL_DISC_CTRL_START : Fld := ⟨.TL_DISC_CTRL, 0, 1⟩
def TL_DISC_STAT_DONE : Fld := ⟨.TL_DISC_STAT, 0, 1⟩
def TL_DISC_STAT_WORKERS : Fld := ⟨.TL_DISC_STAT, 1, 5⟩
def TL_DISC_STAT_DEPTH : Fld := ⟨.TL_DISC_STAT, 6, 3⟩
def TL_DISC_STAT_CRATES : Fld := ⟨.TL_DISC_STAT, 9, 4⟩
def TL_DISC_STAT_EXCESS : Fld := ⟨.TL_DISC_STAT, 16, 8⟩
def TL_CLUSTER_CLUSTER : Fld := ⟨.TL_CLUSTER, 0, 3⟩
def TL_EV_CFG_CEV_EN : Fld := ⟨.TL_EV_CFG, 0, 8⟩
def TL_EV_CFG_SCOPE : Fld := ⟨.TL_EV_CFG, 8, 8⟩
def TL_EV_CFG_MARGIN : Fld := ⟨.TL_EV_CFG, 16, 10⟩
def TL_EV_DELAY_CRATE : Fld := ⟨.TL_EV_DELAY, 0, 16⟩
def TL_EV_DELAY_CLUSTER : Fld := ⟨.TL_EV_DELAY, 16, 16⟩
def TL_EV_CNT_LATE : Fld := ⟨.TL_EV_CNT, 0, 12⟩
def TL_EV_CNT_COALESCED : Fld := ⟨.TL_EV_CNT, 12, 12⟩
def TL_EV_CNT_LOST : Fld := ⟨.TL_EV_CNT, 24, 8⟩
def TL_ALIGN_CTRL_START : Fld := ⟨.TL_ALIGN_CTRL, 0, 1⟩
def TL_ALIGN_CTRL_TRACK : Fld := ⟨.TL_ALIGN_CTRL, 1, 1⟩
def TL_ALIGN_STAT_STATE : Fld := ⟨.TL_ALIGN_STAT, 0, 3⟩
def TL_ALIGN_STAT_ALIGN_LOST : Fld := ⟨.TL_ALIGN_STAT, 3, 1⟩
def TL_ALIGN_STAT_OFFSET : Fld := ⟨.TL_ALIGN_STAT, 16, 16⟩
def TL_ALIGN_PHASE_PHASE : Fld := ⟨.TL_ALIGN_PHASE, 0, 16⟩
def TL_FAB_CFG_NODE : Fld := ⟨.TL_FAB_CFG, 0, 16⟩
def TL_FAB_CFG_DEST : Fld := ⟨.TL_FAB_CFG, 16, 16⟩
def TL_RACC_TGT_DEVICE : Fld := ⟨.TL_RACC_TGT, 0, 5⟩
def TL_RACC_TGT_CRATE : Fld := ⟨.TL_RACC_TGT, 8, 4⟩
def TL_RACC_TGT_WRITE : Fld := ⟨.TL_RACC_TGT, 16, 1⟩
def TL_RACC_TGT_GO : Fld := ⟨.TL_RACC_TGT, 31, 1⟩
def TL_RACC_OFS_OFFSET : Fld := ⟨.TL_RACC_OFS, 0, 20⟩
def TL_RACC_DATA_DATA : Fld := ⟨.TL_RACC_DATA, 0, 32⟩
def TL_RACC_STAT_BUSY : Fld := ⟨.TL_RACC_STAT, 0, 1⟩
def TL_RACC_STAT_STATUS : Fld := ⟨.TL_RACC_STAT, 8, 8⟩
def TL_PORT_CFG_MODE : Fld := ⟨.TL_PORT_CFG, 0, 2⟩
def TL_PORT_CFG_DEGRADE_EN : Fld := ⟨.TL_PORT_CFG, 2, 1⟩
def TL_PORT_STAT_STATE : Fld := ⟨.TL_PORT_STAT, 0, 3⟩
def TL_PORT_STAT_DIR : Fld := ⟨.TL_PORT_STAT, 3, 1⟩
def TL_PORT_STAT_LANES : Fld := ⟨.TL_PORT_STAT, 4, 2⟩
def TL_PORT_STAT_PEER_ROLE : Fld := ⟨.TL_PORT_STAT, 6, 2⟩
def TL_PORT_STAT_PEER_DEV : Fld := ⟨.TL_PORT_STAT, 8, 5⟩
def TL_PORT_STAT_PEER_CRATE : Fld := ⟨.TL_PORT_STAT, 16, 4⟩
def TL_PORT_LAT_LATENCY : Fld := ⟨.TL_PORT_LAT, 0, 20⟩
def TL_PORT_CNT_CRC_ERR : Fld := ⟨.TL_PORT_CNT, 0, 16⟩
def TL_PORT_CNT_RETRAIN : Fld := ⟨.TL_PORT_CNT, 16, 8⟩
def TL_PORT_EVENTS_UP : Fld := ⟨.TL_PORT_EVENTS, 0, 1⟩
def TL_PORT_EVENTS_DOWN : Fld := ⟨.TL_PORT_EVENTS, 1, 1⟩
def TL_PORT_EVENTS_DEGRADE : Fld := ⟨.TL_PORT_EVENTS, 2, 1⟩
def TL_PORT_EVENTS_RETRY_EXHAUST : Fld := ⟨.TL_PORT_EVENTS, 3, 1⟩
def TL_ROUTE_ADDR : Fld := ⟨.TL_ROUTE, 0, 16⟩
def TL_ROUTE_PLEN : Fld := ⟨.TL_ROUTE, 16, 5⟩
def TL_ROUTE_PORT : Fld := ⟨.TL_ROUTE, 24, 2⟩
def TL_ROUTE_VALID : Fld := ⟨.TL_ROUTE, 31, 1⟩
def FLT_FIRST_DET : Fld := ⟨.FLT_FIRST, 0, 6⟩
def FLT_FIRST_INJECTED : Fld := ⟨.FLT_FIRST, 6, 1⟩
def FLT_FIRST_UNIT : Fld := ⟨.FLT_FIRST, 8, 8⟩
def FLT_FIRST_SESSION : Fld := ⟨.FLT_FIRST, 16, 4⟩
def FLT_FIRST_NOSESS : Fld := ⟨.FLT_FIRST, 20, 1⟩
def FLT_FIRST_VALID : Fld := ⟨.FLT_FIRST, 31, 1⟩
def FLT_FIRST_TBC_LO_TBC : Fld := ⟨.FLT_FIRST_TBC_LO, 0, 32⟩
def FLT_FIRST_TBC_HI_TBC : Fld := ⟨.FLT_FIRST_TBC_HI, 0, 16⟩
def FLT_DDR_ADDR_LO_ADDR : Fld := ⟨.FLT_DDR_ADDR_LO, 0, 32⟩
def FLT_DDR_ADDR_HI_ADDR : Fld := ⟨.FLT_DDR_ADDR_HI, 0, 4⟩
def FLT_TEMP_TEMP : Fld := ⟨.FLT_TEMP, 0, 12⟩
def FLT_TEMP_WARN : Fld := ⟨.FLT_TEMP, 12, 1⟩
def FLT_TEMP_TRIP : Fld := ⟨.FLT_TEMP, 13, 1⟩
def FLT_TEMP_CFG_WARN : Fld := ⟨.FLT_TEMP_CFG, 0, 12⟩
def FLT_TEMP_CFG_TRIP : Fld := ⟨.FLT_TEMP_CFG, 16, 12⟩
def FLT_SUPPLY_OK : Fld := ⟨.FLT_SUPPLY, 0, 5⟩
def FLT_SC_CFG_PERIOD : Fld := ⟨.FLT_SC_CFG, 0, 8⟩
def FLT_SC_CFG_TOL : Fld := ⟨.FLT_SC_CFG, 16, 12⟩
def FLT_SC_STAT_FAILING : Fld := ⟨.FLT_SC_STAT, 0, 9⟩
def FLT_SC_STAT_TG8_BAD : Fld := ⟨.FLT_SC_STAT, 9, 1⟩
def FLT_SC_STAT_LAST_ERR : Fld := ⟨.FLT_SC_STAT, 16, 16⟩
def FLT_CORE_OFFLINE : Fld := ⟨.FLT_CORE, 0, 1⟩
def FLT_CORE_ONLINE : Fld := ⟨.FLT_CORE, 1, 1⟩
def FLT_CORE_STATE : Fld := ⟨.FLT_CORE, 2, 2⟩
def FLT_CORE_AUTO : Fld := ⟨.FLT_CORE, 4, 1⟩
def FLT_CORE_REFUSED : Fld := ⟨.FLT_CORE, 5, 1⟩
def FLT_CNT_COUNT : Fld := ⟨.FLT_CNT, 0, 32⟩
def FLT_INJ_SEL_DET : Fld := ⟨.FLT_INJ_SEL, 0, 6⟩
def FLT_INJ_SEL_VARIANT : Fld := ⟨.FLT_INJ_SEL, 6, 1⟩
def FLT_INJ_SEL_UNIT : Fld := ⟨.FLT_INJ_SEL, 8, 8⟩
def FLT_INJ_CTRL_COUNT : Fld := ⟨.FLT_INJ_CTRL, 0, 16⟩
def FLT_INJ_CTRL_ARM : Fld := ⟨.FLT_INJ_CTRL, 16, 1⟩
def FLT_INJ_CTRL_CANCEL : Fld := ⟨.FLT_INJ_CTRL, 17, 1⟩
def FLT_INJ_CTRL_BUSY : Fld := ⟨.FLT_INJ_CTRL, 18, 1⟩
def FLT_INJ_CTRL_DONE : Fld := ⟨.FLT_INJ_CTRL, 19, 1⟩
def FLT_INJ_CTRL_ERR : Fld := ⟨.FLT_INJ_CTRL, 20, 1⟩
def FLT_CS_STAGE_STAGE : Fld := ⟨.FLT_CS_STAGE, 0, 1⟩
def FLT_CS_SWAP_GO : Fld := ⟨.FLT_CS_SWAP, 0, 1⟩
def FLT_CS_SWAP_PENDING : Fld := ⟨.FLT_CS_SWAP, 1, 1⟩
def NVM_H_STAT_VALID : Fld := ⟨.NVM_H_STAT, 0, 1⟩
def NVM_H_STAT_BUSY : Fld := ⟨.NVM_H_STAT, 1, 1⟩
def NVM_H_STAT_PROG_ERR : Fld := ⟨.NVM_H_STAT, 2, 1⟩
def NVM_H_ADDR_OFFSET : Fld := ⟨.NVM_H_ADDR, 0, 8⟩
def NVM_H_ADDR_AUTOINC : Fld := ⟨.NVM_H_ADDR, 8, 1⟩
def NVM_H_DATA_DATA : Fld := ⟨.NVM_H_DATA, 0, 32⟩
def NVM_H_CTRL_LOAD : Fld := ⟨.NVM_H_CTRL, 0, 1⟩
def NVM_H_CTRL_PROGRAM : Fld := ⟨.NVM_H_CTRL, 1, 1⟩
def NVM_F_STAT_CFG_OK : Fld := ⟨.NVM_F_STAT, 0, 1⟩
def NVM_F_STAT_CAL_OK : Fld := ⟨.NVM_F_STAT, 1, 1⟩
def NVM_F_STAT_CFG_COPY : Fld := ⟨.NVM_F_STAT, 2, 1⟩
def NVM_F_STAT_CAL_COPY : Fld := ⟨.NVM_F_STAT, 3, 1⟩
def NVM_F_STAT_BUSY : Fld := ⟨.NVM_F_STAT, 4, 1⟩
def NVM_F_STAT_PROG_ERR : Fld := ⟨.NVM_F_STAT, 5, 1⟩
def NVM_F_STAT_ERR_OFS : Fld := ⟨.NVM_F_STAT, 16, 12⟩
def NVM_F_ADDR_OFFSET : Fld := ⟨.NVM_F_ADDR, 0, 16⟩
def NVM_F_ADDR_SPACE : Fld := ⟨.NVM_F_ADDR, 16, 1⟩
def NVM_F_ADDR_AUTOINC : Fld := ⟨.NVM_F_ADDR, 17, 1⟩
def NVM_F_DATA_DATA : Fld := ⟨.NVM_F_DATA, 0, 32⟩
def NVM_F_CTRL_LOAD : Fld := ⟨.NVM_F_CTRL, 0, 1⟩
def NVM_F_CTRL_PROGRAM : Fld := ⟨.NVM_F_CTRL, 1, 1⟩
def NVM_F_CTRL_STORE_CAL : Fld := ⟨.NVM_F_CTRL, 2, 1⟩
def NVM_F_COUNT_WRITE_COUNT : Fld := ⟨.NVM_F_COUNT, 0, 32⟩
def NVM_BOOT_STAT_NVM_DONE : Fld := ⟨.NVM_BOOT_STAT, 0, 1⟩
def NVM_BOOT_STAT_DDR_DONE : Fld := ⟨.NVM_BOOT_STAT, 1, 1⟩
def NVM_BOOT_STAT_DDR_FAIL : Fld := ⟨.NVM_BOOT_STAT, 2, 1⟩
def NVM_BOOT_STAT_SPI_STATE : Fld := ⟨.NVM_BOOT_STAT, 3, 2⟩
def NVM_BOOT_STAT_BOOT_BUSY : Fld := ⟨.NVM_BOOT_STAT, 5, 1⟩
def NVM_BOOT_STAT_SPI_ERR : Fld := ⟨.NVM_BOOT_STAT, 8, 8⟩
def NVM_BOOT_STAT_SKIPPED : Fld := ⟨.NVM_BOOT_STAT, 16, 16⟩
def NVM_BOOT_CMT_STATUS : Fld := ⟨.NVM_BOOT_CMT, 0, 8⟩
def NVM_BOOT_CMT_FIELD_ID : Fld := ⟨.NVM_BOOT_CMT, 16, 16⟩
def SYS_ID_VENDOR : Fld := ⟨.SYS_ID, 0, 16⟩
def SYS_ID_DEVICE : Fld := ⟨.SYS_ID, 16, 16⟩
def SYS_STEP_STEPPING : Fld := ⟨.SYS_STEP, 0, 8⟩
def SYS_STEP_MAP : Fld := ⟨.SYS_STEP, 8, 8⟩
def SYS_STATUS_FIELD : Fld := ⟨.SYS_STATUS, 0, 3⟩
def SYS_STATUS_HNVM_OK : Fld := ⟨.SYS_STATUS, 3, 1⟩
def SYS_STATUS_NUM_VFS : Fld := ⟨.SYS_STATUS, 4, 5⟩
def SYS_STATUS_ACC_LOGGED : Fld := ⟨.SYS_STATUS, 9, 1⟩
def SYS_SCRATCH_DATA : Fld := ⟨.SYS_SCRATCH, 0, 32⟩
def SYS_COMMIT_WHERE_OFFSET : Fld := ⟨.SYS_COMMIT_WHERE, 0, 20⟩
def SYS_COMMIT_WHERE_TS : Fld := ⟨.SYS_COMMIT_WHERE, 20, 5⟩
def SYS_COMMIT_WHERE_SRC_RING : Fld := ⟨.SYS_COMMIT_WHERE, 25, 1⟩
def SYS_COMMIT_WHERE_SESSION : Fld := ⟨.SYS_COMMIT_WHERE, 28, 4⟩
def SYS_COMMIT_LAST_SEQ : Fld := ⟨.SYS_COMMIT_LAST, 0, 16⟩
def SYS_COMMIT_LAST_ENTRY : Fld := ⟨.SYS_COMMIT_LAST, 16, 12⟩
def SYS_COMMIT_LFID_STATUS : Fld := ⟨.SYS_COMMIT_LFID, 0, 8⟩
def SYS_COMMIT_LFID_FIELD_ID : Fld := ⟨.SYS_COMMIT_LFID, 16, 16⟩
def AO_SEG_STATUS_SEG_IDX : Fld := ⟨.AO_SEG_STATUS, 0, 12⟩
def AO_SEG_STATUS_PHASE : Fld := ⟨.AO_SEG_STATUS, 12, 3⟩
def AO_SEG_STATUS_STAGED_A : Fld := ⟨.AO_SEG_STATUS, 15, 1⟩
def AO_SEG_STATUS_STAGED_B : Fld := ⟨.AO_SEG_STATUS, 16, 1⟩
def AO_SEG_STATUS_JUMP_PENDING : Fld := ⟨.AO_SEG_STATUS, 17, 1⟩
def AO_SEG_STATUS_PENDING_TGT : Fld := ⟨.AO_SEG_STATUS, 18, 1⟩
def AO_SEG_PASS_PASS : Fld := ⟨.AO_SEG_PASS, 0, 32⟩
def AO_SEG_VEC_VEC : Fld := ⟨.AO_SEG_VEC, 0, 32⟩
def AO_JUMP_CNT0_TAKEN : Fld := ⟨.AO_JUMP_CNT0, 0, 16⟩
def AO_JUMP_CNT0_MERGED : Fld := ⟨.AO_JUMP_CNT0, 16, 16⟩
def AO_JUMP_CNT1_LOST : Fld := ⟨.AO_JUMP_CNT1, 0, 16⟩
def AO_JUMP_CNT1_STAGE_WAIT : Fld := ⟨.AO_JUMP_CNT1, 16, 16⟩
def MSIX_TABLE_ENTRY : Fld := ⟨.MSIX_TABLE, 0, 32⟩
def MSIX_PBA_PENDING : Fld := ⟨.MSIX_PBA, 0, 32⟩
end Sys2Proof.Machine.F
end

