-- ==== Sys2Proof/Machine/State.lean ====
section
/-! DEFINITION. The state of the KN-9600 as plain data, the reasons a step can stop, and the state after reset. -/

namespace Sys2Proof.Machine

/-- Sparse data by key, in rising key order, an absent key standing for its default. -/
abbrev SMap (α : Type) := List (Nat × α)

/-- The status codes of R18. -/
inductive Status where
  | ok | stale | underrun | maskStop | aborted | commitConflict | commitLoop | commitRange
  | resourceBusy | badDescriptor | fault | timeout | degraded
  deriving DecidableEq, Repr

/-- The setup registers (R12–R17, R37, R485). Keys are those of `Reg.row`; an absent key reads its reset value. -/
structure Regs where
  /-- RO, RW, W1C and RC fields. -/
  main : SMap Word
  /-- What the part set or counted into W1C and RC fields since the last event-clock edge (R16). -/
  fresh : SMap Word
  /-- Shadow copies of the RWS fields. -/
  shadow : SMap Word
  /-- Active copies of the RWS fields. -/
  active : SMap Word
  /-- One latch per register pair, by the key of its high half (R13), and the latches of R489. -/
  pairLatch : SMap Word
  /-- One held low value per register pair, by the key of its low half (R13). -/
  pairHeld : SMap Word
  deriving DecidableEq, Repr

/-- A detected sync pulse between S and E (R72–R74). -/
structure SyncPulse where
  /-- ARM was in effect before S. -/
  armed : Bool
  /-- Every condition of R73 checked so far holds. -/
  good : Bool
  /-- It was detected behind an armed pulse in hand: R74 ignores it if that one is honoured. -/
  behind : Bool
  /-- REFIN edges from the last one to its E, LAG of them at its S (R72). -/
  lag : Nat
  deriving DecidableEq, Repr

/-- The time base (R54–R76). -/
structure TimeBase where
  /-- The time-stamp counter (R68). -/
  tbc : BitVec 64
  /-- Times that TBC has wrapped or has been loaded with a lower value (the model's own field, log 72). -/
  laps : Nat
  /-- MCLK edges since the last REFIN edge. -/
  refPhase : Nat
  /-- MCLK edges since REFOUT last rose (R443). -/
  refoutPhase : Nat
  /-- REFIN is qualified (R57). -/
  qualified : Bool
  /-- REFIN rising edges counted in the last range window (R56). -/
  lastCount : Nat
  /-- The PLL frequency word held in HOLDOVER and FAULT (R64). -/
  heldWord : Nat
  /-- The averaged word of a lock trip whose 10 µs comparison runs (R56). -/
  trip : Option Nat
  /-- TBC at the entry to the present holdover (R67). -/
  holdStart : Option Nat
  /-- ARM took effect at a REFIN edge before the last one (R73). -/
  armEff : Bool
  /-- Pulses between their S and their E, oldest first. -/
  pulses : List SyncPulse
  /-- ARM as it stood at the last REFIN edge (R74). -/
  armLast : Bool
  /-- REFIN periods for which SYNCOUT stays high (R75). -/
  syncoutLeft : Nat
  /-- An EMIT waits for the next REFIN edge (R75). -/
  emitWait : Bool
  /-- REFIN periods until the next periodic pulse (R75). -/
  periodLeft : Option Nat
  /-- REFIN edges until the S of each link pulse under way (R444). -/
  linkLeft : List Nat
  /-- Phase error last measured, in ticks, and TBC at that measurement (R66, R76). -/
  phase : Int
  phaseAt : Nat
  /-- TBC[63:48], counted on over laps, that the stamp streams have been told (R280). -/
  streamHi : Nat
  deriving DecidableEq, Repr

/-- Weak pull of a ball (R119). -/
inductive Pull where
  | none | down | up
  deriving DecidableEq, Repr

/-- Why a lane is in its fault or abort state (rank 3 of R118). -/
inductive SafeKind where
  | none | fault | abort
  deriving DecidableEq, Repr

/-- One edge placed for the period in play: the tick and what it sets (R86). -/
structure EdgeAt where
  at_ : Nat
  level : Option Bool
  enable : Option Bool
  deriving DecidableEq, Repr

/-- The compare of a lane in the period in play (R84, R85). -/
structure Compare where
  /-- Band code expected: 0 L, 1 M, 2 H. -/
  band : Nat
  strobe : Nat
  /-- Window closing tick under window-compare. -/
  close : Option Nat
  /-- A reflex or a hold began in the period, which counts in MASKED (R117, R121). -/
  masked : Bool
  deriving DecidableEq, Repr

/-- A change of a lane's comparator: from this tick on the input has this voltage in µV, and lies past VTH_LO and VTH_HI with their hysteresis or not
(R99, R108). -/
structure CmpPoint where
  at_ : Nat
  v : Int
  lo : Bool
  hi : Bool
  deriving DecidableEq, Repr

/-- What a period's T_STRB found on a lane, for captures (R260): its tick, the band, and whether the slice was calibrating. -/
structure StrobeSeen where
  at_ : Nat
  band : Nat
  stale : Bool
  deriving DecidableEq, Repr

/-- Thresholds in µV that a commit has replaced, VTH_LO and VTH_HI, and the tick of their replacement (R109). -/
structure OldThs where
  lo : Int
  hi : Int
  at_ : Nat
  deriving DecidableEq, Repr

/-- What a lane's vector gives while a reflex or a spare swap keeps the ball from it (R116, R121). -/
structure Track where
  level : Bool
  enable : Bool
  edges : List EdgeAt
  lastChange : Option Nat
  deriving DecidableEq, Repr

/-- One channel lane (R98–R120). -/
structure Lane where
  /-- Level set by the edges applied before the period in play, or at rest. -/
  level : Bool
  enable : Bool
  pull : Pull
  /-- Edges of the period in play, in time order. -/
  edges : List EdgeAt
  /-- Tick of the last level change (R91, R95, R115). -/
  lastChange : Option Nat
  /-- Compare of the period in play. -/
  cmp : Option Compare
  /-- Forced by a reflex (R113). -/
  forced : Bool
  /-- The vector's own course while the lane is forced or held (R116, R121). -/
  vec : Option Track
  safe : SafeKind
  /-- Held during a spare swap (R121). -/
  held : Bool
  /-- High-impedance interval after a MODE change (R105). -/
  hiz : Bool
  /-- Start and end of the last such interval, the end as long as it is over: no compare sampled in it is judged (R105). -/
  hizFrom : Nat
  hizTo : Nat
  /-- The driver is kept off, by the interval or by a bank out of range (R104, R105). -/
  kept : Bool
  /-- The lane returns from a force: its next level change obeys R95 (R116). -/
  respace : Bool
  /-- Voltages last seen at the P and the N ball, in µV (R101, R509). -/
  vp : Int
  vn : Int
  /-- The comparator's changes, latest first, as far back as the start of the period in play (R99, R108). -/
  trace : List CmpPoint
  /-- What the last periods' T_STRB found, latest first (R260). -/
  seen : List StrobeSeen
  /-- Thresholds before the last commit that changed them (R109). -/
  oldTh : Option OldThs
  /-- Pin state code of the period in play. -/
  pin : Nat
  /-- The forcing cell has deasserted; the lane returns at the next period boundary (R116). -/
  unforce : Bool
  /-- Power-up state code of the lane's NVM entry (R119). -/
  power : Nat
  /-- A period or force has driven the lane since the NVM read, so the weak pull is off for good (R119). -/
  driven : Bool
  /-- Weak pull that the fault or abort state gives while the driver is off (R119, R120). -/
  safePull : Pull
  deriving DecidableEq, Repr

/-- The spare swap in progress on a slice (R121, R123). -/
structure SpareSwap where
  lane : Fin 8
  /-- A RESTORE rather than a swap to TG8. -/
  restore : Bool
  /-- Step of R121 completed: 1 to 4. -/
  stage : Nat
  start : Nat
  deriving DecidableEq, Repr

/-- A segment descriptor, the copy of a segment-table entry that an issue makes (R166, R167). -/
structure Seg where
  idx : Nat
  kind : Nat
  endAct : Nat
  slip : Bool
  passJp : Bool
  ts : Nat
  undr : Nat
  jsrcA : Nat
  jsrcB : Nat
  fw : Nat
  length : Nat
  loops : Nat
  jpInt : Nat
  shA : Option Nat
  shB : Option Nat
  idleVec : Nat
  va : Nat
  /-- The session whose table the descriptor was copied from. -/
  sess : Nat
  /-- Number of the issue that copied it (R238); a shadow has its parent's. -/
  issue : Nat
  deriving DecidableEq, Repr

/-- One entry of a wall queue: a descriptor or a timing-set switch (R93). -/
inductive WallEntry where
  | seg (d : Seg)
  | ts (n : Nat)
  deriving DecidableEq, Repr

/-- What a unit plays (R169–R183). -/
structure Play where
  seg : Seg
  /-- Passes completed. -/
  pass : Nat
  /-- Vectors or samples of the present pass that have started. -/
  next : Nat
  /-- EP_SEG_STATUS.PHASE: 1 playing, 2 holding, 3 repeating, 4 slipping. -/
  phase : Nat
  /-- The slip follows a wall starvation, so its slots belong to no segment (R177). -/
  wallSlip : Bool
  /-- The unit itself caused the present slip episode (R238). -/
  slipOwn : Bool
  /-- Tick of the segment's first period. -/
  segStart : Nat
  /-- Tick at which the slot in play starts and the tick at which it ends. -/
  slotStart : Nat
  slotEnd : Nat
  /-- Time-base quality code at the start of the slot (R258). -/
  slotQ : Nat
  /-- Pending jump request: target B (else A) and the tick of the sampling edge (R178). -/
  pend : Option (Bool × Nat)
  stagedA : Bool
  stagedB : Bool
  /-- The first 64 vectors or samples of each shadow, as far as they stand in its branch buffer (R180). -/
  bufA : List Nat
  bufB : List Nat
  /-- Descriptors of the shadows, copied when the segment's first period starts; none where no shadow is present or it has no pass (R173, R180). -/
  descA : Option Seg
  descB : Option Seg
  /-- Vectors of a staged Furrow head not yet played, after the jump to it (R180). -/
  head : List Nat
  deriving DecidableEq, Repr

/-- The context of a sequence on a core (R148, R149). -/
structure Ctx where
  pc : Nat
  stack : List Nat
  lc0 : Nat
  lc1 : Nat
  flags : Nat
  timedOut : Bool
  /-- Sticky conditions 23, 24 and 30 (R135). -/
  failSeen : Bool
  maskViol : Bool
  slipSeen : Bool
  /-- Regions that the sequence has fetched from, as a mask (R163, R164, R465). -/
  fetched : Nat
  deriving DecidableEq, Repr

/-- A queue deposit or other effect of a microword that a span holds back (R156). -/
inductive SpanFx where
  | issue (mask aoMask : Nat) (d : Seg)
  | tsSwitch (mask n : Nat)
  | furrow (mask op reg arg : Nat)
  | emit (mask : Nat)
  deriving DecidableEq, Repr

/-- An atomic span in progress (R155–R158). -/
structure Span where
  head : Nat
  /-- Span words completed. -/
  words : Nat
  /-- Context at the span's start. -/
  start : Ctx
  /-- Deposits and emits held back, oldest first. -/
  fx : List SpanFx
  deriving DecidableEq, Repr

/-- What a core is doing (SQ_STATUS.STATE, R164). -/
inductive CoreSt where
  | idle | running | waiting | stalled | halted | faulted
  deriving DecidableEq, Repr

/-- A sequencer core (R131–R158). -/
structure Core where
  st : CoreSt
  /-- Session that the core runs, or ran last. -/
  sess : Nat
  ctx : Ctx
  span : Option Span
  /-- The dispatch source as it stood when the present word started (R131). -/
  dsp : Nat
  /-- The event-clock edge from which the present word's timeout is counted (R138). -/
  waitFrom : Nat
  /-- The stalled word's condition, and whether its wait ended by timeout. -/
  stallCond : Bool
  stallTimedOut : Bool
  /-- HALT pending (R151). -/
  haltReq : Bool
  /-- An abort pending until the span commit (R157), with teardown's reason not distinguished. -/
  abortReq : Bool
  /-- STEP in progress: halt again after the word or span (R152). -/
  stepping : Bool
  /-- Taken out of service at its next shot boundary (R464). -/
  offReq : Bool
  deriving DecidableEq, Repr

/-- One quadword's stored-error state in the control store (R126, R127). -/
inductive Ecc where
  | clean | single | double
  deriving DecidableEq, Repr

/-- A control-store word: type 1 microword or 2 Furrow word, its 192 bits, and the error state of each quadword. -/
structure CsWord where
  kind : Nat
  bits : Nat
  ecc : Vector Ecc 3
  deriving DecidableEq, Repr

/-- The control store and its window (R125, R164). -/
structure CtlStore where
  /-- Words of type 1 and 2 by address; an absent address is type 0. -/
  words : List (Nat × CsWord)
  /-- The window's latched word: its address and the word, if of type 1 or 2. -/
  latch : Option (Nat × Option CsWord)
  deriving DecidableEq, Repr

/-- A sequence of a session, from the START or shot to its completion (R148, R362). -/
structure SeqRun where
  entry : Nat
  /-- It runs for a shot (its completion is the burst's affair, R381). -/
  shot : Bool
  /-- The core fetches no further word: END, or an ending condition. -/
  ended : Bool
  /-- Condition flags of R398 so far. -/
  cond : Nat
  /-- No unit starts a further period or sample: STOP, a mask stop or a fill timeout (R227, R235, R265). -/
  halted : Bool
  /-- The instant from which no further period starts (R20, R239). -/
  haltAt : Option Nat
  /-- It ended with UNDERRUN (R20). -/
  under : Bool
  /-- DETAIL0 of an underrun (R399). -/
  detail : Nat
  /-- F7–F0 as they stood when the sequence ended (R142). -/
  flagsF : Nat
  deriving DecidableEq, Repr

/-- One histogram (R376). -/
structure Hist where
  bins : SMap Nat
  below : Nat
  above : Nat
  empty : Nat
  stale : Nat
  loss : Nat
  count : Nat
  sum : Int
  lo : Int
  hi : Int
  deriving DecidableEq, Repr

/-- A burst of shots (R366–R381): the descriptor's fields, then the running tally. -/
structure Burst where
  entry : Nat
  onTrigger : Bool
  tgMask : Nat
  lead : Nat
  flags : Nat
  histMask : Nat
  burst : Nat
  spacing : Nat
  trigTo : Nat
  resultAddr : Nat
  resultSize : Nat
  /-- Shots started. -/
  shots : Nat
  /-- S of the present shot and of the first. -/
  sTick : Nat
  firstS : Nat
  /-- Phase of R368, 0 between shots. -/
  phase : Nat
  /-- Lead trigger instant of the present shot. -/
  leadAt : Option Nat
  /-- The instant from which the last shot's dead time runs, while unknown. -/
  deadFrom : Option Nat
  /-- Log address and first 16 bytes of the record that waits for that dead time. -/
  deadRec : Option (Nat × List Byte)
  /-- Completion tick and status of the present shot's sequence. -/
  done : Option Nat
  shotStatus : Status
  shotViol : Nat
  shotStale : Bool
  shotQ : Nat
  deriving DecidableEq, Repr

/-- The running tally of a burst, as the result block reports it (R378). -/
structure Tally where
  status : Status
  cond : Nat
  stale : Bool
  worstQ : Nat
  nDegraded : Nat
  nViol : Nat
  nUnderrun : Nat
  nTimeout : Nat
  lastTbc : Nat
  deadMin : Option Nat
  deadMax : Option Nat
  deadSum : Nat
  ignored : Nat
  late : Nat
  logCount : Nat
  logTrunc : Bool
  viol : Vector Nat 16
  /-- DETAIL0 of the last underrun, and F7–F0 of the last sequence (R381, R399). -/
  detail : Nat
  flagsF : Nat
  deriving DecidableEq, Repr

/-- A host page whose fill is outstanding or whose content stands in the page cache (R223–R227). -/
structure CachePage where
  /-- Page number of the pattern virtual address. -/
  page : Nat
  /-- Slot of the page cache, none while the fill waits for a replaceable page (R226). -/
  slot : Option Nat
  /-- Bus address of the page. -/
  bus : Nat
  /-- The last byte has arrived. -/
  full : Bool
  /-- The fill timed out (R227). -/
  late : Bool
  deriving DecidableEq, Repr

/-- A cached translation (R218–R221). -/
structure Xlate where
  page : Nat
  /-- 0 field-located, 1 host-located. -/
  loc : Nat
  /-- Field view address or bus address of the page. -/
  base : Nat
  deriving DecidableEq, Repr

/-- A session on the field side (R354–R382, R165, R218–R227). -/
structure Sess where
  /-- The running sequence. -/
  seq : Option SeqRun
  /-- The core it holds, or held last. -/
  core : Nat
  onCore : Bool
  /-- Waiting for a core since this tick (R363). -/
  waitSince : Option Nat
  /-- The context of a sequence switched out, or not yet begun (R364). -/
  saved : Option Ctx
  /-- Entry points: number to address (R149). -/
  entries : SMap (Option Nat)
  /-- The staged entry table while FLT_CS_STAGE.STAGE is 1 (R465). -/
  staged : Option (SMap (Option Nat))
  /-- A swap waits for the sequence to complete (R465). -/
  swapWait : Bool
  /-- Segment tables, 256-bit entries by index. -/
  segShadow : SMap Nat
  segActive : SMap Nat
  burst : Option Burst
  tally : Tally
  hists : Vector Hist 4
  /-- Tearing down, and whether a scrub is asked for (R360, R361). -/
  tearing : Bool
  scrub : Bool
  /-- The teardown waits for a span commit (R151, R157). -/
  tearWait : Bool
  /-- Ownership registers as they stood when the teardown in progress cleared them, by key (R360). -/
  torn : SMap Word
  xlates : List Xlate
  pages : List CachePage
  /-- Pages whose page-table walk is under way (R224). -/
  walks : List Nat
  /-- Held translation faults: page and fault code (R222). -/
  held : List (Nat × Nat)
  /-- Tag and epoch of the running START or SHOT instance. -/
  tag : Nat
  epoch : Nat
  hasTag : Bool
  /-- Conditions of that instance that no ending status carries (R398). -/
  cond : Nat
  /-- Worst quality code while the running command acts. -/
  worstQ : Nat
  /-- Issues made so far (R238). -/
  issues : Nat
  deriving DecidableEq, Repr

/-- A fetched command that has not completed (R392, R401). -/
structure Cmd where
  tag : Nat
  epoch : Nat
  bytes : List Byte
  deriving DecidableEq, Repr

/-- A live instance (R401). -/
structure Inst where
  tag : Nat
  epoch : Nat
  opcode : Nat
  intr : Bool
  began : Bool
  /-- Its completion has been formed (R397). -/
  ended : Bool
  /-- Worst time-base quality code since it began (R397). -/
  worstQ : Nat
  /-- Number of its descriptor among those that the session has read (R392). -/
  num : Nat
  deriving DecidableEq, Repr

/-- An MSI-X message that the part has sent: function and vector, and the address and data of the vector's table entry (R386, R410). -/
structure Irq where
  fn : Nat
  vec : Nat
  addr : Nat
  data : Nat
  deriving DecidableEq, Repr

/-- A completion entry that waits for room, its INTR flag, and the instance that stays live until it is posted (R400, R401). -/
structure Waiting where
  entry : List Byte
  intr : Bool
  inst : Option (Nat × Nat)
  deriving DecidableEq, Repr

/-- The part's side of one ring (R389–R391, R410). -/
structure Ring where
  wr : Nat
  rd : Nat
  /-- Entries written and not returned (R391). -/
  used : Nat
  phase : Bool
  armed : Bool
  /-- Entries written since the ring last raised its vector. -/
  since : Nat
  deriving DecidableEq, Repr

/-- A session's doorbell page, rings and instances on the H-die (R387–R412). -/
structure HostSess where
  rings : Vector Ring 4
  /-- Command-ring write index of the last accepted DB_CMD_TAIL. -/
  tail : Nat
  stopped : Bool
  /-- Fetching stands at a descriptor held back by R404. -/
  stalled : Bool
  /-- Fetched commands that have not begun, in ring order. -/
  queue : List Cmd
  live : List Inst
  /-- Epoch of each tag; an absent tag is at 0. -/
  epochs : SMap Nat
  /-- Opcode of each instance read, by tag × 16 + epoch (R402). -/
  opcodes : SMap Nat
  /-- The held command has passed its checks (R405). -/
  held : Bool
  goLatch : Option Nat
  /-- Instances whose STALE completion has been posted (R402). -/
  stalePosted : List (Nat × Nat)
  /-- Completion entries that wait for room. -/
  waiting : List Waiting
  /-- Descriptors read so far (R392). -/
  fetched : Nat
  /-- MSI-X Enable and Function Mask of the session's function (R410). No command writes configuration space (DESIGN CHOICE, log 75). -/
  msixOn : Bool
  msixMask : Bool
  /-- Event entries dropped since the last one written (R407). -/
  evDropped : Nat
  /-- Write position and lap of the data area, and software's read position, in 64-byte units (R408). -/
  dataWr : Nat
  dataLap : Bool
  dataRd : Nat
  dataRdLap : Bool
  deriving DecidableEq, Repr

/-- A field-to-host message held in the outbound queue (R428). -/
inductive Msg where
  /-- A ring entry: ring, entry, the command's INTR flag, and its instance when it acts for one. -/
  | ringPost (ring : Nat) (entry : List Byte) (intr : Bool) (inst : Option (Nat × Nat))
  /-- A write to host memory. -/
  | hostWr (addr : Nat) (data : List Byte) (inst : Option (Nat × Nat))
  deriving DecidableEq, Repr

/-- A read of host memory that the field side asks for: its session, the instance it acts for, bus address and length (R402, R419). -/
structure HostRead where
  sess : Nat
  inst : Option (Nat × Nat)
  addr : Nat
  len : Nat
  deriving DecidableEq, Repr

/-- A Stile header frame's fields: reserved bits of FLAGS, and INLINE of 16 bytes (R418). -/
structure Header where
  typ : Nat
  nak : Bool
  notag : Bool
  hostReset : Bool
  reserved : Nat
  tag : Nat
  session : Nat
  epoch : Nat
  ndata : Nat
  ack : Nat
  addr : Nat
  inline_ : List Byte
  deriving DecidableEq, Repr

/-- What a message on the Stile carries, by its type (R419). -/
inductive Packet where
  /-- IDLE, and any frame of which only ACK and NAK count. -/
  | idle
  /-- A header whose reserved fields are not 0 or whose TYPE is not sent, with the direction it travels in (R419, R422). -/
  | bad (toHost : Bool) (h : Header)
  | state (v : Nat)
  | lane (toHost : Bool) (n : Nat)
  | regWr (off : Nat) (v : Word)
  | regRd (off : Nat)
  | regRsp (v : Word)
  | cmd (k tag epoch : Nat) (bytes : List Byte)
  | go (k tag epoch : Nat)
  | credit (k completion capture event data : Nat)
  | hostRdReq (r : HostRead)
  | hostRdData (k : Nat) (inst : Option (Nat × Nat)) (data : List Byte)
  /-- HOST_WR or RING_POST. -/
  | msg (k : Nat) (m : Msg)
  | fieldReset
  /-- A BAR0 write or read of the host, and the answer to a read, that had to wait for a replay. -/
  | barWr (off : Nat) (v : Word)
  | barRd (off : Nat)
  | barRsp (v : Word)
  /-- A SYS_COMMIT write with GO on its way to the engine. -/
  | commitGo (scope target : Nat)
  deriving DecidableEq, Repr

/-- A message that its transmitter keeps until it is acknowledged: the number of its header frame, its frames, what it carries, and whether the
receiver has accepted it (R420, R421). -/
structure Sent where
  num : Nat
  frames : Nat
  body : Packet
  got : Bool
  deriving DecidableEq, Repr

/-- The Stile (R413–R430). -/
structure Stile where
  /-- The field side is out of reset, has completed its boot step 1 (NVM read). -/
  fieldRuns : Bool
  nvmRead : Bool
  /-- The field side has lost the Stile while it runs (R428). -/
  lost : Bool
  /-- Messages held for the host, oldest first, each with its session. -/
  out : List (Nat × Msg)
  /-- Consecutive failures of the frame awaited, at the H-die and at the F-die (R422). -/
  failsH : Nat
  failsF : Nat
  /-- Number of the next frame expected, at the H-die and at the F-die (R420). -/
  rxH : Nat
  rxF : Nat
  /-- A NAK is to be sent by the H-die, by the F-die. -/
  nakH : Bool
  nakF : Bool
  /-- Frames to be replayed from this number, by the H-die, by the F-die. -/
  replayH : Option Nat
  replayF : Option Nat
  /-- Messages that the H-die, the F-die keeps for replay, oldest first, and the number of the next frame each sends (R420). -/
  sentH : List Sent
  sentF : List Sent
  txH : Nat
  txF : Nat
  /-- Event cycles until the replay awaited by the H-die, by the F-die has arrived at the latest (R417, R424). -/
  waitH : Nat
  waitF : Nat
  /-- Phase of the frame slots, 25 in 64 event cycles, and the slots that frames sent by the H-die, by the F-die still take (R415, R416). -/
  slot : Nat
  owedH : Nat
  owedF : Nat
  /-- Values that REG_RSP messages carried back to the host, oldest first. -/
  replies : List Word
  /-- Host reads asked for, oldest first. -/
  hostReads : List HostRead
  /-- The spare lane of a direction is unusable (R423, R425): H→F, F→H. -/
  deadH2F : Bool
  deadF2H : Bool
  /-- Room last reported by CREDIT for each session's completion, capture and event rings and data area. -/
  credit : List (Nat × Nat × Nat × Nat × Nat)
  deriving DecidableEq, Repr

/-- A Sedge cell's clocked elements (R328, R329). -/
structure Cell where
  filt : Bool
  /-- Consecutive edges at which the filter has sampled the other value. -/
  count : Nat
  ff : Bool
  /-- The edge detector's one-cycle pulse. -/
  pulse : Bool
  /-- What the filter takes as of the last event-clock edge, and what the flip-flop has captured at it, until each moves. -/
  nfilt : Option Bool
  nff : Option Bool
  deriving DecidableEq, Repr

/-- A held-off event of a session's event ring (R338). -/
structure Holdoff where
  sess : Nat
  ev : Nat
  /-- Edges held back, and TBC of the first. -/
  held : Nat
  first : Nat
  /-- Tag and epoch of the instance that ran at the first of them, and the quality code there (R407). -/
  inst : Option (Nat × Nat)
  qual : Nat
  /-- Event cycles until the holdoff ends; 0 since the last event-clock edge at which it ended. -/
  left : Nat
  deriving DecidableEq, Repr

/-- What the last event-clock edge found of an event and its consumers have not met yet: the activations of the event cycle that ended, whether the
event rose in it, whether a rising edge was sampled, what its OR node coalesced, and, of a core's pulse, the sessions for which it rose (R322, R332,
R333, R337). -/
structure EvSample where
  ev : Nat
  acts : Nat
  rose : Bool
  sampled : Bool
  coal : Nat
  forSess : List Nat
  deriving DecidableEq, Repr

/-- The Hedgerow (R314–R339). -/
structure Hedge where
  /-- TRIG0–TRIG15 as received. -/
  trig : Vector Bool 16
  cells : Vector Cell 64
  cgs : Vector Bool 16
  /-- Recent changes of channel groups, latest first: tick, group and the state before (R331). -/
  cgLog : List (Nat × Nat × Bool)
  /-- Present levels of SW0–SW7. -/
  sw : Nat
  /-- One-cycle pulses high in the present event cycle: events, and (248-node) device producers 8–17. -/
  pulses : List Nat
  /-- Producer pulses of slices (n, bit) and outputs (o, bit) high in the present event cycle. -/
  slPulses : List (Nat × Nat)
  aoPulses : List (Nat × Nat)
  tbPulses : List Nat
  /-- Core of each pulse on EV176–EV207 and the session it was emitted for (R322). -/
  emitFor : List (Nat × Nat)
  /-- The same for the pulses of the event cycle before, which clocked consumers sampled at the last edge (R326). -/
  emitPrev : List (Nat × Nat)
  holdoffs : List Holdoff
  /-- FAIL producer: event-clock edges for which it stays high, per slice (R315). -/
  failLeft : Vector Nat 12
  /-- Crate event levels applied to DV0–DV7 (R448). -/
  crate : Nat
  /-- Slice outputs held high by STRETCH: event and event-clock edges left (R316). -/
  stretch : List (Nat × Nat)
  /-- Groups whose ON edge, and groups whose OFF edge, the last event-clock edge sampled, until they switch (R330). -/
  cgOn : List Nat
  cgOff : List Nat
  /-- What the last event-clock edge sampled, as far as no consumer has met it. -/
  samples : List EvSample
  /-- Events that rose in the present event cycle by a crossing, and producers that did, as masks (R332). -/
  rose : Nat
  prodRose : Nat
  /-- Producers high at the last event-clock edge, and failing periods of the present event cycle per slice (R315, R332). -/
  prodPrev : Nat
  failActs : Vector Nat 12
  /-- JL0–JL15 at the last event-clock edge, those then sampled high after low, and that edge (R175). -/
  jlPrev : Nat
  jlRise : Nat
  jlAt : Nat
  deriving DecidableEq, Repr

/-- An action that waits for event-clock edges (R147, R246, R319, R327). -/
inductive DueAct where
  | swSet (mask : Nat)
  | swClr (mask : Nat)
  | pulse (ev : Nat)
  | corePulse (ev sess : Nat)
  | slPulse (n bit : Nat)
  | aoPulse (o bit : Nat)
  | tbPulse (bit : Nat)
  | aoMarkers (o m : Nat)
  | armTrigger (u : Nat)
  | fireTrigger (u : Nat)
  | calTrig
  /-- The copy of a scope-6 commit lands (R327). -/
  | hedgeCopy
  deriving DecidableEq, Repr

/-- A deferred action and the event-clock edges it still waits for. -/
structure Due where
  left : Nat
  act : DueAct
  deriving DecidableEq, Repr

/-- What a slice or an output has queued, plays and holds ready (R27–R35, R165–R186, R226–R239). -/
structure Feed where
  queue : List WallEntry
  play : Option Play
  /-- Tick at which an idle unit starts (R171). -/
  startAt : Option Nat
  /-- Vectors or samples in the refill buffer, next one first (R228). -/
  buf : List Nat
  /-- Vectors pinned in a slice's loop cache, by segment-table entry: the first vectors of its body (R229–R232). -/
  pins : List (Nat × List Nat)
  /-- Index of the last complete vector or sample of the sequence, none before one (R234, R235). -/
  vecIdx : Option Nat
  /-- Marker bits of the period or sample in play. -/
  markers : Nat
  /-- Marker bits, joined, of the periods that started in this event cycle and in the one before, and the bits shown (R315). -/
  markersAcc : Nat
  markersPrev : Nat
  markersShown : Nat
  /-- Headroom stood below LOW_TH at the last boundary (R35). -/
  low : Bool
  /-- The session whose sequence plays here, or played last. -/
  sess : Nat
  /-- A boundary whose next slot lacks its descriptor or its vector, which waits for the end of its event cycle (R33, R172, R228). -/
  waitAt : Option Nat
  /-- Slots that have been called for while a boundary waited. -/
  owedRows : Nat
  /-- Jump lines asserted at edges in slots that have not started: the edge and the lines (R176). -/
  reqs : List (Nat × Nat)
  deriving DecidableEq, Repr

/-- One fail entry (R257): vector index, period start, segment entry, pass, fail bits, session, and what its record's flags need. -/
structure FailEntry where
  vec : Nat
  start : Nat
  seg : Nat
  pass : Nat
  bits : Nat
  sess : Nat
  stale : Bool
  loss : Bool
  quality : Nat
  /-- The instance that ran when the period failed (R402). -/
  inst : Option (Nat × Nat)
  deriving DecidableEq, Repr

/-- A capture word on its way to DDR4 (R260, R261): the session, the word's view address, and the word. -/
structure CapWord where
  sess : Nat
  addr : Nat
  word : Nat
  /-- The instance that ran when it was drawn (R402). -/
  inst : Option (Nat × Nat)
  deriving DecidableEq, Repr

/-- A driver-control strobe: its assertions up to the present period, latest first, and the intervals of its source since, latest first, open while it is
on (R110, R111). -/
structure Strobe where
  past : List (Nat × Option Nat)
  cur : List (Nat × Option Nat)
  deriving DecidableEq, Repr

/-- A slice (R27–R35, R77–R95, R165–R186, R226–R239). -/
structure Slice where
  feed : Feed
  /-- Timing set of the period in play or last played (R93). -/
  curTs : Nat
  /-- A timing-set switch taken, for the next segment that names none (R93). -/
  nextTs : Option Nat
  lanes : Vector Lane 8
  strobes : Vector Strobe 4
  /-- Fail buffer, oldest first (R257). -/
  fails : List FailEntry
  /-- An entry was lost since the last one stored (R257). -/
  failLost : Bool
  /-- Capture FIFO (R260). -/
  caps : List CapWord
  swap : Option SpareSwap
  /-- The first commit that includes the slice has passed (R112, R113). -/
  committed : Bool
  /-- Fields of the timing set in play changed at a boundary: the next segment's first period obeys R95 (R94). -/
  respaceNext : Bool
  /-- The slice has been calibrating in the period in play (R260). -/
  staleIn : Bool
  /-- Start tick and marker bits of the last periods, latest first, and whether the slice was calibrating as each started (R260). -/
  marks : List (Nat × Nat × Bool)
  deriving DecidableEq, Repr

/-- A sample slot of an output: its tick, the code of its sample or of the one it extends, the start of its segment, and whether it plays no sample
(R297–R299). -/
structure AoSlot where
  at_ : Nat
  code : Int
  seg : Nat
  held : Bool
  deriving DecidableEq, Repr

/-- An analogue output (R293–R313). -/
structure Ao where
  feed : Feed
  /-- The last sample slots since the last range change, latest first: those on their way to the ball and those the kernels reach back to (R293,
R298). -/
  slots : List AoSlot
  /-- Limited value, an internal code (R295, R305). -/
  value : Int
  /-- Phase accumulator, 48 bits (R300). -/
  acc : Nat
  /-- Phase offset reached so far (R301). -/
  phoff : Nat
  /-- Codes of the oscillator or table at the last event-clock edges, latest first, each with its edge (R293, R300, R302). -/
  oscs : List (Nat × Nat)
  /-- Edge of the limiter's last move, and of the accumulator's last addition (R300, R305). -/
  slewAt : Option Nat
  accAt : Option Nat
  /-- Tick of the copy step that began the range change in progress (R312). -/
  rangeAt : Int
  /-- Table entries written; an entry never written is undefined (R302). -/
  table : SMap Word
  /-- NVM entry: span and signed park value in µV or nA, none when the NVM failed its check (R310). -/
  park : Option (Nat × Int)
  /-- Driver off, clamp on (R309 ranks 1 and 2, R310). -/
  clamped : Bool
  /-- A commit has included the output (rank 3 of R309). -/
  committed : Bool
  safe : SafeKind
  /-- Value held by an abort with ABORT_ACT 0 (R311). -/
  heldVal : Option Int
  /-- The move of R311 or R312 at the fixed rate runs while the limiter is off. -/
  moving : Bool
  /-- Held by a calibration run (rank 5 of R309). -/
  calHeld : Bool
  deriving DecidableEq, Repr

/-- An armed injection (R466). -/
structure Inject where
  det : Nat
  unit_ : Nat
  variant : Bool
  /-- Events, or µs, left. -/
  left : Nat
  deriving DecidableEq, Repr

/-- Fault detection beside the FLT registers (R454–R467). -/
structure Faults where
  inj : Option Inject
  /-- Tick at which the injection was armed (R466). -/
  injAt : Int
  /-- Consecutive failed self-checks of each slice's nine generators (R462). -/
  scFails : Vector (Vector Nat 9) 12
  /-- A reading below WARN − 2.0 °C, below TRIP − 5.0 °C, stands since the last detection (R460). -/
  warnArmed : Bool
  tripArmed : Bool
  deriving DecidableEq, Repr

/-- A commit that passed its checks and waits for its unit's boundary (R45). -/
structure PendCommit where
  /-- Scope code 2 to 5 or 7 and the unit. -/
  scope : Nat
  unit_ : Nat
  /-- The values it checked, by key. -/
  vals : List (Nat × Word)
  /-- The ring command that carries it: session, tag, epoch; none for SYS_COMMIT. -/
  ring : Option (Nat × Nat × Nat)
  deriving DecidableEq, Repr

/-- A commit that holds the engine: of scope 0 or 1 in its pinning (R230–R232), or of scope 6 until its copy lands (R327). -/
structure PinJob where
  scope : Nat
  target : Nat
  byPf : Bool
  /-- The values it checked, by key, and the segment tables it makes active, by session. -/
  vals : List (Nat × Word)
  segs : List (Nat × SMap Nat)
  ring : Option (Nat × Nat × Nat)
  deriving DecidableEq, Repr

/-- A commit that has reached the F-die and waits for the engine (R38). -/
structure WaitCommit where
  scope : Nat
  target : Nat
  byPf : Bool
  ring : Option (Nat × Nat × Nat)
  deriving DecidableEq, Repr

/-- The commit engine (R38–R46). -/
structure CommitEng where
  /-- Pinning of the present commit; the engine takes no other meanwhile. -/
  pin : Option PinJob
  /-- Commits that wait for the engine, in the order in which they reached the F-die (R38). -/
  wait : List WaitCommit
  /-- Commits that wait for their unit's boundary. -/
  pends : List PendCommit
  deriving DecidableEq, Repr


/-- A pending Furrow operation (R146): FW_OP 1 to 4, its register and argument, and the issue number of the latest run it waits for. -/
structure FwOp where
  op : Nat
  reg : Nat
  arg : Nat
  after : Nat
  deriving DecidableEq, Repr

/-- A run of a generator (R208): its segment entry, first tick, period and session. -/
structure FwRun where
  seg : Nat
  start : Nat
  period : Nat
  sess : Nat
  deriving DecidableEq, Repr

/-- A Furrow generator (R187–R212). -/
structure Furrow where
  /-- The 16 runtime registers (R189). -/
  regs : Vector Nat 16
  /-- Carry flags (R197). -/
  cx : Bool
  cy : Bool
  cz : Bool
  /-- Program start address, by FW_CFG.PC0 or SETPC (R192). -/
  pc : Nat
  /-- The cached words and the control-store address of the first. -/
  cache : List Nat
  base : Nat
  loading : Bool
  /-- Pending operations, oldest first, at most 16 (R146). -/
  ops : List FwOp
  run : Option FwRun
  /-- The pass in hand and its vectors formed so far. -/
  pass : Nat
  formed : Nat
  /-- Output word of the last vector formed, none where IDLE_VEC pads the pass (R209). -/
  word : Option Nat
  /-- Cache index of the instruction in hand, and its vectors left; none before its SET is applied. -/
  ip : Nat
  left : Option Nat
  /-- The program has reached HALT in this pass. -/
  halted : Bool
  /-- Consecutive instructions without a vector (R201). -/
  spin : Nat
  /-- A generator fault stands since the last load or run (FW_STATUS.STATE 4). -/
  faulted : Bool
  /-- Scramble-table entries written; an entry never written is undefined (R205). -/
  table : SMap Nat
  deriving DecidableEq, Repr

/-- A unit that plays segments: a slice or an analogue output. -/
inductive PlayUnit where
  | slice (n : Fin 12)
  | out (o : Fin 16)
  deriving DecidableEq, Repr


/-- A capture of one trigger (R259–R262, R510). -/
structure Capture where
  /-- PRE and CAP_SLICES under which it was made. -/
  pre : Nat
  slices : Nat
  shot : Nat
  /-- TBC at the trigger instant, whole. -/
  trigTbc : Nat
  firstTbc : Nat
  vecIdx : Nat
  /-- Index in the pre area of the oldest sample. -/
  wrap : Nat
  /-- Samples written to the post area. -/
  post : Nat
  ignored : Nat
  lost : Nat
  stale : Bool
  quality : Nat
  /-- View address of its block, none when the block was dropped or no region exists. -/
  block : Option Nat
  /-- The post-trigger part has ended, or the capture was cut. -/
  over_ : Bool
  truncated : Bool
  deriving DecidableEq, Repr

/-- What an event-clock edge gives a unit that is armed there: whether the qualifier fires as it begins, its count, and its window (R243–R245). -/
structure AtArm where
  fires : Bool
  count : Nat
  window : Option (Nat × Nat)
  deriving DecidableEq, Repr

/-- A trigger unit beside its registers (R241–R252). -/
structure Trig where
  /-- Tick at which it entered FILLING. -/
  fillAt : Nat
  /-- Re-arms left, and the number of the next trigger since arming. -/
  rearm : Nat
  shot : Nat
  /-- Ignored firings since the previous trigger or the arming. -/
  ignored : Nat
  /-- Clock-slice periods counted and sample slots started since it entered FILLING. -/
  periods : Nat
  slots : Nat
  /-- The clock-slice period in play starts a sample slot, and that slot's number since FILLING. -/
  inSlot : Option Nat
  /-- Slot number of the trigger slot, while one is awaited or has come. -/
  trigSlot : Option Nat
  /-- Running facts of the block in hand: its address, words lost, staleness and worst quality. -/
  block : Option Nat
  lost : Nat
  /-- Slots of FILLING and after whose words were stale (R262). -/
  stales : List Nat
  quality : Nat
  /-- Tick at which the last slot of the part in hand ended (R248, R249). -/
  doneAt : Option Nat
  /-- The slot in play at a trigger without a post part: the address of its words in the pre area, and the slices captured (R510). -/
  tail : Option (Nat × Nat)
  /-- The capture in its post part, or waiting for its dead time. -/
  cap : Option Capture
  /-- Sources as last sampled, the edge count, the window of a B edge, and whether a level or pattern held (R241, R244). -/
  prevA : Bool
  prevB : Bool
  prevArm : Bool
  count : Nat
  window : Option (Nat × Nat)
  held : Bool
  /-- The run of a level or pattern began at the edge last sampled (R244). -/
  began : Bool
  /-- It fires at the event-clock edge last sampled; a counted edge of ARM_EV was sampled there. -/
  fires : Bool
  armSeen : Bool
  /-- The same edge as an arming would find it. -/
  atArm : AtArm
  /-- Start and vector index of the last sample slot started. -/
  slotAt : Nat
  slotVec : Nat
  deriving DecidableEq, Repr

/-- A stamp (R270–R272). -/
structure Stamp where
  t : Nat
  rise : Bool
  quality : Nat
  stale : Bool
  /-- Stamps of the input were lost just before it (R277). -/
  loss : Bool
  /-- It is to be written to the stamp region (R275). -/
  store : Bool
  /-- The instance that ran in the input's session when it was taken (R402). -/
  inst : Option (Nat × Nat)
  deriving DecidableEq, Repr

/-- A mask-test window (R263). -/
structure MaskWin where
  b : Stamp
  a : Option Stamp
  extra : List Stamp
  lost : Bool
  deriving DecidableEq, Repr

/-- A mask test: its windows, oldest first, and the A edges that belong to none (R263). -/
structure Mask where
  wins : List MaskWin
  loose : List Stamp
  /-- Ticks of lost stamps of its inputs that a later window may still contain. -/
  lostAt : List Nat
  /-- Extra edges of judged windows, which a later window may still contain. -/
  spare : List Stamp
  deriving DecidableEq, Repr

/-- A time-measurement input (R269–R277). -/
structure Input where
  fifo : List Stamp
  /-- The two last stamped edges, latest first, in ticks of the present TBC (R271). -/
  last : Option Int
  last2 : Option Int
  /-- Stamps were lost since the last one that entered the FIFO (R277). -/
  lost : Bool
  /-- A loss that left the FIFO with a stamp that was not written (R277). -/
  owed : Bool
  deriving DecidableEq, Repr

/-- What waits at a measurement unit until its tick is over: a stamp of input B or A, or a loss of the input it names (R277, R284). -/
structure MuIn where
  isB : Bool
  lost : Option Nat
  x : Stamp
  deriving DecidableEq, Repr

/-- A measurement unit (R283–R291). -/
structure Meas where
  /-- Stamps not yet judged, in ascending order of tick. -/
  queue : List MuIn
  /-- The gate event as sampled at the last event-clock edge (R283). -/
  gateIn : Bool
  /-- Opening tick of the gate interval, while the gate is open. -/
  gate : Option Nat
  /-- Pending start, or the first edge of A or of the pair, and the pending edge of B. -/
  a : Option Stamp
  b : Option Stamp
  /-- Counted edges of the interval and the last of them (R288). -/
  edges : Nat
  lastA : Option Stamp
  /-- Measurements summed, their sum and the first stamp of the result. -/
  n : Nat
  sum : Int
  tStart : Nat
  coincident : Bool
  quality : Nat
  stale : Bool
  /-- Inputs that have lost stamps since the unit's last result that used them (R277). -/
  lossy : List Nat
  /-- Results formed and not yet written: their three entries, and the instance that ran when each was formed (R402). -/
  out : List ((Nat × Nat × Nat) × Option (Nat × Nat))
  deriving DecidableEq, Repr

/-- Allocation within a Gleaner region, which runs ahead of its write pointer (R254–R256). -/
structure RgnAlloc where
  ptr : Nat
  lap : Bool
  deriving DecidableEq, Repr

/-- A capture block in its region: its trigger unit and view address, the allocation behind it, and its header once formed (R259, R262). -/
structure CapBlock where
  unit_ : Nat
  addr : Nat
  endPtr : Nat
  endLap : Bool
  header : Option (List Byte)
  deriving DecidableEq, Repr

/-- A capture block whose header is written and which no forwarding has taken (R408): its view address, its bytes, the units it takes in the
region with any skipped before it, the pointer behind it, its trigger unit, whether it is stale, and the instance that ran when its header was written
(R409). -/
structure DoneBlock where
  addr : Nat
  len : Nat
  units : Nat
  endPtr : Nat
  endLap : Bool
  unit_ : Nat
  stale : Bool
  inst : Option (Nat × Nat)
  deriving DecidableEq, Repr

/-- Units of a region written one after the other while one instance ran: its tag and epoch (R409). -/
structure WriteRun where
  units : Nat
  inst : Option (Nat × Nat)
  deriving DecidableEq, Repr

/-- The Gleaner's work for one session (R254–R262, R278–R282, R511). -/
structure Gleaner where
  cap : RgnAlloc
  /-- First record of the open 64-byte unit of the fail region, which takes the unit at its write pointer. -/
  failUnit : Option (List Byte)
  /-- Violation records not yet written. -/
  viols : List (List Byte × Option (Nat × Nat))
  /-- Violations of the session in its current or last sequence (R264). -/
  violCount : Nat
  /-- Capture blocks in the order of the region. -/
  blocks : List CapBlock
  /-- Entries of the stamp line in hand. -/
  line : List Nat
  /-- A marker with OPEN = 1 precedes the next entry (R280). -/
  open_ : Bool
  /-- Units of each region up to its write pointer that no forwarding has taken (R408). -/
  todo : Vector Nat 3
  /-- The instances that ran when the last units of each region were written, oldest first. -/
  runs : Vector (List WriteRun) 3
  /-- Finished capture blocks, oldest first. -/
  done : List DoneBlock
  /-- The next capture entry of each region sets LOST (R408, R457). -/
  fwdLost : Vector Bool 3
  /-- A block too large to be forwarded stays in a FILL capture region, so the part moves the read pointer no further (R408). -/
  bigHeld : Bool
  deriving DecidableEq, Repr

/-- One calibration unit beside its registers (R340–R352). -/
structure CalUnit where
  /-- Cause for which it is due or runs. -/
  cause : Nat
  /-- A cause held until the run ends (R344). -/
  heldCause : Option Nat
  /-- Temperature and tick of the start of its last accepted run, or of the NVM read. -/
  temp : Int
  start : Int
  accepted : Bool
  /-- Temperature and tick of the start of its run in hand. -/
  runTemp : Int
  runStart : Int
  /-- Corrections in force, in steps of each trim by its place in the unit's order; an absent trim stands at mid-range (R341, R481). -/
  trims : SMap Int
  /-- Accepted corrections that wait for the unit's quiet point (R351). -/
  cand : SMap Int
  deriving DecidableEq, Repr

/-- Calibration (R340–R353). -/
structure Calib where
  units : Vector CalUnit 36
  /-- Due units, first to run first, each with the event cycle in which it became due. -/
  due : List (Nat × Nat)
  /-- The unit whose attempts run, and how many of them disagreed. -/
  run : Option (Fin 36)
  fails : Nat
  /-- Last temperature read, in 0.1 °C. -/
  lastTemp : Int
  deriving DecidableEq, Repr

/-- The stamps of an ALIGN exchange that are taken (R445). -/
structure Stamps where
  t1 : Option Int
  t2 : Option Int
  t3 : Option Int
  t4 : Option Int
  deriving DecidableEq, Repr

/-- A message of a Tabolyar port's stream (R438), or of a fabric port (R450). -/
inductive NetMsg where
  | discover (hop : Nat)
  | report (role serial : Nat)
  | assign (device crate cluster : Nat)
  /-- With the stamps taken so far, whether alignment has been asked for, and whether the sender is ALIGNED (R445, R446). -/
  | align (st : Stamps) (asked up : Bool)
  /-- With the tick of the sender's REFIN edge N, from which its flit carries the offset (R444). -/
  | epoch (at_ : Int)
  | raccWr (crate device offset value : Nat)
  | raccRd (crate device offset : Nat)
  | raccRsp (crate device value status : Nat)
  | evcfg (crate cluster scope : Nat)
  | pad
  | fabric (node : Nat) (body : FabBody)
  deriving DecidableEq, Repr

/-- A crate event record (R434, R447): origin event cycle, line, level, and the port it came from, 4 for the device itself. -/
structure CrateRec where
  cycle : Nat
  line : Nat
  level : Bool
  src : Nat
  deriving DecidableEq, Repr

/-- A REPORT that has reached the manager (R438, R439): the ports that lead from the manager to the device, its role and its serial. -/
structure Report where
  path : List Nat
  role : Nat
  serial : Nat
  deriving DecidableEq, Repr

/-- A flit's content: its number, its event records and its 92 bytes of the message stream (R434). -/
structure Flit where
  seq : Nat
  recs : List CrateRec
  msg : List Byte
  deriving DecidableEq, Repr

/-- A flit as it leaves: its content, and the ACK, NAK and DEGRADED that it carries; an injection inverts its CRC (R434, R455). -/
structure WireFlit where
  flit : Flit
  ack : Nat
  nak : Bool
  degraded : Bool
  badCrc : Bool
  deriving DecidableEq, Repr

/-- A remote access that a port has carried on and whose answer has not come: its target, whether this device's own GO started it, and whether that
access still waits (R442). -/
structure RaccAsk where
  crate : Nat
  device : Nat
  own : Bool
  live : Bool
  deriving DecidableEq, Repr

/-- A Tabolyar port beside its registers (R433–R449). -/
structure Port where
  /-- Event records waiting for a flit, oldest first (R449). -/
  queue : List CrateRec
  /-- Lines whose record was dropped, so that one of the present level follows (R449). -/
  owed : Nat
  /-- Messages waiting for the stream, oldest first, and the bytes of the stream that no flit has taken yet (R438). -/
  out : List NetMsg
  carry : List Byte
  /-- Consecutive failures of the flit awaited, and the number of the next flit expected, which ACK carries (R434, R435). -/
  fails : Nat
  rx : Nat
  /-- A flit has failed and its replay is awaited, with the flit slots that have passed since: NAK is returned, and nothing is accepted (R435). -/
  await : Option Nat
  /-- Number of the next flit that the port sends, and the one that a NAK makes it send again next (R434, R435). -/
  tx : Nat
  replay : Option Nat
  /-- The replay buffer: flits sent and not acknowledged, oldest first; and the flit that the peer named in its last NAK, with the NAKs in a row that
  named it (R435, R436). -/
  kept : List Flit
  naks : Option (Nat × Nat)
  /-- The flit that left last. -/
  wire : Option WireFlit
  /-- Stamps of the exchange in hand (R445). -/
  stamps : Stamps
  /-- Remote accesses carried on and not answered, oldest first (R442). -/
  asks : List RaccAsk
  deriving DecidableEq, Repr

/-- The Tabolyar network (R431–R453). -/
structure Net where
  ports : Vector Port 4
  /-- Phase of the flit slots, in units of 1/25 of an MCLK edge: a slot is 1,024 of them, and 2,048 on a degraded port (R433). -/
  flitPhase : Nat
  /-- Fabric messages sent, newest first, each with its port (R450). -/
  fabricOut : List (Nat × NetMsg)
  /-- Ports whose peer has reported and ports through which an ASSIGN has gone since discovery last came through (R440). -/
  reported : Nat
  assigned : Nat
  /-- A discovery is in progress, and the reports received. -/
  discovering : Bool
  reports : List Report
  /-- The device serial (R479) and the roles the balls strap (R431). -/
  serial : Nat
  strap : Nat
  /-- The upstream device reports ALIGNED, and an alignment has been asked for (R446). -/
  upAligned : Bool
  aligning : Bool
  /-- Ticks at which the slew or the offset in hand began, and at which the remote access in progress was sent (R442, R446). -/
  slewFrom : Int
  raccAt : Int
  /-- Records held at the merge point, in origin order (R448). -/
  held : List CrateRec
  /-- Level of each line by contributor: ports 0–3, then the device itself; bit k for line k. -/
  contrib : Vector Nat 5
  /-- Merged level of each line as last sent. -/
  merged : Nat
  /-- Merged changes that wait, each with the event cycle at which it applies, origin + D or, when it comes late, the next (R448, R449). -/
  applies : List (Nat × CrateRec)
  /-- Lines whose crate event has changed in this event cycle (R449). -/
  applied : Nat
  /-- DV0–DV7 as last sampled for records (R447). -/
  dv : Nat
  /-- Last level that fabric messages reported for each line (R450). -/
  fabric : Nat
  /-- Scopes that the last EVCFG carried, or the manager's own (R447, R448). -/
  scope : Nat
  deriving DecidableEq, Repr

/-- A unit's record in a calibration copy: its corrections (R483). -/
structure CalRecord where
  unit_ : Nat
  trims : SMap Int
  deriving DecidableEq, Repr

/-- A calibration copy: write count and records (R481, R483). -/
structure CalCopy where
  count : Nat
  recs : List CalRecord
  deriving DecidableEq, Repr

/-- Power, start-up and NVM beside their registers (R468–R485). -/
structure Boot where
  /-- Host and field supplies are valid. -/
  hostOn : Bool
  fieldOn : Bool
  /-- The PCI Express link has trained (R411). -/
  linkUp : Bool
  /-- Staging buffers of the field NVM, 4,096 bytes, and of the host NVM, 256 bytes (R482, R484). -/
  stageF : List Host.Cell
  stageH : List Host.Cell
  /-- Host copy in use: true copy B; none when neither passes (R484). -/
  copyH : Option Bool
  /-- Field write in progress: a configuration program to copy B (true) or A, or a calibration store, with the records it stores. -/
  writeCfg : Option Bool
  writeCal : Option (Bool × List CalRecord)
  /-- A host program in progress, to copy B (true) or A. -/
  writeH : Option Bool
  /-- Calibration copies A and B; none fails its check (R481, R483). -/
  calCopies : Vector (Option CalCopy) 2
  /-- Subsystem identity and link limits from the host NVM (R484). -/
  ssvid : Nat
  ssid : Nat
  link : Nat
  /-- BOOT of the configuration in use (R480). -/
  boot : Nat
  /-- Voltages of VIOA and VIOB in mV, as the supply monitor last found them (R104). -/
  bankMv : Vector Nat 2
  deriving DecidableEq, Repr

/-- The reasons a step stops with a fault. -/
inductive Fault where
  /-- A patrol read of field DDR4 names an address that is not installed (R358, R457); raised by DDR_PATROL_READ only. Safe: the
  address does not exist. -/
  | noSuchAddress (addr : Nat)
  deriving DecidableEq, Repr

/-- The reasons a step is refused. -/
inductive Refusal where
  /-- The command has no meaning yet; raised by the dispatch only. Safe: the machine stops. -/
  | notModelled (mnemonic : String)
  deriving DecidableEq, Repr

/-- The whole machine. -/
structure State where
  regs : Regs
  tb : TimeBase
  slices : Vector Slice 12
  cores : Vector Core 4
  cs : CtlStore
  sess : Vector Sess 16
  host : Vector HostSess 16
  aos : Vector Ao 16
  fws : Vector Furrow 4
  trigs : Vector Trig 8
  masks : Vector Mask 16
  inputs : Vector Input 112
  meas : Vector Meas 16
  gleaners : Vector Gleaner 16
  /-- The stamp FIFO drained last (R276). -/
  drained : Nat
  cal : Calib
  flt : Faults
  commit : CommitEng
  stile : Stile
  hr : Hedge
  net : Net
  boot : Boot
  due : List Due
  ddr : List Host.Cell
  hostMem : List Host.Cell
  nvmF : List Host.Cell
  nvmH : List Host.Cell
  /-- MSI-X messages sent: function and vector, newest first (R410). -/
  irqs : List Irq
  /-- Answer of the last register read. -/
  lastRead : Word
  /-- Free values taken so far (the model's own field, log 6). -/
  freeCtr : Nat
  /-- Commands waiting, first in, first out. -/
  pending : List Instr
  deriving DecidableEq, Repr

/-! ### The machine right after reset: both sides' supplies valid, neither side booted (R471, R472; log 1) -/

def resetFeed : Feed := ⟨[], none, none, [], [], none, 0, 0, 0, 0, false, 0, none, 0, []⟩

def resetLane : Lane :=
  ⟨false, false, .none, [], none, none, false, none, .none, false, false, 0, 0, false, false, 0, 0, [], [], none, 0, false, 2, false, .none⟩

def resetSlice : Slice where
  feed := resetFeed
  curTs := 0
  nextTs := none
  lanes := Vector.replicate 8 resetLane
  strobes := Vector.replicate 4 ⟨[], []⟩
  fails := []
  failLost := false
  caps := []
  swap := none
  committed := false
  respaceNext := false
  staleIn := false
  marks := []

def resetCtx : Ctx := ⟨0, [], 0, 0, 0, false, false, false, false, 0⟩

def resetCore : Core := ⟨.idle, 0, resetCtx, none, 0, 0, false, false, false, false, false, false⟩

def resetHist : Hist := ⟨[], 0, 0, 0, 0, 0, 0, 0, 0, 0⟩

def resetTally : Tally :=
  ⟨.ok, 0, false, 0, 0, 0, 0, 0, 0, none, none, 0, 0, 0, 0, false, Vector.replicate 16 0, 0, 0⟩

def resetSess : Sess where
  seq := none
  core := 0
  onCore := false
  waitSince := none
  saved := none
  entries := []
  staged := none
  swapWait := false
  segShadow := []
  segActive := []
  burst := none
  tally := resetTally
  hists := Vector.replicate 4 resetHist
  tearing := false
  scrub := false
  tearWait := false
  torn := []
  xlates := []
  pages := []
  walks := []
  held := []
  tag := 0
  epoch := 0
  hasTag := false
  cond := 0
  worstQ := 0
  issues := 0

def resetHost : HostSess where
  rings := Vector.replicate 4 ⟨0, 0, 0, true, false, 0⟩
  tail := 0
  stopped := false
  stalled := false
  queue := []
  live := []
  epochs := []
  opcodes := []
  held := false
  goLatch := none
  stalePosted := []
  waiting := []
  fetched := 0
  msixOn := true
  msixMask := false
  evDropped := 0
  dataWr := 0
  dataLap := false
  dataRd := 0
  dataRdLap := false

def resetAo : Ao where
  feed := resetFeed
  slots := []
  value := 0
  acc := 0
  phoff := 0
  oscs := []
  slewAt := none
  accAt := none
  rangeAt := 0
  table := []
  park := none
  clamped := true
  committed := false
  safe := .none
  heldVal := none
  moving := false
  calHeld := false

def resetFw : Furrow where
  regs := Vector.replicate 16 0
  cx := false
  cy := false
  cz := false
  pc := 0
  cache := []
  base := 0
  loading := false
  ops := []
  run := none
  pass := 0
  formed := 0
  word := none
  ip := 0
  left := none
  halted := false
  spin := 0
  faulted := false
  table := []

def resetTrig : Trig where
  fillAt := 0
  rearm := 0
  shot := 0
  ignored := 0
  periods := 0
  slots := 0
  inSlot := none
  trigSlot := none
  block := none
  lost := 0
  stales := []
  quality := 0
  doneAt := none
  tail := none
  cap := none
  prevA := false
  prevB := false
  prevArm := false
  count := 0
  window := none
  held := false
  began := false
  fires := false
  armSeen := false
  atArm := ⟨false, 0, none⟩
  slotAt := 0
  slotVec := 0

def resetMeas : Meas where
  queue := []
  gateIn := false
  gate := none
  a := none
  b := none
  edges := 0
  lastA := none
  n := 0
  sum := 0
  tStart := 0
  coincident := false
  quality := 0
  stale := false
  lossy := []
  out := []

def resetGleaner : Gleaner where
  cap := ⟨0, false⟩
  failUnit := none
  viols := []
  violCount := 0
  blocks := []
  line := []
  open_ := false
  todo := Vector.replicate 3 0
  runs := Vector.replicate 3 []
  done := []
  fwdLost := Vector.replicate 3 false
  bigHeld := false

def resetCal : Calib := ⟨Vector.replicate 36 ⟨0, none, 0, 0, false, 0, 0, [], []⟩, [], none, 0, 0⟩

def resetFaults : Faults := ⟨none, 0, Vector.replicate 12 (Vector.replicate 9 0), false, false⟩

def resetStile : Stile where
  fieldRuns := false
  nvmRead := false
  lost := false
  out := []
  failsH := 0
  failsF := 0
  rxH := 0
  rxF := 0
  nakH := false
  nakF := false
  replayH := none
  replayF := none
  sentH := []
  sentF := []
  txH := 0
  txF := 0
  waitH := 0
  waitF := 0
  slot := 0
  owedH := 0
  owedF := 0
  replies := []
  hostReads := []
  deadH2F := false
  deadF2H := false
  credit := []

def resetHedge : Hedge where
  trig := Vector.replicate 16 false
  cells := Vector.replicate 64 ⟨false, 0, false, false, none, none⟩
  cgs := Vector.replicate 16 true
  cgLog := []
  sw := 0
  pulses := []
  slPulses := []
  aoPulses := []
  tbPulses := []
  emitFor := []
  emitPrev := []
  holdoffs := []
  failLeft := Vector.replicate 12 0
  crate := 0
  stretch := []
  cgOn := []
  cgOff := []
  samples := []
  rose := 0
  prodRose := 0
  prodPrev := 0
  failActs := Vector.replicate 12 0
  jlPrev := 0
  jlRise := 0
  jlAt := 0

def resetNet : Net where
  ports := Vector.replicate 4 ⟨[], 0, [], [], 0, 0, none, 0, none, [], none, none, ⟨none, none, none, none⟩, []⟩
  flitPhase := 0
  fabricOut := []
  reported := 0
  assigned := 0
  discovering := false
  reports := []
  serial := 0
  strap := 3
  upAligned := false
  aligning := false
  slewFrom := 0
  raccAt := 0
  held := []
  contrib := Vector.replicate 5 0
  merged := 0
  applies := []
  applied := 0
  dv := 0
  fabric := 0
  scope := 0

def resetTb : TimeBase where
  tbc := 0
  laps := 0
  refPhase := 0
  refoutPhase := 0
  qualified := false
  lastCount := 0
  heldWord := 0
  trip := none
  holdStart := none
  armEff := false
  pulses := []
  armLast := false
  syncoutLeft := 0
  emitWait := false
  periodLeft := none
  linkLeft := []
  phase := 0
  phaseAt := 0
  streamHi := 0

def resetBoot : Boot where
  hostOn := true
  linkUp := false
  fieldOn := true
  stageF := []
  stageH := []
  copyH := none
  writeCfg := none
  writeCal := none
  writeH := none
  calCopies := Vector.replicate 2 none
  ssvid := 0x1E7A
  ssid := 0x9600
  link := 0x84
  boot := 0
  bankMv := Vector.replicate 2 0

/-- A configuration copy of the field NVM as shipped: MAGIC, VERSION, CRC, every slice in class 2, every channel in state 2 under SE-INT, every
output in span 1 (R480, R481). -/
def shippedCopy (base : Nat) : List Host.Cell :=
  [(base, 0x4B), (base + 1, 0x4E), (base + 2, 0x4E), (base + 3, 0x56), (base + 4, 1),
    (base + 12, 0x72), (base + 13, 0x3F), (base + 14, 0xD5), (base + 15, 0xE5)] ++
  ((List.range 12).map (fun n => (base + 0x20 + n, (4 : Byte))) ++
  ((List.range 96).map (fun n => (base + 0x40 + n, (6 : Byte))) ++
  (List.range 16).map (fun o => (base + 0xA0 + 8 * o, (1 : Byte)))))

/-- The machine right after reset. -/
def State.reset : State where
  regs := ⟨[(0x78000, 3)], [], [], [], [], []⟩
  tb := resetTb
  slices := Vector.replicate 12 resetSlice
  cores := Vector.replicate 4 resetCore
  cs := ⟨[], none⟩
  sess := Vector.replicate 16 resetSess
  host := Vector.replicate 16 resetHost
  aos := Vector.replicate 16 resetAo
  fws := Vector.replicate 4 resetFw
  trigs := Vector.replicate 8 resetTrig
  masks := Vector.replicate 16 ⟨[], [], [], []⟩
  inputs := Vector.replicate 112 ⟨[], none, none, false, false⟩
  meas := Vector.replicate 16 resetMeas
  gleaners := Vector.replicate 16 resetGleaner
  drained := 111
  cal := resetCal
  flt := resetFaults
  commit := ⟨none, [], []⟩
  stile := resetStile
  hr := resetHedge
  net := resetNet
  boot := resetBoot
  due := []
  ddr := []
  hostMem := []
  nvmF := shippedCopy 0x1000 ++ shippedCopy 0x2000
  nvmH := []
  irqs := []
  lastRead := 0
  freeCtr := 0
  pending := []

end Sys2Proof.Machine
end

