-- ==== Sys2Proof/Machine/Ops.lean ====
section
/-! DEFINITION. The named operations over the state that every meaning uses: sparse maps, the setup registers (R10–R17), the memories,
the accessors of units, and the deferred actions of the event clock. -/

namespace Sys2Proof.Machine

/-! ### Sparse maps -/

/-- What a sparse map holds at a key, `d` where it lists none. -/
def smGet {α : Type} (d : α) : SMap α → Nat → α
  | [], _ => d
  | (k, v) :: t, a => if a = k then v else smGet d t a

/-- Insert a pair before the first greater key. -/
def smInsert {α : Type} (a : Nat) (v : α) : SMap α → SMap α
  | [] => [(a, v)]
  | (k, w) :: t => if a < k then (a, v) :: (k, w) :: t else (k, w) :: smInsert a v t

/-- Remove every pair of a key. -/
def smErase {α : Type} (a : Nat) (m : SMap α) : SMap α := m.filter (fun p => p.1 != a)

/-- Write a key whose absence stands for `d`: writing `d` leaves no pair. -/
def smSet {α : Type} [DecidableEq α] (d : α) (m : SMap α) (a : Nat) (v : α) : SMap α :=
  if v = d then smErase a m else smInsert a v (smErase a m)

/-- The canonical form: keys strictly rising, no pair that an absent key would read as. -/
def smWf {α : Type} [DecidableEq α] (d : Nat → α) (m : SMap α) : Bool :=
  decide (m.Pairwise (fun p q => p.1 < q.1)) && m.all (fun p => p.2 != d p.1)

/-! ### Memories -/

/-- A byte of memory; a byte nothing has written reads 0 (log 3). -/
def memByte (m : List Host.Cell) (a : Nat) : Byte := smGet 0 m a

/-- Write one byte. -/
def memPut (m : List Host.Cell) (a : Nat) (b : Byte) : List Host.Cell := smSet 0 m a b

/-- Write bytes at rising addresses. -/
def memPuts (m : List Host.Cell) (a : Nat) : List Byte → List Host.Cell
  | [] => m
  | b :: t => memPuts (memPut m a b) (a + 1) t

/-- `n` bytes from an address up. -/
def memBytes (m : List Host.Cell) (a : Nat) : Nat → List Byte
  | 0 => []
  | n + 1 => memByte m a :: memBytes m (a + 1) n

/-- Write zeros over a range by dropping what it lists (R361). -/
def memZero (m : List Host.Cell) (a n : Nat) : List Host.Cell :=
  m.filter (fun p => decide (p.1 < a) || decide (a + n ≤ p.1))

/-- The canonical form of a memory. -/
abbrev memWf (m : List Host.Cell) : Bool := smWf (fun _ => (0 : Byte)) m

/-- Little-endian value of bytes (R10). -/
def leVal : List Byte → Nat
  | [] => 0
  | b :: t => b.toNat + 256 * leVal t

/-- The `n` little-endian bytes of a value (R10). -/
def leBytes : Nat → Nat → List Byte
  | 0, _ => []
  | n + 1, v => BitVec.ofNat 8 v :: leBytes n (v / 256)

/-- The little-endian field of `n` bytes at an offset of a structure. -/
def fieldAt (bs : List Byte) (off n : Nat) : Nat := leVal ((bs.drop off).take n)

/-- Exactly `n` bytes: what is missing reads 0. -/
def padTo (n : Nat) (l : List Byte) : List Byte := l.take n ++ List.replicate (n - l.length) 0

/-- CRC-32 of IEEE 802.3, one byte (R160, R477, R480). -/
def crcByte (c : Nat) (b : Nat) : Nat :=
  (List.range 8).foldl (fun c _ => if c % 2 = 1 then (c / 2) ^^^ 0xEDB88320 else c / 2) (c ^^^ b)

/-- CRC-32 of IEEE 802.3. -/
def crc32 (bs : List Byte) : Nat :=
  (bs.foldl (fun c b => crcByte c b.toNat) 0xFFFFFFFF) ^^^ 0xFFFFFFFF

/-! ### The register map -/

/-- Key of a register at index values, in the order of its row's strides. -/
def Reg.key (r : Reg) (ix : List Nat) : Nat :=
  r.row.base + ((r.row.dims.zip ix).map (fun p => p.1.1 * p.2)).sum

/-- The index values by which a key lies in a row, if it does. -/
def rowIndex (rem : Nat) : List (Nat × Nat) → Option (List Nat)
  | [] => if rem = 0 then some [] else none
  | (stride, count) :: t =>
    if rem / stride < count then (rowIndex (rem % stride) t).map (rem / stride :: ·) else none

/-- Does a key lie in a register's row, and at which index values. -/
def Reg.find? (r : Reg) (k : Nat) : Option (List Nat) :=
  if k < r.row.base then none else rowIndex (k - r.row.base) r.row.dims

/-- The register of a key (R487: a key that none lists is no register). -/
def regAt (k : Nat) : Option (Reg × List Nat) :=
  Reg.all.findSome? (fun r => (r.find? k).map (fun ix => (r, ix)))

/-- Reset value of a register as the sum of its fields', with the two families whose value depends on the index (R339). -/
def rowReset (r : Reg) (ix : List Nat) : Word :=
  let v := (r.row.fields.map (fun f => f.reset * 2 ^ f.lsb)).sum
  match r, ix with
  | .HR_DV_CFG, [k] => BitVec.ofNat 32 (2 ^ k)
  | .HR_SLM, [_, k] => BitVec.ofNat 32 (2 ^ k)
  | .MSIX_TABLE, [_, d] => if d % 4 = 3 then 1 else 0
  | _, _ => BitVec.ofNat 32 v

/-- Reset value at a key. -/
def resetVal (k : Nat) : Word :=
  match regAt k with
  | some (r, ix) => rowReset r ix
  | none => 0

/-- Bits of a register whose fields have one of the access codes. -/
def accMask (r : Reg) (p : Acc → Bool) : Nat :=
  (r.row.fields.map (fun f => if p f.acc then (2 ^ f.width - 1) * 2 ^ f.lsb else 0)).sum

/-- Is a register on the H-die (R21, R430, R485)? -/
def Reg.onHost (r : Reg) : Bool :=
  let b := r.row.base
  decide (b < 0x2100) || decide (0x90000 ≤ b && b < 0x90100) || decide (2 ^ 28 ≤ b)

/-- Is a key on the H-die? -/
def keyOnHost (k : Nat) : Bool :=
  let b := k % 2 ^ 20
  if 2 ^ 28 ≤ k then true else decide (b < 0x2100) || decide (0x90000 ≤ b && b < 0x90100)

/-! ### Reading and writing register files -/

/-- A unit's queue, play and buffer emptied, its markers 0 (R120, R170, R304, R311). -/
def Feed.clear (f : Feed) : Feed :=
  { f with queue := [], play := none, startAt := none, waitAt := none, owedRows := 0, reqs := [], buf := [], markers := 0, markersAcc := 0, markersPrev := 0, markersShown := 0 }

namespace State

/-- Main copy of a register. -/
def getK (s : State) (k : Nat) : Word := smGet (resetVal k) s.regs.main k

/-- Write the main copy. -/
def putK (s : State) (k : Nat) (v : Word) : State :=
  { s with regs := { s.regs with main := smSet (resetVal k) s.regs.main k v } }

/-- Shadow copy. -/
def shadowK (s : State) (k : Nat) : Word := smGet (resetVal k) s.regs.shadow k

/-- Write the shadow copy. -/
def putShadow (s : State) (k : Nat) (v : Word) : State :=
  { s with regs := { s.regs with shadow := smSet (resetVal k) s.regs.shadow k v } }

/-- Active copy. -/
def activeK (s : State) (k : Nat) : Word := smGet (resetVal k) s.regs.active k

/-- Write the active copy. -/
def putActive (s : State) (k : Nat) (v : Word) : State :=
  { s with regs := { s.regs with active := smSet (resetVal k) s.regs.active k v } }

/-- What the part set or counted since the last event-clock edge. -/
def freshK (s : State) (k : Nat) : Word := smGet 0 s.regs.fresh k

/-- Write the record of this event cycle. -/
def putFresh (s : State) (k : Nat) (v : Word) : State :=
  { s with regs := { s.regs with fresh := smSet 0 s.regs.fresh k v } }

/-- A field of the main copy. -/
def get (s : State) (f : Fld) (ix : List Nat := []) : Nat :=
  bitsOf (s.getK (f.reg.key ix)).toNat f.lsb f.width

/-- Write a field of the main copy. -/
def set (s : State) (f : Fld) (ix : List Nat) (v : Nat) : State :=
  let k := f.reg.key ix
  s.putK k (BitVec.ofNat 32 (putBits (s.getK k).toNat f.lsb f.width v))

/-- A field of the active copy (R37: the copy on which the block acts). -/
def act (s : State) (f : Fld) (ix : List Nat := []) : Nat :=
  bitsOf (s.activeK (f.reg.key ix)).toNat f.lsb f.width

/-- A field of the shadow copy. -/
def shd (s : State) (f : Fld) (ix : List Nat := []) : Nat :=
  bitsOf (s.shadowK (f.reg.key ix)).toNat f.lsb f.width

/-- Set a W1C field: it stays set against a write of this event cycle (R16). -/
def raise (s : State) (f : Fld) (ix : List Nat := []) : State :=
  let k := f.reg.key ix
  s.putFresh k (BitVec.ofNat 32 (putBits (s.freshK k).toNat f.lsb f.width (2 ^ f.width - 1)))

/-- Add to an RC counter; it saturates (R16, R17). -/
def count (s : State) (f : Fld) (ix : List Nat := []) (n : Nat := 1) : State :=
  let k := f.reg.key ix
  let w := (s.freshK k).toNat
  s.putFresh k (BitVec.ofNat 32 (putBits w f.lsb f.width (satAdd f.width (bitsOf w f.lsb f.width) n)))

/-- Add to an RO counter that saturates (R17). -/
def incSat (s : State) (f : Fld) (ix : List Nat := []) (n : Nat := 1) : State :=
  s.set f ix (satAdd f.width (s.get f ix) n)

/-- Add to an RO counter that wraps. -/
def incWrap (s : State) (f : Fld) (ix : List Nat := []) : State :=
  s.set f ix ((s.get f ix + 1) % 2 ^ f.width)

end State

/-- One field of a register's base value joined with what this event cycle added (R16): W1C bits join, counts add and
saturate, EP_WALL_MIN keeps the least and RM_SESS_WAIT the greatest. -/
def joinField (r : Reg) (base add : Nat) (f : FieldRow) : Nat :=
  let b := bitsOf base f.lsb f.width
  let a := bitsOf add f.lsb f.width
  let x := match f.acc, r with
    | .w1c, _ => b ||| a
    | .rc, .EP_WALL_MIN => if add = 0 then b else min b (a - 1)
    | .rc, .RM_SESS_WAIT => max b a
    | .rc, _ => satAdd f.width b a
    | _, _ => b
  x * 2 ^ f.lsb

/-- A register as it stands with this event cycle's additions (the value the next read of a later cycle would find). -/
def joinWord (r : Reg) (base add : Word) : Word :=
  BitVec.ofNat 32 ((r.row.fields.map (joinField r base.toNat add.toNat)).sum)

namespace State

/-- A register with this event cycle's additions joined in. -/
def total (s : State) (k : Nat) : Word :=
  match regAt k with
  | some (r, _) => joinWord r (s.getK k) (s.freshK k)
  | none => 0

/-- A field of `total`. -/
def tot (s : State) (f : Fld) (ix : List Nat := []) : Nat :=
  bitsOf (s.total (f.reg.key ix)).toNat f.lsb f.width

/-- The event-clock edge joins the additions of the ended cycle (R16). -/
def mergeFresh (s : State) : State :=
  let s' := s.regs.fresh.foldl (fun t p => t.putK p.1 (t.total p.1)) s
  { s' with regs := { s'.regs with fresh := [] } }

/-! ### Units -/

def modSlice (s : State) (n : Fin 12) (f : Slice → Slice) : State :=
  { s with slices := s.slices.set n (f s.slices[n]) }

def modLane (s : State) (n : Fin 12) (l : Fin 8) (f : Lane → Lane) : State :=
  s.modSlice n (fun sl => { sl with lanes := sl.lanes.set l (f sl.lanes[l]) })

/-- Every lane of a slice, with its number. -/
def mapLanes (s : State) (n : Fin 12) (f : Fin 8 → Lane → Lane) : State :=
  s.modSlice n (fun sl => { sl with lanes := Vector.ofFn (fun l => f l sl.lanes[l]) })

def modCore (s : State) (c : Fin 4) (f : Core → Core) : State :=
  { s with cores := s.cores.set c (f s.cores[c]) }

def modSess (s : State) (n : Fin 16) (f : Sess → Sess) : State :=
  { s with sess := s.sess.set n (f s.sess[n]) }

def modHost (s : State) (n : Fin 16) (f : HostSess → HostSess) : State :=
  { s with host := s.host.set n (f s.host[n]) }

def modRing (s : State) (n : Fin 16) (r : Fin 4) (f : Ring → Ring) : State :=
  s.modHost n (fun h => { h with rings := h.rings.set r (f h.rings[r]) })

def modAo (s : State) (n : Fin 16) (f : Ao → Ao) : State :=
  { s with aos := s.aos.set n (f s.aos[n]) }

def modFw (s : State) (g : Fin 4) (f : Furrow → Furrow) : State :=
  { s with fws := s.fws.set g (f s.fws[g]) }

def modFlt (s : State) (f : Faults → Faults) : State := { s with flt := f s.flt }

def modCommit (s : State) (f : CommitEng → CommitEng) : State := { s with commit := f s.commit }

def modTb (s : State) (f : TimeBase → TimeBase) : State := { s with tb := f s.tb }

def modHr (s : State) (f : Hedge → Hedge) : State := { s with hr := f s.hr }

def modStile (s : State) (f : Stile → Stile) : State := { s with stile := f s.stile }

/-- Act for every lane of a slice in ascending order. -/
def overLanes (f : Fin 8 → State → State) (s : State) : State := (List.finRange 8).foldl (fun s l => f l s) s

/-- Act for every slice in ascending order. -/
def overSlices (f : Fin 12 → State → State) (s : State) : State := (List.finRange 12).foldl (fun s n => f n s) s

/-- Act for every session in ascending order. -/
def overSess (f : Fin 16 → State → State) (s : State) : State := (List.finRange 16).foldl (fun s n => f n s) s

/-- Act for every output in ascending order. -/
def overOutputs (f : Fin 16 → State → State) (s : State) : State := (List.finRange 16).foldl (fun s n => f n s) s

/-- Act for every trigger unit in ascending order. -/
def overTriggers (f : Fin 8 → State → State) (s : State) : State := (List.finRange 8).foldl (fun s n => f n s) s

/-- Act for every core in ascending order. -/
def overCores (f : Fin 4 → State → State) (s : State) : State := (List.finRange 4).foldl (fun s n => f n s) s

/-- TBC, counted on where it wraps (R69, log 72): every tick the state holds is in this count, and what a register or a record shows of it is TBC. -/
def now (s : State) : Nat := s.tb.tbc.toNat + 2 ^ 64 * s.tb.laps

/-- The tick of this count that a value of TBC names: of those with that value, the one nearest to now (log 72). -/
def tickOf (s : State) (t : Nat) : Nat :=
  let x := s.now / 2 ^ 64 * 2 ^ 64 + t
  if s.now + 2 ^ 63 < x ∧ 2 ^ 64 ≤ x then x - 2 ^ 64 else if x + 2 ^ 63 < s.now then x + 2 ^ 64 else x

/-- TBC[47:0]. -/
def now48 (s : State) : Nat := s.now % 2 ^ 48

/-- Defer an action by event-clock edges. -/
def defer (s : State) (left : Nat) (a : DueAct) : State := { s with due := s.due ++ [⟨left, a⟩] }

/-- The value returned to the reader: the model's own record of the last read's answer. -/
def reply (s : State) (v : Word) : State := { s with lastRead := v }

/-- The next free value (log 6). -/
def fresh? (s : State) (w : Nat) : Nat × State :=
  (Config.freeValue s.freeCtr % 2 ^ w, { s with freeCtr := s.freeCtr + 1 })

end State

end Sys2Proof.Machine
end

