-- ==== Sys2Proof/Machine/Frames.lean ====
section
/-! DEFINITION. Frames of the Stile (R414–R419): the CRC, the lanes, the header frame, and the frames that a message goes out in. -/

namespace Sys2Proof.Machine

/-! ### Frames and lanes (R415, R423) -/

/-- A CRC of 16 bits with polynomial 0x8BB7 takes one bit. -/
def crc16Bit (c : Nat) (b : Bool) : Nat :=
  if bitOf c 15 != b then (c * 2 % 65536) ^^^ 0x8BB7 else c * 2 % 65536

/-- The CRC of a frame's payload: initial value 0xFFFF, each byte from bit 7 down, no final inversion (R415). -/
def crc16 (bs : List Byte) : Nat :=
  bs.foldl (fun c b => (List.range 8).foldl (fun c i => crc16Bit c (bitOf b.toNat (7 - i))) c) 0xFFFF

/-- A frame: 32 bytes of payload and a CRC, 272 bits (R415). -/
structure Frame where
  payload : List Byte
  crc : Nat
  deriving DecidableEq, Repr

/-- The frame of a payload. -/
def frameOf (payload : List Byte) : Frame := ⟨payload, crc16 payload⟩

/-- Does a frame pass its CRC? -/
def Frame.good (f : Frame) : Bool := crc16 f.payload == f.crc

/-- The 34 bits of active lane `k`: payload bytes 4k to 4k + 3, and CRC bits [2k + 1:2k] above them (R415). -/
def Frame.lane (f : Frame) (k : Fin 8) : Nat := leVal ((f.payload.drop (4 * k)).take 4) + 2 ^ 32 * bitsOf f.crc (2 * k) 2

/-- The frame that eight active lanes carry. -/
def frameFrom (lanes : Fin 8 → Nat) : Frame :=
  ⟨(List.finRange 8).flatMap (fun k => leBytes 4 (lanes k)), ((List.finRange 8).map (fun k => bitsOf (lanes k) 32 2 * 4 ^ k.val)).sum⟩

/-- What a physical lane carries: the spare, lane 8, the bits of the lane it stands in for, and that lane nothing of the frame; 15 is no lane (R414, R423). -/
def Frame.onLane (f : Frame) (spared : Nat) (l : Fin 9) : Option Nat :=
  if l.val = spared then none
  else if h : l.val < 8 then some (f.lane ⟨l, h⟩)
  else if h : spared < 8 then some (f.lane ⟨spared, h⟩) else none

/-! ### Headers (R418) -/

/-- The 32 bytes of a header frame. -/
def Header.bytes (h : Header) : List Byte :=
  leBytes 1 h.typ ++ (leBytes 1 (h.nak.toNat + 2 * h.notag.toNat + 4 * h.hostReset.toNat + 8 * h.reserved) ++ (leBytes 2 h.tag ++
  (leBytes 1 (h.session + 16 * h.epoch) ++ (leBytes 1 h.ndata ++ (leBytes 2 h.ack ++ (leBytes 8 h.addr ++ padTo 16 h.inline_))))))

/-- The header that 32 bytes spell. -/
def headerOf (b : List Byte) : Header where
  typ := fieldAt b 0 1
  nak := bitOf (fieldAt b 1 1) 0
  notag := bitOf (fieldAt b 1 1) 1
  hostReset := bitOf (fieldAt b 1 1) 2
  reserved := fieldAt b 1 1 / 8
  tag := fieldAt b 2 2
  session := fieldAt b 4 1 % 16
  epoch := fieldAt b 4 1 / 16
  ndata := fieldAt b 5 1
  ack := fieldAt b 6 2
  addr := fieldAt b 8 8
  inline_ := b.drop 16

/-- Is a received header's message acted on: its TYPE is sent, and its reserved bits are 0 (R419, R422)? HOST_RESET is reserved outside INIT. -/
def Header.ok (h : Header) : Bool :=
  decide (h.typ ≤ 0x0E) && h.reserved == 0 && (!h.hostReset || h.typ == 1) && decide (h.ndata ≤ 24)

/-! ### Messages (R416, R419) -/

/-- TYPE of a message. A BAR0 access that had to wait and a commit written to SYS_COMMIT cross as register messages. -/
def Packet.typ : Packet → Nat
  | .idle => 0x00
  | .bad _ h => h.typ
  | .state _ => 0x02
  | .lane _ _ => 0x03
  | .regWr _ _ => 0x04
  | .barWr _ _ => 0x04
  | .commitGo _ _ => 0x04
  | .regRd _ => 0x05
  | .barRd _ => 0x05
  | .regRsp _ => 0x06
  | .barRsp _ => 0x06
  | .cmd _ _ _ _ => 0x07
  | .go _ _ _ => 0x08
  | .credit _ _ _ _ _ => 0x09
  | .hostRdReq _ => 0x0A
  | .hostRdData _ _ _ => 0x0B
  | .msg _ (.hostWr _ _ _) => 0x0C
  | .msg _ (.ringPost _ _ _ _) => 0x0D
  | .fieldReset => 0x0E

/-- The instance for which a field-to-host message acts. -/
def Msg.inst : Msg → Option (Nat × Nat)
  | .ringPost _ _ _ i => i
  | .hostWr _ _ i => i

/-- The session of a message and the instance for which it acts (R402). -/
def Packet.inst : Packet → Option (Nat × Option (Nat × Nat))
  | .cmd k t e _ => some (k, some (t, e))
  | .go k t e => some (k, some (t, e))
  | .credit k _ _ _ _ => some (k, none)
  | .hostRdReq r => some (r.sess, r.inst)
  | .hostRdData k i _ => some (k, i)
  | .msg k m => some (k, m.inst)
  | _ => none

/-- Bytes that follow a message's header in data frames. -/
def Packet.data : Packet → List Byte
  | .cmd _ _ _ b => padTo 64 b
  | .hostRdData _ _ d => d
  | .msg _ (.hostWr _ d _) => d
  | .msg _ (.ringPost _ b _ _) => padTo 64 b
  | _ => []

/-- ADDR of a message whose data starts at byte `off`. -/
def Packet.addr (p : Packet) (off : Nat) : Nat :=
  match p with
  | .regWr o _ => o
  | .barWr o _ => o
  | .regRd o => o
  | .barRd o => o
  | .commitGo _ _ => 0x40
  | .hostRdReq r => r.addr
  | .msg _ (.hostWr a _ _) => a + off
  | _ => 0

/-- INLINE of a message. The layout of CREDIT, and where a message that acts for no instance names its session, are not given: CREDIT's are the session
and the rooms in turn, and the others' the session in INLINE[15] (DESIGN CHOICE, log 76). -/
def Packet.inline_ (p : Packet) : List Byte :=
  match p with
  | .state v => leBytes 1 v
  | .lane _ n => leBytes 1 n
  | .regWr _ v => leBytes 4 v.toNat
  | .barWr _ v => leBytes 4 v.toNat
  | .commitGo sc t => leBytes 4 (sc + 256 * t + 2 ^ 31)
  | .regRsp v => leBytes 4 v.toNat
  | .barRsp v => leBytes 4 v.toNat
  | .credit k a b c d => leBytes 1 k ++ (leBytes 3 a ++ (leBytes 3 b ++ (leBytes 3 c ++ leBytes 4 d)))
  | .hostRdReq r => leBytes 15 r.len ++ (if r.inst.isNone then leBytes 1 r.sess else [])
  | .hostRdData k i _ => leBytes 15 0 ++ (if i.isNone then leBytes 1 k else [])
  | .msg k (.hostWr _ _ i) => leBytes 15 0 ++ (if i.isNone then leBytes 1 k else [])
  | .msg k (.ringPost r _ _ i) => leBytes 15 r ++ (if i.isNone then leBytes 1 k else [])
  | _ => []

/-- Data frames of `n` bytes. -/
def dataFrames (n : Nat) : Nat := (n + 31) / 32

/-- Messages that `n` bytes go out in: at most 24 data frames of 32 bytes each (R416, R418). -/
def dataMessages (n : Nat) : Nat := max 1 ((n + 767) / 768)

/-- Frames that a message goes out in: a header frame for each 24 data frames. A header that is discarded takes its data frames with it (R416, R422). -/
def Packet.frames (p : Packet) : Nat :=
  match p with
  | .bad _ h => 1 + h.ndata
  | p => dataMessages p.data.length + dataFrames p.data.length

/-- The header of the part of a message whose data starts at byte `off`, with the ACK and the NAK of its sender. -/
def Packet.header (p : Packet) (ack : Nat) (nak : Bool) (off : Nat) : Header :=
  match p with
  | .bad _ h => { h with ack := ack, nak := nak }
  | p =>
    let i := p.inst.bind (fun x => x.2.map (fun y => (x.1, y)))
    { typ := p.typ, nak := nak, notag := i.isNone, hostReset := false, reserved := 0, tag := (i.map (fun x => x.2.1)).getD 0,
      session := (i.map (fun x => x.1)).getD 0, epoch := (i.map (fun x => x.2.2)).getD 0,
      ndata := dataFrames (min 768 (p.data.length - off)), ack := ack, addr := p.addr off, inline_ := padTo 16 p.inline_ }

/-- The header of INIT (R418, R429). -/
def initHeader (hostReset : Bool) : Header := ⟨1, false, true, hostReset, 0, 0, 0, 0, 0, 0, 0, padTo 16 []⟩

/-- The frames in which a message goes out, with the ACK and the NAK of its sender. -/
def Packet.wire (p : Packet) (ack : Nat) (nak : Bool) : List Frame :=
  (List.range (dataMessages p.data.length)).flatMap (fun m =>
    let part := (p.data.drop (768 * m)).take 768
    frameOf (p.header ack nak (768 * m)).bytes ::
      (List.range (dataFrames part.length)).map (fun i => frameOf (padTo 32 ((part.drop (32 * i)).take 32))))

end Sys2Proof.Machine
end

