-- ==== Sys2Proof/Machine/Flits.lean ====
section
/-! DEFINITION. Flits of the Tabolyar (R434, R438): the layout of a flit, and the bytes of the messages that its stream carries. -/

namespace Sys2Proof.Machine

/-! ### Messages (R438) -/

/-- TYPE of a message; 0xFF, no Tabolyar type, for one of the forerunner fabric, which no flit carries. -/
def NetMsg.typ : NetMsg → Nat
  | .pad => 0x20
  | .discover _ => 0x21
  | .report _ _ => 0x22
  | .assign _ _ _ => 0x23
  | .align _ _ _ => 0x24
  | .epoch _ => 0x25
  | .raccWr _ _ _ _ => 0x26
  | .raccRd _ _ _ => 0x27
  | .raccRsp _ _ _ _ => 0x28
  | .evcfg _ _ _ => 0x29
  | .fabric _ _ => 0xFF

/-- A stamp as a message carries it: 8 bytes, 0 where it is not taken yet. -/
def stampBytes (t : Option Int) : List Byte := leBytes 8 (patternOf (t.getD 0) 64)

/-- INLINE of a message whose flit's first bit leaves at tick `now`. Where R438 gives no layout the fields follow one another in the order of its table
(DESIGN CHOICE, log 77). -/
def NetMsg.inline_ (m : NetMsg) (now : Int) : List Byte :=
  match m with
  | .discover hop => leBytes 1 hop
  | .report role serial => leBytes 8 role ++ leBytes 8 serial
  | .assign dev crate cluster => leBytes 1 dev ++ (leBytes 1 crate ++ leBytes 1 cluster)
  | .align _ asked up => leBytes 1 (asked.toNat + 2 * up.toNat)
  | .epoch at_ => leBytes 8 (now - at_).toNat
  | .raccWr crate dev _ v => leBytes 1 crate ++ (leBytes 1 dev ++ (leBytes 2 0 ++ leBytes 4 v))
  | .raccRd crate dev _ => leBytes 1 crate ++ leBytes 1 dev
  | .raccRsp crate dev v st => leBytes 1 crate ++ (leBytes 1 dev ++ (leBytes 2 st ++ leBytes 4 v))
  | .evcfg crate cluster scope => leBytes 2 crate ++ (leBytes 2 cluster ++ leBytes 1 scope)
  | _ => []

/-- ADDR of a message: the offset of a remote access. -/
def NetMsg.addr : NetMsg → Nat
  | .raccWr _ _ o _ => o
  | .raccRd _ _ o => o
  | _ => 0

/-- Data units of a message: the four stamps of ALIGN. -/
def NetMsg.data : NetMsg → List Byte
  | .align st _ _ => stampBytes st.t1 ++ (stampBytes st.t2 ++ (stampBytes st.t3 ++ stampBytes st.t4))
  | _ => []

/-- The bytes of a message in the stream: a header in the layout of R418, its ACK field 0, then its data units. None of these messages acts for an
instance. -/
def NetMsg.bytes (m : NetMsg) (now : Int) : List Byte :=
  (Header.mk m.typ false true false 0 0 0 0 (m.data.length / 32) 0 m.addr (padTo 16 (m.inline_ now))).bytes ++ m.data

/-! ### The flit (R434) -/

/-- The 3 bytes of an event record. -/
def CrateRec.bytes (r : CrateRec) : List Byte := leBytes 3 (r.cycle % 65536 + 65536 * (r.line % 8) + 2 ^ 19 * r.level.toNat)

/-- The 124 bytes of a flit that its CRC covers. -/
def WireFlit.body (f : WireFlit) : List Byte :=
  leBytes 2 f.flit.seq ++ (leBytes 2 f.ack ++ (leBytes 1 (f.nak.toNat + 2 * f.degraded.toNat) ++ (leBytes 1 f.flit.recs.length ++ (leBytes 2 0 ++
  (padTo 24 (f.flit.recs.flatMap CrateRec.bytes) ++ padTo 92 f.flit.msg)))))

/-- The 128 bytes of a flit as it leaves; an injection inverts its CRC (R434, R455). -/
def WireFlit.bytes (f : WireFlit) : List Byte :=
  f.body ++ leBytes 4 (if f.badCrc then crc32 f.body ^^^ 0xFFFFFFFF else crc32 f.body)

/-- Do 128 bytes pass the CRC of a flit? -/
def flitGood (b : List Byte) : Bool := crc32 (b.take 124) == fieldAt b 124 4

end Sys2Proof.Machine
end

