-- ==== Sys2Proof/Machine/NetBase.lean ====
section
/-! DEFINITION. The Tabolyar device: its role, its ports and the messages it sends (R431–R438, R444). -/

namespace Sys2Proof.Machine

namespace State

def modNet (s : State) (f : Net → Net) : State := { s with net := f s.net }

def modPort (s : State) (p : Fin 4) (f : Port → Port) : State :=
  s.modNet (fun n => { n with ports := n.ports.set p (f n.ports[p]) })

/-- Role of R431: 0 worker, 1 crate manager, 2 cluster root manager, 3 standalone. -/
def role (s : State) : Nat := s.get F.TL_ROLE_ROLE

/-- State of a port: 0 off, 1 training, 2 up, 3 up and degraded, 4 BLOCKED, 5 down (R453). -/
def portState (s : State) (p : Nat) : Nat := s.get F.TL_PORT_STAT_STATE [p]

/-- Is a port up (R42, R436)? -/
def portUp (s : State) (p : Nat) : Bool := s.portState p == 2 || s.portState p == 3

/-- Has the device an upstream (R431, R444)? -/
def hasUpstream (s : State) : Bool := s.role == 0 || (s.role == 1 && s.portUp 0)

/-- Is the device the root of a crate or of a cluster (R446)? -/
def isRoot (s : State) : Bool := s.role == 2 || (s.role == 1 && !s.portUp 0)

/-- Is a port a downstream port in Tabolyar mode (R431)? -/
def isDown (s : State) (p : Fin 4) : Bool := decide (p ≠ 0) && decide (s.role ≠ 3)

/-- Is a port used in the device's role: TL0 of a root is not, and no port of a standalone device but in forerunner fabric mode (R431)? -/
def portUsed (s : State) (p : Fin 4) : Bool :=
  s.act F.TL_PORT_CFG_MODE [p] != 0 && !(s.role == 2 && decide (p = 0)) && (s.role != 3 || s.act F.TL_PORT_CFG_MODE [p] == 2)

/-- Does the device take a Tabolyar message that comes on a port: the port is used and not BLOCKED, and no replay is awaited (R431, R435, R440)? -/
def hears (s : State) (p : Fin 4) : Bool :=
  s.role != 3 && s.portUsed p && s.portState p != 4 && s.net.ports[p].await.isNone

/-- A message comes in a flit that passes its CRC; where the device does not take it, nothing happens (R435). -/
def hear (s : State) (p : Fin 4) (f : State → State) : State :=
  if s.hears p then f (s.modPort p (fun x => { x with fails := 0 })) else s

/-- The downstream ports that are up. -/
def downPorts (s : State) : List (Fin 4) := (List.finRange 4).filter (fun p => s.isDown p && s.portUp p)

/-- Send a message on a port: it joins the port's stream, where a retraining lets it wait; on a port that is off, BLOCKED or down it is lost (R436,
R438). -/
def netSend (s : State) (p : Nat) (m : NetMsg) : State :=
  if s.portUp p || s.portState p == 1 then s.modPort (Fin.ofNat 4 p) (fun x => { x with out := x.out ++ [m] }) else s

/-- A port without anything under way: what was in flight on it is lost (R436). -/
def clearPort (x : Port) : Port :=
  { x with
    queue := [], owed := 0, out := [], carry := [], fails := 0, await := none, replay := none, kept := [], naks := none
    stamps := ⟨none, none, none, none⟩, asks := [] }

/-- Send a message on every downstream port that is up. -/
def sendDown (s : State) (m : NetMsg) : State := s.downPorts.foldl (fun s (p : Fin 4) => s.netSend p m) s

/-- A device without upstream announces a SYNCOUT pulse, which starts at this REFIN edge, downstream (R444). -/
def linkEpoch (s : State) : State := if s.hasUpstream then s else s.sendDown (.epoch s.now)

end State

end Sys2Proof.Machine
end

