-- ==== Sys2Proof/Machine/Bounds.lean ====
section
/-! DEFINITION. The boundaries of a playing unit (R174–R183): what its next slot is, by its segment's passes and end action and by its jump requests. -/

namespace Sys2Proof.Machine

/-- Descriptors of a queue, in order. -/
def queueSegs (q : List WallEntry) : List Seg :=
  q.filterMap (fun e => match e with
    | .seg d => some d
    | .ts _ => none)

/-- A playing segment's shadow, as its descriptor was copied when the segment's first period started (R180). -/
def Play.desc (p : Play) (b : Bool) : Option Seg := if b then p.descB else p.descA

/-! ### Boundaries of a playing unit (R174–R183) -/

/-- What happens to a playing unit at the boundary after its present slot. -/
inductive Bound where
  /-- The sequence has been stopped: no further slot starts. -/
  | stop
  /-- A jump to shadow A (false) or B (true). -/
  | shadow (b : Bool)
  /-- A jump to a segment with no shadow: the next queued descriptor. -/
  | jumpQueue
  /-- The segment's passes are over under IDLE or NEXT. -/
  | over_
  /-- The segment goes on: the next vector, pass, held slot or slipped slot. -/
  | stay
  deriving DecidableEq, Repr

/-- Is the boundary after the slot in play a jump point (R177)? -/
def jumpPoint (p : Play) : Bool :=
  if p.phase = 2 then true
  else if p.phase = 4 then !p.wallSlip
  else (p.seg.jpInt != 0 && p.next % p.seg.jpInt == 0) ||
    (p.next == p.seg.length && (p.seg.passJp || decide (p.seg.loops ≤ p.pass + 1)))

/-- Is the segment's last pass over at this boundary, so that its end action applies? -/
def passesOver (p : Play) : Bool :=
  (p.phase == 1 || p.phase == 4) && !p.wallSlip && p.next == p.seg.length && decide (p.seg.loops ≤ p.pass + 1)

/-- Does a request exist that is due at tick `t` (R178)? -/
def jumpDue (p : Play) (t : Nat) : Option Bool :=
  match p.pend with
  | some (b, e) => if e + 24576 ≤ t && jumpPoint p then some b else none
  | none => none

/-- Moves a play to its next pass when the present one is over, and into HOLD or REPEAT after the last (R169, R174). -/
def advance (p : Play) : Play :=
  if p.wallSlip || p.phase == 2 || decide (p.next < p.seg.length) then p
  else if p.pass + 1 < p.seg.loops then { p with pass := p.pass + 1, next := 0 }
  else if p.seg.endAct = 3 then { p with pass := p.pass + 1, next := 0, phase := 3 }
  else { p with pass := p.pass + 1, phase := 2 }

namespace State

def feed (s : State) : PlayUnit → Feed
  | .slice n => s.slices[n].feed
  | .out o => s.aos[o].feed

/-- Session of a unit's present or last sequence. -/
def feedSess (s : State) (u : PlayUnit) : Fin 16 := Fin.ofNat 16 (s.feed u).sess

/-- Is a segment's shadow staged? -/
def isStaged (p : Play) (b : Bool) : Bool := if b then p.stagedB else p.stagedA

/-- Has the sequence that a unit serves been stopped? -/
def unitHalted (s : State) (u : PlayUnit) : Bool :=
  ((s.sess[s.feedSess u].seq.map (·.halted)).getD true)

/-- A due request that finds its shadow not staged (R183). -/
def stageWaits (p : Play) (t : Nat) : Bool :=
  match jumpDue p t with
  | some b => (p.desc b).isSome && !isStaged p b
  | none => false

/-- The outcome of a boundary at tick `t` of a unit whose sequence has not been stopped. -/
def boundOpen (s : State) (u : PlayUnit) (p : Play) (t : Nat) : Bound :=
  let rest : Bound := if p.wallSlip then (if (queueSegs (s.feed u).queue).isEmpty then .stay else .over_)
    else if passesOver p && decide (p.seg.endAct < 2) then .over_ else .stay
  match jumpDue p t with
  | none => rest
  | some b =>
    match p.desc b with
    | none => .jumpQueue
    | some _ => if isStaged p b then .shadow b else rest

/-- The outcome of a boundary at tick `t`. -/
def bound (s : State) (u : PlayUnit) (p : Play) (t : Nat) : Bound := if s.unitHalted u then .stop else s.boundOpen u p t

end State

end Sys2Proof.Machine
end

