-- ==== Sys2Proof/Machine/Post.lean ====
section
/-! DEFINITION. Status codes, ring entries, completions and interrupts (R18–R20, R390, R391, R397–R400, R410). -/

namespace Sys2Proof.Machine

/-- Code of a status (R18). -/
def Status.code : Status → Nat
  | .ok => 0
  | .stale => 1
  | .underrun => 2
  | .maskStop => 3
  | .aborted => 4
  | .commitConflict => 5
  | .commitLoop => 6
  | .commitRange => 7
  | .resourceBusy => 8
  | .badDescriptor => 9
  | .fault => 10
  | .timeout => 11
  | .degraded => 12

/-- Place of a refusal in the order of R19. -/
def Status.refuseRank : Status → Nat
  | .badDescriptor => 0
  | .stale => 1
  | .resourceBusy => 2
  | .commitRange => 3
  | .commitConflict => 4
  | .commitLoop => 5
  | _ => 6

/-- Place of an ending in the order of R20. -/
def Status.endRank : Status → Nat
  | .fault => 0
  | .aborted => 1
  | .underrun => 2
  | .maskStop => 3
  | .timeout => 4
  | .degraded => 5
  | _ => 6

/-- Condition flags of R398, by bit. -/
def Cond.fault : Nat := 0
def Cond.aborted : Nat := 1
def Cond.underrun : Nat := 2
def Cond.wallUnderrun : Nat := 3
def Cond.maskStop : Nat := 4
def Cond.timeout : Nat := 5
def Cond.degraded : Nat := 6
def Cond.slip : Nat := 7
def Cond.failSeen : Nat := 8
def Cond.maskViol : Nat := 9
def Cond.staleData : Nat := 10
def Cond.loss : Nat := 11
def Cond.partial_ : Nat := 12
def Cond.notFound : Nat := 13
def Cond.noTag : Nat := 15

/-- The status that R20 puts first. -/
def Status.worse (a b : Status) : Status := if b.endRank < a.endRank then b else a

/-- Set a bit of a mask. -/
def withBit (v i : Nat) : Nat := if bitOf v i then v else v + 2 ^ i

/-- Status of a sequence by its ending conditions, in the order of R20. A starvation and a refill underrun carry UNDERRUN
when the sequence ended under STOP, which `under` says. -/
def endStatus (cond : Nat) (under : Bool) : Status :=
  if bitOf cond Cond.fault then .fault
  else if bitOf cond Cond.aborted then .aborted
  else if under then .underrun
  else if bitOf cond Cond.maskStop then .maskStop
  else if bitOf cond Cond.timeout then .timeout
  else if bitOf cond Cond.degraded then .degraded
  else .ok

/-- The 2-bit quality code of the time base's state (R61). -/
def qualityCode (tbState : Nat) : Nat :=
  match tbState with
  | 2 => 0
  | 3 => 1
  | 4 => 2
  | _ => 3

/-- Present quality code. -/
def State.quality (s : State) : Nat := qualityCode (s.get F.TB_STATUS_STATE)

/-- Worse of two quality codes, in the order LOCKED, HOLDOVER, RECOVER, UNREF of their codes. -/
def worseQ (a b : Nat) : Nat := max a b

/-! ### Interrupts -/

/-- A word of a vector's MSI-X table entry: message address, low and high, message data, vector control (R386). -/
def State.msixWord (s : State) (n : Fin 16) (v j : Nat) : Nat := (s.getK (Reg.key .MSIX_TABLE [n, 4 * v + j])).toNat

/-- The MSI-X message of vector `v` of a function goes out (R410). -/
def State.sendVec (s : State) (n : Fin 16) (v : Nat) : State :=
  { s with irqs := ⟨n, v, s.msixWord n v 0 + 2 ^ 32 * s.msixWord n v 1, s.msixWord n v 2⟩ :: s.irqs }

/-- Raise MSI-X vector `v` of a function: sent, or held pending while it or its function is masked; without MSI-X Enable nothing is sent (R410). -/
def State.raiseVec (s : State) (n : Fin 16) (v : Nat) : State :=
  if s.host[n].msixOn = false then s
  else if s.host[n].msixMask || bitOf (s.msixWord n v 3) 0 then
    let k := Reg.key .MSIX_PBA [n, v / 32]
    s.putK k (BitVec.ofNat 32 (withBit (s.getK k).toNat (v % 32)))
  else s.sendVec n v

/-- A ring raises its vector and disarms (R410). -/
def State.raiseRing (s : State) (n : Fin 16) (r : Fin 4) : State :=
  (s.raiseVec n (s.get F.RING_CTL_VEC [n, r])).modRing n r (fun g => { g with armed := false, since := 0 })

/-! ### Ring entries -/

/-- Bytes of one entry of ring `r`. -/
def entrySize (r : Fin 4) : Nat := match r with
  | 0 => 64
  | 1 => 32
  | 2 => 64
  | 3 => 16

/-- 64-bit value of a register pair of the main copy. -/
def State.pair (s : State) (lo hi : Fld) (ix : List Nat) : Nat := s.get lo ix + 2 ^ lo.width * s.get hi ix

/-- Bus address of a ring. -/
def State.ringBase (s : State) (n : Fin 16) (r : Fin 4) : Nat :=
  s.pair F.RING_BASE_LO_BASE F.RING_BASE_HI_BASE [n, r]

/-- Entries of a ring. -/
def State.ringEntries (s : State) (n : Fin 16) (r : Fin 4) : Nat := s.get F.RING_ENTRIES_ENTRIES [n, r]

/-- Is a ring enabled? -/
def State.ringOn (s : State) (n : Fin 16) (r : Fin 4) : Bool := s.get F.RING_CTL_ENABLE [n, r] == 1

/-- Has a ring room for an entry (R391)? -/
def State.ringRoom (s : State) (n : Fin 16) (r : Fin 4) : Bool :=
  s.ringOn n r && decide (s.host[n].rings[r].used < s.ringEntries n r)

/-- The entry's bytes with the PHASE bit in the top bit of the last byte (R391). -/
def withPhase (bytes : List Byte) (p : Bool) : List Byte :=
  bytes.dropLast ++ [BitVec.ofNat 8 (putBits ((bytes.getLast?.getD 0).toNat) 7 1 p.toNat)]

/-- Write one entry at a ring's write index (R390, R391) and raise its vector when R410 says so. -/
def State.putEntry (s : State) (n : Fin 16) (r : Fin 4) (bytes : List Byte) (intr : Bool) : State :=
  let g := s.host[n].rings[r]
  let s := { s with hostMem := memPuts s.hostMem (s.ringBase n r + g.wr * entrySize r) (withPhase bytes g.phase) }
  let wrap := g.wr + 1 = s.ringEntries n r
  let s := s.modRing n r (fun g => { g with
    wr := if wrap then 0 else g.wr + 1, phase := if wrap then !g.phase else g.phase,
    used := g.used + 1, since := g.since + 1 })
  let m := s.get F.RING_CTL_MOD_COUNT [n, r]
  if s.host[n].rings[r].armed && (intr || (m != 0 && decide (m ≤ s.host[n].rings[r].since))) then s.raiseRing n r else s

/-! ### Completions -/

/-- Entries of 32 bytes of R397, PHASE left 0. -/
def completionBytes (tag opcode status cond f epochByte d0 d1 tbc : Nat) : List Byte :=
  leBytes 2 tag ++ (leBytes 1 opcode ++ (leBytes 1 status ++ (leBytes 2 cond ++ (leBytes 1 f ++ (leBytes 1 epochByte ++
  (leBytes 8 d0 ++ (leBytes 8 d1 ++ (leBytes 6 tbc ++ leBytes 2 0))))))))

/-- Write completion entries that wait, while there is room; the instance of one that is posted is live no longer (R400, R401). -/
def State.flushWaiting (s : State) (n : Fin 16) : Nat → State
  | 0 => s
  | k + 1 =>
    match s.host[n].waiting with
    | [] => s
    | w :: t =>
      if s.ringRoom n 1 then
        ((s.modHost n (fun h => { h with
          waiting := t, live := h.live.filter (fun i => w.inst != some (i.tag, i.epoch)) })).putEntry n 1 w.entry w.intr).flushWaiting n k
      else s

/-- A completion entry reaches the H-die: it is written, or waits for room, and until then its instance stays live (R400, R401). -/
def State.deliverCompletion (s : State) (n : Fin 16) (w : Waiting) : State :=
  let s := s.modHost n (fun h => { h with waiting := h.waiting ++ [w] })
  s.flushWaiting n s.host[n].waiting.length

/-- Is an instance live (R401)? -/
def State.instLive (s : State) (n : Fin 16) (tag epoch : Nat) : Bool :=
  s.host[n].live.any (fun i => i.tag == tag && i.epoch == epoch)

/-- Was the command posted with INTR? -/
def State.instIntr (s : State) (n : Fin 16) (tag epoch : Nat) : Bool :=
  s.host[n].live.any (fun i => i.tag == tag && i.epoch == epoch && i.intr)

/-- Worst time-base quality that a live instance has met since it began (R397). -/
def State.instWorst (s : State) (n : Fin 16) (tag epoch : Nat) : Nat :=
  ((s.host[n].live.find? (fun i => i.tag == tag && i.epoch == epoch)).map (·.worstQ)).getD 0

/-- Opcode of an instance, live or ended. -/
def State.instOpcode (s : State) (n : Fin 16) (tag epoch : Nat) : Nat := smGet 0 s.host[n].opcodes (16 * tag + epoch)

/-- Has the completion of a live instance been formed? -/
def State.instEnded (s : State) (n : Fin 16) (tag epoch : Nat) : Bool :=
  s.host[n].live.any (fun i => i.tag == tag && i.epoch == epoch && i.ended)

/-- The completion of an instance is formed. -/
def State.endInst (s : State) (n : Fin 16) (tag epoch : Nat) : State :=
  s.modHost n (fun h => { h with live := h.live.map (fun i => if i.tag = tag ∧ i.epoch = epoch then { i with ended := true } else i) })

/-- A message of an instance that is not live is discarded and counted; the first for an instance posts its STALE completion (R402). -/
def State.staleMsg (s : State) (n : Fin 16) (tag epoch : Nat) : State :=
  let s := s.count F.DB_CNT1_STALE [n]
  if s.host[n].stalePosted.contains (tag, epoch) then s
  else
    let s := s.modHost n (fun h => { h with stalePosted := (tag, epoch) :: h.stalePosted })
    s.deliverCompletion n
      ⟨completionBytes tag (s.instOpcode n tag epoch) Status.stale.code 0 0 (epoch + 16 * s.quality) 0 0 s.now48, false, some (tag, epoch)⟩

/-- A unit that receives a message acts on it while its instance is live, and otherwise discards and counts it (R402). A message that carries no
instance acts. -/
def State.forInst (s : State) (n : Fin 16) (inst : Option (Nat × Nat)) (act : State → State) : State :=
  match inst with
  | some (t, e) => if s.instLive n t e then act s else s.staleMsg n t e
  | none => act s

/-- What a field-to-host message does at the H-die (R402, R419). -/
def State.deliverMsg (s : State) (n : Fin 16) (m : Msg) : State :=
  match m with
  | .ringPost 1 bytes intr inst => s.forInst n inst (fun s => s.deliverCompletion n ⟨bytes, intr, inst⟩)
  | .ringPost r bytes intr inst => s.forInst n inst (fun s =>
      let g : Fin 4 := Fin.ofNat 4 r
      if s.ringRoom n g then s.putEntry n g bytes intr
      else if g = 3 then (s.count F.DB_CNT2_EVT_DROPPED [n]).modHost n (fun h => { h with evDropped := h.evDropped + 1 })
      else s)
  | .hostWr a bs inst => s.forInst n inst (fun s => { s with hostMem := memPuts s.hostMem a bs })

end Sys2Proof.Machine
end

