-- ==== Sys2Proof/Machine/Link.lean ====
section
/-! DEFINITION. The Stile as the units use it (R401, R402, R420–R422, R426–R428): numbered frames, failing frames, messages that cross, FIELD leaving
UP, and the posting of completions; and the detectors' counts (R454–R456), which a failing frame needs. -/

namespace Sys2Proof.Machine

/-! ### The Stile's transmitters (R420, R421). `toHost` names the direction F→H. -/

/-- Messages kept by the transmitter of a direction. -/
def Stile.sent (x : Stile) (toHost : Bool) : List Sent := if toHost then x.sentF else x.sentH

/-- Does the receiver of a direction discard frames until a replay arrives? -/
def Stile.nak (x : Stile) (toHost : Bool) : Bool := if toHost then x.nakH else x.nakF

/-- Everything sent in a direction has been accepted, and the next message is too. -/
def Stile.clear (x : Stile) (toHost : Bool) : Bool := !x.nak toHost && (x.sent toHost).all (fun e => e.got)

/-- The transmitter of a direction numbers a message's frames and keeps them for replay. -/
def State.keepSent (s : State) (toHost : Bool) (p : Packet) : State :=
  let n := p.frames
  s.modStile (fun x =>
    if toHost then { x with sentF := x.sentF ++ [(⟨x.txF, n, p, false⟩ : Sent)], txF := (x.txF + n) % 65536, owedF := x.owedF + n }
    else { x with sentH := x.sentH ++ [(⟨x.txH, n, p, false⟩ : Sent)], txH := (x.txH + n) % 65536, owedH := x.owedH + n })

/-- The frames of a message pass at once: both ends number them, and they are acknowledged (R420; DESIGN CHOICE, log 69). -/
def State.passFrames (s : State) (toHost : Bool) (p : Packet) : State :=
  let n := p.frames
  s.modStile (fun x =>
    if toHost then { x with txF := (x.txF + n) % 65536, rxH := (x.rxH + n) % 65536, owedF := x.owedF + n }
    else { x with txH := (x.txH + n) % 65536, rxF := (x.rxF + n) % 65536, owedH := x.owedH + n })

/-- The header frame, and the data frames, that the transmitter of a direction would send for a message now (R415–R419). -/
def State.wireOf (s : State) (toHost : Bool) (p : Packet) : List Frame :=
  p.wire (if toHost then s.stile.rxF else s.stile.rxH) (if toHost then s.stile.nakF else s.stile.nakH)

/-- Do messages cross the Stile, be it by a replay (FIELD is UP and the field side has not lost it)? -/
def State.linked (s : State) : Bool := s.get F.ST_STATUS_FIELD == 3 && !s.stile.lost

/-- Is the Stile carrying messages, with no replay awaited in either direction? -/
def State.fieldUp (s : State) : Bool := s.linked && (s.stile.clear true && s.stile.clear false)

/-! ### Detection (R454–R456, R466) -/

namespace State

/-- Is a detector's class Unit, Device or Repair, so that FLT_FIRST may take it (R456)? -/
inductive Resp where
  | report | policy | unit | device | repair
  deriving DecidableEq, Repr

/-- Count a detection and, for the classes of R456, record it as first. Within one event cycle the lowest DET is kept. -/
def detect (s : State) (det unit_ : Nat) (cls : Resp) (injected : Bool) (owner : Option (Fin 16)) : State :=
  let s := s.count F.FLT_CNT_COUNT [det - 1]
  let k := Reg.key .FLT_FIRST []
  let held := s.tot F.FLT_FIRST_VALID
  let same := s.freshK k != 0 && decide (det < s.get F.FLT_FIRST_DET)
  if (cls = .unit ∨ cls = .device ∨ cls = .repair) ∧ (held = 0 ∨ same) then
    let s := (s.set F.FLT_FIRST_DET [] det).set F.FLT_FIRST_INJECTED [] injected.toNat
    let s := (s.set F.FLT_FIRST_UNIT [] unit_).set F.FLT_FIRST_SESSION [] ((owner.map (·.val)).getD 0)
    let s := s.set F.FLT_FIRST_NOSESS [] owner.isNone.toNat
    let s := (s.set F.FLT_FIRST_TBC_LO_TBC [] (s.now48 % 2 ^ 32)).set F.FLT_FIRST_TBC_HI_TBC [] (s.now48 / 2 ^ 32)
    s.raise F.FLT_FIRST_VALID
  else s

/-- Is an injection armed on detector `det` of a unit (R466)? -/
def injOn (s : State) (det unit_ : Nat) : Bool :=
  match s.flt.inj with
  | some i => i.det == det && i.unit_ == unit_
  | none => false

/-- Take one injection of a detector and unit, if one is armed (R466): whether this event receives it. -/
def takeInject (s : State) (det unit_ : Nat) : Bool × State :=
  match s.flt.inj with
  | some i =>
    if i.det = det ∧ i.unit_ = unit_ then
      if i.left ≤ 1 then
        (true, ((s.modFlt (fun f => { f with inj := none })).set F.FLT_INJ_CTRL_BUSY [] 0).raise F.FLT_INJ_CTRL_DONE)
      else (true, s.modFlt (fun f => { f with inj := some { i with left := i.left - 1 } }))
    else (false, s)
  | none => (false, s)

end State

/-! ### FIELD leaves UP (R425–R427) -/

namespace State

/-- Flags a sequence on a core shows: those of the span's start while a span is open (R156, R158). -/
def coreFlags (c : Core) : Nat :=
  match c.span with
  | some p => p.start.flags
  | none => c.ctx.flags

/-- The core a session's sequence holds, if any (R362). -/
def coreOf (s : State) (k : Fin 16) : Option (Fin 4) :=
  if s.sess[k].onCore then (List.finRange 4).find? (fun c => c.val == s.sess[k].core) else none

/-- F7–F0 of a session's running sequence, on its core or switched out (R142). -/
def runFlags (s : State) (k : Fin 16) : Nat :=
  match s.coreOf k with
  | some c => coreFlags s.cores[c]
  | none => match s.sess[k].saved with
    | some x => x.flags
    | none => 0

/-- F7–F0 of an instance: those of the session's sequence, or of the burst's last one, when it is the START or SHOT that runs; else 0 (R142, R397). -/
def instFlags (s : State) (k : Fin 16) (i : Inst) : Nat :=
  let x := s.sess[k]
  if x.hasTag && x.tag == i.tag && x.epoch == i.epoch then
    match x.seq with
    | some q => if q.ended then q.flagsF else s.runFlags k
    | none => x.tally.flagsF
  else 0

/-- An instance whose completion has not been formed is completed by the H-die itself with FAULT (R397, R427). -/
def failInst (s : State) (k : Fin 16) (i : Inst) : State :=
  if i.ended then s
  else (s.endInst k i.tag i.epoch).deliverCompletion k
    ⟨completionBytes i.tag i.opcode Status.fault.code 1 (s.instFlags k i) (i.epoch + 16 * worseQ s.quality (s.instWorst k i.tag i.epoch)) 0 0 s.now48,
      i.intr, some (i.tag, i.epoch)⟩

/-- Every live instance is completed with FAULT, held commands included (R427). -/
def failLive (s : State) : State :=
  s.overSess (fun k s =>
    let s := s.host[k].live.foldl (fun s i => s.failInst k i) s
    s.modHost k (fun h => { h with queue := [], held := false }))

/-- ST_STATUS.FIELD takes a value other than UP (R425, R427). -/
def fieldLeave (s : State) (st : Nat) : State :=
  let up := s.get F.ST_STATUS_FIELD == 3
  let s := s.set F.ST_STATUS_FIELD [] st
  if up then (s.raise F.ST_EVENTS_FIELD_DOWN).failLive else s

end State

/-! ### Frames that fail (R420, R422) -/

namespace State

/-- The receiver of a direction asks for a replay, which arrives within `n` event cycles of the last failure (R417, R420, R424). -/
def askReplay (s : State) (toHost : Bool) (n : Nat) : State :=
  s.modStile (fun x =>
    if toHost then { x with nakH := true, replayF := none, waitH := max x.waitH n }
    else { x with nakF := true, replayH := none, waitF := max x.waitF n })

/-- A frame fails its CRC; the eighth failure in a row exhausts retries (R420, R422, R425, R455). A replay takes at most 1.0 µs, 800 event
cycles (R417). -/
def frameFail (s : State) (toHost : Bool) : State :=
  let d := toHost.toNat
  let a := s.takeInject 7 d
  let s := a.2.detect 7 d .report a.1 none
  let s := if toHost then s.count F.ST_CNT_CRC_ERR else s.count F.ST_F_CNT_CRC_ERR
  let s := (s.modStile (fun x => if toHost then { x with failsH := x.failsH + 1 } else { x with failsF := x.failsF + 1 })).askReplay toHost 800
  if 8 ≤ (if toHost then s.stile.failsH else s.stile.failsF) then
    let b := s.takeInject 9 d
    ((b.2.raise F.ST_EVENTS_RETRY_EXHAUST).detect 9 d .policy b.1 none).fieldLeave 4
  else s

end State

/-! ### Messages that cross (R420, R421, R426, R428) -/

/-- A message crosses at once, and `act` is what it does; behind a replay it waits its turn, and an armed injection inverts the CRC of its first frame,
once or on eight consecutive sends (R420, R421, R455). -/
def State.cross (s : State) (toHost : Bool) (p : Packet) (act : State → State) : State :=
  if !s.stile.clear toHost then s.keepSent toHost p
  else if s.injOn 7 toHost.toNat then (s.keepSent toHost p).frameFail toHost
  else if s.injOn 9 toHost.toNat then (List.range 8).foldl (fun s _ => s.frameFail toHost) (s.keepSent toHost p)
  else act (s.passFrames toHost p)

/-- A BAR0 write of the host reaches the F-die: behind a replay it waits its turn (R421), and while FIELD is not UP it is discarded and counted (R426). -/
def State.toField (s : State) (p : Packet) (act : State → State) : State :=
  if s.linked then s.cross false p act else s.count F.ST_DOWN_CNT_DOWN_WR []

/-- A write of a register of the F-die that sets a strobe bit of it, the register's other bits as they stand (R426). -/
def State.hostStrobe (s : State) (r : Reg) (ix : List Nat) (b : Nat) (act : State → State) : State :=
  s.toField (.barWr (r.key ix) (BitVec.ofNat 32 (withBit (s.getK (r.key ix)).toNat b))) act

/-- The answer to a BAR0 read of an F-die register while FIELD is not UP (R426). -/
def State.downRead (s : State) : State := (s.count F.ST_DOWN_CNT_DOWN_RD []).reply 0xFFFFFFFF

/-- The answer to a BAR0 read goes back to the host. -/
def State.answer (r : Word × State) : State := r.2.cross true (.barRsp r.1) (fun s => s.reply r.1)

/-- A BAR0 read of the host reaches the F-die, and its answer, which `act` gives with the state after it, goes back (R421, R426). -/
def State.readField (s : State) (p : Packet) (act : State → Word × State) : State :=
  if s.linked then s.cross false p (fun s => State.answer (act s)) else s.downRead

/-- Send a message to the H-die: behind a replay it waits its turn (R420, R421), and while the Stile is lost it is held (R428). -/
def State.sendMsg (s : State) (n : Fin 16) (m : Msg) : State :=
  if s.linked then s.cross true (.msg n m) (fun s => s.deliverMsg n m)
  else s.modStile (fun x => { x with out := x.out ++ [(n.val, m)] })

/-- Send a completion entry of an instance. -/
def State.sendRing (s : State) (n : Fin 16) (tag epoch : Nat) (bytes : List Byte) (intr : Bool) : State :=
  s.sendMsg n (.ringPost 1 bytes intr (some (tag, epoch)))

/-- Write bytes of host memory for session `n`. -/
def State.hostWrite (s : State) (n : Fin 16) (a : Nat) (bs : List Byte) (inst : Option (Nat × Nat)) : State :=
  s.sendMsg n (.hostWr a bs inst)

/-- COMPLETION_POST: complete an instance, once (R397). COND carries the flag of the status itself where it has one (R398). -/
def State.complete (s : State) (n : Fin 16) (tag epoch opcode : Nat) (st : Status) (cond f q d0 d1 : Nat) : State :=
  let c := match st with
    | .fault => withBit cond Cond.fault
    | .aborted => withBit cond Cond.aborted
    | .maskStop => withBit cond Cond.maskStop
    | .timeout => withBit cond Cond.timeout
    | .degraded => withBit cond Cond.degraded
    | _ => cond
  if s.instEnded n tag epoch then s
  else (s.endInst n tag epoch).sendRing n tag epoch
    (completionBytes tag opcode st.code c f (epoch + 16 * worseQ q (s.instWorst n tag epoch)) d0 d1 s.now48) (s.instIntr n tag epoch)

end Sys2Proof.Machine
end

