-- ==== Sys2Proof/Machine/AoOps.lean ====
section
/-! DEFINITION. Values of the analogue outputs: spans and park values, the sources, the resampler and the output states
(spec/11_analogue_outputs.md). -/

namespace Sys2Proof.Machine

/-- What an output stage does (R306): clamped to AGND, a voltage regulated at AOnS (else at AOnF), or a current out of AOnF. -/
inductive AoDrive where
  | clamp
  | voltage (v : Int) (atSense : Bool)
  | current (i : Int)
  deriving DecidableEq, Repr

/-- A span's least value and nominal width, in µV or nA (R295). -/
def spanScale (span : Nat) : Int × Int :=
  match span with
  | 0 => (0, 5000000)
  | 1 => (0, 10000000)
  | 2 => (-5000000, 10000000)
  | 3 => (-10000000, 20000000)
  | 4 => (0, 24000000)
  | _ => (4000000, 16000000)

/-- The value MIN + c × LSB that a code sets, in units of 2^-20 µV or nA (R295). -/
def codeValue (span : Nat) (c : Int) : Int := (spanScale span).1 * 2 ^ 20 + c * (spanScale span).2

/-- Is the span a current span? -/
def spanCurrent (span : Nat) : Bool := decide (4 ≤ span)

/-- Code of 0 V or 0 mA in a span (R311). -/
def spanZero (span : Nat) : Int :=
  match span with
  | 2 => 524288
  | 3 => 524288
  | 5 => -262144
  | _ => 0

/-- Is a value of an NVM entry representable in a span (R311)? -/
def parkFits (span : Nat) (p : Nat × Int) : Bool :=
  spanCurrent span == spanCurrent p.1 && decide ((spanScale span).1 ≤ p.2) &&
  decide ((p.2 - (spanScale span).1) * 1048576 ≤ 1048575 * (spanScale span).2)

/-- Nearest code of a value in a span (R311). -/
def parkRound (span : Nat) (v : Int) : Int :=
  (2 * (v - (spanScale span).1) * 1048576 + (spanScale span).2) / (2 * (spanScale span).2)

/-- Code of an output's park value in a span, 0 V or 0 mA when it is not representable there (R310, R311). -/
def parkCode (span : Nat) (p : Option (Nat × Int)) : Int :=
  match p with
  | some q => if parkFits span q then parkRound span q.2 else spanZero span
  | none => spanZero span

namespace State

/-- Committed sample period of an output. -/
def aoPeriod (s : State) (o : Nat) : Nat := s.act F.AO_SPER_PERIOD [o]

/-- Table entry of an output (R302); an entry never written is undefined. -/
def aoEntry (s : State) (o : Fin 16) (i : Nat) : Word :=
  smGet (BitVec.ofNat 32 (Config.aoTable o i)) s.aos[o].table i

/-- Fixed latency from a slot's or an edge's tick to the force ball (R293). -/
def aoLatency : Nat := 491520

/-- The tick whose slots and codes stand at the ball in the present event cycle: the resampler forms one value in each (R293, R298). -/
def aoTick (s : State) : Nat := s.now / 2048 * 2048 - aoLatency

/-- Does slot `x` go on from slot `e` without a break (R299)? -/
def sameRun (e x : AoSlot) : Bool := !e.held && !x.held && x.seg == e.seg

/-- Samples that play `p` still has to come, of those in `buf`, up to the boundary at which it holds, ends, jumps or is stopped, as it stands now. -/
def playAhead (s : State) (o : Fin 16) (per : Nat) (p : Play) : List Nat → List Int
  | [] => []
  | v :: buf =>
    let q := advance p
    if s.bound (.out o) p p.slotEnd = .stay ∧ q.phase ≠ 2 ∧ !p.wallSlip then
      ((v % 2 ^ 20 : Nat) : Int) :: playAhead s o per { q with next := q.next + 1, slotEnd := p.slotEnd + per } buf
    else []

/-- Samples of the segment in play that are still to come, in order, as far as they stand in the refill buffer (R298, R299). -/
def aoAhead (s : State) (o : Fin 16) : List Int :=
  let f := s.aos[o].feed
  match f.play with
  | none => []
  | some p => s.playAhead o (s.aoPeriod o) p (f.buf.take 16)

/-- Sixteen samples of one side, the last one extended (R298, R299). -/
def sixteen (l : List Int) (c : Int) : List Int := (l ++ List.replicate 16 (l.getLast?.getD c)).take 16

/-- Greatest magnitude by which ±0.01 dB of passband ripple moves a code `c` (R298). -/
def ripple (c : Int) : Int := c.natAbs * 1153 / 1000000 + 1

/-- A code within the passband ripple of `c`. -/
def nearCode (c v : Int) : Int := max (c - ripple c) (min (c + ripple c) v)

/-- Value of the band-limited kernel `d` ticks past the first sample of `back`: within the passband ripple of the sample at its instant, and of samples
that are all equal (R298). -/
def bandValue (back ahead : List Int) (d len : Nat) : Int :=
  let c := back.headD 0
  let v : Int := Config.bandLimited (back.map Int.toNat) (ahead.map Int.toNat) d len
  if d = 0 ∨ (back ++ ahead).all (· == c) then nearCode c v else v

/-- Value of the resampler under STORED at tick `t` (R298, R299): a held slot, the last sample before a break and the first after it are extended. -/
def aoResample (s : State) (o : Fin 16) (t : Nat) : Int :=
  let a := s.aos[o]
  let later := (a.slots.takeWhile (fun x => decide (t < x.at_))).reverse
  match a.slots.dropWhile (fun x => decide (t < x.at_)) with
  | [] => parkCode (s.act F.AO_CFG_SPAN [o]) a.park
  | e :: old =>
    let known := later.takeWhile (sameRun e)
    let next := known.map (fun x => x.code) ++ (if e.held || known.length != later.length then [] else s.aoAhead o)
    let len : Nat := match known with
      | x :: _ => x.at_ - e.at_
      | [] => s.aoPeriod o
    match s.act F.AO_CFG_INTERP [o] with
    | 0 => e.code
    | 1 => e.code + (next.head?.getD e.code - e.code) * ((t - e.at_ : Nat) : Int) / len
    | _ =>
      if e.held then e.code
      else bandValue (sixteen (e.code :: (old.takeWhile (sameRun e)).map (fun x => x.code)) e.code) (sixteen next e.code) (t - e.at_) len

/-- Did a segment play its passes, or repeat, on the output at tick `t` (R303)? -/
def aoGated (s : State) (o : Fin 16) (t : Nat) : Bool :=
  match s.aos[o].slots.find? (fun x => decide (x.at_ ≤ t)) with
  | some e => !e.held
  | none => false

/-- Code of the source that stands at the ball now (R293, R297, R303). An oscillator whose first code has not reached the ball leaves the value of
the stored samples there. -/
def aoSource (s : State) (o : Fin 16) : Int :=
  let t := s.aoTick
  let osc : Int := match s.aos[o].oscs.find? (fun x => decide (x.1 ≤ t)) with
    | some x => x.2
    | none => s.aoResample o t
  match s.act F.AO_CFG_SRC [o] with
  | 0 => s.aoResample o t
  | 1 => if s.act F.AO_CFG_GATE [o] == 0 || s.aoGated o t then osc else s.act F.AO_OFFSET_OFFSET [o]
  | _ => if s.act F.AO_CFG_GATE [o] == 0 || s.aoGated o t then osc else bitsOf (s.aoEntry o 0).toNat 0 20

/-- A slot without a played sample starts at tick `t`: the last sample is extended (R298, R299). -/
def aoHold (s : State) (o : Fin 16) (t : Nat) : State :=
  s.modAo o (fun a => { a with slots := match a.slots with
    | [] => []
    | e :: _ => (⟨t, e.code, e.seg, true⟩ :: a.slots).take 32 })

/-- The value toward which an output moves, by the ranks of R309. -/
def aoTarget (s : State) (o : Fin 16) : Int :=
  let a := s.aos[o]
  let span := s.act F.AO_CFG_SPAN [o]
  if !a.committed then parkCode span a.park
  else match a.heldVal with
    | some v => v
    | none => if a.safe ≠ .none then parkCode span a.park
      else if a.calHeld then a.value else s.aoSource o

/-- Does the slew limiter, or the move at the fixed rate, act on an output (R305)? -/
def aoLimited (s : State) (o : Fin 16) : Bool := s.act F.AO_SLEW_EN [o] == 1 || s.aos[o].moving

/-- Present value of an output as an internal code: without the limiter the value passes unchanged (R305). -/
def aoValue (s : State) (o : Fin 16) : Int :=
  if s.aos[o].calHeld || s.aoLimited o then s.aos[o].value else s.aoTarget o

/-- What an output does at its force ball at the present tick (R306, R309–R312): the driver off with the 10 kΩ clamp to AGND on, or its value in units of
2^-20 µV or nA. -/
def aoDrive (s : State) (o : Fin 16) : AoDrive :=
  let span := s.act F.AO_CFG_SPAN [o]
  if s.aos[o].clamped then .clamp
  else if spanCurrent span then .current (codeValue span (s.aoValue o))
  else .voltage (codeValue span (s.aoValue o)) (s.act F.AO_CFG_SENSE [o] == 1)

/-- Is the sense ball AOnS high impedance: the output does not regulate or measure there (R306)? -/
def aoSenseHigh (s : State) (o : Fin 16) : Bool := s.act F.AO_CFG_SENSE [o] == 0

/-- Fix the present value before something changes the target. -/
def aoCatch (s : State) (o : Fin 16) : State := let v := s.aoValue o; s.modAo o (fun a => { a with value := v })

/-- AO_FAULT_STATE: an output enters its fault state, or its abort state under ABORT_ACT (R311). -/
def aoSafe (s : State) (o : Fin 16) (kind : SafeKind) : State :=
  let hold := decide (kind = .abort) && s.act F.AO_CFG_ABORT_ACT [o] == 0
  let v := s.aoValue o
  let s := { s with due := s.due.filter (fun d => match d.act with
    | .aoMarkers i _ => i != o.val
    | _ => true) }
  (s.aoHold o s.now).modAo o (fun a => { a with
    value := v, safe := kind, heldVal := if hold then some v else none, moving := !hold || a.moving,
    feed := a.feed.clear })

end State

end Sys2Proof.Machine
end

