-- ==== Sys2Proof/Machine/CalOps.lean ====
section
/-! DEFINITION. Calibration units and their order (R340–R351): due, held and abandoned causes, staleness, and corrections coming into force. -/

namespace Sys2Proof.Machine

namespace State

def modCal (s : State) (f : Calib → Calib) : State := { s with cal := f s.cal }

def modCalUnit (s : State) (u : Fin 36) (f : CalUnit → CalUnit) : State :=
  s.modCal (fun c => { c with units := c.units.set u (f c.units[u]) })

/-- Is a code a unit of R340? -/
def calCode (u : Nat) : Bool := decide (u ≤ 12) || (decide (16 ≤ u) && decide (u < 36))

/-- CAL_UNIT_STAT.STATE of a unit. -/
def calState (s : State) (u : Nat) : Nat := s.get F.CAL_UNIT_STAT_STATE [u]

/-- Is a unit calibrating, hence stale (R350)? A pending unit still is. -/
def calibrating (s : State) (u : Nat) : Bool := s.calState u == 3 || s.calState u == 4

def sliceStale (s : State) (n : Nat) : Bool := s.calibrating n

/-- Is a time-measurement input calibrating (R350)? -/
def inputStale (s : State) (i : Nat) : Bool := s.calibrating (if i < 96 then i / 8 else 12)

/-- CAL_STATUS.DUE shows the units due and not yet started. -/
def showDue (s : State) : State := s.set F.CAL_STATUS_DUE [] s.cal.due.length

/-- Place in the order: by event cycle, within one by code (R345). -/
def dueInsert (c u : Nat) : List (Nat × Nat) → List (Nat × Nat)
  | [] => [(c, u)]
  | h :: t => if h.1 < c ∨ (h.1 = c ∧ h.2 < u) then h :: dueInsert c u t else (c, u) :: h :: t

/-- A unit becomes due with a cause (R343, R344). A temperature cause is judged afresh later, so another cause takes its place. -/
def calDue (s : State) (u : Fin 36) (cause : Nat) : State :=
  if s.calState u = 2 then s
  else if s.calibrating u then
    s.modCalUnit u (fun x => { x with heldCause := if x.heldCause.isNone || x.heldCause == some 1 then some cause else x.heldCause })
  else
    let s := (s.modCalUnit u (fun x => { x with cause := cause })).modCal (fun c => { c with due := dueInsert (s.now / 2048) u c.due })
    (s.set F.CAL_UNIT_STAT_STATE [u] 2).showDue

/-! ### Trims (R341, R346) -/

/-- Trims of a unit in their order: how many of a kind, the greatest magnitude in steps, and the tolerance between two measurements in steps (R341, R346,
log 66). A slice has phase (nine paths and eight sets of TG8), phase-step, vernier, TDC offset, TDC phase-step, TDC vernier, comparator offset, level gain and
level offset; the TRIG group its TDC trims; an output its offset and gain. -/
def trimKinds (u : Nat) : List (Nat × Nat × Nat) :=
  if u < 12 then [(17, 1024, 39), (576, 157, 156), (9, 32, 39), (8, 1024, 39), (1024, 157, 156), (16, 32, 39), (16, 160, 16), (8, 200, 4), (8, 80, 16)]
  else if u = 12 then [(16, 1024, 39), (2048, 157, 156), (32, 32, 39)]
  else if u < 32 then [(2, 20971, 128)]
  else []

/-- Limit and tolerance of trim `i`; a trim beyond the kinds is internal to the unit and has no stated limit (R341). -/
def trimAt (u : Nat) : List (Nat × Nat × Nat) → Nat → Option Nat × Nat
  | [], _ => (none, if u < 32 then 128 else 1)
  | (n, lim, tol) :: t, i => if i < n then (some lim, tol) else trimAt u t (i - n)

/-- Two sets of measurements in pairs, the shorter one filled with 0. -/
def pairUp : List Int → List Int → List (Int × Int)
  | [], b => b.map (fun y => (0, y))
  | x :: a, [] => (x, 0) :: a.map (fun y => (y, 0))
  | x :: a, y :: b => (x, y) :: pairUp a b

/-- A correction within its trim's range (R341). -/
def inTrim (lim : Option Nat) (x : Int) : Int :=
  match lim with
  | some m => max (-(m : Int)) (min (m : Int) x)
  | none => x

/-- The two sets of an attempt agree: no pair differs by more than its tolerance (R346). -/
def calAgree (u : Nat) (a b : List Int) : Bool :=
  ((pairUp a b).zipIdx).all (fun p => decide ((p.1.1 - p.1.2).natAbs ≤ (trimAt u (trimKinds u) p.2).2))

/-- The mean of two corrections, rounded to the step of the trim and kept in its range (R341, R346). -/
def trimMean (u i : Nat) (x y : Int) : Int :=
  let m := (x + y) / 2
  inTrim (trimAt u (trimKinds u) i).1 (if (x + y) % 2 = 0 then m else if Config.trimTie u i (x + y) then m + 1 else m)

/-- The accepted corrections of a unit: the mean of the two sets (R346). -/
def calMean (u : Nat) (a b : List Int) : SMap Int :=
  ((pairUp a b).zipIdx).filterMap (fun p => let m := trimMean u p.2 p.1.1 p.1.2; if m = 0 then none else some (p.2, m))

/-- State of a unit outside a run. -/
def calRest (s : State) (u : Fin 36) : State := s.set F.CAL_UNIT_STAT_STATE [u] s.cal.units[u].accepted.toNat

/-- The output of a unit code, if it is one. -/
def calOut (u : Nat) : Option (Fin 16) := if h : 16 ≤ u ∧ u < 32 then some ⟨u - 16, by omega⟩ else none

/-- An output's hold begins or ends (R309 rank 5, R350, R351). -/
def calHold (s : State) (u : Nat) (on : Bool) : State :=
  match calOut u with
  | some o => (s.aoCatch o).modAo o (fun a => { a with calHeld := on })
  | none => s

/-- After a run has ended, a cause held meanwhile makes the unit due again; TEMP is dropped when the run was accepted (R344). -/
def calHeldCause (s : State) (u : Fin 36) (accepted : Bool) : State :=
  match s.cal.units[u].heldCause with
  | none => s
  | some c =>
    let s := s.modCalUnit u (fun x => { x with heldCause := none })
    if c = 1 ∧ accepted then s else s.calDue u c

/-- Accepted corrections come into force, in one step for the whole unit (R351). -/
def calApply (s : State) (u : Fin 36) : State :=
  let s := s.modCalUnit u (fun x => { x with accepted := true, temp := x.runTemp, start := x.runStart, trims := x.cand, cand := [] })
  let s := (s.calRest u).set F.CAL_UNIT_STAT_DEGRADED [u] 0
  let s := s.set F.CAL_UNIT_STAT_TEMP [u] (patternOf s.cal.units[u].temp 12)
  (s.calHold u false).calHeldCause u true

/-- A slice's pending corrections act at a segment boundary, or when it becomes idle (R351). -/
def calSliceBoundary (s : State) (n : Fin 12) : State :=
  if s.calState n = 4 then s.calApply ⟨n, by omega⟩ else s

/-- The run engine is free again. -/
def calFree (s : State) : State := (s.modCal (fun c => { c with run := none, fails := 0 })).set F.CAL_STATUS_BUSY [] 0

/-- A run is abandoned: the unit is due again, its place renewed, and a cause held during the run with it (R344, R349). -/
def calAbandon (s : State) (u : Fin 36) : State :=
  if s.cal.run = some u then
    let c := s.cal.units[u].cause
    let s := ((s.calFree.count F.CAL_UNIT_CNT_ABANDONED [u]).calHold u false).calRest u
    (s.modCalUnit u (fun x => { x with heldCause := none })).calDue u c
  else s

end State

end Sys2Proof.Machine
end

