-- ==== Sys2Proof/Machine/Pins.lean ====
section
/-! DEFINITION. The pin channels (spec/04_pin_channels.md): levels and enables at the ball, the fault and abort actions, the reflex path
and the bank supplies. -/

namespace Sys2Proof.Machine

/-- Level that the edges placed up to tick `t` leave. -/
def laneLevel (l : Lane) (t : Nat) : Bool :=
  l.edges.foldl (fun v e => if e.at_ ≤ t then e.level.getD v else v) l.level

/-- Driver enable that the edges placed up to tick `t` leave. -/
def laneEnable (l : Lane) (t : Nat) : Bool :=
  l.edges.foldl (fun v e => if e.at_ ≤ t then e.enable.getD v else v) l.enable

/-- Tick of the last level change up to tick `t`. -/
def laneLast (l : Lane) (t : Nat) : Option Nat :=
  (l.edges.foldl (fun (p : Bool × Option Nat) e =>
    if e.at_ ≤ t then
      match e.level with
      | some v => if v = p.1 then p else (v, some e.at_)
      | none => p
    else p) (l.level, l.lastChange)).2

/-- Has the lane's driver turned on up to tick `t`, since its edges were last applied? One that is kept off has not (R119). -/
def laneDrove (l : Lane) (t : Nat) : Bool := !l.kept && (l.enable || l.edges.any (fun e => decide (e.at_ ≤ t) && e.enable == some true))

/-- Take the edges up to tick `t` as applied; the later ones stay on their way. -/
def laneApply (l : Lane) (t : Nat) : Lane :=
  { l with
    level := laneLevel l t, enable := laneEnable l t, lastChange := laneLast l t, driven := l.driven || laneDrove l t
    edges := l.edges.filter (fun e => decide (t < e.at_)) }

/-- Take the edges up to tick `t` as applied and drop the rest (R170: a cut period places no further edge). -/
def laneSettle (l : Lane) (t : Nat) : Lane := { laneApply l t with edges := [] }

/-- The lane's driver is kept off, or no longer, from tick `t` on. -/
def laneKeep (l : Lane) (t : Nat) (on : Bool) : Lane := if l.kept = on then l else { laneApply l t with kept := on }

/-- The compare of the period in play counts in MASKED (R117, R121). -/
def laneMask (l : Lane) : Lane := { l with cmp := l.cmp.map (fun c => { c with masked := true }) }

/-- First tick at or after `t` at which the level may change (R115). -/
def laneSpaced (l : Lane) (t : Nat) : Nat :=
  match l.lastChange with
  | some p => max t (p + 246)
  | none => t

/-- The vector's own course as a lane, while the ball is kept from it. -/
def trackLane (l : Lane) (v : Track) : Lane :=
  { l with level := v.level, enable := v.enable, edges := v.edges, lastChange := v.lastChange }

/-- A lane's course, to be kept apart from the ball. -/
def laneTrack (l : Lane) : Track := ⟨l.level, l.enable, l.edges, l.lastChange⟩

/-- The course that the vector takes: apart from the ball while the lane is forced or held. -/
def laneVec (l : Lane) : Track := l.vec.getD (laneTrack l)

/-- Would a change to level `v` at `t` be moved under R115? -/
def laneMoved (l : Lane) (t : Nat) (v : Bool) : Bool :=
  decide (laneLevel l t ≠ v) && decide (laneSpaced (laneSettle l t) t ≠ t)

/-- Bring a lane to a level and enable outside its vector, from tick `t` (R113, R115, R116, R120). -/
def laneDrive (l : Lane) (t : Nat) (v en : Bool) : Lane :=
  let b := laneSettle l t
  let b := { b with enable := en, driven := b.driven || (en && !b.kept) }
  if b.level = v then b else { b with edges := [⟨laneSpaced b t, some v, none⟩] }

/-- The ball of a lane's power-up state: level, enable and pull (R119). -/
def powerBall (code : Nat) : Bool × Bool × Pull :=
  match code with
  | 0 => (false, true, .none)
  | 1 => (true, true, .none)
  | 2 => (false, false, .down)
  | _ => (true, false, .up)

/-- Weak pull of a lane whose driver is off (R119, R120). -/
def lanePull (l : Lane) : Pull := if l.safe ≠ .none then l.safePull else if l.driven then .none else l.pull

/-- A lane in its fault or abort state under action `act` from tick `t` (R120); action 1 holds what the ball shows at that instant. -/
def laneSafe (l : Lane) (t : Nat) (act : Nat) (kind : SafeKind) : Lane :=
  let b := laneSettle l t
  let p := powerBall l.power
  let r := match act with
    | 0 => { laneDrive l t p.1 p.2.1 with safePull := p.2.2 }
    | 1 => { b with safePull := lanePull b }
    | 2 => { laneDrive l t false true with safePull := .none }
    | _ => { laneDrive l t false false with safePull := .down }
  { r with safe := kind, cmp := none, vec := if l.vec.isSome then some (laneTrack r) else none }

/-- Does the level change of a lane's action wait under R115? One that waits already is not moved again. -/
def safeMoved (l : Lane) (t act : Nat) (kind : SafeKind) : Bool :=
  (laneSafe l t act kind).edges.any (fun e => decide (e.at_ ≠ t) && (l.safe == .none || !l.edges.contains e))

/-- A lane takes its fault or abort state: a change that waits counts in EDGE_WIDEN, and a compare period that it cuts in MASKED (R115, R120, R124). -/
def State.safeLane (s : State) (n : Fin 12) (l : Fin 8) (t act : Nat) (kind : SafeKind) : State :=
  let ln := s.slices[n].lanes[l]
  let s := if safeMoved ln t act kind then s.count F.EP_EDGE_CNT0_EDGE_WIDEN [n, l] else s
  let s := if ln.cmp.isSome then s.count F.CH_LANE_CNT_MASKED [n, l] else s
  s.modLane n l (fun x => laneSafe x t act kind)

/-- Is a lane single-ended (R101)? -/
def State.laneSe (s : State) (n l : Nat) : Bool := s.act F.CH_LANE_CFG_MODE [n, l] != 0

/-- The bank of a slice: true VIOB (R104). -/
def State.sliceBank (s : State) (n : Nat) : Bool := s.act F.CH_SLICE_CFG_BANK [n] == 1

/-- Does any slice select the bank (R104: a bank that none selects is not judged)? -/
def State.bankUsed (s : State) (b : Bool) : Bool := (List.range 12).any (fun n => s.sliceBank n == b)

/-- Has the supply monitor found the bank in range? -/
def State.bankFound (s : State) (b : Bool) : Bool :=
  s.get (if b then F.CH_BANK_STATUS_VIOB_OK else F.CH_BANK_STATUS_VIOA_OK) [0] == 1

/-- Is a bank in range? One that no slice selects is never out of range (R104). -/
def State.bankOk (s : State) (b : Bool) : Bool := !s.bankUsed b || s.bankFound b

/-- Millivolts of a VIO class (R104). -/
def State.classMv (v : Nat) : Nat := [1200, 1500, 1800, 2500, 3300].getD v 4095

/-- The class of a bank: that of the first slice that selects it (R104). -/
def State.bankClass (s : State) (b : Bool) : Nat :=
  State.classMv (s.act F.CH_SLICE_CFG_VIO_CLASS [((List.range 12).find? (fun n => s.sliceBank n == b)).getD 0])

/-- Does a voltage in mV lie within 10 % of the bank's class (R104)? -/
def State.bankInRange (s : State) (b : Bool) (mv : Nat) : Bool :=
  decide (9 * s.bankClass b ≤ 10 * mv) && decide (10 * mv ≤ 11 * s.bankClass b)

/-- Is the lane's driver kept off by its bank (rank 2 of R118)? -/
def State.laneBankOff (s : State) (n l : Nat) : Bool := s.laneSe n l && !s.bankOk (s.sliceBank n)

/-- Every lane of a slice whose driver comes to be kept off, or no longer is, notes it at the present instant (R104, R105, R119). -/
def State.keepLanes (s : State) (n : Fin 12) : State :=
  s.mapLanes n (fun l x => laneKeep x s.now (s.laneBankOff n l || x.hiz))

/-- The ball of a lane at the present instant, by the ranks of R118: level, driver on, pull. -/
def State.ball (s : State) (n : Fin 12) (l : Fin 8) : Bool × Bool × Pull :=
  let ln := s.slices[n].lanes[l]
  let lv := laneLevel ln s.now
  let en := laneEnable ln s.now
  let x := { ln with driven := ln.driven || laneDrove ln s.now }
  if !s.stile.nvmRead then (lv, false, .none)
  else if s.laneBankOff n l || ln.hiz then (lv, false, lanePull x)
  else (lv, en, if en then .none else lanePull x)

/-- What a driver does at a channel's balls: nothing, a differential swing VP − VN in mV (R102), or a voltage of the P ball in mV through an output
impedance in ohms (R103). -/
inductive Drive where
  | off
  | swing (mv : Int)
  | single (mv ohms : Nat)
  deriving DecidableEq, Repr

/-- A channel's ball pair: the driver, the weak pull of the P ball, high impedance of the N ball, and the 100 Ω termination (R101–R103, R118, R119). -/
structure BallPair where
  drive : Drive
  pull : Pull
  nOff : Bool
  term : Bool
  deriving DecidableEq, Repr

/-- The ball pair of a lane at the present instant. In the single-ended modes the N ball drives nothing, whether it is unused or the reference input,
and TERM is ignored; a bank supply is what the supply monitor last found. -/
def State.pair2 (s : State) (n : Fin 12) (l : Fin 8) : BallPair :=
  let b := s.ball n l
  let se := s.laneSe n l
  let swing : Int := 200 + 10 * (s.act F.CH_LANE_CFG_SWING [n, l] : Int)
  { drive := if !b.2.1 then .off
      else if se then .single (if b.1 then s.boot.bankMv[if s.sliceBank n then (1 : Fin 2) else 0] else 0) ([25, 40, 50].getD (s.act F.CH_LANE_CFG_ZOUT [n, l]) 50)
      else .swing (if b.1 then swing else -swing)
    pull := b.2.2
    nOff := se || !b.2.1
    term := s.stile.nvmRead && !se && s.act F.CH_LANE_CFG_TERM [n, l] == 1 }

/-! ### The window comparator (R99–R101, R106–R109, R509) -/

/-- Comparator input of a lane in µV: VP against AGND under SE-INT, else VP − VN (R101, R509). -/
def State.cmpInput (s : State) (n l : Nat) (vp vn : Int) : Int := if s.act F.CH_LANE_CFG_MODE [n, l] = 1 then vp else vp - vn

/-- A threshold code in µV (R106). -/
def thUv (mode code : Nat) : Int := if mode = 1 then 1000 * (code : Int) else 500 * signedOf code 12

/-- A lane's thresholds in µV: VTH_LO and VTH_HI. -/
def State.laneThs (s : State) (n l : Nat) : Int × Int :=
  let m := s.act F.CH_LANE_CFG_MODE [n, l]
  (thUv m (s.act F.CH_LVL_VTH_LO [n, l]), thUv m (s.act F.CH_LVL_VTH_HI [n, l]))

/-- Full width of the hysteresis band in µV (R108). -/
def hystUv (code : Nat) : Int := [0, 5000, 10000, 20000].getD code 0

/-- A value between two, at a free place. -/
def between (a b : Int) (k : Nat) : Int := min a b + (k % ((max a b - min a b).toNat + 1) : Nat)

/-- Was a point of the comparator judged while its thresholds settled, less than 200 ns, 327,680 ticks, after their change, or before it, so that a
sample at tick `t` sorts the held input anew (R109)? -/
def resorts (l : Lane) (p : CmpPoint) (t : Nat) : Bool := (l.oldTh.map (fun o => decide (o.at_ ≤ t) && decide (p.at_ < o.at_ + 327680))).getD false

/-- The thresholds against which a sample at tick `t` is judged: while they settle, somewhere between the old and the new (R109). -/
def State.thsAt (s : State) (n : Fin 12) (l : Fin 8) (t : Nat) : Int × Int :=
  let new := s.laneThs n l
  match s.slices[n].lanes[l].oldTh with
  | some o =>
    if t < o.at_ then (o.lo, o.hi)
    else if t < o.at_ + 327680 then
      (between o.lo new.1 (Config.settling (16 * n + 2 * l) t), between o.hi new.2 (Config.settling (16 * n + 2 * l + 1) t))
    else new
  | none => new

/-- The side of a threshold `th` on which an input lies, with hysteresis of full width `w`: a change takes effect when the input leaves the band on the
far side. At the very threshold, without hysteresis, the input counts as past it when `at_` says so (R99, R108). -/
def sideOf (was : Bool) (v th w : Int) (at_ : Bool) : Bool :=
  if w = 0 then decide (th < v) || (at_ && decide (v = th))
  else if w < 2 * (v - th) then true else if 2 * (v - th) < -w then false else was

/-- Band code of the sides (R99). -/
def bandCode (lo hi : Bool) : Nat := if hi then 2 else lo.toNat

/-- The comparator's last change up to tick `t`; before any input is known it shows band L. -/
def cmpAt (l : Lane) (t : Nat) : CmpPoint := (l.trace.find? (fun p => decide (p.at_ ≤ t))).getD ⟨0, 0, false, false⟩

/-- The comparator from tick `t` on, when its input is `v` then (R99, R108, R109). -/
def State.cmpMove (s : State) (n : Fin 12) (l : Fin 8) (t : Nat) (v : Int) : CmpPoint :=
  let old := cmpAt s.slices[n].lanes[l] t
  let th := s.thsAt n l t
  let w := hystUv (s.act F.CH_LVL_HYST [n, l])
  ⟨t, v, sideOf old.lo v th.1 w true, sideOf old.hi v th.2 w false⟩

/-- Comparator band code of a lane at tick `t` (R99): while its thresholds settle, and once they have settled, the input held is sorted anew (R109). -/
def State.laneBand (s : State) (n : Fin 12) (l : Fin 8) (t : Nat) : Nat :=
  let ln := s.slices[n].lanes[l]
  let p := cmpAt ln t
  let q := if resorts ln p t && !ln.trace.isEmpty then s.cmpMove n l t p.v else p
  bandCode q.lo q.hi

/-- Is the lane's comparator past the threshold that EDGE_TH names (R100, R315)? -/
def State.laneCross (s : State) (n : Fin 12) (l : Fin 8) : Bool :=
  let p := (s.slices[n].lanes[l].trace.head?).getD ⟨0, 0, false, false⟩
  if s.act F.CH_LVL_EDGE_TH [n, l] = 0 then p.hi else p.lo

/-- Put a change into a trace, latest first. -/
def tracePut (p : CmpPoint) : List CmpPoint → List CmpPoint
  | [] => [p]
  | q :: t => if p.at_ < q.at_ then q :: tracePut p t else p :: q :: t

/-- The part of a trace that reaches back to tick `t`. -/
def traceFrom (t : Nat) (l : List CmpPoint) : List CmpPoint :=
  l.filter (fun p => decide (t < p.at_)) ++ (l.find? (fun p => decide (p.at_ ≤ t))).toList

/-- A lane's balls take voltages at tick `t`. An idle slice needs no earlier change. -/
def State.laneVolts (s : State) (n : Fin 12) (l : Fin 8) (t : Nat) (vp vn : Int) : State :=
  let p := s.cmpMove n l t (s.cmpInput n l vp vn)
  let idle := s.slices[n].feed.play.isNone
  s.modLane n l (fun x => { x with vp := vp, vn := vn, trace := if idle then [p] else tracePut p x.trace })

/-- The balls of a slice's lanes, lane 0 first, take voltages at tick `t`. A lane that would pass the threshold of EDGE_TH has a crossing, of which
STAMP_EDGE tells (R99–R101, log 56). -/
def State.quietVolts (s : State) (n : Fin 12) (t : Nat) (balls : List BallVolts) : State :=
  overLanes (fun l s =>
    match balls[l.val]? with
    | none => s
    | some v =>
      let s' := s.laneVolts n l t v.p v.n
      if s.laneCross n l = s'.laneCross n l then s' else s) s

/-- New thresholds, or a new mode, act on a lane at the present instant: the old ones settle into them (R106, R109). -/
def State.newThs (s0 s : State) (n : Fin 12) (l : Fin 8) : State :=
  let old := s0.laneThs n l
  let x := s0.slices[n].lanes[l]
  let s := s.modLane n l (fun y => { y with oldTh := some ⟨old.1, old.2, s.now⟩ })
  if x.trace.isEmpty then s else s.laneVolts n l s.now x.vp x.vn

/-! ### Driver-control strobes (R110–R112) -/

/-- A strobe's assertions after its source was on from tick `a` to tick `b`, or is still on. The start comes LEAD ticks before and the end LAG ticks
after; assertions that overlap or lie less than 4,096 ticks apart merge, and one lasts at least 4,096 ticks (R111). Those over at tick `a` drop out
of the list, but for the latest. -/
def strobeAdd (l : List (Nat × Option Nat)) (a : Nat) (b : Option Nat) (lead lag : Nat) : List (Nat × Option Nat) :=
  let st := a - lead
  let e (x : Nat) : Option Nat := b.map (fun y => max (x + 4096) (y + lag))
  let keep (m : List (Nat × Option Nat)) := m.filter (fun p => decide (a < p.2.getD a))
  match l with
  | [] => [(st, e st)]
  | (x, none) :: m => (x, e x) :: keep m
  | (x, some y) :: m => if st < y + 4096 then (min x st, (e (min x st)).map (max y)) :: keep m else (st, e st) :: (x, some y) :: keep m

/-- Insert a tick into a rising list. -/
def tickInsert (t : Nat) : List Nat → List Nat
  | [] => [t]
  | h :: l => if t < h then t :: h :: l else if t = h then h :: l else h :: tickInsert t l

/-- Ticks after `t` at which a lane's enable may change. -/
def enableTicks (ls : List Lane) (t : Nat) : List Nat :=
  (ls.flatMap (fun x => (x.edges.filter (fun e => e.enable.isSome && decide (t < e.at_))).map (fun e => e.at_))).foldl (fun l x => tickInsert x l) []

/-- The source of a strobe at the present instant and as it is to change in the period in play: the OR of the driver enables of SRC 1, the marker of the
period for SRC 2 (R110). -/
def State.strobeSource (s : State) (n : Fin 12) (i : Fin 4) (t : Nat) : List (Nat × Bool) :=
  match s.act F.CH_DS_CFG_SRC [n, i] with
  | 1 =>
    let mask := s.act F.CH_DS_CFG_LANES [n, i]
    let mine := (List.finRange 8).filter (fun (l : Fin 8) => bitOf mask l && s.stile.nvmRead && !s.laneBankOff n l && !s.slices[n].lanes[l].hiz)
    let ls := mine.map (fun l => s.slices[n].lanes[l])
    (t :: enableTicks ls t).map (fun x => (x, ls.any (fun l => laneEnable l x)))
  | 2 =>
    match s.slices[n].feed.play with
    | some p => if bitOf s.slices[n].feed.markers (s.act F.CH_DS_CFG_MARKER [n, i]) && decide (t < p.slotEnd) then [(t, true), (p.slotEnd, false)] else [(t, false)]
    | none => [(t, false)]
  | _ => [(t, false)]

/-- The source's intervals as they stood at tick `t`: what was to come after it is open. -/
def strobeCut (t : Nat) (l : List (Nat × Option Nat)) : List (Nat × Option Nat) :=
  (l.filter (fun p => decide (p.1 < t))).map (fun p => (p.1, p.2.filter (fun e => decide (e ≤ t))))

/-- The source's intervals after its changes in turn. -/
def strobeRun (l : List (Nat × Option Nat)) (changes : List (Nat × Bool)) : List (Nat × Option Nat) :=
  changes.foldl (fun o x =>
    match o, x.2 with
    | (_, none) :: _, true => o
    | (a, none) :: m, false => (a, some x.1) :: m
    | _, true => (x.1, none) :: o
    | _, false => o) l

/-- The assertions that follow the intervals of a source (R111). -/
def strobeFold (past l : List (Nat × Option Nat)) (lead lag : Nat) : List (Nat × Option Nat) :=
  l.foldr (fun p o => strobeAdd o p.1 p.2 lead lag) past

/-- The strobes of a slice meet a change of their sources at tick `t`: their course from there on is placed anew. A new period, `fresh`, makes the
closed intervals before it past (R110, R111). -/
def State.strobeAt (s : State) (n : Fin 12) (t : Nat) (fresh : Bool) : State :=
  let nxt (i : Fin 4) : Strobe :=
    let old := s.slices[n].strobes[i]
    let cut := strobeCut t old.cur
    let done := cut.filter (fun p => fresh && p.2.isSome)
    if s.act F.CH_DS_CFG_SRC [n, i] = 0 then ⟨[], []⟩
    else ⟨strobeFold old.past done (s.act F.CH_DS_TIME_LEAD [n, i]) (s.act F.CH_DS_TIME_LAG [n, i]),
      strobeRun (cut.filter (fun p => !fresh || p.2.isNone)) (s.strobeSource n i t)⟩
  s.modSlice n (fun x => { x with strobes := Vector.ofFn nxt })

/-- The strobes of a slice meet a change of their sources at the present instant. -/
def State.strobeSync (s : State) (n : Fin 12) : State := s.strobeAt n s.now false

/-- Put every lane of a slice into its fault or abort state (R120). -/
def State.safeSlice (s : State) (n : Fin 12) (kind : SafeKind) : State :=
  let t := s.now
  let act (l : Nat) := s.act (if kind = .fault then F.CH_SAFE_FAULT_ACT else F.CH_SAFE_ABORT_ACT) [n, l]
  (s.overLanes (fun l u => u.safeLane n l t (act l) kind)).strobeSync n

/-- A lane leaves its fault or abort state (R120: the next segment, or a commit of the slice). -/
def laneUnsafe (l : Lane) : Lane := { l with safe := .none }

/-! ### The reflex path (R113–R117) -/

/-- Does an enabled reflex of a lane name cell `c`? -/
def State.reflexOf (s : State) (n : Fin 12) (l : Fin 8) (c : Nat) : Bool :=
  s.slices[n].committed && s.act F.CH_REFLEX_EN [n, l] == 1 && s.act F.CH_REFLEX_CELL [n, l] == c

/-- Level and enable of a lane forced to its alternate state (R113). -/
def altBall (l : Lane) (t alt : Nat) : Bool × Bool :=
  match alt with
  | 0 => (false, true)
  | 1 => (true, true)
  | _ => (laneLevel l t, false)

/-- A lane takes its alternate state at the present instant (R113, R115). -/
def State.driveAlt (s : State) (n : Fin 12) (l : Fin 8) : State :=
  let ln := s.slices[n].lanes[l]
  let t := s.now
  let b := altBall ln t (s.act F.CH_REFLEX_ALT [n, l])
  let s := if laneMoved ln t b.1 then s.count F.EP_EDGE_CNT0_EDGE_WIDEN [n, l] else s
  s.modLane n l (fun x => laneDrive x t b.1 b.2)

/-- One lane's force: nothing moves while a rank above the reflex holds the ball (R118); the assertion counts and shows FORCED all the same (DESIGN
CHOICE, log 78). -/
def State.forceLane (s : State) (n : Fin 12) (l : Fin 8) : State :=
  let ln := s.slices[n].lanes[l]
  let s := s.count F.CH_LANE_CNT_REFLEX_CNT [n, l]
  let s := s.modLane n l (fun x => { laneMask x with forced := true, unforce := false, vec := some (laneVec ln) })
  if ln.safe ≠ .none || ln.held then s else (s.driveAlt n l).strobeSync n

/-- REFLEX_ASSERT: the cell asserts and every lane that names it, and that a commit has not already forced for this assertion, takes its alternate state
(R113, R115, R117, log 49). -/
def execReflexAssert (c : Fin 64) (s : State) : Host.Outcome State Fault Refusal :=
  .next (s.overSlices (fun n => State.overLanes (fun l s =>
    if s.reflexOf n l c && (!s.slices[n].lanes[l].forced || s.slices[n].lanes[l].unforce) then s.forceLane n l else s)))

/-- The ball returns to the vector's course at tick `t`: its level and enable there, then its later edges (R95, R116, R121). -/
def laneReturn (l : Lane) (t : Nat) : Lane :=
  let v := laneVec l
  let x := trackLane l v
  let d := laneDrive l t (laneLevel x t) (laneEnable x t)
  { d with edges := d.edges ++ v.edges.filter (fun e => decide (t < e.at_)), vec := none }

/-- One lane's return from a force (R116). -/
def State.unforceLane (s : State) (n : Fin 12) (l : Fin 8) : State :=
  let ln := s.slices[n].lanes[l]
  if !ln.forced then s
  else if s.slices[n].feed.play.isSome then s.modLane n l (fun x => { x with unforce := true })
  else if ln.held then s.modLane n l (fun x => { x with forced := false, unforce := false })
  else if ln.safe ≠ .none then s.modLane n l (fun x => { x with forced := false, unforce := false, vec := none })
  else (s.modLane n l (fun x => { laneReturn x s.now with forced := false, unforce := false })).strobeSync n

/-- REFLEX_DEASSERT: the cell deasserts and its lanes return, at the next period boundary when they play (R116). -/
def execReflexDeassert (c : Fin 64) (s : State) : Host.Outcome State Fault Refusal :=
  .next (s.overSlices (fun n => State.overLanes (fun l s =>
    if s.act F.CH_REFLEX_CELL [n, l] == c.val then s.unforceLane n l else s)))

/-- MODE_CHANGE_HIZ_END: the high-impedance interval ends and the comparator is judged again (R105). -/
def execModeChangeHizEnd (n : Fin 12) (l : Fin 8) (s : State) : Host.Outcome State Fault Refusal :=
  .next (((s.modLane n l (fun x => if x.hiz then { x with hiz := false, hizTo := s.now } else x)).keepLanes n).strobeSync n)

/-- Write the bank's OK bit into every slice's CH_BANK_STATUS; drivers that it keeps off, or frees, note it. -/
def State.setBank (s : State) (b ok : Bool) : State :=
  let s := (List.range 12).foldl (fun s n =>
    s.set (if b then F.CH_BANK_STATUS_VIOB_OK else F.CH_BANK_STATUS_VIOA_OK) [n] ok.toNat) s
  s.overSlices (fun n s => s.keepLanes n)

/-- Does the slice have a single-ended lane on the bank? -/
def State.seOnBank (s : State) (b : Bool) (n : Nat) : Bool :=
  s.sliceBank n == b && (List.range 8).any (fun l => s.laneSe n l)

/-- The supply monitor finds the bank at a voltage. -/
def State.bankVolts (s : State) (b : Bool) (mv : Nat) : State :=
  { s with boot := { s.boot with bankMv := if b then s.boot.bankMv.set 1 mv else s.boot.bankMv.set 0 mv } }

/-- SUPPLY_BANK_RETURN: the bank is back within 10 % of its class; a voltage that is not leaves it out of range (R104, R118). -/
def execSupplyBankReturn (m : BankReading) (s : State) : Host.Outcome State Fault Refusal :=
  let b := m.viob
  let s := s.bankVolts b m.mv
  .next (if s.bankInRange b m.mv then
      ((s.setBank b true).set F.FLT_SUPPLY_OK [] (putBits (s.get F.FLT_SUPPLY_OK) (if b then 4 else 3) 1 1)).overSlices (fun n s => s.strobeSync n) else s)

end Sys2Proof.Machine
end

