-- ==== Sys2Proof/Machine/SeqEnd.lean ====
section
/-! DEFINITION. Ownership (R354), the ending of a session's sequence (R20, R44, R120, R148, R154, R157, R311) and the fault detectors'
shared responses (R454–R456). -/

namespace Sys2Proof.Machine

namespace State

/-! ### Ownership -/

/-- The session whose active ownership field has a bit (R354). -/
def ownerOf (s : State) (f : Fld) (i : Nat) : Option (Fin 16) :=
  (List.finRange 16).find? (fun k => bitOf (s.act f [k]) i)

def ownerSlice (s : State) (n : Nat) : Option (Fin 16) := s.ownerOf F.RM_OWN_UNITS_SLICES n
def ownerFw (s : State) (g : Nat) : Option (Fin 16) := s.ownerOf F.RM_OWN_UNITS_FW g
def ownerTg (s : State) (u : Nat) : Option (Fin 16) := s.ownerOf F.RM_OWN_UNITS_TG u
def ownerAo (s : State) (o : Nat) : Option (Fin 16) := s.ownerOf F.RM_OWN_IO_AO o
def ownerTrigIn (s : State) (k : Nat) : Option (Fin 16) := s.ownerOf F.RM_OWN_IO_TRIGIN k
def ownerMu (s : State) (u : Nat) : Option (Fin 16) := s.ownerOf F.RM_OWN_MEAS_MU u
def ownerMt (s : State) (m : Nat) : Option (Fin 16) := s.ownerOf F.RM_OWN_MEAS_MT m

def ownsSlice (s : State) (k : Fin 16) (n : Nat) : Bool := bitOf (s.act F.RM_OWN_UNITS_SLICES [k]) n
def ownsFw (s : State) (k : Fin 16) (g : Nat) : Bool := bitOf (s.act F.RM_OWN_UNITS_FW [k]) g
def ownsTg (s : State) (k : Fin 16) (u : Nat) : Bool := bitOf (s.act F.RM_OWN_UNITS_TG [k]) u
def ownsAo (s : State) (k : Fin 16) (o : Nat) : Bool := bitOf (s.act F.RM_OWN_IO_AO [k]) o
def ownsMu (s : State) (k : Fin 16) (u : Nat) : Bool := bitOf (s.act F.RM_OWN_MEAS_MU [k]) u
def ownsMt (s : State) (k : Fin 16) (m : Nat) : Bool := bitOf (s.act F.RM_OWN_MEAS_MT [k]) m
def ownsRegion (s : State) (k : Fin 16) (r : Nat) : Bool := bitOf (s.act F.RM_OWN_CS_REGIONS [k]) r

/-- Session owning a time-measurement input: its slice's, or the TRIG input's (R354). -/
def ownerInput (s : State) (i : Nat) : Option (Fin 16) :=
  if i < 96 then s.ownerSlice (i / 8) else s.ownerTrigIn (i - 96)

/-! ### Pending commits (R44, R45) -/

/-- Does a pending commit belong to a unit of session `k`? -/
def pendOf (s : State) (k : Fin 16) (p : PendCommit) : Bool :=
  match p.scope with
  | 2 => s.ownsSlice k p.unit_
  | 3 => s.ownsFw k p.unit_
  | 4 => s.ownsAo k p.unit_
  | 5 => s.ownsTg k p.unit_
  | _ => false

/-- Does a pending commit's unit play a HOLD or REPEAT segment (R45)? A generator does while a slice that plays its segment does. -/
def pendHolds (s : State) (p : PendCommit) : Bool :=
  let holds (q : Option Play) : Bool := (q.map (fun x => (x.seg.endAct == 2 || x.seg.endAct == 3) && !x.wallSlip)).getD false
  match p.scope with
  | 2 => holds s.slices[(Fin.ofNat 12 p.unit_ : Fin 12)].feed.play
  | 3 => s.slices.any (fun x => holds x.feed.play && (x.feed.play.map (fun q => q.seg.kind == 2 && q.seg.fw == p.unit_)).getD false)
  | 4 => holds s.aos[(Fin.ofNat 16 p.unit_ : Fin 16)].feed.play
  | _ => false

/-- Report the end of a commit that was not refused at its checks (R45, R46, R399): SEQ counts it, and SYS_COMMIT_STATUS or the
command's completion carries the status. -/
def reportCommit (s : State) (ring : Option (Nat × Nat × Nat)) (st : Status) : State :=
  let s := s.incWrap F.SYS_COMMIT_INFO_SEQ []
  match ring with
  | none =>
    (s.set F.SYS_COMMIT_STATUS_STATUS [] st.code).set F.SYS_COMMIT_STATUS_FIELD_ID [] 0
  | some (k, tag, epoch) =>
    if h : k < 16 then
      s.complete ⟨k, h⟩ tag epoch 3 st 0 0 s.quality 0 (s.get F.SYS_COMMIT_INFO_SEQ)
    else s

/-- PENDING shows whether a commit written to SYS_COMMIT still waits (R46). -/
def showPending (s : State) : State :=
  s.set F.SYS_COMMIT_STATUS_PENDING [] (s.commit.pends.any (fun p => p.ring.isNone)).toNat

/-- PENDING_COMMIT_DISCARD: discard the pending commits that `which` names with ABORTED (R44). -/
def discardPends (s : State) (which : PendCommit → Bool) : State :=
  let gone := s.commit.pends.filter which
  let s := s.modCommit (fun c => { c with pends := c.pends.filter (fun p => !which p) })
  (gone.foldl (fun s p => s.reportCommit p.ring .aborted) s).showPending

/-! ### Ending a sequence -/

/-- Flag of R398 that an ending status sets. -/
def endFlag (st : Status) : Option Nat :=
  match st with
  | .fault => some Cond.fault
  | .aborted => some Cond.aborted
  | .maskStop => some Cond.maskStop
  | .timeout => some Cond.timeout
  | .degraded => some Cond.degraded
  | _ => none

/-- Add a condition flag to a session's running sequence. -/
def seqCond (s : State) (k : Fin 16) (bit : Nat) : State :=
  s.modSess k (fun x => { x with seq := x.seq.map (fun q => { q with cond := withBit q.cond bit }) })

/-- Add a condition of a session's running START or SHOT that no ending status carries: it belongs to the instance, be its sequence running or not (R398). -/
def noteCond (s : State) (k : Fin 16) (bit : Nat) : State :=
  s.modSess k (fun x => if x.hasTag then { x with cond := withBit x.cond bit } else x)

/-- A core returns to idle; an open span is discarded whole (R157, R158). -/
def freeCore (s : State) (c : Fin 4) : State :=
  s.modCore c (fun x => { x with
    st := .idle, span := none, haltReq := false, abortReq := false, stepping := false,
    stallTimedOut := false, ctx := match x.span with | some p => p.start | none => x.ctx })

/-- May a shot of this status be followed by another (R374)? -/
def burstGoes (b : Burst) : Bool :=
  decide (b.shots < b.burst) && (match b.shotStatus with
    | .fault => false
    | .aborted => false
    | .maskStop => bitOf b.flags 0
    | .underrun => bitOf b.flags 1
    | .timeout => bitOf b.flags 2
    | _ => true)

/-- Since when a burst waits for a core at tick `t`: for its first shot since it began; for a later one since the tally before it closed and its spacing
passed; for the sequence of its shot since S, or since the lead unit's trigger (R363, R369, R373). -/
def shotWaits (t : Nat) (b : Burst) : Option Nat :=
  let since := match b.phase with
    | 0 => some b.sTick
    | 2 => if b.onTrigger then b.leadAt else some b.sTick
    | 6 => if burstGoes b then some (max (b.done.getD 0 + 409600) (b.sTick + b.spacing)) else none
    | _ => none
  since.filter (fun x => decide (x ≤ t))

/-- Since when a session waits for a core: its sequence to be started or resumed, or its burst (R363, R364, R373). -/
def waits (s : State) (k : Fin 16) : Option Nat :=
  match s.sess[k].waitSince with
  | some t => some t
  | none => s.sess[k].burst.bind (shotWaits s.now)

/-- The longest time a session waited for a core, in µs (R382). -/
def noteWait (s : State) (k : Fin 16) : State :=
  match s.waits k with
  | none => s
  | some t =>
    let us := min ((s.now - t) / ticksPerUs) (2 ^ 32 - 1)
    let key := Reg.key .RM_SESS_WAIT [k]
    s.putFresh key (BitVec.ofNat 32 (max (s.freshK key).toNat us))

/-- The session's sequence fetches no further word: its core is free and its flags are kept (R142, R148). -/
def stopSeq (s : State) (k : Fin 16) : State :=
  let s := if s.sess[k].waitSince.isSome then s.noteWait k else s
  let fl := s.runFlags k
  let s := match s.coreOf k with
    | some c => s.freeCore c
    | none => s
  s.modSess k (fun x => { x with
    onCore := false, saved := none, waitSince := none,
    seq := x.seq.map (fun q => if q.ended then q else { q with ended := true, flagsF := fl }) })

/-- Cut what the session's slices and outputs play: fault or abort states, empty queues; a slice whose corrections wait takes them as it becomes idle (R120,
R170, R311, R351). -/
def cutUnits (s : State) (k : Fin 16) (kind : SafeKind) : State :=
  let s := s.overSlices (fun n s =>
    if s.ownsSlice k n then
      ((s.safeSlice n kind).modSlice n (fun x => { x with feed := x.feed.clear })).calSliceBoundary n
    else s)
  s.overOutputs (fun o s => if s.ownsAo k o then s.aoSafe o kind else s)

/-- End a session's sequence with a status (R20): a hard fault or an abort cuts its units and discards their pending commits; every other ending
discards those of the units that play a HOLD or REPEAT segment (R44, R45). A hard fault discards every pending commit of the session's units, where R44
and R454 name only an abort (DESIGN CHOICE, log 73). -/
def endSeq (s : State) (k : Fin 16) (st : Status) : State :=
  if s.sess[k].seq.isSome then
    let s := s.stopSeq k
    let s := match endFlag st with
      | some b => s.seqCond k b
      | none => s
    match st with
    | .fault => (s.cutUnits k .fault).discardPends (fun p => s.pendOf k p)
    | .aborted => (s.cutUnits k .abort).discardPends (fun p => s.pendOf k p)
    | _ => s.discardPends (fun p => s.pendOf k p && s.pendHolds p)
  else s

/-! ### Fault detection (R454–R456) -/

/-- A read of the SRAM of a code corrects and counts an injected single error (R455, R458). -/
def sramCe (s : State) (code : Nat) (owner : Option (Fin 16)) : State :=
  let ce := s.takeInject 3 code
  if ce.1 then ce.2.detect 3 code .report true owner else ce.2

/-- Record a core's fault code and word address if SQ_FAULT is free (R154). -/
def coreFault (s : State) (c : Fin 4) (code addr : Nat) : State :=
  if s.tot F.SQ_FAULT_VALID [c] = 0 then
    ((s.set F.SQ_FAULT_CODE [c] code).set F.SQ_FAULT_ADDR [c] addr).raise F.SQ_FAULT_VALID [c]
  else s

/-- Latch the span record of a fault inside a span (R158). -/
def spanRecord (s : State) (c : Fin 4) : State :=
  match s.cores[c].span with
  | none => s
  | some p =>
    if s.tot F.SQ_SPAN_REC_VALID [c] = 0 then
      let s := (s.set F.SQ_SPAN_REC_START [c] p.head).set F.SQ_SPAN_REC_WORDS [c] p.words
      let s := s.set F.SQ_SPAN_REC_DEPTH [c] p.start.stack.length
      let s := (s.set F.SQ_SPAN_LC0_COUNT [c] p.start.lc0).set F.SQ_SPAN_LC1_COUNT [c] p.start.lc1
      let st := p.start.stack.reverse
      let s := (List.range 8).foldl (fun s i =>
        (s.set F.SQ_SPAN_STK_ENTRY_LO [c, i] (st.getD (2 * i) 0)).set F.SQ_SPAN_STK_ENTRY_HI [c, i] (st.getD (2 * i + 1) 0)) s
      s.raise F.SQ_SPAN_REC_VALID [c]
    else s

/-- CORE_HARD_FAULT: the sequence of core `c` ends with FAULT under a code of R153 (R154, R158). -/
def hardFaultCore (s : State) (c : Fin 4) (code : Nat) : State :=
  let s := (s.coreFault c code s.cores[c].ctx.pc).spanRecord c
  if h : s.cores[c].sess < 16 then s.endSeq ⟨s.cores[c].sess, h⟩ .fault else s

/-- A hard fault of another unit ends a session's sequence; its core records EXTERNAL (R153, R454). -/
def hardFaultSess (s : State) (k : Fin 16) : State :=
  match s.coreOf k with
  | some c => s.hardFaultCore c 8
  | none => s.endSeq k .fault

/-- A Unit fault of a slice: the sequence of the session that owns it ends, and the slice's channels follow R120. -/
def faultSlice (s : State) (n : Fin 12) : State :=
  let s := s.calAbandon ⟨n, by omega⟩
  match s.ownerSlice n with
  | some k => if s.sess[k].seq.isSome then s.hardFaultSess k else s.safeSlice n .fault
  | none => s.safeSlice n .fault

/-- A Unit fault of an output (R308, R311). -/
def faultOutput (s : State) (o : Fin 16) : State :=
  let s := s.calAbandon ⟨16 + o, by omega⟩
  let s := match s.ownerAo o with
    | some k => s.hardFaultSess k
    | none => s
  s.aoSafe o .fault

/-- A Device fault: every sequence ends, every channel and output takes its fault state (R454). -/
def faultDevice (s : State) : State :=
  let s := match s.cal.run with
    | some u => s.calAbandon u
    | none => s
  let s := s.overSess (fun k s => s.hardFaultSess k)
  let s := s.overSlices (fun n s => ((s.safeSlice n .fault).modSlice n (fun x => { x with feed := x.feed.clear })).calSliceBoundary n)
  s.overOutputs (fun o s => s.aoSafe o .fault)

/-- Raise a time-base event: its TB_EVENTS bit and its one-cycle Hedgerow pulse at the next event-clock edge (R76, R318). -/
def tbEvent (s : State) (bit : Nat) : State :=
  let k := Reg.key .TB_EVENTS []
  (s.putFresh k (BitVec.ofNat 32 (withBit (s.freshK k).toNat bit))).defer 1 (.tbPulse bit)

end State

end Sys2Proof.Machine
end

