-- ==== Sys2Proof/Machine/SegOps.lean ====
section
/-! DEFINITION. Segments and what a unit has ahead of it (spec/06_sequence_flow.md, R27–R35, R213–R239): the segment tables, the queues,
headroom, and the refill stream with its addresses and translations. -/

namespace Sys2Proof.Machine

/-! ### The segment table (R167) -/

/-- A shadow field: its entry when present. -/
def shadowField (v : Nat) : Option Nat := if bitOf v 15 then some (v % 4096) else none

/-- The descriptor that a 256-bit entry holds. -/
def segOf (v idx sess : Nat) : Seg where
  idx := idx
  kind := bitsOf v 0 3
  endAct := bitsOf v 3 3
  slip := bitOf v 6
  passJp := bitOf v 7
  ts := bitsOf v 8 6
  undr := bitsOf v 14 2
  jsrcA := bitsOf v 16 5
  jsrcB := bitsOf v 21 5
  fw := bitsOf v 26 2
  length := bitsOf v 32 32
  loops := bitsOf v 64 32
  jpInt := bitsOf v 96 32
  shA := shadowField (bitsOf v 128 16)
  shB := shadowField (bitsOf v 144 16)
  idleVec := bitsOf v 160 32
  va := bitsOf v 192 48
  sess := sess
  issue := 0

/-- Pin state of lane `l` in a slice-vector (R213). -/
def lanePin (v l : Nat) : Nat := bitsOf v (3 * l) 3

/-- Marker bits of a slice-vector (R213). -/
def vecMarkers (v : Nat) : Nat := bitsOf v 24 8

/-- The shadow that a request names. -/
def Seg.shadow (d : Seg) (b : Bool) : Option Nat := if b then d.shB else d.shA

/-- Does a segment's end action hold or repeat (R29, R174)? -/
def Seg.sticks (d : Seg) : Bool := d.endAct == 2 || d.endAct == 3

/-- Periods or samples that will begin after the present one (R29). -/
def headroom (f : Feed) : Nat :=
  let q := queueSegs f.queue
  let own := match f.play with
    | none => 0
    | some p => if p.wallSlip then 0
      else (p.seg.length - p.next) + p.seg.length * (p.seg.loops - p.pass - 1)
  let sticky := match f.play with
    | none => false
    | some p => !p.wallSlip && p.seg.sticks
  if sticky || q.any Seg.sticks then 2 ^ 32 - 1
  else min (own + (q.map (fun d => d.length * d.loops)).sum) (2 ^ 32 - 1)

/-- Number of a unit, by which its plane lies. -/
def PlayUnit.num : PlayUnit → Nat
  | .slice n => n
  | .out o => o

def PlayUnit.isOut : PlayUnit → Bool
  | .slice _ => false
  | .out _ => true

/-- Capacity of a unit's refill buffer (R228). -/
def PlayUnit.cap : PlayUnit → Nat
  | .slice _ => 8192
  | .out _ => 4096

namespace State

/-- Entry of a session's active table as a descriptor. -/
def segEntry (s : State) (k : Fin 16) (idx : Nat) : Seg := segOf (smGet 0 s.sess[k].segActive idx) idx k

/-- The shadow of a segment as the active table holds it: none when it is not present or has no pass (R173, R178). It keeps its parent's issue. -/
def shadowSeg (s : State) (d : Seg) (b : Bool) : Option Seg :=
  match d.shadow b with
  | none => none
  | some i => let x := s.segEntry (Fin.ofNat 16 d.sess) i; if x.loops = 0 then none else some { x with issue := d.issue }

/-! ### Units -/

def modFeed (s : State) (u : PlayUnit) (f : Feed → Feed) : State :=
  match u with
  | .slice n => s.modSlice n (fun x => { x with feed := f x.feed })
  | .out o => s.modAo o (fun x => { x with feed := f x.feed })

def modPlay (s : State) (u : PlayUnit) (f : Play → Play) : State :=
  s.modFeed u (fun x => { x with play := x.play.map f })

def unitOwner (s : State) : PlayUnit → Option (Fin 16)
  | .slice n => s.ownerSlice n
  | .out o => s.ownerAo o


def sliceHeadroom (s : State) (n : Fin 12) : Nat := headroom s.slices[n].feed

def aoHeadroom (s : State) (o : Fin 16) : Nat := headroom s.aos[o].feed

/-! ### Deposits (R27, R143, R171) -/

/-- Tick at which an idle unit starts after a deposit at the present instant (R171). -/
def startTick (s : State) : Nat := s.now / 2048 * 2048 + 8192

/-- Counters that slices and outputs keep alike: name of the slice's field, and of the output's. -/
def unitFld (u : PlayUnit) (a b : Fld) : Fld := match u with
  | .slice _ => a
  | .out _ => b

/-- The headroom of a unit as it stands: while it plays the least value seen, and the wall-low event on its fall below LOW_TH (R35). -/
def noteHeadroom (s : State) (u : PlayUnit) : State :=
  let h := headroom (s.feed u)
  let low := decide (h < s.get (unitFld u F.EP_WALL_CTRL_LOW_TH F.AO_WALL_CTRL_LOW_TH) [u.num])
  if (s.feed u).play.isNone then s.modFeed u (fun f => { f with low := low })
  else
    let s := match u with
      | .slice n =>
        let k := Reg.key .EP_WALL_MIN [n]
        let f := (s.freshK k).toNat
        if h = 2 ^ 32 - 1 ∨ (f ≠ 0 ∧ f ≤ h + 1) then s else s.putFresh k (BitVec.ofNat 32 (h + 1))
      | .out _ => s
    let s := if low && !(s.feed u).low then match u with
        | .slice n => s.defer 1 (.slPulse n 17)
        | .out o => s.defer 1 (.aoPulse o 6)
      else s
    s.modFeed u (fun f => { f with low := low })

/-- Deposit an entry into a unit's queue; an idle unit's start is set by its first descriptor, and a playing unit's headroom rises (R29, R35). A switch
entry that an idle unit finds at the head of its queue stays there until a descriptor follows it (log 47). -/
def deposit (s : State) (u : PlayUnit) (k : Nat) (e : WallEntry) : State :=
  let t := s.startTick
  State.noteHeadroom (u := u) <| s.modFeed u (fun f => { f with
    queue := f.queue ++ [e], sess := k,
    startAt := match e with
      | .seg _ => if f.play.isNone && f.startAt.isNone then some t else f.startAt
      | .ts _ => f.startAt })

def depositSlice (s : State) (n : Fin 12) (k : Nat) (e : WallEntry) : State := s.deposit (.slice n) k e

def depositAo (s : State) (o : Fin 16) (k : Nat) (d : Seg) : State := s.deposit (.out o) k (.seg d)

end State

/-! ### The refill stream (R215, R216, R224, R228) -/

/-- Vectors of each pass that a unit reads from its loop cache, all of them for a Furrow-generated segment (R228, R230). -/
def pinnedLen (f : Feed) (d : Seg) : Nat :=
  if d.kind = 2 then d.length
  else min d.length (((f.pins.find? (fun p => p.1 == d.idx)).map (·.2.length)).getD 0)

/-- A stretch of the stream: a segment, the first vector of the pass in hand, and the further passes, none without end. -/
structure Stretch where
  seg : Seg
  pinned : Nat
  next : Nat
  passes : Option Nat
  deriving DecidableEq, Repr

/-- A segment's stretch from its first vector. -/
def wholeStretch (f : Feed) (d : Seg) : Stretch :=
  ⟨d, pinnedLen f d, 0, if d.endAct = 3 then none else some (d.loops - 1)⟩

/-- The stream that follows the read point. -/
def stream (f : Feed) : List Stretch :=
  let q := (queueSegs f.queue).map (wholeStretch f)
  match f.play with
  | none => q
  | some p =>
    if p.wallSlip then q
    else ⟨p.seg, pinnedLen f p.seg, p.next,
      if p.seg.endAct = 3 then none else some (p.seg.loops - p.pass - 1)⟩ :: q

/-- The `j`-th buffered vector of a stream: its segment and its index within its pass. -/
def streamAt : List Stretch → Nat → Option (Seg × Nat)
  | [], _ => none
  | h :: t, j =>
    let lo := max h.next h.pinned
    let r := h.seg.length - lo
    if j < r then some (h.seg, lo + j)
    else
      let b := h.seg.length - h.pinned
      let j := j - r
      match h.passes with
      | none => if b = 0 then none else some (h.seg, h.pinned + j % b)
      | some n => if j < n * b then some (h.seg, h.pinned + j % b) else streamAt t (j - n * b)

namespace State

/-- Pattern virtual address of vector or sample `i` of a segment on a unit (R215, R216). -/
def vecVa (s : State) (u : PlayUnit) (d : Seg) (i : Nat) : Nat :=
  (d.va + u.num * s.act F.VS_PLANE_STRIDE [d.sess] * 65536 + 4 * i) % 2 ^ 48

/-- Physical field address of an address of a session's view (R359). -/
def viewPhys (s : State) (k a : Nat) : Nat := s.act F.RM_MEM_BASE_BASE [k] * 2 ^ 20 + a

/-- Bytes of a session's view. -/
def viewSize (s : State) (k : Nat) : Nat := s.act F.RM_MEM_SIZE_SIZE [k] * 2 ^ 20

/-- Does a range lie within a session's view? -/
def inView (s : State) (k a n : Nat) : Bool := decide (a + n ≤ s.viewSize k)

/-- View address of a slot of a session's page cache (R223). -/
def slotView (s : State) (k slot : Nat) : Nat := (s.act F.VS_PC_BASE_BASE [k] + slot) * 65536

/-- View address at which the data of a virtual address stands, when its page is translated and present and no fault is held for it (R222, R227). -/
def pageData (s : State) (k : Fin 16) (va : Nat) : Option Nat :=
  if s.sess[k].held.any (fun h => h.1 == va / 65536) then none else match s.sess[k].xlates.find? (fun x => x.page == va / 65536) with
  | none => none
  | some x =>
    if x.loc = 0 then some (x.base + va % 65536)
    else match s.sess[k].pages.find? (fun p => p.page == va / 65536 && p.bus == x.base && p.full && !p.late) with
      | some p => p.slot.map (fun i => s.slotView k i + va % 65536)
      | none => none

/-- A 32-bit vector or sample at a virtual address, when its page is present. -/
def vecData (s : State) (k : Fin 16) (va : Nat) : Option Nat :=
  (s.pageData k va).map (fun a => leVal (memBytes s.ddr (s.viewPhys k a) 4))

end State

namespace State

/-! ### Stops (R227, R235, R265) -/

/-- A stopped unit's queue is discarded, and an idle one holds nothing (R228). -/
def haltFeed (f : Feed) : Feed :=
  if f.play.isSome then { f with queue := [], startAt := none }
  else { f with queue := [], startAt := none, waitAt := none, owedRows := 0, reqs := [], buf := [] }

/-- Does a unit's next boundary or start lie in the event cycle of tick `t`, so that an underrun there meets it too (R239)? -/
def meetsCycle (f : Feed) (t : Nat) : Bool :=
  match f.play with
  | some p => p.slotEnd / 2048 == t / 2048
  | none => (f.startAt.map (fun x => x / 2048 == t / 2048)).getD false

/-- From tick `t` on every unit of the session stops at its next boundary; what waits in its queues is discarded, by a unit that has a boundary in the event
cycle of an underrun at that boundary (R235, R239, R265). -/
def haltUnits (s : State) (k : Fin 16) (t : Nat) : State :=
  let s := s.modSess k (fun x => { x with seq := x.seq.map (fun q => { q with halted := true, haltAt := some (q.haltAt.getD t) }) })
  let under := (s.sess[k].seq.map (·.under)).getD false
  let clr (f : Feed) : Feed := if under && meetsCycle f t then f else haltFeed f
  let s := s.overSlices (fun n s => if s.ownsSlice k n then s.modFeed (.slice n) clr else s)
  s.overOutputs (fun o s => if s.ownsAo k o then s.modFeed (.out o) clr else s)

/-- DETAIL0 of an underrun of a unit (R399). -/
def underDetail (u : PlayUnit) (last : Option Nat) : Nat :=
  (match last with
    | some i => i % 2 ^ 48
    | none => 2 ^ 48 - 1) + u.num * 2 ^ 48 + u.isOut.toNat * 2 ^ 52 + last.isNone.toNat * 2 ^ 53

/-- Record the index of a unit's last complete vector with the session's sequence; of two that stop it in one event cycle the
lower-numbered slice is named (R239, R399). -/
def noteUnder (s : State) (k : Fin 16) (u : PlayUnit) (flag : Nat) (stop : Bool) : State :=
  let d := underDetail u (s.feed u).vecIdx
  let unit_ (x : Nat) : Nat := x / 2 ^ 48 % 32
  s.modSess k (fun x => { x with seq := x.seq.map (fun q => { q with
    cond := withBit q.cond flag, under := q.under || stop,
    detail := if q.under && !(stop && decide (unit_ d < unit_ q.detail)) then q.detail else d }) })

/-- Set a sticky condition of a session's sequence (R135). -/
def sticky (s : State) (k : Fin 16) (f : Ctx → Ctx) : State :=
  match s.coreOf k with
  | some c => s.modCore c (fun r => { r with ctx := f r.ctx, span := r.span.map (fun p => { p with start := f p.start }) })
  | none => s.modSess k (fun x => { x with saved := x.saved.map f })

/-- A slip of wall or refill occurs in a sequence (R135, R136, R398). -/
def noteSlip (s : State) (k : Fin 16) : State := (s.sticky k (fun x => { x with slipSeen := true })).noteCond k Cond.slip

end State

end Sys2Proof.Machine
end

