-- ==== Sys2Proof/Machine/Calibration.lean ====
section
/-! DEFINITION. Calibration (spec/13_calibration.md): runs, attempts, quiet points and quality figures. -/

namespace Sys2Proof.Machine

namespace State

/-- The calibration units that a session owns: its slices, the TRIG group with a TRIG input, its outputs. -/
def calUnitsOf (s : State) (k : Fin 16) : List Nat :=
  (List.range 12).filter (fun n => s.ownsSlice k n) ++
  ((if s.act F.RM_OWN_IO_TRIGIN [k] = 0 then [] else [12]) ++
  ((List.range 16).filter (fun o => s.ownsAo k o)).map (· + 16))

/-- CAL_BUSY (R136, code 25). -/
def calBusyFor (s : State) (k : Fin 16) : Bool := (s.calUnitsOf k).any s.calibrating

/-- DEGRADED (R136, code 28; R348). -/
def degradedFor (s : State) (k : Fin 16) : Bool := (s.calUnitsOf k).any (fun u => s.get F.CAL_UNIT_STAT_DEGRADED [u] == 1)

/-- Is a due unit passed over (R345)? -/
def calBlocked (s : State) (u : Fin 36) : Bool :=
  if h : u.val < 12 then s.get F.TB_STATUS_STATE == 1 || (s.slices[u.val]'h).swap.isSome
  else if u.val = 12 then s.get F.TB_STATUS_STATE == 1
  else if 32 ≤ u.val then s.get F.TL_PORT_STAT_STATE [u.val - 32] != 2 && s.get F.TL_PORT_STAT_STATE [u.val - 32] != 3
  else if h : 16 ≤ u.val ∧ u.val < 32 then
    (s.aos[u.val - 16]'(by omega)).feed.play.isSome && s.get F.CAL_CFG_AO_PLAYING == 0 &&
    decide (s.cal.units[u].cause ≠ 0) && decide (s.cal.units[u].cause ≠ 3)
  else true

/-- A deposit into an output's queue abandons a run whose cause is TEMP, INTERVAL or CONFIG (R349). -/
def calDeposit (s : State) (o : Fin 16) : State :=
  let u : Fin 36 := ⟨16 + o, by omega⟩
  let c := s.cal.units[u].cause
  if c = 1 ∨ c = 2 ∨ c = 4 then s.calAbandon u else s

/-- A port's accepted corrections act at its next flit boundary (R351). -/
def calPortBoundary (s : State) (p : Fin 4) : State :=
  if s.calState (32 + p) = 4 then s.calApply ⟨32 + p, by omega⟩ else s

/-- The TRIG group's pending corrections act at an event-cycle boundary (R351). -/
def calTrigBoundary (s : State) : State := if s.calState 12 = 4 then s.calApply 12 else s

/-- A quality figure pair or value is recorded (R352). -/
def calQuality (s : State) (u : Fin 36) (q : List Nat) : State :=
  let pairs (base n : Nat) : State := (List.range n).foldl (fun s i =>
    (s.set F.CAL_CH_QUAL_T_RMS [base + i] (min 0xFFFE (q.getD (2 * i) 0))).set F.CAL_CH_QUAL_T_WORST [base + i]
      (min 0xFFFE (q.getD (2 * i + 1) 0))) s
  if u.val < 12 then pairs (8 * u.val) 8
  else if u.val = 12 then pairs 96 16
  else if u.val < 32 then
    (s.set F.CAL_AO_QUAL_RESID [u.val - 16] (min 0xFFFE (q.getD 0 0))).set F.CAL_AO_QUAL_SPAN [u.val - 16]
      (s.act F.AO_CFG_SPAN [u.val - 16])
  else (List.range 2).foldl (fun s l =>
    (s.set F.CAL_LN_QUAL_EYE_W [2 * (u.val - 32) + l] (min 0xFF (q.getD (2 * l) 0))).set F.CAL_LN_QUAL_EYE_H [2 * (u.val - 32) + l]
      (min 0xFFF (q.getD (2 * l + 1) 0))) s

/-- Every unit whose recorded temperature differs by more than TEMP_DELTA becomes due, once the NVM read has recorded one (R343). -/
def calTemp (s : State) (t : Int) : State :=
  let s := s.modCal (fun c => { c with lastTemp := t })
  let d := s.get F.CAL_CFG_TEMP_DELTA
  if s.stile.nvmRead = true ∧ s.get F.CAL_CFG_AUTO_EN = 1 ∧ d ≠ 0 then
    (List.finRange 36).foldl (fun s (u : Fin 36) =>
      let ref := if s.calibrating u then s.cal.units[u].runTemp else s.cal.units[u].temp
      if calCode u ∧ (d : Int) < (t - ref).natAbs then s.calDue u 1 else s) s
  else s

end State

/-- CAL_CMD.GO: the named unit, or every unit for 63, becomes due with COMMAND (R343, R344). -/
def State.calCmd (s : State) (u : Fin 64) : State :=
  if u.val = 63 then (List.finRange 36).foldl (fun s (v : Fin 36) => if State.calCode v then s.calDue v 3 else s) s
  else if h : u.val < 36 then (if State.calCode u then s.calDue ⟨u, h⟩ 3 else s)
  else s

/-- CAL_CMD: a write of CAL_CMD with GO (R343, R426). -/
def execCalCmd (u : Fin 64) (s : State) : Host.Outcome State Fault Refusal :=
  .next (s.toField (.barWr (Reg.key .CAL_CMD []) (BitVec.ofNat 32 (u + 2 ^ 31))) (fun s => s.calCmd u))

/-- CAL_INTERVAL_EXPIRY: CAL_INTERVAL seconds, of 1,638,400,000,000 ticks each, have passed since the start of the unit's last accepted run (R343). -/
def execCalIntervalExpiry (u : Fin 36) (s : State) : Host.Outcome State Fault Refusal :=
  .next (if State.calCode u ∧ s.get F.CAL_CFG_AUTO_EN = 1 ∧ s.get F.CAL_INTERVAL_SECONDS ≠ 0 ∧
    s.cal.units[u].start + s.get F.CAL_INTERVAL_SECONDS * 1638400000000 ≤ (s.now : Int) then s.calDue u 2 else s)

/-- CAL_RUN_START: the first due unit that is not passed over starts its run (R342, R345, R350). -/
def execCalRunStart (s : State) : Host.Outcome State Fault Refusal :=
  if s.cal.run.isSome then .next s
  else
    match s.cal.due.find? (fun p => !s.calBlocked (Fin.ofNat 36 p.2)) with
    | none => .next s
    | some p =>
      let u : Fin 36 := Fin.ofNat 36 p.2
      let s := s.modCal (fun c => { c with due := c.due.filter (· != p), run := some u, fails := 0 })
      let s := s.modCalUnit u (fun x => { x with runTemp := s.cal.lastTemp, runStart := (s.now : Int) })
      let s := (s.set F.CAL_UNIT_STAT_STATE [u] 3).set F.CAL_UNIT_STAT_CAUSE [u] s.cal.units[u].cause
      let s := (s.set F.CAL_UNIT_STAT_FAILED [u] 0).set F.CAL_STATUS_BUSY [] 1
      let s := if h : u.val < 12 then s.modSlice ⟨u.val, h⟩ (fun x => { x with staleIn := x.staleIn || x.feed.play.isSome }) else s
      .next (((s.set F.CAL_STATUS_UNIT [] u).showDue).calHold u true)

/-- CAL_ATTEMPT_END: the two measurements of an attempt, each a full set of corrections in steps of their trims, agree, and the run is accepted with
their mean and its quality figures, or disagree; the fourth disagreement fails the run (R341, R346, R348, R351, R352). -/
def execCalAttemptEnd (m : TrimSets) (quals : List Nat) (s : State) : Host.Outcome State Fault Refusal :=
  match s.cal.run with
  | none => .next s
  | some u =>
    if State.calAgree u m.first m.second then
      let s := (s.calFree.count F.CAL_UNIT_CNT_ACCEPTED [u]).modCalUnit u (fun x => { x with cand := State.calMean u m.first m.second })
      let s := s.calQuality u quals
      if h : u.val < 12 then
        if (s.slices[u.val]'h).feed.play.isNone then .next (s.calApply u) else .next (s.set F.CAL_UNIT_STAT_STATE [u] 4)
      else if u.val = 12 then .next ((s.set F.CAL_UNIT_STAT_STATE [u] 4).defer 1 .calTrig)
      else if u.val < 32 ∨ !s.portUp (Fin.ofNat 4 u) then .next (s.calApply u)
      else .next (s.set F.CAL_UNIT_STAT_STATE [u] 4)
    else if s.cal.fails = 3 then
      let s := ((s.calFree.count F.CAL_UNIT_CNT_REJECTED [u]).set F.CAL_UNIT_STAT_DEGRADED [u] 1).set F.CAL_UNIT_STAT_FAILED [u] 3
      .next (((s.calHold u false).calRest u).calHeldCause u false)
    else
      .next ((s.modCal (fun c => { c with fails := c.fails + 1 })).set F.CAL_UNIT_STAT_FAILED [u] (s.cal.fails + 1))

end Sys2Proof.Machine
end

