-- ==== Sys2Proof/Machine/Furrow.lean ====
section
/-! DEFINITION. The Furrow generators (spec/07_furrow_generator.md): registers, operations, the program cache, the execution of an
instruction, scrambling, pin maps, runs and the generator faults. -/

namespace Sys2Proof.Machine

/-! ### Furrow words (R202) -/

def fRepeat (w : Nat) : Nat := bitsOf w 0 16
def fFlow (w : Nat) : Nat := bitsOf w 16 3
def fCax (w : Nat) : Nat := bitsOf w 19 2
def fTarget (w : Nat) : Nat := bitsOf w 21 14
def fXop (w : Nat) : Nat := bitsOf w 35 3
def fYop (w : Nat) : Nat := bitsOf w 38 3
def fZop (w : Nat) : Nat := bitsOf w 41 3
def fFast (w : Nat) : Bool := bitOf w 44
def fSx (w : Nat) : Nat := bitsOf w 45 8
def fSy (w : Nat) : Nat := bitsOf w 53 8
def fSz (w : Nat) : Nat := bitsOf w 64 8
def fDsel (w : Nat) : Nat := bitsOf w 72 3
def fDphys (w : Nat) : Bool := bitOf w 75
def fCb (w : Nat) : Nat := bitsOf w 76 4
def fDop (w : Nat) : Nat := bitsOf w 80 3
def fDr (w : Nat) : Nat := bitsOf w 83 5
def fCm (w : Nat) : Nat := bitsOf w 88 2
def fC (w : Nat) : Nat := bitsOf w 90 4
def fSetEn (w : Nat) : Bool := bitOf w 94
def fSetReg (w : Nat) : Nat := bitsOf w 95 4
def fImm (w : Nat) : Nat := bitsOf w 128 32

/-- Width of a runtime register (R189). -/
def fwWidth (i : Nat) : Nat :=
  if i < 6 then 16 else if i < 9 then 8 else if i < 12 then 32 else if i < 14 then 24 else if i = 14 then 4 else 32

/-- Read a runtime register. -/
def Furrow.reg (f : Furrow) (i : Fin 16) : Nat := f.regs[i]

/-- Write a runtime register at its width. -/
def Furrow.setReg (f : Furrow) (i : Fin 16) (v : Nat) : Furrow := { f with regs := f.regs.set i (v % 2 ^ fwWidth i) }

/-! ### One vector (R194–R199) -/

/-- What a generator uses beside its registers: the scramble switches, offsets and table (R204). -/
structure FwEnv where
  xen : Bool
  yen : Bool
  xoff : Nat
  yoff : Nat
  gen : Nat
  table : SMap Nat
  deriving DecidableEq, Repr

/-- A scramble-table entry; one never written is undefined (R205, log 7). -/
def FwEnv.at (e : FwEnv) (i : Nat) : Nat := smGet (Config.scramble e.gen i % 65536) e.table i

/-- Output addresses X and Y (R204). -/
def Furrow.outXY (f : Furrow) (e : FwEnv) : Nat × Nat :=
  (if e.xen then e.at ((e.xoff + f.reg 1) % 65536) else f.reg 1,
   if e.yen then e.at ((e.yoff + f.reg 4) % 65536) else f.reg 4)

/-- Data word before DKEY (R198). -/
def Furrow.dataSel (f : Furrow) (e : FwEnv) (w : Nat) : Nat :=
  let xy := if fDphys w then f.outXY e else (f.reg 1, f.reg 4)
  let da := f.reg 9
  match fDsel w with
  | 0 => da
  | 1 => 2 ^ 32 - 1 - da
  | 2 => if bitOf xy.1 (fCb w) != bitOf xy.2 (fCb w) then da ^^^ f.reg 11 else da
  | 3 => da ^^^ (xy.2 * 65536 + xy.1)
  | _ => da ^^^ (f.reg 7 * 0x01010101)

/-- The 76-bit output word (R187, R198, R199, R204). -/
def Furrow.output (f : Furrow) (e : FwEnv) (w : Nat) : Nat :=
  let xy := f.outXY e
  let d := f.dataSel e w ^^^ f.reg 15
  let c := if fCm w = 1 then fC w else f.reg 14
  xy.1 + xy.2 * 2 ^ 16 + f.reg 7 * 2 ^ 32 + d * 2 ^ 40 + c * 2 ^ 72

/-- An axis operation: index, base, limit, step, whether the next lower axis carries, giving the index and the carry (R195). -/
def axisOp (op i b l st : Nat) (lower : Bool) : Nat × Bool :=
  let up := if l < i + st then (b, true) else (i + st, false)
  let down := if i < b + st then (l, true) else (i - st, false)
  match op with
  | 1 => up
  | 2 => down
  | 3 => (b, false)
  | 4 => if lower then up else (i, false)
  | 5 => if lower then down else (i, false)
  | _ => (i, false)

/-- Rotate a 32-bit word left (R198). -/
def rotl32 (v n : Nat) : Nat := (v * 2 ^ n + v / 2 ^ (32 - n)) % 2 ^ 32

/-- Data operation (R198). -/
def dataOp (op da db dinv dr : Nat) : Nat :=
  match op with
  | 1 => da ^^^ dinv
  | 2 => rotl32 da dr
  | 3 => rotl32 da ((32 - dr) % 32)
  | 4 => db
  | _ => da

/-- The address operations, the carry cascade and the data operation after a vector (R194–R198). -/
def Furrow.after (f : Furrow) (w : Nat) : Furrow :=
  let opX (low : Bool) := axisOp (fXop w) (f.reg 1) (f.reg 0) (f.reg 2) (fSx w) low
  let opY (low : Bool) := axisOp (fYop w) (f.reg 4) (f.reg 3) (f.reg 5) (fSy w) low
  let x := if fFast w then opX (opY false).2 else opX false
  let y := if fFast w then opY false else opY x.2
  let z := axisOp (fZop w) (f.reg 7) (f.reg 6) (f.reg 8) (fSz w) (if fFast w then x.2 else y.2)
  let da := dataOp (fDop w) (f.reg 9) (f.reg 10) (f.reg 11) (fDr w)
  { ((((f.setReg 1 x.1).setReg 4 y.1).setReg 7 z.1).setReg 9 da) with cx := x.2, cy := y.2, cz := z.2 }

/-- The flow of an instruction (R200): the registers, and the next word's index, none at HALT. -/
def Furrow.flow (f : Furrow) (w : Nat) : Furrow × Option Nat :=
  let tgt := fTarget w - f.base
  let nxt := f.ip + 1
  let carry := match fCax w with
    | 0 => f.cx
    | 1 => f.cy
    | _ => f.cz
  match fFlow w with
  | 0 => (f, some nxt)
  | 1 => (f, some tgt)
  | 2 => (f.setReg 12 (f.reg 12 - 1), some (if 1 < f.reg 12 then tgt else nxt))
  | 3 => (f.setReg 13 (f.reg 13 - 1), some (if 1 < f.reg 13 then tgt else nxt))
  | 4 => (f, some (if carry then tgt else nxt))
  | 5 => (f, some (if carry then nxt else tgt))
  | 6 => (f, some (if f.reg 12 = 0 then tgt else nxt))
  | _ => (f, none)

/-- Step 1 of R194. -/
def Furrow.setStep (f : Furrow) (w : Nat) : Furrow :=
  let f := if fSetEn w then f.setReg (Fin.ofNat 16 (fSetReg w)) (fImm w) else f
  if fCm w = 2 then f.setReg 14 (fC w) else f

/-- What a demand for the next vector brings: an output word, padding after HALT (R209), or the fault FW_SPIN (R201). -/
inductive FwOut where
  | word (w : Nat)
  | pad
  | spin
  deriving DecidableEq, Repr

/-- Run the program to its next vector (R194, R200, R201, R209). -/
def Furrow.next (f : Furrow) (e : FwEnv) : Nat → Furrow × FwOut
  | 0 => (f, .spin)
  | fuel + 1 =>
    if f.halted then (f, .pad)
    else
      let w := f.cache.getD f.ip 0
      match f.left with
      | none =>
        if fRepeat w = 0 ∧ 8 ≤ f.spin then (f, .spin)
        else
          let f := f.setStep w
          Furrow.next { f with left := some (fRepeat w), spin := if fRepeat w = 0 then f.spin + 1 else f.spin } e fuel
      | some 0 =>
        let r := f.flow w
        match r.2 with
        | some i => Furrow.next { r.1 with ip := i, left := none } e fuel
        | none => ({ r.1 with halted := true }, .pad)
      | some (n + 1) =>
        let o := f.output e w
        ({ (f.after w) with left := some n, spin := 0 }, .word o)

/-- A pass starts again at word 0 (R169, R197, R209). -/
def Furrow.newPass (f : Furrow) (pass : Nat) : Furrow :=
  { f with pass := pass, formed := 0, ip := 0, left := none, halted := false, spin := 0, word := none, cx := false, cy := false, cz := false }

namespace State

/-- Word stored at a control-store address. -/
def csWord (s : State) (a : Nat) : Option CsWord := (s.cs.words.find? (fun p => p.1 == a)).map (·.2)

/-! ### Registers and operations (R146, R190–R193) -/

/-- Committed initial value of a register at its width (R190). -/
def fwInit (s : State) (g : Fin 4) (i : Nat) : Nat := s.act F.FW_INIT_VALUE [g, i] % 2 ^ fwWidth i

/-- Load every runtime register from its initial value and clear the carry flags (R190). -/
def fwReload (s : State) (g : Fin 4) : State :=
  let v := Vector.ofFn (fun i : Fin 16 => s.fwInit g i)
  s.modFw g (fun f => { f with regs := v, cx := false, cy := false, cz := false })

/-- A load of the program cache begins (R192). -/
def fwLoadFrom (s : State) (g : Fin 4) (a : Nat) : State := s.modFw g (fun f => { f with pc := a, loading := true })

/-- One Furrow operation takes effect (R146, R189). -/
def fwApplyOp (s : State) (g : Fin 4) (op reg arg : Nat) : State :=
  let r : Fin 16 := Fin.ofNat 16 reg
  match op with
  | 1 => s.fwLoadFrom g (arg % 2 ^ 14)
  | 2 => s.modFw g (fun f => f.setReg r arg)
  | 3 => s.modFw g (fun f => f.setReg r (f.reg r + arg))
  | 4 => s.fwReload g
  | _ => s

/-- Does a descriptor run on generator `g`? -/
def isRun (g : Nat) (d : Seg) : Bool := d.kind == 2 && d.fw == g

/-- Does slice `n` play a run of the generator? -/
def playsRun (s : State) (g : Fin 4) (n : Fin 12) : Bool :=
  match s.slices[n].feed.play with
  | some p => isRun g p.seg && !p.wallSlip
  | none => false

/-- Does slice `n` hold a staged shadow of the generator (R182)? -/
def stagesOn (s : State) (g : Fin 4) (n : Fin 12) : Bool :=
  match s.slices[n].feed.play with
  | some p => (p.stagedA && (p.descA.map (isRun g)).getD false) || (p.stagedB && (p.descB.map (isRun g)).getD false)
  | none => false

/-- Is the generator reserved for a staged shadow (R182)? -/
def fwStaging (s : State) (g : Fin 4) : Bool := (List.finRange 12).any (fun n => s.stagesOn g n)

/-- Runs of the generator queued on slice `n`. -/
def queuedRuns (s : State) (g : Fin 4) (n : Fin 12) : List Seg := (queueSegs s.slices[n].feed.queue).filter (isRun g)

/-- Is a run of the generator queued or playing, or is it reserved for a staged shadow? -/
def fwActive (s : State) (g : Fin 4) : Bool :=
  s.fwStaging g || (List.finRange 12).any (fun n => s.playsRun g n || !(s.queuedRuns g n).isEmpty)

/-- Staged shadows of a play on the generator (R182). -/
def stagedRuns (g : Nat) (p : Play) : List Seg :=
  ([if p.stagedA then p.descA else none, if p.stagedB then p.descB else none].filterMap id).filter (isRun g)

/-- The generator's runs that slice `n` has queued, plays or holds staged. -/
def sliceRuns (s : State) (g : Fin 4) (n : Fin 12) : List Seg :=
  s.queuedRuns g n ++ (match s.slices[n].feed.play with
    | some p => (if s.playsRun g n then [p.seg] else []) ++ stagedRuns g p
    | none => [])

/-- Issue number of the generator's latest run queued, playing or staged. -/
def fwLatest (s : State) (g : Fin 4) : Nat :=
  (List.finRange 12).foldl (fun m n => (s.sliceRuns g n).foldl (fun m d => max m d.issue) m) 0

/-- Does an operation that reaches the generator wait: one of its segments is queued or playing, a staged shadow holds it, or an earlier operation
waits (R146, R182, R191, log 48)? -/
def fwHeld (s : State) (g : Fin 4) : Bool := s.fwActive g || !s.fws[g].ops.isEmpty

/-- An operation reaches a generator: it takes effect at once, or is pending behind every run issued before it (R146). -/
def fwQueueOp (s : State) (g : Fin 4) (op reg arg : Nat) : State :=
  if s.fwHeld g then s.modFw g (fun f => { f with ops := f.ops ++ [⟨op, reg, arg, s.fwLatest g⟩] })
  else s.fwApplyOp g op reg arg

/-- Room for pending operations (R146). -/
def fwRoom (s : State) (g : Fin 4) (n : Nat) : Bool := decide (s.fws[g].ops.length + n ≤ 16)

/-- Does the generator produce for a run: a gang slice plays or repeats its passes (R208, R209)? -/
def fwProducing (s : State) (g : Fin 4) : Bool :=
  (List.finRange 12).any (fun n => match s.slices[n].feed.play with
    | some p => isRun g p.seg && (p.phase == 1 || p.phase == 3)
    | none => false)

/-- Is the generator reserved for another staged shadow than `d`, which unit `v` would stage: the unit's own other one, or another unit's of another
segment (R182)? -/
def fwElsewhere (s : State) (g : Fin 4) (v : PlayUnit) (d : Seg) : Bool :=
  (List.finRange 12).any (fun n => match s.slices[n].feed.play with
    | some p => (stagedRuns g p).any (fun x => decide (v = .slice n) || x.idx != d.idx)
    | none => false)

/-- FW_STATUS.STATE (R192, R212). -/
def fwState (s : State) (g : Fin 4) : Nat :=
  let f := s.fws[g]
  if f.loading then 1
  else if f.faulted then 4
  else if s.fwProducing g then 3
  else if s.fwStaging g then 2
  else 0

/-- Is the generator idle with no pending operation (R136, code 19)? -/
def fwQuiet (s : State) (g : Fin 4) : Bool := s.fwState g == 0 && s.fws[g].ops.isEmpty

/-! ### Faults (R211) -/

/-- A generator fault: recorded if it is the first, and every sequence that uses the generator ends with FAULT. -/
def faultFw (s : State) (g : Fin 4) (code addr : Nat) (user : Option (Fin 16)) : State :=
  let s := if s.tot F.FW_STATUS_VALID [g] = 0 then
      ((s.set F.FW_STATUS_FAULT [g] code).set F.FW_STATUS_ERR_ADDR [g] addr).raise F.FW_STATUS_VALID [g]
    else s
  let s := s.modFw g (fun f => { f with faulted := true, run := none })
  let s := match user with
    | some k => s.hardFaultSess k
    | none => s
  match s.ownerFw g with
  | some k => s.hardFaultSess k
  | none => s

/-! ### Runs (R208–R210) -/

/-- Does slice `m` leave its segment at boundary `t`, so that it no longer uses its run? -/
def leavesAt (s : State) (m : Fin 12) (t : Nat) : Bool :=
  match s.slices[m].feed.play with
  | some p => p.slotEnd == t && s.bound (.slice m) p t != .stay
  | none => true

/-- Is slice `m` in the generator's run in hand, which goes on past boundary `t`? A run that starts at `t` is another. -/
def runsPast (s : State) (g : Fin 4) (m : Fin 12) (t : Nat) : Bool :=
  s.playsRun g m && (s.slices[m].feed.play.map (fun p => p.segStart) == s.fws[g].run.map (fun r => r.start)) && !s.leavesAt m t

/-- Does slice `m` hold the generator reserved past boundary `t` for a shadow (R182)? -/
def stagesPast (s : State) (g : Fin 4) (m : Fin 12) (t : Nat) : Bool := s.stagesOn g m && !s.leavesAt m t

/-- Is the generator reserved past boundary `t` for a shadow that a slice other than `n` staged (R182)? -/
def reservedPast (s : State) (g : Fin 4) (n : Fin 12) (t : Nat) : Bool :=
  (List.finRange 12).any (fun m => decide (m ≠ n) && s.stagesPast g m t)

/-- Does slice `m`, past boundary `t`, still hold a run of the generator issued no later than `i`: queued, playing or staged? -/
def runsIssued (s : State) (g : Fin 4) (i : Nat) (m : Fin 12) (t : Nat) : Bool :=
  (s.queuedRuns g m).any (fun d => decide (d.issue ≤ i)) ||
  (match s.slices[m].feed.play with
    | some p => ((s.playsRun g m && decide (p.seg.issue ≤ i)) || (stagedRuns g p).any (fun d => decide (d.issue ≤ i))) &&
        (decide (p.segStart = t) || !s.leavesAt m t)
    | none => false)

/-- The pending operations that wait for no run any more take effect at boundary `t`, in the order in which they were issued (R146, R191). -/
def fwTakeOps (s : State) (g : Fin 4) (t : Nat) : State :=
  let free := s.fws[g].ops.takeWhile (fun o => !(List.finRange 12).any (fun m => s.runsIssued g o.after m t))
  let s := s.modFw g (fun f => { f with ops := f.ops.drop free.length })
  free.foldl (fun s o => s.fwApplyOp g o.op o.reg o.arg) s

/-- The generator's run ends when its last slice leaves it; pending operations then take effect (R191, R209). The unit's pending commit,
which acts before them, is taken by the caller. -/
def fwRunOver (s : State) (g : Fin 4) (t : Nat) : Bool :=
  s.fws[g].run.isSome && ((s.fws[g].run.map (fun r => r.start != t)).getD false) && !((List.finRange 12).any (fun m => s.runsPast g m t))

/-- Slice `n` starts a run of generator `g` at tick `t` (R208, R210). A start on a generator that another slice's shadow reserves is FW_GANG (R182,
log 48). -/
def fwStart (s : State) (g : Fin 4) (n : Fin 12) (d : Seg) (t period : Nat) : State :=
  let k : Fin 16 := Fin.ofNat 16 d.sess
  let f := s.fws[g]
  if !bitOf (s.act F.FW_CFG_SLICES [g]) n then s.faultFw g 1 0 (some k)
  else if s.reservedPast g n t then s.faultFw g 1 0 (some k)
  else if f.loading || s.get F.FW_STATUS_PROG_OK [g] == 0 then s.faultFw g 3 f.pc (some k)
  else
    match f.run with
    | some r =>
      if r.seg = d.idx ∧ r.start = t ∧ r.period = period then s
      else if r.start = t ∨ (List.finRange 12).any (fun m => decide (m ≠ n) && s.runsPast g m t) then s.faultFw g 1 0 (some k)
      else s.modFw g (fun f => { (f.newPass 0) with run := some ⟨d.idx, t, period, d.sess⟩, faulted := false })
    | none => s.modFw g (fun f => { (f.newPass 0) with run := some ⟨d.idx, t, period, d.sess⟩, faulted := false })

/-- The scramble set-up of a generator (R204). -/
def fwEnv (s : State) (g : Fin 4) : FwEnv where
  xen := s.act F.FW_SCR_CFG_XEN [g] == 1
  yen := s.act F.FW_SCR_CFG_YEN [g] == 1
  xoff := s.act F.FW_SCR_OFS_XOFF [g]
  yoff := s.act F.FW_SCR_OFS_YOFF [g]
  gen := g
  table := s.fws[g].table

/-- The output word of vector `i` of pass `pass`, none where IDLE_VEC pads the pass; the first gang slice to ask makes the generator form it. A
fault ends the session's sequences. -/
def fwVector (s : State) (g : Fin 4) (pass i : Nat) : State × Option Nat :=
  let f0 := s.fws[g]
  let f := if f0.pass ≠ pass ∧ i = 0 then f0.newPass pass else f0
  if f.formed = i + 1 ∨ f.pass ≠ pass then (s, f.word)
  else
    let e := s.fwEnv g
    let r := f.next e 24
    match r.2 with
    | .word w =>
      let scr := e.xen || e.yen
      let s := if scr then s.sramCe (0x10 + g) (s.ownerFw g) else s
      let ue := if scr then s.takeInject 4 (0x10 + g) else (false, s)
      let s := ue.2
      if ue.1 then ((s.detect 4 (0x10 + g) .unit true (s.ownerFw g)).faultFw g 5 (r.1.base + r.1.ip) none, none)
      else (s.modFw g (fun _ => { r.1 with formed := i + 1, word := some w }), some w)
    | .pad =>
      let s := if f.halted then s else s.count F.FW_CNT_SHORT [g]
      (s.modFw g (fun _ => { r.1 with formed := i + 1, word := none }), none)
    | .spin => ((s.modFw g (fun _ => r.1)).faultFw g 4 (r.1.base + r.1.ip) none, none)

/-! ### Pin maps (R206, R207) -/

/-- Bit of the output word at a source index (R187). -/
def outBit (w idx : Nat) : Bool := if idx < 76 then bitOf w idx else idx == 127

/-- Pin state of a lane by its pin-map entry (R206). -/
def pinMap (w e : Nat) : Nat :=
  let b := outBit w (bitsOf e 0 7)
  let k := bitOf w (72 + bitsOf e 10 2)
  match bitsOf e 7 3 with
  | 0 => bitsOf e 12 3
  | 1 => if b then 1 else 0
  | 2 => if b then 0 else 1
  | 3 => if b then 5 else 4
  | 4 => if b then 4 else 5
  | 5 => if k then (if b then 1 else 0) else (if b then 5 else 4)
  | _ => if k then (if b then 1 else 0) else 7

/-- The slice-vector that slice `n` forms from an output word (R206, R207). -/
def mapWord (s : State) (n w : Nat) : Nat :=
  let lane (l : Nat) : Nat :=
    pinMap w (bitsOf (s.activeK (Reg.key .FW_PMAP [n, l / 2])).toNat (16 * (l % 2)) 16) * 2 ^ (3 * l)
  let mark (m : Nat) : Nat :=
    if outBit w (bitsOf (s.activeK (Reg.key .FW_PMRK [n, m / 4])).toNat (8 * (m % 4)) 7) then 2 ^ (24 + m) else 0
  ((List.range 8).map lane).sum + ((List.range 8).map mark).sum

/-- Slice-vectors that a generator in state `f` forms ahead for slice `n`, at most `fuel`; IDLE_VEC pads the pass after HALT (R180, R206, R209). -/
def fwAhead (s : State) (g : Fin 4) (n idle : Nat) (f : Furrow) : Nat → List Nat
  | 0 => []
  | fuel + 1 =>
    let r := f.next (s.fwEnv g) 24
    match r.2 with
    | .word w => s.mapWord n w :: fwAhead s g n idle r.1 fuel
    | .pad => idle :: fwAhead s g n idle r.1 fuel
    | .spin => []

end State

/-! ### The program cache (R192, R193) -/

/-- Copy words in ascending order from `a`: at most `n`, up to the first whose FLOW is HALT. -/
def cacheWords (cs : Nat → Option CsWord) (a : Nat) : Nat → List (Option CsWord)
  | 0 => []
  | n + 1 =>
    let w := cs a
    if fFlow ((w.map (·.bits)).getD 0) = 7 then [w] else w :: cacheWords cs (a + 1) n

/-- Does word `i` of a load of `len` words from `a` pass the checks of R193? -/
def cacheWordOk (owns : Nat → Bool) (a len i : Nat) (w : Option CsWord) : Bool :=
  match w with
  | none => false
  | some x =>
    let fl := fFlow x.bits
    x.kind == 2 && !(x.ecc.any (· == .double)) && owns ((a + i) / 1024) &&
    (fl == 0 || fl == 7 || (decide (a ≤ fTarget x.bits) && decide (fTarget x.bits < a + len))) &&
    (fl == 1 || fl == 7 || decide (i + 1 < len))

/-- FW_PROGRAM_LOADED: the load of the program cache completes and PROG_OK says whether every word passed (R192, R193). -/
def execFwProgramLoaded (g : Fin 4) (s : State) : Host.Outcome State Fault Refusal :=
  let f := s.fws[g]
  if !f.loading then .next s
  else
    let ws := cacheWords s.csWord f.pc (min 64 (16384 - f.pc))
    let owns (r : Nat) : Bool := match s.ownerFw g with
      | some k => s.ownsRegion k r
      | none => false
    let bad := (ws.zipIdx).find? (fun p => !cacheWordOk owns f.pc ws.length p.2 p.1)
    let s := s.modFw g (fun f => { f with
      loading := false, cache := ws.map (fun w => (w.map (·.bits)).getD 0), base := f.pc, faulted := false })
    let s := (s.set F.FW_STATUS_PLEN [g] ws.length).set F.FW_STATUS_PROG_OK [g] bad.isNone.toNat
    match bad with
    | some p => .next (s.set F.FW_STATUS_ERR_ADDR [g] (f.pc + p.2))
    | none => .next s

/-- FW_SCR_DATA: a table write while the generator is idle or loading; at any other time it is discarded and counted (R205). The access
steps INDEX under AUTOINC (R212). -/
def State.fwScrPut (s : State) (g : Fin 4) (v : Word) : State :=
  let i := s.get F.FW_SCR_ADDR_INDEX [g]
  let s := if s.fwState g ≤ 1 then s.modFw g (fun f => { f with table := smInsert i (v.toNat % 65536) (smErase i f.table) })
    else s.count F.FW_CNT_SCR_REJECT [g]
  if s.get F.FW_SCR_ADDR_AUTOINC [g] = 1 then s.set F.FW_SCR_ADDR_INDEX [g] ((i + 1) % 65536) else s

/-- FW_SCR_DATA_WRITE: a write of FW_SCR_DATA (R205, R212, R426). -/
def execFwScrDataWrite (g : Fin 4) (v : Word) (s : State) : Host.Outcome State Fault Refusal :=
  .next (s.toField (.barWr (Reg.key .FW_SCR_DATA [g]) v) (fun s => s.fwScrPut g v))

end Sys2Proof.Machine
end

