-- ==== Sys2Proof/Machine/Hedge.lean ====
section
/-! DEFINITION. The Hedgerow (spec/12_event_routing.md): event levels, the software bits, sampling, the event rings, Sedge cells and
channel groups. -/

namespace Sys2Proof.Machine

/-- Filter output of a cell from the last event-clock edge on, whether or not the move has been made yet (R328). -/
def Cell.filtNow (c : Cell) : Bool := c.nfilt.getD c.filt

/-- Flip-flop of a cell from the last event-clock edge on (R329). -/
def Cell.ffNow (c : Cell) : Bool := c.nff.getD c.ff

/-- Edge detector's output from the last event-clock edge on: high for the event cycle after a change in the selected direction (R329). -/
def Cell.pulseNow (c : Cell) (edge : Nat) : Bool :=
  match c.nff with
  | some v => (bitOf edge 0 && !c.ff && v) || (bitOf edge 1 && c.ff && !v)
  | none => c.pulse

namespace State

/-! ### Levels (R314–R318) -/

/-- Producer `bit` of slice `n` (R315). -/
def sliceProducer (s : State) (n : Fin 12) (bit : Nat) : Bool :=
  if h : bit < 8 then s.laneCross n ⟨bit, h⟩
  else if bit < 16 then bitOf s.slices[n].feed.markersShown (bit - 8)
  else if bit = 16 then decide (0 < s.hr.failLeft[n])
  else s.hr.slPulses.contains (n.val, bit)

/-- Producer `bit` of output `o` (R317). -/
def outputProducer (s : State) (o : Fin 16) (bit : Nat) : Bool :=
  if bit < 4 then bitOf s.aos[o].feed.markersShown bit else s.hr.aoPulses.contains (o.val, bit)

/-- Device producer `bit` (R318). -/
def deviceProducer (s : State) (bit : Nat) : Bool := if bit < 8 then bitOf s.hr.sw bit else s.hr.tbPulses.contains bit

/-- Level of node DVk (R318). -/
def dvLevel (s : State) (k : Nat) : Bool := (List.range 18).any (fun b => bitOf (s.act F.HR_DV_CFG_EN [k]) b && s.deviceProducer b)

/-- Is line k a crate event (R447)? -/
def crateLine (s : State) (k : Nat) : Bool := bitOf (s.act F.TL_EV_CFG_CEV_EN) k

/-- Level of every event but the Sedge cells' (R314); EV(248 + k) carries the crate event of an enabled line, on a standalone device DVk joined
with what the fabric reported (R447, R450). -/
def evBase (s : State) (ev : Nat) : Bool :=
  if h : ev < 96 then
    (List.range 20).any (fun b => bitOf (s.act F.HR_SLM_EN [ev / 8, ev % 8]) b && s.sliceProducer ⟨ev / 8, by omega⟩ b) ||
    s.hr.stretch.any (fun p => p.1 == ev)
  else if h : ev < 112 then s.hr.trig[ev - 96]
  else if ev < 232 then s.hr.pulses.contains ev
  else if h : ev < 248 then
    (List.range 8).any (fun b => bitOf (s.act F.HR_AOE_EN [ev - 232]) b && s.outputProducer ⟨ev - 232, by omega⟩ b)
  else if s.crateLine (ev - 248) then
    if s.role = 3 then s.dvLevel (ev - 248) || bitOf s.net.fabric (ev - 248) else bitOf s.hr.crate (ev - 248)
  else s.dvLevel (ev - 248)

/-- Level of an event; a chain of combinational cells is followed through at most `fuel` cells (R328, R329). -/
def evLevelF (s : State) : Nat → Nat → Bool
  | 0, ev => if 112 ≤ ev ∧ ev < 176 then false else s.evBase ev
  | fuel + 1, ev =>
    if h : 112 ≤ ev ∧ ev < 176 then
      let c := ev - 112
      let cell := s.hr.cells[c]'(by omega)
      if s.act F.HR_SC_CFG_FF [c] = 1 then
        if s.act F.HR_SC_CFG_EDGE [c] = 0 then cell.ffNow else cell.pulseNow (s.act F.HR_SC_CFG_EDGE [c])
      else if s.act F.HR_SC_CFG_FILT [c] ≠ 0 then cell.filtNow
      else
        let inp (m : Nat) : Nat :=
          if bitOf (s.act F.HR_SC_CFG_INEN [c]) m && s.evLevelF fuel (bitsOf (s.activeK (Reg.key .HR_SC_IN [c])).toNat (8 * m) 8)
          then 2 ^ m else 0
        bitOf (s.act F.HR_SC_CFG_LUT [c]) (inp 0 + inp 1 + inp 2 + inp 3)
    else s.evBase ev

/-- Level of an event at the present instant (R314). -/
def evLevel (s : State) (ev : Nat) : Bool := s.evLevelF 65 ev

/-- Level of an event as the last event-clock edge sampled it: its bit of HR_LEVEL (R337). -/
def evSampled (s : State) (ev : Nat) : Bool := bitOf (s.getK (Reg.key .HR_LEVEL [ev / 32])).toNat (ev % 32)

/-- LUT output of a cell at the last event-clock edge: what its filter or its flip-flop samples there (R328, R329). -/
def cellLut (s : State) (c : Nat) : Bool :=
  let inp (m : Nat) : Nat :=
    if bitOf (s.act F.HR_SC_CFG_INEN [c]) m && s.evSampled (bitsOf (s.activeK (Reg.key .HR_SC_IN [c])).toNat (8 * m) 8)
    then 2 ^ m else 0
  bitOf (s.act F.HR_SC_CFG_LUT [c]) (inp 0 + inp 1 + inp 2 + inp 3)

/-- What a cell's clocked elements do at the event-clock edge just sampled: the filter takes a value at the F-th consecutive edge at which it samples
it, and the flip-flop captures the filter output as it stood before the edge (R328, R329). -/
def cellSample (s : State) (c : Fin 64) : State :=
  let n := s.act F.HR_SC_CFG_FILT [c]
  let ff := s.act F.HR_SC_CFG_FF [c] == 1
  if n = 0 ∧ ff = false then s
  else
    let v := s.cellLut c
    s.modHr (fun r =>
      let x := r.cells[c]
      let d := if n = 0 then v else x.filt
      let cnt := if v = x.filt then 0 else x.count + 1
      let due := decide (n ≤ cnt) && decide (0 < cnt)
      { r with cells := r.cells.set c { x with
          count := if due then 0 else cnt, nfilt := if n ≠ 0 ∧ due = true then some v else none, nff := if ff then some d else none } })

/-- Is an event a core's pulse (R147, R314)? -/
def isCorePulse (ev : Nat) : Bool := decide (176 ≤ ev) && decide (ev < 208)

/-- Present level of an event at a consumer committed in scope 1–5 of session `k`: a core's pulse counts only when the core emitted it while it
ran that session (R322). -/
def evLevelFor (s : State) (k : Fin 16) (ev : Nat) : Bool :=
  s.evLevel ev && (!isCorePulse ev || s.hr.emitFor.contains (ev, k.val))

/-- Present level of condition input HCi of session `k` (R322, R323). -/
def condInput (s : State) (k : Fin 16) (i : Nat) : Bool :=
  let ev := bitsOf (s.activeK (Reg.key .HR_HC_SRC [k, i / 4])).toNat (8 * (i % 4)) 8
  bitOf (s.act F.HR_HC_EN_EN [k]) i && s.evLevelFor k ev

/-- Present level of jump line JLk (R324). -/
def jumpLine (s : State) (j : Nat) : Bool :=
  bitOf (s.act F.HR_JL_EN_EN) j && s.evLevel (bitsOf (s.activeK (Reg.key .HR_JL_SRC [j / 4])).toNat (8 * (j % 4)) 8)

/-- Levels of JL0–JL15 at the present instant. -/
def jumpLines (s : State) : Nat := ((List.range 16).map (fun j => if s.jumpLine j then 2 ^ j else 0)).sum

/-- The jump lines are sampled at an event-clock edge: a line sampled high after low is asserted (R175). -/
def sampleJumps (s : State) (e : Nat) : State :=
  let v := s.jumpLines
  s.modHr (fun r => { r with
    jlPrev := v, jlAt := e, jlRise := ((List.range 16).map (fun j => if bitOf v j && !bitOf r.jlPrev j then 2 ^ j else 0)).sum })

/-! ### Event-ring entries (R338, R407) -/

/-- Bytes of an event entry, PHASE left 0 (R407). -/
def eventBytes (tbc tag count ev info dropped flags : Nat) : List Byte :=
  leBytes 6 tbc ++ (leBytes 2 tag ++ (leBytes 4 count ++ (leBytes 1 ev ++ (leBytes 1 info ++ (leBytes 1 dropped ++ leBytes 1 flags)))))

/-- Does the session run a START or SHOT instance? -/
def runsInst (s : State) (k : Fin 16) : Bool := s.sess[k].hasTag && (s.sess[k].seq.isSome || s.sess[k].burst.isSome)

/-- Tag and epoch of the START or SHOT instance that the session runs (R407). -/
def instNow (s : State) (k : Fin 16) : Option (Nat × Nat) := if s.runsInst k then some (s.sess[k].tag, s.sess[k].epoch) else none

/-- EVENT_RING_ENTRY: write an event entry, or drop and count it on a full ring; none is formed while the ring is disabled (R407). -/
def postEvent (s : State) (k : Fin 16) (ev tbc cnt : Nat) (level hold : Bool) (inst : Option (Nat × Nat)) (q : Nat) : State :=
  if s.ringOn k 3 then
    if s.ringRoom k 3 then
      let info := ((inst.map (·.2)).getD 128) + 16 * q + 64 * level.toNat
      let b := eventBytes tbc ((inst.map (·.1)).getD 0) (min cnt (2 ^ 32 - 1)) ev info (min s.host[k].evDropped 255) hold.toNat
      (s.modHost k (fun h => { h with evDropped := 0 })).sendMsg k (.ringPost 3 b false inst)
    else (s.count F.DB_CNT2_EVT_DROPPED [k]).modHost k (fun h => { h with evDropped := h.evDropped + 1 })
  else s

/-- Does the session's event ring take entries of the event (R338)? -/
def ringTakes (s : State) (k : Fin 16) (ev : Nat) : Bool := bitOf (s.act F.HR_RING_EN_EN [k, ev / 32]) (ev % 32) && s.ringOn k 3

/-- Level of an event as the last event-clock edge sampled it for a consumer of session `k` (R322). -/
def sampledFor (s : State) (k : Fin 16) (ev : Nat) : Bool := s.evSampled ev && (!isCorePulse ev || s.hr.emitPrev.contains (ev, k.val))

/-- Does the sample hold a rising edge for a consumer of session `k` (R322)? -/
def risesFor (x : EvSample) (k : Fin 16) : Bool := if isCorePulse x.ev then x.forSess.contains k.val else x.sampled

/-- Tick of the last event-clock edge, at which the samples in hand were taken. -/
def sampledAt (s : State) : Nat := s.hr.jlAt

/-- One session's event ring meets a rising edge: an entry, or an edge held back (R338). -/
def ringEdge (s : State) (k : Fin 16) (ev : Nat) : State :=
  if s.ringTakes k ev then
    if s.hr.holdoffs.any (fun h => h.sess == k.val && h.ev == ev) then
      (s.count F.HR_RING_CNT_MERGED [k]).modHr (fun r => { r with
        holdoffs := r.holdoffs.map (fun h => if h.sess = k.val ∧ h.ev = ev then
          (if h.held = 0 then { h with held := 1, first := s.sampledAt % 2 ^ 48, inst := s.instNow k, qual := s.quality }
            else { h with held := h.held + 1 }) else h) })
    else
      let s := s.postEvent k ev (s.sampledAt % 2 ^ 48) 1 true false (s.instNow k) s.quality
      if s.act F.HR_RING_CFG_HOLDOFF [k] = 0 then s
      else s.modHr (fun r => { r with holdoffs := r.holdoffs ++ [⟨k, ev, 0, 0, none, 0, s.act F.HR_RING_CFG_HOLDOFF [k]⟩] })
  else s

/-- A slice output that rises with STRETCH is held high until the second event-clock edge after the rise (R316). -/
def stretchEdge (s : State) (ev : Nat) : State :=
  if ev < 96 ∧ s.act F.HR_SLM_STRETCH [ev / 8, ev % 8] = 1 then
    s.modHr (fun r => { r with stretch := (ev, 2) :: r.stretch.filter (fun (p : Nat × Nat) => p.1 != ev) })
  else s

/-! ### Activations (R332, R333) -/

/-- Is an event an OR node (R314)? A node that carries a crate event is none (R447). -/
def orNode (s : State) (ev : Nat) : Bool := decide (ev < 96) || (decide (232 ≤ ev) && !(decide (248 ≤ ev) && s.crateLine (ev - 248)))

/-- Levels of the events below `n`, as a mask. -/
def levels (s : State) (n : Nat) : Nat := ((List.range n).map (fun ev => if s.evLevel ev then 2 ^ ev else 0)).sum

/-- Levels of all producers of OR nodes as a mask: slice n's producer b at bit 20n + b, output o's at 240 + 8o + b, device producers from 368 on. -/
def producers (s : State) : Nat :=
  ((List.finRange 12).map (fun (n : Fin 12) =>
    ((List.range 20).map (fun b => if s.sliceProducer n b then 2 ^ (20 * n.val + b) else 0)).sum)).sum +
  (((List.finRange 16).map (fun (o : Fin 16) =>
    ((List.range 8).map (fun b => if s.outputProducer o b then 2 ^ (240 + 8 * o.val + b) else 0)).sum)).sum +
  ((List.range 18).map (fun b => if s.deviceProducer b then 2 ^ (368 + b) else 0)).sum)

/-- Bits of `b` that stand in it and not in `a`. -/
def risen (a b : Nat) : Nat := b &&& (a ^^^ b)

/-- How many of the low `n` bits of `v` are set. -/
def popCount (v n : Nat) : Nat := ((List.range n).filter (fun i => bitOf v i)).length

/-- Activations of an event in the event cycle that ends: `up` are the producers that rose in it, and `rose` says whether the event did (R332). -/
def activations (s : State) (up ev : Nat) (rose : Bool) : Nat :=
  if ev < 96 then
    let en := s.act F.HR_SLM_EN [ev / 8, ev % 8]
    popCount (up / 2 ^ (20 * (ev / 8)) &&& putBits en 16 1 0) 20 + if bitOf en 16 then s.hr.failActs[Fin.ofNat 12 (ev / 8)] else 0
  else if s.orNode ev then
    if ev < 248 then popCount (up / 2 ^ (240 + 8 * (ev - 232)) &&& s.act F.HR_AOE_EN [ev - 232]) 8
    else popCount (up / 2 ^ 368 &&& s.act F.HR_DV_CFG_EN [ev - 248]) 18
  else rose.toNat

/-- Edges that the OR node of an event coalesced in the event cycle that ends: its activations, less 1 if the node rose (R332). The node of a line that carries a
crate event is DVk itself, which rises at event-clock edges only (R318, R447). -/
def coalesced (s : State) (up p ev : Nat) (rose : Bool) : Nat :=
  if s.orNode ev then s.activations up ev rose - rose.toNat
  else if 248 ≤ ev then
    let en := s.act F.HR_DV_CFG_EN [ev - 248]
    let was := (s.hr.prodPrev / 2 ^ 368) &&& en
    let now := (p / 2 ^ 368) &&& en
    popCount ((up / 2 ^ 368) &&& en) 18 - (decide (was % 2 ^ 18 = 0) && decide (now % 2 ^ 18 ≠ 0)).toNat
  else 0

/-- A crossing changes the levels from those of `s`: what rises with it in the present event cycle is an activation, and a slice output that rises is
stretched (R316, R332). -/
def noteRises (s s' : State) : State :=
  let up := risen (s.levels 176) (s'.levels 176)
  let s' := s'.modHr (fun r => { r with rose := r.rose ||| up, prodRose := r.prodRose ||| risen s.producers s'.producers })
  (List.range 96).foldl (fun s ev => if bitOf up ev then s.stretchEdge ev else s) s'

/-- Add to the COALESCED counter of an OR node (R332). -/
def countCoal (s : State) (ev n : Nat) : State :=
  if ev < 96 then s.count F.HR_SL_COAL_COALESCED [ev / 8] n
  else if 248 ≤ ev then s.count F.HR_DV_COAL_COALESCED [] n
  else if 232 ≤ ev then s.count F.HR_AO_COAL_COALESCED [ev - 232] n
  else s

/-- Event counters that count the event add its activations (R333). -/
def countEvents (s : State) (ev acts : Nat) : State :=
  (List.range 16).foldl (fun s j =>
    if s.get F.HR_ECNT_SEL_EN [j] = 1 ∧ s.get F.HR_ECNT_SEL_EV [j] = ev then s.count F.HR_ECNT_COUNT [j] acts else s) s

/-- An event's sticky flag sets (R337). -/
def setFlag (s : State) (ev : Nat) : State :=
  let k := Reg.key .HR_FLAG [ev / 32]
  s.putFresh k (BitVec.ofNat 32 (withBit (s.freshK k).toNat (ev % 32)))

/-- The counting and the recording consumers meet what the last event-clock edge found of an event (R332, R333, R337, R338). -/
def meetSample (s : State) (x : EvSample) : State :=
  let s := s.countEvents x.ev x.acts
  let s := if x.coal = 0 then s else s.countCoal x.ev x.coal
  let s := if x.sampled then s.setFlag x.ev else s
  s.overSess (fun k s => if risesFor x k then s.ringEdge k x.ev else s)

/-- The sample of one event in hand is met, if there is one. -/
def takeSample (s : State) (ev : Nat) : State :=
  match s.hr.samples.find? (fun x => x.ev == ev) with
  | none => s
  | some x => (s.modHr (fun r => { r with samples := r.samples.filter (fun y => y.ev != ev) })).meetSample x

/-- A channel group takes a state at the last event-clock edge (R330). -/
def setGroup (s : State) (g : Fin 16) (v : Bool) : State :=
  if s.hr.cgs[g] = v then s
  else
    let log := (s.sampledAt, g.val, s.hr.cgs[g]) :: s.hr.cgLog.filter (fun p => decide (s.now < p.1 + 16384))
    ((s.count F.HR_CG_STAT_CHANGES [g]).modHr (fun r => { r with cgs := r.cgs.set g v, cgLog := log })).set
      F.HR_CG_STAT_ENABLED [g] v.toNat

/-- A commit changes a field of a group: it takes INIT, or is enabled while EN is 0, and the edges sampled before it are dropped (R330). -/
def groupCommitted (s : State) (g : Fin 16) : State :=
  (s.modHr (fun r => { r with cgOn := r.cgOn.filter (· != g.val), cgOff := r.cgOff.filter (· != g.val) })).setGroup g
    (s.act F.HR_CG_CTL_EN [g] == 0 || s.act F.HR_CG_CTL_INIT [g] == 1)

/-- A group switches by its sampled edges: OFF wins (R330). -/
def takeGroup (s : State) (g : Fin 16) : State :=
  let off := s.hr.cgOff.contains g.val
  let on := s.hr.cgOn.contains g.val
  let s := s.modHr (fun r => { r with cgOn := r.cgOn.filter (· != g.val), cgOff := r.cgOff.filter (· != g.val) })
  if off then s.setGroup g false else if on then s.setGroup g true else s

/-- State of a group as it stood at tick `t` (R331). -/
def groupAt (s : State) (g : Fin 16) (t : Nat) : Bool :=
  match (s.hr.cgLog.reverse).find? (fun p => p.2.1 == g.val && decide (t < p.1)) with
  | some p => p.2.2
  | none => s.hr.cgs[g]

/-- A holdoff of the session's event ring that has run out ends: one entry reports the edges held back and the holdoff starts again, or there were none
(R338). -/
def endHoldoff (s : State) (k : Fin 16) (ev : Nat) : State :=
  match s.hr.holdoffs.find? (fun h => h.sess == k.val && h.ev == ev) with
  | none => s
  | some h =>
    let n := s.act F.HR_RING_CFG_HOLDOFF [k]
    if h.left ≠ 0 then s
    else if h.held = 0 ∨ n = 0 then
      let s := if h.held = 0 then s else s.postEvent k ev h.first h.held (s.sampledFor k ev) true h.inst h.qual
      s.modHr (fun r => { r with holdoffs := r.holdoffs.filter (fun x => !(x.sess == k.val && x.ev == ev)) })
    else
      let s := s.postEvent k ev h.first h.held (s.sampledFor k ev) true h.inst h.qual
      s.modHr (fun r => { r with
        holdoffs := r.holdoffs.map (fun x => if x.sess = k.val ∧ x.ev = ev then { x with held := 0, left := n } else x) })

/-- A cell's filter output takes the value it has sampled at FILT consecutive edges (R328). -/
def settleCell (s : State) (c : Fin 64) : State :=
  s.modHr (fun r => { r with cells := r.cells.set c { r.cells[c] with filt := r.cells[c].filtNow, nfilt := none } })

/-- A cell's flip-flop takes what it captured, and its edge detector forms or ends its pulse (R329). -/
def captureCell (s : State) (c : Fin 64) : State :=
  let e := s.act F.HR_SC_CFG_EDGE [c]
  s.modHr (fun r => { r with cells := r.cells.set c { r.cells[c] with ff := r.cells[c].ffNow, pulse := r.cells[c].pulseNow e, nff := none } })

/-- Before the next edge every sample in hand has been met, every holdoff that ran out has ended, and every group and cell has moved. -/
def restHedge (s : State) : State :=
  let s := s.hr.samples.foldl (fun s x => s.takeSample x.ev) s
  let s := s.hr.holdoffs.foldl (fun s h => s.endHoldoff (Fin.ofNat 16 h.sess) h.ev) s
  let s := (List.finRange 16).foldl (fun s (g : Fin 16) => s.takeGroup g) s
  (List.finRange 64).foldl (fun s (c : Fin 64) => (s.captureCell c).settleCell c) s

/-- Levels as the last event-clock edge sampled them, as a mask over EV0–EV255 (R337). -/
def sampledMask (s : State) : Nat := ((List.range 8).map (fun j => (s.getK (Reg.key .HR_LEVEL [j])).toNat * 2 ^ (32 * j))).sum

/-- An event-clock edge samples the events: their levels, what rose in the event cycle that ends, its activations and the groups' edges; running holdoffs come nearer to their end (R326, R328–R332, R337, R338). -/
def sampleEvents (s : State) : State :=
  let v := s.levels 256
  let up := risen s.sampledMask v
  let rose := up ||| s.hr.rose
  let p := s.producers
  let pu := risen s.hr.prodPrev p ||| s.hr.prodRose
  let xs := (List.range 256).filterMap (fun ev =>
    let a := s.activations pu ev (bitOf rose ev)
    let c := s.coalesced pu p ev (bitOf rose ev)
    let ks := (s.hr.emitFor.filter (fun e => e.1 == ev && !s.hr.emitPrev.contains e)).map (·.2)
    if a = 0 ∧ bitOf rose ev = false ∧ c = 0 ∧ ks = [] then none else some (⟨ev, a, bitOf rose ev, bitOf up ev, c, ks⟩ : EvSample))
  let gr (en ctl : Fld) (on : Fld) : List Nat := (List.range 16).filter (fun g =>
    s.act en [g] == 1 && s.act on [g] == 1 && bitOf up (s.act ctl [g]))
  let s := (List.range 96).foldl (fun s ev =>
    if bitOf up ev && !s.hr.stretch.any (fun (p : Nat × Nat) => p.1 == ev) then s.stretchEdge ev else s) s
  let s := s.modHr (fun r => { r with
    samples := xs, rose := 0, prodRose := 0, prodPrev := p, failActs := Vector.replicate 12 0
    cgOn := gr F.HR_CG_CTL_EN F.HR_CG_CTL_ON_EV F.HR_CG_CTL_ON_EN, cgOff := gr F.HR_CG_CTL_EN F.HR_CG_CTL_OFF_EV F.HR_CG_CTL_OFF_EN
    holdoffs := r.holdoffs.map (fun (h : Holdoff) => { h with left := h.left - 1 }) })
  (List.range 8).foldl (fun s j => s.putK (Reg.key .HR_LEVEL [j]) (BitVec.ofNat 32 (v / 2 ^ (32 * j)))) s

/-- Every Sedge cell's clocked elements meet the edge just sampled. -/
def sampleCells (s : State) : State := (List.finRange 64).foldl (fun s (c : Fin 64) => s.cellSample c) s

/-- A write of HR_SW acts at the second event-clock edge: for each bit CLR before SET before PULSE (R319). -/
def swWrite (s : State) (set clr pulse : Nat) : State :=
  let st := (List.range 8).foldl (fun v i => if bitOf set i && !bitOf clr i then v + 2 ^ i else v) 0
  let pu := (List.range 8).foldl (fun v i => if bitOf pulse i && !bitOf clr i && !bitOf set i then v + 2 ^ i else v) 0
  let s := if clr = 0 then s else s.defer 2 (.swClr clr)
  let s := if st = 0 then s else s.defer 2 (.swSet st)
  if pu = 0 then s else (s.defer 2 (.swSet pu)).defer 3 (.swClr pu)

end State

/-- HR_SW_SET: the bits of SET without their CLR bit go to 1 at the second event-clock edge (R319). -/
def execHrSwSet (mask clr : Nat) (s : State) : Host.Outcome State Fault Refusal := 
  .next (s.toField (.barWr (Reg.key .HR_SW []) (BitVec.ofNat 32 (mask % 256 + 2 ^ 8 * (clr % 256)))) (fun s => s.swWrite mask clr 0))

/-- HR_SW_CLR: the bits of CLR go to 0 at the second event-clock edge, whatever SET and PULSE say (R319). -/
def execHrSwClr (mask : Nat) (s : State) : Host.Outcome State Fault Refusal := 
  .next (s.toField (.barWr (Reg.key .HR_SW []) (BitVec.ofNat 32 (2 ^ 8 * (mask % 256)))) (fun s => s.swWrite 0 mask 0))

/-- HR_SW_PULSE: the bits of PULSE go to 1 for exactly one event cycle (R319). -/
def execHrSwPulse (mask : Nat) (s : State) : Host.Outcome State Fault Refusal := 
  .next (s.toField (.barWr (Reg.key .HR_SW []) (BitVec.ofNat 32 (2 ^ 16 * (mask % 256)))) (fun s => s.swWrite 0 0 mask))

/-- EVENT_EDGE_SAMPLED: the flag, the event rings, the event counters and the coalescing counter meet what the last event-clock edge sampled of the
event, with `acts` activations and, where `rose`, a rise; it tells of no other (log 8). The rest of that edge's events follow before the next edge
(R332, R333, R337, R338, log 65). -/
def execEventEdgeSampled (ev : Fin 256) (acts : Nat) (rose : Bool) (s : State) : Host.Outcome State Fault Refusal :=
  .next (if s.hr.samples.any (fun x => x.ev == ev.val && x.acts == acts && x.rose == rose) then s.takeSample ev else s)

/-- RING_HOLDOFF_END: a holdoff that ran out at the last event-clock edge ends; an edge sampled at that same edge is held back (R338). -/
def execRingHoldoffEnd (k : Fin 16) (ev : Fin 256) (s : State) : Host.Outcome State Fault Refusal := .next ((s.takeSample ev).endHoldoff k ev)

/-- SEDGE_FILTER_SETTLE: the filter output takes the LUT value sampled at FILT consecutive edges (R328). -/
def execSedgeFilterSettle (c : Fin 64) (s : State) : Host.Outcome State Fault Refusal := .next (s.settleCell c)

/-- SEDGE_FLIP_FLOP_CAPTURE: a cell with FF = 1 takes the filter output it captured at the last event-clock edge, and its edge detector forms or ends
its pulse (R329). -/
def execSedgeFlipFlopCapture (c : Fin 64) (s : State) : Host.Outcome State Fault Refusal := .next (s.captureCell c)

/-- CG_ON_EDGE: a sampled rising edge of ON_EV enables the group, unless its OFF edge is sampled with it (R330). -/
def execCgOnEdge (g : Fin 16) (s : State) : Host.Outcome State Fault Refusal :=
  .next (if s.hr.cgOn.contains g.val then s.takeGroup g else s)

/-- CG_OFF_EDGE: a sampled rising edge of OFF_EV disables the group and wins over an ON edge sampled with it (R330). -/
def execCgOffEdge (g : Fin 16) (s : State) : Host.Outcome State Fault Refusal :=
  .next (if s.hr.cgOff.contains g.val then s.takeGroup g else s)

end Sys2Proof.Machine
end

