-- ==== Sys2Proof/Machine/Gleaner.lean ====
section
/-! DEFINITION. The Gleaner (R254–R262, R278–R282, R511): regions and pointers, fail and violation records, capture blocks, stamp lines
and rollover markers. -/

namespace Sys2Proof.Machine

namespace State

def modGl (s : State) (k : Fin 16) (f : Gleaner → Gleaner) : State := { s with gleaners := s.gleaners.set k (f s.gleaners[k]) }

/-! ### Regions (R254, R255): r = 0 fail, 1 capture, 2 stamp -/

def rgnBase (s : State) (k r : Nat) : Nat := s.act F.GL_RGN_BASE_BASE [k, r] * 64
def rgnSize (s : State) (k r : Nat) : Nat := s.act F.GL_RGN_SIZE_SIZE [k, r]
def rgnWrap (s : State) (k r : Nat) : Bool := s.act F.GL_RGN_SIZE_MODE [k, r] == 1

/-- A pointer moved on by `n` units. -/
def ptrAdd (size : Nat) (p : RgnAlloc) (n : Nat) : RgnAlloc :=
  if p.ptr + n < size then ⟨p.ptr + n, p.lap⟩ else ⟨p.ptr + n - size, !p.lap⟩

/-- Write pointer of a region. -/
def wptr (s : State) (k r : Nat) : RgnAlloc := ⟨s.get F.GL_RGN_WPTR_PTR [k, r], s.get F.GL_RGN_WPTR_LAP [k, r] == 1⟩

/-- Units from one pointer forward to another. -/
def ptrGap (size : Nat) (p q : RgnAlloc) : Nat := if p.lap == q.lap then q.ptr - p.ptr else size - p.ptr + q.ptr

/-- The instance that the session runs: tag and epoch of its START or SHOT. -/
def runInst (s : State) (k : Fin 16) : Option (Nat × Nat) := if s.sess[k].hasTag then some (s.sess[k].tag, s.sess[k].epoch) else none

/-- The latest `n` units of a list of runs, oldest first. -/
def runsTo (n : Nat) (rs : List WriteRun) : List WriteRun :=
  (rs.foldr (fun (r : WriteRun) (a : List WriteRun × Nat) =>
    if a.2 = 0 then a else ({ r with units := min r.units a.2 } :: a.1, a.2 - r.units)) ([], n)).1

/-- Add `n` units written by an instance. -/
def runsAdd (n : Nat) (i : Option (Nat × Nat)) : List WriteRun → List WriteRun
  | [] => [⟨n, i⟩]
  | [r] => if r.inst = i then [⟨r.units + n, i⟩] else [r, ⟨n, i⟩]
  | r :: t => r :: runsAdd n i t

/-- Set the write pointer; the units it passes wait for forwarding, at most a region of them (R408). -/
def setWptr (s : State) (k : Fin 16) (r : Fin 3) (p : RgnAlloc) : State :=
  let n := ptrGap (s.rgnSize k r) (s.wptr k r) p
  let top := s.rgnSize k r + 1
  let i := s.runInst k
  let s := s.modGl k (fun g => { g with
    todo := g.todo.set r (min (g.todo[r] + n) top), runs := g.runs.set r (if n = 0 then g.runs[r] else runsTo top (runsAdd n i g.runs[r])) })
  (s.set F.GL_RGN_WPTR_PTR [k, r] p.ptr).set F.GL_RGN_WPTR_LAP [k, r] p.lap.toNat

/-- Units written, or allocated, from a pointer back to the read pointer. -/
def rgnUsed (s : State) (k r : Nat) (p : RgnAlloc) : Nat :=
  let rd := s.get F.GL_RGN_RPTR_PTR [k, r]
  if p.lap == (s.get F.GL_RGN_RPTR_LAP [k, r] == 1) then p.ptr - rd else s.rgnSize k r - rd + p.ptr

/-- Is there room for `n` units behind a pointer (R254)? -/
def rgnRoom (s : State) (k r : Nat) (p : RgnAlloc) (n : Nat) : Bool :=
  s.rgnWrap k r || decide (s.rgnUsed k r p + n ≤ s.rgnSize k r)

/-- Write bytes at an address of a session's view. -/
def writeView (s : State) (k a : Nat) (bs : List Byte) : State := { s with ddr := memPuts s.ddr (s.viewPhys k a) bs }

/-- Write one 64-byte unit at the write pointer of a region and advance it; `false` when it does not fit. -/
def writeUnit (s : State) (k : Fin 16) (r : Fin 3) (bs : List Byte) : State × Bool :=
  let p := s.wptr k r
  if s.rgnRoom k r p 1 then
    ((s.writeView k (s.rgnBase k r + 64 * p.ptr) bs).setWptr k r (ptrAdd (s.rgnSize k r) p 1), true)
  else (s, false)

/-- A record of a session was lost (R398). -/
def noteLoss (s : State) (k : Fin 16) : State := s.noteCond k Cond.loss

/-- A record, stamp, word or result of a session carried STALE (R398). -/
def noteStale (s : State) (k : Fin 16) (b : Bool) : State := if b then s.noteCond k Cond.staleData else s

/-! ### Fail and violation records (R257, R258, R266, R511) -/

/-- Write the open unit of the fail region with a second record or an empty second half. -/
def closeUnit (s : State) (k : Fin 16) (second : List Byte) : State :=
  match s.gleaners[k].failUnit with
  | none => s
  | some a => ((s.writeUnit k 0 (a ++ second)).1).modGl k (fun g => { g with failUnit := none })

/-- A record goes to the fail region: it opens a unit or fills the open one; one that finds no free unit is counted (R254, R511). -/
def failRecord (s : State) (k : Fin 16) (rec : List Byte) : State :=
  if s.rgnSize k 0 = 0 then s
  else if s.gleaners[k].failUnit.isSome then s.closeUnit k rec
  else if s.rgnRoom k 0 (s.wptr k 0) 1 then s.modGl k (fun g => { g with failUnit := some rec })
  else (s.count F.GL_LOST_REGION_LOST [k]).noteLoss k

/-- Do two fail entries merge into one record (R258)? -/
def sameRecord (a b : FailEntry) : Bool :=
  a.vec == b.vec && a.start == b.start && a.seg == b.seg && a.pass == b.pass && a.sess == b.sess

/-- The first fail entry of a session: least period start, then lowest slice (R258). -/
def firstFail (s : State) (k : Fin 16) : Option FailEntry :=
  (List.finRange 12).foldl (fun best n =>
    match s.slices[n].fails.head? with
    | some e => if e.sess = k.val then
        match best with
        | some b => if e.start < b.start then some e else best
        | none => some e
      else best
    | none => best) none

/-- Bytes of a fail record (R258). -/
def failBytes (e : FailEntry) (slices : Nat) (bits : Nat → Nat) (stale loss : Bool) : List Byte :=
  leBytes 6 e.vec ++ (leBytes 2 (slices + 4096 * stale.toNat + 8192 * loss.toNat + 16384 * e.quality) ++
  ((List.range 12).map (fun n => BitVec.ofNat 8 (bits n)) ++ (leBytes 6 (e.start % 2 ^ 48) ++
  (leBytes 2 e.seg ++ (leBytes 3 (min e.pass (2 ^ 24 - 1)) ++ leBytes 1 1)))))

/-- The head entry of a slice's fail buffer, if it merges with `e`. -/
def failHead (s : State) (e : FailEntry) (n : Fin 12) : Option FailEntry :=
  match s.slices[n].fails.head? with
  | some x => if sameRecord e x then some x else none
  | none => none

/-- May a slice of the session still fail in a period that started at or before tick `t` (R258)? -/
def failPends (s : State) (k : Fin 16) (t : Nat) : Bool :=
  (List.finRange 12).any (fun n => s.slices[n].feed.sess == k.val && (match s.slices[n].feed.play with
    | some p => decide (p.slotStart ≤ t)
    | none => false))

/-- Form the record of the first fail entry with every entry that merges with it; it waits while an earlier one, or one that merges with it, may
still come (R258). Entries of an instance that is not live are discarded (R402). -/
def formFail (s : State) (k : Fin 16) : State :=
  match s.firstFail k with
  | none => s
  | some e =>
    if s.failPends k e.start then s else
    let h (n : Nat) : Option FailEntry := if hn : n < 12 then s.failHead e ⟨n, hn⟩ else none
    let has := (List.range 12).filter (fun n => (h n).isSome)
    let mask := (has.map (fun n => 2 ^ n)).sum
    let stale := has.any (fun n => ((h n).map (·.stale)).getD false)
    let loss := has.any (fun n => ((h n).map (·.loss)).getD false)
    let rec_ := failBytes e mask (fun n => ((h n).map (·.bits)).getD 0) stale loss
    let s := s.overSlices (fun n s => if has.contains n.val then s.modSlice n (fun x => { x with fails := x.fails.tail }) else s)
    let gone := (has.filterMap (fun n => h n)).filterMap (fun x => x.inst.filter (fun i => !s.instLive k i.1 i.2))
    if gone = [] then ((s.incSat F.GL_FAILS_FAILS [k]).noteStale k stale).failRecord k rec_
    else gone.foldl (fun s i => s.staleMsg k i.1 i.2) s

/-- Place a fail entry in its slice's buffer, or count it as lost (R257, R458). -/
def pushFail (s : State) (n : Fin 12) (e : FailEntry) : State :=
  let inj := (s.sramCe (0x40 + n) (s.ownerSlice n)).takeInject 4 (0x40 + n)
  let s := if inj.1 then inj.2.detect 4 (0x40 + n) .policy true (inj.2.ownerSlice n) else inj.2
  if inj.1 || decide (16384 ≤ s.slices[n].fails.length) then
    ((s.count F.GL_FB_LOST_FB_LOST [n]).modSlice n (fun x => { x with failLost := true })).noteLoss (Fin.ofNat 16 e.sess)
  else s.modSlice n (fun x => { x with fails := x.fails ++ [{ e with loss := x.failLost }], failLost := false })

/-! ### Capture blocks (R255, R259, R261) -/

/-- Bytes of a block, rounded up to whole units (R259). -/
def blockUnits (w pre post : Nat) : Nat := (64 + (pre + post) * w * 4 + 63) / 64

/-- Allocate a block of trigger unit `u` in the capture region: its address, none when it does not fit or no region exists (R255, R261). -/
def allocBlock (s : State) (k : Fin 16) (u n : Nat) : State × Option Nat :=
  let size := s.rgnSize k 1
  if size = 0 then (s, none)
  else
    let p := s.gleaners[k].cap
    let skip := if p.ptr + n ≤ size then 0 else size - p.ptr
    if s.rgnRoom k 1 p (skip + n) && decide (n ≤ size) then
      let q := if skip = 0 then p else ptrAdd size p skip
      let e := ptrAdd size q n
      let a := s.rgnBase k 1 + 64 * q.ptr
      (s.modGl k (fun g => { g with cap := e, blocks := g.blocks ++ [⟨u, a, e.ptr, e.lap, none⟩] }), some a)
    else (s, none)

/-- Change the first block of a list that is unit `u`'s at address `a` and has no header yet; `none` takes it out. -/
def onBlock (u a : Nat) (f : CapBlock → Option CapBlock) : List CapBlock → List CapBlock
  | [] => []
  | b :: t => if b.unit_ = u ∧ b.addr = a ∧ b.header = none then (f b).toList ++ t else b :: onBlock u a f t

/-- A block that no trigger claims, the unit's latest, leaves the order of the region; the last one gives its units back. -/
def dropBlock (s : State) (k : Fin 16) (u a : Nat) : State :=
  let w := s.wptr k 1
  s.modGl k (fun g =>
    let rest := (onBlock u a (fun _ => none) g.blocks.reverse).reverse
    if (g.blocks.getLast?.map (fun b => (b.unit_, b.addr))) = some (u, a) then
      { g with blocks := rest, cap := (rest.getLast?.map (fun b => (⟨b.endPtr, b.endLap⟩ : RgnAlloc))).getD w }
    else { g with blocks := rest })

/-- The Gleaner has the header of a unit's earliest block at an address that has none (R262). -/
def setHeader (s : State) (k : Fin 16) (u a : Nat) (h : List Byte) : State :=
  s.modGl k (fun g => { g with blocks := onBlock u a (fun b => some { b with header := some h }) g.blocks })

/-- Write the capture words that wait in a slice's FIFO; those of an instance that is not live are discarded (R261, R402, R458). -/
def drainCaps (s : State) (n : Fin 12) : State :=
  let ws := s.slices[n].caps
  let s := s.modSlice n (fun x => { x with caps := [] })
  ws.foldl (fun s w => s.forInst (Fin.ofNat 16 w.sess) w.inst (fun s => s.writeView w.sess w.addr (leBytes 4 w.word))) s

/-- Do words of a block still wait in a capture FIFO? -/
def wordsWait (s : State) (k : Fin 16) (a e : Nat) : Bool :=
  s.slices.any (fun x => x.caps.any (fun w => w.sess == k.val && decide (a ≤ w.addr) && decide (w.addr < e)))

/-- Write the headers of the region's first blocks whose headers are formed and whose words are in DDR4, and advance the write pointer over them (R256). -/
def writeHeaders (s : State) (k : Fin 16) : Nat → State
  | 0 => s
  | fuel + 1 =>
    match s.gleaners[k].blocks with
    | [] => s
    | b :: t =>
      match b.header with
      | none => s
      | some h =>
        let n := ptrGap (s.rgnSize k 1) (s.wptr k 1) ⟨b.endPtr, b.endLap⟩
        let fl := fieldAt h 2 2
        let e := if b.endPtr = 0 then s.rgnSize k 1 else b.endPtr
        let d : DoneBlock := ⟨b.addr, s.rgnBase k 1 + 64 * e - b.addr, n, b.endPtr, b.endLap, fieldAt h 1 1, bitOf fl 1, s.runInst k⟩
        if s.wordsWait k b.addr (s.rgnBase k 1 + 64 * e) then s else
        (((s.writeView k b.addr h).modGl k (fun g => { g with blocks := t, done := g.done ++ [d] })).setWptr k 1
          ⟨b.endPtr, b.endLap⟩).writeHeaders k fuel

/-! ### Stamp lines (R278–R282) -/

/-- Padding entry. -/
def padEntry : Nat := 15 * 2 ^ 60

/-- Does an entry of a line carry the LOSS of input `i` (R279)? -/
def carriesLoss (i : Nat) (e : Nat) : Bool := e / 2 ^ 60 == 1 && bitOf e 59 && bitsOf e 48 7 == i

/-- The entries of a line that found no room are lost: the next stamp written carries what LOSS they carried (R277, R281; log 62). -/
def lineLost (s : State) (l : List Nat) : State :=
  { s with inputs := Vector.ofFn (fun i => if l.any (carriesLoss i) then { s.inputs[i] with owed := true } else s.inputs[i]) }

/-- Pad and write the line in hand (R281). -/
def writeLine (s : State) (k : Fin 16) : State :=
  let l := s.gleaners[k].line
  if l = [] then s
  else
    let full := l ++ List.replicate (8 - l.length) padEntry
    let n := (l.filter (fun e => e != padEntry)).length
    let r := s.writeUnit k 2 (full.flatMap (leBytes 8))
    let s := r.1.modGl k (fun g => { g with line := [] })
    if r.2 then (if s.sess[k].seq.isSome then s.incSat F.TM_SESS_STORED_ENTRIES [k] n else s)
    else ((s.count F.TM_SESS_LOST_REGION_LOST [k] n).noteLoss k).lineLost l

/-- A marker with OPEN = 1 comes before the first entry (R280). -/
def openLine (s : State) (k : Fin 16) : State :=
  if s.gleaners[k].open_ then
    let s := s.writeLine k
    s.modGl k (fun g => { g with open_ := false, line := [s.tb.streamHi % 65536 + 2 ^ 16 + 2 * 2 ^ 60] })
  else s

/-- Add entries that may not straddle a line (R281). -/
def addEntries (s : State) (k : Fin 16) (es : List Nat) : State :=
  if s.rgnSize k 2 = 0 then s
  else
    let s := s.openLine k
    let s := if 8 < s.gleaners[k].line.length + es.length then s.writeLine k else s
    let s := s.modGl k (fun g => { g with line := g.line ++ es })
    if 8 ≤ s.gleaners[k].line.length then s.writeLine k else s

/-- A stamp entry (R279). -/
def stampEntry (i : Nat) (x : Stamp) (loss : Bool) : Nat :=
  x.t % 2 ^ 48 + i * 2 ^ 48 + x.rise.toNat * 2 ^ 55 + x.quality * 2 ^ 56 + x.stale.toNat * 2 ^ 58 + loss.toNat * 2 ^ 59 + 2 ^ 60

def modInput (s : State) (i : Fin 112) (f : Input → Input) : State := { s with inputs := s.inputs.set i (f s.inputs[i]) }

def modMeas (s : State) (u : Fin 16) (f : Meas → Meas) : State := { s with meas := s.meas.set u (f s.meas[u]) }

/-- May the first stamp of an input's FIFO leave it? One taken at or after a wrap waits for the marker (R280). -/
def stampReady (s : State) (i : Fin 112) : Bool :=
  match s.inputs[i].fifo with
  | [] => false
  | x :: _ => decide (x.t / 2 ^ 48 ≤ s.tb.streamHi) || (s.ownerInput i).isNone || !x.store

/-- The first input after the one drained last that satisfies a test, round robin (R276; log 62). -/
def nextInput (s : State) (p : Fin 112 → Bool) : Option (Fin 112) :=
  ((List.range 112).map (fun j => (Fin.ofNat 112 (s.drained + 1 + j) : Fin 112))).find? p

/-- Is it the input's turn: the first after the one drained last, round robin among the FIFOs that hold stamps (R276; log 62)? -/
def stampTurn (s : State) (i : Fin 112) : Bool := s.nextInput (fun j => s.stampReady j) == some i

/-- Drain one stamp of an input's FIFO: into its session's stream where it is stored, unless its instance is no longer live (R275–R277, R402, R458). -/
def drainStamp (s : State) (k : Fin 16) (i : Fin 112) : State :=
  match s.inputs[i].fifo with
  | [] => s
  | x :: t =>
    let owed := s.inputs[i].owed || x.loss
    let s := s.modInput i (fun y => { y with fifo := t, owed := owed })
    let inj := (s.sramCe 0x32 (some k)).takeInject 4 0x32
    let s := inj.2
    if inj.1 then
      ((s.detect 4 0x32 .policy true (some k)).count F.TM_IN_CNT_LOST [i]).modInput i (fun y => { y with owed := true })
    else if x.store && s.rgnSize k 2 != 0 then
      s.forInst k x.inst (fun s => ((s.modInput i (fun y => { y with owed := false })).addEntries k [stampEntry i x owed]).noteStale k x.stale)
    else s

/-- Drain one result of a measurement unit, unless its instance is no longer live (R276, R290, R402). -/
def drainResult (s : State) (k : Fin 16) (u : Fin 16) : State :=
  match s.meas[u].out with
  | [] => s
  | r :: t => (s.modMeas u (fun y => { y with out := t })).forInst k r.2 (fun s => s.addEntries k [r.1.1, r.1.2.1, r.1.2.2])

/-- Drain the session's FIFOs round robin of every stamp that may leave them (R276). -/
def drainTurns (s : State) (k : Fin 16) : Nat → State
  | 0 => s
  | fuel + 1 =>
    match s.nextInput (fun j => s.ownerInput j == some k && s.stampReady j) with
    | none => s
    | some i => ({ s.drainStamp k i with drained := i.val } : State).drainTurns k fuel

/-- Drain all that an input, or a unit, holds of a time before the marker in hand. -/
def drainAll (s : State) (k : Fin 16) : State :=
  let s := s.drainTurns k ((List.finRange 112).map (fun (i : Fin 112) => if s.ownerInput i = some k then s.inputs[i].fifo.length else 0)).sum
  (List.finRange 16).foldl (fun s (u : Fin 16) =>
    if s.ownerMu u = some k then (List.range s.meas[u].out.length).foldl (fun s _ => s.drainResult k u) s else s) s

/-- ROLLOVER_MARKER: every entry of an earlier time precedes a marker with OPEN = 0, and a stream that has none yet gets its OPEN = 1 marker first
(R280). -/
def rollover (s : State) (k : Fin 16) (hi : Nat) : State :=
  if s.rgnSize k 2 = 0 then s
  else
    let s := ((s.drainAll k).openLine k).writeLine k
    s.modGl k (fun g => { g with line := [hi % 65536 + 2 * 2 ^ 60] })

/-- What a sequence's end closes (R281, R511). -/
def glSeqEnd (s : State) (k : Fin 16) : State := (s.closeUnit k (leBytes 32 0)).writeLine k

/-- What a sequence's start clears: counts of the current sequence, and the stream opens with a marker (R268, R280, R291, R292). -/
def glSeqStart (s : State) (k : Fin 16) : State :=
  let s := (s.set F.GL_FAILS_FAILS [k] 0).set F.TM_SESS_STORED_ENTRIES [k] 0
  let s := s.modGl k (fun g => { g with open_ := true, violCount := 0 })
  (List.finRange 16).foldl (fun s (i : Fin 16) =>
    let s := if s.ownsMt k i then (s.set F.GL_MT_VIOL_COUNT [i] 0).set F.GL_MT_PASS_COUNT [i] 0 else s
    if s.ownsMu k i then
      ((s.putK (Reg.key .TM_MU_CNT0 [i]) 0).putK (Reg.key .TM_MU_CNT1 [i]) 0).set F.TM_MU_RESULTS_RESULTS [i] 0
    else s) s

end State

end Sys2Proof.Machine
end

