-- ==== Sys2Proof/Machine/Measure.lean ====
section
/-! DEFINITION. Stamps, mask tests, measurement units and histograms (spec/10_time_measurement.md, R263–R267, R371, R376). -/

namespace Sys2Proof.Machine

/-! ### Histograms (R376) -/

/-- Saturating increment of a 32-bit count. -/
def sat32 (v : Nat) : Nat := min (v + 1) (2 ^ 32 - 1)

/-- Saturate a signed 64-bit sum. -/
def satSum (x : Int) : Int := max (-(2 ^ 63)) (min (2 ^ 63 - 1) x)

/-- One result meets a histogram: VALUE, CYCLES, staleness, loss, then BASE, SHIFT and BINS (R376). -/
def Hist.take (h : Hist) (value : Int) (cycles : Nat) (stale loss : Bool) (base : Int) (shift bins : Nat) : Hist :=
  if cycles = 0 then { h with empty := sat32 h.empty }
  else
    let x := value.tdiv cycles
    let h := { h with
      stale := if stale then sat32 h.stale else h.stale, loss := if loss then sat32 h.loss else h.loss,
      lo := if h.count = 0 then x else min h.lo x, hi := if h.count = 0 then x else max h.hi x,
      count := satAdd 64 h.count 1, sum := satSum (h.sum + x) }
    if x < base then { h with below := sat32 h.below }
    else
      let b := ((x - base).toNat) / 2 ^ shift
      if bins ≤ b then { h with above := sat32 h.above } else { h with bins := smSet 0 h.bins b (sat32 (smGet 0 h.bins b)) }

namespace State

/-- Does a session's shot take judgements and results now, from S until its tally closes 409,600 ticks after its sequence (R371)? -/
def tallying (s : State) (k : Fin 16) : Bool :=
  match s.sess[k].burst with
  | some b => decide (1 ≤ b.phase) && decide (b.phase ≤ 5) && (match b.done with
    | some d => decide (s.now ≤ d + 409600)
    | none => true)
  | none => false

def modBurst (s : State) (k : Fin 16) (f : Burst → Burst) : State := s.modSess k (fun x => { x with burst := x.burst.map f })

def modTally (s : State) (k : Fin 16) (f : Tally → Tally) : State := s.modSess k (fun x => { x with tally := f x.tally })

/-- A unit's result meets every histogram of the burst that names it (R376). -/
def feedHists (s : State) (k u : Fin 16) (value : Int) (cycles q : Nat) (stale loss : Bool) : State :=
  if s.tallying k then
    let hm := (s.sess[k].burst.map (·.histMask)).getD 0
    (List.finRange 4).foldl (fun s (h : Fin 4) =>
      if bitOf hm h ∧ s.act F.RM_HIST_CFG_MU [k, h] = u.val then
        let base := signedOf (s.act F.RM_HIST_BASE_LO_BASE [k, h] + 2 ^ 32 * s.act F.RM_HIST_BASE_HI_BASE [k, h]) 48
        let s := s.modSess k (fun x => { x with hists := x.hists.set h (x.hists[h].take value cycles stale loss base
          (s.act F.RM_HIST_CFG_SHIFT [k, h]) (s.act F.RM_HIST_CFG_BINS [k, h])) })
        let s := s.modBurst k (fun b => { b with shotStale := b.shotStale || stale, shotQ := worseQ b.shotQ q })
        s.modTally k (fun t => { t with stale := t.stale || stale, worstQ := worseQ t.worstQ q })
      else s) s
  else s

/-! ### Measurement units (R283–R291) -/

/-- Does an edge selection count a direction (R284)? -/
def counts (sel : Nat) (rise : Bool) : Bool := sel == 2 || (sel == 0 && rise) || (sel == 1 && !rise)

/-- The inputs that a unit's results use: A, and B in the interval modes (R284). -/
def muInputs (s : State) (u : Fin 16) : List Nat :=
  s.act F.TM_MU_CFG_IN_A [u] :: (if s.act F.TM_MU_CFG_MODE [u] < 2 then [s.act F.TM_MU_CFG_IN_B [u]] else [])

/-- MU_RESULT: the three entries of a result (R290), its counts and its histograms. -/
def muResult (s : State) (u : Fin 16) (tStart value : Int) (cycles : Nat) : State :=
  let m := s.meas[u]
  let mode := s.act F.TM_MU_CFG_MODE [u]
  let ins := s.muInputs u
  let inst := (s.ownerMu u).bind (fun k => s.runInst k)
  let loss := m.lossy.any (fun i => ins.contains i)
  let w0 := (tStart.toNat % 2 ^ 48) + u.val * 2 ^ 48 + mode * 2 ^ 52 + m.coincident.toNat * 2 ^ 55 + m.quality * 2 ^ 56 +
    m.stale.toNat * 2 ^ 58 + loss.toNat * 2 ^ 59 + 3 * 2 ^ 60
  let w1 := patternOf value 48 + 4 * 2 ^ 60
  let w2 := min cycles (2 ^ 32 - 1) + 5 * 2 ^ 60
  let s := (s.incSat F.TM_MU_RESULTS_RESULTS [u]).modMeas u (fun y => { y with
    out := y.out ++ [((w0, w1, w2), inst)], n := 0, sum := 0, tStart := 0, coincident := false, quality := 0, stale := false, lossy := y.lossy.filter (fun i => !ins.contains i) })
  match s.ownerMu u with
  | none => s
  | some k =>
    let s := if s.rgnSize k 2 = 0 then s.modMeas u (fun y => { y with out := y.out.dropLast }) else s
    let s := s.noteStale k m.stale
    let s := if loss then s.noteLoss k else s
    s.feedHists k u value cycles m.quality m.stale loss

/-- Take a stamp's flags into the result in hand. -/
def muFlags (m : Meas) (x : Stamp) : Meas := { m with quality := worseQ m.quality x.quality, stale := m.stale || x.stale }

/-- A sum saturates at the range of VALUE (R289). -/
def satValue (mode : Nat) (v : Int) : Int :=
  if mode = 1 then max (-(2 ^ 47 - 1)) (min (2 ^ 47 - 1) v) else min (2 ^ 48 - 1) v

/-- A measurement completes with its stamps; AVG of them make a result (R289). -/
def muMeasure (s : State) (u : Fin 16) (x y : Stamp) (value : Int) : State :=
  let mode := s.act F.TM_MU_CFG_MODE [u]
  let s := s.modMeas u (fun m =>
    let m := muFlags (muFlags m x) y
    { m with
      tStart := if m.n = 0 then min x.t y.t else m.tStart, n := m.n + 1, sum := satValue mode (m.sum + value),
      coincident := m.coincident || (decide (mode < 2) && x.t == y.t) })
  let m := s.meas[u]
  if s.act F.TM_MU_AVG_AVG [u] ≤ m.n then s.muResult u m.tStart m.sum m.n else s

/-- A counted edge of A, or for WIDTH an edge of A of either direction. -/
def muEdgeA (s : State) (u : Fin 16) (x : Stamp) : State :=
  let m := s.meas[u]
  let counted := counts (s.act F.TM_MU_CFG_EDGE_A [u]) x.rise
  match s.act F.TM_MU_CFG_MODE [u] with
  | 0 =>
    if counted then
      let s := if m.a.isSome then s.incSat F.TM_MU_CNT1_RESTART [u] else s
      s.modMeas u (fun y => { y with a := some x })
    else s
  | 1 =>
    if !counted then s
    else if m.a.isSome then s.incSat F.TM_MU_CNT1_EXTRA [u]
    else match m.b with
      | some b => (s.modMeas u (fun y => { y with a := none, b := none })).muMeasure u x b ((b.t : Int) - x.t)
      | none => s.modMeas u (fun y => { y with a := some x })
  | 2 =>
    if !counted then s
    else match m.a with
      | some a => (s.modMeas u (fun y => { y with a := some x })).muMeasure u a x ((x.t : Int) - a.t)
      | none => s.modMeas u (fun y => { y with a := some x })
  | 3 =>
    if counted then s.modMeas u (fun y => { y with a := some x })
    else match m.a with
      | some a => (s.modMeas u (fun y => { y with a := none })).muMeasure u a x ((x.t : Int) - a.t)
      | none => s
  | _ =>
    if counted then
      s.modMeas u (fun y => { (muFlags y x) with edges := y.edges + 1, a := if y.a.isNone then some x else y.a, lastA := some x })
    else s

/-- A counted edge of B in the interval modes (R285, R286). -/
def muEdgeB (s : State) (u : Fin 16) (x : Stamp) : State :=
  let m := s.meas[u]
  if counts (s.act F.TM_MU_CFG_EDGE_B [u]) x.rise then
    match s.act F.TM_MU_CFG_MODE [u] with
    | 0 =>
      match m.a with
      | some a =>
        if a.t ≤ x.t then (s.modMeas u (fun y => { y with a := none })).muMeasure u a x ((x.t : Int) - a.t)
        else s.incSat F.TM_MU_CNT0_STOP_EARLY [u]
      | none => s.incSat F.TM_MU_CNT0_STOP_EARLY [u]
    | 1 =>
      if m.b.isSome then s.incSat F.TM_MU_CNT1_EXTRA [u]
      else match m.a with
        | some a => (s.modMeas u (fun y => { y with a := none, b := none })).muMeasure u a x ((x.t : Int) - a.t)
        | none => s.modMeas u (fun y => { y with b := some x })
    | _ => s
  else s

/-- Does a unit judge (R291, R357)? -/
def muOn (s : State) (u : Fin 16) : Bool := s.act F.TM_MU_CFG_EN [u] == 1 && (s.ownerMu u).isSome

/-- A stamp reaches a unit while its gate is open (R283, R284). -/
def muStamp (s : State) (u : Fin 16) (isB : Bool) (x : Stamp) : State :=
  match s.meas[u].gate with
  | none => s
  | some g => if s.muOn u && decide (g ≤ x.t) then (if isB then s.muEdgeB u x else s.muEdgeA u x) else s

/-- What waited at a unit meets it; a loss of an input marks the unit's next result that uses the input (R277, R284; log 63). -/
def muMeets (s : State) (u : Fin 16) (q : MuIn) : State :=
  match q.lost with
  | some i => s.modMeas u (fun y => { y with lossy := i :: y.lossy.filter (· != i) })
  | none => s.muStamp u q.isB q.x

/-- Does one of two things waiting at a unit come before the other: earlier tick, or within a tick the edge of A before that of B (R285)? -/
def MuIn.before (p q : MuIn) : Bool := decide (p.x.t < q.x.t) || (p.x.t == q.x.t && !p.isB && q.isB)

/-- Put something in its place in a unit's queue. -/
def queueIn (q : MuIn) : List MuIn → List MuIn
  | [] => [q]
  | h :: t => if MuIn.before q h then q :: h :: t else h :: queueIn q t

/-- A stamp of input `i` waits at every unit that names the input, and a loss at every unit, until its tick is over, so that edges of one tick meet the
unit in the order of R285 whatever the order of their rows. -/
def muQueue (s : State) (u : Fin 16) (i : Nat) (isLoss : Bool) (x : Stamp) : State :=
  let put (isB : Bool) (s : State) : State := s.modMeas u (fun y => { y with queue := queueIn ⟨isB, if isLoss then some i else none, x⟩ y.queue })
  if isLoss then put false s else
  let s := if s.act F.TM_MU_CFG_IN_A [u] = i then put false s else s
  if s.act F.TM_MU_CFG_IN_B [u] = i ∧ s.act F.TM_MU_CFG_MODE [u] < 2 then put true s else s

/-- The unit judges what waits at it from ticks before `t`. -/
def muJudge (s : State) (u : Fin 16) (t : Nat) : State :=
  let q := s.meas[u].queue
  let s := s.modMeas u (fun y => { y with queue := q.filter (fun x => decide (t ≤ x.x.t)) })
  (q.filter (fun x => decide (x.x.t < t))).foldl (fun s x => s.muMeets u x) s

/-- A unit with nothing pending and nothing summed. -/
def muClear (m : Meas) : Meas :=
  { m with a := none, b := none, edges := 0, lastA := none, n := 0, sum := 0, tStart := 0, coincident := false, quality := 0, stale := false }

/-- The gate opens at tick `t` with nothing pending (R283, R287). -/
def muOpen (s : State) (u : Fin 16) (t : Nat) : State := s.modMeas u (fun y => { muClear y with gate := some t })

/-- An interval of judging ends: unmatched edges are discarded, FREQ and partial sums give their results (R287–R289). -/
def muEnd (s : State) (u : Fin 16) (g : Nat) : State :=
  let m := s.meas[u]
  let mode := s.act F.TM_MU_CFG_MODE [u]
  let s := if mode = 4 then
      match m.a, m.lastA with
      | some a, some b => if 2 ≤ m.edges then s.muResult u a.t ((b.t : Int) - a.t) (m.edges - 1) else s.muResult u g 0 0
      | _, _ => s.muResult u g 0 0
    else
      let s := s.incSat F.TM_MU_CNT0_UNPAIRED [u] (m.a.isSome.toNat + m.b.isSome.toNat)
      if 0 < m.n then s.muResult u m.tStart m.sum m.n else s
  s.modMeas u muClear

/-- The gate closes at tick `t`, after the stamps before it; a unit that does not judge gives no result (R283, R287–R289, R291). -/
def muClose (s : State) (u : Fin 16) (t : Nat) : State :=
  match s.meas[u].gate with
  | none => s
  | some g =>
    let s := s.muJudge u t
    (if s.muOn u then s.muEnd u g else s).modMeas u (fun y => { muClear y with gate := none })

/-- A commit is about to copy values: each unit judges, under the settings that end, what waits at it, and one whose EN is cleared stops judging as at a
closing gate (R291, R357; log 63). -/
def muBefore (s : State) (vals : List (Nat × Word)) : State :=
  (List.finRange 16).foldl (fun s (u : Fin 16) =>
    let of_ (r : Reg) : Option Word := (vals.find? (fun p => p.1 == r.key [u])).map (·.2)
    let off := ((of_ .TM_MU_CFG).map (fun v => bitsOf v.toNat F.TM_MU_CFG_EN.lsb 1 == 0)).getD false
    let s := if (of_ .TM_MU_CFG).isSome || (of_ .TM_MU_GATE).isSome || (of_ .TM_MU_AVG).isSome then s.muJudge u (s.now + 1) else s
    match s.meas[u].gate with
    | some g => if s.muOn u && off then s.muEnd u g else s
    | none => s) s

/-- A commit that sets ALWAYS opens the gate, and one that clears it closes the gate (R283). -/
def muAlways (s : State) (u : Fin 16) (wasAlways : Bool) : State :=
  if s.act F.TM_MU_GATE_ALWAYS [u] = 1 then (if s.meas[u].gate.isNone then s.muOpen u s.now else s)
  else if wasAlways then s.muClose u s.now else s

/-- Level of the gate event at a unit's input, after POL: a core's pulse counts only when it was emitted for the unit's session (R283, R322). -/
def muGateLevel (s : State) (u : Fin 16) : Bool :=
  let ev := s.act F.TM_MU_GATE_GATE_EV [u]
  let v := match s.ownerMu u with
    | some k => s.evLevelFor k ev
    | none => s.evLevel ev
  v != (s.act F.TM_MU_GATE_POL [u] == 1)

/-- Sample every unit's gate event at an event-clock edge (R283). -/
def sampleGates (s : State) : State :=
  (List.finRange 16).foldl (fun s (u : Fin 16) => let v := s.muGateLevel u; s.modMeas u (fun y => { y with gateIn := v })) s

/-- The gate follows what was sampled at edge `t`: it opens where the event was first active and closes where it was first inactive (R283). -/
def muGate (s : State) (u : Fin 16) (t : Nat) : State :=
  if s.act F.TM_MU_GATE_ALWAYS [u] = 1 then s
  else if s.meas[u].gateIn then (if s.meas[u].gate.isNone then s.muOpen u t else s)
  else s.muClose u t

/-- Before the next edge is sampled every gate has followed the last one, and every stamp before the present edge is judged; a unit that no session owns
holds nothing for its next owner (R283, R290, R357). -/
def restMeas (s : State) : State :=
  let t := s.now / 2048 * 2048
  (List.finRange 16).foldl (fun s (u : Fin 16) =>
    let s := (s.muGate u (t - 2048)).muJudge u t
    if (s.ownerMu u).isNone then s.modMeas u muClear else s) s

/-- TBC is about to be loaded: every stamp of the old count is judged before, each gate having followed the last edge (R72, R283). -/
def measBeforeLoad (s : State) : State :=
  (List.finRange 16).foldl (fun s (u : Fin 16) => (s.muGate u (s.now / 2048 * 2048)).muJudge u (s.now + 1)) s

/-! ### Mask tests (R263–R267) -/

def modMask (s : State) (m : Fin 16) (f : Mask → Mask) : State := { s with masks := s.masks.set m (f s.masks[m]) }

/-- Earliest and latest tick of a window (R263). -/
def winLo (s : State) (m : Fin 16) (w : MaskWin) : Int :=
  (w.b.t : Int) + signedOf (s.act F.GL_MT_EXP_EXP [m]) 32 - s.act F.GL_MT_TOL_TOL_LO [m]
def winHi (s : State) (m : Fin 16) (w : MaskWin) : Int :=
  (w.b.t : Int) + signedOf (s.act F.GL_MT_EXP_EXP [m]) 32 + s.act F.GL_MT_TOL_TOL_HI [m]

/-- Does a window contain a tick? -/
def winHas (s : State) (m : Fin 16) (w : MaskWin) (t : Nat) : Bool := decide (s.winLo m w ≤ t) && decide ((t : Int) ≤ s.winHi m w)

/-- Update the first window of a list that satisfies a test. -/
def firstWin (p : MaskWin → Bool) (f : MaskWin → MaskWin) : List MaskWin → List MaskWin
  | [] => []
  | h :: t => if p h then f h :: t else h :: firstWin p f t

/-- An A edge belongs to the earliest window that contains it and has no edge; else it is an extra edge of the earliest that contains it, or
belongs to none (R263). -/
def maskA (s : State) (m : Fin 16) (x : Stamp) : State :=
  let ws := s.masks[m].wins
  if ws.any (fun w => s.winHas m w x.t && w.a.isNone) then
    s.modMask m (fun y => { y with wins := firstWin (fun w => s.winHas m w x.t && w.a.isNone) (fun w => { w with a := some x }) y.wins })
  else if ws.any (fun w => s.winHas m w x.t) then
    s.modMask m (fun y => { y with wins := firstWin (fun w => s.winHas m w x.t) (fun w => { w with extra := w.extra ++ [x] }) y.wins })
  else s.modMask m (fun y => { y with loose := y.loose ++ [x] })

/-- The earlier of two A edges. -/
def firstEdge (a : Option Stamp) (x : Stamp) : Option Stamp :=
  match a with
  | some y => if x.t < y.t then some x else some y
  | none => some x

/-- A B edge opens a window. The earliest A edge in it that belongs to no window, or is an extra of an earlier one, belongs to it, and the others that
belonged to none are its extras (R263). -/
def maskB (s : State) (m : Fin 16) (x : Stamp) : State :=
  let y := s.masks[m]
  let w : MaskWin := ⟨x, none, [], y.lostAt.any (fun t => s.winHas m ⟨x, none, [], false⟩ t)⟩
  let has (a : Stamp) : Bool := s.winHas m w a.t
  let a := ((y.loose ++ (y.wins.flatMap (fun v => v.extra) ++ y.spare)).filter has).foldl firstEdge none
  let free (b : Stamp) : Bool := some b != a
  let w := { w with a := a, extra := y.loose.filter (fun b => has b && free b) }
  s.modMask m (fun y => { y with
    wins := y.wins.map (fun v => { v with extra := v.extra.filter free }) ++ [w]
    loose := y.loose.filter (fun b => !has b)
    spare := y.spare.filter (fun b => free b && decide (s.winLo m w ≤ b.t)) })

/-- Does a test judge (R357)? -/
def maskOn (s : State) (m : Fin 16) : Bool := s.act F.GL_MT_CFG_EN [m] == 1 && (s.ownerMt m).isSome

/-- A stamp of an input reaches a mask test. -/
def maskStamp (s : State) (m : Fin 16) (i : Nat) (x : Stamp) : State :=
  if s.maskOn m then
    let s := if s.act F.GL_MT_CFG_IN_B [m] = i ∧ counts (s.act F.GL_MT_CFG_EDGE_B [m]) x.rise then s.maskB m x else s
    if s.act F.GL_MT_CFG_IN_A [m] = i ∧ counts (s.act F.GL_MT_CFG_EDGE_A [m]) x.rise then s.maskA m x else s
  else s

/-- A stamp of an input is lost at tick `t`: windows that contain it are not judged otherwise (R263, CAUSE 4). -/
def maskLost (s : State) (m : Fin 16) (i t : Nat) : State :=
  if s.act F.GL_MT_CFG_IN_A [m] = i ∨ s.act F.GL_MT_CFG_IN_B [m] = i then
    s.modMask m (fun y => { y with lostAt := y.lostAt ++ [t], wins := y.wins.map (fun w => if s.winHas m w t then { w with lost := true } else w) })
  else s

/-- A violation record (R266). -/
def violBytes (tRef tA : Nat) (offset : Int) (m cause flags vcount : Nat) : List Byte :=
  leBytes 6 (tRef % 2 ^ 48) ++ (leBytes 6 (tA % 2 ^ 48) ++ (leBytes 4 (patternOf (max (-2147483647) (min 2147483647 offset)) 32) ++
  (leBytes 1 m ++ (leBytes 1 cause ++ (leBytes 2 flags ++ (leBytes 4 vcount ++ (leBytes 7 0 ++ leBytes 1 2)))))))

/-- A judgement within a shot's tally, or after the tally of one (R371, R378). -/
def tallyJudge (s : State) (k m : Fin 16) (viol stale : Bool) : State :=
  if s.tallying k then
    let s := s.modBurst k (fun b => { b with shotViol := b.shotViol + viol.toNat, shotStale := b.shotStale || stale })
    s.modTally k (fun t => { t with
      stale := t.stale || stale, viol := if viol then t.viol.set m (sat32 t.viol[m]) else t.viol })
  else if (s.sess[k].burst.map (fun b => b.shots != 0)).getD false then s.modTally k (fun t => { t with late := sat32 t.late }) else s

/-- MASK_VIOLATION, and MASK_STOP when the test's STOP rule is met (R264–R267). -/
def violation (s : State) (m : Fin 16) (tRef tA : Nat) (offset : Int) (cause q : Nat) (stale : Bool) : State :=
  match s.ownerMt m with
  | none => s
  | some k =>
    let s := s.incSat F.GL_MT_VIOL_COUNT [m]
    let v := s.get F.GL_MT_VIOL_COUNT [m]
    let i := s.runInst k
    let s := s.modGl k (fun g => { g with violCount := sat32 g.violCount, viols := g.viols ++ [(violBytes tRef tA offset m cause (stale.toNat + 2 * q) v, i)] })
    let s := ((s.sticky k (fun x => { x with maskViol := true })).noteCond k Cond.maskViol).noteStale k stale
    let s := s.tallyJudge k m true stale
    let stop := s.act F.GL_MT_CFG_STOP [m]
    if (stop = 1 ∨ (stop = 2 ∧ v = s.act F.GL_MT_VMAX_VMAX [m])) ∧ s.sess[k].seq.isSome then
      (s.endSeq k .maskStop).haltUnits k s.now
    else s

/-- Offset of an A edge in a window (R266). -/
def winOffset (s : State) (m : Fin 16) (w : MaskWin) (x : Stamp) : Int := (x.t : Int) - w.b.t - signedOf (s.act F.GL_MT_EXP_EXP [m]) 32

/-- Judge a window (R263, R264). -/
def judgeWin (s : State) (m : Fin 16) (w : MaskWin) : State :=
  let q (x : Stamp) := worseQ w.b.quality x.quality
  let st (x : Stamp) := w.b.stale || x.stale
  if w.lost then
    match w.a with
    | some x => s.violation m w.b.t x.t (s.winOffset m w x) 4 (q x) (st x)
    | none => s.violation m w.b.t 0 0 4 w.b.quality w.b.stale
  else
    match w.a, w.extra with
    | none, _ => s.violation m w.b.t 0 0 1 w.b.quality w.b.stale
    | some x, [] =>
      let s := s.incSat F.GL_MT_PASS_COUNT [m]
      match s.ownerMt m with
      | some k => (s.tallyJudge k m false (st x)).noteStale k (st x)
      | none => s
    | some _, ex => ex.foldl (fun s x => s.violation m w.b.t x.t (s.winOffset m w x) 2 (q x) (st x)) s

/-! ### Stamps (R269–R277) -/

/-- Is a stamp of the input written to the stamp region (R275)? -/
def storesStamp (s : State) (i : Nat) : Bool :=
  match s.ownerInput i with
  | none => false
  | some k => match s.act F.TM_IN_CFG_STORE [i] with
    | 1 => s.sess[k].seq.isSome
    | 2 => true
    | _ => false

/-- A stamp of an input is lost at tick `t` (R26, R263, R271, R274, R277). -/
def stampLost (s : State) (i : Fin 112) (t : Nat) : State :=
  let s := s.modInput i (fun y => { y with lost := true })
  let s := (List.finRange 16).foldl (fun s (u : Fin 16) => s.muQueue u i true ⟨t, false, 0, false, true, false, none⟩) s
  let s := (List.finRange 16).foldl (fun s (m : Fin 16) => s.maskLost m i t) s
  match s.ownerInput i with
  | some k => s.noteLoss k
  | none => s

/-- The voltages of an input's balls become `vp` and `vn` µV at tick `t`: a channel's comparator meets the threshold of EDGE_TH, a TRIG ball its fixed
thresholds of 870 mV and 930 mV (R99, R100, R500). The crossing drives the input's Hedgerow producer, and every event that rises with it is noted
(R314, R316, R332). The answer names the crossing: rising or falling, none where no threshold is passed. -/
def crossInput (s : State) (i : Fin 112) (t : Nat) (vp vn : Int) : State × Option Bool :=
  if h : i.val < 96 then
    let n : Fin 12 := ⟨i.val / 8, by omega⟩
    let l : Fin 8 := ⟨i.val % 8, by omega⟩
    let s' := s.laneVolts n l t vp vn
    if s.laneCross n l = s'.laneCross n l then (s', none) else (s.noteRises s', some (s'.laneCross n l))
  else
    let k : Fin 16 := ⟨i.val - 96, by omega⟩
    let old := s.hr.trig[k]
    let new := if 930000 < vp then true else if vp < 870000 then false else old
    if old = new then (s, none) else (s.noteRises (s.modHr (fun r => { r with trig := r.trig.set k new })), some new)

/-- Does an edge keep the spacing of R271? -/
def spaced (y : Input) (t : Nat) : Bool :=
  (match y.last with
    | some a => decide (a + 656 ≤ (t : Int))
    | none => true) &&
  (match y.last2 with
    | some a => decide (a + 16384 ≤ (t : Int))
    | none => true)

end State

/-- A stamp of an input enters its FIFO, the mask tests and the measurement units; the first after a loss carries it (R270, R274, R277, R284). -/
def State.takeStamp (s : State) (i : Fin 112) (x : Stamp) : State :=
  let s := s.modInput i (fun y => { y with fifo := y.fifo ++ [{ x with loss := y.lost }], lost := false })
  let s := (List.finRange 16).foldl (fun s (m : Fin 16) => s.maskStamp m i x) s
  (List.finRange 16).foldl (fun s (u : Fin 16) => s.muQueue u i false x) s

/-- STAMP_EDGE: in tick `t` an input's balls take voltages; a crossing of a selected direction is stamped (R99–R101, R270–R277,
R500). -/
def execStampEdge (i : Fin 112) (t : Nat) (v : BallVolts) (s : State) : Host.Outcome State Fault Refusal :=
  let t := s.tickOf t
  let r := s.crossInput i t v.p v.n
  let s := r.1
  match r.2 with
  | none => .next s
  | some rise =>
    if s.act F.TM_IN_CFG_STAMP_EN [i] = 0 ∨ !State.counts (s.act F.TM_IN_CFG_EDGE [i]) rise then .next s
    else if !State.spaced s.inputs[i] t then .next ((s.count F.TM_IN_CNT_TOO_CLOSE [i]).stampLost i t)
    else
      let s := s.modInput i (fun y => { y with last := some (t : Int), last2 := y.last })
      if 512 ≤ s.inputs[i].fifo.length then .next ((s.count F.TM_IN_CNT_LOST [i]).stampLost i t)
      else .next (s.takeStamp i ⟨t, rise, s.quality, s.inputStale i, false, s.storesStamp i, (s.ownerInput i).bind (fun k => s.runInst k)⟩)

namespace State

/-- Is an A edge that belongs to no window judgeable: B's stamps have passed tA − EXP + TOL_LO (R263)? -/
def strayDue (s : State) (m : Fin 16) (x : Stamp) : Bool :=
  decide ((x.t : Int) - signedOf (s.act F.GL_MT_EXP_EXP [m]) 32 + s.act F.GL_MT_TOL_TOL_LO [m] < s.now)

end State

/-- MASK_WINDOW_JUDGE: the oldest window of the test, when it has closed, is judged; a lost tick that no later window can contain is dropped (R263,
R264). -/
def execMaskWindowJudge (m : Fin 16) (s : State) : Host.Outcome State Fault Refusal :=
  match s.masks[m].wins with
  | [] => .next s
  | w :: t =>
    if s.winHi m w < s.now then
      let s := s.modMask m (fun y => { y with
        wins := t, spare := y.spare ++ w.extra, lostAt := y.lostAt.filter (fun x => decide (s.winLo m w ≤ x)) })
      .next (s.judgeWin m w)
    else .next s

/-- STRAY_JUDGE: the oldest A edge that belongs to no window is judged once it is judgeable (R263, R264). -/
def execStrayJudge (m : Fin 16) (s : State) : Host.Outcome State Fault Refusal :=
  match s.masks[m].loose with
  | [] => .next s
  | x :: t =>
    if s.strayDue m x then
      let s := s.modMask m (fun y => { y with loose := t })
      .next (if s.act F.GL_MT_CFG_STRAY_EN [m] = 1 then s.violation m 0 x.t 0 3 x.quality x.stale else s)
    else .next s

/-- MU_GATE_OPEN: the gate event was first sampled active at the last event-clock edge (R283, R322). -/
def execMuGateOpen (u : Fin 16) (s : State) : Host.Outcome State Fault Refusal :=
  .next (if s.meas[u].gateIn then s.muGate u (s.now / 2048 * 2048) else s)

/-- MU_GATE_CLOSE: the gate event was first sampled inactive at the last event-clock edge (R283, R287–R289). -/
def execMuGateClose (u : Fin 16) (s : State) : Host.Outcome State Fault Refusal :=
  .next (if s.meas[u].gateIn then s else s.muGate u (s.now / 2048 * 2048))

end Sys2Proof.Machine
end

