-- ==== Sys2Proof/Machine/TimeBase.lean ====
section
/-! DEFINITION. The time base (spec/02_time_base.md): REFIN, the PLL states, holdover, epochs and SYNCOUT. -/

namespace Sys2Proof.Machine

namespace State

/-- State code of R61. -/
def tbState (s : State) : Nat := s.get F.TB_STATUS_STATE

/-- The phase error that TB_PHASE shows (R66, R76): in RECOVER the PLL has removed at most 1 tick in 10^6 of the error measured at entry, in LOCKED
the error stays within ±64 ticks; between these bounds it is the part's own (log 7). In every other state the last value shown stays (log 45). -/
def phaseNow (s : State) : Int :=
  let gone := s.now - s.tb.phaseAt
  let free := Config.phaseErr s.now
  match s.tbState with
  | 2 => if gone = 0 then s.tb.phase else (free % 129 : Int) - 64
  | 4 =>
    let e := s.tb.phase.natAbs
    let least := e - (gone + 999999) / 1000000
    let m : Nat := least + free % (e - least + 1)
    if s.tb.phase < 0 then -(m : Int) else m
  | _ => s.tb.phase

/-- The PLL measures a phase error. -/
def setPhase (s : State) (e : Int) : State := s.modTb (fun t => { t with phase := e, phaseAt := s.now })

/-- Commands, shots and captures in hand take the worst time-base quality they meet (R262, R378, R380, R397). -/
def noteQuality (s : State) (q : Nat) : State :=
  { s with
    sess := s.sess.map (fun x => { x with
      worstQ := worseQ x.worstQ q, burst := x.burst.map (fun b => { b with shotQ := worseQ b.shotQ q }) })
    host := s.host.map (fun (h : HostSess) => { h with
      live := h.live.map (fun (i : Inst) => if i.began then { i with worstQ := worseQ i.worstQ q } else i) })
    trigs := s.trigs.map (fun g => { g with quality := worseQ g.quality q }) }

/-- Enter a state of R61; a pulse whose S lies before loses R73's condition when the state is not LOCKED. The phase error last shown stays, as
the spec says nothing of TB_PHASE outside RECOVER and LOCKED (DESIGN CHOICE, log 45). -/
def tbEnter (s : State) (st : Nat) : State :=
  let s := ((s.setPhase s.phaseNow).set F.TB_STATUS_STATE [] st).noteQuality (qualityCode st)
  if st = 2 then s else s.modTb (fun t => { t with pulses := t.pulses.map (fun p => { p with good := false }) })

/-- Milliseconds of the present holdover (R67). -/
def holdMs (s : State) : Nat :=
  match s.tb.holdStart with
  | some t => (s.now - t) / (1000 * ticksPerUs)
  | none => 0

/-- HOLDOVER_ENTRY: the PLL holds the averaged word (R64); a HOLD_LIMIT of 0 sets EPOCH_SUSPECT on every holdover (R67). -/
def enterHoldover (s : State) (word : Nat) : State :=
  let s := (s.tbEnter 3).modTb (fun t => { t with heldWord := word, holdStart := some s.now })
  let s := (s.set F.TB_HOLD_LAST_HOLD [] 0).tbEvent 3
  if s.get F.TB_HOLD_HOLD_LIMIT = 0 then s.set F.TB_STATUS_EPOCH_SUSPECT [] 1 else s

/-- A holdover ends: LAST_HOLD keeps its duration (R67, R76). -/
def leaveHoldover (s : State) : State :=
  (s.set F.TB_HOLD_LAST_HOLD [] (min s.holdMs 65535)).modTb (fun t => { t with holdStart := none })

/-- REFIN is declared lost or out of range: its qualification ends and the state moves as R61 says (R55–R57). -/
def loseRef (s : State) (word : Nat) : State :=
  let s := (s.modTb (fun t => { t with qualified := false })).tbEvent 0
  let s := s.detect 0x0E 0 .policy false none
  match s.tbState with
  | 1 => s.tbEnter 0
  | 2 => s.enterHoldover word
  | 4 => s.enterHoldover word
  | _ => s

/-- Is a window count within ±2 % of a nominal's count per millisecond (R56)? -/
def nearCount (count nominal : Nat) : Bool :=
  decide (nominal - nominal / 50 ≤ count) && decide (count ≤ nominal + nominal / 50)

/-- Is a window count in range of the selected nominal, or of either in auto mode (R54, R56)? -/
def countInRange (s : State) (count : Nat) : Bool :=
  match s.act F.TB_REF_CFG_FREQ with
  | 0 => nearCount count 10000
  | 1 => nearCount count 100000
  | _ => nearCount count 10000 || nearCount count 100000

/-- The nominal taken at qualification: true 100 MHz (R54). -/
def pickNominal (s : State) : Bool :=
  match s.act F.TB_REF_CFG_FREQ with
  | 0 => false
  | 1 => true
  | _ => decide (50000 < s.tb.lastCount)

/-- Signed phase error saturated at ±32,767 (R66). -/
def phaseField (e : Int) : Nat := patternOf (max (-32767) (min 32767 e)) 16

/-- LOCK_FAULT_ENTRY: the time base enters FAULT, a hard fault of the device (R56, R63). -/
def enterLockFault (s : State) (word : Nat) : State :=
  let inj := s.takeInject 0x0D 0
  let s := (inj.2.tbEnter 5).modTb (fun t => { t with heldWord := word })
  ((s.tbEvent 5).detect 0x0D 0 .device inj.1 none).faultDevice

/-- Leave FAULT, or a changed FREQ or BW: to ACQUIRE when REFIN is qualified, else to NOREF (R61, R63, R76). -/
def reacquire (s : State) : State :=
  let s := if s.tbState = 3 then s.leaveHoldover else s
  s.tbEnter (if s.tb.qualified then 1 else 0)

/-- Does a sequence, a shot, a capture or a measurement run on the device (R73)? A trigger unit that is not IDLE counts as a capture, and an owned
measurement unit with EN = 1 as a measurement whatever its gate; an input that stamps and a mask test count as neither (DESIGN CHOICE, log 45). -/
def deviceRuns (s : State) : Bool :=
  s.sess.any (fun x => x.seq.isSome || x.burst.isSome) ||
  (List.range 8).any (fun u => s.get F.TG_STATUS_STATE [u] != 0) ||
  (List.range 16).any (fun u => (s.ownerMu u).isSome && s.act F.TM_MU_CFG_EN [u] == 1)

/-- A sync pulse is detected from source `src` (0 SYNCIN, 1 a Tabolyar port) at its edge S: R71, R73, R74. SRC and LAG are judged as they stand at S
(DESIGN CHOICE, log 45). A pulse behind one that may yet be honoured waits for that one's E. -/
def syncDetect (s : State) (src : Nat) : State :=
  let s := s.tbEvent 7
  let inHand := s.tb.pulses.any (fun p => p.armed && p.good && !p.behind)
  let good := s.get F.TB_EPOCH_CTRL_SRC == src && s.get F.TB_EPOCH_CTRL_LAG != 0 && s.tbState == 2
  let s := if s.tb.armEff || inHand then s else s.count F.TB_EPOCH_STAT_UNARMED
  s.modTb (fun t => { t with pulses := t.pulses ++ [⟨t.armEff, good, inHand, s.get F.TB_EPOCH_CTRL_LAG⟩] })

/-- The pulse in hand is not honoured: the pulses behind it stand for themselves, up to the next that may be honoured. The second value says how many of
them were not armed (R74). -/
def settlePulses : List SyncPulse → List SyncPulse × Nat
  | [] => ([], 0)
  | p :: t =>
    if !p.behind then (p :: t, 0)
    else if p.armed && p.good then ({ p with behind := false } :: t, 0)
    else let r := settlePulses t; ({ p with behind := false } :: r.1, r.2 + (!p.armed).toNat)

/-- Does REFIN arrive at 100 MHz? While the PLL follows REFIN it has the nominal in use; otherwise the last range window says (R54, R56, log 42). -/
def refFast (s : State) : Bool :=
  let nominal := s.get F.TB_STATUS_REF_NOMINAL == 1
  if s.tbState = 1 ∨ s.tbState = 2 ∨ s.tbState = 4 then nominal
  else if nearCount s.tb.lastCount 100000 then true
  else if nearCount s.tb.lastCount 10000 then false
  else nominal

/-- MCLK edges between REFIN edges (R58). -/
def refDivide (s : State) : Nat := if s.refFast then 16 else 160

/-- REFIN periods from the edge N of a link epoch to its S: 1.0 µs (R444). -/
def linkPeriods (s : State) : Nat := if s.refFast then 100 else 10

/-- SYNCOUT starts a pulse two REFIN periods wide (R75); a device without upstream sends it as a link EPOCH, whose S comes K REFIN periods later for
itself too (R444). -/
def syncoutStart (s : State) : State :=
  let s := (s.modTb (fun t => { t with syncoutLeft := 2 })).linkEpoch
  if s.hasUpstream then s else s.modTb (fun t => { t with linkLeft := t.linkLeft ++ [s.linkPeriods] })

/-- The pulse that the sync period brings starts at the REFIN edge at which the period has run out (R75). -/
def syncoutDue (s : State) : State :=
  let p := s.get F.TB_SYNC_PERIOD_PERIOD
  if s.get F.TB_EPOCH_CTRL_SYNCOUT_MODE = 3 ∧ p ≠ 0 ∧ s.tb.periodLeft = some 0 then
    s.syncoutStart.modTb (fun t => { t with periodLeft := some (max 3 p) })
  else s

/-- Link pulses advance by one REFIN edge; one whose S this is is detected with SRC = 1 (R444). -/
def linkTick (s : State) : State :=
  let due := s.tb.linkLeft.filter (fun n => decide (n ≤ 1))
  let s := s.modTb (fun t => { t with linkLeft := (t.linkLeft.filter (fun n => decide (1 < n))).map (· - 1) })
  if due.isEmpty || s.get F.TB_EPOCH_CTRL_SRC != 1 then s else s.syncDetect 1

/-! ### A load of TBC (R72): every tick that the state holds of something in progress moves with it, since the time that has passed stays -/

def shiftEdge (d : Nat) (e : EdgeAt) : EdgeAt := { e with at_ := e.at_ + d }

/-- The REFIN edge of an EPOCH that waits for its flit. -/
def shiftMsg (d : Nat) (m : NetMsg) : NetMsg :=
  match m with
  | .epoch at_ => .epoch (at_ + d)
  | m => m

/-- A lane's ticks. -/
def shiftLane (d : Nat) (l : Lane) : Lane := { l with
  edges := l.edges.map (shiftEdge d)
  lastChange := l.lastChange.map (· + d)
  cmp := l.cmp.map (fun c => { c with strobe := c.strobe + d, close := c.close.map (· + d) })
  vec := l.vec.map (fun v => { v with edges := v.edges.map (shiftEdge d), lastChange := v.lastChange.map (· + d) })
  trace := l.trace.map (fun p => { p with at_ := p.at_ + d })
  seen := l.seen.map (fun p => { p with at_ := p.at_ + d })
  hizFrom := l.hizFrom + d, hizTo := l.hizTo + d
  oldTh := l.oldTh.map (fun p => { p with at_ := p.at_ + d }) }

/-- A strobe's ticks. -/
def shiftStrobe (d : Nat) (x : Strobe) : Strobe :=
  let f (l : List (Nat × Option Nat)) := l.map (fun (p : Nat × Option Nat) => (p.1 + d, p.2.map (· + d)))
  ⟨f x.past, f x.cur⟩

/-- A slice's ticks; it plays nothing when TBC is loaded (R73). -/
def shiftSlice (d : Nat) (x : Slice) : Slice := { x with
  lanes := x.lanes.map (shiftLane d)
  strobes := x.strobes.map (shiftStrobe d)
  swap := x.swap.map (fun w => { w with start := w.start + d })
  marks := x.marks.map (fun (p : Nat × Nat × Bool) => (p.1 + d, p.2)) }

/-- An output's ticks. -/
def shiftAo (d : Nat) (a : Ao) : Ao := { a with
  slots := a.slots.map (fun x => { x with at_ := x.at_ + d })
  oscs := a.oscs.map (fun (x : Nat × Nat) => (x.1 + d, x.2))
  slewAt := a.slewAt.map (· + d), accAt := a.accAt.map (· + d), rangeAt := a.rangeAt + d }

/-- Every tick of the state that a load of TBC leaves as old as it was. Stamps and records keep the values they were taken with. -/
def shiftTicks (s : State) (d : Nat) : State := { s with
  slices := s.slices.map (shiftSlice d)
  aos := s.aos.map (shiftAo d)
  inputs := s.inputs.map (fun (y : Input) => { y with last := y.last.map (· + (d : Int)), last2 := y.last2.map (· + (d : Int)) })
  meas := s.meas.map (fun (m : Meas) => { m with gate := m.gate.map (· + d) })
  tb := { s.tb with phaseAt := s.tb.phaseAt + d, holdStart := s.tb.holdStart.map (· + d) }
  hr := { s.hr with cgLog := s.hr.cgLog.map (fun (x : Nat × Nat × Bool) => (x.1 + d, x.2)), jlAt := s.hr.jlAt + d }
  cal := { s.cal with
    units := s.cal.units.map (fun (x : CalUnit) => { x with start := x.start + d, runStart := x.runStart + d })
    due := s.cal.due.map (fun (x : Nat × Nat) => (x.1 + d / 2048, x.2)) }
  net := { s.net with
    slewFrom := s.net.slewFrom + d, raccAt := s.net.raccAt + d
    ports := s.net.ports.map (fun (x : Port) => { x with out := x.out.map (shiftMsg d) }) }
  flt := { s.flt with injAt := s.flt.injAt + d } }

/-- An honoured epoch loads TBC and restarts the event-clock divider (R72–R74). -/
def honourEpoch (s : State) : State :=
  let v := s.pair F.TB_EPOCH_LO_VALUE F.TB_EPOCH_HI_VALUE [] * 2048 % 2 ^ 64
  let laps := if v < s.tb.tbc.toNat then s.tb.laps + 1 else s.tb.laps
  let s := s.shiftTicks (v + 2 ^ 64 * laps - s.now)
  let s := s.modTb (fun t => { t with tbc := BitVec.ofNat 64 v, laps := laps, armEff := false, armLast := false, streamHi := (v + 2 ^ 64 * laps) / 2 ^ 48 })
  let s := (s.set F.TB_EPOCH_CTRL_ARM [] 0).incWrap F.TB_STATUS_EPOCH_SEQ []
  (s.set F.TB_STATUS_EPOCH_SUSPECT [] 0).tbEvent 6

/-- TB_SYNC_SNAP takes the value TBC would hold at E without a load (R72). -/
def takeSnap (s : State) : State :=
  (s.set F.TB_SYNC_SNAP_LO_SNAP [] (s.now % 2 ^ 32)).set F.TB_SYNC_SNAP_HI_SNAP [] (s.now / 2 ^ 32 % 2 ^ 32)

end State

/-- REF_LOST: no REFIN edge for 420 ns (R55, R57, R61). -/
def execRefLost (word : Nat) (s : State) : Host.Outcome State Fault Refusal :=
  .next (if s.get F.TB_STATUS_REF_PRESENT = 1 then
    ((s.set F.TB_STATUS_REF_PRESENT [] 0).set F.TB_STATUS_REF_IN_RANGE [] 0).loseRef word else s)

/-- RANGE_WINDOW_END: a 1 ms window ends with its count and REFIN is judged (R56). -/
def execRangeWindowEnd (present throughout : Bool) (count word : Nat) (s : State) : Host.Outcome State Fault Refusal :=
  let ok := throughout && s.countInRange count
  let was := s.get F.TB_STATUS_REF_IN_RANGE = 1
  let s := (s.modTb (fun t => { t with lastCount := count })).set F.TB_STATUS_REF_PRESENT [] present.toNat
  let s := s.set F.TB_STATUS_REF_IN_RANGE [] ok.toNat
  .next (if was ∧ !ok then s.loseRef word else s)

/-- REF_QUALIFIED: REFIN has been present and in range for QUAL milliseconds (R54, R57, R61, R66). -/
def execRefQualified (phase : Int) (s : State) : Host.Outcome State Fault Refusal :=
  if s.get F.TB_STATUS_REF_PRESENT = 1 ∧ s.get F.TB_STATUS_REF_IN_RANGE = 1 ∧ s.tb.qualified = false then
    let s := (s.modTb (fun t => { t with qualified := true })).tbEvent 1
    match s.tbState with
    | 0 => .next ((s.set F.TB_STATUS_REF_NOMINAL [] s.pickNominal.toNat).tbEnter 1)
    | 3 => .next (((s.set F.TB_STATUS_REF_NOMINAL [] s.pickNominal.toNat).leaveHoldover.tbEnter 4).setPhase phase)
    | _ => .next s
  else .next s

/-- PLL_LOCK_DECLARED: the time base enters LOCKED from ACQUIRE (R59, R61). -/
def execPllLockDeclared (phase : Int) (s : State) : Host.Outcome State Fault Refusal :=
  .next (if s.tbState = 1 then ((s.tbEnter 2).setPhase phase).tbEvent 2 else s)

/-- LOCK_TRIP: the lock detector trips and the 10 µs comparison begins (R56). -/
def execLockTrip (word : Nat) (s : State) : Host.Outcome State Fault Refusal :=
  .next (if s.tbState = 2 ∨ s.tbState = 4 then s.modTb (fun t => { t with trip := some word }) else s)

/-- LOCK_TRIP_COMPARE: above 200 ppm REFIN is out of range, else the time base enters FAULT (R56, R63, R64). -/
def execLockTripCompare (diffPpm : Nat) (s : State) : Host.Outcome State Fault Refusal :=
  match s.tb.trip with
  | none => .next s
  | some w =>
    let s := s.modTb (fun t => { t with trip := none })
    if s.tbState = 2 ∨ s.tbState = 4 then
      if 200 < diffPpm then .next ((s.set F.TB_STATUS_REF_IN_RANGE [] 0).loseRef w) else .next (s.enterLockFault w)
    else .next s

/-- RECOVER_DONE: the remaining phase error falls below 1 tick (R61, R66). -/
def execRecoverDone (s : State) : Host.Outcome State Fault Refusal :=
  .next (if s.tbState = 4 then ((s.tbEnter 2).setPhase 0).tbEvent 4 else s)

/-- HOLD_LIMIT_EXCEEDED: the holdover outlasts HOLD_LIMIT (R67). -/
def execHoldLimitExceeded (s : State) : Host.Outcome State Fault Refusal :=
  .next (if s.tbState = 3 then s.set F.TB_STATUS_EPOCH_SUSPECT [] 1 else s)

/-- TB_CTRL.RELOCK leaves FAULT (R63). -/
def State.relock (s : State) : State := if s.tbState = 5 then s.reacquire else s

/-- RELOCK: a write of TB_CTRL.RELOCK (R63, R426). -/
def execRelock (s : State) : Host.Outcome State Fault Refusal := .next (s.hostStrobe .TB_CTRL [] 0 (fun s => s.relock))

/-- TB_EPOCH_CTRL.EMIT: a SYNCOUT pulse at the next REFIN edge in modes 2 and 3; a PERIOD of 0 emits none in mode 3 (R75). -/
def State.emit (s : State) : State :=
  let m := s.get F.TB_EPOCH_CTRL_SYNCOUT_MODE
  if m = 2 ∨ (m = 3 ∧ s.get F.TB_SYNC_PERIOD_PERIOD ≠ 0) then s.modTb (fun t => { t with emitWait := true }) else s

/-- EMIT: a write of TB_EPOCH_CTRL.EMIT (R75, R426). -/
def execEmit (s : State) : Host.Outcome State Fault Refusal := .next (s.hostStrobe .TB_EPOCH_CTRL [] 10 (fun s => s.emit))

/-- SYNCOUT_PERIODIC: the sync period expires and another pulse starts (R75). -/
def execSyncoutPeriodic (s : State) : Host.Outcome State Fault Refusal := .next s.syncoutDue

end Sys2Proof.Machine
end

