-- ==== Sys2Proof/Machine/Copy.lean ====
section
/-! DEFINITION. The copy step of a commit (R41, R42, R45): values become active, and what each block does when its active fields change. -/

namespace Sys2Proof.Machine

namespace State

/-- A commit that changes SPAN: step 1 of R312 disables the driver, clamps the output and holds the detectors clear; no sample of the old span remains. -/
def aoRangeStart (s : State) (o : Fin 16) : State :=
  let s := ((s.set F.AO_STATUS_RANGE_CHG [o] 1).set F.AO_STATUS_COMPLIANCE [o] 0).set F.AO_STATUS_OPEN_LOAD [o] 0
  s.modAo o (fun a => { a with clamped := true, slots := [], rangeAt := s.now })

/-- A region takes a new base or size: it is empty, and its stream opens anew (R254, R280). -/
def rgnReset (s : State) (k : Fin 16) (r : Fin 3) : State :=
  let s := (s.set F.GL_RGN_WPTR_PTR [k, r] 0).set F.GL_RGN_WPTR_LAP [k, r] 0
  let s := (s.set F.GL_RGN_RPTR_PTR [k, r] 0).set F.GL_RGN_RPTR_LAP [k, r] 0
  let s := s.modGl k (fun g => { g with todo := g.todo.set r 0, runs := g.runs.set r [], fwdLost := g.fwdLost.set r false, bigHeld := g.bigHeld && r != 1 })
  s.modGl k (fun g => match r with
    | 0 => { g with failUnit := none }
    | 1 => { g with cap := ⟨0, false⟩, blocks := [], done := [] }
    | _ => { g with line := [], open_ := true })

/-- A Sedge cell takes new settings: its clocked elements take INIT (R328, R329). -/
def cellReset (s : State) (c : Fin 64) : State :=
  let v := s.act F.HR_SC_CFG_INIT [c] == 1
  s.modHr (fun r => { r with cells := r.cells.set c ⟨v, 0, v, false, none, none⟩ })

/-- A lane changes MODE: its driver turns off and its high-impedance interval begins (R105). It does so also where a reflex forces the lane, whose driver
then stays off until its next period or assertion (DESIGN CHOICE, log 78). -/
def laneModeChange (s : State) (n : Fin 12) (l : Fin 8) : State :=
  ((s.modLane n l (fun x => { laneSettle x s.now with hiz := true, hizFrom := s.now, enable := false })).keepLanes n).strobeSync n

/-- A bank's OK bit follows its voltage as last found when a commit gives it a user or another class; one that no slice selects is not judged (R104). -/
def rejudgeBanks (s : State) : State :=
  [false, true].foldl (fun s b => if s.bankUsed b then s.setBank b (s.bankInRange b s.boot.bankMv[if b then (1 : Fin 2) else 0]) else s) s

/-- A lane's reflex after a commit (R113, R116, log 49): a cell that stands asserted forces the lane, a new ALT drives the ball, and a reflex that is off
or whose cell is not asserted lets the lane return. -/
def reflexCommit (s0 s : State) (n : Fin 12) (l : Fin 8) : State :=
  let x := s.slices[n].lanes[l]
  let c := s.act F.CH_REFLEX_CELL [n, l]
  let same := x.forced && !x.unforce && s0.act F.CH_REFLEX_CELL [n, l] == c
  if s.slices[n].committed && s.act F.CH_REFLEX_EN [n, l] == 1 && s.evLevel (112 + c) then
    if !same then s.forceLane n l
    else if s0.act F.CH_REFLEX_ALT [n, l] ≠ s.act F.CH_REFLEX_ALT [n, l] ∧ x.safe = .none ∧ !x.held then (s.driveAlt n l).strobeSync n
    else s
  else s.unforceLane n l

/-- A port's MODE changes: it is off in mode 0 and where its role leaves it unused, and trains else (R431, R436, R450, R453). -/
def portMode (s : State) (p : Fin 4) : State :=
  let s := ((s.set F.TL_PORT_STAT_LANES [p] 0).set F.TL_PORT_LAT_LATENCY [p] 0).modPort p clearPort
  s.set F.TL_PORT_STAT_STATE [p] (if s.portUsed p then 1 else 0)

/-- The page cache of a session moves or changes its size: it holds no page then (R223, log 74). -/
def emptyPages (s : State) (k : Fin 16) : State := s.modSess k (fun x => { x with pages := [] })

/-- What a block does when a register of its active copy changes; `s0` is the state before the copy. -/
def activeChanged (s0 s : State) (k : Nat) : State :=
  let diff (f : Fld) (ix : List Nat) : Bool := s0.act f ix != s.act f ix
  match regAt k with
  | some (.FW_INIT, [g, _]) => s.fwReload (Fin.ofNat 4 g)
  | some (.FW_CFG, [g]) => if diff F.FW_CFG_PC0 [g] then s.fwLoadFrom (Fin.ofNat 4 g) (s.act F.FW_CFG_PC0 [g]) else s
  | some (.CH_LANE_CFG, [n, l]) =>
    let s := if diff F.CH_LANE_CFG_MODE [n, l] then
        (s.laneModeChange (Fin.ofNat 12 n) (Fin.ofNat 8 l)).newThs s0 (Fin.ofNat 12 n) (Fin.ofNat 8 l) else s
    s.calDue (Fin.ofNat 36 n) 4
  | some (.CH_LVL, [n, l]) => s.newThs s0 (Fin.ofNat 12 n) (Fin.ofNat 8 l)
  | some (.CH_REFLEX, [n, l]) => s.reflexCommit s0 (Fin.ofNat 12 n) (Fin.ofNat 8 l)
  | some (.CH_SLICE_CFG, [n]) =>
    let s := (s.rejudgeBanks.keepLanes (Fin.ofNat 12 n)).strobeSync (Fin.ofNat 12 n)
    if diff F.CH_SLICE_CFG_VIO_CLASS [n] then s.calDue (Fin.ofNat 36 n) 4 else s
  | some (.AO_CFG, [o]) =>
    let u : Fin 16 := Fin.ofNat 16 o
    let s := if diff F.AO_CFG_SPAN [o] then s.aoRangeStart u else s
    let s := if s0.act F.AO_CFG_SRC [o] = 0 ∧ s.act F.AO_CFG_SRC [o] ≠ 0 then s.modAo u (fun a => { a with acc := 0, oscs := [] }) else s
    if diff F.AO_CFG_SPAN [o] || diff F.AO_CFG_SENSE [o] then s.calDue (Fin.ofNat 36 (16 + o)) 4 else s
  | some (.VS_PC, [k]) => if diff F.VS_PC_PAGES [k] then s.emptyPages (Fin.ofNat 16 k) else s
  | some (.VS_PC_BASE, [k]) => s.emptyPages (Fin.ofNat 16 k)
  | some (.RM_MEM_BASE, [k]) => s.emptyPages (Fin.ofNat 16 k)
  | some (.GL_RGN_BASE, [n, r]) => s.rgnReset (Fin.ofNat 16 n) (Fin.ofNat 3 r)
  | some (.GL_RGN_SIZE, [n, r]) =>
    if diff F.GL_RGN_SIZE_SIZE [n, r] then s.rgnReset (Fin.ofNat 16 n) (Fin.ofNat 3 r)
    else if r = 2 then s.modGl (Fin.ofNat 16 n) (fun g => { g with open_ := true }) else s
  | some (.HR_SC_IN, [c]) => s.cellReset (Fin.ofNat 64 c)
  | some (.HR_SC_CFG, [c]) => s.cellReset (Fin.ofNat 64 c)
  | some (.HR_CG_MASK, g :: _) => s.groupCommitted (Fin.ofNat 16 g)
  | some (.HR_CG_CTL, [g]) => s.groupCommitted (Fin.ofNat 16 g)
  | some (.TB_REF_CFG, _) => if diff F.TB_REF_CFG_FREQ [] || diff F.TB_REF_CFG_BW [] then s.reacquire else s
  | some (.TL_PORT_CFG, [p]) => if diff F.TL_PORT_CFG_MODE [p] then s.portMode (Fin.ofNat 4 p) else s
  | some (.TM_MU_CFG, [u]) => if diff F.TM_MU_CFG_EN [u] then s.modMeas (Fin.ofNat 16 u) muClear else s
  | some (.TM_MU_GATE, [u]) => s.muAlways (Fin.ofNat 16 u) (s0.act F.TM_MU_GATE_ALWAYS [u] == 1)
  | _ => s

/-- Copy values to the active copy in one step, then let every block act on what changed (R41). -/
def copyVals (s : State) (vals : List (Nat × Word)) : State :=
  let chg := vals.filter (fun p => s.activeK p.1 != p.2)
  let s := (s.overOutputs (fun o s => s.aoCatch o)).muBefore chg
  let s1 := chg.foldl (fun s p => s.putActive p.1 p.2) s
  chg.foldl (fun t p => activeChanged s t p.1) s1

/-- A commit of a slice has passed: its lanes leave their fault or abort state, to the force of a reflex where one stands or, with the first commit, begins
(R112, R113, R118, R120). -/
def sliceCommitted (s : State) (n : Fin 12) : State :=
  let s0 := s
  let s := s.modSlice n (fun x => { x with committed := true, lanes := x.lanes.map laneUnsafe })
  (s.overLanes (fun l s =>
    let x := s.slices[n].lanes[l]
    if x.forced then if s0.slices[n].lanes[l].safe ≠ .none && !x.held then s.driveAlt n l else s
    else if s.act F.CH_REFLEX_EN [n, l] == 1 && s.evLevel (112 + s.act F.CH_REFLEX_CELL [n, l]) then s.forceLane n l
    else s)).strobeSync n

/-- A commit of an output has passed: it leaves its fault or abort state, with the move that belongs to it, and a clamp held since an NVM failure is released
at the code of zero (R309–R312). -/
def outputCommitted (s : State) (o : Fin 16) : State :=
  let held := s.aos[o].clamped && s.get F.AO_STATUS_RANGE_CHG [o] == 0
  let z := spanZero (s.act F.AO_CFG_SPAN [o])
  s.modAo o (fun a => { a with
    committed := true, safe := .none, heldVal := none, moving := a.moving && decide (a.safe = .none),
    clamped := a.clamped && !held, value := if held then z else a.value })

/-- The slices and outputs that a commit of a scope includes. -/
def unitsCommitted (s : State) (slices outs : Nat → Bool) : State :=
  let s := s.overSlices (fun n s => if slices n then s.sliceCommitted n else s)
  s.overOutputs (fun o s => if outs o then s.outputCommitted o else s)

/-- PENDING_COMMIT_COPY: at its unit's boundary a pending commit's values become active and it reports OK (R42, R45). -/
def takePend (s : State) (scope unit_ : Nat) : State :=
  match s.commit.pends.find? (fun p => p.scope == scope && p.unit_ == unit_) with
  | none => s
  | some p =>
    let s := s.modCommit (fun c => { c with pends := c.pends.filter (fun q => !(q.scope == scope && q.unit_ == unit_)) })
    let s := (s.copyVals p.vals).unitsCommitted (fun n => scope == 2 && n == unit_) (fun o => scope == 4 && o == unit_)
    (s.reportCommit p.ring .ok).showPending

end State

end Sys2Proof.Machine
end

