-- ==== Sys2Proof/Machine/Edges.lean ====
section
/-! DEFINITION. Edge placement (spec/03_edge_placement.md, R80–R95): formatters, edge rules, strobes and changes of timing set. -/

namespace Sys2Proof.Machine

/-- The fields of one lane in one timing set (R80, R83). -/
structure LaneSet where
  fmt : Nat
  pol : Bool
  tOn : Nat
  tData : Nat
  tRet : Nat
  tStrb : Nat
  tClose : Nat
  deriving DecidableEq, Repr

/-- Levels that a formatter sets at T_ON, T_DATA and T_RET for data bit `d` (R83). -/
def fmtLevels (x : LaneSet) (d : Bool) : Option Bool × Bool × Option Bool :=
  match x.fmt with
  | 1 => (none, d, some false)
  | 2 => (none, d, some true)
  | 3 => (some !d, d, some !d)
  | 4 => (none, if d then !x.pol else x.pol, some x.pol)
  | _ => (none, d, none)

/-- Does a period produce a pulse (R83)? -/
def producesPulse (x : LaneSet) (d : Bool) : Bool :=
  match fmtLevels x d with
  | (_, a, some r) => a != r
  | _ => false

/-- What the part places for one period: its edges, its compare, and what it counts (R86–R90). -/
structure Placed where
  edges : List EdgeAt
  cmp : Option Compare
  order : Nat
  widen : Nat
  collide : Nat
  deriving DecidableEq, Repr

/-- Insert an edge behind those that are not later. -/
def insEdge (e : EdgeAt) : List EdgeAt → List EdgeAt
  | [] => [e]
  | h :: t => if e.at_ < h.at_ then e :: h :: t else h :: insEdge e t

/-- Edges in time order (R86). -/
def sortEdges (l : List EdgeAt) : List EdgeAt := l.foldl (fun a e => insEdge e a) []

/-- Driver enable that a pin state sets at T_ON (R82). -/
def enableAt (fmt pin : Nat) : Option Bool :=
  match pin with
  | 0 => some true
  | 1 => some true
  | 2 => some false
  | 7 => none
  | _ => if fmt = 5 then none else some false

/-- Level edges of a D0 or D1 period before R89: offset, edge kind (0 drive-on, 1 drive-data, 2 drive-return) and level, with what R87 and
R88 count. -/
def levelEdges (x : LaneSet) (d : Bool) : List (Nat × Nat × Bool) × Nat × Nat :=
  let v := fmtLevels x d
  let on := match v.1 with
    | some b => [(x.tOn, 0, b)]
    | none => []
  let pulse := producesPulse x d
  if pulse && decide (x.tRet ≤ x.tData) then (on, 1, 0)
  else
    let moved := pulse && decide (x.tRet < x.tData + 246)
    let ret := match v.2.2 with
      | some b => [(if moved then x.tData + 246 else x.tRet, 2, b)]
      | none => []
    (on ++ ((x.tData, 1, v.2.1) :: ret), 0, moved.toNat)

/-- The edges that R89 leaves: of those in one tick, the one that stands later in the edge order `pos`. -/
def clashKeep (pos : Nat → Nat) (l : List (Nat × Nat × Bool)) : List (Nat × Nat × Bool) :=
  l.filter (fun e => !l.any (fun f => f.1 == e.1 && decide (pos e.2.1 < pos f.2.1)))

/-- Place one period that starts at tick `t` (R80–R90). The fixed output latency, whose value R78 does not give, is taken as nothing (DESIGN CHOICE,
log 56). -/
def placePeriod (x : LaneSet) (pos : Nat → Nat) (t pin : Nat) : Placed :=
  let en := match enableAt x.fmt pin with
    | some b => [⟨t + x.tOn, none, some b⟩]
    | none => []
  if pin ≤ 1 then
    let r := levelEdges x (pin == 1)
    let k := clashKeep pos r.1
    { edges := sortEdges (en ++ k.map (fun e => ⟨t + e.1, some e.2.2, none⟩)), cmp := none, order := r.2.1, widen := r.2.2,
      collide := if producesPulse x (pin == 1) then r.1.length - k.length else 0 }
  else if 4 ≤ pin ∧ pin ≤ 6 then
    let band := if pin = 4 then 0 else if pin = 5 then 2 else 1
    if x.fmt = 6 then
      if x.tClose ≤ x.tStrb then { edges := en, cmp := none, order := 1, widen := 0, collide := 0 }
      else { edges := en, cmp := some ⟨band, t + x.tStrb, some (t + x.tClose), false⟩, order := 0, widen := 0, collide := 0 }
    else { edges := en, cmp := some ⟨band, t + x.tStrb, none, false⟩, order := 0, widen := 0, collide := 0 }
  else { edges := en, cmp := none, order := 0, widen := 0, collide := 0 }

/-- Move the first level change of a period that comes less than 246 ticks after the last one (R95): the edges, and what it counts in
EDGE_WIDEN and COLLIDE. -/
def respaceFirst (level : Bool) (last : Option Nat) : List EdgeAt → List EdgeAt × Nat × Nat
  | [] => ([], 0, 0)
  | e :: t =>
    match e.level with
    | some v =>
      if v = level then
        let r := respaceFirst level last t
        (e :: r.1, r.2)
      else
        match last with
        | some p =>
          if e.at_ < p + 246 then
            let nxt := t.find? (fun f => f.level.isSome)
            if (nxt.map (fun f => decide (f.at_ ≤ p + 246))).getD false then
              ({ e with level := none } :: t, 1, 1)
            else (insEdge ⟨p + 246, some v, none⟩ ({ e with level := none } :: t), 1, 0)
          else (e :: t, 0, 0)
        | none => (e :: t, 0, 0)
    | none =>
      let r := respaceFirst level last t
      (e :: r.1, r.2)

/-- A lane's course takes the edges of a period that starts at tick `t`; a level change still on its way stays (R86, R95, R115). -/
def takePeriod (l : Lane) (t : Nat) (p : Placed) (respace : Bool) : Lane × Nat × Nat :=
  let late := l.edges.filter (fun e => decide (t < e.at_) && e.level.isSome)
  let r := if respace then respaceFirst (laneLevel l (2 ^ 80)) (laneLast l (2 ^ 80)) p.edges else (p.edges, 0, 0)
  ({ laneSettle l t with edges := sortEdges (late ++ r.1), cmp := p.cmp }, r.2)

namespace State

/-- Period of a timing set (R79). -/
def tsPeriod (s : State) (n ts : Nat) : Nat :=
  s.act F.EP_TS_PERIOD_LO_PERIOD [ts, n] + 2 ^ 32 * s.act F.EP_TS_PERIOD_HI_PERIOD [ts, n]

/-- A lane's fields in a timing set. -/
def laneSet (s : State) (n l ts : Nat) : LaneSet where
  fmt := s.act F.EP_TS_FMT_FMT [ts, n, l]
  pol := s.act F.EP_TS_FMT_POL [ts, n, l] == 1
  tOn := s.act F.EP_TS_T_ON_TIME [ts, n, l]
  tData := s.act F.EP_TS_T_DATA_TIME [ts, n, l]
  tRet := s.act F.EP_TS_T_RET_TIME [ts, n, l]
  tStrb := s.act F.EP_TS_T_STRB_TIME [ts, n, l]
  tClose := s.act F.EP_TS_T_CLOSE_TIME [ts, n, l]

/-- Place of an edge kind in a timing set's edge order (R89). -/
def edgePos (s : State) (n ts kind : Nat) : Nat :=
  let w := (s.activeK (Reg.key .EP_TS_ORDER [ts, n])).toNat
  ((List.range 5).find? (fun i => bitsOf w (3 * i) 3 == kind)).getD 5

end State

end Sys2Proof.Machine
end

