-- ==== Sys2Proof/Machine/Trigger.lean ====
section
/-! DEFINITION. The trigger units (spec/09_trigger_capture.md, R241–R253, R259–R262, R510, R372): qualifiers, states, sample slots, captures and
headers. -/

namespace Sys2Proof.Machine

namespace State

def modTrig (s : State) (u : Fin 8) (f : Trig → Trig) : State := { s with trigs := s.trigs.set u (f s.trigs[u]) }

/-- The event-clock edge at or before the present instant (R60). -/
def edgeNow (s : State) : Nat := s.now / 2048 * 2048

/-- TG_STATUS.STATE (R242). -/
def tgState (s : State) (u : Fin 8) : Nat := s.get F.TG_STATUS_STATE [u]

def setTg (s : State) (u : Fin 8) (st : Nat) : State := s.set F.TG_STATUS_STATE [u] st

/-- Slices captured, in ascending order, and the clock slice (R247). -/
def capSlices (s : State) (u : Fin 8) : Nat := s.act F.TG_CAP_CAP_SLICES [u]
def capList (mask : Nat) : List Nat := (List.range 12).filter (fun n => bitOf mask n)
def tgPre (s : State) (u : Fin 8) : Nat := s.act F.TG_PRE_SLOTS [u]
def tgPost (s : State) (u : Fin 8) : Nat := s.act F.TG_POST_SLOTS [u]

/-! ### The qualifier (R241, R244) -/

/-- Does a change of a source count under an edge selection? -/
def edgeCounts (sel : Nat) (before now : Bool) : Bool := before != now && counts sel now

/-- Level of an event at a trigger unit's inputs: a core's pulse counts only when it was emitted for the unit's session (R322). -/
def tgLevel (s : State) (u : Fin 8) (ev : Nat) : Bool :=
  match s.ownerTg u with
  | some k => s.evLevelFor k ev
  | none => s.evLevel ev

/-- Does the condition of LEVEL or PATTERN mode hold? -/
def tgHolds (s : State) (u : Fin 8) : Bool :=
  match s.act F.TG_CFG_MODE [u] with
  | 1 => s.tgLevel u (s.act F.TG_SRC_SRC_A [u]) == (s.act F.TG_CFG_LVL [u] == 1)
  | 2 =>
    let p := s.act F.TG_SRC_PBASE [u]
    let v := ((List.range 8).map (fun k => if s.tgLevel u (p + k) then 2 ^ k else 0)).sum
    v &&& s.act F.TG_PAT_PMASK [u] == s.act F.TG_PAT_PVAL [u]
  | _ => false

/-- Sample one unit's sources at an event-clock edge; a unit that no session owns does not judge them (R241, R243, R244, R357). -/
def sampleTrigger (s : State) (u : Fin 8) : State :=
  let g := s.trigs[u]
  let t := s.edgeNow
  let a := s.tgLevel u (s.act F.TG_SRC_SRC_A [u])
  let b := s.tgLevel u (s.act F.TG_SRC_SRC_B [u])
  let m := s.tgLevel u (s.act F.TG_SRC_ARM_EV [u])
  let ea := edgeCounts (s.act F.TG_CFG_EDGE_A [u]) g.prevA a
  let eb := edgeCounts (s.act F.TG_CFG_EDGE_B [u]) g.prevB b
  let em := edgeCounts (s.act F.TG_CFG_EDGE_B [u]) g.prevArm m
  let idle := s.tgState u == 0
  let win := if eb then some (t + s.act F.TG_WIN_WIN_OPEN [u] * 2048, t + s.act F.TG_WIN_WIN_CLOSE [u] * 2048) else g.window
  let inWin := match win with
    | some w => decide (w.1 ≤ t) && decide (t ≤ w.2)
    | none => false
  let cnt := g.count + ea.toNat
  let holds := s.tgHolds u
  let began := holds && !g.held
  let fire := match s.act F.TG_CFG_MODE [u] with
    | 0 => ea
    | 3 => ea && cnt == s.act F.TG_COUNT_COUNT [u]
    | 4 => ea && inWin
    | _ => began
  let q := s.quality
  let owned := (s.ownerTg u).isSome
  let win0 := if eb then win else none
  let fire0 := match s.act F.TG_CFG_MODE [u] with
    | 0 => ea
    | 3 => ea && s.act F.TG_COUNT_COUNT [u] == 1
    | 4 => ea && eb && s.act F.TG_WIN_WIN_OPEN [u] == 0
    | _ => false
  let first : AtArm := if owned then ⟨g.fires || fire0, ea.toNat, win0⟩ else ⟨false, 0, none⟩
  if idle || !owned then
    s.modTrig u (fun g => { g with
      prevA := a, prevB := b, prevArm := m, held := owned && holds, began := false, fires := false, atArm := first,
      armSeen := idle && owned && em && s.act F.TG_CFG_ARM_EV_EN [u] == 1 })
  else
    s.modTrig u (fun g => { g with
      prevA := a, prevB := b, prevArm := m, armSeen := false, count := cnt, window := win, held := holds, began := began,
      fires := g.fires || fire, atArm := first, quality := worseQ g.quality q })

/-! ### Headers (R250, R251, R262) -/

/-- A capture header. -/
def headerBytes (u : Nat) (c : Capture) (dead : Option Nat) : List Byte :=
  let w := (capList c.slices).length
  let flags := (if c.lost = 0 then 0 else 1) + 2 * c.stale.toNat + 4 * c.quality + (if dead.isNone then 16 else 0) + 32 * c.truncated.toNat
  leBytes 1 3 ++ (leBytes 1 u ++ (leBytes 2 flags ++ (leBytes 4 c.shot ++ (leBytes 6 (c.trigTbc % 2 ^ 48) ++ (leBytes 2 w ++
  (leBytes 6 c.firstTbc ++ (leBytes 2 c.slices ++ (leBytes 4 c.pre ++ (leBytes 4 c.post ++ (leBytes 4 c.wrap ++
  (leBytes 4 (min c.ignored (2 ^ 32 - 1)) ++ (leBytes 6 (dead.getD (2 ^ 48 - 1)) ++ (leBytes 2 0 ++
  (leBytes 4 (min c.lost (2 ^ 32 - 1)) ++ (leBytes 6 c.vecIdx ++ leBytes 6 0)))))))))))))))

/-- The Gleaner takes the header of the unit's capture in hand, with its dead time when it is known. -/
def giveHeader (s : State) (u : Fin 8) (dead : Option Nat) : State :=
  match s.trigs[u].cap with
  | none => s
  | some c =>
    let s := s.modTrig u (fun g => { g with cap := none })
    match s.ownerTg u, c.block with
    | some k, some a => (s.setHeader k u a (headerBytes u c dead)).noteStale k c.stale
    | _, _ => s

/-! ### Entering states (R242–R250) -/

/-- Does the unit lead the burst in progress of its session? -/
def leads (s : State) (u : Fin 8) : Option (Fin 16) :=
  match s.ownerTg u with
  | none => none
  | some k => match s.sess[k].burst with
    | some b => if b.lead = u.val ∧ bitOf b.tgMask u then some k else none
    | none => none

/-- An ignored firing (R244, R378). -/
def ignoreFire (s : State) (u : Fin 8) : State :=
  let s := (s.count F.TG_CNT_IGNORED [u]).modTrig u (fun g => { g with
    ignored := g.ignored + 1, count := if s.act F.TG_CFG_MODE [u] = 3 then 0 else g.count })
  match s.leads u with
  | some k => s.modTally k (fun t => { t with ignored := sat32 t.ignored })
  | none => s

/-- A dead time becomes known at tick `t` for a shot of the burst of session `k` (R372, R378, R380). -/
def burstDead (s : State) (k : Fin 16) (t : Nat) : State :=
  match s.sess[k].burst with
  | none => s
  | some b => match b.deadFrom with
    | none => s
    | some d =>
      let x := t - d
      let s := s.modTally k (fun y => { y with
        deadMin := some (min x (y.deadMin.getD x)), deadMax := some (max x (y.deadMax.getD x)), deadSum := (y.deadSum + x) % 2 ^ 64 })
      let s := match b.deadRec with
        | some r => s.hostWrite k r.1 (r.2 ++ (leBytes 6 x ++ leBytes 10 0)) (some (s.sess[k].tag, s.sess[k].epoch))
        | none => s
      s.modBurst k (fun b => { b with deadFrom := none, deadRec := none })

/-- Does a header that the unit holds wait for the next shot of its burst, so that an arming between shots leaves it (R251, R372)? -/
def betweenShots (s : State) (u : Fin 8) : Bool :=
  match s.leads u with
  | some k => (s.sess[k].burst.map (fun b => b.phase == 6)).getD false
  | none => false

/-- The unit enters READY at edge `t` (R245, R246, R248, R250); the dead time of a shot ends at its lead unit's READY in the next shot (R372). -/
def enterReady (s : State) (u : Fin 8) (t : Nat) : State :=
  let wait := s.betweenShots u
  let same := (s.trigs[u].cap.map (fun c => c.trigTbc == t)).getD false
  let s := (s.setTg u 2).defer 1 (.pulse (216 + u))
  let s := match if wait then none else s.trigs[u].cap with
    | some c =>
      let d := t - c.trigTbc
      let s := (s.set F.TG_DEAD_LO_DEAD [u] (d % 2 ^ 32)).set F.TG_DEAD_HI_DEAD [u] (d / 2 ^ 32 % 2 ^ 16)
      s.giveHeader u (some (min d (2 ^ 48 - 1)))
    | none => s
  let s := if s.trigs[u].held && !same then s.modTrig u (fun g => { g with fires := true }) else s
  match s.leads u with
  | some k => if wait then s else s.burstDead k t
  | none => s

/-- A period of the unit's clock slice starts at tick `t` with vector index `v`: every DIV-th starts a sample slot (R247, R249). -/
def slotStart (s : State) (u : Fin 8) (t v : Nat) : State :=
  let g := s.trigs[u]
  if g.periods % max 1 (s.act F.TG_CAP_DIV [u]) = 0 then
    let fst := s.tgState u == 3 && g.trigSlot == some g.slots && s.tgPost u != 0
    s.modTrig u (fun g => { g with
      periods := g.periods + 1, inSlot := some g.slots, slots := g.slots + 1, slotAt := t, slotVec := v % 2 ^ 48,
      cap := if fst then g.cap.map (fun c => { c with firstTbc := t % 2 ^ 48, vecIdx := v % 2 ^ 48 }) else g.cap })
  else s.modTrig u (fun g => { g with periods := g.periods + 1, inSlot := none })

/-- The clock slice's period in play counts where it started at or after tick `t` (R247). -/
def countPeriod (s : State) (u : Fin 8) (t : Nat) : State :=
  match (capList (s.capSlices u)).head? with
  | none => s
  | some n =>
    let f := s.slices[(Fin.ofNat 12 n : Fin 12)].feed
    match f.play with
    | some p => if t ≤ p.slotStart ∧ p.slotStart < p.slotEnd then s.slotStart u p.slotStart (f.vecIdx.getD 0) else s
    | none => s

/-- The unit enters FILLING at edge `t`, whose samples have been taken. A run that holds there counts as one ignored firing, unless it began at this very
edge and counts with that firing (R244, R247, R248, R252, R259). -/
def enterFilling (s : State) (u : Fin 8) (t : Nat) : State :=
  let holds := s.trigs[u].held
  let s := (s.takePend 5 u).setTg u 1
  let w := (capList (s.capSlices u)).length
  let r := match s.ownerTg u with
    | some k => s.allocBlock k u (if w = 0 then 1 else blockUnits w (s.tgPre u) (s.tgPost u))
    | none => (s, none)
  let q := s.quality
  let s := (r.1.modTrig u (fun g => { g with
    fillAt := t, periods := 0, slots := 0, inSlot := none, trigSlot := none, doneAt := none, count := 0,
    block := r.2, lost := 0, stales := [], quality := q })).countPeriod u t
  if s.tgPre u = 0 then s.enterReady u t
  else if holds && !s.trigs[u].began then s.ignoreFire u else s

/-- Arm an IDLE unit at edge `t`, whose samples have been taken: what the qualifier finds there as it begins is a firing like any other (R243–R246,
R249, R252). -/
def armNow (s : State) (u : Fin 8) (t : Nat) : State :=
  if s.tgState u = 0 then
    let n := s.act F.TG_REARM_REARM [u]
    let g := s.trigs[u]
    let s := (s.set F.TG_STATUS_DONE [u] 0).modTrig u (fun g => { g with rearm := n, shot := 0, ignored := 0, armSeen := false, fires := false })
    (s.enterFilling u t).modTrig u (fun x => { x with
      fires := x.fires || g.atArm.fires, count := g.atArm.count, window := g.atArm.window })
  else s

/-- Does the block of the capture in hand hold a stale word: one of its last PRE slots, or of those since the trigger (R262)? -/
def blockStale (s : State) (u : Fin 8) : Bool :=
  match s.trigs[u].trigSlot with
  | some j => s.trigs[u].stales.any (fun i => decide (j ≤ i + s.tgPre u))
  | none => false

/-- The capture in hand takes what is known of its words. -/
def closeCap (s : State) (u : Fin 8) (f : Capture → Capture) : State :=
  let st := s.blockStale u
  s.modTrig u (fun g => { g with
    cap := g.cap.map (fun c => f { c with lost := g.lost, stale := st, quality := g.quality, over_ := true }) })

/-- The post-trigger part ends at edge `t` (R246, R249, R250). `wait` keeps the header of a burst's lead unit for its next shot; a header without a next
arming waits for the words of a slot in play (R510). A firing of the very edge at which the unit leaves POST is ignored (log 60). -/
def postEnd (s : State) (u : Fin 8) (t : Nat) (wait : Bool) : State :=
  let s := ((s.set F.TG_STATUS_DONE [u] 1).defer 1 (.pulse (224 + u))).closeCap u id
  let g := s.trigs[u]
  if 0 < g.rearm then (s.modTrig u (fun g => { g with rearm := g.rearm - 1 })).enterFilling u t
  else
    let s := if g.fires then s.ignoreFire u else s
    let s := (s.setTg u 0).modTrig u (fun g => { g with fires := false })
    if wait || g.tail.isSome then s else s.giveHeader u none

/-- May the header of a burst's lead unit wait for a next shot (R251, R372)? -/
def leadWaits (s : State) (u : Fin 8) : Bool :=
  match s.leads u with
  | some k => match s.sess[k].burst with
    | some b => decide (b.shots < b.burst)
    | none => false
  | none => false

/-- A capture word for sample index `i` of slot, or none past the post part: its address in the unit's block. -/
def slotAddr (s : State) (u : Fin 8) (i w : Nat) : Option Nat :=
  let g := s.trigs[u]
  let pre := s.tgPre u
  match g.block with
  | none => none
  | some a =>
    match g.trigSlot with
    | none => if pre = 0 then none else some (a + 64 + i % pre * w * 4)
    | some j => if i < j then (if pre = 0 then none else some (a + 64 + i % pre * w * 4))
      else if i < j + s.tgPost u then some (a + 64 + (pre + (i - j)) * w * 4) else none

/-- A trigger at edge `t` in READY (R245, R246, R249, R259, R261, R369). -/
def trigger (s : State) (u : Fin 8) (t : Nat) : State :=
  let s : State := s.giveHeader u none
  let g := s.trigs[u]
  let mask := s.capSlices u
  let pre := s.tgPre u
  let cur := mask != 0 && g.slots != 0 && decide (t ≤ g.slotAt)
  let slot := if mask = 0 then 0 else if cur then g.slots - 1 else g.slots
  let fst := cur && s.tgPost u != 0
  let c : Capture := {
    pre := pre, slices := mask, shot := g.shot, trigTbc := t, firstTbc := if fst then g.slotAt % 2 ^ 48 else t % 2 ^ 48,
    vecIdx := if fst then g.slotVec else 0, wrap := if pre = 0 then 0 else slot % pre, post := 0, ignored := g.ignored,
    lost := 0, stale := false, quality := 0, block := g.block, over_ := false, truncated := false }
  let s := ((s.setTg u 3).count F.TG_CNT_FIRED [u]).defer 1 (.pulse (208 + u))
  let tail := if s.tgPost u = 0 && !cur then g.inSlot.bind (fun i => (s.slotAddr u i (capList mask).length).map (fun a => (a, mask))) else none
  let s := s.modTrig u (fun g => { g with
    cap := some c, trigSlot := some slot, doneAt := none, tail := tail, shot := (g.shot + 1) % 2 ^ 32, ignored := 0, slotAt := if mask = 0 then t else g.slotAt })
  let s : State := match s.ownerTg u with
    | some k => if g.block.isNone && s.rgnSize k 1 != 0 then (s.count F.GL_LOST_CAPS_LOST [k]).noteLoss k else s
    | none => s
  let s : State := match s.leads u with
    | some k => s.modBurst k (fun b => { b with leadAt := if b.leadAt.isNone && decide (b.phase ≤ 5) then some t else b.leadAt })
    | none => s
  if s.tgPost u = 0 then s.postEnd u t (s.leadWaits u) else s

/-- The unit returns to IDLE (R251); `keep` leaves a header that waits for the burst's next shot. -/
def stopTrigger (s : State) (u : Fin 8) (keep : Bool) : State :=
  let st := s.tgState u
  let g := s.trigs[u]
  if st = 3 then
    let s := s.closeCap u (fun c => { c with
      truncated := true, post := if c.slices = 0 then min ((s.now - g.slotAt) / 2048) (s.tgPost u) else c.post })
    ((s.setTg u 0).modTrig u (fun g => { g with fires := false, tail := none })).giveHeader u none
  else
    let s := if st = 0 then s else
      match s.ownerTg u, g.block with
      | some k, some a => s.dropBlock k u a
      | _, _ => s
    let s := (s.setTg u 0).modTrig u (fun g => { g with fires := false, block := none, tail := none })
    if keep then s else s.giveHeader u none

/-! ### Sample slots (R247–R249, R260, R261, R510) -/

/-- A word enters a slice's capture FIFO, or is dropped (R261, R458). -/
def pushCap (s : State) (n : Fin 12) (k : Nat) (a v : Nat) : State × Bool :=
  let inj := (s.sramCe (0x50 + n) (s.ownerSlice n)).takeInject 4 (0x50 + n)
  let s := if inj.1 then inj.2.detect 4 (0x50 + n) .policy true (inj.2.ownerSlice n) else inj.2
  if inj.1 || decide (4096 ≤ s.slices[n].caps.length) then (s, true)
  else (s.modSlice n (fun x => { x with caps := x.caps ++ [⟨k, a, v, s.runInst (Fin.ofNat 16 k)⟩] }), false)

/-- The last strobe of a lane before tick `e`: of the periods that have ended, or of the one in play (R260). -/
def lastSeen (s : State) (n : Fin 12) (l : Fin 8) (e : Nat) : StrobeSeen :=
  let x := s.slices[n].lanes[l]
  let now := match s.slices[n].feed.play with
    | some p =>
      let t := p.slotStart + s.act F.EP_TS_T_STRB_TIME [s.slices[n].curTs, n, l]
      if p.slotStart < p.slotEnd then [(⟨t, s.laneBand n l t, s.slices[n].staleIn || s.sliceStale n⟩ : StrobeSeen)] else []
    | none => []
  ((now ++ x.seen).find? (fun (q : StrobeSeen) => decide (q.at_ < e))).getD ⟨0, s.laneBand n l e, false⟩

/-- The word of slice `n` for a slot whose clock-slice period ends at tick `e` (R260). -/
def capWord (s : State) (n : Fin 12) (e : Nat) : Nat :=
  let seen (l : Fin 8) : StrobeSeen := s.lastSeen n l e
  let m := ((s.slices[n].marks.find? (fun (q : Nat × Nat × Bool) => decide (q.1 < e))).map (fun (q : Nat × Nat × Bool) => q.2.1)).getD 0
  let mst := ((s.slices[n].marks.find? (fun (q : Nat × Nat × Bool) => decide (q.1 < e))).map (fun (q : Nat × Nat × Bool) => q.2.2)).getD false
  let cur := (s.slices[n].feed.play.map (fun p => decide (p.slotStart < e) && decide (p.slotStart < p.slotEnd))).getD false
  let st := (List.finRange 8).any (fun (l : Fin 8) => (seen l).stale) || mst || (cur && (s.slices[n].staleIn || s.sliceStale n))
  ((List.finRange 8).map (fun (l : Fin 8) => (seen l).band * 4 ^ l.val)).sum + m % 256 * 2 ^ 16 + st.toNat * 2 ^ 24

/-- The words of a slot go to their places from address `a`, the slot's clock-slice period ending at tick `e`: how many were dropped, and whether one that
was kept is stale; a dropped word is a loss of the instance (R260, R261, R398). -/
def putWords (s : State) (l : List Nat) (k a e : Nat) : State × Nat × Bool :=
  l.zipIdx.foldl (fun (q : State × Nat × Bool) (p : Nat × Nat) =>
    if h : p.1 < 12 then
      let v := q.1.capWord ⟨p.1, h⟩ e
      let r := q.1.pushCap ⟨p.1, h⟩ k (a + 4 * p.2) v
      let s := if r.2 then r.1.noteLoss (Fin.ofNat 16 k) else r.1
      (s, q.2.1 + r.2.toNat, q.2.2 || (bitOf v 24 && !r.2))
    else q) (s, 0, false)

/-- The slot that was in play at a trigger without a post part ends: its words are the last of the pre area, and a header that waited for them is
given (R510). -/
def tailEnds (s : State) (u : Fin 8) (k : Fin 16) (a mask e : Nat) : State :=
  let r := s.putWords (capList mask) k a e
  let s := r.1.modTrig u (fun g => { g with tail := none, cap := g.cap.map (fun c => { c with lost := c.lost + r.2.1, stale := c.stale || r.2.2 }) })
  if s.tgState u = 0 ∧ !s.leadWaits u then s.giveHeader u none else s

/-- Slot `i` of a unit with `pre` and `post` slots has ended at tick `e` with `lost` of its words dropped. -/
def slotOver (g : Trig) (pre post i e lost : Nat) (stale : Bool) : Trig :=
  let stop := match g.trigSlot with
    | some j => j + post
    | none => pre
  let count := match g.trigSlot with
    | some j => decide (j ≤ i) && decide (i < j + post)
    | none => false
  { g with
    inSlot := none, lost := g.lost + lost, doneAt := if i + 1 = stop then some e else g.doneAt,
    stales := if stale then i :: g.stales.filter (fun q => g.trigSlot.isSome || decide (i < q + pre)) else g.stales,
    cap := if count then g.cap.map (fun c => { c with post := c.post + 1 }) else g.cap }

/-- The unit's slot `i` ends at tick `e` (R247–R249, R260). -/
def slotEnds (s : State) (u : Fin 8) (k : Fin 16) (i e : Nat) : State :=
  let l := capList (s.capSlices u)
  let r : State × Nat × Bool := match s.slotAddr u i l.length with
    | none => (s, 0, false)
    | some a => s.putWords l k a e
  r.1.modTrig u (fun g => slotOver g (s.tgPre u) (s.tgPost u) i e r.2.1 r.2.2)

/-- The period of clock slice `n` in play ends: its slot's words are formed (R247, R260). -/
def trigPeriodEnd (s : State) (n : Fin 12) : State :=
  let e := (s.slices[n].feed.play.map (fun p => p.slotEnd)).getD s.now
  s.overTriggers (fun u s =>
    let s : State := match s.trigs[u].tail, s.ownerTg u with
      | some p, some k => if (capList p.2).head? = some n.val then s.tailEnds u k p.1 p.2 e else s
      | _, _ => s
    if s.tgState u ≠ 0 ∧ (capList (s.capSlices u)).head? = some n.val then
      match s.trigs[u].inSlot, s.ownerTg u with
      | some i, some k => s.slotEnds u k i e
      | _, _ => s
    else s)

/-! ### Transitions at their edges (R248, R249) -/

/-- Edge at which the unit's next transition is due: READY from FILLING, or the end of POST. Without capture slices each event cycle is a slot
(R247–R249). -/
def dueEdge (s : State) (u : Fin 8) : Option Nat :=
  let g := s.trigs[u]
  let at_ := g.doneAt.map (fun e => (e + 2047) / 2048 * 2048)
  match s.tgState u with
  | 1 => if s.capSlices u = 0 then some (g.fillAt + s.tgPre u * 2048) else at_
  | 3 => if s.capSlices u = 0 then some (g.slotAt + s.tgPost u * 2048) else at_
  | _ => none

/-- The unit makes the transition that is due at an edge up to `t`. -/
def settleOne (s : State) (u : Fin 8) (t : Nat) : State :=
  match s.dueEdge u with
  | none => s
  | some d =>
    if t < d then s
    else if s.tgState u = 1 then s.enterReady u d
    else
      let s := if s.capSlices u = 0 then s.modTrig u (fun g => { g with cap := g.cap.map (fun c => { c with post := s.tgPost u }) }) else s
      s.postEnd u d (s.leadWaits u)

/-- The transitions due at edges up to `t`: the end of POST, and READY after it. -/
def settleTrig (s : State) (u : Fin 8) (t : Nat) : State := (s.settleOne u t).settleOne u t

/-- The unit fires at edge `t`: a trigger in READY, an ignored firing in FILLING and POST (R241, R244, R245). -/
def takeFire (s : State) (u : Fin 8) (t : Nat) : State :=
  if s.trigs[u].fires then
    let s := s.modTrig u (fun g => { g with fires := false })
    match s.tgState u with
    | 2 => s.trigger u t
    | 0 => s
    | _ => s.ignoreFire u
  else s

/-- What the last event-clock edge left to its rows is done before the next edge is sampled (log 60). -/
def restTrigs (s : State) : State :=
  let t := s.edgeNow - 2048
  s.overTriggers (fun u s => (s.settleTrig u t).takeFire u t)

/-- A period of clock slice `n` starts at tick `t` with vector index `v`; a firing of an edge up to `t` and a transition due by then come first (R247,
R249). -/
def trigPeriodStart (s : State) (n : Fin 12) (t v : Nat) : State :=
  s.overTriggers (fun u s =>
    let before := s.trigs[u].fillAt
    let s := if (capList (s.capSlices u)).head? = some n.val then (if s.edgeNow ≤ t then (s.settleTrig u s.edgeNow).takeFire u s.edgeNow else s).settleTrig u t
      else s
    if s.tgState u ≠ 0 ∧ (capList (s.capSlices u)).head? = some n.val ∧ s.trigs[u].fillAt ≤ t ∧ s.trigs[u].fillAt = before then s.slotStart u t v
    else s)

end State

/-- TG_CTRL.ARM: an IDLE unit enters FILLING at the next event-clock edge (R243). -/
def State.armTrigger (s : State) (u : Fin 8) : State := if s.tgState u = 0 then s.defer 1 (.armTrigger u) else s

/-- TRIGGER_ARM: a write of TG_CTRL.ARM (R243, R426). -/
def execTriggerArm (u : Fin 8) (s : State) : Host.Outcome State Fault Refusal := .next (s.hostStrobe .TG_CTRL [u] 0 (fun s => s.armTrigger u))

/-- TRIGGER_STOP: a write of TG_CTRL.STOP returns the unit to IDLE at once (R251, R426). -/
def execTriggerStop (u : Fin 8) (s : State) : Host.Outcome State Fault Refusal := .next (s.hostStrobe .TG_CTRL [u] 1 (fun s => s.stopTrigger u false))

/-- TG_CTRL.FORCE: the unit fires at the next event-clock edge (R245). -/
def State.forceTrigger (s : State) (u : Fin 8) : State := s.defer 1 (.fireTrigger u)

/-- TRIGGER_FORCE: a write of TG_CTRL.FORCE (R245, R426). -/
def execTriggerForce (u : Fin 8) (s : State) : Host.Outcome State Fault Refusal := .next (s.hostStrobe .TG_CTRL [u] 2 (fun s => s.forceTrigger u))

/-- ARM_EVENT: a counted edge of ARM_EV, sampled at the last event-clock edge, arms an IDLE unit at the following edge (R243). -/
def execArmEvent (u : Fin 8) (s : State) : Host.Outcome State Fault Refusal :=
  .next (if s.trigs[u].armSeen && s.tgState u == 0 then
    (s.modTrig u (fun g => { g with armSeen := false })).defer 1 (.armTrigger u) else s)

/-- TRIGGER_FIRE: the unit fires at the edge last sampled, after a transition due at that edge: a trigger in READY, an ignored firing in FILLING and POST
(R241, R244, R245). -/
def execTriggerFire (u : Fin 8) (s : State) : Host.Outcome State Fault Refusal :=
  .next (if s.trigs[u].fires then (s.settleTrig u s.edgeNow).takeFire u s.edgeNow else s)

/-- PRE_TRIGGER_FULL: PRE slots have started and ended, and the unit enters READY (R248). -/
def execPreTriggerFull (u : Fin 8) (s : State) : Host.Outcome State Fault Refusal :=
  .next (if s.tgState u = 1 then s.settleOne u s.edgeNow else s)

/-- POST_TRIGGER_END: the last post-trigger slot has ended (R249). -/
def execPostTriggerEnd (u : Fin 8) (s : State) : Host.Outcome State Fault Refusal :=
  .next (if s.tgState u = 3 then s.settleOne u s.edgeNow else s)

end Sys2Proof.Machine
end

