-- ==== Sys2Proof/Machine/Play.lean ====
section
/-! DEFINITION. What slices and outputs share in playing segments (R27–R35, R165–R186, R226–R239): what is present, hand-ons, starvation, held
faults, and the start of a segment. -/

namespace Sys2Proof.Machine

/-- Vectors or samples present in a row from index `i` of a segment's pass, with the buffered ones in `buf` (R228). -/
def presentFrom (f : Feed) (d : Seg) (buf : List Nat) (i : Nat) : Nat :=
  min (d.length - i) ((pinnedLen f d - i) + buf.length)

/-- The rule of R237 for going on: the vector and the next 63 of the pass, or the rest of the pass. -/
def resumes (f : Feed) (d : Seg) (buf : List Nat) (i : Nat) : Bool := decide (min 64 (d.length - i) ≤ presentFrom f d buf i)

/-- Index of the vector that a playing unit's next slot calls for, none when it holds. -/
def nextIndex (p : Play) : Option Nat :=
  if p.wallSlip || p.phase == 2 then none
  else if p.next < p.seg.length then some p.next
  else if p.pass + 1 < p.seg.loops || p.seg.endAct == 3 then some 0
  else none

/-- Phase of a slot that plays a vector of pass `pass`. -/
def playPhase (d : Seg) (pass : Nat) : Nat := if d.loops ≤ pass then 3 else 1

/-- The play of a segment from its first slot at tick `t`, before its shadows' descriptors are copied. -/
def newPlay (d : Seg) (t : Nat) : Play where
  seg := d
  pass := 0
  next := 0
  phase := 1
  wallSlip := false
  slipOwn := false
  segStart := t
  slotStart := t
  slotEnd := t
  slotQ := 0
  pend := none
  stagedA := false
  stagedB := false
  bufA := []
  bufB := []
  descA := none
  descB := none
  head := []

/-- First descriptor of a queue with the queue behind it, and the last timing-set switch before it (R93). -/
def popQueue : List WallEntry → Option Nat → Option (Seg × List WallEntry) × Option Nat
  | [], ts => (none, ts)
  | .ts n :: t, _ => popQueue t (some n)
  | .seg d :: t, ts => (some (d, t), ts)

namespace State

def countU (s : State) (u : PlayUnit) (a b : Fld) : State := s.count (unitFld u a b) [u.num]

/-- The segment registers of a unit (R186). -/
def setSegRegs (s : State) (u : PlayUnit) : State :=
  match (s.feed u).play with
  | none => s
  | some p =>
    let s := s.set (unitFld u F.EP_SEG_STATUS_SEG_IDX F.AO_SEG_STATUS_SEG_IDX) [u.num] p.seg.idx
    let s := s.set (unitFld u F.EP_SEG_PASS_PASS F.AO_SEG_PASS_PASS) [u.num] (min p.pass (2 ^ 32 - 1))
    if p.wallSlip then s
    else s.set (unitFld u F.EP_SEG_VEC_VEC F.AO_SEG_VEC_VEC) [u.num] (if p.phase = 2 then p.seg.length - 1 else p.next - 1)

/-- Markers of a slot that starts at tick `t` (R304, R315). -/
def setMarkers (s : State) (u : PlayUnit) (m t : Nat) : State :=
  s.modFeed u (fun f => { f with
    markers := m, markersAcc := f.markersAcc ||| m, markersShown := if t % 2048 = 0 then m ||| f.markersPrev else f.markersShown })

/-- A pending request that its segment's end discards (R179). -/
def noteLost (s : State) (u : PlayUnit) (p : Play) : State :=
  if p.pend.isSome && !p.wallSlip then s.countU u F.EP_JUMP_CNT1_LOST F.AO_JUMP_CNT1_LOST else s

/-- The queued descriptor that the pending request will start when its shadow is not present (R178). -/
def jumpHead (s : State) (u : PlayUnit) (p : Play) (b : Bool) : Option Seg :=
  if (p.pend.map (fun (q : Bool × Nat) => q.1)) = some b ∧ (p.desc b).isNone then
    (popQueue (s.feed u).queue none).1.map (fun (r : Seg × List WallEntry) => r.1)
  else none

/-- What stands ready of the stream that a jump to the queue starts (R178, R228). -/
def jumpBuf (p : Play) : List Nat :=
  match p.pend with
  | some (b, _) => if b then p.bufB else p.bufA
  | none => []

/-- A jump is taken (R178). -/
def noteTaken (s : State) (u : PlayUnit) : State := s.countU u F.EP_JUMP_CNT0_TAKEN F.AO_JUMP_CNT0_TAKEN

/-- A due request meets a shadow that is not staged (R183). -/
def noteStageWait (s : State) (u : PlayUnit) (p : Play) (t : Nat) : State :=
  if stageWaits p t then s.countU u F.EP_JUMP_CNT1_STAGE_WAIT F.AO_JUMP_CNT1_STAGE_WAIT else s

/-- A slot passed while slipping (R32, R237): its count and its ticks. -/
def noteSlipSlot (s : State) (u : PlayUnit) (ticks : Nat) : State :=
  let i := [u.num]
  let s := s.incSat (unitFld u F.VS_SL_SLIP_SLIP_SLOTS F.AO_SLIP_SLIP_SLOTS) i
  let lo := unitFld u F.VS_SL_SLIPT_LO_SLIP_TICKS F.AO_SLIPT_LO_SLIP_TICKS
  let hi := unitFld u F.VS_SL_SLIPT_HI_SLIP_TICKS F.AO_SLIPT_HI_SLIP_TICKS
  let v := min (s.pair lo hi i + ticks) (2 ^ 64 - 1)
  (s.set lo i (v % 2 ^ 32)).set hi i (v / 2 ^ 32)

/-- The session's page of a virtual address has a held translation fault, or its fill timed out (R222, R227): the fault code, or none for a late
fill. -/
def pageTrouble (s : State) (k : Fin 16) (va : Nat) : Option (Option Nat) :=
  match s.sess[k].held.find? (fun h => h.1 == va / 65536) with
  | some h => some (some h.2)
  | none => if s.sess[k].pages.any (fun p => p.page == va / 65536 && p.late) then some none else none

/-- Record the first translation fault of a session (R222). -/
def recordVsFault (s : State) (k : Fin 16) (u : PlayUnit) (code va : Nat) : State :=
  if s.tot F.VS_SESS_STAT_VALID [k] = 0 then
    let s := (s.set F.VS_SESS_STAT_FAULT [k] code).set F.VS_SESS_STAT_UNIT [k] u.num
    let s := (s.set F.VS_SESS_STAT_IS_AO [k] u.isOut.toNat).raise F.VS_SESS_STAT_VALID [k]
    (s.set F.VS_FAULT_VA_LO_VA [k] (va % 2 ^ 32)).set F.VS_FAULT_VA_HI_VA [k] (va / 2 ^ 32)
  else s

/-- A unit's own refill underrun counts, and a slice records the index of its last complete vector (R237, R240). -/
def noteRefill (s : State) (u : PlayUnit) : State :=
  let v := match (s.feed u).vecIdx with
    | some x => x % 2 ^ 48
    | none => 2 ^ 48 - 1
  let s := s.countU u F.VS_SL_CNT_UNDERRUNS F.AO_CNT_UNDERRUNS
  match u with
  | .slice n => (s.set F.VS_SL_UIDX_LO_INDEX [n] (v % 2 ^ 32)).set F.VS_SL_UIDX_HI_INDEX [n] (v / 2 ^ 32)
  | .out _ => s

/-- The sequence stops at tick `t` because of a missing vector under STOP (R235, R399). -/
def refillStop (s : State) (k : Fin 16) (u : PlayUnit) (t : Nat) : State :=
  (((s.noteRefill u).noteUnder k u Cond.underrun true).endSeq k .underrun).haltUnits k t

/-- What the slot of a missing vector at tick `t` brings before any policy: a held fault ends the sequence with FAULT, and the underrun of the same slot
counts and sets its flag; a late fill ends it with TIMEOUT. `true` says that the sequence has ended (R222, R227, R239). -/
def missingEnds (s : State) (k : Fin 16) (u : PlayUnit) (d : Seg) (i t : Nat) : State × Bool :=
  let va := s.vecVa u d i
  match s.pageTrouble k va with
  | some (some code) => (((((s.recordVsFault k u code va).noteRefill u).noteUnder k u Cond.underrun false).hardFaultSess k), true)
  | some none => ((s.endSeq k .timeout).haltUnits k t, true)
  | none => (s, false)

/-- The wall of a unit starves (R32, R34, R399, R455). -/
def noteStarve (s : State) (k : Fin 16) (u : PlayUnit) (injected : Bool) : State :=
  let s := s.countU u F.EP_WALL_STARVE_STARVE_COUNT F.AO_CNT_STARVE_COUNT
  (s.detect 0x17 (u.num + 16 * u.isOut.toNat) .policy injected (s.unitOwner u)).noteUnder k u Cond.wallUnderrun false

/-- The sequence stops at tick `t` because a wall starved under STOP (R32). -/
def wallStop (s : State) (k : Fin 16) (u : PlayUnit) (t : Nat) : State :=
  ((s.noteUnder k u Cond.wallUnderrun true).endSeq k .underrun).haltUnits k t

/-- The SEG_START pulse of a segment whose first slot starts at tick `t`: from the first event-cycle boundary at or after it (R315, R317). -/
def segPulse (s : State) (u : PlayUnit) (t : Nat) : State :=
  let b := (t + 2047) / 2048 * 2048
  let e := s.hr.jlAt
  if b ≤ e then
    s.noteRises (s.modHr (fun r => match u with
      | .slice n => { r with slPulses := (n.val, 19) :: r.slPulses }
      | .out o => { r with aoPulses := (o.val, 7) :: r.aoPulses }))
  else s.defer ((b - e) / 2048) (match u with
    | .slice n => .slPulse n 19
    | .out o => .aoPulse o 7)

/-- Take the next queued descriptor out of a unit's queue. -/
def takeQueue (s : State) (u : PlayUnit) : State × Option Seg :=
  let r := popQueue (s.feed u).queue none
  let s := match u, r.2 with
    | .slice n, some t => s.modSlice n (fun x => { x with nextTs := some t })
    | _, _ => s
  match r.1 with
  | some (d, q) => (s.modFeed u (fun f => { f with queue := q }), some d)
  | none => (s.modFeed u (fun f => { f with queue := [] }), none)

/-- The generator's unit reaches the end of its run, or of its reservation with no run in hand: its pending commit and operations take effect (R42,
R146, R182, R191, R209). -/
def fwBoundary (s : State) (g : Fin 4) (t : Nat) : State :=
  if s.fwRunOver g t || (s.fws[g].run.isNone && !(List.finRange 12).any (fun m => s.stagesPast g m t)) then
    ((s.modFw g (fun f => { f with run := none })).takePend 3 g).fwTakeOps g t
  else s

/-- A generator whose run was cut, or whose queued runs were discarded, stands at a boundary: its pending commit and operations take effect (R146,
R191, R209). -/
def restFurrow (s : State) : State :=
  (List.finRange 4).foldl (fun s g =>
    let f := s.fws[g]
    if s.fwActive g || (f.run.isNone && f.ops.isEmpty && !s.commit.pends.any (fun p => p.scope == 3 && p.unit_ == g.val)) then s
    else ((s.modFw g (fun f => { f with run := none })).takePend 3 g).fwTakeOps g s.now) s

/-- The generators that a play uses: its segment's, and those of its shadows. -/
def playGens (p : Play) : List Nat := ([some p.seg, p.descA, p.descB].filterMap id).filterMap (fun d => if d.kind = 2 then some d.fw else none)

/-- After a unit has left a play at tick `t`. -/
def leftSeg (s : State) (p : Option Play) (t : Nat) : State :=
  match p with
  | some x => (playGens x).foldl (fun s g => s.fwBoundary (Fin.ofNat 4 g) t) s
  | none => s

/-! ### Jump requests (R175, R176, R179) -/

/-- Do asserted lines hold the jump line that a field names? -/
def lineHit (lines j : Nat) : Bool := decide (j < 16) && bitOf lines j

/-- The requests sampled at the event-clock edge `e` meet the segment in play. -/
def jumpMeets (s : State) (u : PlayUnit) (lines e : Nat) : State :=
  match (s.feed u).play with
  | none => s
  | some p =>
    if p.wallSlip then s
    else
      let a := lineHit lines p.seg.jsrcA
      let b := lineHit lines p.seg.jsrcB
      let n := a.toNat + b.toNat
      let late := if p.pend.isSome then n else n - 1
      let s := if n = 0 ∨ p.pend.isSome then s else s.modPlay u (fun p => { p with pend := some (!a, e) })
      if late = 0 then s else s.count (unitFld u F.EP_JUMP_CNT0_MERGED F.AO_JUMP_CNT0_MERGED) [u.num] late

/-- The requests that one unit meets at edge `e`: they belong to the segment whose slot contains `e`, at a boundary to the one that starts there; an idle
unit ignores them (R176). -/
def jumpUnit (s : State) (u : PlayUnit) (lines e : Nat) : State :=
  let f := s.feed u
  let later := s.modFeed u (fun f => { f with reqs := f.reqs ++ [(e, lines)] })
  match f.play with
  | some p => if e < p.slotEnd then (if p.segStart ≤ e then s.jumpMeets u lines e else s) else later
  | none => if (f.startAt.map (fun t => decide (t ≤ e))).getD false then later else s

/-- A slot has started: the requests sampled at edges within it meet its segment (R176). -/
def takeReqs (s : State) (u : PlayUnit) : State :=
  match (s.feed u).play with
  | none => s
  | some p =>
    let q := (s.feed u).reqs.filter (fun r => decide (r.1 < p.slotEnd))
    let s := s.modFeed u (fun f => { f with reqs := f.reqs.filter (fun r => decide (p.slotEnd ≤ r.1)) })
    q.foldl (fun s r => if p.segStart ≤ r.1 then s.jumpMeets u r.2 r.1 else s) s

/-! ### What the next slot of a unit calls for (R33, R172, R228, R238) -/

/-- The next slot of a unit, at tick `t`, before its boundary there is taken: the segment, the tick of its first period, whether the vector or sample is
present, and whether the rule of R237 for going on is met. None where no descriptor stands or no vector is due. -/
def nextOf (s : State) (u : PlayUnit) (t : Nat) : Option (Seg × Nat × Bool × Bool) :=
  let f := s.feed u
  let first (d : Seg) (buf : List Nat) : Option (Seg × Nat × Bool × Bool) :=
    some (d, t, d.kind == 2 || presentFrom f d buf 0 != 0, d.kind == 2 || resumes f d buf 0)
  match f.play with
  | none => if f.startAt = some t then (popQueue f.queue none).1.bind (fun r => first r.1 f.buf) else none
  | some p =>
    if p.slotEnd ≠ t then none
    else match s.boundOpen u p t with
      | .stop => none
      | .shadow b => (p.desc b).bind (fun d => first d (if b then p.bufB else p.bufA))
      | .jumpQueue => (popQueue f.queue none).1.bind (fun r => first r.1 (jumpBuf p))
      | .over_ => (popQueue f.queue none).1.bind (fun r => first r.1 f.buf)
      | .stay => (nextIndex p).map (fun i =>
          (p.seg, p.segStart, p.seg.kind == 2 || presentFrom f p.seg f.buf i != 0, p.seg.kind == 2 || resumes f p.seg f.buf i))

/-- Does the boundary at tick `t` call for a descriptor that does not stand in the queue? -/
def wantsDesc (s : State) (u : PlayUnit) (t : Nat) : Bool :=
  match (s.feed u).play with
  | none => false
  | some p =>
    match s.boundOpen u p t with
    | .over_ | .jumpQueue => (queueSegs (s.feed u).queue).isEmpty
    | .stay => p.wallSlip
    | _ => false

/-- Is the unit's next slot, at tick `t`, one that must meet the rule of R237 for going on? -/
def resuming (s : State) (u : PlayUnit) (t : Nat) : Bool :=
  ((s.feed u).play.map (fun p => p.phase == 4 && !p.wallSlip && (s.boundOpen u p t == .stay))).getD false

/-- Is a unit's own vector of the slot at tick `t` missing? -/
def wantsVec (s : State) (u : PlayUnit) (t : Nat) : Bool :=
  match s.nextOf u t with
  | some (_, _, one, many) => !(if s.resuming u t then many else one)
  | none => false

/-- The event cycle of tick `t` has not ended, so a deposit or an arrival may still come in time (R33, R172, R228). -/
def cycleOpen (s : State) (t : Nat) : Bool := decide (s.now / 2048 ≤ t / 2048)

/-- A boundary waits for the end of its event cycle: the next slot lacks its descriptor or its vector, and the unit's sequence has not been stopped. -/
def boundaryWaits (s : State) (u : PlayUnit) (t : Nat) (short : Bool) : Bool := s.cycleOpen t && !s.unitHalted u && short

/-- Has the sequence been stopped for which an idle unit was to start? -/
def startHalted (s : State) (u : PlayUnit) : Bool := (s.sess[s.feedSess u].seq.map (·.halted)).getD false

/-- A stopped unit's queue is discarded (R228). -/
def dropQueue (s : State) (u : PlayUnit) : State := s.modFeed u haltFeed

/-- Does a stop of the sequence meet the boundary at tick `t` of a unit: an underrun stopped it in the same event cycle (R239), or another ending
condition arose in the period that ends there (R20)? -/
def stopJoins (q : SeqRun) (p : Play) (t : Nat) : Bool :=
  match q.haltAt with
  | some h => if q.under then h / 2048 == t / 2048 else decide (p.slotStart ≤ h)
  | none => false

/-- A unit that such a stop meets underruns there itself: the condition is noted beside the other (R20, R239). -/
def stopMeets (s : State) (u : PlayUnit) (t : Nat) : State :=
  let k := s.feedSess u
  let joins := match s.sess[k].seq, (s.feed u).play with
    | some q, some p => stopJoins q p t
    | some q, none => q.under && (q.haltAt.map (fun h => h / 2048 == t / 2048)).getD false
    | none, _ => false
  if joins && s.wantsVec u t then
    match s.nextOf u t with
    | some (d, _) =>
      let i := ((s.feed u).play.bind (fun p => if s.boundOpen u p t = .stay then nextIndex p else none)).getD 0
      let r := s.missingEnds k u d i t
      if r.2 || d.slip then r.1 else (r.1.noteRefill u).noteUnder k u Cond.underrun true
    | none => s
  else s

/-- A play whose descriptors of shadows are copied (R180). -/
def playOf (s : State) (d : Seg) (t : Nat) : Play := { newPlay d t with descA := s.shadowSeg d false, descB := s.shadowSeg d true }

end State

end Sys2Proof.Machine
end

