-- ==== Sys2Proof/Machine/SlicePeriod.lean ====
section
/-! DEFINITION. Periods of a slice (R78–R95, R117, R165–R186, R227–R239, R331): judgement, boundaries, hand-ons, jumps, underruns and placement. -/

namespace Sys2Proof.Machine

namespace State

/-! ### The end of a period -/

/-- Does a lane's compare of the period that ends count in MASKED instead (R117, R120, R121)? -/
def laneMasked (l : Lane) : Bool :=
  l.forced || l.held || decide (l.safe ≠ .none) || (l.cmp.map (fun c => c.masked)).getD false

/-- Phase-step boundaries strictly between two ticks (R85). -/
def phaseSteps (a b : Nat) : List Nat := ((List.range ((b - 1) / 16 - a / 16)).map (fun i => (a / 16 + 1 + i) * 16))

/-- Ticks at which a lane's comparator is sampled (R84, R85): T_STRB and, in a window, those phase-step boundaries at which its band may differ from the
one before: the first at or behind T_STRB and behind each change of the comparator, and all while its thresholds settle. -/
def sampleTicks (l : Lane) (c : Compare) : List Nat :=
  match c.close with
  | none => [c.strobe]
  | some e =>
    let up (x : Nat) : Nat := (x + 15) / 16 * 16
    let set := match l.oldTh with
      | some o => phaseSteps c.strobe (min e (up (o.at_ + 327680) + 1))
      | none => []
    c.strobe :: (((c.strobe + 1) :: l.trace.map (fun p => p.at_)).map up ++ set).filter (fun x => decide (c.strobe < x) && decide (x < e))

/-- Does a tick lie in the lane's last high-impedance interval (R105)? -/
def inHiz (l : Lane) (t : Nat) : Bool := decide (l.hizFrom ≤ t) && (l.hiz || decide (t < l.hizTo))

/-- Fail bit of a lane: some sample that is judged lies outside the expected band (R84, R85, R105). -/
def laneFails (s : State) (n : Fin 12) (i : Fin 8) : Bool :=
  let l := s.slices[n].lanes[i]
  match l.cmp with
  | some c => !laneMasked l && (sampleTicks l c).any (fun t => !inHiz l t && s.laneBand n i t != c.band)
  | none => false

/-- The slice was calibrating in the period in play (R260). -/
def periodStale (s : State) (n : Fin 12) : Bool := s.slices[n].staleIn || s.sliceStale n

/-- Judge the compares of the period that ends, and keep what each lane's comparator showed at T_STRB (R84, R117, R257, R260, R315). -/
def judgePeriod (s : State) (n : Fin 12) : State :=
  match s.slices[n].feed.play with
  | none => s
  | some p =>
    let s := s.overLanes (fun l s =>
      let x := s.slices[n].lanes[l]
      if x.cmp.isSome && laneMasked x then s.count F.CH_LANE_CNT_MASKED [n, l] else s)
    let bits := ((List.finRange 8).map (fun (l : Fin 8) => if s.laneFails n l then 2 ^ l.val else 0)).sum
    let strb (l : Fin 8) : Nat := p.slotStart + s.act F.EP_TS_T_STRB_TIME [s.slices[n].curTs, n, l]
    let st := s.periodStale n
    let s := s.mapLanes n (fun l x => { x with cmp := none, seen := (⟨strb l, s.laneBand n l (strb l), st⟩ :: x.seen).take 4 })
    if bits = 0 then s
    else
      let k : Fin 16 := Fin.ofNat 16 p.seg.sess
      let e : FailEntry := ⟨(s.slices[n].feed.vecIdx).getD 0, p.slotStart, p.seg.idx, p.pass, bits, k, st, false, p.slotQ, s.runInst k⟩
      let s := s.pushFail n e
      let s := ((s.sticky k (fun x => { x with failSeen := true })).noteCond k Cond.failSeen)
      s.modHr (fun r => { r with failLeft := r.failLeft.set n 2, failActs := r.failActs.set n (r.failActs[n] + 1) })

/-! ### Placement of a period -/

/-- Pin state of a lane after the channel groups (R331). -/
def groupPin (s : State) (n l t pin : Nat) : Nat :=
  let ch := 8 * n + l
  let e := (t - 8192) / 2048 * 2048
  match (List.finRange 16).find? (fun (g : Fin 16) => s.act F.HR_CG_CTL_EN [g] == 1 &&
      bitOf (s.act F.HR_CG_MASK_CH [g, ch / 32]) (ch % 32) && !s.groupAt g e) with
  | some g => s.act F.HR_CG_CTL_OFF_STATE [g]
  | none => pin

/-- One lane takes a period that starts at tick `t` under timing set `ts` (R82–R95, R116–R118, R120, R121). -/
def lanePeriod (s : State) (n : Fin 12) (l : Fin 8) (ts t v : Nat) (judged respace : Bool) : State :=
  let x := s.slices[n].lanes[l]
  let pin := s.groupPin n l t (lanePin v l)
  let p := placePeriod (s.laneSet n l ts) (s.edgePos n ts) t pin
  let p := if judged then p else { p with cmp := none }
  let back := x.unforce && !x.held
  let away := (x.forced && !x.unforce) || x.held
  let c := if back then
      let tr := laneVec x
      let w := trackLane x tr
      takePeriod x t { p with edges := ⟨t, some (laneLevel w t), some (laneEnable w t)⟩ :: p.edges } true
    else if away then takePeriod (trackLane x (laneVec x)) t p (respace || x.respace)
    else takePeriod x t p (respace || x.respace)
  let y := c.1
  let z := if away then { x with vec := some (laneTrack y), cmp := p.cmp } else { y with vec := none }
  let z := { z with pin := pin, safe := .none, respace := false, forced := x.forced && !x.unforce, unforce := false }
  let s := if p.order = 0 then s else s.count F.EP_EDGE_CNT0_EDGE_ORDER [n, l] p.order
  let s := if p.widen + c.2.1 = 0 then s else s.count F.EP_EDGE_CNT0_EDGE_WIDEN [n, l] (p.widen + c.2.1)
  let s := if p.collide + c.2.2 = 0 then s else s.count F.EP_EDGE_CNT1_COLLIDE [n, l] (p.collide + c.2.2)
  let s := s.modLane n l (fun _ => z)
  if x.safe ≠ .none && z.forced && !z.held then s.driveAlt n l else s

/-! ### Strobes (R110–R112) -/

/-- The slots that a slice will start before tick `until_`, read ahead as far as their vectors stand ready: start, vector and timing set (R111). Where a
Furrow program or a jump decides, the generator's present course and no jump are followed. -/
def slotsAhead (s : State) (n : Fin 12) (until_ : Nat) : Nat → Play → List Nat → List WallEntry → Nat → Nat → List Nat → List (Nat × Nat × Nat)
  | 0, _, _, _, _, _, _ => []
  | fuel + 1, p, buf, q, ts, t, fw =>
    if until_ ≤ t then []
    else
      let go (p : Play) (buf : List Nat) (q : List WallEntry) (ts : Nat) (fw : List Nat) : List (Nat × Nat × Nat) :=
        let e := t + s.tsPeriod n ts
        let on := { p with next := p.next + 1 }
        if p.phase = 2 then (t, p.seg.idleVec, ts) :: slotsAhead s n until_ fuel p buf q ts e fw
        else if p.seg.kind = 2 then
          match fw with
          | v :: fw' => (t, v, ts) :: slotsAhead s n until_ fuel on buf q ts e fw'
          | [] => []
        else if p.next < pinnedLen s.slices[n].feed p.seg then
          let b := ((s.slices[n].feed.pins.find? (fun x => x.1 == p.seg.idx)).map (·.2)).getD []
          (t, b.getD p.next 0, ts) :: slotsAhead s n until_ fuel on buf q ts e fw
        else match buf with
          | v :: buf' => (t, v, ts) :: slotsAhead s n until_ fuel on buf' q ts e fw
          | [] => []
      if p.wallSlip then []
      else if passesOver p && decide (p.seg.endAct < 2) then
        match popQueue q none with
        | (some (d, rest), sw) =>
          let ts' := if d.ts < 32 then d.ts else sw.getD ((s.slices[n].nextTs).getD ts)
          let g : Fin 4 := Fin.ofNat 4 d.fw
          go (newPlay d t) buf rest ts' (if d.kind = 2 then s.fwAhead g n d.idleVec (s.fws[g].newPass 0) 144 else [])
        | (none, _) => []
      else go (advance p) buf q ts fw

/-- The slots ahead of a slice from the present instant. -/
def sliceAhead (s : State) (n : Fin 12) (until_ : Nat) : List (Nat × Nat × Nat) :=
  let f := s.slices[n].feed
  match f.play with
  | some p =>
    let g : Fin 4 := Fin.ofNat 4 p.seg.fw
    s.slotsAhead n until_ 144 p f.buf f.queue s.slices[n].curTs p.slotEnd
      (if p.seg.kind = 2 then s.fwAhead g n p.seg.idleVec s.fws[g] 144 else [])
  | none =>
    match f.startAt, popQueue f.queue none with
    | some t, (some (d, rest), sw) =>
      let g : Fin 4 := Fin.ofNat 4 d.fw
      let ts := if d.ts < 32 then d.ts else sw.getD ((s.slices[n].nextTs).getD s.slices[n].curTs)
      s.slotsAhead n until_ 144 (newPlay d t) f.buf rest ts t (if d.kind = 2 then s.fwAhead g n d.idleVec (s.fws[g].newPass 0) 144 else [])
    | _, _ => []

/-- The first tick in the slots ahead at which the source of a strobe turns on (R110). -/
def strobeNext (s : State) (n : Fin 12) (i : Fin 4) (l : List (Nat × Nat × Nat)) : Option Nat :=
  match s.act F.CH_DS_CFG_SRC [n, i] with
  | 0 => none
  | 1 =>
    let mask := s.act F.CH_DS_CFG_LANES [n, i]
    let on (x : Nat × Nat × Nat) : List Nat := (List.finRange 8).filterMap (fun (k : Fin 8) =>
      if bitOf mask k && !s.laneBankOff n k && (enableAt (s.laneSet n k x.2.2).fmt (s.groupPin n k x.1 (lanePin x.2.1 k)) == some true)
      then some (x.1 + (s.laneSet n k x.2.2).tOn) else none)
    (l.flatMap on).min?
  | _ => (l.find? (fun x => bitOf (vecMarkers x.2.1) (s.act F.CH_DS_CFG_MARKER [n, i]))).map (fun x => x.1)

/-- A strobe ball at the present instant (R110–R112): none, high impedance with a weak pull-down, before the slice's first commit; else its level. An
assertion that the slots ahead will cause is on LEAD ticks before it, and joins one that ended less than 4,096 ticks before. -/
def strobeBall (s : State) (n : Fin 12) (i : Fin 4) : Option Bool :=
  if !s.slices[n].committed then none
  else
    let t := s.now
    let lead := s.act F.CH_DS_TIME_LEAD [n, i]
    let l := strobeFold s.slices[n].strobes[i].past s.slices[n].strobes[i].cur lead (s.act F.CH_DS_TIME_LAG [n, i])
    let within := l.any (fun p => decide (p.1 ≤ t) && (p.2.map (fun e => decide (t < e))).getD true)
    let over_ := (l.filterMap (fun p => p.2)).filter (fun e => decide (e ≤ t))
    let soon := match s.strobeNext n i (s.sliceAhead n (t + lead + 4097)) with
      | some x => decide (x ≤ t + lead) || over_.any (fun e => decide (x - lead < e + 4096))
      | none => false
    let on := match s.act F.CH_DS_CFG_SRC [n, i] with
      | 0 => s.act F.CH_DS_CFG_STATIC [n, i] == 1
      | _ => within || soon
    some (on != (s.act F.CH_DS_CFG_POL [n, i] == 1))

/-! ### A slot starts -/

/-- A slot of the slice starts at tick `t` with slice-vector `v` (R78, R92, R176, R234, R260). -/
def placeSlot (s : State) (n : Fin 12) (t v : Nat) (judged respace : Bool) : State :=
  let ts := s.slices[n].curTs
  let e := t + s.tsPeriod n ts
  let s := s.mapLanes n (fun _ x => { x with trace := traceFrom t x.trace })
  let s := s.overLanes (fun l s => s.lanePeriod n l ts t v judged respace)
  let q := s.quality
  let s := s.modPlay (.slice n) (fun p => { p with slotStart := t, slotEnd := e, slotQ := q })
  let s := s.modFeed (.slice n) (fun f => { f with vecIdx := some (match f.vecIdx with
    | some i => (i + 1) % 2 ^ 48
    | none => 0) })
  let st := s.sliceStale n
  let s := s.modSlice n (fun x => { x with staleIn := st, marks := ((t, vecMarkers v, st) :: x.marks).take 4 })
  let s := (s.setMarkers (.slice n) (vecMarkers v) t).strobeAt n t true
  let s := ((s.set F.EP_TS_STATUS_ACTIVE_TS [n] ts).setSegRegs (.slice n)).noteHeadroom (.slice n)
  (s.trigPeriodStart n t ((s.slices[n].feed.vecIdx).getD 0)).takeReqs (.slice n)

/-! ### Stops of a slice -/

/-- Bring a lane, or the vector's course behind a force or hold, to a level and enable (R236). -/
def laneTo (l : Lane) (t : Nat) (v en : Bool) : Lane :=
  if l.forced || l.held then { l with vec := some (laneTrack (laneDrive (trackLane l (laneVec l)) t v en)) } else laneDrive l t v en

/-- The UNDR state of one lane; UNDR 3 puts it into its abort state (R118, R120, R236). -/
def undrLane (l : Lane) (t undr pin abort : Nat) : Lane :=
  let lv := laneLevel l t
  let en := laneEnable l t
  match undr with
  | 0 => laneTo l t lv en
  | 1 =>
    match pin with
    | 0 => laneTo l t false true
    | 1 => laneTo l t true true
    | 7 => laneTo l t lv en
    | _ => laneTo l t lv false
  | 2 => laneTo l t lv false
  | _ => laneSafe l t abort .abort

/-- A lane of a slice that becomes idle at tick `t`: a lane whose force is over returns to its vector's course there (R116). -/
def laneIdle (l : Lane) (t : Nat) : Lane :=
  let x := (takePeriod l t ⟨[], none, 0, 0, 0⟩ false).1
  if l.forced && l.unforce then
    if l.held || decide (l.safe ≠ .none) then { x with forced := false, unforce := false, vec := if l.held then x.vec else none }
    else { laneReturn x t with forced := false, unforce := false }
  else x

/-- Is a key a register of timing set `ts` of slice `n`? -/
def isTsKey (n ts k : Nat) : Bool :=
  match regAt k with
  | some (.EP_TS_PERIOD_LO, a :: b :: _) => a == ts && b == n
  | some (.EP_TS_PERIOD_HI, a :: b :: _) => a == ts && b == n
  | some (.EP_TS_ORDER, a :: b :: _) => a == ts && b == n
  | some (.EP_TS_FMT, a :: b :: _) => a == ts && b == n
  | some (.EP_TS_T_ON, a :: b :: _) => a == ts && b == n
  | some (.EP_TS_T_DATA, a :: b :: _) => a == ts && b == n
  | some (.EP_TS_T_RET, a :: b :: _) => a == ts && b == n
  | some (.EP_TS_T_STRB, a :: b :: _) => a == ts && b == n
  | some (.EP_TS_T_CLOSE, a :: b :: _) => a == ts && b == n
  | _ => false

/-- Does a commit that waits for the slice's boundary change fields of the timing set in play (R94)? -/
def tsPends (s : State) (n : Fin 12) : Bool :=
  s.commit.pends.any (fun p => p.scope == 2 && p.unit_ == n.val &&
    p.vals.any (fun v => s.activeK v.1 != v.2 && isTsKey n s.slices[n].curTs v.1))

/-- The slice becomes idle at tick `t`: its segment boundary passes, and nothing plays (R42, R94, R170, R174, R176, R351). -/
def sliceIdle (s : State) (n : Fin 12) (t : Nat) : State :=
  let d := s.slices[n].feed.play
  let live := s.tsPends n
  let s := s.mapLanes n (fun _ l => laneIdle l t)
  let s := s.modSlice n (fun x => { x with respaceNext := x.respaceNext || live })
  let s := s.modFeed (.slice n) (fun f => { f with
    play := none, waitAt := none, owedRows := 0, reqs := [], buf := if (queueSegs f.queue).isEmpty then [] else f.buf, markers := 0 })
  (((s.takePend 2 n).calSliceBoundary n).leftSeg d t).strobeSync n

/-- The slice takes the UNDR state of its playing segment and stops (R32, R227, R235, R236, R265). -/
def sliceStop (s : State) (n : Fin 12) (t : Nat) : State :=
  match s.slices[n].feed.play with
  | none => s
  | some p =>
    let abort (l : Nat) := s.act F.CH_SAFE_ABORT_ACT [n, l]
    let s := s.overLanes (fun l s =>
      let x := s.slices[n].lanes[l]
      if x.safe ≠ .none then s
      else if p.seg.undr = 3 then s.safeLane n l t (abort l) .abort
      else
        let y := undrLane x t p.seg.undr (lanePin p.seg.idleVec l) (abort l)
        let s := if (laneVec y).edges.any (fun e => decide (t < e.at_)) then s.count F.EP_EDGE_CNT0_EDGE_WIDEN [n, l] else s
        s.modLane n l (fun _ => y))
    let s := s.modFeed (.slice n) (fun f => { f with markersAcc := 0, markersPrev := 0, markersShown := 0, buf := [] })
    s.sliceIdle n t

/-! ### Slip gangs (R238) -/

/-- Timing set of a segment that starts on the slice (R93). -/
def segTs (s : State) (n : Fin 12) (d : Seg) : Nat :=
  if d.ts < 32 then d.ts else (s.slices[n].nextTs).getD s.slices[n].curTs

/-- Timing set under which slice `m` plays the next slot of segment `d`, which it may be about to take from its queue. -/
def nextTsOf (s : State) (m : Fin 12) (d : Seg) : Nat :=
  if (s.slices[m].feed.play.map (fun p => p.seg == d)).getD false then s.slices[m].curTs
  else if d.ts < 32 then d.ts
  else match (popQueue s.slices[m].feed.queue none).2 with
    | some t => t
    | none => s.segTs m d

/-- Do two slices' segments form one gang: of one issue, of the same entry, with the same first tick and timing set? -/
def gangMate (s : State) (n m : Fin 12) (d x : Seg) (start st : Nat) : Bool :=
  x.issue == d.issue && x.idx == d.idx && x.sess == d.sess && st == start && s.nextTsOf m x == s.slices[n].curTs

/-- Is another slice of the gang missing its vector in the slot that starts at `t`? Only slices under SLIP wait for one another. -/
def gangWaits (s : State) (n : Fin 12) (d : Seg) (start t : Nat) (slipping : Bool) : Bool :=
  d.slip && (List.finRange 12).any (fun m =>
    if m = n then false
    else
      let next := match s.nextOf (.slice m) t with
        | some (x, st, one, many) => s.gangMate n m d x start st && !(if slipping then many else one)
        | none => false
      match s.slices[m].feed.play with
      | some p => if p.slotStart = t ∧ p.slotEnd ≠ t then s.gangMate n m d p.seg start p.segStart && p.phase == 4 else next
      | none => next)

/-! ### A slot of the segment in play -/

/-- A slipped or idle slot: IDLE_VEC through the timing set in play, its compares not judged (R174, R237). -/
def idleSlot (s : State) (n : Fin 12) (t : Nat) (respace : Bool) : State :=
  match s.slices[n].feed.play with
  | some p => s.placeSlot n t p.seg.idleVec false respace
  | none => s

/-- A slipped slot of the slice (R32, R237, R238). -/
def slipSlot (s : State) (n : Fin 12) (k : Fin 16) (t : Nat) (own respace : Bool) : State :=
  let entering := (s.slices[n].feed.play.map (fun p => p.phase != 4)).getD false
  let s := if entering then
      let s := s.noteSlip k
      if (s.slices[n].feed.play.map (·.wallSlip)).getD false then s
      else if own then s.noteRefill (.slice n) else s.count F.VS_SL_CNT_GANG_SLIPS [n]
    else s
  let s := s.modPlay (.slice n) (fun p => { p with phase := 4, slipOwn := if entering then own else p.slipOwn })
  (s.noteSlipSlot (.slice n) (s.tsPeriod n s.slices[n].curTs)).idleSlot n t respace

/-- A read of the slice's loop cache or refill buffer (R454, R458): `false` when it finds an uncorrectable error. -/
def sliceSram (s : State) (n : Fin 12) : State × Bool :=
  let s := s.sramCe n (s.ownerSlice n)
  let ue := s.takeInject 4 n
  if ue.1 then ((ue.2.detect 4 n .unit true (ue.2.ownerSlice n)).faultSlice n, false) else (ue.2, true)

/-- The slot that starts at tick `t` in the segment in play (R169, R209, R227, R233–R238). -/
def sliceSlot (s : State) (n : Fin 12) (t : Nat) (respace : Bool) : State :=
  match s.slices[n].feed.play with
  | none => s
  | some p =>
    let k : Fin 16 := Fin.ofNat 16 p.seg.sess
    let d := p.seg
    if p.wallSlip then s.slipSlot n k t true respace
    else if p.phase = 2 then s.idleSlot n t respace
    else if d.kind = 2 then
      let r := s.fwVector (Fin.ofNat 4 d.fw) p.pass p.next
      let s := r.1
      if s.slices[n].feed.play.isNone then s
      else
        let v := match p.head, r.2 with
          | v :: _, _ => v
          | [], some w => s.mapWord n w
          | [], none => d.idleVec
        (s.modPlay (.slice n) (fun p => { p with phase := playPhase d p.pass, next := p.next + 1, head := p.head.tail })).placeSlot n t v true respace
    else
      let f := s.slices[n].feed
      let slipping := p.phase == 4
      let own := if slipping then resumes f d f.buf p.next else presentFrom f d f.buf p.next != 0
      if own && !s.gangWaits n d p.segStart t slipping then
        let r := s.sliceSram n
        let s := r.1
        if !r.2 then s
        else
          let pinned := decide (p.next < pinnedLen f d)
          let v := if pinned then (((f.pins.find? (fun q => q.1 == d.idx)).map (·.2)).getD []).getD p.next 0 else f.buf.headD 0
          let s := if pinned then s else s.modFeed (.slice n) (fun f => { f with buf := f.buf.tail })
          (s.modPlay (.slice n) (fun p => { p with phase := playPhase d p.pass, next := p.next + 1 })).placeSlot n t v true respace
      else
        let r := if own then (s, false) else s.missingEnds k (.slice n) d p.next t
        if r.2 then r.1.sliceStop n t
        else if d.slip then r.1.slipSlot n k t (!own) respace
        else (r.1.refillStop k (.slice n) t).sliceStop n t

/-! ### Starting a segment -/

/-- The slice begins to stage the Furrow shadows of its segment; a generator to which it is not assigned faults (R180, R208). -/
def stageBegin (s : State) (n : Fin 12) (d : Seg) : State :=
  [false, true].foldl (fun s b => match s.shadowSeg d b with
    | some (x : Seg) => if x.kind = 2 ∧ !bitOf (s.act F.FW_CFG_SLICES [x.fw]) n ∧ s.slices[n].feed.play.isSome then
        s.faultFw (Fin.ofNat 4 x.fw) 1 0 (some (Fin.ofNat 16 d.sess)) else s
    | none => s) s

/-- A sequence that uses a single-ended lane of a bank out of range ends with FAULT (R104). -/
def bankFault (s : State) (n : Fin 12) (k : Fin 16) : State :=
  if (List.range 8).any (fun l => s.laneBankOff n l) then s.hardFaultSess k else s

/-- Segment `d` starts on the slice at tick `t`; `buf` is what stands ready of its stream, `head` the staged head of a Furrow shadow, `old` the play it
follows (R42, R93–R95, R104, R120, R171,
R172, R178, R180, R208, R351). -/
def startSlice (s : State) (n : Fin 12) (d : Seg) (t : Nat) (buf : List Nat) (head : List Nat) (old : Option Play) : State :=
  let ts := s.segTs n d
  let before := s.slices[n].curTs
  let live := s.tsPends n || s.slices[n].respaceNext
  let p := { s.playOf d t with head := head }
  let s := s.modFeed (.slice n) (fun f => { f with play := some p, buf := buf, startAt := none })
  let s := ((s.takePend 2 n).calSliceBoundary n).leftSeg old t
  let s := s.modSlice n (fun x => { x with curTs := ts, nextTs := if d.ts < 32 then x.nextTs else none, respaceNext := false })
  let s := s.segPulse (.slice n) t
  let s := if d.kind = 2 then
      s.fwStart (Fin.ofNat 4 d.fw) n d t (s.tsPeriod n ts)
    else s
  let s := (s.stageBegin n d).bankFault n (Fin.ofNat 16 d.sess)
  if s.slices[n].feed.play.isNone then s
  else s.sliceSlot n t (decide (ts ≠ before) || live)

/-- The wall of the slice starves at tick `t` (R32). -/
def starveSlice (s : State) (n : Fin 12) (p : Play) (t : Nat) (injected : Bool) : State :=
  let k : Fin 16 := Fin.ofNat 16 p.seg.sess
  let s := s.noteStarve k (.slice n) injected
  if p.seg.slip then
    let live := s.tsPends n
    let s := s.modPlay (.slice n) (fun q => { q with
      wallSlip := true, pend := none, bufA := [], bufB := [], stagedA := false, stagedB := false, descA := none, descB := none })
    let s := (s.takePend 2 n).calSliceBoundary n
    let s := s.modSlice n (fun x => { x with respaceNext := x.respaceNext || live })
    (s.leftSeg (some p) t).sliceSlot n t live
  else (s.wallStop k (.slice n) t).sliceStop n t

/-- The next queued descriptor, or a starvation (R172, R174, R178). `act` is the end action's own rule for an empty queue. -/
def handOn (s : State) (n : Fin 12) (p : Play) (t : Nat) (idleEnd : Bool) : State :=
  let inj := if (popQueue s.slices[n].feed.queue none).1.isSome && !p.wallSlip then s.takeInject 0x17 n else (false, s)
  let s := inj.2
  if inj.1 then s.starveSlice n p t true
  else
    let r := s.takeQueue (.slice n)
    match r.2 with
    | some d => r.1.startSlice n d t r.1.slices[n].feed.buf [] (some p)
    | none => if idleEnd then r.1.sliceIdle n t else r.1.starveSlice n p t false

/-- The boundary at tick `t` after the slice's period in play (R174–R183). -/
def sliceBoundary (s : State) (n : Fin 12) (p : Play) (t : Nat) : State :=
  let s := (s.modFeed (.slice n) (fun f => { f with waitAt := none })).noteStageWait (.slice n) p t
  match s.bound (.slice n) p t with
  | .stop => ((s.stopMeets (.slice n) t).dropQueue (.slice n)).sliceStop n t
  | .shadow b =>
    match p.desc b with
    | some d => 
      let x := if b then p.bufB else p.bufA
      if d.kind = 2 then (s.noteTaken (.slice n)).startSlice n d t [] x (some p) else (s.noteTaken (.slice n)).startSlice n d t x [] (some p)
    | none => s
  | .jumpQueue => ((s.noteTaken (.slice n)).modFeed (.slice n) (fun f => { f with buf := jumpBuf p })).handOn n p t false
  | .over_ => (s.noteLost (.slice n) p).handOn n p t (p.seg.endAct == 0 && !p.wallSlip)
  | .stay => (s.modPlay (.slice n) advance).sliceSlot n t false

/-- Does the slice's boundary at tick `t` lack a descriptor or a vector, its own or a gang mate's (R33, R172, R228, R238)? -/
def sliceShort (s : State) (n : Fin 12) (t : Nat) : Bool :=
  s.wantsDesc (.slice n) t || s.wantsVec (.slice n) t ||
  (match s.nextOf (.slice n) t with
    | some (d, st, _, _) => s.gangWaits n d st t (s.resuming (.slice n) t)
    | none => false)

/-- The boundary at tick `t` of a playing slice, or what it waits for (R33, R172, R228). -/
def sliceEnds (s : State) (n : Fin 12) (p : Play) (t : Nat) : State :=
  if s.boundaryWaits (.slice n) t (s.sliceShort n t) then s.modFeed (.slice n) (fun f => { f with waitAt := some t })
  else s.sliceBoundary n p t

/-- Does a boundary or a start of the slice still wait: its event cycle has not ended, and what it waits for has not come? -/
def sliceWaits (s : State) (n : Fin 12) : Bool :=
  match s.slices[n].feed.waitAt with
  | some t => s.boundaryWaits (.slice n) t (s.sliceShort n t)
  | none => false

/-- The slice's period in play ends: its compares are judged, capture words are formed, and its boundary comes. -/
def sliceGo (s : State) (n : Fin 12) : State :=
  match s.slices[n].feed.play with
  | none => s
  | some p => ((s.judgePeriod n).trigPeriodEnd n).sliceEnds n p p.slotEnd

/-- An idle slice starts the first queued descriptor at tick `t` (R171). -/
def sliceStarts (s : State) (n : Fin 12) (t : Nat) : State :=
  let s := s.modFeed (.slice n) (fun f => { f with waitAt := none })
  if s.startHalted (.slice n) then (s.stopMeets (.slice n) t).dropQueue (.slice n)
  else
    let r := s.takeQueue (.slice n)
    match r.2 with
    | some d => r.1.startSlice n d t r.1.slices[n].feed.buf [] none
    | none => s

/-- A boundary or start that has waited is settled (R33, R172, R228). -/
def sliceSettle (s : State) (n : Fin 12) : State :=
  match s.slices[n].feed.waitAt with
  | none => s
  | some t =>
    match s.slices[n].feed.play with
    | some p => s.sliceBoundary n p p.slotEnd
    | none => s.sliceStarts n t

/-- A period is called for: at once, or once the boundary before it waits no longer. -/
def sliceRow (s : State) (n : Fin 12) : State :=
  if s.sliceWaits n then s.modFeed (.slice n) (fun f => { f with owedRows := f.owedRows + 1 }) else (s.sliceSettle n).sliceGo n

/-- What waited and waits no longer is settled, and the periods called for meanwhile follow it. -/
def sliceCatch (s : State) (n : Fin 12) : State :=
  if s.slices[n].feed.waitAt.isNone || s.sliceWaits n then s
  else
    let r := s.slices[n].feed.owedRows
    (List.range r).foldl (fun s _ => s.sliceRow n) ((s.modFeed (.slice n) (fun f => { f with owedRows := 0 })).sliceSettle n)

end State

/-- SLICE_PERIOD_START: the period in play ends, its compares are judged, capture words are formed, and the next period starts (R78, R84, R174–R183).
A boundary that waits is settled first, or, within its event cycle, keeps the period waiting. `balls` are the voltages that the slice's balls took at tick `t` of the period without a crossing (R99, log 56). -/
def execSlicePeriodStart (n : Fin 12) (t : Nat) (balls : List BallVolts) (s : State) : Host.Outcome State Fault Refusal :=
  .next (((s.quietVolts n (s.tickOf t) balls).sliceCatch n).sliceRow n)

end Sys2Proof.Machine
end

