-- ==== Sys2Proof/Machine/Analogue.lean ====
section
/-! DEFINITION. The analogue outputs in motion (spec/11_analogue_outputs.md): sample slots, the limiter, supervision, range changes, tables and
oscillators; and the start of any unit from idle (R171). -/

namespace Sys2Proof.Machine

namespace State

/-- Markers of a slot that starts at tick `t` reach the Hedgerow at the first event-cycle boundary at or after the sample's instant at the ball,
491,520 ticks later (R293, R304). -/
def aoMarkers (s : State) (o : Fin 16) (m t : Nat) : State :=
  s.defer ((t + 491520 + 2047) / 2048 - s.now / 2048) (.aoMarkers o m)

/-- Code of the last stored sample that the output played, or of its park value when it has played none since its last range change (R309). -/
def lastCode (s : State) (o : Fin 16) : Int :=
  match s.aos[o].slots with
  | e :: _ => e.code
  | [] => parkCode (s.act F.AO_CFG_SPAN [o]) s.aos[o].park

/-- A sample slot starts at tick `t`: with a sample, whose code is ignored under SRC 1 and 2, or holding the last one (R34, R174, R237, R296, R297, R303,
R304). -/
def aoPlace (s : State) (o : Fin 16) (t : Nat) (sample : Option Nat) : State :=
  let e := t + s.aoPeriod o
  let q := s.quality
  let s := s.modPlay (.out o) (fun p => { p with slotStart := t, slotEnd := e, slotQ := q })
  let seg := (s.aos[o].feed.play.map (fun p => p.segStart)).getD t
  let code (v : Nat) : Int := if s.act F.AO_CFG_SRC [o] = 0 then ((v % 2 ^ 20 : Nat) : Int) else s.lastCode o
  let s := match sample with
    | some v => s.modAo o (fun a => { a with slots := ((⟨t, code v, seg, false⟩ : AoSlot) :: a.slots).take 32 })
    | none => s.aoHold o t
  let s := s.modAo o (fun a => { a with
    feed := { a.feed with vecIdx := some (match a.feed.vecIdx with
      | some i => (i + 1) % 2 ^ 48
      | none => 0) } })
  (((s.aoMarkers o ((sample.map (fun v => bitsOf v 24 4)).getD 0) t).setSegRegs (.out o)).noteHeadroom (.out o)).takeReqs (.out o)

/-- A segment boundary of the output that starts nothing: idle from tick `t` on (R42, R174, R304). -/
def aoIdle (s : State) (o : Fin 16) (t : Nat) : State :=
  let s := s.modFeed (.out o) (fun f => { f with
    play := none, waitAt := none, owedRows := 0, reqs := [], buf := if (queueSegs f.queue).isEmpty then [] else f.buf })
  ((s.aoHold o t).takePend 4 o).aoMarkers o 0 t

/-- A slipped slot of the output (R32, R34, R237). -/
def aoSlip (s : State) (o : Fin 16) (k : Fin 16) (t : Nat) : State :=
  let s := if (s.aos[o].feed.play.map (fun p => p.phase != 4)).getD false then
      let s := s.noteSlip k
      if (s.aos[o].feed.play.map (·.wallSlip)).getD false then s else s.noteRefill (.out o)
    else s
  let s := s.modPlay (.out o) (fun p => { p with phase := 4, slipOwn := true })
  (s.noteSlipSlot (.out o) (s.aoPeriod o)).aoPlace o t none

/-- A read of the output's table or refill buffer (R454, R458). -/
def aoSram (s : State) (o : Fin 16) : State × Bool :=
  let c := 0x20 + o.val
  let s := s.sramCe c (s.ownerAo o)
  let ue := s.takeInject 4 c
  if ue.1 then ((ue.2.detect 4 c .unit true (ue.2.ownerAo o)).faultOutput o, false) else (ue.2, true)

/-- The slot that starts at tick `t` in the segment in play (R169, R227, R233–R237). -/
def aoSlot (s : State) (o : Fin 16) (t : Nat) : State :=
  match s.aos[o].feed.play with
  | none => s
  | some p =>
    let k : Fin 16 := Fin.ofNat 16 p.seg.sess
    let d := p.seg
    let f := s.aos[o].feed
    if p.wallSlip then s.aoSlip o k t
    else if p.phase = 2 then s.aoPlace o t none
    else if (if p.phase = 4 then resumes f d f.buf p.next else presentFrom f d f.buf p.next != 0) then
      let r := s.aoSram o
      let s := r.1
      if !r.2 then s
      else
        let s := s.modFeed (.out o) (fun f => { f with buf := f.buf.tail })
        (s.modPlay (.out o) (fun p => { p with phase := playPhase d p.pass, next := p.next + 1 })).aoPlace o t (some (f.buf.headD 0))
    else
      let r := s.missingEnds k (.out o) d p.next t
      if r.2 then r.1.aoIdle o t
      else if d.slip then r.1.aoSlip o k t
      else (r.1.refillStop k (.out o) t).aoIdle o t

/-- Segment `d` starts on the output at tick `t`; one in its fault or abort state counts as having held its present value until then (R42, R171, R172,
R299, R311). -/
def startOutput (s : State) (o : Fin 16) (d : Seg) (t : Nat) (buf : List Nat) : State :=
  let s := s.aoCatch o
  let p := s.playOf d t
  let was : AoSlot := ⟨s.aoTick, s.aos[o].value, t, true⟩
  let s := s.modAo o (fun a => { a with
    slots := if a.safe = .none then a.slots else [was],
    safe := .none, heldVal := none, moving := a.moving && decide (a.safe = .none),
    feed := { a.feed with play := some p, buf := buf, startAt := none } })
  ((s.takePend 4 o).segPulse (.out o) t).aoSlot o t

/-- The wall of the output starves at tick `t` (R32, R34). -/
def starveOutput (s : State) (o : Fin 16) (p : Play) (t : Nat) (injected : Bool) : State :=
  let k : Fin 16 := Fin.ofNat 16 p.seg.sess
  let s := s.noteStarve k (.out o) injected
  if p.seg.slip then
    let s := s.modPlay (.out o) (fun q => { q with
      wallSlip := true, pend := none, bufA := [], bufB := [], stagedA := false, stagedB := false, descA := none, descB := none })
    (s.takePend 4 o).aoSlot o t
  else (s.wallStop k (.out o) t).aoIdle o t

/-- The next queued descriptor, or a starvation (R172, R174, R178). -/
def aoHandOn (s : State) (o : Fin 16) (p : Play) (t : Nat) (idleEnd : Bool) : State :=
  let inj := if (popQueue s.aos[o].feed.queue none).1.isSome && !p.wallSlip then s.takeInject 0x17 (16 + o) else (false, s)
  let s := inj.2
  if inj.1 then s.starveOutput o p t true
  else
    let r := s.takeQueue (.out o)
    match r.2 with
    | some d => r.1.startOutput o d t r.1.aos[o].feed.buf
    | none => if idleEnd then r.1.aoIdle o t else r.1.starveOutput o p t false

/-- The boundary at tick `t` after the output's sample in play (R174–R183). -/
def aoBoundary (s : State) (o : Fin 16) (p : Play) (t : Nat) : State :=
  let s := (s.modFeed (.out o) (fun f => { f with waitAt := none })).noteStageWait (.out o) p t
  match s.bound (.out o) p t with
  | .stop => ((s.stopMeets (.out o) t).dropQueue (.out o)).aoIdle o t
  | .shadow b =>
    match p.desc b with
    | some d => (s.noteTaken (.out o)).startOutput o d t (if b then p.bufB else p.bufA)
    | none => s
  | .jumpQueue => ((s.noteTaken (.out o)).modFeed (.out o) (fun f => { f with buf := jumpBuf p })).aoHandOn o p t false
  | .over_ => (s.noteLost (.out o) p).aoHandOn o p t (p.seg.endAct == 0 && !p.wallSlip)
  | .stay => (s.modPlay (.out o) advance).aoSlot o t

/-- The output's sample in play ends and its boundary comes, or waits (R33, R172, R228). -/
def aoGo (s : State) (o : Fin 16) : State :=
  match s.aos[o].feed.play with
  | none => s
  | some p =>
    if s.boundaryWaits (.out o) p.slotEnd (s.wantsDesc (.out o) p.slotEnd || s.wantsVec (.out o) p.slotEnd) then
      s.modFeed (.out o) (fun f => { f with waitAt := some p.slotEnd })
    else s.aoBoundary o p p.slotEnd

/-- An idle output starts the first queued descriptor at tick `t` (R171). -/
def outputStarts (s : State) (o : Fin 16) (t : Nat) : State :=
  let s := s.modFeed (.out o) (fun f => { f with waitAt := none })
  if s.startHalted (.out o) then (s.stopMeets (.out o) t).dropQueue (.out o)
  else
    let r := s.takeQueue (.out o)
    match r.2 with
    | some d => r.1.startOutput o d t r.1.aos[o].feed.buf
    | none => s

/-- Does a boundary or a start of the output still wait? -/
def aoWaits (s : State) (o : Fin 16) : Bool :=
  match s.aos[o].feed.waitAt with
  | some t => s.boundaryWaits (.out o) t (s.wantsDesc (.out o) t || s.wantsVec (.out o) t)
  | none => false

/-- A waiting boundary or start of the output is settled. -/
def aoSettle (s : State) (o : Fin 16) : State :=
  match s.aos[o].feed.waitAt with
  | none => s
  | some t =>
    match s.aos[o].feed.play with
    | some p => s.aoBoundary o p p.slotEnd
    | none => s.outputStarts o t

/-- A slot is called for: at once, or once the boundary before it waits no longer. -/
def aoRow (s : State) (o : Fin 16) : State :=
  if s.aoWaits o then s.modFeed (.out o) (fun f => { f with owedRows := f.owedRows + 1 }) else (s.aoSettle o).aoGo o

/-- What waited and waits no longer is settled, and the slots called for meanwhile follow it. -/
def aoCatchUp (s : State) (o : Fin 16) : State :=
  if s.aos[o].feed.waitAt.isNone || s.aoWaits o then s
  else
    let r := s.aos[o].feed.owedRows
    (List.range r).foldl (fun s _ => s.aoRow o) ((s.modFeed (.out o) (fun f => { f with owedRows := 0 })).aoSettle o)

/-- Does an idle unit's start at tick `t` wait for its first vector or sample to the end of the event cycle (R228)? -/
def startWaits (s : State) (t : Nat) (short : Bool) : Bool := s.cycleOpen t && short

/-- Unit `u` of the 28 that play segments: slices 0–11, then outputs. -/
def playUnit (u : Fin 28) : PlayUnit :=
  if h : u.val < 12 then .slice ⟨u.val, h⟩ else .out ⟨u.val - 12, by omega⟩

/-- The event cycle ends: every unit whose wait lay in it settles, slices first (R33, R172, R228, R239). -/
def settleWaits (s : State) : State :=
  (List.finRange 28).foldl (fun s u =>
    match (s.feed (playUnit u)).waitAt with
    | some t =>
      if s.cycleOpen t then s
      else match playUnit u with
        | .slice n => s.sliceCatch n
        | .out o => s.aoCatchUp o
    | none => s) s

/-- Every playing unit's headroom is looked at in the event cycle that begins (R35). -/
def headrooms (s : State) : State := (List.finRange 28).foldl (fun s u => s.noteHeadroom (playUnit u)) s

/-- Write a table entry, or discard and count it while the output's source is its table (R302). -/
def aoTblWrite (s : State) (o : Fin 16) (i v : Nat) : State :=
  if s.act F.AO_CFG_SRC [o] = 2 then s.count F.AO_CLIP_TBL_REJECT [o]
  else s.modAo o (fun a => { a with table := smInsert i (BitVec.ofNat 32 v) (smErase i a.table) })

/-- An access to AO_TBL_DATA steps INDEX under AUTOINC. -/
def aoTblStep (s : State) (o : Fin 16) : State :=
  if s.get F.AO_TBL_ADDR_AUTOINC [o] = 1 then s.set F.AO_TBL_ADDR_INDEX [o] ((s.get F.AO_TBL_ADDR_INDEX [o] + 1) % 2 ^ 14) else s

/-- One step of the phase offset toward its target, the shorter way round, by at most 16 units (R301). -/
def phoffStep (cur tgt : Nat) : Nat :=
  let up := (tgt + 65536 - cur) % 65536
  if up ≤ 32768 then (cur + min up 16) % 65536 else (cur + 65536 - min (65536 - up) 16) % 65536

/-- May the limited value move at the present event-clock edge (R305)? -/
def slewDue (s : State) (o : Fin 16) : Bool :=
  let n := if s.act F.AO_SLEW_EN [o] = 1 then max 1 (s.act F.AO_SLEW_RATE_DIV [o]) else 1
  match s.aos[o].slewAt with
  | some t => decide (t + n * 2048 ≤ s.edgeNow)
  | none => true

/-- sin(2π × i / 4096) in units of 2^-40, by its series over a quarter of the circle (R300). -/
def sineFix (i : Nat) : Int :=
  let one : Int := 2 ^ 40
  let q := i / 1024 % 4
  let r := if q % 2 = 0 then i % 1024 else 1024 - i % 1024
  let x : Int := (r : Int) * 3454217652358 / 2048
  let x2 := x * x / one
  let y := if r = 1024 then one
    else x * [9, 8, 7, 6, 5, 4, 3, 2, 1].foldl (fun t (k : Int) => one - x2 * t / (one * (2 * k * (2 * k + 1)))) one / one
  if q < 2 then y else -y

/-- Entry of the part's sine table, in units of 2^-40: the sine to the precision of the table, exact where the sine is 0 (R300, log 7). -/
def sineEntry (i : Nat) : Int := if i % 2048 = 0 then 0 else sineFix i + Config.sineErr (i % 4096)

/-- AMPL × sine by table entry `i` and linear interpolation by `fr` of 65,536, rounded to an integer (R300). -/
def sineTerm (ampl i fr : Nat) : Int :=
  let a := sineEntry i
  ((ampl : Int) * (a * 65536 + (sineEntry (i + 1) - a) * fr) + 2 ^ 55) / 2 ^ 56

/-- Code of the oscillator or table at a phase, and whether it was clipped (R300, R302). -/
def oscCode (s : State) (o : Fin 16) (phase : Nat) : Nat × Bool :=
  if s.act F.AO_CFG_SRC [o] = 1 then
    let v := (s.act F.AO_OFFSET_OFFSET [o] : Int) + sineTerm (s.act F.AO_AMPL_AMPL [o]) (bitsOf phase 36 12) (bitsOf phase 20 16)
    ((max 0 (min 1048575 v)).toNat, decide (v < 0) || decide (1048575 < v))
  else
    let b := s.act F.AO_NCO_TBITS [o]
    let i := phase / 2 ^ (48 - b) % 2 ^ b
    let e (j : Nat) : Int := bitsOf (s.aoEntry o (j % 2 ^ b)).toNat 0 20
    if s.act F.AO_NCO_TINTERP [o] = 1 then
      let fr : Int := (phase / 2 ^ (36 - b) % 4096 : Nat)
      ((e i + ((e (i + 1) - e i) * fr * 2 + 4096) / 8192).toNat, false)
    else ((e i).toNat, false)

end State

/-- AO_SAMPLE_SLOT_START: the sample in play ends and the next slot starts (R174–R183, R297). A boundary that waits is settled first, or,
within its event cycle, keeps the slot waiting. -/
def execAoSampleSlotStart (o : Fin 16) (s : State) : Host.Outcome State Fault Refusal := .next ((s.aoCatchUp o).aoRow o)

/-- UNIT_START_FROM_IDLE: units 0–11 are the slices, 12–27 the outputs (R171); an output in a range change waits (R312). -/
def execUnitStartFromIdle (u : Fin 28) (s : State) : Host.Outcome State Fault Refusal :=
  match State.playUnit u with
  | .slice n =>
    match s.slices[n].feed.play, s.slices[n].feed.startAt with
    | none, some t =>
      if s.startWaits t (s.sliceShort n t) then .next (s.modFeed (.slice n) (fun f => { f with waitAt := some t }))
      else .next (if s.slices[n].feed.waitAt.isSome then s.sliceCatch n else s.sliceStarts n t)
    | _, _ => .next s
  | .out o =>
    if s.get F.AO_STATUS_RANGE_CHG [o] = 1 then .next s
    else match s.aos[o].feed.play, s.aos[o].feed.startAt with
      | none, some t =>
        if s.startWaits t (s.wantsVec (.out o) t) then .next (s.modFeed (.out o) (fun f => { f with waitAt := some t }))
        else .next (if s.aos[o].feed.waitAt.isSome then s.aoCatchUp o else s.outputStarts o t)
      | _, _ => .next s

/-- AO_SLEW_MOVE: the limited value moves toward its target by at most STEP codes, or by 13 in the moves of R311 and R312 without the limiter
(R305): one move in every RATE_DIV event cycles, or in every cycle at the fixed rate. -/
def execAoSlewMove (o : Fin 16) (s : State) : Host.Outcome State Fault Refusal :=
  if s.aoLimited o && s.slewDue o then
    let d := s.aoTarget o - s.aos[o].value
    let st : Int := if s.act F.AO_SLEW_EN [o] = 1 then s.act F.AO_SLEW_STEP [o] else 13
    let m := max (-st) (min st d)
    .next (s.modAo o (fun a => { a with value := a.value + m, slewAt := some s.edgeNow, moving := a.moving && decide (m ≠ d) }))
  else .next s

/-- AO_DETECTOR_SET: the compliance detector, or with `open_` the open-load detector, sets, the latter with a target of
1 mA or more (R307, R308, R312, R466). -/
def execAoDetectorSet (o : Fin 16) (open_ : Bool) (s : State) : Host.Outcome State Fault Refusal :=
  let cur := spanCurrent (s.act F.AO_CFG_SPAN [o])
  let ok := if open_ then cur && s.get F.AO_STATUS_COMPLIANCE [o] == 1 && s.get F.AO_STATUS_OPEN_LOAD [o] == 0 &&
        decide (1000000 * 2 ^ 20 ≤ codeValue (s.act F.AO_CFG_SPAN [o]) (s.aoTarget o))
    else s.get F.AO_STATUS_COMPLIANCE [o] == 0
  if ok && s.get F.AO_STATUS_RANGE_CHG [o] == 0 then
    let s := s.set (if open_ then F.AO_STATUS_OPEN_LOAD else F.AO_STATUS_COMPLIANCE) [o] 1
    let s := s.count (if open_ then F.AO_SUPV_CNT_OPEN_CNT else F.AO_SUPV_CNT_COMPLIANCE_CNT) [o]
    let s := s.defer 1 (.aoPulse o (if open_ then 5 else 4))
    let inj := s.takeInject 0x16 o
    let hard := s.act F.AO_CFG_SUPV_ACT [o] == 1
    let s := inj.2.detect 0x16 o (if hard then .unit else .report) inj.1 (inj.2.ownerAo o)
    .next (if hard then s.faultOutput o else s)
  else .next s

/-- AO_DETECTOR_CLEAR: the detector's condition has been absent for 20 µs, and an open load always comes with compliance (R307). -/
def execAoDetectorClear (o : Fin 16) (open_ : Bool) (s : State) : Host.Outcome State Fault Refusal :=
  let s := s.set F.AO_STATUS_OPEN_LOAD [o] 0
  .next (if open_ then s else s.set F.AO_STATUS_COMPLIANCE [o] 0)

/-- AO_MON_UPDATE: the force voltage in mV and the load current in µA (R306). -/
def execAoMonUpdate (o : Fin 16) (forceV loadI : Int) (s : State) : Host.Outcome State Fault Refusal :=
  .next ((s.set F.AO_MON_FORCE_V [o] (patternOf forceV 16)).set F.AO_MON_LOAD_I [o] (patternOf loadI 16))

/-- AO_RANGE_ENABLE: step 2 of a range change, at least 2 µs after the copy step; what waits in the wall queue may start (R312). -/
def execAoRangeEnable (o : Fin 16) (s : State) : Host.Outcome State Fault Refusal :=
  if s.get F.AO_STATUS_RANGE_CHG [o] = 1 ∧ 3276800 ≤ (s.now : Int) - s.aos[o].rangeAt then
    let v := parkCode (s.act F.AO_CFG_SPAN [o]) s.aos[o].park
    let t := s.startTick
    let s := s.set F.AO_STATUS_RANGE_CHG [o] 0
    .next (s.modAo o (fun a => { a with
      clamped := false, value := v, moving := true,
      feed := { a.feed with startAt := if a.feed.play.isNone && !(queueSegs a.feed.queue).isEmpty then some t else a.feed.startAt } }))
  else .next s

/-- AO_TBL_DATA: a table write at INDEX, discarded and counted while the active SRC is TABLE; the access steps INDEX under AUTOINC (R302). -/
def State.aoTblPut (s : State) (o : Fin 16) (v : Word) : State :=
  (s.aoTblWrite o (s.get F.AO_TBL_ADDR_INDEX [o]) v.toNat).aoTblStep o

/-- AO_TBL_DATA_WRITE: a write of AO_TBL_DATA (R302, R426). -/
def execAoTblDataWrite (o : Fin 16) (v : Word) (s : State) : Host.Outcome State Fault Refusal :=
  .next (s.toField (.barWr (Reg.key .AO_TBL_DATA [o]) v) (fun s => s.aoTblPut o v))

/-- An event-clock edge of the output's oscillator (R300–R302). -/
def State.phaseAdd (s : State) (o : Fin 16) : State :=
  let a := s.aos[o]
  let acc := (a.acc + s.act F.AO_FTW_LO_FTW [o] + 2 ^ 32 * s.act F.AO_FTW_HI_FTW [o]) % 2 ^ 48
  let ph := State.phoffStep a.phoff (s.act F.AO_NCO_PHOFF [o])
  let src := s.act F.AO_CFG_SRC [o]
  let s := s.modAo o (fun a => { a with acc := acc, phoff := ph, accAt := some s.edgeNow })
  if src = 0 then s
  else
    let r := if src = 2 then s.aoSram o else (s, true)
    if r.2 then
      let c := r.1.oscCode o ((acc + ph * 2 ^ 32) % 2 ^ 48)
      let s := if c.2 then r.1.count F.AO_CLIP_CLIPS [o] else r.1
      s.modAo o (fun a => { a with oscs := ((s.edgeNow, c.1) :: a.oscs).take 256 })
    else r.1

/-- PHASE_ACCUMULATOR_ADD: the accumulator adds once at an event-clock edge (R300). -/
def execPhaseAccumulatorAdd (o : Fin 16) (s : State) : Host.Outcome State Fault Refusal :=
  .next (if s.aos[o].accAt = some s.edgeNow then s else s.phaseAdd o)

end Sys2Proof.Machine
end

