-- ==== Sys2Proof/Machine/Paging.lean ====
section
/-! DEFINITION. Pattern paging and shadows (spec/08_vector_paging.md, R175–R183): page-table walks, the page cache, refill, staging and jump
requests. -/

namespace Sys2Proof.Machine

/-- Every unit that plays segments. -/
def playUnits : List PlayUnit := (List.finRange 28).map State.playUnit

namespace State

/-! ### Reads of field DDR4 (R358, R455, R457) -/

/-- A read of field DDR4 at a physical address meets `ecc` flipped bits, 0, 1 or 2; `true` says that it is uncorrectable. -/
def ddrRead (s : State) (a ecc : Nat) : State × Bool :=
  let ch := a / 256 % 2
  let ce := s.takeInject 1 ch
  let ue := ce.2.takeInject 2 ch
  let s := ue.2
  if ecc = 2 ∨ ue.1 then
    let s := s.detect 2 ch .policy ue.1 none
    ((s.set F.FLT_DDR_ADDR_LO_ADDR [] (a % 2 ^ 32)).set F.FLT_DDR_ADDR_HI_ADDR [] (a / 2 ^ 32), true)
  else if ecc = 1 ∨ ce.1 then (s.detect 1 ch .report ce.1 none, false)
  else (s, false)

/-! ### Page-table walks (R218–R222) -/

/-- Level-1 entry's view address. -/
def walkL1 (s : State) (k page : Nat) : Nat := s.act F.VS_PT_BASE_BASE [k] * 2 ^ 19 + 8 * (page / 65536)

/-- A quadword of a session's view. -/
def viewQuad (s : State) (k a : Nat) : Nat := leVal (memBytes s.ddr (s.viewPhys k a) 8)

/-- Outcome of a walk before the page cache is asked for: a fault code of R222, or the page's location and base (R220, R232). -/
def walkAny (s : State) (k page : Nat) : Nat ⊕ (Nat × Nat) :=
  if s.viewSize k = 0 then .inl 1
  else
    let e1 := s.viewQuad k (s.walkL1 k page)
    if !bitOf e1 0 then .inl 1
    else
      let a2 := bitsOf e1 19 17 * 2 ^ 19 + 8 * (page % 65536)
      if bitsOf e1 1 18 ≠ 0 ∨ bitsOf e1 36 28 ≠ 0 ∨ !s.inView k a2 8 then .inl 2
      else
        let e2 := s.viewQuad k a2
        let loc := bitsOf e2 1 2
        let base := bitsOf e2 16 48 * 65536
        if !bitOf e2 0 then .inl 1
        else if bitsOf e2 3 13 ≠ 0 ∨ 1 < loc then .inl 2
        else if loc = 0 then (if s.inView k base 65536 then .inr (0, base) else .inl 2)
        else .inr (1, base)

/-- Outcome of a walk: a host-located page faults when the session has no page cache (R222). -/
def walk (s : State) (k page : Nat) : Nat ⊕ (Nat × Nat) :=
  match s.walkAny k page with
  | .inr (1, base) => if s.act F.VS_PC_PAGES [k] = 0 then .inl 3 else .inr (1, base)
  | x => x

/-- View address of the level-2 entry that a walk reads. -/
def walkL2 (s : State) (k page : Nat) : Nat := bitsOf (s.viewQuad k (s.walkL1 k page)) 19 17 * 2 ^ 19 + 8 * (page % 65536)

/-- Hold a translation fault of a page for the first slot that needs it (R222). -/
def holdFault (s : State) (k : Fin 16) (page code : Nat) : State :=
  s.modSess k (fun x => { x with held := (page, code) :: x.held.filter (fun h => h.1 != page) })

/-! ### Windows and the page cache (R223–R227) -/

/-- Pages of vectors `i` to `LENGTH − 1` of a segment on a unit, at most `n`. -/
def segPages (s : State) (u : PlayUnit) (d : Seg) (i n : Nat) : List Nat :=
  if d.length ≤ i then []
  else
    let a := s.vecVa u d i / 65536
    let z := s.vecVa u d (d.length - 1) / 65536
    (List.range (min n (z + 1 - a))).map (a + ·)

/-- The next `n` pages of a stream, a page that follows itself counted once. -/
def streamPages (s : State) (u : PlayUnit) (h : List Stretch) (n : Nat) : List Nat :=
  let one (x : Stretch) : List Nat :=
    if x.seg.kind = 2 then []
    else
      let body := s.segPages u x.seg x.pinned n
      let more := min n (x.passes.getD n)
      s.segPages u x.seg (max x.next x.pinned) n ++ (List.replicate more body).flatten
  ((h.flatMap one).destutter (· ≠ ·)).take n

/-- Pages of the heads of a playing segment's shadows, and of the queued segment that a pending request leads to. -/
def shadowPages (s : State) (u : PlayUnit) (p : Play) : List Nat :=
  [false, true].flatMap (fun b => match (p.desc b).orElse (fun _ => s.jumpHead u p b) with
    | some x => if x.kind = 2 then [] else [s.vecVa u x 0 / 65536, s.vecVa u x 63 / 65536]
    | none => [])

/-- The prefetch window of a unit (R224). -/
def window (s : State) (u : PlayUnit) : List Nat :=
  let f := s.feed u
  s.streamPages u (stream f) (s.act F.VS_PF_DIST [f.sess] + 1) ++
  (match f.play with
    | some p => if p.wallSlip then [] else s.shadowPages u p
    | none => [])

/-- Does a page lie in a window of a session's units? -/
def inWindow (s : State) (k page : Nat) : Bool :=
  playUnits.any (fun u => (s.feed u).sess == k && (s.window u).contains page)

/-- The vector or sample that a playing unit's next slot calls for and that is not present: its segment and its index (R226, R228). -/
def missingNext (s : State) (u : PlayUnit) (p : Play) : Option (Seg × Nat) :=
  match s.nextOf u p.slotEnd with
  | some (d, _, false, _) => some (d, if s.boundOpen u p p.slotEnd = .stay then (nextIndex p).getD 0 else 0)
  | _ => none

/-- Does a read point already need a page: the next slot of a playing unit of the session calls for a vector that lies there (R226)? -/
def pageNeeded (s : State) (k page : Nat) : Bool :=
  playUnits.any (fun u =>
    let f := s.feed u
    f.sess == k && (match f.play.bind (s.missingNext u) with
      | some (d, i) => s.vecVa u d i / 65536 == page
      | none => false))

/-- The slot that a fill may take: a free one, else that of the least recently used page in no window (R226). -/
def freeSlot (s : State) (k : Fin 16) : Option (Nat × Option Nat) :=
  let n := s.act F.VS_PC_PAGES [k]
  let ps := s.sess[k].pages
  let used := ps.filterMap (·.slot)
  match (List.range n).find? (fun i => !used.contains i) with
  | some i => some (i, none)
  | none => (ps.find? (fun p => p.full && (p.slot.map (fun i => decide (i < n))).getD false && !s.inWindow k p.page)).bind (fun p => p.slot.map (fun i => (i, some p.page)))

/-- Give a waiting fill its slot, when one is free (R226). -/
def giveSlot (s : State) (k : Fin 16) (page : Nat) : State :=
  match s.freeSlot k with
  | none => s
  | some (i, gone) => s.modSess k (fun x => { x with
      pages := (x.pages.filter (fun p => some p.page != gone)).map (fun p => if p.page = page ∧ p.slot = none then { p with slot := some i } else p) })

/-- Issue the fill of a host page that is not cached (R224, R226). -/
def issueFill (s : State) (k : Fin 16) (page bus : Nat) : State :=
  if s.sess[k].pages.any (fun p => p.page == page && p.bus == bus) then s
  else
    let s := if s.pageNeeded k page then s.count F.VS_PC_CNT_DEMAND [k] else s
    (s.modSess k (fun x => { x with pages := x.pages.filter (fun p => p.page != page) ++ [⟨page, none, bus, false, false⟩] })).giveSlot k page

/-- What a page in a session's window calls for (R224): its walk when no translation or fault of it is known, its fill when it is a host page that is not
cached. -/
def wantPage (s : State) (k : Fin 16) (page : Nat) : State :=
  match s.sess[k].xlates.find? (fun x => x.page == page) with
  | some x => if x.loc = 1 then s.issueFill k page x.base else s
  | none =>
    if s.sess[k].held.any (fun h => h.1 == page) || s.sess[k].walks.contains page then s
    else s.modSess k (fun x => { x with walks := x.walks ++ [page] })

/-- Every unit's window at the present instant: walks and fills are issued for the pages that have entered it, nearest first (R224, R226). -/
def prefetch (s : State) : State :=
  playUnits.foldl (fun s u => (s.window u).foldl (fun s p => s.wantPage (s.feedSess u) p) s) s

/-- A cached page has been used: it is the most recently used. -/
def touchPage (s : State) (k : Fin 16) (page : Nat) : State :=
  s.modSess k (fun x => { x with pages := x.pages.filter (fun p => p.page != page) ++ x.pages.filter (fun p => p.page == page) })

/-! ### Refill (R215, R216, R228) -/

/-- The next vectors of a stream after `have_`, at most `n`, as far as their pages are present; with the pages read. -/
def pullVectors (s : State) (u : PlayUnit) (k : Fin 16) (h : List Stretch) (have_ : Nat) : Nat → List Nat × List Nat
  | 0 => ([], [])
  | n + 1 =>
    match streamAt h have_ with
    | none => ([], [])
    | some (d, i) =>
      let va := s.vecVa u d i
      match s.vecData k va with
      | none => ([], [])
      | some v => let r := pullVectors s u k h (have_ + 1) n; (v :: r.1, (va / 65536) :: r.2)

/-- Physical address of the first vector a refill read would deliver, with its page. -/
def pullFirst (s : State) (u : PlayUnit) (k : Fin 16) (h : List Stretch) (have_ : Nat) : Option (Nat × Nat) :=
  match streamAt h have_ with
  | none => none
  | some (d, i) =>
    let va := s.vecVa u d i
    (s.pageData k va).map (fun a => (va / 65536, s.viewPhys k a))

/-- Where a refill read puts its vectors: 0 the refill buffer, 1 and 2 the branch buffers of shadows A and B, or what a pending request for an
absent shadow will start. -/
def refillTarget (s : State) (u : PlayUnit) (which : Nat) : Option (List Stretch × List Nat × Nat) :=
  let f := s.feed u
  if which = 0 then some (stream f, f.buf, u.cap)
  else match f.play with
    | none => none
    | some p =>
      if p.wallSlip then none
      else
        let b := which == 2
        match p.desc b with
        | none =>
          match s.jumpHead u p b with
          | none => none
          | some d => if d.kind = 2 then none else some ([wholeStretch f d], if b then p.bufB else p.bufA, u.cap)
        | some d =>
          if d.kind = 2 then none
          else some ([wholeStretch f d], if b then p.bufB else p.bufA, if isStaged p b then u.cap else 64 - min 64 (pinnedLen f d))

/-- Add vectors behind what a buffer holds. -/
def refillPut (s : State) (u : PlayUnit) (which : Nat) (vs : List Nat) : State :=
  match which with
  | 0 => s.modFeed u (fun f => { f with buf := f.buf ++ vs })
  | 1 => s.modPlay u (fun p => { p with bufA := p.bufA ++ vs })
  | _ => s.modPlay u (fun p => { p with bufB := p.bufB ++ vs })

end State

/-- JUMP_REQUEST: every unit meets the jump lines of the operand that the last event-clock edge sampled high after low (R175, R176, R179, log 15). -/
def execJumpRequest (lines : Nat) (s : State) : Host.Outcome State Fault Refusal :=
  let v := lines &&& s.hr.jlRise
  let e := s.hr.jlAt
  .next ((playUnits.foldl (fun s u => s.jumpUnit u v e) s).modHr (fun r => { r with jlRise := r.jlRise ^^^ v }))

namespace State

/-- The requests of the last edge that no command has carried meet every unit before the next edge (R175). -/
def restJumps (s : State) : State :=
  if s.hr.jlRise = 0 then s
  else (playUnits.foldl (fun s u => s.jumpUnit u s.hr.jlRise s.hr.jlAt) s).modHr (fun r => { r with jlRise := 0 })

/-- A shadow's head stands in its branch buffer, where a Furrow-generated one is formed ahead on the generator it reserves (R180, R182). -/
def stageShadow (s : State) (v : PlayUnit) (which : Bool) (d : Seg) : State :=
  let head (old : List Nat) : List Nat := match v with
    | .slice n => if d.kind = 2 then s.fwAhead (Fin.ofNat 4 d.fw) n d.idleVec (s.fws[(Fin.ofNat 4 d.fw : Fin 4)].newPass 0) (min 64 d.length) else old
    | .out _ => old
  s.modPlay v (fun p => if which then { p with stagedB := true, bufB := head p.bufB } else { p with stagedA := true, bufA := head p.bufA })

end State

/-- SHADOW_STAGED: a shadow's head stands in its branch buffer or loop cache, or its generator is free for it (R180–R182, R208). -/
def execShadowStaged (u : Fin 28) (which : Bool) (s : State) : Host.Outcome State Fault Refusal :=
  let v := State.playUnit u
  let f := s.feed v
  match f.play with
  | none => .next s
  | some p =>
    match (if p.wallSlip || State.isStaged p which then none else p.desc which) with
    | none => .next s
    | some d =>
      let ue := s.takeInject 4 0x30
      if ue.1 then
        let s := ue.2.detect 4 0x30 .unit true (ue.2.unitOwner v)
        match v with
        | .slice n => .next (s.faultSlice n)
        | .out o => .next (s.faultOutput o)
      else
        let g : Fin 4 := Fin.ofNat 4 d.fw
        let ready := if d.kind = 2 then !s.fwProducing g && !s.fwElsewhere g v d
          else decide (64 ≤ presentFrom f d (if which then p.bufB else p.bufA) 0)
        .next (if ready then s.stageShadow v which d else s)

/-- What the result of a page's walk leaves: a held fault, or a translation and, for a host page, its fill (R218–R222, R224). -/
def State.walkEnd (s : State) (k : Fin 16) (page : Nat) (w : Nat ⊕ (Nat × Nat)) : State :=
  let s := s.modSess k (fun x => { x with walks := x.walks.filter (fun p => p != page) })
  match w with
  | .inl c => s.holdFault k page c
  | .inr (loc, base) =>
    let s := s.modSess k (fun x => { x with
      held := x.held.filter (fun h => h.1 != page), xlates := ⟨page, loc, base⟩ :: x.xlates.filter (fun t => t.page != page) })
    if loc = 1 && s.inWindow k page then s.issueFill k page base else s

/-- The reads of a walk: the first level and, where its entry is valid, the second; `true` says that one was uncorrectable (R218, R457). -/
def State.walkReads (s : State) (a1 a2 ecc : Nat) (valid : Bool) : State × Bool :=
  let r := s.ddrRead a1 ecc
  if r.2 || !valid then r else r.1.ddrRead a2 0

/-- The end of a walk whose reads are done (R222). -/
def State.walkJudge (k : Fin 16) (page : Nat) (r : State × Bool) : State :=
  if r.2 then r.1.walkEnd k page (.inl 2) else r.1.walkEnd k page (r.1.walk k page)

/-- The last byte of a page arrives in slot `i` of the page cache (R226). -/
def State.pageIn (s : State) (k : Fin 16) (page i : Nat) (data : List Byte) : State :=
  let s := { s with ddr := memPuts s.ddr (s.viewPhys k (s.slotView k i)) data }
  let s := s.modSess k (fun x => { x with pages := x.pages.map (fun q => if q.page = page ∧ !q.full then { q with full := true } else q) })
  s.count F.VS_PC_CNT_FILLS [k]

/-- PAGE_TABLE_WALK_DONE: a walk of the two-level table, issued for a page that entered a window, ends with a translation or a held fault, and a host
page's fill is issued while the page stands in a window (R218–R222, R224, R457). -/
def execPageTableWalkDone (k : Fin 16) (page ecc : Nat) (s : State) : Host.Outcome State Fault Refusal :=
  .next (if !(s.sess[k].walks.contains page || s.inWindow k page) then s
    else if s.viewSize k = 0 then s.walkEnd k page (s.walk k page)
    else State.walkJudge k page (s.walkReads (s.viewPhys k (s.walkL1 k page)) (s.viewPhys k (s.walkL2 k page)) ecc
      (bitOf (s.viewQuad k (s.walkL1 k page)) 0)))

/-- PAGE_FILL_COMPLETE: a host page's read ends, with its bytes in the page cache or with HOST_ERR (R222, R226). -/
def execPageFillComplete (k : Fin 16) (page : Nat) (err : Bool) (data : List Byte) (s : State) : Host.Outcome State Fault Refusal :=
  match s.sess[k].pages.find? (fun p => p.page == page && !p.full) with
  | none => .next s
  | some p =>
    let drop (s : State) := s.modSess k (fun x => { x with pages := x.pages.filter (fun q => !(q.page == page && !q.full)) })
    if err then .next ((drop s).holdFault k page 5)
    else
      let s := if p.slot.isNone then s.giveSlot k page else s
      match (s.sess[k].pages.find? (fun p => p.page == page && !p.full)).bind (·.slot) with
      | none => .next s
      | some i => .next (s.pageIn k page i (data.take 65536))

/-- FILL_TIMEOUT: a fill has not completed within FILL_TO milliseconds; the first slot that needs the page ends the sequence (R227). -/
def execFillTimeout (k : Fin 16) (page : Nat) (s : State) : Host.Outcome State Fault Refusal :=
  .next (s.modSess k (fun x => { x with pages := x.pages.map (fun p => if p.page = page ∧ !p.full then { p with late := true } else p) }))

/-- REFILL_READ_COMPLETE: a DDR4 read delivers up to `count` vectors or samples of a unit's stream, or of a shadow's head (R215, R216, R228, R457,
R458). -/
def execRefillReadComplete (u : Fin 28) (which : Fin 3) (count ecc : Nat) (s : State) : Host.Outcome State Fault Refusal :=
  let v := State.playUnit u
  let k := s.feedSess v
  match s.refillTarget v which with
  | none => .next s
  | some (h, buf, cap) =>
    match s.pullFirst v k h buf.length with
    | none => .next s
    | some (page, phys) =>
      let r := s.ddrRead phys ecc
      if r.2 then .next (r.1.holdFault k page 4)
      else
        let got := r.1.pullVectors v k h buf.length (min count (cap - buf.length))
        .next ((got.2.destutter (· ≠ ·)).foldl (fun s p => s.touchPage k p) (r.1.refillPut v which got.1))

namespace State

/-- Invalidate a session's translations and the faults that walks left (R221). -/
def invTlb (s : State) (k : Fin 16) : State :=
  s.modSess k (fun x => { x with xlates := [], held := x.held.filter (fun h => decide (3 < h.2)) })

/-- Invalidate a session's cached host pages; those in a window are fetched again (R221). -/
def invPages (s : State) (k : Fin 16) : State :=
  let keep := s.sess[k].pages.filter (fun p => s.inWindow k p.page)
  let need := (keep.filter (fun p => s.pageNeeded k p.page)).length
  let s := if need = 0 then s else s.count F.VS_PC_CNT_DEMAND [k] need
  s.modSess k (fun x => { x with
    pages := keep.map (fun p => { p with full := false, late := false }), held := x.held.filter (fun h => decide (h.2 ≤ 3)) })

end State

/-- VS_INV_TLB: a write of VS_INV.TLB (R221, R426). -/
def execVsInvTlb (k : Fin 16) (s : State) : Host.Outcome State Fault Refusal := .next (s.hostStrobe .VS_INV [k] 0 (fun s => s.invTlb k))

/-- VS_INV_PAGES: a write of VS_INV.PAGES (R221, R426). -/
def execVsInvPages (k : Fin 16) (s : State) : Host.Outcome State Fault Refusal := .next (s.hostStrobe .VS_INV [k] 1 (fun s => s.invPages k))

end Sys2Proof.Machine
end

