-- ==== Sys2Proof/Machine/Seq.lean ====
section
/-! DEFINITION. The sequencer cores (spec/05_microcode_sequencer.md): microword fields, conditions, next address, spans, halts and the
scheduler's choices at shot boundaries (R363, R364, R464). -/

namespace Sys2Proof.Machine

/-! ### Microword fields (R130) -/

def mwNext (w : Nat) : Nat := bitsOf w 0 14
def mwMode (w : Nat) : Nat := bitsOf w 14 3
def mwCond (w : Nat) : Nat := bitsOf w 17 6
def mwInv (w : Nat) : Bool := bitOf w 23
def mwWait (w : Nat) : Bool := bitOf w 24
def mwToEn (w : Nat) : Bool := bitOf w 25
def mwToAct (w : Nat) : Bool := bitOf w 26
def mwToScale (w : Nat) : Nat := bitsOf w 27 4
def mwToCount (w : Nat) : Nat := bitsOf w 31 10
def mwDspSrc (w : Nat) : Nat := bitsOf w 41 3
def mwDspWidth (w : Nat) : Nat := bitsOf w 44 3
def mwAtomic (w : Nat) : Bool := bitOf w 47
def mwShotBnd (w : Nat) : Bool := bitOf w 48
def mwEnd (w : Nat) : Bool := bitOf w 49
def mwSlices (w : Nat) : Nat := bitsOf w 50 12
def mwOutputs (w : Nat) : Nat := bitsOf w 62 16
def mwSeg (w : Nat) : Nat := bitsOf w 78 12
def mwIssue (w : Nat) : Bool := bitOf w 90
def mwTsSw (w : Nat) : Bool := bitOf w 91
def mwTs (w : Nat) : Nat := bitsOf w 92 5
def mwEmit (w : Nat) : Nat := bitsOf w 97 8
def mwFlagSet (w : Nat) : Nat := bitsOf w 105 8
def mwFlagClr (w : Nat) : Nat := bitsOf w 113 8
def mwLc0 (w : Nat) : Nat := bitsOf w 121 2
def mwLc1 (w : Nat) : Nat := bitsOf w 123 2
def mwLcVal (w : Nat) : Nat := bitsOf w 125 24
def mwFwMask (w : Nat) : Nat := bitsOf w 149 4
def mwFwOp (w : Nat) : Nat := bitsOf w 153 3
def mwFwReg (w : Nat) : Nat := bitsOf w 156 4
def mwFwArg (w : Nat) : Nat := bitsOf w 160 32

/-- A loop-counter operation (R141). -/
def lcApply (op val c : Nat) : Nat :=
  match op with
  | 1 => val
  | 2 => c - 1
  | 3 => min (c + 1) (2 ^ 24 - 1)
  | _ => c

/-- Context after a word's own effects: counters, flags, TIMED_OUT, stack and the next address (R131, R132, R139, R141, R142).
`src` is the dispatch source value. -/
def mwCtx (w : Nat) (x : Ctx) (c timedOut : Bool) (src : Nat) : Ctx :=
  let up := (x.pc + 1) % 2 ^ 14
  { x with
    lc0 := lcApply (mwLc0 w) (mwLcVal w) x.lc0
    lc1 := lcApply (mwLc1 w) (mwLcVal w) x.lc1
    flags := (x.flags ||| mwFlagSet w) &&& (255 - mwFlagClr w)
    timedOut := if mwToEn w then timedOut else x.timedOut
    stack := match mwMode w with
      | 3 => up :: x.stack
      | 4 => x.stack.tail
      | _ => x.stack
    pc := match mwMode w with
      | 0 => up
      | 1 => mwNext w
      | 2 => if c then mwNext w else up
      | 3 => mwNext w
      | 4 => x.stack.headD 0
      | _ => (mwNext w + src % 2 ^ mwDspWidth w) % 2 ^ 14 }

namespace State

/-- Session index of a core. -/
def coreSess (s : State) (c : Fin 4) : Fin 16 := Fin.ofNat 16 s.cores[c].sess

/-! ### Deposits (R143–R147) -/

/-- The descriptor that the session's next issue copies: its segment-table entry under the issue's number (R27, R238). -/
def issued (s : State) (k : Fin 16) (i : Nat) : Seg := { s.segEntry k i with issue := s.sess[k].issues }

/-- The effects a word has outside its core, in the order in which they stand: a switch entry ahead of its word's descriptor (R145), a Furrow
operation before the first run issued by its word (R146). -/
def wordFx (s : State) (c : Fin 4) (w : Nat) : List SpanFx :=
  (if mwTsSw w then [.tsSwitch (mwSlices w) (mwTs w)] else []) ++
  ((if mwFwOp w = 0 then [] else [.furrow (mwFwMask w) (mwFwOp w) (mwFwReg w) (mwFwArg w)]) ++
  ((if mwIssue w then [.issue (mwSlices w) (mwOutputs w) (s.issued (s.coreSess c) (mwSeg w))] else []) ++
  (if mwEmit w = 0 then [] else [.emit (mwEmit w)])))

/-- Is an issue of a word ISSUE_KIND: a mask that does not fit the segment's kind (R143, R167)? -/
def issueBad (s : State) (c : Fin 4) (w : Nat) : Bool :=
  let d := s.segEntry (s.coreSess c) (mwSeg w)
  mwIssue w && (match d.kind with
    | 1 => mwOutputs w != 0
    | 2 => mwOutputs w != 0
    | 3 => mwSlices w != 0
    | _ => mwSlices w != 0 || mwOutputs w != 0)

/-- Entries that an effect deposits into a slice's queue (R28, R143, R145, R173). -/
def fxSlice (n : Nat) : SpanFx → List WallEntry
  | .issue m _ d => if bitOf m n ∧ d.loops ≠ 0 then [.seg d] else []
  | .tsSwitch m t => if bitOf m n then [.ts t] else []
  | _ => []

/-- Descriptors that an effect deposits into an output's queue. -/
def fxOutput (o : Nat) : SpanFx → List Seg
  | .issue _ m d => if bitOf m o ∧ d.loops ≠ 0 then [d] else []
  | _ => []

/-- Operations of a list of effects that wait on a generator, which is in use already or by a run issued before them (R146). -/
def fxWaits (g : Nat) : Bool → List SpanFx → Nat
  | _, [] => 0
  | busy, fx :: t =>
    match fx with
    | .furrow m _ _ _ => (bitOf m g && busy).toNat + fxWaits g busy t
    | .issue m _ d => fxWaits g (busy || (isRun g d && d.loops != 0 && decide (m % 2 ^ 12 ≠ 0))) t
    | _ => fxWaits g busy t

/-- Is there room in every queue for a list of effects (R144, R146, R156)? -/
def fxRoom (s : State) (fx : List SpanFx) : Bool :=
  (List.finRange 12).all (fun n => let e := fx.flatMap (fxSlice n); e.isEmpty || decide (s.slices[n].feed.queue.length + e.length ≤ 256)) &&
  ((List.finRange 16).all (fun o => let e := fx.flatMap (fxOutput o); e.isEmpty || decide (s.aos[o].feed.queue.length + e.length ≤ 64)) &&
  (List.finRange 4).all (fun g => let n := fxWaits g (s.fwHeld g) fx; n == 0 || s.fwRoom g n))

/-- EMIT_PULSE: event outputs pulse at the second event-clock edge after the word completes (R147). -/
def emitPulses (s : State) (c : Fin 4) (mask : Nat) : State :=
  (List.range 8).foldl (fun s i => if bitOf mask i then s.defer 2 (.corePulse (176 + 8 * c + i) (s.coreSess c)) else s) s

/-- One effect becomes visible (R143, R145–R147). -/
def applyFx (s : State) (c : Fin 4) (fx : SpanFx) : State :=
  match fx with
  | .emit m => s.emitPulses c m
  | .furrow m op r a => (List.finRange 4).foldl (fun (s : State) (g : Fin 4) => if bitOf m g then s.fwQueueOp g op r a else s) s
  | _ =>
    let k := s.cores[c].sess
    let s := s.overSlices (fun n s => (fxSlice n fx).foldl (fun s e => s.depositSlice n k e) s)
    s.overOutputs (fun o s => (fxOutput o fx).foldl (fun s d => (s.depositAo o k d).calDeposit o) s)

/-! ### Conditions (R135, R136) -/

/-- Does the scheduler hold a session that would take the core at the next shot boundary (R364, condition 29)? -/
def yieldReq (s : State) (c : Fin 4) : Bool :=
  let k := s.coreSess c
  s.act F.RM_SESS_CFG_DEDICATED [k] == 0 &&
  (List.finRange 16).any (fun j => decide (j ≠ k) && (s.waits j).isSome &&
    s.act F.RM_SESS_CFG_DEDICATED [j] == 0 &&
    decide (s.act F.RM_SESS_CFG_PRIO [k] ≤ s.act F.RM_SESS_CFG_PRIO [j]))

/-- The queues and generators as core `c` sees them: inside a span with the span's own deposits and operations done (R156). -/
def spanView (s : State) (c : Fin 4) : State :=
  match s.cores[c].span with
  | none => s
  | some p => (p.fx.filter (fun x => match x with
      | .emit _ => false
      | _ => true)).foldl (fun s x => s.applyFx c x) s

/-- Is a trigger unit READY (R136, code 21)? -/
def trigReady (s : State) (u : Nat) : Bool := s.get F.TG_STATUS_STATE [u] == 2

/-- Is a trigger unit's capture DONE (R136, code 22)? -/
def trigDone (s : State) (u : Nat) : Bool := s.get F.TG_STATUS_DONE [u] == 1

/-- A slice of session `k` that plays shows headroom below its LOW_TH (R35, code 16). -/
def wallLow (s : State) (k : Fin 16) : Bool :=
  (List.finRange 12).any (fun n => s.ownsSlice k n && s.slices[n].feed.play.isSome &&
    decide (s.sliceHeadroom n < s.get F.EP_WALL_CTRL_LOW_TH [n]))

/-- A wall queue of session `k` is full (code 17). -/
def wallFull (s : State) (k : Fin 16) : Bool :=
  (List.finRange 12).any (fun n => s.ownsSlice k n && decide (256 ≤ s.slices[n].feed.queue.length)) ||
  (List.finRange 16).any (fun o => s.ownsAo k o && decide (64 ≤ s.aos[o].feed.queue.length))

/-- Every slice and output of session `k` is idle, with an empty queue (code 18). -/
def unitsIdle (s : State) (k : Fin 16) : Bool :=
  (List.finRange 12).all (fun n => !s.ownsSlice k n || (s.slices[n].feed.play.isNone && s.slices[n].feed.queue.isEmpty)) &&
  (List.finRange 16).all (fun o => !s.ownsAo k o || (s.aos[o].feed.play.isNone && s.aos[o].feed.queue.isEmpty))

/-- An output of session `k` that plays has headroom below its low threshold (code 20). -/
def aoWallLow (s : State) (k : Fin 16) : Bool :=
  (List.finRange 16).any (fun o => s.ownsAo k o && s.aos[o].feed.play.isSome &&
    decide (s.aoHeadroom o < s.get F.AO_WALL_CTRL_LOW_TH [o]))

/-- Value of condition `code` on core `c` (R136). -/
def condValue (s : State) (c : Fin 4) (code : Nat) : Bool :=
  let x := s.cores[c].ctx
  let k := s.coreSess c
  match code with
  | 0 => true
  | 1 => x.lc0 == 0
  | 2 => decide (1 < x.lc0)
  | 3 => x.lc1 == 0
  | 4 => decide (1 < x.lc1)
  | 5 => x.timedOut
  | 6 => x.stack.isEmpty
  | 7 => x.stack.length == 16
  | 16 => (s.spanView c).wallLow k
  | 17 => (s.spanView c).wallFull k
  | 18 => (s.spanView c).unitsIdle k
  | 19 => (List.finRange 4).all (fun g => !s.ownsFw k g || (s.spanView c).fwQuiet g)
  | 20 => (s.spanView c).aoWallLow k
  | 21 => (List.finRange 8).all (fun u => !s.ownsTg k u || s.trigReady u)
  | 22 => (List.finRange 8).any (fun u => s.ownsTg k u && s.trigDone u)
  | 23 => x.failSeen
  | 24 => x.maskViol
  | 25 => s.calBusyFor k
  | 26 => s.get F.TB_STATUS_STATE == 2
  | 27 => s.get F.TB_STATUS_STATE == 3 || s.get F.TB_STATUS_STATE == 4
  | 28 => s.degradedFor k
  | 29 => s.yieldReq c
  | 30 => x.slipSeen
  | 31 => false
  | n => if 8 ≤ n ∧ n < 16 then bitOf x.flags (n - 8) else s.condInput k (n - 32)

/-- The condition a word uses, after COND_INV (R130). -/
def wordCond (s : State) (c : Fin 4) (w : Nat) : Bool := s.condValue c (mwCond w) != mwInv w

/-- Dispatch source value (R133). -/
def dispatchSrc (s : State) (c : Fin 4) (src : Nat) : Nat :=
  let x := s.cores[c].ctx
  let hc (b : Nat) : Nat := ((List.range 8).map (fun i => if s.condInput (s.coreSess c) (b + i) then 2 ^ i else 0)).sum
  match src with
  | 0 => x.flags
  | 1 => hc 0
  | 2 => hc 8
  | 3 => hc 16
  | 4 => hc 24
  | 5 => x.lc0 % 256
  | _ => x.lc1 % 256

/-! ### The scheduler (R362–R364, R464) -/

/-- Is a core in service (R464)? -/
def coreIn (s : State) (c : Fin 4) : Bool := s.get F.FLT_CORE_STATE [c] != 2

/-- The core a dedicated session takes: the highest-numbered in-service cores in ascending session order (R363, R464). -/
def dedicatedCore (s : State) (k : Fin 16) : Option (Fin 4) :=
  let before := ((List.finRange 16).filter (fun j => decide (j < k) && s.act F.RM_SESS_CFG_DEDICATED [j] == 1)).length
  (((List.finRange 4).reverse).filter (fun c => s.coreIn c))[before]?

/-- Is a core reserved for a dedicated session? -/
def coreDedicated (s : State) (c : Fin 4) : Bool :=
  (List.finRange 16).any (fun j => s.act F.RM_SESS_CFG_DEDICATED [j] == 1 && s.dedicatedCore j == some c)

/-- Does waiting session `a` come before `b` (R363)? -/
def waitsBefore (s : State) (a b : Fin 16) : Bool :=
  let pa := s.act F.RM_SESS_CFG_PRIO [a]
  let pb := s.act F.RM_SESS_CFG_PRIO [b]
  let ta := (s.waits a).getD 0
  let tb := (s.waits b).getD 0
  decide (pb < pa) || (pa == pb && (decide (ta < tb) || (ta == tb && decide (a < b))))

/-- The waiting session that comes first for a core (R363). -/
def nextFor (s : State) (c : Fin 4) : Option (Fin 16) :=
  let able (j : Fin 16) : Bool := (s.waits j).isSome &&
    (if s.act F.RM_SESS_CFG_DEDICATED [j] == 1 then s.dedicatedCore j == some c else !s.coreDedicated c)
  (List.finRange 16).foldl (fun best j => if able j then
    match best with
    | none => some j
    | some b => if s.waitsBefore j b then some j else best
    else best) none

/-- A core takes a waiting session: its saved context runs; for a burst that waits with no sequence yet the core stays free for its shot (R149, R363, R364,
R373). -/
def dispatch (s : State) (c : Fin 4) (k : Fin 16) : State :=
  match s.sess[k].saved with
  | none => s
  | some x =>
    let s := s.noteWait k
    let s := s.modCore c (fun r => { r with st := .running, sess := k, ctx := x, span := none, haltReq := false,
                                            abortReq := false, stepping := false, stallTimedOut := false, stallCond := false })
    s.modSess k (fun y => { y with saved := none, waitSince := none, onCore := true, core := c })

/-- A session leaves its core with its context saved and becomes waiting (R148, R364). -/
def switchOut (s : State) (c : Fin 4) : State :=
  let k := s.coreSess c
  let x := s.cores[c].ctx
  (s.modSess k (fun y => { y with saved := some x, waitSince := some s.now, onCore := false })).modCore c
    (fun r => { r with st := .idle, span := none, haltReq := false, abortReq := false, stepping := false })

/-- A core leaves service at a boundary (R464). -/
def retireCore (s : State) (c : Fin 4) : State :=
  (s.modCore c (fun r => { r with offReq := false })).set F.FLT_CORE_STATE [c] 2

/-- SHOT_BOUNDARY_SWITCH: a shot boundary may take the core out of service or switch the session out (R364, R464). -/
def shotBoundary (s : State) (c : Fin 4) : State :=
  if s.cores[c].offReq then (s.switchOut c).retireCore c
  else if s.yieldReq c then
    let s := (s.switchOut c).count F.RM_SWITCHES_SWITCHES
    match s.nextFor c with
    | some k => s.dispatch c k
    | none => s
  else s

/-! ### One word -/

/-- Take the halt or abort that waits at a boundary outside a span (R151, R152, R157). -/
def takePending (s : State) (c : Fin 4) : State :=
  if s.cores[c].abortReq then s.endSeq (s.coreSess c) .aborted
  else if s.cores[c].haltReq || s.cores[c].stepping then
    s.modCore c (fun r => { r with st := .halted, haltReq := false, stepping := false })
  else s

/-- A word has completed and its effects are visible: END, shot boundary, then what waits at the boundary (R148, R151, R364). -/
def afterWord (s : State) (c : Fin 4) (w : Nat) : State :=
  if mwEnd w then
    let s := s.stopSeq (s.coreSess c)
    if s.cores[c].offReq then s.retireCore c else s
  else
    let s := if mwShotBnd w && !s.cores[c].abortReq then s.shotBoundary c else s
    if s.cores[c].st = .running then s.takePending c else s

/-- Is the word at an address a span word? A word that is not a microword is none, so the span commits before it (R155; DESIGN CHOICE, log 55). -/
def atomicAt (s : State) (a : Nat) : Bool :=
  match s.csWord a with
  | some x => x.kind == 1 && mwAtomic x.bits
  | none => false

/-- A word that issues takes the session's next issue number (R238). -/
def countIssue (s : State) (k : Fin 16) (w : Nat) : State :=
  if mwIssue w then s.modSess k (fun x => { x with issues := x.issues + 1 }) else s

/-- A word stalls on a full queue (R144, R156). -/
def stall (s : State) (c : Fin 4) (cv tmo : Bool) : State :=
  let s := if s.cores[c].st = .stalled then s else s.count F.SQ_CNT_STALLS [c]
  s.modCore c (fun r => { r with st := .stalled, stallCond := cv, stallTimedOut := tmo })

/-- A span begins with its first word (R155). -/
def openSpan (s : State) (c : Fin 4) : State :=
  s.modCore c (fun r => { r with span := some (r.span.getD ⟨r.ctx.pc, 0, r.ctx, []⟩) })

/-- Complete the word `w` at the core's address with condition `cv`; `tmo` says that its wait timed out, a condition of the
command although the sequence goes on (R131, R134, R143, R144, R155–R158, R398). A stack fault comes before ISSUE_KIND, and an abort that the span has
deferred waits while its commit stalls (DESIGN CHOICE, log 79). -/
def completeWord (s : State) (c : Fin 4) (w : Nat) (cv tmo : Bool) : State :=
  let s := if mwAtomic w then s.openSpan c else s
  let r := s.cores[c]
  let x := r.ctx
  let injO := if mwMode w = 3 ∧ (s.flt.inj.map (·.variant)) = some false then s.takeInject 0x18 c else (false, s)
  let injU := if mwMode w = 4 ∧ (s.flt.inj.map (·.variant)) = some true then injO.2.takeInject 0x18 c else (false, injO.2)
  let s := injU.2
  if mwMode w = 3 ∧ (x.stack.length = 16 ∨ injO.1) then
    (s.detect 0x18 c .unit injO.1 (some (s.coreSess c))).hardFaultCore c 4
  else if mwMode w = 4 ∧ (x.stack = [] ∨ injU.1) then
    (s.detect 0x18 c .unit injU.1 (some (s.coreSess c))).hardFaultCore c 5
  else if s.issueBad c w then s.hardFaultCore c 6
  else if mwIssue w ∧ (s.takeInject 4 0x30).1 then
    ((s.takeInject 4 0x30).2.detect 4 0x30 .unit true (some (s.coreSess c))).hardFaultCore c 8
  else
    let s := if mwIssue w then s.sramCe 0x30 (some (s.coreSess c)) else s
    let fx := s.wordFx c w
    let x' := mwCtx w x cv tmo r.dsp
    let s := if tmo then s.noteCond (s.coreSess c) Cond.timeout else s
    let made := s.countIssue (s.coreSess c) w
    if mwAtomic w then
      let p : Span := r.span.getD ⟨x.pc, 0, x, []⟩
      let p' : Span := { p with words := p.words + 1, fx := p.fx ++ fx }
      if s.atomicAt x'.pc then
        made.modCore c (fun r => { r with st := .running, ctx := x', span := some p' })
      else if s.fxRoom p'.fx then
        let s := made.modCore c (fun r => { r with st := .running, ctx := x', span := none })
        (p'.fx.foldl (fun s f => s.applyFx c f) s).afterWord c w
      else s.stall c cv tmo
    else if s.fxRoom fx then
      let s := made.modCore c (fun r => { r with st := .running, ctx := x', span := none })
      (fx.foldl (fun s f => s.applyFx c f) s).afterWord c w
    else s.stall c cv tmo

/-- A stored word is read: each quadword with a single-bit error is corrected, written back and counted (R127); `inj` adds an injected one, which
changes no stored bit (R455). -/
def csScrub (s : State) (a : Nat) (x : CsWord) (inj : Bool) (owner : Option (Fin 16)) : State :=
  let one (i : Bool) (s : State) : State := (s.count F.SQ_CS_ECC_CORRECTED).detect 5 (a / 1024) .report i owner
  let fix : CsWord := { x with ecc := x.ecc.map (fun e => if e = .single then .clean else e) }
  let s := if x.ecc.any (· == .single) then
      { s with cs := { s.cs with words := s.cs.words.map (fun p => if p.1 = a then (a, fix) else p) } } else s
  let s := (x.ecc.toList.filter (· == .single)).foldl (fun s _ => one false s) s
  if inj then one true s else s

/-- An uncorrectable control-store word is found (R127). -/
def csDouble (s : State) (a : Nat) : State :=
  (s.count F.SQ_CS_ECC_UNCORRECTABLE).set F.SQ_CS_ECC_ADDR_LAST_ADDR [] a

/-- Fetch the word at the core's address: the word's bits, or the fault code it raises (R127, R128, R153). A word that is no microword is CS_TYPE
whatever its ECC state (DESIGN CHOICE, log 79). -/
def fetchWord (s : State) (c : Fin 4) : State × (Nat ⊕ Nat) :=
  let a := s.cores[c].ctx.pc
  let k := s.coreSess c
  if !s.ownsRegion k (a / 1024) then (s, .inr 2)
  else
    let s := s.modCore c (fun r => { r with ctx := { r.ctx with fetched := withBit r.ctx.fetched (a / 1024) } })
    match s.csWord a with
    | none => (s, .inr 3)
    | some x =>
      if x.kind ≠ 1 then (s, .inr 3)
      else
        let ce := s.takeInject 5 (a / 1024)
        let ue := ce.2.takeInject 6 (a / 1024)
        let s := ue.2.csScrub a x ce.1 (some k)
        if x.ecc.any (· == .double) || ue.1 then
          ((s.csDouble a).detect 6 (a / 1024) .unit ue.1 (some k), .inr 1)
        else (s, .inl x.bits)

/-- The instant at which a word starts: its dispatch source as it stands, and the first event-clock edge at or after it (R131, R138). -/
def wordStarts (s : State) (c : Fin 4) (w : Nat) : State :=
  let v := s.dispatchSrc c (mwDspSrc w)
  let t := (s.now + 2047) / 2048 * 2048
  s.modCore c (fun r => { r with dsp := v, waitFrom := t })

/-- Has the timeout of a waiting word expired (R138)? -/
def waitOver (s : State) (c : Fin 4) (w : Nat) : Bool :=
  mwToEn w && decide (s.cores[c].waitFrom + mwToCount w * 2 ^ mwToScale w * 2048 ≤ s.now)

/-- A core runs the word at its address: it completes, waits, stalls or faults (R131, R137, R138). -/
def runWord (s : State) (c : Fin 4) : State :=
  match s.fetchWord c with
  | (s, .inr code) => s.hardFaultCore c code
  | (s, .inl w) =>
    let s := s.wordStarts c w
    let cv := s.wordCond c w
    if mwWait w && !cv then
      if mwToEn w && mwToCount w == 0 then
        if mwToAct w then s.completeWord c w false true else s.endSeq (s.coreSess c) .timeout
      else s.modCore c (fun r => { r with st := .waiting })
    else s.completeWord c w cv false

/-- Run words until a span closes or the core leaves the running state (R152). -/
def runSpan (s : State) (c : Fin 4) : Nat → State
  | 0 => s
  | n + 1 =>
    let s := s.runWord c
    if s.cores[c].st = .running ∧ s.cores[c].span.isSome then s.runSpan c n else s

end State

/-- MICROWORD_COMPLETE: a running core runs the word at its address (R131). -/
def execMicrowordComplete (c : Fin 4) (s : State) : Host.Outcome State Fault Refusal :=
  .next (if s.cores[c].st = .running then s.runWord c else s)

/-- CONDITION_TRUE: the waiting word completes, its condition after COND_INV being true (R137, R140). -/
def execConditionTrue (c : Fin 4) (s : State) : Host.Outcome State Fault Refusal :=
  match s.cores[c].st, s.csWord s.cores[c].ctx.pc with
  | .waiting, some x =>
    if s.wordCond c x.bits then .next (s.completeWord c x.bits true false) else .next s
  | _, _ => .next s

/-- WAIT_TIMEOUT: the timeout of a waiting word expires; a condition true at the same edge wins (R138, R139). -/
def execWaitTimeout (c : Fin 4) (s : State) : Host.Outcome State Fault Refusal :=
  match s.cores[c].st, s.csWord s.cores[c].ctx.pc with
  | .waiting, some x =>
    if !s.waitOver c x.bits then .next s
    else if s.wordCond c x.bits then .next (s.completeWord c x.bits true false)
    else if mwToAct x.bits then .next (s.completeWord c x.bits false true)
    else .next (s.endSeq (s.coreSess c) .timeout)
  | _, _ => .next s

/-- STALL_RELEASE: the queues of a stalled word have room and it completes (R144, R156). -/
def execStallRelease (c : Fin 4) (s : State) : Host.Outcome State Fault Refusal :=
  match s.cores[c].st, s.csWord s.cores[c].ctx.pc with
  | .stalled, some x => .next (s.completeWord c x.bits s.cores[c].stallCond s.cores[c].stallTimedOut)
  | _, _ => .next s

/-- CS_PATROL: the patrol reads a loaded word, corrects single-bit errors and records uncorrectable ones (R127). -/
def execCsPatrol (a : Fin 16384) (s : State) : Host.Outcome State Fault Refusal :=
  match s.csWord a with
  | none => .next s
  | some x =>
    let s := s.csScrub a x false none
    .next (if x.ecc.any (· == .double) then s.csDouble a else s)

namespace State

/-- SQ_CTRL.HALT: a core that runs a sequence halts at its next boundary; a span defers it (R151, R152, R157). -/
def haltCore (s : State) (c : Fin 4) : State :=
  match s.cores[c].st with
  | .idle => s
  | .faulted => s
  | .halted => s
  | _ =>
    if s.cores[c].span.isSome then (s.count F.SQ_CNT_DEFERRED [c]).modCore c (fun r => { r with haltReq := true })
    else s.modCore c (fun r => { r with st := .halted })

/-- SQ_CTRL.RESUME: a halted core continues at SQ_PC (R152). -/
def resumeCore (s : State) (c : Fin 4) : State :=
  if s.cores[c].st = .halted then s.modCore c (fun r => { r with st := .running, stepping := false }) else s

/-- SQ_CTRL.STEP: a halted core runs one word, or one whole span, and halts again (R152). A core that is not halted is not stepped, and a word that
switches its session out ends the step (DESIGN CHOICE, log 54). -/
def stepCore (s : State) (c : Fin 4) : State :=
  if s.cores[c].st = .halted then (s.modCore c (fun r => { r with st := .running, stepping := true })).runSpan c 33 else s

end State

/-- HALT: a write of SQ_CTRL.HALT (R152, R426). -/
def execHalt (c : Fin 4) (s : State) : Host.Outcome State Fault Refusal := .next (s.hostStrobe .SQ_CTRL [c] 0 (fun s => s.haltCore c))

/-- RESUME: a write of SQ_CTRL.RESUME (R152, R426). -/
def execResume (c : Fin 4) (s : State) : Host.Outcome State Fault Refusal := .next (s.hostStrobe .SQ_CTRL [c] 1 (fun s => s.resumeCore c))

/-- STEP: a write of SQ_CTRL.STEP (R152, R426). -/
def execStep (c : Fin 4) (s : State) : Host.Outcome State Fault Refusal := .next (s.hostStrobe .SQ_CTRL [c] 2 (fun s => s.stepCore c))

/-- CORE_DISPATCH: an idle in-service core takes the waiting session that comes first (R323, R363). -/
def execCoreDispatch (c : Fin 4) (s : State) : Host.Outcome State Fault Refusal :=
  if s.cores[c].st = .idle ∧ s.coreIn c then
    match s.nextFor c with
    | some k => .next (s.dispatch c k)
    | none => .next s
  else .next s

/-- A write of CSW_ADDR sets the window address and releases the latch (R164). -/
def State.cswAddr (s : State) (v : Word) : State :=
  let s := (s.set F.CSW_ADDR_ADDR [] (v.toNat % 2 ^ 14)).set F.CSW_ADDR_AUTOINC [] (bitsOf v.toNat 14 1)
  { s with cs := { s.cs with latch := none } }

/-- CSW_ADDR_WRITE: a write of CSW_ADDR (R164, R426). -/
def execCswAddrWrite (v : Word) (s : State) : Host.Outcome State Fault Refusal :=
  .next (s.toField (.barWr (Reg.key .CSW_ADDR []) v) (fun s => s.cswAddr v))

namespace State

/-- The word the window shows: the latched one, or the one at ADDR as it stands (R164). -/
def cswShown (s : State) : Nat × Option CsWord :=
  match s.cs.latch with
  | some p => p
  | none => let a := s.get F.CSW_ADDR_ADDR; (a, s.csWord a)

/-- Value of CSW_DATAd of a shown word; one that a load has cleared to type 0 shows 0 (DESIGN CHOICE, log 79). -/
def cswData (p : Nat × Option CsWord) (d : Nat) : Word :=
  BitVec.ofNat 32 (bitsOf ((p.2.map (·.bits)).getD 0) (32 * d) 32)

/-- Value of CSW_META of a shown word. -/
def cswMeta (p : Nat × Option CsWord) : Word :=
  let kind := (p.2.map (·.kind)).getD 0
  let single := (p.2.map (fun x => x.ecc.any (· == .single))).getD false
  let double := (p.2.map (fun x => x.ecc.any (· == .double))).getD false
  BitVec.ofNat 32 (kind + 4 * single.toNat + 8 * double.toNat + 16 * (p.1 / 1024))

end State

/-- CSW_DATA0_READ: latch the whole addressed word with its metadata (R127, R164). -/
def execCswData0Read (s : State) : Host.Outcome State Fault Refusal :=
  .next (s.readField (.barRd (Reg.key .CSW_DATA [0])) (fun s =>
    let a := s.get F.CSW_ADDR_ADDR
    let p := (a, s.csWord a)
    (State.cswData p 0, { s with cs := { s.cs with latch := some p } })))

/-- CSW_DATA5_READ: return the top bits and, with AUTOINC, step ADDR while keeping the latch (R164). -/
def execCswData5Read (s : State) : Host.Outcome State Fault Refusal :=
  .next (s.readField (.barRd (Reg.key .CSW_DATA [5])) (fun s =>
    let v := State.cswData s.cswShown 5
    let s := if s.get F.CSW_ADDR_AUTOINC = 1 then s.set F.CSW_ADDR_ADDR [] ((s.get F.CSW_ADDR_ADDR + 1) % 2 ^ 14) else s
    (v, s)))

end Sys2Proof.Machine
end

