-- ==== Sys2Proof/Machine/CommitChecks.lean ====
section
/-! DEFINITION. The checks of a commit (R40, R42–R45, R356, R490, R491, R493 and the refusals of every chapter): each check yields the failures
it finds in the device as it would stand after the commit, and the first of them in the order of R19 and R491 refuses the commit. -/

namespace Sys2Proof.Machine

/-! ### Failures and their order -/

/-- A failed check: its status, and the class, timing set, BAR0 offset and lowest bit of the offending field, class 0 for none; for a
segment-table field the session and the entry (R490). -/
structure CFail where
  st : Status
  cls : Nat
  ts : Nat
  off : Nat
  lsb : Nat
  sess : Nat
  entry : Nat
  deriving DecidableEq, Repr

/-- FIELD_ID (R490). -/
def CFail.id (x : CFail) : Nat := if x.cls = 0 then 0 else x.cls * 32 + x.lsb

/-- Place in the order of R19, then of R491. -/
def CFail.place (x : CFail) : List Nat :=
  if 0xD0 ≤ x.cls then [x.st.refuseRank, 0xD0, x.sess, x.entry, x.cls, x.lsb] else [x.st.refuseRank, x.cls, x.ts, x.off, x.lsb]

/-- Lexical order of places. -/
def placeLt : List Nat → List Nat → Bool
  | a :: s, b :: t => decide (a < b) || (a == b && placeLt s t)
  | [], _ :: _ => true
  | _, [] => false

/-- The first failure. -/
def leastFail (l : List CFail) : Option CFail :=
  l.foldl (fun a x => match a with
    | none => some x
    | some y => if placeLt x.place y.place then some x else a) none

/-- A failure that concerns no field (R490). -/
def noField (st : Status) : CFail := ⟨st, 0, 0, 0, 0, 0, 0⟩

/-- A failure of a field. -/
def atField (st : Status) (f : Fld) (ix : List Nat) : CFail :=
  let k := f.reg.key ix
  ⟨st, f.reg.row.cls, k / 2 ^ 20, k % 2 ^ 20, f.lsb, 0, 0⟩

/-- A failure of a segment-table field (R168). -/
def atSeg (st : Status) (k entry cls lsb : Nat) : CFail := ⟨st, cls, 0, 0, lsb, k, entry⟩

/-- One failure when a check fails. -/
def failIf (b : Bool) (x : CFail) : List CFail := if b then [x] else []

/-! ### What a commit covers (R42, R492) -/

/-- A commit: its scope code, its target, and whether the physical function issues it (R355). -/
structure Scope where
  code : Nat
  target : Nat
  byPf : Bool
  deriving DecidableEq, Repr

namespace State

/-- Does a session own the unit of a register, or is it a register of the session (R486)? -/
def ownsReg (s : State) (k : Fin 16) (r : Reg) (ix : List Nat) : Bool :=
  let i := if decide ((r.row.dims.headD (0, 0)).1 = 2 ^ 20) then ix.getD 1 0 else ix.headD 0
  match r.row.own with
  | .device => false
  | .page => false
  | .session => i == k.val
  | .slice => s.ownsSlice k i
  | .furrow => s.ownsFw k i
  | .trigger => s.ownsTg k i
  | .output => s.ownsAo k i
  | .mu => s.ownsMu k i
  | .mt => s.ownsMt k i
  | .input => s.ownerInput i == some k

/-- Does a commit cover a register (R42, R355, R492)? -/
def covers (s : State) (v : Scope) (r : Reg) (ix : List Nat) : Bool :=
  let i := if decide ((r.row.dims.headD (0, 0)).1 = 2 ^ 20) then ix.getD 1 0 else ix.headD 0
  match r.row.scope with
  | none => false
  | some c =>
    if v.code = 0 then true
    else if v.code = 1 then
      if c = 8 then v.byPf && i == v.target
      else decide (1 ≤ c) && decide (c ≤ 5) && s.ownsReg (Fin.ofNat 16 v.target) r ix
    else if v.code = 6 then c == 6
    else c == v.code && i == v.target

/-- The values a commit would make active: every covered register whose shadow differs (R39, R41). -/
def commitVals (s : State) (v : Scope) : List (Nat × Word) :=
  let keys := s.regs.shadow.map (·.1) ++ (s.regs.active.map (·.1)).filter (fun k => !s.regs.shadow.any (fun p => p.1 == k))
  (keys.filter (fun k => s.shadowK k != s.activeK k &&
    (match regAt k with
      | some (r, ix) => s.covers v r ix
      | none => false))).map (fun k => (k, s.shadowK k))

/-- The segment tables a commit makes active (R165). -/
def commitSegs (s : State) (v : Scope) : List (Nat × SMap Nat) :=
  ((List.finRange 16).filter (fun k => v.code == 0 || (v.code == 1 && k.val == v.target))).map (fun k => (k.val, s.sess[k].segShadow))

/-- The device as it would stand after the commit: its active copies and the commit's own values. The values of an earlier live commit that has passed
and is still pending do not count, in the loop check either, of which R43 says nothing (DESIGN CHOICE, log 73). -/
def candidate (s : State) (vals : List (Nat × Word)) (segs : List (Nat × SMap Nat)) : State :=
  let s := vals.foldl (fun s p => s.putActive p.1 p.2) s
  segs.foldl (fun s p => s.modSess (Fin.ofNat 16 p.1) (fun x => { x with segActive := p.2 })) s

/-- The covered slices, generators, outputs, trigger units, sessions, inputs, measurement units and mask tests. -/
def covSlice (s : State) (v : Scope) (n : Nat) : Bool :=
  v.code == 0 || (v.code == 1 && s.ownsSlice (Fin.ofNat 16 v.target) n) || (v.code == 2 && v.target == n)
def covFw (s : State) (v : Scope) (g : Nat) : Bool :=
  v.code == 0 || (v.code == 1 && s.ownsFw (Fin.ofNat 16 v.target) g) || (v.code == 3 && v.target == g)
def covAo (s : State) (v : Scope) (o : Nat) : Bool :=
  v.code == 0 || (v.code == 1 && s.ownsAo (Fin.ofNat 16 v.target) o) || (v.code == 4 && v.target == o)
def covTg (s : State) (v : Scope) (u : Nat) : Bool :=
  v.code == 0 || (v.code == 1 && s.ownsTg (Fin.ofNat 16 v.target) u) || (v.code == 5 && v.target == u)
def covInput (s : State) (v : Scope) (i : Nat) : Bool :=
  v.code == 0 || (v.code == 1 && s.ownerInput i == some (Fin.ofNat 16 v.target))
def covMu (s : State) (v : Scope) (u : Nat) : Bool := v.code == 0 || (v.code == 1 && s.ownsMu (Fin.ofNat 16 v.target) u)
def covMt (s : State) (v : Scope) (m : Nat) : Bool := v.code == 0 || (v.code == 1 && s.ownsMt (Fin.ofNat 16 v.target) m)

end State

def Scope.sess (v : Scope) (k : Nat) : Bool := v.code == 0 || (v.code == 1 && v.target == k)

/-- The session whose ownership a check asks: the target of scope 1, else the unit's owner (R355, R356). -/
def Scope.judge (v : Scope) (owner : Option (Fin 16)) : Option (Fin 16) := if v.code = 1 then some (Fin.ofNat 16 v.target) else owner

namespace State

/-! ### Idle units and pending commits (R42, R45, R360, R375, R475) -/

def sliceBusy (s : State) (n : Fin 12) : Bool :=
  let f := s.slices[n].feed
  f.play.isSome || !f.queue.isEmpty || f.startAt.isSome

def aoBusy (s : State) (o : Fin 16) : Bool :=
  let f := s.aos[o].feed
  f.play.isSome || !f.queue.isEmpty || f.startAt.isSome

def tgBusy (s : State) (u : Nat) : Bool := s.get F.TG_STATUS_STATE [u] != 0

/-- Is the unit of a scope 2 to 5 in use? -/
def unitBusy (s : State) (scope t : Nat) : Bool :=
  match scope with
  | 2 => s.sliceBusy (Fin.ofNat 12 t)
  | 3 => s.fwActive (Fin.ofNat 4 t)
  | 4 => s.aoBusy (Fin.ofNat 16 t)
  | _ => s.tgBusy t

/-- A session runs a sequence or a burst, or tears down, or a unit of it is in use. -/
def sessBusy (s : State) (k : Fin 16) : Bool :=
  let x := s.sess[k]
  x.seq.isSome || x.burst.isSome || x.tearing ||
  (List.finRange 12).any (fun n => s.ownsSlice k n && s.sliceBusy n) ||
  (List.finRange 16).any (fun o => s.ownsAo k o && s.aoBusy o) ||
  (List.finRange 4).any (fun g => s.ownsFw k g && s.fwActive g) ||
  (List.range 8).any (fun u => s.ownsTg k u && s.tgBusy u)

/-- Is a shot of the session in progress? Between the shots of a burst its units are idle (R375). -/
def shotRuns (s : State) (k : Fin 16) : Bool := (s.sess[k].burst.map (fun b => b.phase != 0 && b.phase != 6)).getD false

/-- Does a sequence or a shot of the session that owns a unit run, so that the unit is not idle (R42)? A session's units count as used from the start of
its sequence, whichever of them it has issued to (DESIGN CHOICE, log 46). -/
def ownerRuns (s : State) (o : Option (Fin 16)) : Bool :=
  match o with
  | some k => s.sess[k].seq.isSome || s.shotRuns k
  | none => false

/-- Does an armed capture take words of slice `n` (R42)? -/
def capUses (s : State) (n : Nat) : Bool :=
  (List.range 8).any (fun u => s.tgBusy u && bitOf (s.act F.TG_CAP_CAP_SLICES [u]) n)

/-- Does a sequence, a shot or a capture use the unit of a scope 2 to 5 (R42)? -/
def unitUsed (s : State) (scope t : Nat) : Bool :=
  s.unitBusy scope t || (match scope with
    | 2 => s.ownerRuns (s.ownerSlice t) || s.capUses t
    | 3 => s.ownerRuns (s.ownerFw t)
    | 4 => s.ownerRuns (s.ownerAo t)
    | _ => ((s.ownerTg t).map (fun k => s.shotRuns k && (s.sess[k].burst.map (fun b => bitOf b.tgMask t)).getD false)).getD false)

/-- Does a boot in progress hold off a commit of scope 0 or 1 (R475)? The boot's own commit is none of them. -/
def bootHolds (s : State) (v : Scope) (boot : Bool) : Bool :=
  !boot && decide (v.code ≤ 1) && s.get F.NVM_BOOT_STAT_BOOT_BUSY == 1

/-- Does a set of new values change only live-committable fields (R42)? -/
def liveOnly (s : State) (vals : List (Nat × Word)) : Bool :=
  vals.all (fun p => match regAt p.1 with
    | some (r, _) => ((s.activeK p.1 ^^^ p.2) &&& ~~~(BitVec.ofNat 32 r.row.live)) == 0
    | none => true)

/-- Is a commit pending on a unit the scope includes (R45)? -/
def pendIn (s : State) (v : Scope) : Bool :=
  s.commit.pends.any (fun p =>
    v.code == 0 || (v.code == 1 && s.pendOf (Fin.ofNat 16 v.target) p) || (v.code == p.scope && v.target == p.unit_))

/-- The owner of a unit of scope 2 to 5. -/
def scopeOwner (s : State) (scope t : Nat) : Option (Fin 16) :=
  match scope with
  | 2 => s.ownerSlice t
  | 3 => s.ownerFw t
  | 4 => s.ownerAo t
  | _ => s.ownerTg t

/-- The ownership field of the units of scope 2 to 5. -/
def scopeField (scope : Nat) : Fld :=
  match scope with
  | 2 => F.RM_OWN_UNITS_SLICES
  | 3 => F.RM_OWN_UNITS_FW
  | 4 => F.RM_OWN_IO_AO
  | _ => F.RM_OWN_UNITS_TG

/-- Did a session whose teardown is in progress own a unit or region of an ownership field when its teardown began (R360)? -/
def tornUnit (s : State) (f : Fld) (i : Nat) : Bool :=
  (List.finRange 16).any (fun k => s.sess[k].tearing && bitOf (bitsOf (smGet 0 s.sess[k].torn (f.reg.key [k])).toNat f.lsb f.width) i)

/-- Refusals with RESOURCE_BUSY that concern no field. `boot` is the commit of R477, which R475 lets pass. -/
def busyFails (s : State) (v : Scope) (vals : List (Nat × Word)) (boot : Bool) : List CFail :=
  let b := match v.code with
    | 0 => s.bootHolds v boot || (List.finRange 16).any (fun k => s.sessBusy k) ||
        (List.finRange 12).any (fun n => s.sliceBusy n) || (List.finRange 16).any (fun o => s.aoBusy o) ||
        (List.finRange 4).any (fun g => s.fwActive g) || (List.range 8).any (fun u => s.tgBusy u)
    | 1 => s.bootHolds v boot || s.sessBusy (Fin.ofNat 16 v.target)
    | 6 => false
    | 7 => s.portUp v.target && !s.liveOnly vals
    | c => (s.unitUsed c v.target && !s.liveOnly vals) ||
        ((s.scopeOwner c v.target).map (fun k => s.sess[k].tearing)).getD false || s.tornUnit (scopeField c) v.target
  failIf (b || s.pendIn v) (noField .resourceBusy)

/-! ### Time base, edge placement and pin channels -/

/-- TB_REF_CFG (R76). -/
def tbFails (c : State) : List CFail :=
  failIf (c.act F.TB_REF_CFG_FREQ == 3) (atField .commitRange F.TB_REF_CFG_FREQ []) ++
  failIf (c.act F.TB_REF_CFG_QUAL == 0) (atField .commitRange F.TB_REF_CFG_QUAL [])

/-- The level edges of R91, with their fields; none where the formatter has one edge or R87 removes the pulse. -/
def levelFields (x : LaneSet) : List (Nat × Fld) :=
  if 1 ≤ x.fmt ∧ x.fmt ≤ 4 ∧ x.tData < x.tRet then
    (if x.fmt = 3 then [(x.tOn, F.EP_TS_T_ON_TIME)] else []) ++
    [(x.tData, F.EP_TS_T_DATA_TIME), (max x.tRet (x.tData + 246), F.EP_TS_T_RET_TIME)]
  else []

/-- The faults of R91 for a lane of a timing set. -/
def spacingFails (x : LaneSet) (period : Nat) (ix : List Nat) : List CFail :=
  let es := levelFields x
  let first := es.foldl (fun a e => min a e.1) period
  let last := es.foldl (fun a e => max a e.1) 0
  let bad (e : Nat × Fld) : Bool :=
    let prev := (es.filter (fun p => decide (p.1 < e.1))).foldl (fun a p => max a (p.1 + 1)) 0
    (e.2 == F.EP_TS_T_RET_TIME && decide (period ≤ e.1)) ||
    (prev != 0 && decide (e.1 < prev - 1 + 246)) ||
    (e.1 == first && decide (period + first < last + 246))
  (es.filter bad).map (fun e => atField .commitConflict e.2 ix)

/-- Timing set `ts` of slice `n` (R79, R81, R91, R97). -/
def tsFails (c : State) (n ts : Nat) : List CFail :=
  let period := c.tsPeriod n ts
  let ords := [F.EP_TS_ORDER_ORD0, F.EP_TS_ORDER_ORD1, F.EP_TS_ORDER_ORD2, F.EP_TS_ORDER_ORD3, F.EP_TS_ORDER_ORD4]
  let ord (f : Fld) : Nat := c.act f [ts, n]
  failIf (decide (period < 512) || decide (2 ^ 48 < period)) (atField .commitRange F.EP_TS_PERIOD_LO_PERIOD [ts, n]) ++
  (ords.filter (fun f => decide (4 < ord f))).map (fun f => atField .commitRange f [ts, n]) ++
  (ords.filter (fun f => ords.any (fun e => decide (e.lsb < f.lsb) && ord e == ord f))).map (fun f => atField .commitConflict f [ts, n]) ++
  (List.range 8).flatMap (fun l =>
    let ix := [ts, n, l]
    failIf (c.act F.EP_TS_FMT_FMT ix == 7) (atField .commitRange F.EP_TS_FMT_FMT ix) ++
    ([F.EP_TS_T_ON_TIME, F.EP_TS_T_DATA_TIME, F.EP_TS_T_RET_TIME, F.EP_TS_T_STRB_TIME, F.EP_TS_T_CLOSE_TIME].filter
      (fun f => decide (period ≤ c.act f ix))).map (fun f => atField .commitRange f ix) ++
    spacingFails (c.laneSet n l ts) period ix)

/-- A lane's channel registers (R102, R103, R106, R107, R113). -/
def laneCfgFails (c : State) (n l : Nat) : List CFail :=
  let ix := [n, l]
  let mode := c.act F.CH_LANE_CFG_MODE ix
  let lo := c.act F.CH_LVL_VTH_LO ix
  let hi := c.act F.CH_LVL_VTH_HI ix
  let mv := classMv (c.act F.CH_SLICE_CFG_VIO_CLASS [n])
  let above := if mode = 1 then decide (hi < lo) else decide (signedOf hi 12 < signedOf lo 12)
  failIf (mode == 3) (atField .commitRange F.CH_LANE_CFG_MODE ix) ++
  failIf (decide (60 < c.act F.CH_LANE_CFG_SWING ix)) (atField .commitRange F.CH_LANE_CFG_SWING ix) ++
  failIf (c.act F.CH_LANE_CFG_ZOUT ix == 3) (atField .commitRange F.CH_LANE_CFG_ZOUT ix) ++
  failIf (mode == 1 && decide (mv < lo)) (atField .commitRange F.CH_LVL_VTH_LO ix) ++
  failIf (mode == 1 && decide (mv < hi)) (atField .commitRange F.CH_LVL_VTH_HI ix) ++
  failIf above (atField .commitConflict F.CH_LVL_VTH_LO ix) ++
  failIf (decide (2 < c.act F.CH_REFLEX_ALT ix)) (atField .commitRange F.CH_REFLEX_ALT ix)

/-- A slice's channel registers and pin map (R104, R110, R187, R206, R207). -/
def sliceFails (c : State) (n : Nat) : List CFail :=
  let badIndex (v : Nat) : Bool := decide (76 ≤ v) && decide (v ≤ 125)
  let badEntry (e : Nat) : Bool := bitsOf e 7 3 == 7 || badIndex (bitsOf e 0 7)
  failIf (decide (4 < c.act F.CH_SLICE_CFG_VIO_CLASS [n])) (atField .commitRange F.CH_SLICE_CFG_VIO_CLASS [n]) ++
  (List.range 4).flatMap (fun i =>
    failIf (c.act F.CH_DS_CFG_SRC [n, i] == 3) (atField .commitRange F.CH_DS_CFG_SRC [n, i]) ++
    failIf (badEntry (c.act F.FW_PMAP_LANE_EVEN [n, i])) (atField .commitRange F.FW_PMAP_LANE_EVEN [n, i]) ++
    failIf (badEntry (c.act F.FW_PMAP_LANE_ODD [n, i])) (atField .commitRange F.FW_PMAP_LANE_ODD [n, i])) ++
  (List.range 2).flatMap (fun i =>
    ([F.FW_PMRK_MRK0, F.FW_PMRK_MRK1, F.FW_PMRK_MRK2, F.FW_PMRK_MRK3].filter (fun f => badIndex (c.act f [n, i]))).map
      (fun f => atField .commitRange f [n, i])) ++
  (List.range 8).flatMap (c.laneCfgFails n) ++ (List.range 32).flatMap (c.tsFails n)

/-- Two slices on one bank with different classes (R104). -/
def bankFails (c : State) : List CFail :=
  let differs (n : Nat) : Bool :=
    match (List.range 12).find? (fun m => c.sliceBank m == c.sliceBank n) with
    | some m => c.act F.CH_SLICE_CFG_VIO_CLASS [m] != c.act F.CH_SLICE_CFG_VIO_CLASS [n]
    | none => false
  ((List.range 12).filter differs).map (fun n => atField .commitConflict F.CH_SLICE_CFG_VIO_CLASS [n])

/-! ### Furrow generators -/

/-- A generator (R212). -/
def fwFails (c : State) (v : Scope) (g : Fin 4) : List CFail :=
  let m := c.act F.FW_CFG_SLICES [g]
  let pc := c.act F.FW_CFG_PC0 [g]
  (match v.judge (c.ownerFw g) with
    | some k =>
      failIf ((List.range 12).any (fun n => bitOf m n && !c.ownsSlice k n)) (atField .resourceBusy F.FW_CFG_SLICES [g]) ++
      failIf (!c.ownsRegion k (pc / 1024)) (atField .commitRange F.FW_CFG_PC0 [g])
    | none => []) ++
  failIf ((List.finRange 4).any (fun (h : Fin 4) => decide (h ≠ g) && (m &&& c.act F.FW_CFG_SLICES [h]) != 0))
    (atField .commitConflict F.FW_CFG_SLICES [g]) ++
  [0, 3, 6].flatMap (fun i => failIf (decide (c.fwInit g (i + 2) < c.fwInit g i)) (atField .commitConflict F.FW_INIT_VALUE [g, i]))

/-! ### Paging and segment tables -/

/-- The highest unit of a mask, 0 when it is empty (R217). -/
def topBit (m n : Nat) : Nat := ((List.range n).filter (fun i => bitOf m i)).foldl max 0

/-- Number of set bits among the first `n`. -/
def bitCount (m n : Nat) : Nat := ((List.range n).filter (fun i => bitOf m i)).length

/-- A session's paging registers (R223, R225, R240). -/
def vsFails (c : State) (k : Fin 16) : List CFail :=
  let view := c.viewSize k
  let pt := c.act F.VS_PT_BASE_BASE [k] * 2 ^ 19
  let pages := c.act F.VS_PC_PAGES [k]
  let base := c.act F.VS_PC_BASE_BASE [k] * 65536
  let dist := c.act F.VS_PF_DIST [k]
  let to_ := c.act F.VS_PF_FILL_TO [k]
  let units := bitCount (c.act F.RM_OWN_UNITS_SLICES [k]) 12 + bitCount (c.act F.RM_OWN_IO_AO [k]) 16
  failIf (view != 0 && decide (view < pt + 2 ^ 19)) (atField .commitRange F.VS_PT_BASE_BASE [k]) ++
  failIf (c.act F.VS_PLANE_STRIDE [k] == 0) (atField .commitRange F.VS_PLANE_STRIDE [k]) ++
  failIf (dist == 0 || decide (64 < dist)) (atField .commitRange F.VS_PF_DIST [k]) ++
  failIf (to_ == 0 || decide (1000 < to_)) (atField .commitRange F.VS_PF_FILL_TO [k]) ++
  failIf (pages != 0 && decide (view < base + pages * 65536)) (atField .resourceBusy F.VS_PC_PAGES [k]) ++
  failIf (pages != 0 && view != 0 && decide (base < pt + 2 ^ 19) && decide (pt < base + pages * 65536))
    (atField .commitConflict F.VS_PC_BASE_BASE [k]) ++
  failIf (pages != 0 && decide (pages < (dist + 1) * units)) (atField .commitConflict F.VS_PC_PAGES [k])

/-- One entry of a session's segment table (R168, R217). -/
def segFails (c : State) (k : Fin 16) (i e : Nat) : List CFail :=
  let d := segOf e i k
  let kind := bitsOf e 0 3
  let tab := c.sess[k].segActive
  let n := if kind = 1 then topBit (c.act F.RM_OWN_UNITS_SLICES [k]) 12 else topBit (c.act F.RM_OWN_IO_AO [k]) 16
  let badSh (cls : Nat) : Option Nat → List CFail
    | none => []
    | some j =>
      let x := smGet 0 tab j
      let xk := bitsOf x 0 3
      failIf (xk == 0 || ((xk == 3) != (kind == 3)) || (kind == 2 && xk == 2 && (segOf x j k).fw == d.fw)) (atSeg .commitConflict k i cls 0)
  if kind = 0 then []
  else
    failIf (kind == 2 && !c.ownsFw k d.fw) (atSeg .resourceBusy k i 0xD0 26) ++
    failIf (decide (3 < kind)) (atSeg .commitRange k i 0xD0 0) ++
    failIf (decide (3 < bitsOf e 3 3)) (atSeg .commitRange k i 0xD0 3) ++
    failIf (decide (32 ≤ d.ts) && decide (d.ts ≤ 62)) (atSeg .commitRange k i 0xD0 8) ++
    failIf (decide (16 ≤ d.jsrcA) && d.jsrcA != 31) (atSeg .commitRange k i 0xD0 16) ++
    failIf (decide (16 ≤ d.jsrcB) && d.jsrcB != 31) (atSeg .commitRange k i 0xD0 21) ++
    failIf (decide (d.length < 64)) (atSeg .commitRange k i 0xD1 0) ++
    failIf ((kind == 1 || kind == 3) &&
      (d.va % 64 != 0 || decide (2 ^ 48 < d.va + n * c.act F.VS_PLANE_STRIDE [k] * 65536 + d.length * 4))) (atSeg .commitRange k i 0xD7 0) ++
    failIf (kind == 3 && d.ts != 63) (atSeg .commitConflict k i 0xD0 8) ++
    failIf (d.jsrcA == d.jsrcB && d.jsrcA != 31) (atSeg .commitConflict k i 0xD0 21) ++
    badSh 0xD4 d.shA ++ badSh 0xD5 d.shB

/-- Every entry of a session's table. -/
def tableFails (c : State) (k : Fin 16) : List CFail := c.sess[k].segActive.flatMap (fun p => c.segFails k p.1 p.2)

/-! ### Trigger units, the Gleaner, time measurement and histograms -/

/-- A trigger unit (R253). -/
def tgFails (c : State) (v : Scope) (u : Nat) : List CFail :=
  let mode := c.act F.TG_CFG_MODE [u]
  let caps := c.act F.TG_CAP_CAP_SLICES [u]
  let block := 64 + (c.act F.TG_PRE_SLOTS [u] + c.act F.TG_POST_SLOTS [u]) * bitCount caps 12 * 4
  failIf (decide (4 < mode)) (atField .commitRange F.TG_CFG_MODE [u]) ++
  failIf (c.act F.TG_CFG_EDGE_A [u] == 3) (atField .commitRange F.TG_CFG_EDGE_A [u]) ++
  failIf (c.act F.TG_CFG_EDGE_B [u] == 3) (atField .commitRange F.TG_CFG_EDGE_B [u]) ++
  failIf (decide (248 < c.act F.TG_SRC_PBASE [u])) (atField .commitRange F.TG_SRC_PBASE [u]) ++
  failIf (c.act F.TG_CAP_DIV [u] == 0) (atField .commitRange F.TG_CAP_DIV [u]) ++
  failIf (mode == 3 && c.act F.TG_COUNT_COUNT [u] == 0) (atField .commitRange F.TG_COUNT_COUNT [u]) ++
  failIf (mode == 4 && decide (c.act F.TG_WIN_WIN_CLOSE [u] < c.act F.TG_WIN_WIN_OPEN [u])) (atField .commitConflict F.TG_WIN_WIN_CLOSE [u]) ++
  (match v.judge (c.ownerTg u) with
    | some k =>
      let size := c.act F.GL_RGN_SIZE_SIZE [k, 1]
      failIf ((List.range 12).any (fun n => bitOf caps n && !c.ownsSlice k n)) (atField .resourceBusy F.TG_CAP_CAP_SLICES [u]) ++
      failIf (caps != 0 && size != 0 && decide (size < (block + 63) / 64)) (atField .commitConflict F.TG_PRE_SLOTS [u])
    | none => [])

/-- A session's Gleaner regions (R268). -/
def rgnFails (c : State) (k : Fin 16) : List CFail :=
  let view := c.viewSize k
  let span (r : Nat) : Nat × Nat := (c.act F.GL_RGN_BASE_BASE [k, r] * 64, c.act F.GL_RGN_SIZE_SIZE [k, r] * 64)
  let pages := c.act F.VS_PC_PAGES [k]
  let fixed := (if view = 0 then [] else [(c.act F.VS_PT_BASE_BASE [k] * 2 ^ 19, 2 ^ 19)]) ++
    (if pages = 0 then [] else [(c.act F.VS_PC_BASE_BASE [k] * 65536, pages * 65536)])
  let hits (a b : Nat × Nat) : Bool := a.2 != 0 && b.2 != 0 && decide (a.1 < b.1 + b.2) && decide (b.1 < a.1 + a.2)
  (List.range 3).flatMap (fun r =>
    let a := span r
    failIf (a.2 != 0 && decide (view ≤ a.1)) (atField .commitRange F.GL_RGN_BASE_BASE [k, r]) ++
    failIf (a.2 != 0 && decide (a.1 < view) && decide (view < a.1 + a.2)) (atField .commitRange F.GL_RGN_SIZE_SIZE [k, r]) ++
    failIf (fixed.any (hits a) || (List.range r).any (fun q => hits a (span q))) (atField .commitConflict F.GL_RGN_BASE_BASE [k, r]))

/-- Is an input enabled to stamp every direction of an edge select (R292)? -/
def stampsFor (c : State) (i sel : Nat) : Bool :=
  c.act F.TM_IN_CFG_STAMP_EN [i] == 1 && (c.act F.TM_IN_CFG_EDGE [i] == 2 || c.act F.TM_IN_CFG_EDGE [i] == sel)

/-- A mask test (R268, R292). VMAX = 0 with STOP = 2 is refused whatever EN is, as R268 has it; R493 lists it for an enabled test (DESIGN CHOICE, log 73). -/
def mtFails (c : State) (v : Scope) (m : Nat) : List CFail :=
  let en := c.act F.GL_MT_CFG_EN [m] == 1
  let stop := c.act F.GL_MT_CFG_STOP [m]
  let side (fi fe : Fld) : List CFail :=
    let i := c.act fi [m]
    failIf (en && c.act fe [m] == 3) (atField .commitRange fe [m]) ++
    failIf (decide (111 < i)) (atField .commitRange fi [m]) ++
    (match v.judge (c.ownerMt m) with
      | some k => failIf (decide (i ≤ 111) && c.ownerInput i != some k) (atField .resourceBusy fi [m])
      | none => []) ++
    failIf (en && decide (i ≤ 111) && c.act F.TM_IN_CFG_STAMP_EN [i] == 0) (atField .commitConflict fi [m]) ++
    failIf (en && decide (i ≤ 111) && c.act F.TM_IN_CFG_STAMP_EN [i] == 1 && !c.stampsFor i (c.act fe [m])) (atField .commitConflict fe [m])
  side F.GL_MT_CFG_IN_A F.GL_MT_CFG_EDGE_A ++ side F.GL_MT_CFG_IN_B F.GL_MT_CFG_EDGE_B ++
  failIf (en && stop == 3) (atField .commitRange F.GL_MT_CFG_STOP [m]) ++
  failIf (stop == 2 && c.act F.GL_MT_VMAX_VMAX [m] == 0) (atField .commitRange F.GL_MT_VMAX_VMAX [m])

/-- A time-measurement input (R292). -/
def inputFails (c : State) (v : Scope) (i : Nat) : List CFail :=
  failIf (c.act F.TM_IN_CFG_EDGE [i] == 3) (atField .commitRange F.TM_IN_CFG_EDGE [i]) ++
  failIf (c.act F.TM_IN_CFG_STORE [i] == 3) (atField .commitRange F.TM_IN_CFG_STORE [i]) ++
  (match v.judge (c.ownerInput i) with
    | some k => failIf (c.act F.TM_IN_CFG_STAMP_EN [i] == 1 && c.ownerInput i != some k) (atField .resourceBusy F.TM_IN_CFG_STAMP_EN [i])
    | none => [])

/-- A measurement unit (R292). -/
def muFails (c : State) (v : Scope) (u : Nat) : List CFail :=
  let en := c.act F.TM_MU_CFG_EN [u] == 1
  let mode := c.act F.TM_MU_CFG_MODE [u]
  let a := c.act F.TM_MU_CFG_IN_A [u]
  let b := c.act F.TM_MU_CFG_IN_B [u]
  let ea := c.act F.TM_MU_CFG_EDGE_A [u]
  let eb := c.act F.TM_MU_CFG_EDGE_B [u]
  let two := decide (mode ≤ 1)
  failIf (decide (4 < mode)) (atField .commitRange F.TM_MU_CFG_MODE [u]) ++
  failIf (ea == 3 || (mode == 3 && ea == 2)) (atField .commitRange F.TM_MU_CFG_EDGE_A [u]) ++
  failIf (eb == 3) (atField .commitRange F.TM_MU_CFG_EDGE_B [u]) ++
  failIf (decide (111 < a)) (atField .commitRange F.TM_MU_CFG_IN_A [u]) ++
  failIf (decide (111 < b)) (atField .commitRange F.TM_MU_CFG_IN_B [u]) ++
  failIf (decide (mode ≤ 3) && c.act F.TM_MU_AVG_AVG [u] == 0) (atField .commitRange F.TM_MU_AVG_AVG [u]) ++
  (match v.judge (c.ownerMu u) with
    | some k =>
      failIf (en && !c.ownsMu k u) (atField .resourceBusy F.TM_MU_CFG_EN [u]) ++
      failIf (en && decide (a ≤ 111) && c.ownerInput a != some k) (atField .resourceBusy F.TM_MU_CFG_IN_A [u]) ++
      failIf (en && two && decide (b ≤ 111) && c.ownerInput b != some k) (atField .resourceBusy F.TM_MU_CFG_IN_B [u])
    | none => []) ++
  failIf (en && decide (a ≤ 111) && !c.stampsFor a (if mode = 3 then 2 else ea)) (atField .commitConflict F.TM_MU_CFG_EDGE_A [u]) ++
  failIf (en && two && decide (b ≤ 111) && !c.stampsFor b eb) (atField .commitConflict F.TM_MU_CFG_EDGE_B [u]) ++
  failIf (en && two && a == b && (ea == eb || ea == 2 || eb == 2)) (atField .commitConflict F.TM_MU_CFG_EDGE_A [u])

/-- A histogram (R377). -/
def histFails (c : State) (k : Fin 16) (h : Nat) : List CFail :=
  let bins := c.act F.RM_HIST_CFG_BINS [k, h]
  if c.act F.RM_HIST_CFG_EN [k, h] = 1 then
    failIf (bins == 0 || decide (1024 < bins)) (atField .commitRange F.RM_HIST_CFG_BINS [k, h]) ++
    failIf (!c.ownsMu k (c.act F.RM_HIST_CFG_MU [k, h])) (atField .resourceBusy F.RM_HIST_CFG_MU [k, h])
  else []

/-! ### Analogue outputs, Tabolyar ports and Sedge cells -/

/-- An output (R295, R297, R298, R300, R302, R305). -/
def aoFails (c : State) (o : Nat) : List CFail :=
  let per := c.act F.AO_SPER_PERIOD [o]
  let tb := c.act F.AO_NCO_TBITS [o]
  let en := c.act F.AO_SLEW_EN [o] == 1
  failIf (decide (5 < c.act F.AO_CFG_SPAN [o])) (atField .commitRange F.AO_CFG_SPAN [o]) ++
  failIf (c.act F.AO_CFG_SRC [o] == 3) (atField .commitRange F.AO_CFG_SRC [o]) ++
  failIf (c.act F.AO_CFG_INTERP [o] == 3) (atField .commitRange F.AO_CFG_INTERP [o]) ++
  failIf (decide (per < 65536) || decide (1638400000 < per)) (atField .commitRange F.AO_SPER_PERIOD [o]) ++
  failIf (decide (0x019999999999 < c.act F.AO_FTW_LO_FTW [o] + c.act F.AO_FTW_HI_FTW [o] * 2 ^ 32)) (atField .commitRange F.AO_FTW_LO_FTW [o]) ++
  failIf (decide (tb < 4) || decide (14 < tb)) (atField .commitRange F.AO_NCO_TBITS [o]) ++
  failIf (en && c.act F.AO_SLEW_STEP [o] == 0) (atField .commitRange F.AO_SLEW_STEP [o]) ++
  failIf (en && c.act F.AO_SLEW_RATE_DIV [o] == 0) (atField .commitRange F.AO_SLEW_RATE_DIV [o])

/-- A Tabolyar port (R450, R453). -/
def portFails (c : State) (p : Nat) : List CFail :=
  failIf (c.act F.TL_PORT_CFG_MODE [p] == 3) (atField .commitRange F.TL_PORT_CFG_MODE [p]) ++
  failIf (c.act F.TL_PORT_CFG_MODE [p] == 2 && c.get F.TL_ROLE_ROLE != 0) (atField .commitConflict F.TL_PORT_CFG_MODE [p])

/-- EDGE without the flip-flop (R329). -/
def cellFails (c : State) (i : Nat) : List CFail :=
  failIf (c.act F.HR_SC_CFG_EDGE [i] != 0 && c.act F.HR_SC_CFG_FF [i] == 0) (atField .commitConflict F.HR_SC_CFG_EDGE [i])

/-! ### Events of other owners (R321) -/

/-- The selects a trigger unit uses in its committed mode, with their events (R334). -/
def tgUses (c : State) (u : Nat) : List (Fld × Nat) :=
  let mode := c.act F.TG_CFG_MODE [u]
  [(F.TG_SRC_SRC_A, c.act F.TG_SRC_SRC_A [u])] ++
  (if mode = 4 then [(F.TG_SRC_SRC_B, c.act F.TG_SRC_SRC_B [u])] else []) ++
  (if mode = 2 then ((List.range 8).filter (fun i => bitOf (c.act F.TG_PAT_PMASK [u]) i)).map
    (fun i => (F.TG_SRC_PBASE, (c.act F.TG_SRC_PBASE [u] + i) % 256)) else []) ++
  (if c.act F.TG_CFG_ARM_EV_EN [u] = 1 then [(F.TG_SRC_ARM_EV, c.act F.TG_SRC_ARM_EV [u])] else [])

/-- May a session name an event (R321)? -/
def mayName (c : State) (k : Fin 16) (ev : Nat) : Bool :=
  if ev < 96 then c.ownsSlice k (ev / 8)
  else if 208 ≤ ev ∧ ev < 232 then c.ownsTg k ((ev - 208) % 8)
  else if 232 ≤ ev ∧ ev < 248 then c.ownsAo k (ev - 232)
  else true

/-- Condition inputs and ring entries of a session. -/
def sessEventFails (c : State) (k : Fin 16) : List CFail :=
  (List.range 32).flatMap (fun i =>
    failIf (bitOf (c.act F.HR_HC_EN_EN [k]) i && !c.mayName k (bitsOf (c.act F.HR_HC_SRC_SRC [k, i / 4]) (8 * (i % 4)) 8))
      (atField .resourceBusy F.HR_HC_SRC_SRC [k, i / 4])) ++
  (List.range 256).flatMap (fun ev =>
    failIf (bitOf (c.act F.HR_RING_EN_EN [k, ev / 32]) (ev % 32) && !c.mayName k ev) (atField .resourceBusy F.HR_RING_EN_EN [k, ev / 32]))

/-- Sources of a trigger unit. -/
def tgEventFails (c : State) (v : Scope) (u : Nat) : List CFail :=
  match v.judge (c.ownerTg u) with
  | some k => ((c.tgUses u).filter (fun p => !c.mayName k p.2)).map (fun p => atField .resourceBusy p.1 [u])
  | none => []

/-- Gate of a measurement unit. -/
def muEventFails (c : State) (v : Scope) (u : Nat) : List CFail :=
  match v.judge (c.ownerMu u) with
  | some k =>
    failIf (c.act F.TM_MU_CFG_EN [u] == 1 && c.act F.TM_MU_GATE_ALWAYS [u] == 0 && !c.mayName k (c.act F.TM_MU_GATE_GATE_EV [u]))
      (atField .resourceBusy F.TM_MU_GATE_GATE_EV [u])
  | none => []

/-! ### The loop check (R43, R334, R335) -/

/-- An edge of the event graph: from, to, its kind of R334, and the select field that forms it. -/
structure LoopEdge where
  src : Nat
  dst : Nat
  kind : Nat
  fail : CFail

/-- Outputs of slice `n` that enable the crossing of one of its lanes. -/
def crossOuts (c : State) (n l : Nat) : List Nat :=
  ((List.range 8).filter (fun k => bitOf (c.act F.HR_SLM_EN [n, k]) l)).map (fun k => 8 * n + k)

/-- The event graph of R334. -/
def loopEdges (c : State) : List LoopEdge :=
  let ins := [F.HR_SC_IN_IN0, F.HR_SC_IN_IN1, F.HR_SC_IN_IN2, F.HR_SC_IN_IN3]
  (List.range 64).flatMap (fun i =>
    (ins.filter (fun f => bitOf (c.act F.HR_SC_CFG_INEN [i]) (f.lsb / 8))).map
      (fun f => ⟨c.act f [i], 112 + i, 1, atField .commitLoop f [i]⟩)) ++
  (List.range 8).flatMap (fun u => (c.tgUses u).flatMap (fun p =>
    [208 + u, 216 + u, 224 + u].map (fun d => ⟨p.2, d, 2, atField .commitLoop p.1 [u]⟩))) ++
  (List.range 12).flatMap (fun n => (List.range 8).flatMap (fun l =>
    if c.act F.CH_REFLEX_EN [n, l] = 1 then
      (c.crossOuts n l).map (fun d => ⟨112 + c.act F.CH_REFLEX_CELL [n, l], d, 3, atField .commitLoop F.CH_REFLEX_CELL [n, l]⟩)
    else [])) ++
  (List.range 16).flatMap (fun g =>
    if c.act F.HR_CG_CTL_EN [g] = 1 then
      (List.range 96).flatMap (fun ch =>
        if bitOf (c.act F.HR_CG_MASK_CH [g, ch / 32]) (ch % 32) then
          (c.crossOuts (ch / 8) (ch % 8)).flatMap (fun d =>
            [F.HR_CG_CTL_ON_EV, F.HR_CG_CTL_OFF_EV].map (fun f => ⟨c.act f [g], d, 4, atField .commitLoop f [g]⟩))
        else [])
    else [])

/-- Events reached from `a`, itself included, by at most `n` edges. -/
def reach (es : List LoopEdge) (a : Nat) : Nat → List Nat
  | 0 => [a]
  | n + 1 =>
    let l := reach es a n
    es.foldl (fun l e => if l.contains e.src && !l.contains e.dst then e.dst :: l else l) l

/-- A cell with PERMIT and FF, and one that is combinational. -/
def cellPermits (c : State) (ev : Nat) : Bool :=
  decide (112 ≤ ev) && decide (ev < 176) && c.act F.HR_SC_CFG_PERMIT [ev - 112] == 1 && c.act F.HR_SC_CFG_FF [ev - 112] == 1

def cellComb (c : State) (ev : Nat) : Bool :=
  decide (112 ≤ ev) && decide (ev < 176) && c.act F.HR_SC_CFG_FILT [ev - 112] == 0 && c.act F.HR_SC_CFG_FF [ev - 112] == 0

/-- The cycles through event `x` that go on from event `a` and meet no event of `seen` again, each by its edges; at most `n` edges. -/
def cyclesTo (es : List LoopEdge) (x : Nat) : Nat → Nat → List Nat → List (List LoopEdge)
  | 0, _, _ => []
  | n + 1, a, seen => (es.filter (fun e => e.src == a)).flatMap (fun e =>
      if e.dst = x then [[e]]
      else if seen.contains e.dst then []
      else (cyclesTo es x n e.dst (e.dst :: seen)).map (fun p => e :: p))

/-- Does a cycle fail the checks of R335? -/
def cycleFails (c : State) (p : List LoopEdge) : Bool :=
  !p.any (fun e => c.cellPermits e.src) ||
  p.any (fun e => e.kind == 3 || e.kind == 4 || (e.kind == 1 && c.cellComb e.src && c.cellComb e.dst))

/-- The edges into event `x` that lie on a failing cycle, which runs only through events that reach `x` and that `x` reaches. -/
def failingInto (c : State) (es : List LoopEdge) (x : Nat) : List LoopEdge :=
  if es.any (fun e => e.src == x) && es.any (fun e => e.dst == x) then
    let out := reach es x 256
    let back := reach (es.map (fun e => { e with src := e.dst, dst := e.src })) x 256
    let on := es.filter (fun e => out.contains e.src && back.contains e.dst)
    ((cyclesTo on x 257 x []).filter c.cycleFails).filterMap (fun p => p.getLast?)
  else []

/-- The refusal of R335: the lowest event on any failing cycle. -/
def loopFails (c : State) : List CFail :=
  let es := c.loopEdges
  match (List.range 256).find? (fun x => !(c.failingInto es x).isEmpty) with
  | some x => (c.failingInto es x).map (·.fail)
  | none => []

/-! ### Ownership (R163 error 0x07, R356) -/

/-- The ownership fields and their widths. -/
def ownFields : List Fld :=
  [F.RM_OWN_UNITS_SLICES, F.RM_OWN_UNITS_FW, F.RM_OWN_UNITS_TG, F.RM_OWN_IO_AO, F.RM_OWN_IO_TRIGIN, F.RM_OWN_MEAS_MU, F.RM_OWN_MEAS_MT,
   F.RM_OWN_CS_REGIONS]

/-- R356 for a commit that makes ownership active. -/
def ownFails (c : State) (v : Scope) : List CFail :=
  let inst := c.get F.RM_MEM_INST_MIB
  let st := if v.code = 1 then Status.resourceBusy else Status.commitConflict
  let pairs := (List.range 16).flatMap (fun j => (List.range j).map (fun i => (i, j)))
  let seen (p : Nat × Nat) : Bool := v.code == 0 || v.target == p.1 || v.target == p.2
  let ded := (List.range 16).filter (fun k => c.act F.RM_SESS_CFG_DEDICATED [k] == 1)
  (pairs.filter seen).flatMap (fun p =>
    (ownFields.filter (fun f => (c.act f [p.1] &&& c.act f [p.2]) != 0)).map (fun f => atField st f [p.2]) ++
    failIf (c.act F.RM_MEM_SIZE_SIZE [p.1] != 0 && c.act F.RM_MEM_SIZE_SIZE [p.2] != 0 &&
      decide (c.act F.RM_MEM_BASE_BASE [p.1] < c.act F.RM_MEM_BASE_BASE [p.2] + c.act F.RM_MEM_SIZE_SIZE [p.2]) &&
      decide (c.act F.RM_MEM_BASE_BASE [p.2] < c.act F.RM_MEM_BASE_BASE [p.1] + c.act F.RM_MEM_SIZE_SIZE [p.1]))
      (atField .commitConflict F.RM_MEM_BASE_BASE [p.2])) ++
  ((List.range 16).filter (fun k => v.sess k)).flatMap (fun k =>
    let size := c.act F.RM_MEM_SIZE_SIZE [k]
    failIf (decide (65536 < size) || decide (inst < c.act F.RM_MEM_BASE_BASE [k] + size)) (atField .commitRange F.RM_MEM_SIZE_SIZE [k])) ++
  failIf (decide (3 < ded.length)) (atField .commitConflict F.RM_SESS_CFG_DEDICATED [ded.getD 3 0])

/-- Units that a commit of scope 1 adds to its session's and that are in use, or that a session whose teardown is in progress had (R356, R360); those it
removes are judged with the session's own (R42). -/
def addedFails (s c : State) (v : Scope) : List CFail :=
  let k : Fin 16 := Fin.ofNat 16 v.target
  let busy (f : Fld) (i : Nat) : Bool := s.tornUnit f i ||
    (f == F.RM_OWN_UNITS_SLICES && s.sliceBusy (Fin.ofNat 12 i)) || (f == F.RM_OWN_UNITS_FW && s.fwActive (Fin.ofNat 4 i)) ||
    (f == F.RM_OWN_IO_AO && s.aoBusy (Fin.ofNat 16 i)) || (f == F.RM_OWN_UNITS_TG && s.tgBusy i)
  (ownFields.filter (fun f => (List.range f.width).any (fun i => bitOf (c.act f [k]) i && !bitOf (s.act f [k]) i && busy f i))).map
    (fun f => atField .resourceBusy f [k])

/-- The ownership field that leaves out a unit a microword names, in bit order (R163, error 0x07). -/
def mwUnowned (c : State) (k : Fin 16) (w : Nat) : Option Fld :=
  let out (f : Fld) (m : Nat) : Bool := (m &&& c.act f [k]) != m
  if out F.RM_OWN_UNITS_SLICES (mwSlices w) then some F.RM_OWN_UNITS_SLICES
  else if out F.RM_OWN_IO_AO (mwOutputs w) then some F.RM_OWN_IO_AO
  else if out F.RM_OWN_UNITS_FW (mwFwMask w) then some F.RM_OWN_UNITS_FW
  else none

/-- Words in ascending address. -/
def sortWords (l : List (Nat × CsWord)) : List (Nat × CsWord) := l.mergeSort (fun a b => decide (a.1 ≤ b.1))

/-- Load error 0x07 over a session's microwords. -/
def unitFails (c : State) (k : Fin 16) : List CFail :=
  let ws := sortWords (c.cs.words.filter (fun p => p.2.kind == 1 && c.ownsRegion k (p.1 / 1024)))
  match ws.findSome? (fun p => c.mwUnowned k p.2.bits) with
  | some f => [atField .resourceBusy f [k]]
  | none => []

/-! ### All checks -/

/-- Every failure of a commit but the pinning of R231 and the loops of R335: `s` is the device before it and `c` as it would stand after it, whose
ownership says what it covers (R356). -/
def fieldFails (s c : State) (v : Scope) (vals : List (Nat × Word)) (boot : Bool) : List CFail :=
  s.busyFails v vals boot ++
  (if v.code = 0 then c.tbFails else []) ++
  (if v.code = 0 ∨ (v.code = 1 ∧ v.byPf) then c.ownFails v else []) ++
  (if v.code = 1 ∧ v.byPf then s.addedFails c v else []) ++
  (List.finRange 16).flatMap (fun (k : Fin 16) => if v.sess k then
    c.unitFails k ++ c.vsFails k ++ c.tableFails k ++ c.rgnFails k ++ (List.range 4).flatMap (c.histFails k) ++ c.sessEventFails k else []) ++
  (List.range 12).flatMap (fun n => if c.covSlice v n then c.sliceFails n else []) ++
  (if (List.range 12).any (c.covSlice v) then c.bankFails else []) ++
  (List.finRange 4).flatMap (fun (g : Fin 4) => if c.covFw v g then c.fwFails v g else []) ++
  (List.range 16).flatMap (fun o => if c.covAo v o then c.aoFails o else []) ++
  (List.range 8).flatMap (fun u => if c.covTg v u then c.tgFails v u ++ c.tgEventFails v u else []) ++
  (List.range 112).flatMap (fun i => if c.covInput v i then c.inputFails v i else []) ++
  (List.range 16).flatMap (fun u => if c.covMu v u then c.muFails v u ++ c.muEventFails v u else []) ++
  (List.range 16).flatMap (fun m => if c.covMt v m then c.mtFails v m else []) ++
  (if v.code = 0 ∨ v.code = 6 then (List.range 64).flatMap c.cellFails else []) ++
  (List.range 4).flatMap (fun p => if v.code = 0 ∨ (v.code = 7 ∧ v.target = p) then c.portFails p else [])

/-- Every failure of a commit but the pinning of R231. -/
def commitFails (s c : State) (v : Scope) (vals : List (Nat × Word)) (boot : Bool) : List CFail :=
  s.fieldFails c v vals boot ++ (if v.code = 3 ∨ v.code = 7 then [] else c.loopFails)

end State

end Sys2Proof.Machine
end

