-- ==== Sys2Proof/Machine/Commit.lean ====
section
/-! DEFINITION. The commit engine (R38–R46, R230–R232, R489): starting a commit, refusing it, pinning loop bodies, the copy step and its report. -/

namespace Sys2Proof.Machine

namespace State

/-! ### Loop-cache pinning (R230–R232) -/

/-- 256-byte units that `m` vectors take in the loop cache (R240). -/
def pinUnits (m : Nat) : Nat := (4 * m + 255) / 256

/-- Pages that the first `m` vectors of an entry's plane on slice `n` touch. -/
def planePages (c : State) (n : Fin 12) (d : Seg) (m : Nat) : List Nat :=
  let a := c.vecVa (.slice n) d 0 / 65536
  let z := c.vecVa (.slice n) d (m - 1) / 65536
  (List.range (z + 1 - a)).map (a + ·)

/-- Are the first `m` vectors of an entry's plane mapped (R230)? -/
def planeMapped (c : State) (k : Fin 16) (n : Fin 12) (d : Seg) (m : Nat) : Bool :=
  (c.planePages n d m).all (fun p => (c.walkAny k p).isRight)

/-- Entries of a session's active table in ascending order. -/
def segList (c : State) (k : Fin 16) : List Seg := c.sess[k].segActive.map (fun p => segOf p.2 p.1 k)

/-- Is an entry a loop body (R230)? -/
def loopBody (d : Seg) : Bool := d.kind == 1 && decide (d.length ≤ 524288) && (decide (2 ≤ d.loops) || d.endAct == 3)

/-- The loop bodies to pin on slice `n`. -/
def pinBodies (c : State) (k : Fin 16) (n : Fin 12) : List Seg :=
  (c.segList k).filter (fun d => loopBody d && c.planeMapped k n d d.length)

/-- The first of the bodies that does not fit in the 2 MiB of a loop cache, 524,288 vectors, of which `used` are taken (R230, R231). -/
def pinOver : List Seg → Nat → Option Seg
  | [], _ => none
  | d :: t, used => if 524288 < used + d.length then some d else pinOver t (used + d.length)

/-- The shadow heads to pin on slice `n`: logic-vector entries that some entry names as a shadow and that are not pinned bodies. -/
def pinHeads (c : State) (k : Fin 16) (n : Fin 12) : List Seg :=
  let all := c.segList k
  let bodies := c.pinBodies k n
  all.filter (fun d => d.kind == 1 && all.any (fun x => x.kind != 0 && (x.shA == some d.idx || x.shB == some d.idx)) &&
    !bodies.any (fun b => b.idx == d.idx) && c.planeMapped k n d 64)

/-- Slices that a commit pins for session `k`: those the session owns (R230). -/
def pinSlices (c : State) (k : Fin 16) : List (Fin 12) := (List.finRange 12).filter (fun n => c.ownsSlice k n)

/-- The failure of R231, judged when every check of R168 and R217 has passed. -/
def pinFails (c : State) (v : Scope) : List CFail :=
  if 1 < v.code || (List.finRange 16).any (fun (k : Fin 16) => v.sess k && !(c.tableFails k).isEmpty) then []
  else (List.finRange 16).flatMap (fun (k : Fin 16) => if v.sess k then
    (c.pinSlices k).flatMap (fun n => match pinOver (c.pinBodies k n) 0 with
      | some d => [atSeg .commitConflict k d.idx 0xD1 0]
      | none => []) else [])

/-- Does a commit pin anything? -/
def pinsAny (c : State) (v : Scope) : Bool :=
  (List.finRange 16).any (fun (k : Fin 16) => v.sess k &&
    (c.pinSlices k).any (fun n => !(c.pinBodies k n).isEmpty || !(c.pinHeads k n).isEmpty))

/-- A vector's value as pinning reads it: from field DDR4, or from the host pages read, by bus address; none on a page that fails under R222 (R232). -/
def pinWord (c : State) (k : Fin 16) (pages : List (Nat × List Byte)) (va : Nat) : Option Nat :=
  match c.walk k (va / 65536) with
  | .inr (0, base) => some (leVal (memBytes c.ddr (c.viewPhys k (base + va % 65536)) 4))
  | .inr (_, bus) => (pages.find? (fun p => p.1 == bus)).map (fun p => fieldAt p.2 (va % 65536) 4)
  | .inl _ => none

/-- The pinned copy of an entry's first `m` vectors, none when a page of it fails. -/
def pinData (c : State) (k : Fin 16) (n : Fin 12) (d : Seg) (m : Nat) (pages : List (Nat × List Byte)) : Option (List Nat) :=
  (List.range m).mapM (fun i => c.pinWord k pages (c.vecVa (.slice n) d i))

/-- The shadow heads that fit beside `used` vectors, and the number that do not. -/
def pinFit : List Seg → Nat → List Seg × Nat
  | [], _ => ([], 0)
  | d :: t, used =>
    if 524288 < used + 64 then let r := pinFit t used; (r.1, r.2 + 1)
    else let r := pinFit t (used + 64); (d :: r.1, r.2)

/-- The read of field DDR4 behind the pinned copy of an entry, judged at its first vector; `true` says that it is uncorrectable (R457). -/
def pinReadAt (s c : State) (k : Fin 16) (va : Nat) (w : Nat ⊕ (Nat × Nat)) : State × Bool :=
  match w with
  | .inr (0, base) => s.ddrRead (c.viewPhys k (base + va % 65536)) 0
  | _ => (s, false)

/-- The same at the virtual address of the entry's first vector. -/
def pinRead (s c : State) (k : Fin 16) (n : Fin 12) (d : Seg) : State × Bool :=
  s.pinReadAt c k (c.vecVa (.slice n) d 0) (c.walk k (c.vecVa (.slice n) d 0 / 65536))

/-- What is pinned once an entry's read is judged, and what its body is. -/
def pinJoin (pinned : List (Nat × List Nat)) (idx : Nat) (r : State × Bool) (x : Option (List Nat)) : State × List (Nat × List Nat) :=
  match r.2, x with
  | false, some x => (r.1, pinned ++ [(idx, x)])
  | _, _ => (r.1, pinned)

/-- Pin one entry's first `m` vectors, unless a page of it failed; `acc` is the state and what is pinned so far. -/
def pinEntry (c : State) (k : Fin 16) (n : Fin 12) (pages : List (Nat × List Byte)) (failed : List (Nat × Nat))
    (acc : State × List (Nat × List Nat)) (d : Seg) (m : Nat) : State × List (Nat × List Nat) :=
  if failed.contains (n.val, d.idx) then acc
  else pinJoin acc.2 d.idx (acc.1.pinRead c k n d) (c.pinData k n d m pages)

/-- Fill the loop cache of slice `n`; `failed` lists the entries whose pages failed, by slice and entry. -/
def pinSlice (s c : State) (k : Fin 16) (n : Fin 12) (pages : List (Nat × List Byte)) (failed : List (Nat × Nat)) : State :=
  let bodies := c.pinBodies k n
  let used := (bodies.map (fun d => d.length)).sum
  let heads := pinFit (c.pinHeads k n) used
  let r := bodies.foldl (fun a d => pinEntry c k n pages failed a d d.length) (s, [])
  let r := heads.1.foldl (fun a d => pinEntry c k n pages failed a d 64) r
  let s := r.1.modSlice n (fun x => { x with feed := { x.feed with pins := r.2 } })
  let s := s.set F.VS_SL_PIN_PINNED [n] (pinUnits (r.2.map (fun (p : Nat × List Nat) => p.2.length)).sum)
  s.set F.VS_SL_PIN_HEADS_SKIPPED [n] (min heads.2 65535)

/-- Fill the loop caches of a commit's slices; a slice that no session owns is left with nothing pinned by a commit of scope 0. -/
def pinAll (s c : State) (v : Scope) (pages : List (Nat × List Byte)) (failed : List (Nat × Nat)) : State :=
  let s := if v.code = 0 then s.overSlices (fun n s => ((s.modSlice n (fun x => { x with feed := { x.feed with pins := [] } })).set F.VS_SL_PIN_PINNED [n] 0).set
      F.VS_SL_PIN_HEADS_SKIPPED [n] 0) else s
  s.overSess (fun k s => if v.sess k then (c.pinSlices k).foldl (fun s n => pinSlice s c k n pages failed) s else s)

/-! ### Ending a commit -/

/-- Refuse a commit: nothing is copied, and the first failure is reported (R40, R46, R399, R489). -/
def commitRefuse (s : State) (ring : Option (Nat × Nat × Nat)) (x : CFail) : State :=
  let s := s.incWrap F.SYS_COMMIT_INFO_SEQ []
  let seq := s.get F.SYS_COMMIT_INFO_SEQ
  let s := (s.set F.SYS_COMMIT_WHERE_OFFSET [] x.off).set F.SYS_COMMIT_WHERE_TS [] x.ts
  let s := s.set F.SYS_COMMIT_WHERE_SRC_RING [] ring.isSome.toNat
  let s := s.set F.SYS_COMMIT_WHERE_SESSION [] ((ring.map (·.1)).getD 0)
  let s := (s.set F.SYS_COMMIT_LAST_SEQ [] seq).set F.SYS_COMMIT_LAST_ENTRY [] x.entry
  let s := (s.set F.SYS_COMMIT_LFID_STATUS [] x.st.code).set F.SYS_COMMIT_LFID_FIELD_ID [] x.id
  match ring with
  | none => (s.set F.SYS_COMMIT_STATUS_STATUS [] x.st.code).set F.SYS_COMMIT_STATUS_FIELD_ID [] x.id
  | some (k, tag, epoch) => s.complete (Fin.ofNat 16 k) tag epoch 3 x.st 0 0 s.quality (x.id + x.entry * 65536) seq

/-- The copy step (R41): the values and segment tables become active, and every block acts on what changed. -/
def commitCopy (s : State) (v : Scope) (vals : List (Nat × Word)) (segs : List (Nat × SMap Nat)) : State :=
  let t := (s.copyVals vals).unitsCommitted (fun n => s.covSlice v n) (fun o => s.covAo v o)
  let t := segs.foldl (fun t p => t.modSess (Fin.ofNat 16 p.1) (fun x => { x with segActive := p.2 })) t
  t.overSess (fun k t => if v.sess k then t.invTlb k else t)

/-- BUSY shows whether a commit written to SYS_COMMIT holds the engine or waits for it (R46). -/
def showBusy (s : State) : State :=
  s.set F.SYS_COMMIT_STATUS_BUSY [] ((match s.commit.pin with
    | some j => j.ring.isNone
    | none => false) || s.commit.wait.any (fun w => w.ring.isNone)).toNat

/-! ### Starting a commit -/

/-- Is a target within its scope (R46)? -/
def targetOk (scope target : Nat) : Bool :=
  match scope with
  | 0 => true
  | 1 => decide (target < 16)
  | 2 => decide (target < 12)
  | 3 => decide (target < 4)
  | 4 => decide (target < 16)
  | 5 => decide (target < 8)
  | 6 => true
  | 7 => decide (target < 4)
  | _ => false

/-- May a session's ring commit a scope (R42, R395)? Session 0's ring is the physical function's. -/
def mayCommit (s : State) (k : Fin 16) (scope target : Nat) : Bool :=
  decide (k = 0) || (match scope with
    | 1 => target == k.val
    | 2 => s.ownsSlice k target
    | 3 => s.ownsFw k target
    | 4 => s.ownsAo k target
    | 5 => s.ownsTg k target
    | _ => false)

/-- May the source of a commit commit its scope (R42, R395)? SYS_COMMIT is the physical function's. -/
def sourceMay (s : State) (v : Scope) : Option (Nat × Nat × Nat) → Bool
  | some (k, _, _) => decide (7 < v.code) || s.mayCommit (Fin.ofNat 16 k) v.code v.target
  | none => true

/-- The first failed check of a commit, in the order of R19: those of every chapter and pinning's (R40, R231, R475). -/
def commitFirst (s c : State) (v : Scope) (vals : List (Nat × Word)) (boot : Bool) : Option CFail :=
  if !targetOk v.code v.target then some (noField (if s.bootHolds v boot then .resourceBusy else .commitRange))
  else leastFail (commitFails s c v vals boot ++ c.pinFails v)

/-- Run a commit that has the engine: check it, then refuse it, keep it for its boundary, pin, or copy (R38–R46). An armed injection holds it
open, under a scope code that no commit has, until the watchdog ends it (R455, R459). -/
def commitStart (s : State) (v : Scope) (ring : Option (Nat × Nat × Nat)) : State :=
  if s.injOn 15 7 then (s.modCommit (fun e => { e with pin := some ⟨16, 0, v.byPf, [], [], ring⟩ })).showBusy
  else if s.sourceMay v ring = false then s.commitRefuse ring (noField .resourceBusy)
  else
    let vals := s.commitVals v
    let segs := s.commitSegs v
    let c := s.candidate vals segs
    match commitFirst s c v vals false with
    | some x => s.commitRefuse ring x
    | none =>
      if v.code ≤ 1 then
        if c.pinsAny v then (s.modCommit (fun e => { e with pin := some ⟨v.code, v.target, v.byPf, vals, segs, ring⟩ })).showBusy
        else (pinAll (s.commitCopy v vals segs) c v [] []).reportCommit ring .ok
      else if v.code = 6 then
        ((s.modCommit (fun e => { e with pin := some ⟨6, 0, v.byPf, vals, [], ring⟩ })).showBusy).defer 3 .hedgeCopy
      else if (v.code ≤ 5 ∧ s.unitBusy v.code v.target) ∨ (v.code = 7 ∧ s.portUp v.target) then
        (s.modCommit (fun e => { e with pends := e.pends ++ [⟨v.code, v.target, vals, ring⟩] })).showPending
      else (s.commitCopy v vals []).reportCommit ring .ok

/-- A commit reaches the engine: it begins, or takes its place behind those that have come before it (R38). -/
def commitEnter (s : State) (w : WaitCommit) : State :=
  if s.commit.pin.isSome || !s.commit.wait.isEmpty then (s.modCommit (fun e => { e with wait := e.wait ++ [w] })).showBusy
  else s.commitStart ⟨w.scope, w.target, w.byPf⟩ w.ring

/-- The commits that wait begin in turn, until one holds the engine (R38). -/
def commitDrain : List WaitCommit → State → State
  | [], s => (s.modCommit (fun e => { e with wait := [] })).showBusy
  | w :: t, s =>
    let s := ((s.modCommit (fun e => { e with wait := t })).showBusy).commitStart ⟨w.scope, w.target, w.byPf⟩ w.ring
    if s.commit.pin.isSome then s else commitDrain t s

/-- The engine is free: the commits that wait begin, first come first (R38). A copy of R327 that has not landed goes with the commit it was for. -/
def engineFree (s : State) : State :=
  let s := { s with due := s.due.filter (fun d => d.act != DueAct.hedgeCopy) }
  commitDrain s.commit.wait (s.modCommit (fun e => { e with pin := none }))

/-- A SYS_COMMIT write with GO reaches the engine (R38, R46). -/
def commitGo (s : State) (scope target : Nat) : State :=
  if s.get F.SYS_COMMIT_STATUS_BUSY = 1 then s.count F.SYS_COMMIT_INFO_DROPPED []
  else s.commitEnter ⟨scope, target, true, none⟩

/-- The copy of a scope-6 commit lands (R42, R327). -/
def hedgeCopy (s : State) : State :=
  match s.commit.pin with
  | some j => if j.scope = 6 then ((s.commitCopy ⟨6, 0, j.byPf⟩ j.vals []).reportCommit j.ring .ok).engineFree else s
  | none => s

/-- The commit that holds the engine ends with ABORTED and copies nothing (R459). -/
def commitAbort (s : State) : State :=
  match s.commit.pin with
  | some j => (s.reportCommit j.ring .aborted).engineFree
  | none => s

end State

/-- SYS_COMMIT_GO: a SYS_COMMIT write with GO = 1 (R46). While the field side is not UP it does not reach the engine (log 25). -/
def execSysCommitGo (scope : Fin 16) (target : Fin 256) (s : State) : Host.Outcome State Fault Refusal :=
  .next (s.toField (.commitGo scope target) (fun s => s.commitGo scope target))

/-- COMMIT_PINNING_DONE: every page that pinning reads has been read or has failed, and the copy step follows (R232). The operands are the host
pages read, by bus address, and the entries left unpinned on a slice. -/
def execCommitPinningDone (pages : List (Nat × List Byte)) (failed : List (Nat × Nat)) (s : State) : Host.Outcome State Fault Refusal :=
  match s.commit.pin with
  | some j =>
    if j.scope ≤ 1 then
      let v : Scope := ⟨j.scope, j.target, j.byPf⟩
      let c := s.candidate j.vals j.segs
      .next ((State.pinAll (s.commitCopy v j.vals j.segs) c v pages failed).reportCommit j.ring .ok).engineFree
    else .next s
  | none => .next s

end Sys2Proof.Machine
end

