-- ==== Sys2Proof/Machine/NetOps.lean ====
section
/-! DEFINITION. The Tabolyar links (spec/17_multi_device.md): discovery and numbering, alignment, crate events, ports and flits, and the forerunner
fabric's routing. Remote register access is in NetRows. -/

namespace Sys2Proof.Machine

namespace State

/-! ### Flits and ports (R435, R436) -/

/-- The replay of a flit that failed has come and passes: the port accepts flits again (R435). -/
def replayCame (s : State) (p : Fin 4) : State :=
  if s.net.ports[p].await.isSome then s.modPort p (fun x => { x with fails := 0, await := none, rx := (x.rx + 1) % 65536 }) else s

/-- A flit comes in each slot. While a replay is awaited none is accepted; 300 ns, 12 slots, after the failure the replay has come (R435, log 70). -/
def flitComes (s : State) (p : Fin 4) : State :=
  match s.net.ports[p].await with
  | none => s.modPort p (fun x => { x with rx := (x.rx + 1) % 65536 })
  | some k =>
    let k := k + (if s.portState p = 3 then 2 else 1)
    if 12 ≤ k then s.replayCame p else s.modPort p (fun x => { x with await := some k })

/-- Numbers of this device (R439–R441). -/
def numbered (s : State) : Bool := s.get F.TL_ROLE_NUMBERED == 1

/-- A port that is up retrains (R436). -/
def retrain (s : State) (p : Fin 4) : State :=
  if s.portUp p then ((s.set F.TL_PORT_STAT_STATE [p] 1).set F.TL_PORT_LAT_LATENCY [p] 0).count F.TL_PORT_CNT_RETRAIN [p] else s

/-- A port's retries are exhausted and it retrains (R435, R436). -/
def exhaust (s : State) (p : Fin 4) (injected : Bool) : State :=
  ((s.raise F.TL_PORT_EVENTS_RETRY_EXHAUST [p]).detect 12 p .policy injected none).retrain p

/-- Event cycle of now as records carry it, TBC[26:11] (R434). -/
def cycleNow (s : State) : Nat := s.now / 2048 % 65536

/-- Age of an origin event cycle; origins ahead of now count as 0. -/
def cycleAge (s : State) (c : Nat) : Nat :=
  let a := (s.cycleNow + 65536 - c) % 65536
  if a < 32768 then a else 0

/-- The delay D of a line and the D_up of its merge point (R448). -/
def netScope (s : State) : Nat := if s.role = 1 ∨ s.role = 2 then s.act F.TL_EV_CFG_SCOPE else s.net.scope
def lineDelay (s : State) (k : Nat) : Nat :=
  if bitOf s.netScope k then s.get F.TL_EV_DELAY_CLUSTER else s.get F.TL_EV_DELAY_CRATE
def lineUp (s : State) (k : Nat) : Nat := s.lineDelay k / 2

/-- Is this device the merge point of a line (R447)? -/
def merges (s : State) (k : Nat) : Bool := s.isRoot || (s.role == 1 && !bitOf s.netScope k)

/-- A record takes its place among those that wait, in origin order (R449). -/
def recIn (now : Nat) (r : CrateRec) : List CrateRec → List CrateRec
  | [] => [r]
  | q :: t => if (r.cycle + 98304 - now) % 65536 < (q.cycle + 98304 - now) % 65536 then r :: q :: t else q :: recIn now r t

/-- Put a record into a port's outbound queue of 256; a record that finds it full is dropped, and one of the line's present level follows (R449). -/
def queueRec (s : State) (p : Fin 4) (r : CrateRec) : State :=
  if s.net.ports[p].queue.length < 256 then s.modPort p (fun x => { x with queue := recIn s.cycleNow r x.queue })
  else (s.modPort p (fun x => { x with owed := withBit x.owed r.line })).count F.TL_EV_CNT_LOST

/-- Send a merged change on every downstream port; one that merged at a crate manager stays within its crate (R432, R447). -/
def queueDown (s : State) (r : CrateRec) : State :=
  (s.downPorts.filter (fun (p : Fin 4) => bitOf s.netScope r.line || s.get F.TL_PORT_STAT_PEER_ROLE [p.val] != 1)).foldl
    (fun s (p : Fin 4) => s.queueRec p r) s

/-- Records of the levels owed on a port, as far as a flit of eight has room (R449). -/
def owedRecs (s : State) (p : Fin 4) (n : Nat) : List CrateRec :=
  let lv (k : Nat) : Bool := if p = 0 then bitOf s.net.dv k else bitOf s.net.merged k
  (((List.range 8).filter (fun k => bitOf s.net.ports[p].owed k)).map (fun k => ⟨s.cycleNow, k, lv k, 4⟩)).take n

/-- A flit leaves: with the number of the next flit expected, a NAK while a replay is awaited, and DEGRADED (R434–R436). -/
def flitOut (s : State) (p : Fin 4) (f : Flit) (badCrc : Bool) : State :=
  let deg := s.portState p == 3
  s.modPort p (fun x => { x with wire := some ⟨f, x.rx, x.await.isSome, deg, badCrc⟩ })

/-- A flit that a NAK has asked for leaves again, as it was first sent (R435). -/
def resendFlit (s : State) (p : Fin 4) (f : Flit) : State :=
  let next := (f.seq + 1) % 65536
  (s.modPort p (fun x => { x with replay := if next = x.tx then none else some next })).flitOut p f false

/-- A message is given to a flit whose first bit leaves now: ALIGN takes the sender's stamp, t1 of a request and t3 of a reply (R445). -/
def stampMsg (s : State) (m : NetMsg) (x : Port) : NetMsg × Port :=
  match m with
  | .align st asked up =>
    if st.t1.isNone then
      let st := { st with t1 := some (s.now : Int) }
      (.align st asked up, { x with stamps := st })
    else if st.t3.isNone then
      let st := { st with t3 := some (s.now : Int) }
      (.align st asked up, { x with stamps := st })
    else (m, x)
  | m => (m, x)

/-- The stream gives a flit its bytes: messages in their order, and PAD where it is empty; three messages fill a flit (R438). -/
def fillStream (s : State) : Nat → Port → Port
  | 0, x => x
  | n + 1, x =>
    if 92 ≤ x.carry.length then x
    else match x.out with
      | [] => s.fillStream n { x with carry := x.carry ++ NetMsg.pad.bytes s.now }
      | m :: t =>
        let r := s.stampMsg m { x with out := t }
        s.fillStream n { r.2 with carry := r.2.carry ++ r.1.bytes s.now }

/-- One new flit leaves on a port, with up to eight records, oldest first, and 92 bytes of the stream; it stays in the replay buffer for 12 flits,
longer than a NAK takes (R434, R435, R449; log 70). -/
def newFlit (s : State) (p : Fin 4) (badCrc : Bool) : State :=
  let q := s.net.ports[p].queue
  let owed := s.owedRecs p (8 - q.length)
  let x := s.fillStream 3 s.net.ports[p]
  let f : Flit := ⟨x.tx, q.take 8 ++ owed, x.carry.take 92⟩
  let kept := (x.kept ++ [f]).drop (x.kept.length + 1 - 12)
  (s.modPort p (fun _ => { x with
    tx := (x.tx + 1) % 65536, queue := q.drop 8, owed := owed.foldl (fun (m : Nat) (r : CrateRec) => putBits m r.line 1 0) x.owed
    carry := x.carry.drop 92, kept := kept, naks := x.naks.filter (fun n => kept.any (fun g => g.seq == n.1)) })).flitOut p f badCrc

/-- A bit of a mask set to a level. -/
def setLine (m k : Nat) (v : Bool) : Nat := putBits m k 1 v.toNat

/-- The OR of every contributor's levels. -/
def mergedNow (n : Net) : Nat := n.contrib.toList.foldl (fun a b => a ||| b) 0

/-- Merge records of one origin cycle and send what changed downstream; every device, this one too, applies it at origin + D (R448, R449). -/
def mergeRecs (s : State) (c : Nat) (rs : List CrateRec) : State :=
  let old := s.net.merged
  let s := s.modNet (fun n => rs.foldl (fun (n : Net) (r : CrateRec) =>
    let i : Fin 5 := Fin.ofNat 5 r.src
    { n with contrib := n.contrib.set i (setLine n.contrib[i] r.line r.level) }) n)
  let new := mergedNow s.net
  let s := s.modNet (fun n => { n with merged := new })
  let rises (k : Nat) : Nat := (rs.filter (fun (r : CrateRec) => r.line == k && r.level)).length
  let s := s.count F.TL_EV_CNT_COALESCED [] (((List.range 8).map (fun k => rises k - 1)).sum)
  let late (r : CrateRec) : Nat := (if s.lineDelay r.line < s.cycleAge c then s.cycleNow + 1 else c + s.lineDelay r.line) % 65536
  let chg : List CrateRec := ((List.range 8).filter (fun k => bitOf old k != bitOf new k)).map (fun k => ⟨c, k, bitOf new k, 4⟩)
  let s := chg.foldl queueDown s
  s.modNet (fun n => { n with applies := n.applies ++ chg.map (fun (r : CrateRec) => (late r, r)) })

/-- Origin cycle of the oldest of some records. -/
def oldestCycle (s : State) (rs : List CrateRec) : Option Nat :=
  rs.foldl (fun (o : Option Nat) (r : CrateRec) =>
    let key (c : Nat) : Nat := (c + 98304 - s.cycleNow) % 65536
    match o with
    | none => some r.cycle
    | some c => if key r.cycle < key c then some r.cycle else some c) none

/-- Has an event cycle come, as of cycle `now`? -/
def cycleCome (now c : Nat) : Bool := decide ((now + 65536 - c) % 65536 < 32768)

/-- Held records whose origin + D_up has come by cycle `now`. -/
def heldDue (s : State) (now : Nat) : List CrateRec := s.net.held.filter (fun r => cycleCome now ((r.cycle + s.lineUp r.line) % 65536))

/-- The held records of the oldest origin that is due are merged (R448). -/
def releaseRecs (s : State) (now : Nat) : State :=
  match s.oldestCycle (s.heldDue now) with
  | none => s
  | some c =>
    let rs := (s.heldDue now).filter (fun r => r.cycle == c)
    (s.modNet (fun n => { n with held := n.held.filter (fun r => !rs.contains r) })).mergeRecs c rs

/-- Merged changes whose cycle has come by cycle `now`, on lines that have not changed in this event cycle (R449). -/
def appliesDue (s : State) (now : Nat) : List (Nat × CrateRec) :=
  s.net.applies.filter (fun (a : Nat × CrateRec) => cycleCome now a.1 && !bitOf s.net.applied a.2.line)

/-- The merged changes of the oldest origin that is due stand on EV(248 + k) for at least one event cycle (R448, R449). -/
def applyRecs (s : State) (now : Nat) : State :=
  match s.oldestCycle ((s.appliesDue now).map (·.2)) with
  | none => s
  | some c =>
    let rs := (s.appliesDue now).filter (fun (a : Nat × CrateRec) => a.2.cycle == c)
    let s := s.modNet (fun n => { n with
      applies := n.applies.filter (fun (a : Nat × CrateRec) => !rs.contains a)
      applied := rs.foldl (fun (m : Nat) (a : Nat × CrateRec) => setLine m a.2.line true) n.applied })
    s.modHr (fun h => { h with crate := rs.foldl (fun (m : Nat) (a : Nat × CrateRec) => setLine m a.2.line a.2.level) h.crate })

/-- What was due in the event cycle that ends and no command has done (log 70). -/
def restNet (s : State) : State :=
  let now := (s.cycleNow + 65535) % 65536
  let s := (List.range s.net.held.length).foldl (fun s _ => s.releaseRecs now) s
  let s := (List.range s.net.applies.length).foldl (fun s _ => s.applyRecs now) s
  s.modNet (fun n => { n with applied := 0 })

/-- A record comes to this device from below, or from itself: it is held at its merge point, merged at once when it is late, or sent on upstream
(R447–R449). -/
def recordUp (s : State) (r : CrateRec) : State :=
  if s.merges r.line then
    if s.lineUp r.line < s.cycleAge r.cycle then (s.count F.TL_EV_CNT_LATE).mergeRecs r.cycle [r]
    else s.modNet (fun n => { n with held := n.held ++ [r] })
  else s.queueRec 0 r

/-- A merged change comes from upstream: it goes on downstream and waits for origin + D; one that comes later counts in LATE and applies at the next
event-cycle boundary (R448, R449). A line that this device merges itself takes none. -/
def recordDown (s : State) (r : CrateRec) : State :=
  if s.merges r.line then s
  else
    let late := decide (s.lineDelay r.line < s.cycleAge r.cycle)
    let s := s.queueDown r
    let s := if late then s.count F.TL_EV_CNT_LATE else s
    let due := (if late then s.cycleNow + 1 else r.cycle + s.lineDelay r.line) % 65536
    s.modNet (fun n => { n with applies := n.applies ++ [(due, r)] })

/-- A port goes down: what is in flight is lost, and contributions from behind it count as 0 from the first origin cycle not yet released (R436,
R449). -/
def portDown (s : State) (p : Fin 4) : State :=
  let s := ((s.set F.TL_PORT_STAT_STATE [p] 5).set F.TL_PORT_STAT_LANES [p] 0).set F.TL_PORT_LAT_LATENCY [p] 0
  let s := (s.raise F.TL_PORT_EVENTS_DOWN [p]).modPort p clearPort
  if p = 0 then (s.modNet (fun n => { n with applies := [] })).modHr (fun h => { h with crate := 0 })
  else
    let lines := (List.range 8).filter (fun k => bitOf s.net.contrib[(Fin.ofNat 5 p.val : Fin 5)] k)
    let fall : List CrateRec := lines.map (fun k => ⟨(s.cycleNow + 65536 - s.lineUp k) % 65536, k, false, p.val⟩)
    s.modNet (fun n => { n with held := n.held.filter (fun r => r.src != p.val) ++ fall })

/-- A flit fails its CRC; the eighth failure in a row exhausts retries and the port retrains (R435, R436). -/
def flitFail (s : State) (p : Fin 4) : State :=
  let s := ((s.count F.TL_PORT_CNT_CRC_ERR [p]).detect 10 p .report false none).modPort p (fun y => { y with fails := y.fails + 1, await := some 0 })
  if 8 ≤ s.net.ports[p].fails then (s.modPort p (fun y => { y with fails := 0, await := none })).exhaust p false else s

/-- The peer's NAK names a flit: it is replayed from there; its eighth NAK in a row exhausts retries (R435). -/
def flitNak (s : State) (p : Fin 4) (num : Nat) : State :=
  let x := s.net.ports[p]
  let n := match x.naks with
    | some (m, k) => if m = num then k + 1 else 1
    | none => 1
  if 8 ≤ n then (s.modPort p (fun x => { x with naks := none })).exhaust p false
  else s.modPort p (fun x => { x with
    naks := some (num, n), replay := if x.kept.any (fun f => f.seq == num) then some num else x.replay })

/-- A new flit leaves. An armed injection inverts its CRC, once, so that the peer's NAK has it sent again, or on eight consecutive sends, so that the
port retrains (R436, R455). -/
def freshFlit (s : State) (p : Fin 4) : State :=
  let num := s.net.ports[p].tx
  let a := s.takeInject 10 p
  let b := a.2.takeInject 12 p
  let s := b.2.newFlit p (a.1 || b.1)
  if b.1 then ((List.range 8).foldl (fun s _ => s.detect 10 p .report true none) s).exhaust p true
  else if a.1 then (s.detect 10 p .report true none).modPort p (fun x => { x with replay := some num })
  else s

/-- One flit leaves on a port: of a replay, as long as one goes on, else a new one (R434, R435). -/
def sendFlit (s : State) (p : Fin 4) : State :=
  match s.net.ports[p].replay with
  | some n => match s.net.ports[p].kept.find? (fun f => f.seq == n) with
    | some f => s.resendFlit p f
    | none => (s.modPort p (fun x => { x with replay := none })).freshFlit p
  | none => s.freshFlit p

/-- A port's flits after a training: they are numbered from 0, and those of the replay buffer go first (R434, R436). -/
def restartFlits (x : Port) : Port :=
  { x with
    fails := 0, await := none, rx := 0, naks := none, tx := x.kept.length, replay := if x.kept.isEmpty then none else some 0
    kept := x.kept.zipIdx.map (fun f => { f.1 with seq := f.2 }) }

/-- Training or retraining ends with `lanes` working in both directions (R436). -/
def trained (s : State) (p : Fin 4) (lanes : Nat) : State :=
  if s.portState p ≠ 1 then s
  else
    let up (st l : Nat) (s : State) : State :=
      let s := ((s.set F.TL_PORT_STAT_STATE [p] st).set F.TL_PORT_STAT_LANES [p] l).set F.TL_PORT_STAT_DIR [p] (s.isDown p).toNat
      (s.raise F.TL_PORT_EVENTS_UP [p]).modPort p restartFlits
    if 2 ≤ lanes then up 2 2 s
    else if lanes = 1 ∧ s.act F.TL_PORT_CFG_DEGRADE_EN [p] = 1 then (up 3 1 s).raise F.TL_PORT_EVENTS_DEGRADE [p]
    else s.portDown p

/-! ### Discovery and numbering (R439–R441, R448) -/

/-- Discovery starts: the earlier numbering is discarded, and DISCOVER goes out on each downstream port that is up. -/
def discover (s : State) : State :=
  if s.role = 1 ∨ s.role = 2 then
    let s := s.putK (Reg.key .TL_DISC_STAT []) 0
    let s := if s.isRoot then s.set F.TL_ROLE_NUMBERED [] 0 else s
    let s := s.downPorts.foldl (fun s (p : Fin 4) =>
      (s.set F.TL_PORT_STAT_PEER_DEV [p.val] 0).set F.TL_PORT_STAT_PEER_CRATE [p.val] 0) s
    (s.modNet (fun n => { n with discovering := true, reports := [], reported := 0, assigned := 0 })).sendDown (.discover 1)
  else s

/-- Breadth-first order of paths: hop by hop, then by the parent's place and the port. -/
def pathLe (a b : List Nat) : Bool := decide (a.length < b.length) || (a.length == b.length && decide (a ≤ b))

/-- Role of the device at a path among the reports. -/
def roleAt (rs : List Report) (path : List Nat) : Option Nat := (rs.find? (fun r => r.path == path)).map (·.role)

/-- Is a report that of a device of role `want` whose every ancestor has that role, within 4 hops (R432, R440)? -/
def inTree (rs : List Report) (want : Nat) (r : Report) : Bool :=
  r.role == want && decide (r.path.length ≤ 4) &&
  ((List.range r.path.length).drop 1).all (fun i => roleAt rs (r.path.take i) == some want)

/-- The reports that a manager numbers: its workers, or a root's crate managers, in order. -/
def numberedOf (rs : List Report) (want cap : Nat) : List Report :=
  ((rs.filter (inTree rs want)).mergeSort (fun a b => pathLe a.path b.path)).take cap

/-- Workers that this manager numbers, and crate managers that a root numbers. -/
def workersOf (s : State) : List Report := numberedOf s.net.reports 0 31
def cratesOf (s : State) : List Report := if s.role = 2 then numberedOf s.net.reports 1 15 else []

/-- Is a device left unnumbered under R440? A child crate manager, and what lies below one, belongs to another crate. -/
def excess (s : State) (r : Report) : Bool :=
  let rs := s.net.reports
  let below := ((List.range r.path.length).drop 1).any (fun i => roleAt rs (r.path.take i) == some 1)
  let mgr := s.role == 1 && r.role == 1 && ((List.range r.path.length).drop 1).all (fun i => roleAt rs (r.path.take i) == some 1)
  !s.workersOf.contains r && !s.cratesOf.contains r && !mgr && !(below && r.role == 0)

/-- ceil(H × 58.88) of R448. -/
def hopCycles (h : Nat) : Nat := (h * 5888 + 99) / 100

/-- D of a scope with greatest hop count H (R448). -/
def delayOf (s : State) (h : Nat) : Nat := 2 * (hopCycles h + 2 + s.act F.TL_EV_CFG_MARGIN)

/-- Greatest hop count of some reports. -/
def maxHop (rs : List Report) : Nat := rs.foldl (fun m (r : Report) => max m r.path.length) 0

/-- Discovery completes: numbers, ASSIGN, TL_DISC_STAT and the event delays; `depth` is the greatest hop count of the cluster (R439–R441, R448). -/
def discovered (s : State) (depth : Nat) : State :=
  if s.net.discovering then
    let ws := s.workersOf
    let cs := s.cratesOf
    let ex := s.net.reports.filter s.excess
    let s := if s.isRoot then
        let s := (s.set F.TL_ROLE_DEVICE [] 0).set F.TL_ROLE_CRATE [] 0
        (s.set F.TL_ROLE_CLUSTER [] (s.get F.TL_CLUSTER_CLUSTER)).set F.TL_ROLE_NUMBERED [] 1
      else s
    let crate := s.get F.TL_ROLE_CRATE
    let cluster := s.get F.TL_ROLE_CLUSTER
    let s := (ws.zipIdx 1).foldl (fun s (x : Report × Nat) =>
      let p := x.1.path.headD 0
      let s := if x.1.path.length = 1 then (s.set F.TL_PORT_STAT_PEER_DEV [p] x.2).set F.TL_PORT_STAT_PEER_CRATE [p] crate else s
      s.netSend p (.assign x.2 crate cluster)) s
    let s := (cs.zipIdx 1).foldl (fun s (x : Report × Nat) =>
      let p := x.1.path.headD 0
      let s := if x.1.path.length = 1 then (s.set F.TL_PORT_STAT_PEER_DEV [p] 0).set F.TL_PORT_STAT_PEER_CRATE [p] x.2 else s
      s.netSend p (.assign 0 x.2 cluster)) s
    let s := ex.foldl (fun s (r : Report) => if r.path.length = 1 then s.set F.TL_PORT_STAT_STATE [r.path.headD 0] 4 else s) s
    let s := ((s.set F.TL_DISC_STAT_DONE [] 1).set F.TL_DISC_STAT_WORKERS [] ws.length).set F.TL_DISC_STAT_DEPTH [] (maxHop ws)
    let s := (s.set F.TL_DISC_STAT_CRATES [] cs.length).set F.TL_DISC_STAT_EXCESS [] (min ex.length 255)
    let s := s.set F.TL_EV_DELAY_CRATE [] (s.delayOf (maxHop ws))
    let s := if s.role = 2 then s.set F.TL_EV_DELAY_CLUSTER [] (s.delayOf depth) else s
    let s := s.modNet (fun n => { n with discovering := false })
    s.sendDown (.evcfg (s.get F.TL_EV_DELAY_CRATE) (s.get F.TL_EV_DELAY_CLUSTER) (s.act F.TL_EV_CFG_SCOPE))
  else s

/-! ### Alignment (R445, R446) -/

/-- A signed value saturated at ±32,767, as 16 bits. -/
def sat16 (x : Int) : Nat := patternOf (max (-32767) (min 32767 x)) 16

/-- State of the device's alignment at an offset (R446): ALIGNED and RANGE stay until alignment is asked for again. -/
def alignState (was : Nat) (upAligned : Bool) (off : Int) : Nat :=
  if was = 3 ∨ was = 4 then was
  else if !upAligned then 1 else if 32767 < off.natAbs then 4 else if off.natAbs ≤ 1 then 3 else 2

/-- Does the device slew: towards its alignment, or, with TRACK, to keep it (R446)? -/
def slews (s : State) : Bool :=
  let st := s.get F.TL_ALIGN_STAT_STATE
  st == 2 || (st == 3 && s.get F.TL_ALIGN_CTRL_TRACK == 1 && !s.isRoot && decide (1 < (signedOf (s.get F.TL_ALIGN_STAT_OFFSET) 16).natAbs))

/-- Ticks slewed so far towards an offset, at 1 ppm (R446). -/
def slewed (s : State) (off : Int) : Int :=
  let m := min off.natAbs (((s.now : Int) - s.net.slewFrom).toNat / 1000000)
  if off < 0 then -m else m

/-- The slew in force moves by `-d` ticks, and the next part of it begins now (R446). -/
def slewBy (s : State) (d : Int) : State :=
  (s.set F.TL_ALIGN_PHASE_PHASE [] (sat16 (signedOf (s.get F.TL_ALIGN_PHASE_PHASE) 16 - d))).modNet (fun n => { n with slewFrom := s.now })

/-- The offset of an exchange, downstream TBC minus upstream TBC, and its hop latency (R445). -/
def alignOffset (t1 t2 t3 t4 : Int) : Int := ((t2 - t1) - (t4 - t3)) / 2
def alignLatency (t1 t2 t3 t4 : Int) : Int := ((t2 - t1) + (t4 - t3)) / 2

/-- An exchange is complete: TL_PORT_LAT takes its latency (R445). -/
def measured (s : State) (p : Fin 4) (t1 t2 t3 t4 : Int) : State :=
  (s.set F.TL_PORT_LAT_LATENCY [p] ((alignLatency t1 t2 t3 t4).toNat % 2 ^ 20)).modPort p (fun x => { x with stamps := ⟨none, none, none, none⟩ })

/-- The device follows its offset (R446). -/
def follow (s : State) (off : Int) (asked up : Bool) : State :=
  let was := if asked then 0 else s.get F.TL_ALIGN_STAT_STATE
  let old := signedOf (s.get F.TL_ALIGN_STAT_OFFSET) 16
  let s := if s.slews then s.slewBy (s.slewed old) else s.modNet (fun n => { n with slewFrom := s.now })
  let s := s.set F.TL_ALIGN_STAT_OFFSET [] (sat16 off)
  let s := if 16 < off.natAbs then s.raise F.TL_ALIGN_STAT_ALIGN_LOST else s
  let s := s.modNet (fun n => { n with upAligned := up, aligning := n.aligning || asked })
  if s.net.aligning then s.set F.TL_ALIGN_STAT_STATE [] (alignState was up off) else s

/-- The fixed hop latency of a port in ticks (R437). -/
def hopLatency (s : State) (p : Fin 4) : Nat := if s.portState p = 3 then 120586 else 78643

/-- A port whose peer has reported and through which no number has gone leads to a device without one: it is BLOCKED. A crate manager judges the ports to
other managers, whose numbers come from the root (R440, log 77). -/
def blockUnnumbered (s : State) : State :=
  s.downPorts.foldl (fun s (p : Fin 4) =>
    if bitOf s.net.reported p && !bitOf s.net.assigned p && (s.role == 0 || s.get F.TL_PORT_STAT_PEER_ROLE [p.val] == 1) then
      s.set F.TL_PORT_STAT_STATE [p.val] 4
    else s) s

/-- Alignment starts on a root, which counts as ALIGNED from the start; it is ignored on any other device (R446). -/
def alignStart (s : State) : State :=
  if s.isRoot then (s.modNet (fun n => { n with aligning := true, upAligned := true })).set F.TL_ALIGN_STAT_STATE [] 3 else s

/-! ### Forerunner fabric (R450) -/

/-- Does a route entry match a node? -/
def routeHit (s : State) (node i : Nat) : Bool :=
  let n := 16 - min 16 (s.get F.TL_ROUTE_PLEN [i])
  s.get F.TL_ROUTE_VALID [i] == 1 && s.get F.TL_ROUTE_ADDR [i] / 2 ^ n == node / 2 ^ n

/-- Port to a node: the longest prefix, ties to the lower entry. -/
def route (s : State) (node : Nat) : Option Nat :=
  let best := (List.range 64).foldl (fun (b : Option Nat) i =>
    if s.routeHit node i then match b with
      | none => some i
      | some j => if s.get F.TL_ROUTE_PLEN [j] < s.get F.TL_ROUTE_PLEN [i] then some i else some j
    else b) none
  best.map (fun i => s.get F.TL_ROUTE_PORT [i])

/-- Send a fabric message towards a node, on a fabric port that is up. -/
def fabSend (s : State) (node : Nat) (b : FabBody) : State :=
  match s.route node with
  | some p =>
    if s.portUp p && s.act F.TL_PORT_CFG_MODE [p] == 2 then s.modNet (fun n => { n with fabricOut := (p, .fabric node b) :: n.fabricOut }) else s
  | none => s

/-- Does the device run a fabric port? -/
def fabricOn (s : State) : Bool := s.role == 3 && (List.range 4).any (fun p => s.act F.TL_PORT_CFG_MODE [p] == 2)

/-- DV0–DV7 sampled at an event-clock edge: every change of what an enabled line contributes makes a record, or a fabric message; a line that is not
enabled contributes 0 (R447, R450). -/
def sampleLines (s : State) : State :=
  (List.range 8).foldl (fun s k =>
    let lv := s.crateLine k && s.dvLevel k
    if bitOf s.net.dv k == lv then s
    else
      let s := s.modNet (fun n => { n with dv := setLine n.dv k lv })
      if s.fabricOn then s.fabSend (s.act F.TL_FAB_CFG_DEST) (.event k lv)
      else if s.numbered then s.recordUp ⟨s.cycleNow, k, lv, 4⟩
      else s) s

end State

/-! ### The rows -/

/-- DISCOVER: on TL0 it is answered with REPORT and goes on downstream; on any other port it is discarded and the port is BLOCKED (R439, R440). -/
def execDiscover (p : Fin 4) (hop : Nat) (s : State) : Host.Outcome State Fault Refusal :=
  .next (s.hear p (fun s =>
    if p ≠ 0 then s.set F.TL_PORT_STAT_STATE [p] 4
    else ((s.modNet (fun n => { n with reported := 0, assigned := 0 })).netSend 0 (.report s.role s.net.serial)).sendDown (.discover (hop + 1))))

/-- REPORT: a discovering manager takes it; a worker, and a crate manager for a crate manager's, sends it on upstream (R439, R441). `path` is the
list of ports from this device to the one that reports. -/
def execReport (path : List Nat) (role serial : Nat) (s : State) : Host.Outcome State Fault Refusal :=
  match path with
  | [] => .next s
  | p :: t => .next (s.hear (Fin.ofNat 4 p) (fun s =>
    let s := if t.isEmpty then
        (s.set F.TL_PORT_STAT_PEER_ROLE [p] role).modNet (fun n => { n with reported := withBit n.reported p })
      else s
    let s := if s.net.discovering then s.modNet (fun n => { n with reports := n.reports ++ [⟨path, role, serial⟩] }) else s
    let up := s.role == 0 || (s.role == 1 && s.hasUpstream && role == 1)
    if up then s.netSend 0 (.report role serial) else s))

/-- ASSIGN: numbers for this device, or for one behind port `via`; a crate manager that is numbered discovers its crate (R439, R441). -/
def execAssign (dev : Fin 32) (crate : Fin 16) (cluster : Fin 8) (via : Option (Fin 4)) (s : State) : Host.Outcome State Fault Refusal :=
  .next (s.hear 0 (fun s =>
    match via with
    | some p => (s.modNet (fun n => { n with assigned := withBit n.assigned p })).netSend p (.assign dev crate cluster)
    | none =>
      let s := ((s.set F.TL_ROLE_DEVICE [] dev).set F.TL_ROLE_CRATE [] crate).set F.TL_ROLE_CLUSTER [] cluster
      let s := s.set F.TL_ROLE_NUMBERED [] 1
      if s.role = 1 then s.discover else s))

/-- ALIGN: a message of an exchange, with the stamps that it carries. A device below answers a request, whose arrival is t2; the device above takes
the reply's arrival as t4, and sends all four back; then the device below follows R446 once the tree is being aligned, with `up` saying that its
upstream device is ALIGNED (R445, R446). -/
def execAlign (p : Fin 4) (t1 t2 t3 t4 : Option Int) (asked up : Bool) (s : State) : Host.Outcome State Fault Refusal :=
  .next (s.hear p (fun s =>
    let now : Int := s.now
    let st := s.net.ports[p].stamps
    if p ≠ 0 then
      match st.t1, t2, t3 with
      | some a, some b, some c =>
        (s.measured p a b c now).netSend p (.align ⟨some a, some b, some c, some now⟩ s.net.aligning (s.get F.TL_ALIGN_STAT_STATE == 3))
      | _, _, _ => s
    else match t4 with
      | none => match t1 with
        | some a =>
          let st : Stamps := ⟨some a, some now, none, none⟩
          (s.modPort 0 (fun x => { x with stamps := st })).netSend 0 (.align st false false)
        | none => s
      | some d => match st.t1, st.t2, st.t3 with
        | some a, some b, some c => (s.measured 0 a b c d).follow (State.alignOffset a b c d) asked up
        | _, _, _ => s))

/-- EPOCH: a link EPOCH from TL0, at a numbered device (R440), the first bit of whose flit arrived `ago` ticks before. `edges` is one more than the
REFIN edges passed since the edge N nearest to its origin. It goes on downstream from that edge; its S comes K periods after N, unless it came after its
S (R444); SRC is judged there (log 45). -/
def execEpoch (p : Fin 4) (offset : Nat) (ago : Nat) (s : State) : Host.Outcome State Fault Refusal :=
  .next (s.hear p (fun s =>
    if p ≠ 0 ∨ s.numbered = false then s
    else
      let per := s.refDivide * 1024
      let since := s.tb.refPhase * 1024
      let gone := offset + s.hopLatency p + ago
      let edges := (2 * gone + 3 * per - 2 * since) / (2 * per)
      let s := s.sendDown (.epoch ((s.now : Int) - (since + edges * per - per : Nat)))
      if s.linkPeriods < edges then
        if s.get F.TB_EPOCH_CTRL_SRC = 1 then s.count F.TB_EPOCH_STAT_REJECT else s
      else s.modTb (fun t => { t with linkLeft := t.linkLeft ++ [s.linkPeriods + 1 - edges] })))

/-- EVCFG: the event delays and scopes, which go on downstream (R448); a crate manager sends its own crate's. A port whose peer has reported and has got
no number is BLOCKED (R440, log 77). -/
def execEvcfg (crate cluster : Fin 65536) (scope : Fin 256) (s : State) : Host.Outcome State Fault Refusal :=
  .next (s.hear 0 (fun s =>
    let s := if s.role = 0 then s.set F.TL_EV_DELAY_CRATE [] crate else s
    let s := ((s.set F.TL_EV_DELAY_CLUSTER [] cluster).modNet (fun n => { n with scope := scope })).blockUnnumbered
    s.sendDown (.evcfg (s.get F.TL_EV_DELAY_CRATE) cluster s.netScope)))

/-- EVENT_RECORD: a crate event record reaches a numbered device on a port (R440, R448, R449). -/
def execEventRecord (p : Fin 4) (cycle : Fin 65536) (line : Fin 8) (level : Bool) (s : State) : Host.Outcome State Fault Refusal :=
  .next (s.hear p (fun s =>
    if s.numbered = false then s else if p = 0 then s.recordDown ⟨cycle, line, level, 0⟩ else s.recordUp ⟨cycle, line, level, p⟩))

/-- CRATE_EVENT_RELEASE: the merging device merges the held records of the oldest origin whose origin + D_up has come (R448). -/
def execCrateEventRelease (s : State) : Host.Outcome State Fault Refusal := .next (s.releaseRecs s.cycleNow)

/-- CRATE_EVENT_APPLY: the merged changes of the oldest origin whose origin + D has come are applied (R448, R449). -/
def execCrateEventApply (s : State) : Host.Outcome State Fault Refusal := .next (s.applyRecs s.cycleNow)

/-- TL_FLIT_CRC_FAIL: a flit fails its CRC, here or at the peer, comes again after that (R435), or carries a message that is discarded (R438). -/
def execTlFlitCrcFail (f : FlitFail) (s : State) : Host.Outcome State Fault Refusal :=
  match f.how with
  | .crc => .next (s.flitFail f.port)
  | .nak num => .next (s.hear f.port (fun s => s.flitNak f.port (num % 65536)))
  | .badType => .next (s.hear f.port (fun s => s.count F.TL_PORT_CNT_CRC_ERR [f.port]))
  | .replayed => .next (s.replayCame f.port)

/-- TL_TRAINING_DONE: training ends with the lanes that work (R436). -/
def execTlTrainingDone (p : Fin 4) (lanes : Fin 3) (s : State) : Host.Outcome State Fault Refusal := .next (s.trained p lanes)

/-- TL_LANE_FAIL: a receive lane fails and the port, if it is up, retrains (R436, R455). -/
def execTlLaneFail (p : Fin 4) (lane : Fin 2) (s : State) : Host.Outcome State Fault Refusal :=
  let w := s.takeInject 11 (2 * p + lane)
  .next ((w.2.detect 11 (2 * p + lane) .repair w.1 none).retrain p)

/-- TL_PEER_SIGNAL: a peer's signal appears and a port that is used, and neither up nor BLOCKED, trains (R431, R436, R440). -/
def execTlPeerSignal (p : Fin 4) (s : State) : Host.Outcome State Fault Refusal :=
  .next (if s.portUsed p && !s.portUp p && s.portState p != 4 then s.set F.TL_PORT_STAT_STATE [p] 1 else s)

/-- TL_DISC_START: a write of TL_DISC_CTRL.START (R439). -/
def execTlDiscStart (s : State) : Host.Outcome State Fault Refusal := .next (s.hostStrobe .TL_DISC_CTRL [] 0 (fun s => s.discover))

/-- DISCOVERY_DONE: discovery completes; `depth` is the greatest hop count from the root to a numbered device of its cluster (R439, R448). -/
def execDiscoveryDone (depth : Fin 9) (s : State) : Host.Outcome State Fault Refusal := .next (s.discovered depth)

/-- TL_ALIGN_START: a write of TL_ALIGN_CTRL.START (R446). -/
def execTlAlignStart (s : State) : Host.Outcome State Fault Refusal := .next (s.hostStrobe .TL_ALIGN_CTRL [] 0 (fun s => s.alignStart))

/-- ALIGN_EXCHANGE_TIMER: the device above an up port begins an exchange, whose t1 is taken as the message's flit leaves (R445). -/
def execAlignExchangeTimer (p : Fin 4) (s : State) : Host.Outcome State Fault Refusal :=
  .next (if s.portUp p && s.isDown p then
    s.netSend p (.align ⟨none, none, none, none⟩ s.net.aligning (s.get F.TL_ALIGN_STAT_STATE == 3)) else s)

/-- ALIGN_SLEW_DONE: the slew at 1 ppm has brought the offset to `residual`, 1 tick or less, and the time that this takes has passed (R446). -/
def execAlignSlewDone (residual : Int) (s : State) : Host.Outcome State Fault Refusal :=
  let off := signedOf (s.get F.TL_ALIGN_STAT_OFFSET) 16
  if s.slews = true ∧ residual.natAbs ≤ 1 ∧ (off - residual).natAbs * 1000000 ≤ ((s.now : Int) - s.net.slewFrom).toNat then
    .next (((s.slewBy (off - residual)).set F.TL_ALIGN_STAT_STATE [] 3).set F.TL_ALIGN_STAT_OFFSET [] (State.sat16 residual))
  else .next s

/-- RACC_TIMEOUT: no answer to a remote access within 50 µs, 81,920,000 ticks (R442). -/
def execRaccTimeout (s : State) : Host.Outcome State Fault Refusal :=
  if s.get F.TL_RACC_STAT_BUSY = 1 ∧ 81920000 ≤ (s.now : Int) - s.net.raccAt then
    .next (((s.set F.TL_RACC_STAT_BUSY [] 0).set F.TL_RACC_STAT_STATUS [] Status.timeout.code).modNet (fun n => { n with
      ports := n.ports.map (fun (x : Port) => { x with asks := x.asks.map (fun (a : RaccAsk) => { a with live := a.live && !a.own }) }) }))
  else .next s

end Sys2Proof.Machine
end

