-- ==== Sys2Proof/Machine/Forward.lean ====
section
/-! DEFINITION. Forwarding of Gleaner regions to the host (R408, R409), and the Gleaner's own commands, after which forwarding goes on. -/

namespace Sys2Proof.Machine

namespace State

/-- Does the session forward region `r`? -/
def fwdOn (s : State) (k : Fin 16) (r : Nat) : Bool := bitOf (s.getK (Reg.key .DATA_CFG [k])).toNat r

/-- Units of 64 bytes of the data area. -/
def areaUnits (s : State) (k : Fin 16) : Nat := s.get F.DATA_SIZE_SIZE [k] * 64

/-- Units of the data area between software's read position and the part's write position. -/
def areaUsed (s : State) (k : Fin 16) : Nat :=
  let h := s.host[k]
  if h.dataLap == h.dataRdLap then h.dataWr - h.dataRd else s.areaUnits k - h.dataRd + h.dataWr

/-- Place a piece of `n` units in the data area: the units skipped before it, when it fits (R408). -/
def areaPlace (s : State) (k : Fin 16) (n : Nat) : Option Nat :=
  let a := s.areaUnits k
  let skip := if s.host[k].dataWr + n ≤ a then 0 else a - s.host[k].dataWr
  if n ≤ a ∧ s.areaUsed k + skip + n ≤ a then some skip else none

/-- Bytes of a capture entry, PHASE left 0 (R409). -/
def captureEntry (src epoch tag len host field tbc flags unit_ : Nat) : List Byte :=
  leBytes 1 src ++ (leBytes 1 epoch ++ (leBytes 2 tag ++ (leBytes 4 len ++ (leBytes 8 host ++ (leBytes 8 field ++
  (leBytes 6 tbc ++ (leBytes 2 flags ++ (leBytes 1 unit_ ++ leBytes 31 0))))))))

/-- The instance that a forwarded piece's messages carry: the one that wrote it, while it runs. Data that outlasts its instance is forwarded all the
same (R402, R408; DESIGN CHOICE, log 68). -/
def pieceInst (s : State) (k : Fin 16) (i : Option (Nat × Nat)) : Option (Nat × Nat) := if s.runInst k = i then i else none

/-- Write the capture entry of a piece of region `r`, with the tag of the instance that ran when the data was written (R409). -/
def announce (s : State) (k : Fin 16) (r : Fin 3) (len host field unit_ : Nat) (big stale : Bool) (i : Option (Nat × Nat)) : State :=
  let flags := s.gleaners[k].fwdLost[r].toNat + 2 * big.toNat + 4 * stale.toNat + 8 * i.isNone.toNat
  let e := captureEntry (r + 1) ((i.map (·.2)).getD 0) ((i.map (·.1)).getD 0) len host field s.now48 flags unit_
  (s.sendMsg k (.ringPost 2 e false (s.pieceInst k i))).modGl k (fun g => { g with fwdLost := g.fwdLost.set r false })

/-- Copy a piece into the data area and announce it (R408). -/
def sendPiece (s : State) (k : Fin 16) (r : Fin 3) (skip n field unit_ : Nat) (stale : Bool) (i : Option (Nat × Nat)) : State :=
  let a := s.areaUnits k
  let h := s.host[k]
  let start := if skip = 0 then h.dataWr else 0
  let lap := if skip = 0 then h.dataLap else !h.dataLap
  let bus := s.pair F.DATA_BASE_LO_BASE F.DATA_BASE_HI_BASE [k] + 64 * start
  let s := s.hostWrite k bus (memBytes s.ddr (s.viewPhys k field) (64 * n)) (s.pieceInst k i)
  let wrap := decide (start + n = a)
  let s := s.modHost k (fun h => { h with dataWr := if wrap then 0 else start + n, dataLap := if wrap then !lap else lap })
  s.announce k r (64 * n) bus field unit_ false stale i

/-- Advance what a region has forwarded by `n` units; a FILL region's read pointer follows, but not past a block that stays for DMA_READ (R408; log 68). -/
def fwdAdvance (s : State) (k : Fin 16) (r : Fin 3) (n : Nat) (endAt : RgnAlloc) : State :=
  let s := s.modGl k (fun g => { g with todo := g.todo.set r (g.todo[r] - n) })
  if s.rgnWrap k r || (s.gleaners[k].bigHeld && r == 1) then s
  else (s.set F.GL_RGN_RPTR_PTR [k, r] endAt.ptr).set F.GL_RGN_RPTR_LAP [k, r] endAt.lap.toNat

/-- Is a 32-byte record of the fail region stale (R258, R266)? -/
def recordStale (b : List Byte) : Bool :=
  match fieldAt b 31 1 with
  | 1 => bitOf (fieldAt b 6 2) 12
  | 2 => bitOf (fieldAt b 18 2) 0
  | _ => false

/-- Is a stamp-stream entry stale (R279, R290)? -/
def entryStale (e : Nat) : Bool := (e / 2 ^ 60 == 1 || e / 2 ^ 60 == 3) && bitOf e 58

/-- Does a piece of a region contain stale data (R409)? -/
def pieceStale (s : State) (k : Fin 16) (r : Fin 3) (field n : Nat) : Bool :=
  let p := s.viewPhys k field
  if r = 0 then (List.range (2 * n)).any (fun i => recordStale (memBytes s.ddr (p + 32 * i) 32))
  else (List.range (8 * n)).any (fun i => entryStale (leVal (memBytes s.ddr (p + 8 * i) 8)))

/-- Forward one piece of the fail or stamp region, if the rules let one go; `small` takes a piece below CHUNK, as does the end of the sequence that wrote it.
A piece holds the data of one instance (R408, R409, R457). -/
def forwardStream (s : State) (k : Fin 16) (r : Fin 3) (small : Bool) : Option State :=
  let size := s.rgnSize k r
  let w := s.wptr k r
  let over_ := s.rgnWrap k r && decide (size < s.gleaners[k].todo[r])
  let todo := if s.rgnWrap k r then min size s.gleaners[k].todo[r] else s.rgnUsed k r w
  let s := if over_ then s.modGl k (fun g => { g with fwdLost := g.fwdLost.set r true, todo := g.todo.set r size }) else s
  let chunk := s.get F.DATA_CFG_CHUNK [k] * 64
  let run := (runsTo todo s.gleaners[k].runs[r]).headD ⟨todo, none⟩
  if todo = 0 ∨ (run.units < chunk ∧ !small ∧ (run.inst = s.runInst k ∧ run.units = todo)) then none
  else
    let start := (w.ptr + size - todo) % size
    let n := min (min run.units chunk) (size - start)
    let field := s.rgnBase k r + 64 * start
    let startLap := if todo ≤ w.ptr then w.lap else !w.lap
    let e := ptrAdd size ⟨start, startLap⟩ n
    match s.areaPlace k n with
    | none => none
    | some skip =>
      if !s.ringRoom k 2 then none
      else
        let d := s.ddrRead (s.viewPhys k field) 0
        if d.2 then some ((d.1.modGl k (fun g => { g with fwdLost := g.fwdLost.set r true })).fwdAdvance k r n e)
        else some ((d.1.sendPiece k r skip n field 0 (s.pieceStale k r field n) run.inst).fwdAdvance k r n e)

/-- Forward the oldest finished capture block (R408, R457). -/
def forwardBlock (s : State) (k : Fin 16) : Option State :=
  match s.gleaners[k].done with
  | [] => none
  | b :: t =>
    let s := s.modGl k (fun g => { g with done := t })
    let lost := s.modGl k (fun g => { g with fwdLost := g.fwdLost.set 1 true })
    let e : RgnAlloc := ⟨b.endPtr, b.endLap⟩
    let avail := if s.rgnWrap k 1 then s.rgnSize k 1 else s.rgnUsed k 1 (s.wptr k 1)
    if avail < b.units + (t.map (·.units)).sum then some (if s.rgnWrap k 1 then lost else s)
    else if s.areaUnits k * 64 < b.len then
      if s.ringRoom k 2 then
        some (((s.announce k 1 0 0 b.addr b.unit_ true b.stale b.inst).modGl k (fun g => { g with bigHeld := !s.rgnWrap k 1 })).fwdAdvance k 1 b.units e)
      else none
    else match s.areaPlace k (b.len / 64) with
      | none => none
      | some skip =>
        if !s.ringRoom k 2 then none
        else
          let d := s.ddrRead (s.viewPhys k b.addr) 0
          if d.2 then some ((d.1.modGl k (fun g => { g with fwdLost := g.fwdLost.set 1 true })).fwdAdvance k 1 b.units e)
          else some ((d.1.sendPiece k 1 skip (b.len / 64) b.addr b.unit_ b.stale b.inst).fwdAdvance k 1 b.units e)

/-- Forward what a region has ready, piece by piece, while the Stile is up (R408). -/
def forward (s : State) (k : Fin 16) (r : Fin 3) (small : Bool) : Nat → State
  | 0 => s
  | n + 1 =>
    if !s.fwdOn k r || !s.fieldUp || s.rgnSize k r == 0 then s
    else match (if r = 1 then s.forwardBlock k else s.forwardStream k r small) with
      | some s' => s'.forward k r small n
      | none => s

/-- Forward every region of a session. -/
def forwardAll (s : State) (k : Fin 16) (small : Bool) : State :=
  [0, 1, 2].foldl (fun (s : State) (r : Fin 3) => s.forward k r small (s.rgnSize k r + 1)) s

end State

/-- GLEANER_WRITE_DONE: a Gleaner write of a session's region is in DDR4 and its write pointer advances (R256): fail region, the next violation
or fail record (R258, R266); capture region, the words of slice `src`, or with `src` 12 and up the formed headers; stamp region, the next
stamp of input `src` when its turn has come, or with `src` 112 and up the next result of unit `src` − 112. -/
def execGleanerWriteDone (k : Fin 16) (r : Fin 3) (src : Fin 128) (s : State) : Host.Outcome State Fault Refusal :=
  let s := match r with
    | 0 =>
      match s.gleaners[k].viols with
      | v :: t => (s.modGl k (fun g => { g with viols := t })).forInst k v.2 (fun s => s.failRecord k v.1)
      | [] => s.formFail k
    | 1 => if h : src.val < 12 then s.drainCaps ⟨src, h⟩ else s.writeHeaders k s.gleaners[k].blocks.length
    | 2 =>
      if h : src.val < 112 then (if (s.ownerInput src = some k ∨ s.ownerInput src = none) ∧ s.stampTurn ⟨src, h⟩ then
          ({ s with drained := src.val }).drainStamp k ⟨src, h⟩ else s)
      else (if s.ownerMu (src - 112) = some k then s.drainResult k (Fin.ofNat 16 (src - 112)) else s)
  .next (s.forwardAll k false)

/-- FAIL_UNIT_TIMEOUT: the open unit is written with an empty second half (R511). -/
def execFailUnitTimeout (k : Fin 16) (s : State) : Host.Outcome State Fault Refusal := .next ((s.closeUnit k (leBytes 32 0)).forwardAll k false)

/-- STAMP_LINE_FLUSH: a partly filled stamp line is padded and written (R281). -/
def execStampLineFlush (k : Fin 16) (s : State) : Host.Outcome State Fault Refusal := .next ((s.writeLine k).forwardAll k false)

/-- FORWARD_PIECE_TIMER: 100 µs after the oldest line of a smaller piece was written the piece is forwarded (R408). -/
def execForwardPieceTimer (k : Fin 16) (r : Fin 3) (s : State) : Host.Outcome State Fault Refusal :=
  .next (s.forward k r true (s.rgnSize k r + 1))

end Sys2Proof.Machine
end

