-- ==== Sys2Proof/Machine/Sessions.lean ====
section
/-! DEFINITION. Sessions, sequences and the shot service (spec/14_sessions_shots.md): the start and the completion of a sequence, bursts, shots,
tallies, the result block, aborts and teardowns. -/

namespace Sys2Proof.Machine

namespace State

/-! ### Start of a sequence (R149, R234, R240, R268) -/

/-- A unit begins a sequence: its vector index and slip counts start anew (R234, R235, R240). -/
def unitSeqStart (s : State) (u : PlayUnit) (k : Fin 16) : State :=
  let i := [u.num]
  let s := s.set (unitFld u F.VS_SL_SLIP_SLIP_SLOTS F.AO_SLIP_SLIP_SLOTS) i 0
  let s := s.set (unitFld u F.VS_SL_SLIPT_LO_SLIP_TICKS F.AO_SLIPT_LO_SLIP_TICKS) i 0
  let s := s.set (unitFld u F.VS_SL_SLIPT_HI_SLIP_TICKS F.AO_SLIPT_HI_SLIP_TICKS) i 0
  s.modFeed u (fun f => { f with vecIdx := none, sess := k })

/-- The units a session owns. -/
def unitsOf (s : State) (k : Fin 16) : List PlayUnit :=
  playUnits.filter (fun u => match u with
    | .slice n => s.ownsSlice k n
    | .out o => s.ownsAo k o)

/-- A sequence of session `k` is to run from `entry`; the session waits for a core (R149, R363). -/
def seqBegin (s : State) (k : Fin 16) (entry addr : Nat) (shot : Bool) : State :=
  let s := ((s.unitsOf k).foldl (fun s u => s.unitSeqStart u k) s).glSeqStart k
  let t := s.now
  s.modSess k (fun x => { x with
    seq := some ⟨entry, shot, false, 0, false, none, false, 0, 0⟩
    saved := some ⟨addr, [], 0, 0, 0, false, false, false, false, 0⟩
    waitSince := some t
    onCore := false
    pages := x.pages.filter (fun p => !p.late)
    held := x.held.filter (fun h => decide (h.2 ≤ 3)) })

/-- Address of an entry point of the live table. -/
def entryAddr (s : State) (k : Fin 16) (n : Nat) : Option Nat := smGet none s.sess[k].entries n

/-! ### End of a sequence (R20, R148, R251, R281, R348, R511) -/

/-- Has every segment that the session's sequence issued ended (R148)? -/
def unitsQuiet (s : State) (k : Fin 16) : Bool :=
  (s.unitsOf k).all (fun u => let f := s.feed u; f.play.isNone && (queueSegs f.queue).isEmpty)

/-- Was a DEGRADED unit used by the sequence (R20, R348)? -/
def usedDegraded (s : State) (k : Fin 16) : Bool :=
  (s.calUnitsOf k).any (fun c => s.get F.CAL_UNIT_STAT_DEGRADED [c] == 1 &&
    (if h : c < 12 then (s.slices[c].feed.vecIdx).isSome
      else if h : 16 ≤ c ∧ c < 32 then (s.aos[c - 16].feed.vecIdx).isSome else true))

/-- The session's trigger units return to IDLE at the end of its sequence; the lead's header may wait for the next shot (R251, R372). -/
def stopSessTriggers (s : State) (k : Fin 16) (next : Bool) : State :=
  s.overTriggers (fun u s => if s.ownsTg k u then s.stopTrigger u (next && s.leadWaits u) else s)

/-- SWAP: the staged entry table becomes live (R465). -/
def doSwap (s : State) (k : Fin 16) : State :=
  let s := s.modSess k (fun x => { x with entries := x.staged.getD x.entries, swapWait := false })
  s.set F.FLT_CS_SWAP_PENDING [k] 0

/-- A swap that waited takes place once no sequence or burst of the session runs (R465). -/
def swapIfDue (s : State) (k : Fin 16) : State :=
  if s.sess[k].swapWait && s.sess[k].seq.isNone && s.sess[k].burst.isNone then s.doSwap k else s

/-- Post the completion of the session's START or SHOT: `cond` with the conditions that its instance has met (R397–R399). -/
def completeRun (s : State) (k : Fin 16) (opcode : Nat) (st : Status) (cond flags detail d1 : Nat) : State :=
  let x := s.sess[k]
  let cond := cond ||| x.cond
  let d0 := if bitOf cond Cond.underrun || bitOf cond Cond.wallUnderrun then detail else 0
  let s := s.complete k x.tag x.epoch opcode st cond flags (worseQ x.worstQ s.quality) d0 d1
  s.modSess k (fun x => { x with hasTag := false })

/-- What every sequence's end does before its status is reported: flags, trigger units, calibrations that wait, the Gleaner's open work. -/
def seqClose (s : State) (k : Fin 16) (next : Bool) : State :=
  let s := if s.usedDegraded k then s.seqCond k Cond.degraded else s
  let s := s.stopSessTriggers k next
  (s.glSeqEnd k).forwardAll k true

/-! ### Bursts (R366–R381) -/

/-- An empty histogram. -/
def noHist : Hist := ⟨[], 0, 0, 0, 0, 0, 0, 0, 0, 0⟩

/-- An empty tally. -/
def noTally : Tally := ⟨.ok, 0, false, 0, 0, 0, 0, 0, 0, none, none, 0, 0, 0, 0, false, Vector.replicate 16 0, 0, 0⟩

/-- Bytes of a histogram section (R379). -/
def histBytes (s : State) (k : Fin 16) (h : Fin 4) : List Byte :=
  let x := s.sess[k].hists[h]
  let bins := s.act F.RM_HIST_CFG_BINS [k, h]
  let base := signedOf (s.act F.RM_HIST_BASE_LO_BASE [k, h] + 2 ^ 32 * s.act F.RM_HIST_BASE_HI_BASE [k, h]) 48
  let pat (w : Nat) (v : Int) := leBytes w (patternOf v (8 * w))
  leBytes 1 h ++ (leBytes 1 (s.act F.RM_HIST_CFG_MU [k, h]) ++ (leBytes 2 bins ++ (leBytes 1 (s.act F.RM_HIST_CFG_SHIFT [k, h]) ++
  (leBytes 3 0 ++ (pat 8 base ++ (leBytes 8 x.count ++ (leBytes 4 x.below ++ (leBytes 4 x.above ++ (leBytes 4 x.empty ++
  (leBytes 4 x.stale ++ (pat 8 x.sum ++ (pat 6 (if x.count = 0 then 0 else x.lo) ++ (pat 6 (if x.count = 0 then 0 else x.hi) ++
  (leBytes 4 x.loss ++ ((List.range bins).flatMap (fun i => leBytes 4 (smGet 0 x.bins i)) ++
  leBytes ((64 - 4 * bins % 64) % 64) 0)))))))))))))))

/-- Bytes of a histogram section with its padding (R379). -/
def histSize (s : State) (k h : Nat) : Nat := 64 + (4 * s.act F.RM_HIST_CFG_BINS [k, h] + 63) / 64 * 64

/-- Histograms of a mask, in ascending order. -/
def maskHists (m : Nat) : List (Fin 4) := (List.finRange 4).filter (fun h => bitOf m h)

/-- Offset of the shot log in a result block (R380). -/
def logOffset (s : State) (k m : Nat) : Nat := 192 + ((maskHists m).map (fun (h : Fin 4) => s.histSize k h)).sum

/-- The fixed part of the result block (R378). -/
def resultBytes (s : State) (k : Fin 16) (b : Burst) : List Byte :=
  let x := s.sess[k]
  let y := x.tally
  let sat (v : Nat) : Nat := min v (2 ^ 32 - 1)
  let flags := (decide (b.shots < b.burst)).toNat + 2 * y.logTrunc.toNat + 4 * y.stale.toNat + 8 * worseQ y.worstQ x.worstQ
  leBytes 1 4 ++ (leBytes 1 y.status.code ++ (leBytes 2 flags ++ (leBytes 2 x.tag ++ (leBytes 1 x.epoch ++ (leBytes 1 b.histMask ++
  (leBytes 8 b.burst ++ (leBytes 8 b.shots ++ (leBytes 4 (sat y.nDegraded) ++ (leBytes 4 (sat y.nViol) ++ (leBytes 4 (sat y.nUnderrun) ++
  (leBytes 4 (sat y.nTimeout) ++ (leBytes 6 b.firstS ++ (leBytes 2 0 ++ (leBytes 6 y.lastTbc ++ (leBytes 2 0 ++
  (leBytes 6 (y.deadMin.getD (2 ^ 48 - 1)) ++ (leBytes 2 0 ++ (leBytes 6 (y.deadMax.getD (2 ^ 48 - 1)) ++ (leBytes 2 0 ++
  (leBytes 8 y.deadSum ++ (leBytes 4 (sat y.ignored) ++ (leBytes 4 (sat y.late) ++ (leBytes 4 (sat y.logCount) ++ (leBytes 4 0 ++
  (y.viol.toList.flatMap (leBytes 4) ++ leBytes 32 0)))))))))))))))))))))))))

/-- Write the result block: the fixed part and the histogram sections (R378, R379). -/
def writeResult (s : State) (k : Fin 16) (b : Burst) : State :=
  let inst := some (s.sess[k].tag, s.sess[k].epoch)
  let s := s.hostWrite k b.resultAddr (s.resultBytes k b) inst
  ((maskHists b.histMask).foldl (fun (p : State × Nat) h =>
    (p.1.hostWrite k (b.resultAddr + p.2) (p.1.histBytes k h) inst, p.2 + p.1.histSize k h)) (s, 192)).1

/-- The burst ends: the lead's waiting header is written, then the result block, then the completion (R251, R375, R378, R381). -/
def endBurst (s : State) (k : Fin 16) (block : Bool) : State :=
  match s.sess[k].burst with
  | none => s
  | some b =>
    let lead : Fin 8 := Fin.ofNat 8 b.lead
    let s := s.noteWait k
    let s := if bitOf b.tgMask b.lead && s.ownsTg k b.lead && s.tgState lead == 0 then s.giveHeader lead none else s
    let s := if block then s.writeResult k b else s
    let y := s.sess[k].tally
    let s := s.completeRun k 0x0B y.status y.cond y.flagsF y.detail b.shots
    (s.modSess k (fun x => { x with burst := none })).swapIfDue k

/-- The SHOT command begins its burst (R366, R376, R382). -/
def beginBurst (s : State) (k : Fin 16) (b : Burst) : State :=
  let s := s.modSess k (fun x => { x with
    burst := some { b with sTick := s.now }, tally := noTally,
    hists := Vector.ofFn (fun h : Fin 4 => if bitOf b.histMask h then noHist else x.hists[h]) })
  let s := s.set F.RM_SESS_SHOTS_SHOTS [k] 0
  if b.burst = 0 then s.endBurst k true else s

/-- A shot has its status, and its tally runs until SHOT_TALLY_CLOSE (R368, R371, R374). -/
def shotDone (s : State) (k : Fin 16) (st : Status) : State :=
  let t := s.now
  s.modBurst k (fun b => { b with phase := 5, done := some t, shotStatus := st })

/-- A shot that ends without its sequence (R370, R375). -/
def shotCut (s : State) (k : Fin 16) (st : Status) (cond : Nat) : State :=
  let s := (s.noteWait k).shotDone k st
  let s := s.modTally k (fun y => { y with cond := withBit y.cond cond })
  s.stopSessTriggers k ((s.sess[k].burst.map burstGoes).getD false)

/-- A shot record (R380): its first 16 bytes. -/
def shotRecord (b : Burst) (noDead : Bool) : List Byte :=
  let flags := (decide (b.shotViol ≠ 0)).toNat + 2 * b.shotStale.toNat + 4 * b.shotQ + 16 * noDead.toNat
  leBytes 4 (b.shots - 1) ++ (leBytes 1 b.shotStatus.code ++ (leBytes 1 flags ++ (leBytes 2 (min b.shotViol 65535) ++
  (leBytes 6 (b.leadAt.getD b.sTick) ++ leBytes 2 0))))

/-- Has the burst a lead unit in its mask (R372)? -/
def hasLead (b : Burst) : Bool := bitOf b.tgMask b.lead

/-- The tally of the shot closes (R371–R374, R378, R380). -/
def tallyClose (s : State) (k : Fin 16) (b : Burst) : State :=
  let goes := burstGoes b
  let st := b.shotStatus
  let s := s.modTally k (fun y => { y with
    status := y.status.worse st
    stale := y.stale || b.shotStale
    worstQ := worseQ y.worstQ b.shotQ
    nDegraded := if st = .degraded then sat32 y.nDegraded else y.nDegraded
    nUnderrun := if st = .underrun then sat32 y.nUnderrun else y.nUnderrun
    nTimeout := if st = .timeout then sat32 y.nTimeout else y.nTimeout
    nViol := if b.shotViol = 0 then y.nViol else sat32 y.nViol
    lastTbc := (b.done.getD 0 + 409600) % 2 ^ 48 })
  let from_ := if goes then (if hasLead b then b.leadAt else b.done) else none
  let a := s.logOffset k b.histMask + 32 * s.sess[k].tally.logCount
  let s := s.modBurst k (fun b => { b with phase := 6, deadFrom := from_, deadRec := none })
  let s := if !bitOf b.flags 3 then s
    else if s.sess[k].tally.logTrunc || decide (b.resultSize < a + 32) then s.modTally k (fun y => { y with logTrunc := true })
    else
      let s := s.hostWrite k (b.resultAddr + a) (shotRecord b true ++ leBytes 16 0) (some (s.sess[k].tag, s.sess[k].epoch))
      let s := s.modTally k (fun y => { y with logCount := sat32 y.logCount })
      if from_.isSome then s.modBurst k (fun c => { c with deadRec := some (b.resultAddr + a, shotRecord b false) }) else s
  if goes then s else s.endBurst k true

/-! ### Completion of a sequence -/

/-- The session's sequence completes (R20, R148, R251, R381). -/
def seqComplete (s : State) (k : Fin 16) (q0 : SeqRun) : State :=
  let s := if q0.shot then
      let s := s.modBurst k (fun b => { b with shotStatus := endStatus q0.cond q0.under })
      s.seqClose k ((s.sess[k].burst.map burstGoes).getD false)
    else s.seqClose k false
  match s.sess[k].seq with
  | none => s
  | some q =>
    let st := endStatus q.cond q.under
    let s := s.modSess k (fun x => { x with seq := none })
    if q.shot then
      let s := s.modTally k (fun y => { y with
        cond := y.cond ||| q.cond, flagsF := q.flagsF, detail := if q.detail = 0 then y.detail else q.detail })
      s.shotDone k st
    else (s.completeRun k 0x0A st q.cond q.flagsF q.detail (s.get F.GL_FAILS_FAILS [k])).swapIfDue k

/-! ### Abort and teardown (R157, R360, R361, R375, R405) -/

/-- The tally of a burst that is aborted; a shot whose tally has not closed adds its own status (R20). -/
def tallyAbort (s : State) (k : Fin 16) (shot : Status) : State :=
  s.modTally k (fun y => { y with cond := withBit y.cond Cond.aborted, status := (y.status.worse .aborted).worse shot })

/-- End the session's running sequence or burst with ABORTED (R157, R375, R403). -/
def abortSess (s : State) (k : Fin 16) : State :=
  if s.sess[k].seq.isSome then
    match s.coreOf k with
    | some c =>
      if s.cores[c].span.isSome && s.cores[c].st == .running then
        (s.count F.SQ_CNT_DEFERRED [c]).modCore c (fun r => { r with abortReq := true })
      else s.endSeq k .aborted
    | none => s.endSeq k .aborted
  else
    match s.sess[k].burst with
    | none => s
    | some b =>
      if b.phase = 0 ∨ b.phase = 6 then (s.tallyAbort k .ok).endBurst k true
      else if b.phase = 5 then
        let s := s.modTally k (fun y => { y with cond := withBit y.cond Cond.aborted })
        (s.modBurst k (fun b => { b with shotStatus := b.shotStatus.worse .aborted })).stopSessTriggers k false
      else s.shotCut k .aborted Cond.aborted

/-- Registers of a session that a teardown clears (R360). -/
def ownRegs : List Reg := [.RM_OWN_UNITS, .RM_OWN_IO, .RM_OWN_MEAS, .RM_OWN_CS, .RM_MEM_BASE, .RM_MEM_SIZE, .RM_SESS_CFG]

/-- The held command completes with ABORTED without having begun; the go latch clears (R403, R405). -/
def dropHeld (s : State) (k : Fin 16) : State :=
  let s := if s.host[k].held then
      match s.host[k].queue with
      | [] => s
      | c :: t =>
        (s.modHost k (fun h => { h with queue := t })).complete k c.tag c.epoch (fieldAt c.bytes 0 1) .aborted 0 0 s.quality 0 0
    else s
  s.modHost k (fun h => { h with held := false, goLatch := none })

/-- Steps 1 to 5 of R360; `zero` scrubs the session's view first (R361). -/
def teardownSteps (s : State) (k : Fin 16) (zero : Bool) : State :=
  let s := s.modSess k (fun x => { x with tearWait := false })
  let s := if s.sess[k].seq.isSome then s.endSeq k .aborted else s
  let s := match s.sess[k].seq with
    | some q => s.seqComplete k q
    | none => s
  let s := match s.sess[k].burst with
    | some b => (s.tallyAbort k (if b.phase = 5 then b.shotStatus else .ok)).endBurst k false
    | none => s
  let s := s.discardPends (fun p => s.pendOf k p)
  let s := s.stopSessTriggers k false
  let s := if zero then { s with ddr := memZero s.ddr (s.viewPhys k 0) (s.viewSize k) } else s
  let s := { s with cs := { s.cs with words := s.cs.words.filter (fun p => !s.ownsRegion k (p.1 / 1024)) } }
  let s := s.overSlices (fun n s => if s.ownsSlice k n then (s.modFeed (.slice n) Feed.clear).calSliceBoundary n else s)
  let s := s.modSess k (fun x => { x with torn := ownRegs.map (fun r => (r.key [k], s.activeK (r.key [k]))) })
  let s := ownRegs.foldl (fun s r => (s.putShadow (r.key [k]) (resetVal (r.key [k]))).putActive (r.key [k]) (resetVal (r.key [k]))) s
  let s := s.modSess k (fun x => { x with entries := [], staged := none, swapWait := false, xlates := [], pages := [], held := [] })
  let s := (s.set F.FLT_CS_SWAP_PENDING [k] 0).set F.FLT_CS_STAGE_STAGE [k] 0
  (s.dropHeld k).modHost k (fun h => { h with epochs := [] })

/-- Is the session's core inside a span that runs on to its commit, so that an abort is deferred (R151, R157)? -/
def inSpan (s : State) (k : Fin 16) : Bool :=
  match s.coreOf k with
  | some c => s.sess[k].seq.isSome && s.cores[c].span.isSome && s.cores[c].st == .running
  | none => false

/-- A teardown: its abort is deferred by a running span, and its steps then follow the span commit (R151, R157, R360). -/
def teardown (s : State) (k : Fin 16) (zero : Bool) : State :=
  let s := s.modSess k (fun x => { x with tearing := true, scrub := zero })
  if s.inSpan k then (s.abortSess k).modSess k (fun x => { x with tearWait := true }) else s.teardownSteps k zero

/-- A teardown that waited goes on when the span's words have run, also where its commit stalls then (DESIGN CHOICE, log 79). -/
def restTear (s : State) (k : Fin 16) : State :=
  if s.sess[k].tearWait && !s.inSpan k then s.teardownSteps k s.sess[k].scrub else s

/-- Every teardown that waited for a span goes on. -/
def restTears (s : State) : State := s.overSess (fun k s => s.restTear k)

/-! ### When a shot may start and when its tally closes (R368, R371, R373) -/

/-- Is a core free that the session, as the first of those that wait, may take (R363, R373)? -/
def coreFor (s : State) (k : Fin 16) : Bool :=
  (List.finRange 4).any (fun c => s.cores[c].st == .idle && s.coreIn c && s.nextFor c == some k)

/-- May the next shot of the burst start at event-clock edge `t`: the first one, or one whose spacing has passed and whose predecessor's tally has closed,
with a core free (R373)? -/
def shotMayStart (s : State) (k : Fin 16) (b : Burst) (t : Nat) : Bool :=
  decide (b.shots < b.burst) && (b.phase == 0 || (b.phase == 6 && decide (b.sTick + b.spacing ≤ t))) && s.coreFor k

/-- Instant at which the tally of a shot closes (R371). -/
def tallyEnd (b : Burst) : Nat := b.done.getD 0 + 409600

end State

/-- SEQUENCE_COMPLETE: the core has fetched its last word and every segment issued has ended (R148). -/
def execSequenceComplete (k : Fin 16) (s : State) : Host.Outcome State Fault Refusal :=
  match s.sess[k].seq with
  | some q => .next (if q.ended && s.unitsQuiet k then s.seqComplete k q else s)
  | none => .next s

/-- SHOT_START: a shot starts at S, the present event-clock edge (R368, R372, R373). -/
def execShotStart (k : Fin 16) (s : State) : Host.Outcome State Fault Refusal :=
  match s.sess[k].burst with
  | none => .next s
  | some b =>
    let t := s.edgeNow
    if s.shotMayStart k b t then
      let s := s.noteWait k
      let s := if State.hasLead b then s else s.burstDead k t
      let s := s.overTriggers (fun u s => if bitOf b.tgMask u then s.stopTrigger u (s.leadWaits u) else s)
      let q := s.quality
      let s := s.modBurst k (fun b => { b with
        shots := b.shots + 1, sTick := t, firstS := if b.shots = 0 then t else b.firstS, phase := 2,
        leadAt := none, done := none, shotStatus := .ok, shotViol := 0, shotStale := false, shotQ := q })
      let s := s.set F.RM_SESS_SHOTS_SHOTS [k] (min (b.shots + 1) (2 ^ 32 - 1))
      let s := s.overTriggers (fun u s => if bitOf b.tgMask u then s.armNow u t else s)
      .next (if b.onTrigger && b.trigTo == 0 then s.shotCut k .timeout Cond.timeout else s)
    else .next s

/-- SHOT_TRIGGER_TIMEOUT: TRIG_TO µs have passed from S without a lead trigger (R370). -/
def execShotTriggerTimeout (k : Fin 16) (s : State) : Host.Outcome State Fault Refusal :=
  match s.sess[k].burst with
  | some b =>
    .next (if b.onTrigger && b.leadAt.isNone && b.phase == 2 && b.trigTo != 2 ^ 32 - 1 && decide (b.sTick + b.trigTo * ticksPerUs ≤ s.now)
      then s.shotCut k .timeout Cond.timeout else s)
  | none => .next s

/-- SHOT_SEQUENCE_START: the shot's sequence starts from ENTRY (R149, R369); an entry point that is gone ends the shot with FAULT (log 24). -/
def execShotSequenceStart (k : Fin 16) (s : State) : Host.Outcome State Fault Refusal :=
  match s.sess[k].burst with
  | some b =>
    if b.phase = 2 ∧ (b.onTrigger = true → b.leadAt.isSome) ∧ s.sess[k].seq = none then
      match s.entryAddr k b.entry with
      | some a => .next ((s.modBurst k (fun b => { b with phase := 4 })).seqBegin k b.entry a true)
      | none => .next (s.shotCut k .fault Cond.fault)
    else .next s
  | none => .next s

/-- SHOT_TALLY_CLOSE: 250 ns after the sequence the tally closes; the burst goes on or ends (R371–R374, R378–R381, R458). -/
def execShotTallyClose (k : Fin 16) (s : State) : Host.Outcome State Fault Refusal :=
  match s.sess[k].burst with
  | none => .next s
  | some b =>
    if b.phase = 5 ∧ State.tallyEnd b ≤ s.now then
      let s := s.sramCe 0x31 (some k)
      let ue := s.takeInject 4 0x31
      let s := if ue.1 then (ue.2.detect 4 0x31 .unit true (some k)).modTally k (fun y => { y with cond := withBit y.cond Cond.fault }) else ue.2
      .next (s.tallyClose k (if ue.1 then { b with shotStatus := .fault } else b))
    else .next s

/-- SESSION_ABORT: a write of RM_SESS_CTRL.ABORT (R157, R375). -/
def execSessionAbort (k : Fin 16) (s : State) : Host.Outcome State Fault Refusal := 
  .next (s.hostStrobe .RM_SESS_CTRL [k] 2 (fun s => s.abortSess k))

/-- TEARDOWN: a write of RM_SESS_CTRL.TEARDOWN (R360). -/
def execTeardown (k : Fin 16) (s : State) : Host.Outcome State Fault Refusal := 
  .next (s.hostStrobe .RM_SESS_CTRL [k] 0 (fun s => s.teardown k false))

/-- TEARDOWN_SCRUB: a write of TEARDOWN with SCRUB (R361). -/
def execTeardownScrub (k : Fin 16) (s : State) : Host.Outcome State Fault Refusal := 
  .next (s.toField (.barWr (Reg.key .RM_SESS_CTRL [k]) 3) (fun s => s.teardown k true))

/-- TEARDOWN_DONE: the steps, and any scrub, are complete (R360, R361). -/
def execTeardownDone (k : Fin 16) (s : State) : Host.Outcome State Fault Refusal :=
  let s := s.restTear k
  .next (if s.sess[k].tearWait then s else s.modSess k (fun x => { x with tearing := false, scrub := false, torn := [] }))

end Sys2Proof.Machine
end

