-- ==== Sys2Proof/Machine/Spare.lean ====
section
/-! DEFINITION. The spare generator of a slice (R121–R123, R462): swaps to TG8, restores, and the timing-generator self-check. -/

namespace Sys2Proof.Machine

namespace State

/-- CH_SPARE_STATUS.BUSY: a swap or a restore is in progress. -/
def spareBusy (s : State) (n : Fin 12) : Bool := s.get F.CH_SPARE_STATUS_BUSY [n] == 1

/-- TG8 stands in for a lane. -/
def spareUsed (s : State) (n : Fin 12) : Bool := s.get F.CH_SPARE_STATUS_IN_USE [n] == 1

/-- TG8 of the slice is marked bad (R462). -/
def tg8Bad (s : State) (n : Fin 12) : Bool := s.get F.FLT_SC_STAT_TG8_BAD [n] == 1

/-- A lane is held: its ball keeps the level and enable of this instant (R118 rank 4, R121 step 1). -/
def holdLane (l : Lane) (t : Nat) : Lane :=
  let x := { laneMask l with held := true, vec := some (laneVec l) }
  if l.safe = .none then { laneSettle x t with vec := x.vec } else x

/-- A swap to TG8, or with `restore` a return to the lane's own generator, begins (R121, R123, R349). -/
def spareStart (s : State) (n : Fin 12) (l : Fin 8) (restore : Bool) : State :=
  let t := s.now
  let s := (s.calAbandon ⟨n, by omega⟩).set F.CH_SPARE_STATUS_BUSY [n] 1
  let s := s.modSlice n (fun x => { x with swap := some ⟨l, restore, 1, t⟩ })
  (s.modLane n l (fun x => holdLane x t)).strobeSync n

/-- The slice's swap or restore is over. -/
def spareOver (s : State) (n : Fin 12) : State :=
  (s.modSlice n (fun x => { x with swap := none })).set F.CH_SPARE_STATUS_BUSY [n] 0

/-- A failing lane that TG8 cannot serve takes its fault action, and every sequence that uses the slice ends with FAULT (R122). -/
def laneFault (s : State) (n : Fin 12) (l : Fin 8) : State :=
  let t := s.now
  let a := s.act F.CH_SAFE_FAULT_ACT [n, l]
  let s := ((s.safeLane n l t a .fault).modLane n l (fun x => { x with held := false })).strobeSync n
  match s.ownerSlice n with
  | some k => if s.sess[k].seq.isSome then s.hardFaultSess k else s
  | none => s

/-- The ball of a lane that is no longer held: the fault state, the reflex, or the vector's course (R118, R121). -/
def releaseLane (s : State) (n : Fin 12) (l : Fin 8) : State :=
  let x := s.slices[n].lanes[l]
  if x.safe ≠ .none then s.modLane n l (fun x => { x with held := false, vec := if x.forced then x.vec else none })
  else if x.forced then ((s.modLane n l (fun x => { x with held := false })).driveAlt n l).strobeSync n
  else (s.modLane n l (fun x => { laneReturn (laneMask x) s.now with held := false })).strobeSync n

/-- The next stage of a slice's swap, from `stage` on (R121). -/
def spareStep (s : State) (n : Fin 12) (stage : Nat) : State :=
  match s.slices[n].swap with
  | some w => if w.stage = stage then s.modSlice n (fun x => { x with swap := some { w with stage := stage + 1 } }) else s
  | none => s

/-- LAST_GAP of an interruption in whole ns (R7, R124). -/
def gapNs (t : Nat) : Nat := min (10 * t / 16384) 65535

end State

/-- CH_SPARE_CTRL.FORCE swaps lane LANE to TG8, or is refused, or is ignored while BUSY (R123). -/
def State.spareForce (s : State) (n : Fin 12) (l : Fin 8) : State :=
  let s := s.set F.CH_SPARE_CTRL_LANE [n] l
  if s.spareBusy n then s
  else if s.spareUsed n || s.tg8Bad n then s.raise F.CH_SPARE_STATUS_FORCE_REFUSED [n]
  else s.spareStart n l false

/-- SPARE_FORCE: a write of CH_SPARE_CTRL.FORCE (R123, R426). -/
def execSpareForce (n : Fin 12) (l : Fin 8) (s : State) : Host.Outcome State Fault Refusal :=
  .next (s.toField (.barWr (Reg.key .CH_SPARE_CTRL [n]) (BitVec.ofNat 32 (l + 8))) (fun s => s.spareForce n l))

/-- CH_SPARE_CTRL.RESTORE returns lane LANE to its own generator on an idle slice when that generator first passes its self-check, whose worst
edge measures `err` ticks from its placement; else it is refused; it is ignored while BUSY (R123, R462, R466). -/
def State.spareRestore (s : State) (n : Fin 12) (l : Fin 8) (err : Int) : State :=
  let s := s.set F.CH_SPARE_CTRL_LANE [n] l
  if s.spareBusy n then s
  else if s.spareUsed n ∧ s.get F.CH_SPARE_STATUS_LANE [n] = l ∧ s.sliceBusy n = false then
    let inj := s.takeInject 0x15 (16 * n + l)
    let e := if inj.1 then err + 256 else err
    if e.natAbs ≤ s.get F.FLT_SC_CFG_TOL then inj.2.spareStart n l true else inj.2.raise F.CH_SPARE_STATUS_RESTORE_REFUSED [n]
  else s.raise F.CH_SPARE_STATUS_RESTORE_REFUSED [n]

/-- SPARE_RESTORE: a write of CH_SPARE_CTRL.RESTORE (R123, R426). -/
def execSpareRestore (n : Fin 12) (l : Fin 8) (err : Int) (s : State) : Host.Outcome State Fault Refusal :=
  .next (s.toField (.barWr (Reg.key .CH_SPARE_CTRL [n]) (BitVec.ofNat 32 (l + 16))) (fun s => s.spareRestore n l err))

/-- SPARE_TG8_CONNECTED: the generator that takes over is connected and its trim set is loaded (R121 step 2). -/
def execSpareTg8Connected (n : Fin 12) (s : State) : Host.Outcome State Fault Refusal := .next (s.spareStep n 1)

/-- SPARE_TRIMS_SETTLED: the trims have settled (R121 step 3). -/
def execSpareTrimsSettled (n : Fin 12) (s : State) : Host.Outcome State Fault Refusal := .next (s.spareStep n 2)

/-- SPARE_LOOPBACK_CHECK: the test edges pass, or the lane takes its fault action (R121 step 4, R122). -/
def execSpareLoopbackCheck (n : Fin 12) (pass : Bool) (s : State) : Host.Outcome State Fault Refusal :=
  match s.slices[n].swap with
  | some w => if w.stage = 3 then (if pass then .next (s.spareStep n 3) else .next ((s.spareOver n).laneFault n w.lane)) else .next s
  | none => .next s

/-- SPARE_TAKEOVER: at an MCLK boundary the generator takes over the ball (R121 step 5, R123, R315). -/
def execSpareTakeover (n : Fin 12) (s : State) : Host.Outcome State Fault Refusal :=
  match s.slices[n].swap with
  | some w =>
    if w.stage = 4 then
      let s := (s.spareOver n).set F.CH_SPARE_STATUS_IN_USE [n] (!w.restore).toNat
      let s := (s.set F.CH_SPARE_STATUS_LANE [n] w.lane).set F.CH_SPARE_STATUS_LAST_GAP [n] (State.gapNs (s.now - w.start))
      let failed := s.get F.CH_SPARE_STATUS_FAILED [n]
      let s := if w.restore ∧ bitOf failed w.lane then s.set F.CH_SPARE_STATUS_FAILED [n] (failed - 2 ^ w.lane.val) else s
      .next ((s.releaseLane n w.lane).defer 1 (.slPulse n 18))
    else .next s
  | none => .next s

namespace State

/-- Does TG8 stand in for a lane, or is a swap for that lane in progress? -/
def spareServes (s : State) (n : Fin 12) (g : Nat) : Bool :=
  (s.spareUsed n && s.get F.CH_SPARE_STATUS_LANE [n] == g) ||
  (match s.slices[n].swap with
    | some w => w.lane.val == g
    | none => false)

/-- The third consecutive failed check of a generator (R121, R122, R462). -/
def tgDetect (s : State) (n : Fin 12) (g : Fin 9) (injected : Bool) : State :=
  let note (c : Resp) : State := s.detect 0x15 (16 * n + g) c injected (s.ownerSlice n)
  if h : g.val < 8 then
    let l : Fin 8 := ⟨g, h⟩
    let mark (s : State) : State := s.set F.CH_SPARE_STATUS_FAILED [n] (withBit (s.get F.CH_SPARE_STATUS_FAILED [n]) g)
    if s.spareServes n g then mark (note .repair)
    else if !s.spareUsed n && !s.spareBusy n && !s.tg8Bad n then (mark (note .repair)).spareStart n l false
    else (mark (note .unit)).laneFault n l
  else if s.spareUsed n then (note .unit).laneFault n (Fin.ofNat 8 (s.get F.CH_SPARE_STATUS_LANE [n]))
  else match s.slices[n].swap with
    | some w => ((note .unit).spareOver n).laneFault n w.lane
    | none => (note .repair).set F.FLT_SC_STAT_TG8_BAD [n] 1

end State

/-- TG_SELF_CHECK: a check of generator TGg of slice `n` measures its worst edge `err` ticks from its placement (R462, R466). -/
def execTgSelfCheck (n : Fin 12) (g : Fin 9) (err : Int) (s : State) : Host.Outcome State Fault Refusal :=
  if s.get F.FLT_SC_CFG_PERIOD = 0 ∨ s.sliceStale n then .next s
  else
    let inj := s.takeInject 0x15 (16 * n + g)
    let s := inj.2
    let e := if inj.1 then err + 256 else err
    let fl := s.get F.FLT_SC_STAT_FAILING [n]
    let setCount (s : State) (c : Nat) : State := s.modFlt (fun f => { f with scFails := f.scFails.set n (f.scFails[n].set g c) })
    if s.get F.FLT_SC_CFG_TOL < e.natAbs then
      let s := (s.set F.FLT_SC_STAT_FAILING [n] (withBit fl g)).set F.FLT_SC_STAT_LAST_ERR [n] (patternOf (max (-32767) (min 32767 e)) 16)
      let c := s.flt.scFails[n][g] + 1
      if c = 3 then .next ((setCount s 0).tgDetect n g inj.1) else .next (setCount s c)
    else
      let s := s.set F.FLT_SC_STAT_FAILING [n] (if bitOf fl g then fl - 2 ^ g.val else fl)
      let s := if g = 8 then s.set F.FLT_SC_STAT_TG8_BAD [n] 0 else s
      .next (setCount s 0)

end Sys2Proof.Machine
end

