-- ==== Sys2Proof/Machine/Faults.lean ====
section
/-! DEFINITION. Fault detectors and their responses (R454–R461), cores leaving and returning to service (R464), staged code (R465) and
injection (R466). -/

namespace Sys2Proof.Machine

namespace State

/-- Set or clear a rail's bit of FLT_SUPPLY. -/
def setRail (s : State) (r : Nat) (ok : Bool) : State :=
  s.set F.FLT_SUPPLY_OK [] (putBits (s.get F.FLT_SUPPLY_OK) r 1 ok.toNat)

/-- The Gleaner's records in flight, its violation records formed and not yet written, are lost and counted (R459). -/
def glDropRecords (s : State) : State :=
  s.overSess (fun k s =>
    let c := s.gleaners[k].viols.length
    if c = 0 then s else (((s.modGl k (fun g => { g with viols := [] })).count F.GL_LOST_REGION_LOST [k] c).noteLoss k))

/-- A core leaves service at once (R459, R464). -/
def coreOut (s : State) (c : Fin 4) (auto : Bool) : State :=
  let s := (s.modCore c (fun r => { r with offReq := false })).set F.FLT_CORE_STATE [c] 2
  if auto then s.set F.FLT_CORE_AUTO [c] 1 else s

/-- Does core `c` run a sequence? -/
def coreRuns (s : State) (c : Fin 4) : Bool := s.coreOf (s.coreSess c) == some c

end State

/-- HANDSHAKE_WATCHDOG: a handshake of unit `u` of R459 stayed open for more than 2 µs (R459, R463). -/
def execHandshakeWatchdog (u : Fin 8) (s : State) : Host.Outcome State Fault Refusal :=
  let inj := s.takeInject 0x0F u
  let s := inj.2
  if h : u.val < 4 then
    let c : Fin 4 := ⟨u, h⟩
    if s.coreRuns c then .next (((s.detect 0x0F u .unit inj.1 (some (s.coreSess c))).hardFaultCore c 7).coreOut c true)
    else .next (((s.detect 0x0F u .unit inj.1 none).coreFault c 7 s.cores[c].ctx.pc).coreOut c true)
  else if u.val = 7 then .next ((s.detect 0x0F u .device inj.1 none).commitAbort)
  else
    let s := (s.detect 0x0F u .device inj.1 none).faultDevice
    .next (if u.val = 6 then s.glDropRecords else s)

/-- SUPPLY_BANK: the supply monitor finds a bank at a voltage. One more than 10 % from its class, or an armed injection, puts a bank that
some slice selects out of range; every sequence of a session that owns a slice with a single-ended lane on it ends with FAULT (R104, R455, log 50). -/
def execSupplyBank (m : BankReading) (s : State) : Host.Outcome State Fault Refusal :=
  let b := m.viob
  let s := s.bankVolts b m.mv
  let u := if b then 4 else 3
  if s.bankUsed b && (s.injOn 0x14 u || !s.bankInRange b m.mv) then
    let s := ((s.detect 0x14 u .policy (s.injOn 0x14 u) none).setBank b false).setRail u false
    let s := s.overSlices (fun n s => s.strobeSync n)
    .next (s.overSess (fun k s =>
      if (List.finRange 12).any (fun n => s.ownsSlice k n && s.seOnBank b n) then s.hardFaultSess k else s))
  else .next s

/-- TEMP_READING: the F-die temperature in 0.1 °C, read every 100 µs (R343, R460, R466). -/
def execTempReading (t : Int) (s : State) : Host.Outcome State Fault Refusal :=
  let iw := s.takeInject 0x10 0
  let it := iw.2.takeInject 0x11 0
  let s := it.2
  let warn : Int := s.get F.FLT_TEMP_CFG_WARN
  let trip : Int := s.get F.FLT_TEMP_CFG_TRIP
  let t := if it.1 then trip else if iw.1 then warn else t
  let dw := decide (warn ≤ t) && s.flt.warnArmed
  let dt := decide (trip ≤ t) && s.flt.tripArmed
  let s := s.modFlt (fun f => { f with
    warnArmed := if t < warn - 20 then true else f.warnArmed && !dw
    tripArmed := if t < trip - 50 then true else f.tripArmed && !dt })
  let s := (s.set F.FLT_TEMP_TEMP [] (patternOf t 12)).set F.FLT_TEMP_WARN [] (decide (warn ≤ t)).toNat
  let s := if dw then s.detect 0x10 0 .report iw.1 none else s
  let s := if t < trip - 50 then s.set F.FLT_TEMP_TRIP [] 0 else s
  let s := if dt then ((s.detect 0x11 0 .device it.1 none).set F.FLT_TEMP_TRIP [] 1).faultDevice else s
  .next (s.calTemp t)

/-- DDR_PATROL_READ: the patrol reads the 64 bytes at a physical field address and meets `ecc` flipped bits (R457). -/
def execDdrPatrolRead (addr : Nat) (ecc : Fin 3) (s : State) : Host.Outcome State Fault Refusal :=
  if addr < s.get F.RM_MEM_INST_MIB * 2 ^ 20 then .next (s.ddrRead addr ecc).1 else .fault (.noSuchAddress addr)

/-- Does a supply monitor find a rail out of its window: more than 7 % from its nominal value, in tenths of a percent, or by an armed injection
(R455, R461)? -/
def State.railOut (s : State) (det r : Nat) (dev : Int) : Bool := s.injOn det r || decide (70 < dev.natAbs)

/-- SUPPLY: for 1 µs the monitor has found a rail at some deviation from its nominal value. Field core supply 0 or auxiliary supply 1 out of its window is
a device hard fault; the analogue supply 2 reads in range again, and out of its window is SUPPLY_AO (R461). -/
def execSupply (m : RailReading) (s : State) : Host.Outcome State Fault Refusal :=
  if m.rail = 2 then .next (if s.railOut 0x13 2 m.dev then s else s.setRail 2 true)
  else .next (if s.railOut 0x12 m.rail m.dev then ((s.setRail m.rail false).detect 0x12 m.rail .device (s.injOn 0x12 m.rail) none).faultDevice
    else s.setRail m.rail true)

/-- SUPPLY_AO: for 1 µs the monitor has found the analogue supply out of its window; every output takes its fault state (R311, R455, R461). -/
def execSupplyAo (s : State) : Host.Outcome State Fault Refusal :=
  .next (((s.setRail 2 false).detect 0x13 2 .unit (s.injOn 0x13 2) none).overOutputs (fun o s => s.faultOutput o))

namespace State

/-- Sessions with a dedicated core. -/
def dedicatedCount (s : State) : Nat := ((List.finRange 16).filter (fun (k : Fin 16) => s.act F.RM_SESS_CFG_DEDICATED [k] == 1)).length

/-- Cores in service that are not leaving, without core `c`. -/
def otherCores (s : State) (c : Fin 4) : Nat :=
  ((List.finRange 4).filter (fun (d : Fin 4) => decide (d ≠ c) && s.get F.FLT_CORE_STATE [d] == 0)).length

/-- Take a core out of service, at once when idle, else at its next boundary, or refuse (R464). -/
def coreOffline (s : State) (c : Fin 4) : State :=
  if s.get F.FLT_CORE_STATE [c] ≠ 0 then s
  else if s.otherCores c < s.dedicatedCount + 1 then s.raise F.FLT_CORE_REFUSED [c]
  else if s.cores[c].st = .idle then s.coreOut c false
  else (s.modCore c (fun r => { r with offReq := true })).set F.FLT_CORE_STATE [c] 1

/-- Return a core to service (R464). -/
def coreOnline (s : State) (c : Fin 4) : State :=
  ((s.modCore c (fun r => { r with offReq := false })).set F.FLT_CORE_STATE [c] 0).set F.FLT_CORE_AUTO [c] 0

end State

/-- FLT_CORE_OFFLINE (R464). -/
def execFltCoreOffline (c : Fin 4) (s : State) : Host.Outcome State Fault Refusal := 
  .next (s.hostStrobe .FLT_CORE [c] 0 (fun s => s.coreOffline c))

/-- FLT_CORE_ONLINE (R464). -/
def execFltCoreOnline (c : Fin 4) (s : State) : Host.Outcome State Fault Refusal := 
  .next (s.hostStrobe .FLT_CORE [c] 1 (fun s => s.coreOnline c))

/-! ### Injection (R466) -/

/-- Does a UNIT value name an SRAM of R458? -/
def sramCode (u : Nat) : Bool :=
  decide (u < 0x0C) || (decide (0x40 ≤ u) && decide (u < 0x4C)) || (decide (0x50 ≤ u) && decide (u < 0x5C)) ||
  (decide (0x10 ≤ u) && decide (u < 0x14)) || (decide (0x20 ≤ u) && decide (u < 0x33))

/-- Does a detector have a unit code (R455)? -/
def injUnit (det u : Nat) : Bool :=
  match det with
  | 0x01 => decide (u < 2)
  | 0x02 => decide (u < 2)
  | 0x03 => sramCode u
  | 0x04 => sramCode u
  | 0x05 => decide (u < 16)
  | 0x06 => decide (u < 16)
  | 0x07 => decide (u < 2)
  | 0x08 => decide (u / 16 < 2) && decide (u % 16 < 9)
  | 0x09 => decide (u < 2)
  | 0x0A => decide (u < 4)
  | 0x0B => decide (u < 8)
  | 0x0C => decide (u < 4)
  | 0x0D => decide (u = 0)
  | 0x0E => decide (u = 0)
  | 0x0F => decide (u < 8)
  | 0x10 => decide (u = 0)
  | 0x11 => decide (u = 0)
  | 0x12 => decide (u < 2)
  | 0x13 => decide (u = 2)
  | 0x14 => decide (u = 3) || decide (u = 4)
  | 0x15 => decide (u / 16 < 12) && decide (u % 16 < 9)
  | 0x16 => decide (u < 16)
  | 0x17 => decide (u < 12) || (decide (16 ≤ u) && decide (u < 32))
  | 0x18 => decide (u < 4)
  | _ => false

/-- Is COUNT of a detector's injection a duration in µs (R466)? -/
def injTimed (det : Nat) : Bool := det == 0x0E || det == 0x12 || det == 0x13 || det == 0x14

namespace State

/-- A rail that a duration injection held out of range reads in range again. -/
def injRailBack (s : State) : State :=
  match s.flt.inj with
  | some i => if i.det = 0x12 ∨ i.det = 0x13 then s.setRail i.unit_ true else s
  | none => s

/-- Disarm (R466). -/
def injCancel (s : State) : State :=
  (s.injRailBack.modFlt (fun f => { f with inj := none })).set F.FLT_INJ_CTRL_BUSY [] 0

/-- Arm the detector and unit of FLT_INJ_SEL for `n` events or µs (R466). -/
def injArm (s : State) (n : Nat) : State :=
  if s.get F.FLT_INJ_CTRL_BUSY = 1 ∨ n = 0 then s
  else
    let det := s.get F.FLT_INJ_SEL_DET
    let u := s.get F.FLT_INJ_SEL_UNIT
    if injUnit det u then
      (s.modFlt (fun f => { f with inj := some ⟨det, u, s.get F.FLT_INJ_SEL_VARIANT == 1, n⟩, injAt := s.now })).set F.FLT_INJ_CTRL_BUSY [] 1
    else s.raise F.FLT_INJ_CTRL_ERR

end State

/-- INJECTION_ARM: a write of ARM with COUNT (R466). -/
def execInjectionArm (n : Fin 65536) (s : State) : Host.Outcome State Fault Refusal :=
  .next (s.toField (.barWr (Reg.key .FLT_INJ_CTRL []) (BitVec.ofNat 32 (n + 2 ^ 16))) (fun s => (s.set F.FLT_INJ_CTRL_COUNT [] n).injArm n))

/-- INJECTION_CANCEL: disarm at once (R466). -/
def execInjectionCancel (s : State) : Host.Outcome State Fault Refusal := 
  .next (s.hostStrobe .FLT_INJ_CTRL [] 17 (fun s => s.injCancel))

/-- INJECTION_DURATION_END: the COUNT microseconds of a duration injection end, once they have passed since the arm (R466). -/
def execInjectionDurationEnd (s : State) : Host.Outcome State Fault Refusal :=
  match s.flt.inj with
  | some i => .next (if injTimed i.det ∧ (1638400 * i.left : Int) ≤ s.now - s.flt.injAt then s.injCancel.raise F.FLT_INJ_CTRL_DONE else s)
  | none => .next s

/-! ### Staged code (R465) -/

namespace State

/-- STAGE goes to 1: the staged table is a copy of the live one. -/
def stageSet (s : State) (k : Fin 16) : State :=
  if s.sess[k].staged.isSome then s
  else (s.modSess k (fun x => { x with staged := some x.entries })).set F.FLT_CS_STAGE_STAGE [k] 1

/-- STAGE goes to 0: the staged table and a pending swap are discarded. -/
def stageClear (s : State) (k : Fin 16) : State :=
  ((s.modSess k (fun x => { x with staged := none, swapWait := false })).set F.FLT_CS_STAGE_STAGE [k] 0).set F.FLT_CS_SWAP_PENDING [k] 0

/-- GO: the staged table becomes live at once, or when the session's sequence or burst completes. -/
def swapGo (s : State) (k : Fin 16) : State :=
  if s.sess[k].staged.isNone then s
  else if s.sess[k].seq.isNone ∧ s.sess[k].burst.isNone then s.doSwap k
  else (s.modSess k (fun x => { x with swapWait := true })).set F.FLT_CS_SWAP_PENDING [k] 1

end State

/-- CS_STAGE_SET (R465). -/
def execCsStageSet (k : Fin 16) (s : State) : Host.Outcome State Fault Refusal := 
  .next (s.hostStrobe .FLT_CS_STAGE [k] 0 (fun s => s.stageSet k))

/-- CS_STAGE_CLEAR (R465). -/
def execCsStageClear (k : Fin 16) (s : State) : Host.Outcome State Fault Refusal := 
  .next (s.toField (.barWr (Reg.key .FLT_CS_STAGE [k]) 0) (fun s => s.stageClear k))

/-- CS_SWAP_GO (R465). -/
def execCsSwapGo (k : Fin 16) (s : State) : Host.Outcome State Fault Refusal := 
  .next (s.hostStrobe .FLT_CS_SWAP [k] 0 (fun s => s.swapGo k))

end Sys2Proof.Machine
end

