-- ==== Sys2Proof/Machine/Image.lean ====
section
/-! DEFINITION. Control-store images (R159–R163, R203): their layout, the checks of a load in the order of R163, and the load itself. -/

namespace Sys2Proof.Machine

/-- A failed check of a load: its code and its location (R163, R164). -/
structure LoadErr where
  code : Nat
  place : Nat
  deriving DecidableEq, Repr

/-- Status of a load error (R163). -/
def LoadErr.status (e : LoadErr) : Status :=
  if e.code ≤ 4 then .badDescriptor else if e.code ≤ 7 then .resourceBusy else if e.code ≤ 10 then .commitRange else .commitConflict

/-- SQ_LOAD_STATUS of a load's outcome (R164). -/
def loadWord (e : Option LoadErr) : Nat :=
  match e with
  | none => 0
  | some e => e.status.code + 256 * e.code + 65536 * (e.place % 2 ^ 14)

/-- A section header (R161). -/
structure Sect where
  idx : Nat
  kind : Nat
  start : Nat
  count : Nat
  off : Nat
  res : Nat
  deriving DecidableEq, Repr

/-- A word of an image: its address, its type and its 192 bits. -/
structure ImgWord where
  addr : Nat
  kind : Nat
  bits : Nat
  deriving DecidableEq, Repr

/-- A listed entry point: its number and its word address. -/
structure ImgEntry where
  num : Nat
  addr : Nat
  deriving DecidableEq, Repr

/-- An image, read once (R160, R161). -/
structure Image where
  mask : Nat
  sects : List Sect
  words : List ImgWord
  entries : List ImgEntry
  deriving DecidableEq, Repr

/-- Section headers of an image. -/
def imgSects (img : List Byte) : List Sect :=
  (List.range (fieldAt img 10 2)).map (fun i =>
    let b := 64 + 16 * i
    ⟨i, fieldAt img b 2, fieldAt img (b + 2) 2, fieldAt img (b + 4) 4, fieldAt img (b + 8) 4, fieldAt img (b + 12) 4⟩)

/-- Bytes of one item of a section. -/
def Sect.size (x : Sect) : Nat := if x.kind = 3 then 4 else 24

/-- Words of a section of type 1 or 2. -/
def sectWords (img : List Byte) (x : Sect) : List ImgWord :=
  if x.kind = 1 ∨ x.kind = 2 then (List.range x.count).map (fun i => ⟨x.start + i, x.kind, fieldAt img (x.off + 24 * i) 24⟩) else []

/-- Entries of a section of type 3. -/
def sectEntries (img : List Byte) (x : Sect) : List ImgEntry :=
  if x.kind = 3 then (List.range x.count).map (fun i => ⟨fieldAt img (x.off + 4 * i) 2, fieldAt img (x.off + 4 * i + 2) 2⟩) else []

/-- The image of a byte list whose header and sections have passed. -/
def imageOf (img : List Byte) : Image :=
  let ss := imgSects img
  ⟨fieldAt img 8 2, ss, ss.flatMap (sectWords img), ss.flatMap (sectEntries img)⟩

/-! ### Checks 0x01 to 0x04 -/

/-- The image header is wrong; an image whose section headers do not fit in its length has a wrong LENGTH (R160, R163). -/
def headerBad (img : List Byte) (len : Nat) : Bool :=
  decide (len < 64) || fieldAt img 0 4 != 0x53434E4B || fieldAt img 4 2 != 1 || fieldAt img 6 2 != 64 || fieldAt img 12 4 != len ||
  decide (256 < fieldAt img 10 2) || decide (len < 64 + 16 * fieldAt img 10 2) || fieldAt img 24 40 != 0

/-- CRC of an image, its CRC field taken as 0 (R160). -/
def imgCrcBad (img : List Byte) : Bool := crc32 (img.take 16 ++ (leBytes 4 0 ++ img.drop 20)) != fieldAt img 16 4

/-- Do two sections of words overlap? -/
def sectsMeet (a b : Sect) : Bool :=
  a.idx != b.idx && decide (a.kind = 1 ∨ a.kind = 2) && decide (b.kind = 1 ∨ b.kind = 2) &&
  a.count != 0 && b.count != 0 && decide (a.start < b.start + b.count) && decide (b.start < a.start + a.count)

/-- A section fails check 0x03. -/
def sectBad (img : List Byte) (len : Nat) (all : List Sect) (x : Sect) : Bool :=
  decide (x.kind = 0 ∨ 3 < x.kind) || x.res != 0 || (x.kind == 3 && x.start != 0) || x.off % 8 != 0 ||
  decide (len < x.off + x.size * x.count) || (sectEntries img x).any (fun e => decide (255 < e.num)) || all.any (sectsMeet x)

/-- Does a mask of regions hold a word address? -/
def inMask (mask a : Nat) : Bool := bitOf mask (a / 1024)

/-- A section fails check 0x04. -/
def sectOut (mask : Nat) (x : Sect) : Bool :=
  decide (x.kind ≠ 3) && (List.range x.count).any (fun i => decide (16 ≤ (x.start + i) / 1024) || !inMask mask (x.start + i))

/-! ### Checks of words -/

/-- Addresses that a microword's next-address mode may reach, without a RET's (R132, R133, R159): the address + 1 a CALL pushes included. -/
def mwTargets (a w : Nat) : List Nat :=
  let up := (a + 1) % 2 ^ 14
  match mwMode w with
  | 0 => [up]
  | 1 => [mwNext w]
  | 2 => [mwNext w, up]
  | 3 => [mwNext w, up]
  | 5 => (List.range (2 ^ mwDspWidth w)).map (fun i => (mwNext w + i) % 2 ^ 14)
  | _ => []

/-- Check 0x08: reserved codes of a microword. -/
def mwCodeBad (w : Nat) : Bool := decide (6 ≤ mwMode w) || mwDspSrc w == 7 || decide (5 ≤ mwFwOp w)

/-- Check 0x09: a next address outside the image's regions. -/
def mwTargetBad (mask : Nat) (x : ImgWord) : Bool := (mwTargets x.addr x.bits).any (fun t => !inMask mask t)

/-- Check 0x0A: a Furrow word is refused (R203). -/
def furrowBad (mask : Nat) (x : ImgWord) : Bool :=
  let w := x.bits
  bitsOf w 61 3 != 0 || bitsOf w 99 29 != 0 || bitsOf w 160 32 != 0 ||
  (decide (1 ≤ fFlow w) && decide (fFlow w ≤ 6) && !inMask mask (fTarget w)) ||
  (decide (fFlow w ≠ 1) && decide (fFlow w ≠ 7) && !inMask mask ((x.addr + 1) % 2 ^ 14)) ||
  fCax w == 3 || decide (6 ≤ fXop w) || decide (6 ≤ fYop w) || decide (6 ≤ fZop w) || decide (5 ≤ fDsel w) || decide (5 ≤ fDop w) ||
  fCm w == 3

/-- Check 0x0B: one flag both set and cleared (R142). -/
def mwFlagBad (w : Nat) : Bool := (mwFlagSet w &&& mwFlagClr w) != 0

/-! ### Span rules (R159) -/

/-- The microword of an image at an address. -/
def Image.mw? (m : Image) (a : Nat) : Option Nat := (m.words.find? (fun x => x.addr == a && x.kind == 1)).map (·.bits)

/-- Is the word at an address a span word? -/
def Image.span (m : Image) (a : Nat) : Bool := ((m.mw? a).map mwAtomic).getD false

/-- A span word breaks a rule of R159 other than the length of its path. -/
def Image.breaks (m : Image) (a w : Nat) : Bool :=
  mwWait w || mwShotBnd w || mwEnd w || decide (3 ≤ mwMode w) ||
  (decide (mwMode w = 1 ∨ mwMode w = 2) && decide (mwNext w ≤ a) && m.span (mwNext w))

/-- Span words that follow the words of a level: no path goes on from a word that breaks a rule. -/
def Image.onward (m : Image) (level : List Nat) : List Nat :=
  (level.flatMap (fun a => match m.mw? a with
    | some w => if m.breaks a w then [] else (mwTargets a w).filter m.span
    | none => [])).eraseDups

/-- The span words reached after `n` steps. -/
def Image.level (m : Image) (a : Nat) : Nat → List Nat
  | 0 => [a]
  | n + 1 => m.onward (m.level a n)

/-- Is a span word a span head? -/
def Image.head (m : Image) (a : Nat) : Bool :=
  m.entries.any (fun e => e.addr == a) ||
  m.words.any (fun x => x.kind == 1 && !mwAtomic x.bits && (mwTargets x.addr x.bits).contains a)

/-- Check 0x0C for a word. -/
def Image.spanBad (m : Image) (x : ImgWord) : Bool :=
  x.kind == 1 && mwAtomic x.bits && (m.breaks x.addr x.bits || (m.head x.addr && !(m.level x.addr 32).isEmpty))

/-! ### All checks -/

/-- The lowest of a list of addresses. -/
def lowest (l : List Nat) : Option Nat := l.foldl (fun a x => some (match a with
  | none => x
  | some y => min x y)) none

/-- A check over words: its code and the lowest offending address. -/
def wordsCheck (code : Nat) (l : List ImgWord) (bad : ImgWord → Bool) : Option LoadErr :=
  (lowest ((l.filter bad).map (·.addr))).map (fun a => ⟨code, a⟩)

/-- A check over sections: its code and the lowest offending section. -/
def sectsCheck (code : Nat) (l : List Sect) (bad : Sect → Bool) : Option LoadErr :=
  (lowest ((l.filter bad).map (·.idx))).map (fun i => ⟨code, i⟩)

namespace State

/-- The entry table that loads act on: the staged one while staging (R465). -/
def loadTable (s : State) (k : Fin 16) : SMap (Option Nat) := (s.sess[k].staged).getD s.sess[k].entries

/-- Regions from which a context fetches: those it has fetched from, until it ends, and those of its word and return addresses (R163, R164, R465;
DESIGN CHOICE, log 59). -/
def ctxRegions (x : Ctx) : List Nat := (x.pc :: x.stack).map (· / 1024) ++ (List.range 16).filter (fun r => bitOf x.fetched r)

/-- Regions that running, halted and switched-out contexts use. -/
def usedRegions (s : State) : List Nat :=
  (List.finRange 4).flatMap (fun (c : Fin 4) => match s.cores[c].st with
    | .idle => []
    | _ => ctxRegions s.cores[c].ctx ++ ((s.cores[c].span.map (fun p => ctxRegions p.start)).getD [])) ++
  (List.finRange 16).flatMap (fun (k : Fin 16) => (s.sess[k].saved.map ctxRegions).getD [])

/-- SQ_REGION_STATE.IN_USE and LOADED as masks. -/
def regionsUsed (s : State) : Nat := ((List.range 16).map (fun r => if s.usedRegions.contains r then 2 ^ r else 0)).sum
def regionsLoaded (s : State) : Nat :=
  ((List.range 16).map (fun r => if s.cs.words.any (fun p => p.1 / 1024 == r) then 2 ^ r else 0)).sum

/-- Check 0x0D for an entry: given twice, held by an entry point outside the image's regions, or naming no microword (R163, R465). -/
def entryBad (s : State) (k : Fin 16) (m : Image) (e : ImgEntry) : Bool :=
  decide (1 < (m.entries.filter (fun x => x.num == e.num)).length) ||
  (s.sess[k].staged.isNone && (match smGet none s.sess[k].entries e.num with
    | some a => !inMask m.mask a
    | none => false)) ||
  (if inMask m.mask e.addr then (m.mw? e.addr).isNone
    else ((s.csWord e.addr).map (·.kind)) != some 1)

/-- The first failed check of a load for session `k`, in the order of R163. A boot load leaves out 0x05 and 0x07 (R477). -/
def imageErr (s : State) (k : Fin 16) (img : List Byte) (len : Nat) (boot : Bool) : Option LoadErr :=
  if headerBad img len then some ⟨1, 0⟩
  else if imgCrcBad img then some ⟨2, 0⟩
  else
    let ss := imgSects img
    let mask := fieldAt img 8 2
    match sectsCheck 3 ss (sectBad img len ss) with
    | some e => some e
    | none => match sectsCheck 4 ss (sectOut mask) with
      | some e => some e
      | none =>
        let m := imageOf img
        let mw := m.words.filter (fun x => x.kind == 1)
        let busy := (mask &&& s.regionsUsed) != 0
        if !boot && (mask &&& s.act F.RM_OWN_CS_REGIONS [k]) != mask then some ⟨5, 0⟩
        else if busy then some ⟨6, 0⟩
        else [if boot then none else wordsCheck 7 mw (fun x => (s.mwUnowned k x.bits).isSome),
              wordsCheck 8 mw (fun x => mwCodeBad x.bits),
              wordsCheck 9 mw (mwTargetBad mask),
              wordsCheck 10 m.words (fun x => x.kind == 2 && furrowBad mask x),
              wordsCheck 11 mw (fun x => mwFlagBad x.bits),
              wordsCheck 12 mw m.spanBad,
              (lowest ((m.entries.filter (s.entryBad k m)).map (·.addr))).map (fun a => ⟨13, a⟩)].findSome? id

/-- Write a word into the control store. -/
def csPut (ws : List (Nat × CsWord)) (x : ImgWord) : List (Nat × CsWord) :=
  smInsert x.addr ⟨x.kind, x.bits, Vector.replicate 3 .clean⟩ (smErase x.addr ws)

/-- Load an image that has passed its checks (R162, R465). -/
def loadImage (s : State) (k : Fin 16) (m : Image) : State :=
  let ws := s.cs.words.filter (fun p => !inMask m.mask p.1)
  let s' := { s with cs := { s.cs with words := m.words.foldl csPut ws } }
  let old := (s.loadTable k).filter (fun p => match p.2 with
    | some a => !inMask m.mask a
    | none => false)
  let tab := m.entries.foldl (fun t e => smSet none t e.num (some e.addr)) old
  s'.modSess k (fun x => if x.staged.isSome then { x with staged := some tab } else { x with entries := tab })

/-- Report a load in SQ_LOAD_STATUS (R163). -/
def noteLoad (s : State) (e : Option LoadErr) : State := s.putK (Reg.key .SQ_LOAD_STATUS []) (BitVec.ofNat 32 (loadWord e))

/-- Check and load an image: the error, if any, and the state after (R162, R163). -/
def runLoad (s : State) (k : Fin 16) (img : List Byte) (len : Nat) (boot : Bool) : Option LoadErr × State :=
  match s.imageErr k img len boot with
  | some e => (some e, s.noteLoad (some e))
  | none => (none, (s.loadImage k (imageOf img)).noteLoad none)

end State

end Sys2Proof.Machine
end

