-- ==== Sys2Proof/Machine/Nvm.lean ====
section
/-! DEFINITION. The field NVM and the host NVM (R479–R485): copies and their checks, the staging buffers, PROGRAM, LOAD and STORE_CAL. -/

namespace Sys2Proof.Machine

/-! ### Configuration copies (R480, R481) -/

/-- MAGIC of a configuration copy, and of a host copy. -/
def nvmMagicF : Nat := 0x564E4E4B
def nvmMagicH : Nat := 0x56484E4B

/-- Are `n` bytes from an offset 0? -/
def zeroAt (b : List Byte) (off n : Nat) : Bool := fieldAt b off n == 0

/-- The fields of a configuration copy in the order of their offsets, each with its verdict: true fails. CRC is judged apart. -/
def cfgFields (b : List Byte) : List (Nat × Bool) :=
  let by_ (a : Nat) : Nat := fieldAt b a 1
  let bank (n : Nat) : Nat := by_ (0x20 + n) % 2
  let cls (n : Nat) : Nat := by_ (0x20 + n) / 2 % 8
  let mixed (n : Nat) : Bool := match (List.range 12).find? (fun m => bank m == bank n) with
    | some m => cls m != cls n
    | none => false
  [(0x000, fieldAt b 0 4 != nvmMagicF), (0x004, fieldAt b 4 2 != 1), (0x006, !zeroAt b 6 2),
   (0x010, by_ 0x10 / 4 % 32 != 0), (0x011, decide (3 ≤ by_ 0x11)), (0x012, !zeroAt b 0x12 14)] ++
  ((List.range 12).map (fun n => (0x20 + n, by_ (0x20 + n) / 16 != 0 || decide (4 < cls n) || mixed n)) ++
  ([(0x02C, !zeroAt b 0x2C 20)] ++
  ((List.range 96).map (fun n => (0x40 + n, by_ (0x40 + n) / 16 != 0 || by_ (0x40 + n) / 4 % 4 == 3)) ++
  ((List.range 16).flatMap (fun o => let a := 0xA0 + 8 * o
    [(a, decide (5 < by_ a)), (a + 1, !zeroAt b (a + 1) 3)]) ++ [(0x120, !zeroAt b 0x120 3808)]))))

/-- Offset of the first failing field of a configuration copy. -/
def cfgErr (b : List Byte) : Option Nat := ((cfgFields b).find? (·.2)).map (·.1)

/-- CRC of a copy, its CRC field at 0x0C taken as 0 (R480). -/
def nvmCrc (b : List Byte) : Nat := crc32 (b.take 12 ++ (leBytes 4 0 ++ b.drop 16))

/-- A copy with its WRITE_COUNT set and its CRC computed (R482). -/
def nvmSeal (b : List Byte) (count : Nat) : List Byte :=
  let c := b.take 8 ++ (leBytes 4 count ++ b.drop 12)
  c.take 12 ++ (leBytes 4 (nvmCrc c) ++ c.drop 16)

/-- Does a configuration copy pass its check (R481)? -/
def cfgOk (b : List Byte) : Bool := (cfgErr b).isNone && nvmCrc b == fieldAt b 12 4

/-- Does a host copy pass its check (R484)? -/
def hostBytesOk (b : List Byte) : Bool :=
  let link := fieldAt b 0x14 1
  fieldAt b 0 4 == nvmMagicH && fieldAt b 4 2 == 1 && zeroAt b 6 2 && decide (1 ≤ link % 16) && decide (link % 16 ≤ 4) &&
  (link / 16 == 1 || link / 16 == 2 || link / 16 == 4 || link / 16 == 8) && zeroAt b 0x15 235

/-- Does a host copy pass, its CRC included? -/
def hostCopyOk (b : List Byte) : Bool := hostBytesOk b && nvmCrc b == fieldAt b 12 4

/-- An empty buffer: zeros with MAGIC and VERSION (R482). -/
def nvmBlank (magic n : Nat) : List Byte := leBytes 4 magic ++ (leBytes 2 1 ++ leBytes (n - 6) 0)

/-- The copy in use: the passing one with the higher WRITE_COUNT, A when equal, none when neither passes (R481). -/
def nvmChoose (okA okB : Bool) (cA cB : Nat) : Option Bool :=
  match okA, okB with
  | true, true => some (decide (cA < cB))
  | true, false => some false
  | false, true => some true
  | false, false => none

namespace State

def modBoot (s : State) (f : Boot → Boot) : State := { s with boot := f s.boot }

/-- Address of a configuration copy in the field NVM, of a host copy in the host NVM. -/
def cfgAddr (b : Bool) : Nat := if b then 0x2000 else 0x1000
def hCopyAddr (b : Bool) : Nat := if b then 256 else 0

/-- Bytes of a copy. -/
def cfgBytes (s : State) (b : Bool) : List Byte := memBytes s.nvmF (cfgAddr b) 4096
def hCopyBytes (s : State) (b : Bool) : List Byte := memBytes s.nvmH (hCopyAddr b) 256

/-- The configuration copy in use for PROGRAM and LOAD. -/
def cfgCopy (s : State) : Bool := s.get F.NVM_F_STAT_CFG_COPY == 1

/-- The host copy taken as in use; copy A when neither passes. -/
def hCopy (s : State) : Bool := s.boot.copyH.getD false

/-- NVM_F_STAT.BUSY. -/
def nvmFBusy (s : State) : Bool := s.get F.NVM_F_STAT_BUSY == 1
def nvmHBusy (s : State) : Bool := s.get F.NVM_H_STAT_BUSY == 1

/-- LOAD: the copy in use, or an empty one, into the staging buffer (R482). -/
def nvmFLoad (s : State) : State :=
  if s.nvmFBusy then s
  else
    let b := s.cfgBytes s.cfgCopy
    let b := if cfgOk b then b else nvmBlank nvmMagicF 4096
    s.modBoot (fun x => { x with stageF := memPuts [] 0 b })

/-- PROGRAM: seal and check the buffer, then write the copy not in use; it passes its check only once the write is verified (R478, R482). -/
def nvmFProgram (s : State) : State :=
  if s.nvmFBusy then s
  else
    let b := nvmSeal (memBytes s.boot.stageF 0 4096) (satAdd 32 (s.get F.NVM_F_COUNT_WRITE_COUNT) 1)
    let s := s.modBoot (fun x => { x with stageF := memPuts [] 0 b })
    match cfgErr b with
    | some o => (s.set F.NVM_F_STAT_ERR_OFS [] o).raise F.NVM_F_STAT_PROG_ERR
    | none =>
      let c := !s.cfgCopy
      let s := { s with nvmF := memPuts s.nvmF (cfgAddr c) (leBytes 4 0 ++ b.drop 4) }
      (s.modBoot (fun x => { x with writeCfg := some c })).set F.NVM_F_STAT_BUSY [] 1

/-- The calibration copy in use, if one passes. -/
def calCopy (s : State) : Bool := s.get F.NVM_F_STAT_CAL_COPY == 1
def calCopyOf (s : State) (b : Bool) : Option CalCopy := if b then s.boot.calCopies[1] else s.boot.calCopies[0]

/-- Put a calibration copy. -/
def putCalCopy (s : State) (b : Bool) (c : Option CalCopy) : State :=
  s.modBoot (fun x => { x with calCopies := if b then x.calCopies.set 1 c else x.calCopies.set 0 c })

/-- The record of a unit in the calibration copy in use. -/
def calRecord (s : State) (u : Nat) : Option (SMap Int) := (s.calCopyOf s.calCopy).bind (fun c => (c.recs.find? (fun p => p.unit_ == u)).map (·.trims))

/-- The records that a STORE_CAL writes: the corrections in force of every unit that is CURRENT and not DEGRADED, and for every other unit its record in the
copy in use, if it has one (R483). -/
def calStored (s : State) : List CalRecord :=
  ((List.finRange 36).filter (fun (u : Fin 36) => calCode u.val)).filterMap (fun (u : Fin 36) =>
    if s.calState u = 1 ∧ s.get F.CAL_UNIT_STAT_DEGRADED [u] = 0 then some ⟨u.val, s.cal.units[u].trims⟩
    else (s.calRecord u).map (fun r => ⟨u.val, r⟩))

/-- STORE_CAL (R483). -/
def nvmStoreCal (s : State) : State :=
  if s.nvmFBusy then s
  else
    let c := !s.calCopy
    let us := s.calStored
    ((s.putCalCopy c none).modBoot (fun x => { x with writeCal := some (c, us) })).set F.NVM_F_STAT_BUSY [] 1

/-- The field write in progress completes and is verified (R482, R483). -/
def nvmFDone (s : State) : State :=
  match s.boot.writeCfg with
  | some c =>
    let s := { s with nvmF := memPuts s.nvmF (cfgAddr c) (leBytes 4 nvmMagicF) }
    let s := (s.modBoot (fun x => { x with writeCfg := none })).set F.NVM_F_STAT_BUSY [] 0
    (s.set F.NVM_F_STAT_CFG_COPY [] c.toNat).set F.NVM_F_COUNT_WRITE_COUNT [] (leVal (memBytes s.nvmF (cfgAddr c + 8) 4))
  | none =>
    match s.boot.writeCal with
    | some (c, us) =>
      let n := ((s.calCopyOf s.calCopy).map (·.count)).getD 0 + 1
      let s := (s.putCalCopy c (some ⟨n, us⟩)).modBoot (fun x => { x with writeCal := none })
      (s.set F.NVM_F_STAT_BUSY [] 0).set F.NVM_F_STAT_CAL_COPY [] c.toNat
    | none => s

/-- The host NVM's LOAD, PROGRAM and completion (R484). -/
def nvmHLoad (s : State) : State :=
  if s.nvmHBusy then s
  else
    let b := s.hCopyBytes s.hCopy
    let b := if hostCopyOk b then b else nvmBlank nvmMagicH 256
    s.modBoot (fun x => { x with stageH := memPuts [] 0 b })

def nvmHProgram (s : State) : State :=
  if s.nvmHBusy then s
  else
    let used := s.hCopyBytes s.hCopy
    let count := if hostCopyOk used then fieldAt used 8 4 else 0
    let b := nvmSeal (memBytes s.boot.stageH 0 256) (satAdd 32 count 1)
    let s := s.modBoot (fun x => { x with stageH := memPuts [] 0 b })
    if hostBytesOk b then
      let c := !s.hCopy
      let s := { s with nvmH := memPuts s.nvmH (hCopyAddr c) (leBytes 4 0 ++ b.drop 4) }
      (s.modBoot (fun x => { x with writeH := some c })).set F.NVM_H_STAT_BUSY [] 1
    else s.raise F.NVM_H_STAT_PROG_ERR

def nvmHDone (s : State) : State :=
  match s.boot.writeH with
  | some c =>
    let s := { s with nvmH := memPuts s.nvmH (hCopyAddr c) (leBytes 4 nvmMagicH) }
    (s.modBoot (fun x => { x with writeH := none, copyH := some c })).set F.NVM_H_STAT_BUSY [] 0
  | none => s

end State

/-- NVM_F_LOAD (R482). -/
def execNvmFLoad (s : State) : Host.Outcome State Fault Refusal := 
  .next (s.hostStrobe .NVM_F_CTRL [] 0 (fun s => s.nvmFLoad))

/-- NVM_F_PROGRAM (R482). -/
def execNvmFProgram (s : State) : Host.Outcome State Fault Refusal := 
  .next (s.hostStrobe .NVM_F_CTRL [] 1 (fun s => s.nvmFProgram))

/-- STORE_CAL (R483). -/
def execStoreCal (s : State) : Host.Outcome State Fault Refusal := 
  .next (s.hostStrobe .NVM_F_CTRL [] 2 (fun s => s.nvmStoreCal))

/-- NVM_H_LOAD (R484). -/
def execNvmHLoad (s : State) : Host.Outcome State Fault Refusal := .next s.nvmHLoad

/-- NVM_H_PROGRAM (R484). -/
def execNvmHProgram (s : State) : Host.Outcome State Fault Refusal := .next s.nvmHProgram

/-- NVM_WRITE_DONE: the write in progress of the host NVM (`host`) or the field NVM is verified, and BUSY clears (R482–R484). -/
def execNvmWriteDone (host : Bool) (s : State) : Host.Outcome State Fault Refusal := .next (if host then s.nvmHDone else s.nvmFDone)

end Sys2Proof.Machine
end

