-- ==== Sys2Proof/Machine/RegRead.lean ====
section
/-! DEFINITION. Reading a setup register (R12–R17, R37, R487, R489): its value as it stands, what the read of it changes, and the register pairs. -/

namespace Sys2Proof.Machine

namespace State

/-- Key of the register at a BAR0 offset: the window of a slice's timing-set registers takes the set that EP_TS_SEL names (R96). -/
def regKey (s : State) (off : Nat) : Nat :=
  if 0x20000 ≤ off ∧ off < 0x38000 then
    let n := (off - 0x20000) / 0x2000
    let rel := (off - 0x20000) % 0x2000
    if (0x210 ≤ rel ∧ rel < 0x21C) ∨ (0x300 ≤ rel ∧ rel < 0x400) then off + s.get F.EP_TS_SEL_TS [n] * 0x100000 else off
  else off

/-! ### What the read-only fields show -/

/-- SQ_STATUS.STATE of a core (R164). -/
def coreStCode : CoreSt → Nat
  | .idle => 0
  | .running => 1
  | .waiting => 2
  | .stalled => 3
  | .halted => 4
  | .faulted => 5

/-- The context of a core that is visible outside it: that at the start of an open span (R156). -/
def coreShown (c : Core) : Ctx :=
  match c.span with
  | some p => p.start
  | none => c.ctx

/-- AO_STATUS.STATE of an output (R309, R313). -/
def aoStateCode (s : State) (o : Fin 16) : Nat :=
  let a := s.aos[o]
  if a.clamped then 0
  else if !a.committed then 1
  else if a.safe ≠ .none then 3
  else if a.calHeld then 4
  else 2

/-- Does a session own a unit, a memory range or a control-store region (R354–R358)? -/
def ownsAny (s : State) (k : Nat) : Bool :=
  [Reg.RM_OWN_UNITS, .RM_OWN_IO, .RM_OWN_MEAS, .RM_OWN_CS, .RM_MEM_SIZE].any (fun (r : Reg) => s.activeK (r.key [k]) != 0)

/-- RM_SESS_STAT.STATE of a session (R382). -/
def sessStateCode (s : State) (k : Fin 16) : Nat :=
  let x := s.sess[k]
  if x.tearing then 4
  else if x.onCore then 3
  else if (s.waits (Fin.ofNat 16 k)).isSome then 2
  else if x.seq.isSome || x.burst.isSome then 3
  else (s.ownsAny k).toNat

/-- RM_SESS_STAT.PHASE of a burst (R368): a shot under ON_TRIGGER awaits its lead unit once that unit has filled (DESIGN CHOICE, log 67). -/
def shotPhase (s : State) (b : Burst) : Nat :=
  if b.phase = 2 ∧ b.onTrigger = true ∧ s.tgState (Fin.ofNat 8 b.lead) ≠ 1 then 3 else b.phase

/-- Fields of the segment status register of a unit (R186). -/
def segStatus (s : State) (u : PlayUnit) (ph a b pend tgt : Fld) : List (Fld × Nat) :=
  match (s.feed u).play with
  | some p => [(ph, p.phase), (a, p.stagedA.toNat), (b, p.stagedB.toNat), (pend, p.pend.isSome.toNat),
      (tgt, ((p.pend.map (fun (x : Bool × Nat) => x.1)).getD false).toNat)]
  | none => [(ph, 0), (a, 0), (b, 0), (pend, 0), (tgt, 0)]

/-- Is the unit slipping (R237, R238)? -/
def unitSlips (s : State) (u : PlayUnit) : Bool :=
  match (s.feed u).play with
  | some p => p.phase == 4 && !p.wallSlip
  | none => false

/-- Does the segment in play on a slice read from its loop cache (R229)? -/
def playsPinned (s : State) (n : Fin 12) : Bool :=
  match s.slices[n].feed.play with
  | some p => p.seg.kind == 1 && pinnedLen s.slices[n].feed p.seg != 0
  | none => false

/-- The held command of a session (R405). -/
def heldCmd (h : HostSess) : Option Cmd := if h.held then h.queue.head? else none

/-- The read-only fields of a register that show a state held elsewhere, each with its value. -/
def liveFields (s : State) (r : Reg) (ix : List Nat) : List (Fld × Nat) :=
  let i := ix.getD 0 0
  let j := ix.getD 1 0
  let n : Fin 12 := Fin.ofNat 12 i
  let o : Fin 16 := Fin.ofNat 16 i
  let c : Fin 4 := Fin.ofNat 4 i
  match r with
  | .TB_TBC_LO => [(F.TB_TBC_LO_TBC, s.now % 2 ^ 32)]
  | .TB_TBC_HI => [(F.TB_TBC_HI_TBC, s.now / 2 ^ 32 % 2 ^ 32)]
  | .TB_HOLD => [(F.TB_HOLD_LAST_HOLD, if s.tb.holdStart.isSome then min s.holdMs 65535 else s.get F.TB_HOLD_LAST_HOLD)]
  | .TB_PHASE => [(F.TB_PHASE_PHASE_ERR, State.phaseField s.phaseNow)]
  | .EP_WALL_HDRM => [(F.EP_WALL_HDRM_HEADROOM, s.sliceHeadroom n)]
  | .EP_WALL_CTRL => [(F.EP_WALL_CTRL_DEPTH, s.slices[n].feed.queue.length)]
  | .EP_TS_STATUS => [(F.EP_TS_STATUS_PLAYING, s.slices[n].feed.play.isSome.toNat)]
  | .CH_BANK_STATUS => [(F.CH_BANK_STATUS_VIOA_OK, (s.stile.nvmRead && s.bankOk false).toNat),
      (F.CH_BANK_STATUS_VIOB_OK, (s.stile.nvmRead && s.bankOk true).toNat)]
  | .CH_LANE_STAT =>
    let l : Fin 8 := Fin.ofNat 8 j
    let x := s.slices[n].lanes[l]
    [(F.CH_LANE_STAT_FORCED, x.forced.toNat), (F.CH_LANE_STAT_SAFE, (decide (x.safe ≠ .none)).toNat),
      (F.CH_LANE_STAT_SPARED, (s.spareUsed n && s.get F.CH_SPARE_STATUS_LANE [i] == l.val).toNat),
      (F.CH_LANE_STAT_HELD, x.held.toNat), (F.CH_LANE_STAT_BAND, s.laneBand n l s.now)]
  | .EP_SEG_STATUS => s.segStatus (.slice n) F.EP_SEG_STATUS_PHASE F.EP_SEG_STATUS_STAGED_A F.EP_SEG_STATUS_STAGED_B
      F.EP_SEG_STATUS_JUMP_PENDING F.EP_SEG_STATUS_PENDING_TGT
  | .AO_SEG_STATUS => s.segStatus (.out o) F.AO_SEG_STATUS_PHASE F.AO_SEG_STATUS_STAGED_A F.AO_SEG_STATUS_STAGED_B
      F.AO_SEG_STATUS_JUMP_PENDING F.AO_SEG_STATUS_PENDING_TGT
  | .SQ_REGION_STATE => [(F.SQ_REGION_STATE_LOADED, s.regionsLoaded), (F.SQ_REGION_STATE_IN_USE, s.regionsUsed)]
  | .SQ_STATUS =>
    let x := s.cores[c]
    [(F.SQ_STATUS_STATE, coreStCode x.st), (F.SQ_STATUS_IN_SPAN, x.span.isSome.toNat),
      (F.SQ_STATUS_DEPTH, (coreShown x).stack.length), (F.SQ_STATUS_SESSION, x.sess)]
  | .SQ_PC => [(F.SQ_PC_PC, s.cores[c].ctx.pc)]
  | .SQ_LC0 => [(F.SQ_LC0_COUNT, (coreShown s.cores[c]).lc0)]
  | .SQ_LC1 => [(F.SQ_LC1_COUNT, (coreShown s.cores[c]).lc1)]
  | .SQ_FLAGS => [(F.SQ_FLAGS_F, (coreShown s.cores[c]).flags), (F.SQ_FLAGS_TIMED_OUT, (coreShown s.cores[c]).timedOut.toNat)]
  | .CSW_DATA => [(F.CSW_DATA_DATA, (cswData s.cswShown i).toNat)]
  | .CSW_META =>
    let v := (cswMeta s.cswShown).toNat
    [(F.CSW_META_TYPE, bitsOf v 0 2), (F.CSW_META_ECC_CORR, bitsOf v 2 1), (F.CSW_META_ECC_UNCORR, bitsOf v 3 1),
      (F.CSW_META_REGION, bitsOf v 4 4)]
  | .FW_STATUS => [(F.FW_STATUS_STATE, s.fwState c)]
  | .FW_REG => [(F.FW_REG_VALUE, s.fws[c].reg (Fin.ofNat 16 j))]
  | .FW_SCR_DATA => let e := s.get F.FW_SCR_ADDR_INDEX [i]; [(F.FW_SCR_DATA_ENTRY, smGet (Config.scramble i e % 65536) s.fws[c].table e)]
  | .VS_SL_STAT => [(F.VS_SL_STAT_LEVEL, s.slices[n].feed.buf.length), (F.VS_SL_STAT_SLIPPING, (s.unitSlips (.slice n)).toNat),
      (F.VS_SL_STAT_PINNED_SRC, (s.playsPinned n).toNat)]
  | .GL_FB_STAT => [(F.GL_FB_STAT_LEVEL, s.slices[n].fails.length)]
  | .TM_IN_STAT => [(F.TM_IN_STAT_LEVEL, s.inputs[(Fin.ofNat 112 i : Fin 112)].fifo.length)]
  | .AO_STATUS => [(F.AO_STATUS_STATE, s.aoStateCode o), (F.AO_STATUS_STALE, s.aos[o].calHeld.toNat),
      (F.AO_STATUS_LIMITING, (s.aoLimited o && s.aoValue o != s.aoTarget o).toNat)]
  | .AO_WALL_HDRM => [(F.AO_WALL_HDRM_HEADROOM, s.aoHeadroom o)]
  | .AO_WALL_CTRL => [(F.AO_WALL_CTRL_DEPTH, s.aos[o].feed.queue.length)]
  | .AO_REFILL => [(F.AO_REFILL_LEVEL, s.aos[o].feed.buf.length), (F.AO_REFILL_SLIPPING, (s.unitSlips (.out o)).toNat)]
  | .AO_TBL_DATA => [(F.AO_TBL_DATA_ENTRY, (s.aoEntry o (s.get F.AO_TBL_ADDR_INDEX [i])).toNat)]
  | .HR_SW_STATE => [(F.HR_SW_STATE_SW, s.hr.sw)]
  | .HR_CG_STAT => [(F.HR_CG_STAT_ENABLED, s.hr.cgs[o].toNat)]
  | .RM_SESS_STAT =>
    let x := s.sess[o]
    [(F.RM_SESS_STAT_STATE, s.sessStateCode o), (F.RM_SESS_STAT_CORE, x.core), (F.RM_SESS_STAT_BURST, x.burst.isSome.toNat),
      (F.RM_SESS_STAT_PHASE, (x.burst.map s.shotPhase).getD 0)]
  | .RING_STAT =>
    let h := s.host[o]
    [(F.RING_STAT_CMD_HEAD, h.rings[0].rd), (F.RING_STAT_HELD, h.held.toNat), (F.RING_STAT_GO_LATCHED, h.goLatch.isSome.toNat),
      (F.RING_STAT_STOPPED, h.stopped.toNat)]
  | .RING_HELD => match heldCmd s.host[o] with
    | some x => [(F.RING_HELD_HELD_TAG, x.tag), (F.RING_HELD_HELD_EPOCH, x.epoch)]
    | none => []
  | .HI_LINK => if s.boot.linkUp then
      [(F.HI_LINK_SPEED, min (1 + Config.link 0 % 4) (s.boot.link % 16)), (F.HI_LINK_WIDTH, min (2 ^ (Config.link 1 % 4)) (s.boot.link / 16))] else []
  | .SYS_STATUS => [(F.SYS_STATUS_FIELD, s.get F.ST_STATUS_FIELD), (F.SYS_STATUS_HNVM_OK, s.get F.NVM_H_STAT_VALID),
      (F.SYS_STATUS_ACC_LOGGED, s.tot F.HI_ACC_LOG_VALID)]
  | .NVM_H_DATA => [(F.NVM_H_DATA_DATA, leVal (memBytes s.boot.stageH (s.get F.NVM_H_ADDR_OFFSET) 4))]
  | .NVM_F_DATA =>
    let a := s.get F.NVM_F_ADDR_OFFSET
    let v :=
      if s.get F.NVM_F_ADDR_SPACE = 0 then
        if a < 4096 then leVal (memBytes s.boot.stageF a 4) else Config.nvmContent (65536 + a) 0 % 2 ^ 32
      else if 0x1000 ≤ a ∧ a < 0x3000 then leVal (memBytes s.nvmF a 4)
      else Config.nvmContent a ((s.calCopyOf false).elim 0 (·.count) + 2 ^ 32 * (s.calCopyOf true).elim 0 (·.count)) % 2 ^ 32
    [(F.NVM_F_DATA_DATA, v)]
  | _ => []

/-! ### The value of a register -/

/-- A field as a read returns it: RWS fields from the copy that VIEW selects, WO fields 0, and the rest as they stand (R15, R16, R37). -/
def fieldShown (s : State) (k : Nat) (f : FieldRow) : Nat :=
  let w := match f.acc with
    | .rws => if s.get F.SYS_COMMIT_INFO_VIEW = 1 then s.activeK k else s.shadowK k
    | .wo => 0
    | .w1c => s.total k
    | _ => s.getK k
  bitsOf w.toNat f.lsb f.width * 2 ^ f.lsb

/-- The value of the register at a key; a key that the map does not list reads 0 (R14, R487). -/
def regValue (s : State) (k : Nat) : Word :=
  match regAt k with
  | some (r, ix) =>
    let v := (r.row.fields.map (s.fieldShown k)).sum
    BitVec.ofNat 32 ((s.liveFields r ix).foldl (fun v (p : Fld × Nat) => putBits v p.1.lsb p.1.width p.2) v)
  | none => 0

/-! ### What a read changes -/

/-- Clear the RC fields of a register to their reset values; what this event cycle added stays for the next read (R16). -/
def clearRc (s : State) (k : Nat) : State :=
  match regAt k with
  | some (r, _) => s.putK k (BitVec.ofNat 32 (r.row.fields.foldl (fun v (f : FieldRow) =>
      if f.acc = .rc then putBits v f.lsb f.width f.reset else v) (s.getK k).toNat))
  | none => s

/-- An access to NVM_F_DATA or NVM_H_DATA steps OFFSET under AUTOINC (R485). -/
def nvmStep (s : State) (host : Bool) : State :=
  if host then
    if s.get F.NVM_H_ADDR_AUTOINC = 1 then s.set F.NVM_H_ADDR_OFFSET [] ((s.get F.NVM_H_ADDR_OFFSET + 4) % 256) else s
  else if s.get F.NVM_F_ADDR_AUTOINC = 1 then s.set F.NVM_F_ADDR_OFFSET [] ((s.get F.NVM_F_ADDR_OFFSET + 4) % 65536) else s

/-- An access to FW_SCR_DATA steps INDEX under AUTOINC (R212). -/
def fwScrStep (s : State) (g : Nat) : State :=
  if s.get F.FW_SCR_ADDR_AUTOINC [g] = 1 then s.set F.FW_SCR_ADDR_INDEX [g] ((s.get F.FW_SCR_ADDR_INDEX [g] + 1) % 65536) else s

/-- What the read of a register changes beside a pair's latch (R16, R164, R212, R302, R485). -/
def readEffect (s : State) (k : Nat) : State :=
  match regAt k with
  | some (.CSW_DATA, ix) =>
    if ix.getD 0 0 = 0 then let a := s.get F.CSW_ADDR_ADDR; { s with cs := { s.cs with latch := some (a, s.csWord a) } }
    else if ix.getD 0 0 = 5 ∧ s.get F.CSW_ADDR_AUTOINC = 1 then s.set F.CSW_ADDR_ADDR [] ((s.get F.CSW_ADDR_ADDR + 1) % 2 ^ 14)
    else s
  | some (.FW_SCR_DATA, ix) => s.fwScrStep (ix.getD 0 0)
  | some (.AO_TBL_DATA, ix) => s.aoTblStep (Fin.ofNat 16 (ix.getD 0 0))
  | some (.NVM_F_DATA, _) => s.nvmStep false
  | some (.NVM_H_DATA, _) => s.nvmStep true
  | some (_, _) => s.clearRc k
  | none => s

/-- The register value that a read returns when no latch stands: CSW_DATA0 shows the word at ADDR anew (R164). -/
def readLive (s : State) (k : Nat) : Word :=
  match regAt k with
  | some (.CSW_DATA, ix) => if ix.getD 0 0 = 0 then let a := s.get F.CSW_ADDR_ADDR; cswData (a, s.csWord a) 0 else s.regValue k
  | _ => s.regValue k

/-! ### Register pairs (R13) and the latches of R489 -/

/-- Key of the high half of the pair whose low half is at `k`. -/
def pairHi (k : Nat) : Nat := if k = 0x8000C then 0x8001C else k + 4

/-- Key of the low half of the pair whose high half is at `k`. -/
def pairLo (k : Nat) : Nat := if k = 0x8001C then 0x8000C else k - 4

/-- The half of a pair that a key is. -/
def pairOf (k : Nat) : PairHalf :=
  match regAt k with
  | some (r, _) => r.row.pair
  | none => .no

/-- The value a map of latches or held values holds at a key. -/
def latchGet (m : SMap Word) (k : Nat) : Option Word := (m.find? (fun p => p.1 == k)).map (·.2)

/-- Put a latch, replacing an earlier one. -/
def latchPut (m : SMap Word) (k : Nat) (v : Word) : SMap Word := smInsert k v (smErase k m)

/-- Put back BAR0's latches. -/
def keepLatch (s : State) (m : SMap Word) : State := { s with regs := { s.regs with pairLatch := m } }

/-- One read through a list of latches: the value, the latches and the state after it (R13). -/
def readThrough (s : State) (lat : SMap Word) (k : Nat) : Word × SMap Word × State :=
  match pairOf k with
  | .lo => (s.readLive k, latchPut lat (pairHi k) (s.readLive (pairHi k)), s.readEffect k)
  | _ => match latchGet lat k with
    | some v => (v, smErase k lat, s.readEffect k)
    | none => (s.readLive k, lat, s.readEffect k)

/-- A read by BAR0: BAR0's own latches, and the latches of R489. That it arrives shows that the link has trained (R411). -/
def bar0Value (s : State) (k : Nat) : Word × State :=
  let s := s.modBoot (fun b => { b with linkUp := true })
  let lat := if k = 0x4C then latchPut (latchPut s.regs.pairLatch 0x50 (s.regValue 0x50)) 0x54 (s.regValue 0x54) else s.regs.pairLatch
  let r := s.readThrough lat k
  (r.1, r.2.2.keepLatch r.2.1)

/-- A read of a register of the H-die. -/
def bar0Read (s : State) (k : Nat) : State :=
  let r := s.bar0Value k
  r.2.reply r.1

/-- A BAR0 read of the register at an offset: on the F-die it needs the Stile (R23, R426), and behind a replay it waits (R421). -/
def hostRead (s : State) (off : Nat) : State :=
  if keyOnHost off then s.bar0Read (s.regKey off) else s.readField (.barRd off) (fun s => s.bar0Value (s.regKey off))

end State

end Sys2Proof.Machine
end

