-- ==== Sys2Proof/Machine/Resets.lean ====
section
/-! DEFINITION. Losing the Stile, the resets of either side, and the field side's boot (R425–R429, R471–R474, R481). -/

namespace Sys2Proof.Machine

namespace State

/-! ### FIELD (R425, R428) -/

/-- ST_STATUS.FIELD becomes UP, and the messages held for the host are delivered (R425, R428). -/
def fieldComesUp (s : State) : State :=
  let s := if s.get F.ST_STATUS_FIELD = 3 then s else (s.set F.ST_STATUS_FIELD [] 3).raise F.ST_EVENTS_FIELD_UP
  let q := s.stile.out
  let s := s.modStile (fun x => { x with lost := false, out := [] })
  q.foldl (fun s (p : Nat × Msg) => s.sendMsg (Fin.ofNat 16 p.1) p.2) s

/-! ### Resets (R471, R472) -/

/-- The part of a register map that one die holds. -/
def dieRegs (host : Bool) {α : Type} (m : SMap α) : SMap α := m.filter (fun p => keyOnHost p.1 == host)

/-- Every commit that has not copied ends with ABORTED (R45, R471). -/
def dropCommits (s : State) : State :=
  let s := s.discardPends (fun _ => true)
  let s := match s.commit.pin with
    | some j => s.reportCommit j.ring .aborted
    | none => s
  let s := s.commit.wait.foldl (fun s w => s.reportCommit w.ring .aborted) s
  (s.modCommit (fun _ => ⟨none, [], []⟩)).showBusy.showPending

/-- A field reset: every F-die register, counter, queue and table takes its reset value; what the H-die, the balls, field DDR4 and the NVMs hold
stays (R471, log 26), and so do the scramble and output tables, which are not reset (R205, R302). -/
def fieldReset (s : State) : State :=
  let s := (s.fieldLeave 0).dropCommits
  let z := State.reset
  { z with
    fws := Vector.ofFn (fun g : Fin 4 => { z.fws[g] with table := s.fws[g].table })
    aos := Vector.ofFn (fun o : Fin 16 => { z.aos[o] with table := s.aos[o].table })
    regs := { z.regs with
      main := smSet (resetVal 0x78000) (dieRegs true s.regs.main) 0x78000 (BitVec.ofNat 32 s.net.strap), fresh := dieRegs true s.regs.fresh, pairLatch := dieRegs true s.regs.pairLatch, pairHeld := dieRegs true s.regs.pairHeld }
    host := s.host
    stile := { z.stile with
      failsH := s.stile.failsH, rxH := s.stile.rxH, nakH := s.stile.nakH, replayH := s.stile.replayH, waitH := s.stile.waitH, sentH := s.stile.sentH, txH := s.stile.txH, slot := s.stile.slot, owedH := s.stile.owedH,
      replies := s.stile.replies, deadH2F := s.stile.deadH2F, deadF2H := s.stile.deadF2H }
    net := { z.net with strap := s.net.strap }
    boot := { z.boot with
      hostOn := s.boot.hostOn, linkUp := s.boot.linkUp, fieldOn := s.boot.fieldOn, stageH := s.boot.stageH, copyH := s.boot.copyH, writeH := s.boot.writeH,
      calCopies := s.boot.calCopies, ssvid := s.boot.ssvid, ssid := s.boot.ssid, link := s.boot.link }
    ddr := s.ddr
    hostMem := s.hostMem
    nvmF := s.nvmF
    nvmH := s.nvmH
    irqs := s.irqs
    lastRead := s.lastRead
    freeCtr := s.freeCtr
    pending := s.pending }

/-- What the scramble and output tables held is undefined once the field side has lost its supply (DESIGN CHOICE, log 21). -/
def loseTables (s : State) : State :=
  { s with
    fws := s.fws.map (fun g => { g with table := [] })
    aos := s.aos.map (fun o => { o with table := [] }) }

/-- The H-die reads its NVM: subsystem identity and link limits, and NVM_H_STAT.VALID (R484, R485). -/
def readHostNvm (s : State) : State :=
  let a := s.hCopyBytes false
  let b := s.hCopyBytes true
  let c := nvmChoose (hostCopyOk a) (hostCopyOk b) (fieldAt a 8 4) (fieldAt b 8 4)
  let s := s.set F.NVM_H_STAT_VALID [] c.isSome.toNat
  match c with
  | some x =>
    let d := s.hCopyBytes x
    s.modBoot (fun y => { y with copyH := c, ssvid := fieldAt d 0x10 2, ssid := fieldAt d 0x12 2, link := fieldAt d 0x14 1 })
  | none => s.modBoot (fun y => { y with copyH := none, ssvid := 0x1E7A, ssid := 0x9600, link := 0x84 })

/-- A host reset drops the ring commits that wait in the engine; those of SYS_COMMIT go on (log 38). -/
def dropRingCommits (s : State) : State :=
  let held := (s.commit.pin.bind (fun (j : PinJob) => j.ring)).isSome
  let s := s.modCommit (fun e => { e with
    pends := e.pends.filter (fun p => p.ring.isNone), wait := e.wait.filter (fun w => w.ring.isNone) })
  if held then s.engineFree else s

/-- A host power-on or conventional reset: every H-die register, ring, doorbell page and epoch takes its reset value, and the host NVM is read
again; the field side loses the Stile until the link has started again (R472). -/
def hostReset (s : State) : State :=
  let z := State.reset
  let s := s.dropRingCommits
  let s := { s with
    regs := { s.regs with
      main := dieRegs false s.regs.main, fresh := dieRegs false s.regs.fresh, pairLatch := dieRegs false s.regs.pairLatch, pairHeld := dieRegs false s.regs.pairHeld }
    host := z.host
    stile := { s.stile with
      failsH := 0, rxH := 0, nakH := false, replayH := none, waitH := 0, sentH := [], txH := 0, owedH := 0, replies := [], deadH2F := false, deadF2H := false, hostReads := [] }
    boot := { s.boot with linkUp := false, stageH := [], writeH := none } }
  s.readHostNvm

/-! ### Field boot (R473) -/

/-- Write both copies of a shadowed field. -/
def putBoth (s : State) (f : Fld) (ix : List Nat) (v : Nat) : State :=
  let k := f.reg.key ix
  let w (x : Word) : Word := BitVec.ofNat 32 (putBits x.toNat f.lsb f.width v)
  (s.putShadow k (w (s.shadowK k))).putActive k (w (s.activeK k))

/-- The channel entry of a lane: its mode, and its ball's power-up state (R119). -/
def bootLane (s : State) (n : Fin 12) (l : Fin 8) (code mode : Nat) : State :=
  let p := powerBall code
  ((s.putBoth F.CH_LANE_CFG_MODE [n, l] mode).modLane n l (fun x => { x with level := p.1, enable := p.2.1, pull := p.2.2, power := code })).keepLanes n

/-- The output entry: its span, and the driver enabled at the park value; without an entry the driver stays off (R310). -/
def bootOutput (s : State) (o : Fin 16) (e : Option (Nat × Int)) : State :=
  match e with
  | some (span, v) => (s.putBoth F.AO_CFG_SPAN [o] span).modAo o (fun a => { a with
      park := some (span, v), clamped := false, value := parkCode span (some (span, v)) })
  | none => s.modAo o (fun a => { a with park := none, clamped := true })

/-- Step 1 of R473: the copies are chosen and every entry is applied (R119, R310, R431, R481). -/
def bootNvm (s : State) : State :=
  let a := s.cfgBytes false
  let b := s.cfgBytes true
  let c := nvmChoose (cfgOk a) (cfgOk b) (fieldAt a 8 4) (fieldAt b 8 4)
  let d := s.cfgBytes (c.getD false)
  let ok := c.isSome
  let by_ (i : Nat) : Nat := fieldAt d i 1
  let s := (s.set F.NVM_F_STAT_CFG_OK [] ok.toNat).set F.NVM_F_STAT_CFG_COPY [] ((c.getD false).toNat)
  let s := s.set F.NVM_F_COUNT_WRITE_COUNT [] (if ok then fieldAt d 8 4 else 0)
  let s := s.overSlices (fun n s =>
    let e := if ok then by_ (0x20 + n) else 0
    let s := (s.putBoth F.CH_SLICE_CFG_BANK [n] (e % 2)).putBoth F.CH_SLICE_CFG_VIO_CLASS [n] (e / 2 % 8)
    overLanes (fun l s => let e := if ok then by_ (0x40 + 8 * n + l) else 6; s.bootLane n l (e % 4) (e / 4 % 4)) s)
  let s := s.overOutputs (fun o s =>
    s.bootOutput o (if ok then some (by_ (0xA0 + 8 * o) % 8, signedOf (fieldAt d (0xA4 + 8 * o) 4) 32) else none))
  let ovr := ok && bitOf (by_ 0x10) 7
  let s := (s.set F.TL_ROLE_ROLE [] (if ovr then by_ 0x10 % 4 else s.net.strap)).set F.TL_ROLE_FROM_NVM [] ovr.toNat
  (s.modBoot (fun x => { x with boot := if ok then by_ 0x11 % 4 else 0 })).modNet (fun n => { n with serial := Config.nvmContent 0 0 % 2 ^ 64 })

/-- The calibration copy is chosen, every unit takes its constants, and becomes due with POWERUP; without a copy each starts from mid-range trims and is
DEGRADED (R343, R481, R483). A unit without a record in the copy starts from mid-range trims too (log 66). -/
def bootCal (s : State) : State :=
  let a := s.calCopyOf false
  let b := s.calCopyOf true
  let c := nvmChoose a.isSome b.isSome (a.elim 0 (·.count)) (b.elim 0 (·.count))
  let s := (s.set F.NVM_F_STAT_CAL_OK [] c.isSome.toNat).set F.NVM_F_STAT_CAL_COPY [] ((c.getD false).toNat)
  (List.finRange 36).foldl (fun s (u : Fin 36) =>
    if calCode u then
      let s := if c.isNone then s.set F.CAL_UNIT_STAT_DEGRADED [u] 1 else s
      let r := (s.calRecord u).getD []
      (s.modCalUnit u (fun x => { x with temp := s.cal.lastTemp, start := (s.now : Int), trims := r })).calDue u 0
    else s) s

/-- The field side boots once its supplies are valid and its reset has ended: steps 1, 2 and 4 of R473; the operands are the
voltages of VIOA and VIOB in mV, as the supply monitor finds them (R104). -/
def fieldBoot (s : State) (mvA mvB : Nat) : State :=
  if s.stile.fieldRuns || !s.boot.fieldOn then s
  else
    let s := (s.modStile (fun x => { x with fieldRuns := true, nvmRead := true })).bootNvm
    let s := (s.bankVolts false mvA).bankVolts true mvB
    let ok (b : Bool) (mv : Nat) : Bool := !s.bankUsed b || s.bankInRange b mv
    let s := ((s.setBank false (ok false mvA)).setBank true (ok true mvB)).set F.FLT_SUPPLY_OK []
      (7 + 8 * (ok false mvA).toNat + 16 * (ok true mvB).toNat)
    let s := s.bootCal.set F.NVM_BOOT_STAT_NVM_DONE [] 1
    (List.finRange 4).foldl (fun s (p : Fin 4) =>
      if s.portUsed p then s.set F.TL_PORT_STAT_STATE [p] 1 else s) s

/-- An SPI NOR boot begins (R475, R477). -/
def spiBegin (s : State) : State :=
  let s := s.putK (Reg.key .NVM_BOOT_CMT []) 0
  let s := (s.set F.NVM_BOOT_STAT_SPI_ERR [] 0).set F.NVM_BOOT_STAT_SKIPPED [] 0
  (s.set F.NVM_BOOT_STAT_SPI_STATE [] 1).set F.NVM_BOOT_STAT_BOOT_BUSY [] 1

end State

end Sys2Proof.Machine
end

