-- ==== Sys2Proof/Machine/RegWrite.lean ====
section
/-! DEFINITION. Writing a setup register (R12–R16, R37, R426, R487): the access codes, what the write of each register does, the register pairs, and
the accesses that a manager starts in another device (R442). -/

namespace Sys2Proof.Machine

/-- The state a meaning answers, the given one where it stops. -/
def ran (o : Host.Outcome State Fault Refusal) (s : State) : State :=
  match o with
  | .next t => t
  | _ => s

/-- `old` with the bits of a mask taken from `new`. -/
def mixBits (old new mask : Nat) : Nat := (old &&& (0xFFFFFFFF ^^^ mask)) ||| (new &&& mask)

/-- Bits that a register of an array holds: FW_INIT is as wide as its runtime register (R189, R212). -/
def heldMask (r : Reg) (ix : List Nat) : Nat := if r = .FW_INIT then 2 ^ fwWidth (ix.getD 1 0) - 1 else 2 ^ 32 - 1

namespace State

/-- A write by the access codes alone: RW fields take the value, W1C fields clear where it is 1, RWS fields go to the shadow copy, and the rest
ignores it (R14, R15, R16). -/
def plainWrite (s : State) (k : Nat) (v : Word) : State :=
  match regAt k with
  | none => s
  | some (r, ix) =>
    let old := (s.getK k).toNat
    let clr := v.toNat &&& accMask r (· == .w1c)
    let main := mixBits (mixBits old v.toNat (accMask r (· == .rw))) 0 clr
    let s := s.putK k (BitVec.ofNat 32 main)
    let rws := accMask r (· == .rws) &&& heldMask r ix
    if rws = 0 then s else s.putShadow k (BitVec.ofNat 32 (mixBits (s.shadowK k).toNat v.toNat rws))

/-- A strobe: act where its bit is 1. -/
def strobe (v : Word) (b : Nat) (f : State → State) (s : State) : State := if bitOf v.toNat b then f s else s

/-- TB_HOLD: a limit at or below the time already spent in the present holdover sets EPOCH_SUSPECT at once (R67). -/
def holdWrite (s : State) (k : Nat) (v : Word) : State :=
  let s := s.plainWrite k v
  if s.tb.holdStart.isSome ∧ s.get F.TB_HOLD_HOLD_LIMIT ≤ s.holdMs then s.set F.TB_STATUS_EPOCH_SUSPECT [] 1 else s

/-- TB_EPOCH_CTRL: in mode 0 SYNCOUT is driven low at once (R75). -/
def epochCtrlWrite (s : State) (k : Nat) (v : Word) : State :=
  let s := s.plainWrite k v
  if s.get F.TB_EPOCH_CTRL_SYNCOUT_MODE = 0 then s.modTb (fun t => { t with syncoutLeft := 0 }) else s

/-- CH_SPARE_CTRL: FORCE, then RESTORE, whose measured edge error is a free value here (R123, log 6). -/
def spareWrite (s : State) (n : Fin 12) (k : Nat) (v : Word) : State :=
  let l : Fin 8 := Fin.ofNat 8 v.toNat
  let s := s.plainWrite k v
  let s := strobe v 3 (fun s => s.spareForce n l) s
  strobe v 4 (fun s => let e := s.fresh? 16; e.2.spareRestore n l (signedOf e.1 16)) s

/-- RM_SESS_CTRL: TEARDOWN, with SCRUB, and ABORT (R157, R360, R361, R375). -/
def sessCtrlWrite (s : State) (k : Fin 16) (v : Word) : State :=
  let s := strobe v 0 (fun s => s.teardown k (bitOf v.toNat 1)) s
  strobe v 2 (fun s => s.abortSess k) s

/-- FLT_TEMP_CFG: a TRIP outside 850 to 1,250 is written as the nearer limit (R460). -/
def tempCfgWrite (s : State) (k : Nat) (v : Word) : State :=
  let t := max 850 (min 1250 (bitsOf v.toNat 16 12))
  s.plainWrite k (BitVec.ofNat 32 (putBits v.toNat 16 12 t))

/-- NVM_F_DATA: a word of the staging buffer; SPACE 1 is read only (R482, R485). -/
def nvmFDataWrite (s : State) (v : Word) : State :=
  let a := s.get F.NVM_F_ADDR_OFFSET
  let s := if s.get F.NVM_F_ADDR_SPACE = 0 ∧ a < 4096 then s.modBoot (fun b => { b with stageF := memPuts b.stageF a (leBytes 4 v.toNat) }) else s
  s.nvmStep false

/-- NVM_H_DATA: a word of the staging buffer (R484, R485). -/
def nvmHDataWrite (s : State) (v : Word) : State :=
  let a := s.get F.NVM_H_ADDR_OFFSET
  (s.modBoot (fun b => { b with stageH := memPuts b.stageH a (leBytes 4 v.toNat) })).nvmStep true

/-- FLT_CS_STAGE: a change of STAGE (R465). -/
def stageWrite (s : State) (k : Fin 16) (v : Word) : State :=
  if bitOf v.toNat 0 then s.stageSet k else if s.get F.FLT_CS_STAGE_STAGE [k] = 1 then s.stageClear k else s

/-- GL_RGN_RPTR: discarded while a FILL region is forwarded; a write that is taken is software's word on what it has consumed (R408). -/
def rptrWrite (s : State) (n r k : Nat) (v : Word) : State :=
  if s.fwdOn (Fin.ofNat 16 n) r && !s.rgnWrap n r then s
  else (s.plainWrite k v).modGl (Fin.ofNat 16 n) (fun g => { g with bigHeld := g.bigHeld && r != 1 })

/-- ST_CTRL.FIELD_RESET: FIELD_RESET is sent, unless FIELD is ABSENT, and resets the field side; behind a replay it waits (R421, R430, R470). -/
def fieldResetAsk (s : State) : State :=
  if s.get F.ST_STATUS_FIELD = 0 then s else s.cross false .fieldReset (fun s => s.fieldReset)

/-- A write of the register at a key, every strobe of it included. Strobe bits of one word act in ascending bit order (DESIGN CHOICE, log 27). A remote
access is left to `regWrite`. -/
def regWriteBase (s : State) (k : Nat) (v : Word) : State :=
  let n := v.toNat
  match regAt k with
  | none => s
  | some (r, ix) =>
    let i := ix.getD 0 0
    match r with
    | .SYS_COMMIT => strobe v 31 (fun s => ran (execSysCommitGo (Fin.ofNat 16 n) (Fin.ofNat 256 (n / 256)) s) s) s
    | .TB_CTRL => strobe v 0 (fun s => s.relock) s
    | .TB_EPOCH_CTRL => strobe v 10 (fun s => s.emit) (s.epochCtrlWrite k v)
    | .TB_HOLD => s.holdWrite k v
    | .CH_SPARE_CTRL => s.spareWrite (Fin.ofNat 12 i) k v
    | .SQ_CTRL =>
      let c : Fin 4 := Fin.ofNat 4 i
      strobe v 2 (fun s => s.stepCore c) (strobe v 1 (fun s => s.resumeCore c) (strobe v 0 (fun s => s.haltCore c) s))
    | .CSW_ADDR => s.cswAddr v
    | .FW_SCR_DATA => s.fwScrPut (Fin.ofNat 4 i) v
    | .AO_TBL_DATA => s.aoTblPut (Fin.ofNat 16 i) v
    | .VS_INV => strobe v 1 (fun s => s.invPages (Fin.ofNat 16 i)) (strobe v 0 (fun s => s.invTlb (Fin.ofNat 16 i)) s)
    | .TG_CTRL =>
      let u : Fin 8 := Fin.ofNat 8 i
      strobe v 2 (fun s => s.forceTrigger u)
        (strobe v 1 (fun s => s.stopTrigger u false) (strobe v 0 (fun s => s.armTrigger u) s))
    | .GL_RGN_RPTR => s.rptrWrite i (ix.getD 1 0) k v
    | .HR_SW => s.swWrite (bitsOf n 0 8) (bitsOf n 8 8) (bitsOf n 16 8)
    | .CAL_CMD => strobe v 31 (fun s => s.calCmd (Fin.ofNat 64 n)) s
    | .RM_SESS_CTRL => s.sessCtrlWrite (Fin.ofNat 16 i) v
    | .FLT_TEMP_CFG => s.tempCfgWrite k v
    | .FLT_CORE =>
      let c : Fin 4 := Fin.ofNat 4 i
      strobe v 1 (fun s => s.coreOnline c) (strobe v 0 (fun s => s.coreOffline c) (s.plainWrite k v))
    | .FLT_INJ_CTRL => strobe v 17 (fun s => s.injCancel) (strobe v 16 (fun s => s.injArm (n % 65536)) (s.plainWrite k v))
    | .FLT_CS_STAGE => s.stageWrite (Fin.ofNat 16 i) v
    | .FLT_CS_SWAP => strobe v 0 (fun s => s.swapGo (Fin.ofNat 16 i)) s
    | .NVM_H_ADDR => s.plainWrite k (BitVec.ofNat 32 (putBits n 0 2 0))
    | .NVM_F_ADDR => s.plainWrite k (BitVec.ofNat 32 (putBits n 0 2 0))
    | .NVM_H_DATA => s.nvmHDataWrite v
    | .NVM_F_DATA => s.nvmFDataWrite v
    | .NVM_H_CTRL => strobe v 1 (fun s => s.nvmHProgram) (strobe v 0 (fun s => s.nvmHLoad) s)
    | .NVM_F_CTRL => strobe v 2 (fun s => s.nvmStoreCal) (strobe v 1 (fun s => s.nvmFProgram) (strobe v 0 (fun s => s.nvmFLoad) s))
    | .ST_CTRL => strobe v 0 (fun s => s.fieldResetAsk) s
    | .TL_DISC_CTRL => strobe v 0 (fun s => s.discover) s
    | .TL_ALIGN_CTRL => strobe v 0 (fun s => s.alignStart) (s.plainWrite k v)
    | _ => s.plainWrite k v

/-! ### Register pairs (R13) -/

/-- One write through a map of held low values: the low half is held, and the high half makes both take effect together. It gives the map after it
and the writes that take effect. -/
def writeThrough (held : SMap Word) (k : Nat) (v : Word) : SMap Word × List (Nat × Word) :=
  match pairOf k with
  | .lo => (latchPut held k v, [])
  | .hi => match latchGet held (pairLo k) with
    | some l => (smErase (pairLo k) held, [(pairLo k, l), (k, v)])
    | none => (held, [(k, v)])
  | .no => (held, [(k, v)])

/-- Put back BAR0's held low values. -/
def keepHeld (s : State) (m : SMap Word) : State := { s with regs := { s.regs with pairHeld := m } }

/-- A BAR0 write, with BAR0's own held values. -/
def bar0Put (s : State) (k : Nat) (v : Word) (wr : State → Nat → Word → State) : State :=
  let r := writeThrough s.regs.pairHeld k v
  r.2.foldl (fun (s : State) (p : Nat × Word) => wr s p.1 p.2) (s.keepHeld r.1)

/-! ### Remote register access (R442) -/

/-- A remote access names this offset wrongly: unaligned, or on the H-die and neither SYS_COMMIT nor SYS_COMMIT_STATUS. -/
def raccBad (o : Nat) : Bool := o % 4 != 0 || (keyOnHost o && o != 0x40 && o != 0x44)

/-- A remote write takes effect in this device; `wr` writes a register. -/
def raccWrite (s : State) (o : Nat) (v : Word) (wr : State → Nat → Word → State) : State :=
  if o = 0x40 then strobe v 31 (fun s => s.commitGo (bitsOf v.toNat 0 4) (bitsOf v.toNat 8 8)) s
  else if o = 0x44 then s
  else s.bar0Put (s.regKey o) v wr

/-- A remote read in this device: the value and the state after it. -/
def raccRead (s : State) (o : Nat) : Word × State :=
  if o = 0x40 then (0, s)
  else if o = 0x44 then (s.regValue o, s)
  else
    let r := s.readThrough s.regs.pairLatch (s.regKey o)
    (r.1, r.2.2.keepLatch r.2.1)

/-- Port towards a numbered device of this crate, or of this cluster on its root. -/
def raccPort (s : State) (dev crate : Nat) : Option Nat :=
  if s.net.discovering || !s.numbered then none
  else if s.role ≠ 1 ∧ s.role ≠ 2 then none
  else if crate = s.get F.TL_ROLE_CRATE then
    if dev = 0 then none else (s.workersOf[dev - 1]?).map (fun (r : Report) => r.path.headD 0)
  else if crate = 0 then none
  else (s.cratesOf[crate - 1]?).map (fun (r : Report) => r.path.headD 0)

/-- A remote access leaves on a port, which awaits its answer. -/
def raccAsk (s : State) (p : Fin 4) (crate dev : Nat) (own : Bool) (m : NetMsg) : State :=
  (s.netSend p m).modPort p (fun x => { x with asks := x.asks ++ [⟨crate, dev, own, true⟩] })

/-- A remote access ends with a status. -/
def raccDone (s : State) (st : Status) : State := (s.set F.TL_RACC_STAT_BUSY [] 0).set F.TL_RACC_STAT_STATUS [] st.code

/-- A write of TL_RACC_TGT.GO: the access named by TL_RACC_TGT, TL_RACC_OFS and TL_RACC_DATA is refused, done in this device, or sent (R442). The
checks run in the order of R19, FAULT last (DESIGN CHOICE, log 28). A manager's own write of TL_RACC_TGT.GO this way finds BUSY set and is ignored. -/
def raccGo (s : State) : State :=
  if s.get F.TL_RACC_STAT_BUSY = 1 then s
  else
    let dev := s.get F.TL_RACC_TGT_DEVICE
    let crate := if s.role = 2 then s.get F.TL_RACC_TGT_CRATE else s.get F.TL_ROLE_CRATE
    let o := s.get F.TL_RACC_OFS_OFFSET
    let v := s.getK (Reg.key .TL_RACC_DATA [])
    let wr := s.get F.TL_RACC_TGT_WRITE == 1
    let self := s.numbered && (s.role == 1 || s.role == 2) && dev == 0 && crate == s.get F.TL_ROLE_CRATE
    let port := s.raccPort dev crate
    if !self && port.isNone then s.raccDone .resourceBusy
    else if raccBad o then s.raccDone .commitRange
    else if self then
      if wr then (s.raccWrite o v regWriteBase).raccDone .ok
      else let r := s.raccRead o; (r.2.putK (Reg.key .TL_RACC_DATA []) r.1).raccDone .ok
    else
      let p : Fin 4 := Fin.ofNat 4 (port.getD 0)
      if s.portUp p then
        ((s.raccAsk p crate dev true (if wr then .raccWr crate dev o v.toNat else .raccRd crate dev o)).set F.TL_RACC_STAT_BUSY [] 1).modNet
          (fun n => { n with raccAt := s.now })
      else s.raccDone .fault

/-- A write of TL_RACC_TGT: its fields, then GO (R453). -/
def raccTgtWrite (s : State) (v : Word) : State :=
  strobe v 31 (fun s => s.raccGo) (s.plainWrite (Reg.key .TL_RACC_TGT []) v)

/-- A write of the register at a key. -/
def regWrite (s : State) (k : Nat) (v : Word) : State :=
  if k = Reg.key .TL_RACC_TGT [] then s.raccTgtWrite v else s.regWriteBase k v

/-- A BAR0 write of the register at an offset: on the F-die it needs the Stile (R23, R426), and behind a replay it waits (R421). -/
def hostWriteReg (s : State) (off : Nat) (v : Word) : State :=
  if keyOnHost off then s.bar0Put (s.regKey off) v regWrite
  else s.toField (.barWr off v) (fun s => s.bar0Put (s.regKey off) v regWrite)

end State

/-- TL_RACC_GO: a write of TL_RACC_TGT with GO (R442). -/
def execTlRaccGo (v : Word) (s : State) : Host.Outcome State Fault Refusal :=
  let w : Word := BitVec.ofNat 32 (putBits v.toNat 31 1 1)
  .next (s.toField (.barWr (Reg.key .TL_RACC_TGT []) w) (fun s => s.raccTgtWrite w))

end Sys2Proof.Machine
end

