-- ==== Sys2Proof/Machine/Rings.lean ====
section
/-! DEFINITION. The doorbell pages (R386–R392, R405, R408, R410, R412): the doorbells, the commits of rings and of the data area, the MSI-X table, and
the resets of a page (R385). -/

namespace Sys2Proof.Machine

namespace State

/-- Key of a register of session `n`'s doorbell page. -/
def pageKey (n : Fin 16) (off : Nat) : Nat := 2 ^ 28 + n * 4096 + off

/-- Report a ring commit in RING_ERR: status, ring (4 for the data area) and field (R389, R412). -/
def ringErr (s : State) (n : Fin 16) (st : Status) (ring field : Nat) : State :=
  ((s.set F.RING_ERR_STATUS [n] st.code).set F.RING_ERR_RING [n] ring).set F.RING_ERR_FIELD [n] field

/-- A doorbell write that is discarded (R390). -/
def dbBad (s : State) (n : Fin 16) : State := s.count F.DB_CNT0_DB_BAD [n]

/-! ### Doorbells (R390, R405, R408) -/

/-- DB_CMD_TAIL: the command ring's write index (R390). -/
def dbTail (s : State) (n : Fin 16) (idx : Nat) : State :=
  if idx < s.ringEntries n 0 then s.modHost n (fun h => { h with tail := idx }) else s.dbBad n

/-- The head command of a queue loses its HOLD flag: it has been released (R405). -/
def releaseHead (h : HostSess) : HostSess :=
  match h.queue with
  | [] => h
  | c :: t =>
    let fl := BitVec.ofNat 8 (putBits (fieldAt c.bytes 1 1) 2 1 0)
    { h with held := false, queue := { c with bytes := c.bytes.take 1 ++ (fl :: c.bytes.drop 2) } :: t }

/-- A go word: it releases the held command of its tag, or is latched (R405). -/
def dbGo (s : State) (n : Fin 16) (tag : Nat) : State :=
  match heldCmd s.host[n] with
  | some c =>
    if c.tag = tag then 
      if s.linked then s.cross false (.go n tag c.epoch) (fun s => s.modHost n releaseHead) else s.modHost n releaseHead
    else
      let s := if s.host[n].goLatch.isSome then s.count F.DB_CNT0_GO_MISS [n] else s
      s.modHost n (fun h => { h with goLatch := some tag })
  | none =>
    let s := if s.host[n].goLatch.isSome then s.count F.DB_CNT0_GO_MISS [n] else s
    s.modHost n (fun h => { h with goLatch := some tag })

/-- Room in a ring lets waiting completions and waiting pieces of data go on (R400, R408). -/
def ringGoesOn (s : State) (n : Fin 16) (r : Fin 4) : State :=
  if r = 1 then s.flushWaiting n s.host[n].waiting.length else if r = 2 then s.forwardAll n false else s

/-- DB_HEAD of a producer ring: returned entries, then REARM; unsignalled entries left raise the vector (R390, R410). -/
def dbHead (s : State) (n : Fin 16) (r : Fin 4) (idx : Nat) (rearm : Bool) : State :=
  let e := s.ringEntries n r
  let g := s.host[n].rings[r]
  let back := (idx + e - g.rd) % e
  if e ≤ idx ∨ g.used < back then s.dbBad n
  else
    let s := s.modRing n r (fun g => { g with rd := idx, used := g.used - back })
    let s := if rearm then
        let s := s.modRing n r (fun g => { g with armed := true })
        let g := s.host[n].rings[r]
        if g.used ≠ 0 ∧ g.since ≠ 0 then s.raiseRing n r else s
      else s
    s.ringGoesOn n r

/-- DB_DATA_HEAD: what software has consumed of the data area; forwarding goes on (R408). -/
def dbDataHead (s : State) (n : Fin 16) (head : Nat) (lap : Bool) : State :=
  (s.modHost n (fun h => { h with dataRd := head, dataRdLap := lap })).forwardAll n false

/-! ### Commits of rings and of the data area (R389, R412) -/

/-- Is a number a power of two from 16 to 65,536? -/
def goodEntries (e : Nat) : Bool := (List.range 13).any (fun i => e == 2 ^ (i + 4))

/-- The failed check of a ring's enable and the field it names (R389). VEC has six bits, so its check never fails. -/
def ringFail (s : State) (n : Fin 16) (r : Fin 4) : Option (Status × Nat) :=
  if !goodEntries (s.ringEntries n r) then some (.commitRange, 1)
  else if s.ringBase n r % 4096 ≠ 0 then some (.commitRange, 0)
  else if r = 0 ∧ s.ringOn n 1 = false then some (.commitConflict, 3)
  else none

/-- A write of RING_CTL: a change of ENABLE commits or stops the ring (R389, R390, R400). -/
def ringCtl (s : State) (n : Fin 16) (r : Fin 4) (v : Word) : State :=
  let k := Reg.key .RING_CTL [n, r]
  let on := s.ringOn n r
  let ask := bitOf v.toNat 0
  if ask && !on then
    match s.ringFail n r with
    | some x => (s.plainWrite k (BitVec.ofNat 32 (putBits v.toNat 0 1 0))).ringErr n x.1 r x.2
    | none =>
      let s := (s.plainWrite k v).ringErr n .ok r 0
      let s := s.modRing n r (fun _ => ⟨0, 0, 0, true, decide (r ≠ 0), 0⟩)
      let s := if r = 0 then s.modHost n (fun h => { h with tail := 0, stopped := false, stalled := false }) else s
      s.ringGoesOn n r
  else if !ask && on then
    if r = 1 ∧ s.ringOn n 0 then (s.plainWrite k (BitVec.ofNat 32 (putBits v.toNat 0 1 1))).ringErr n .commitConflict 1 3
    else s.plainWrite k v
  else s.plainWrite k v

/-- Does a session forward anything? -/
def anyFwd (s : State) (n : Fin 16) : Bool := s.fwdOn n 0 || s.fwdOn n 1 || s.fwdOn n 2

/-- The failed check of the data area and the field it names (R412); RING_ERR has no code for CHUNK, so what it shows there is free (log 6). -/
def dataFail (s : State) (n : Fin 16) (v : Word) (free : Nat) : Option (Status × Nat) :=
  if s.pair F.DATA_BASE_LO_BASE F.DATA_BASE_HI_BASE [n] % 4096 ≠ 0 then some (.commitRange, 0)
  else if s.get F.DATA_SIZE_SIZE [n] = 0 then some (.commitConflict, 1)
  else if bitsOf v.toNat 8 8 = 0 then some (.commitConflict, free)
  else if s.ringOn n 2 = false then some (.commitConflict, 3)
  else none

/-- A write of DATA_CFG: the first forwarding bit commits the data area, which starts empty (R412, log 29). -/
def dataCfg (s : State) (n : Fin 16) (v : Word) : State :=
  let k := Reg.key .DATA_CFG [n]
  if !s.anyFwd n && v.toNat % 8 != 0 then
    let f := s.fresh? 2
    match f.2.dataFail n v f.1 with
    | some x => (f.2.plainWrite k (BitVec.ofNat 32 (putBits v.toNat 0 3 0))).ringErr n x.1 4 x.2
    | none =>
      let s := (f.2.plainWrite k v).ringErr n .ok 4 0
      (s.modHost n (fun h => { h with dataWr := 0, dataLap := false, dataRd := 0, dataRdLap := false })).forwardAll n false
  else s.plainWrite k v

/-! ### The MSI-X table (R386, R410) -/

/-- A write of a table word: clearing a mask bit sends the vector when it is pending. -/
def msixWrite (s : State) (n : Fin 16) (d k : Nat) (v : Word) : State :=
  if d % 4 = 3 then
    let s := s.plainWrite k (BitVec.ofNat 32 (v.toNat % 2))
    let p := Reg.key .MSIX_PBA [n, d / 128]
    let b := d / 4 % 32
    if s.host[n].msixOn && !s.host[n].msixMask && !bitOf v.toNat 0 && bitOf (s.getK p).toNat b then
      (s.putK p (BitVec.ofNat 32 (putBits (s.getK p).toNat b 1 0))).sendVec n (d / 4)
    else s
  else s.plainWrite k v

/-! ### Writes of a page -/

/-- A write of the register of a page at a key (R389, R390, R412). -/
def pagePut (s : State) (k : Nat) (v : Word) : State :=
  let x := v.toNat
  match regAt k with
  | none => s
  | some (r, ix) =>
    let n : Fin 16 := Fin.ofNat 16 (ix.getD 0 0)
    let j := ix.getD 1 0
    let ring : Fin 4 := Fin.ofNat 4 j
    match r with
    | .DB_CMD_TAIL => s.dbTail n (x % 65536)
    | .DB_GO => if bitOf x 31 then s.dbGo n (x % 65536) else s
    | .DB_HEAD => s.dbHead n (Fin.ofNat 4 (j + 1)) (x % 65536) (bitOf x 31)
    | .DB_DATA_HEAD => s.dbDataHead n (bitsOf x 0 30) (bitOf x 30)
    | .RING_BASE_LO => if s.ringOn n ring then s else s.plainWrite k v
    | .RING_BASE_HI => if s.ringOn n ring then s else s.plainWrite k v
    | .RING_ENTRIES => if s.ringOn n ring then s else s.plainWrite k v
    | .RING_CTL => s.ringCtl n ring v
    | .DATA_BASE_LO => if s.anyFwd n then s else s.plainWrite k v
    | .DATA_BASE_HI => if s.anyFwd n then s else s.plainWrite k v
    | .DATA_SIZE => if s.anyFwd n then s else s.plainWrite k v
    | .DATA_CFG => s.dataCfg n v
    | .MSIX_TABLE => s.msixWrite n j k v
    | _ => s.plainWrite k v

/-- A write of a doorbell page by the host (R387). -/
def pageWrite (s : State) (n : Fin 16) (off : Nat) (v : Word) : State := s.bar0Put (pageKey n (off % 4096)) v pagePut

/-! ### Resets of a function (R385) -/

/-- The entries of a register map that do not belong to a page. -/
def offPage {α : Type} (n : Fin 16) (m : SMap α) : SMap α := m.filter (fun p => decide (p.1 < pageKey n 0) || decide (pageKey n 4096 ≤ p.1))

/-- A doorbell page and its rings take their reset values. -/
def pageReset (s : State) (n : Fin 16) : State :=
  { s with
    host := s.host.set n resetHost
    regs := { s.regs with
      main := offPage n s.regs.main, fresh := offPage n s.regs.fresh, pairLatch := offPage n s.regs.pairLatch, pairHeld := offPage n s.regs.pairHeld } }

/-- A function goes: its session is torn down and its page reset. The field side carries the teardown out only while it runs (R385). -/
def functionReset (s : State) (n : Fin 16) : State := (if s.stile.fieldRuns then s.teardown n false else s).pageReset n

end State

/-! ### The rows -/

/-- DB_CMD_TAIL (R390). -/
def execDbCmdTail (k : Fin 16) (idx : Fin 65536) (s : State) : Host.Outcome State Fault Refusal := .next (s.dbTail k idx)

/-- DB_GO: a write of DB_GO with GO = 1 (R405). -/
def execDbGo (k : Fin 16) (tag : Fin 65536) (s : State) : Host.Outcome State Fault Refusal := .next (s.dbGo k tag)

/-- DB_HEAD of ring `r` + 1 (R390, R410). -/
def execDbHead (k : Fin 16) (r : Fin 3) (idx : Fin 65536) (rearm : Bool) (s : State) : Host.Outcome State Fault Refusal :=
  .next (s.dbHead k (Fin.ofNat 4 (r + 1)) idx rearm)

/-- DB_DATA_HEAD (R408). -/
def execDbDataHead (k : Fin 16) (head : Fin 1073741824) (lap : Bool) (s : State) : Host.Outcome State Fault Refusal := .next (s.dbDataHead k head lap)

/-- RING_ENABLE: a write of RING_CTL with ENABLE = 1 (R389). -/
def execRingEnable (k : Fin 16) (r : Fin 4) (v : Word) (s : State) : Host.Outcome State Fault Refusal :=
  .next (s.ringCtl k r (BitVec.ofNat 32 (putBits v.toNat 0 1 1)))

/-- RING_DISABLE: a write of RING_CTL with ENABLE = 0 (R389). -/
def execRingDisable (k : Fin 16) (r : Fin 4) (v : Word) (s : State) : Host.Outcome State Fault Refusal :=
  .next (s.ringCtl k r (BitVec.ofNat 32 (putBits v.toNat 0 1 0)))

/-- DATA_AREA_ENABLE: a write of DATA_CFG (R412). -/
def execDataAreaEnable (k : Fin 16) (v : Word) (s : State) : Host.Outcome State Fault Refusal := .next (s.dataCfg k v)

/-- INTERRUPT_MOD_TIME: MOD_TIME µs have passed since the first unsignalled entry (R410). -/
def execInterruptModTime (k : Fin 16) (r : Fin 3) (s : State) : Host.Outcome State Fault Refusal :=
  let g : Fin 4 := Fin.ofNat 4 (r + 1)
  .next (if s.get F.RING_CTL_MOD_TIME [k, g] ≠ 0 ∧ s.host[k].rings[g].armed ∧ s.host[k].rings[g].since ≠ 0 then s.raiseRing k g else s)

/-- FUNCTION_LEVEL_RESET of the function of session `k` (R385). -/
def execFunctionLevelReset (k : Fin 16) (s : State) : Host.Outcome State Fault Refusal := .next (s.functionReset k)

/-- D3HOT_ENTRY: the function of session `k` moves to D3hot (R385). -/
def execD3hotEntry (k : Fin 16) (s : State) : Host.Outcome State Fault Refusal := .next (s.functionReset k)

/-- VF_ENABLE_CLEAR: sessions 1 to 15 are torn down and their pages reset (R385). -/
def execVfEnableClear (s : State) : Host.Outcome State Fault Refusal :=
  .next (s.overSess (fun k s => if k = 0 then s else s.functionReset k))

end Sys2Proof.Machine
end

