-- ==== Sys2Proof/Machine/Host.lean ====
section
/-! DEFINITION. The commands of a session's ring (R392–R406): reading descriptors, the checks, the order in which commands begin, and what each does. -/

namespace Sys2Proof.Machine

/-! ### Descriptors (R393–R395) -/

/-- Header fields of a descriptor. -/
def cmdOp (b : List Byte) : Nat := fieldAt b 0 1
def cmdFlags (b : List Byte) : Nat := fieldAt b 1 1
def cmdParam (b : List Byte) : Nat := fieldAt b 4 4
def cmdAddr (b : List Byte) : Nat := fieldAt b 8 8

/-- Was the command posted with FENCE, with HOLD? -/
def cmdFence (b : List Byte) : Bool := bitOf (cmdFlags b) 1
def cmdHold (b : List Byte) : Bool := bitOf (cmdFlags b) 2

/-- Is a bit of `v` outside a mask set? -/
def outside (v mask : Nat) : Bool := (v &&& mask) != v

/-- Bits of PARAM that an opcode uses. -/
def paramMask (op : Nat) : Nat :=
  match op with
  | 0x01 => 0xFFFFFFFF
  | 0x02 => 0xFFFFFFFF
  | 0x03 => 0xFF0F
  | 0x04 => 0xFFFFFFFF
  | 0x05 => 0x1FFF0FFF
  | 0x06 => 0x010FFFFF
  | 0x07 => 0xFFFFFFFF
  | 0x08 => 0xFFFFFFFF
  | 0x09 => 0x3
  | 0x0A => 0xFF
  | 0x0C => 0x1FFFFF
  | _ => 0

/-- Does an opcode use ADDR? -/
def usesAddr (op : Nat) : Bool := op == 1 || op == 2 || op == 4 || op == 5 || op == 6 || op == 7 || op == 8

/-- Reserved bytes of an opcode's BODY, as offsets and lengths. -/
def bodyReserved (op : Nat) : List (Nat × Nat) :=
  match op with
  | 0x06 => [(0x14, 44)]
  | 0x07 => [(0x18, 40)]
  | 0x08 => [(0x18, 40)]
  | 0x0B => [(0x17, 1), (0x26, 2), (0x2C, 4), (0x3C, 4)]
  | _ => [(0x10, 48)]

/-- A descriptor that BAD_DESCRIPTOR refuses whatever its list holds (R393–R395, R367); a list of more than 4,096 pairs is of bad size (R18). -/
def descriptorBad (b : List Byte) : Bool :=
  let op := cmdOp b
  decide (0x0C < op) || decide (8 ≤ cmdFlags b) || (cmdHold b && op != 0x0A && op != 0x0B) || outside (cmdParam b) (paramMask op) ||
  (!usesAddr op && cmdAddr b != 0) || (bodyReserved op).any (fun (p : Nat × Nat) => fieldAt b p.1 p.2 != 0) ||
  ((op == 1 || op == 2) && decide (4096 < cmdParam b)) ||
  (op == 0x0B && (decide (8 ≤ fieldAt b 0x13 1) || decide (16 ≤ fieldAt b 0x14 2) || decide (16 ≤ fieldAt b 0x16 1)))

namespace State

/-! ### Reading descriptors (R392, R400, R401, R404) -/

/-- May a descriptor be read: it lies at most 16 ahead of the oldest command that has neither begun nor ended (R392, R400, R426)? -/
def mayFetch (s : State) (k : Fin 16) : Bool :=
  let h := s.host[k]
  s.ringOn k 0 && !h.stopped && h.rings[0].rd != h.tail && s.linked &&
    (match h.live.find? (fun i => !i.began && !i.ended) with
      | some i => decide (h.fetched ≤ i.num + 16)
      | none => true)

/-- The field-to-host messages that the transmitter keeps and the H-die has not accepted. -/
def unsent (x : Stile) : List (Nat × Msg) :=
  x.sentF.filterMap (fun (e : Sent) => if e.got then none else match e.body with
    | .msg k m => some (k, m)
    | _ => none)

/-- Does a unit of the F-die hold a stamp, a result, a fail entry, a violation or a capture word of an instance (R402)? -/
def fieldHolds (s : State) (k : Fin 16) (i : Nat × Nat) : Bool :=
  s.inputs.toList.zipIdx.any (fun p => s.ownerInput p.2 == some k && p.1.fifo.any (fun x => x.inst == some i)) ||
  s.meas.toList.zipIdx.any (fun p => s.ownerMu p.2 == some k && p.1.out.any (fun x => x.2 == some i)) ||
  s.gleaners[k].viols.any (fun v => v.2 == some i) ||
  s.slices.any (fun x => x.fails.any (fun e => e.sess == k.val && e.inst == some i) || x.caps.any (fun w => w.sess == k.val && w.inst == some i))

/-- Is a message of an instance in flight: kept by a transmitter, held for the host, a read of host memory, a completion entry that waits, or work on
its way within the F-die (R404)? -/
def inFlight (s : State) (k : Fin 16) (tag epoch : Nat) : Bool :=
  let here (p : Nat × Option (Nat × Nat)) : Bool := p.1 == k.val && p.2 == some (tag, epoch)
  s.stile.out.any (fun (p : Nat × Msg) => here (p.1, p.2.inst)) ||
  (s.stile.sentF ++ s.stile.sentH).any (fun (e : Sent) => !e.got && (e.body.inst.map here).getD false) ||
  s.stile.hostReads.any (fun r => here (r.sess, r.inst)) ||
  s.host[k].waiting.any (fun w => w.inst == some (tag, epoch)) || s.fieldHolds k (tag, epoch)

/-- A descriptor has been read: its stamp, its instance and its place in the queue, or its refusal (R392, R395, R401, R404). -/
def fetchDone (s : State) (k : Fin 16) (b : List Byte) : State :=
  let tag := fieldAt b 2 2
  let e := (smGet 0 s.host[k].epochs tag + 1) % 16
  if s.instLive k tag e || s.inFlight k tag e then
    if s.host[k].stalled then s else (s.count F.DB_CNT1_EPOCH_STALL [k]).modHost k (fun h => { h with stalled := true })
  else
    let op := cmdOp b
    let n := s.ringEntries k 0
    let s := s.modRing k 0 (fun g => { g with rd := if g.rd + 1 = n then 0 else g.rd + 1 })
    let s := s.modHost k (fun h => { h with
      stalled := false
      epochs := smSet 0 h.epochs tag e
      opcodes := smInsert (16 * tag + e) op (smErase (16 * tag + e) h.opcodes)
      stalePosted := h.stalePosted.filter (fun p => p != (tag, e))
      fetched := h.fetched + 1
      live := h.live ++ [⟨tag, e, op, bitOf (cmdFlags b) 0, false, false, 0, h.fetched⟩] })
    if descriptorBad b then s.complete k tag e op .badDescriptor 0 0 s.quality (if op = 0x0C then cmdParam b % 65536 else 0) 0
    else s.cross false (.cmd k tag e b) (fun s => s.modHost k (fun h => { h with queue := h.queue ++ [⟨tag, e, b⟩] }))

/-- A descriptor could not be read: the ring stops, and a NOTAG completion is posted (R400). -/
def fetchFail (s : State) (k : Fin 16) (bad : Bool) : State :=
  let st : Status := if bad then .fault else .timeout
  let cond := 2 ^ Cond.noTag + 2 ^ (if bad then Cond.fault else Cond.timeout)
  (s.modHost k (fun h => { h with stopped := true })).deliverCompletion k
    ⟨completionBytes 0 0 st.code cond 0 (16 * s.quality) 0 0 s.now48, false, none⟩

/-! ### When a command begins (R396, R400, R405) -/

/-- Has an instance that is neither a START nor a SHOT begun without completing? -/
def midCommand (s : State) (k : Fin 16) : Bool := s.host[k].live.any (fun i => i.began && i.opcode != 0x0A && i.opcode != 0x0B)

/-- The head command of an opcode, once every command before it has begun and those that must have completed. -/
def turn (s : State) (k : Fin 16) (op : Nat) : Option Cmd :=
  match s.host[k].queue with
  | c :: _ => if cmdOp c.bytes = op ∧ s.linked ∧ s.host[k].held = false ∧ s.midCommand k = false then some c else none
  | [] => none

/-- May a command begin: the completion ring has room, and with FENCE every earlier command has completed. -/
def mayBegin (s : State) (k : Fin 16) (c : Cmd) : Bool :=
  s.ringRoom k 1 && s.host[k].waiting.isEmpty && (!cmdFence c.bytes || !s.host[k].live.any (fun i => i.began))

/-- The head command begins. -/
def begin_ (s : State) (k : Fin 16) (c : Cmd) : State :=
  let q := s.quality
  s.modHost k (fun h => { h with
    queue := h.queue.drop 1
    live := h.live.map (fun i => if i.tag = c.tag ∧ i.epoch = c.epoch then { i with began := true, worstQ := q } else i) })

/-- A command completes at once. -/
def finish (s : State) (k : Fin 16) (c : Cmd) (st : Status) (cond d0 d1 : Nat) : State :=
  s.complete k c.tag c.epoch (cmdOp c.bytes) st cond 0 s.quality d0 d1

/-- Run the head command of an opcode when it may begin. -/
def runCmd (s : State) (k : Fin 16) (op : Nat) (f : Cmd → State → State) : State :=
  match s.turn k op with
  | some c => if s.mayBegin k c then f c (s.begin_ k c) else s
  | none => s

/-! ### REG_WRITE and REG_READ (R13, R395, R486, R487) -/

/-- The register that a pair names. -/
def pairReg (s : State) (off : Nat) : Option (Reg × List Nat) :=
  if off % 4 = 0 ∧ off < 2 ^ 20 then regAt (s.regKey off) else none

/-- The first refused entry of a list of offsets: RESOURCE_BUSY before COMMIT_RANGE. -/
def pairsFail (s : State) (k : Fin 16) (offs : List Nat) : Option (Status × Nat) :=
  let busy (o : Nat) : Bool := match s.pairReg o with
    | some (r, ix) => !s.ownsReg k r ix
    | none => false
  match offs.findIdx? busy with
  | some i => some (.resourceBusy, i)
  | none => (offs.findIdx? (fun o => (s.pairReg o).isNone)).map (fun i => (Status.commitRange, i))

/-- Offset and second word of entry `i` of a list. -/
def listPairs (data : List Byte) (n : Nat) : List (Nat × Nat) := (List.range n).map (fun i => (fieldAt data (8 * i) 4, fieldAt data (8 * i + 4) 4))

/-- REG_WRITE's list, in order, with held values of its own. -/
def writeList (s : State) (l : List (Nat × Nat)) : State :=
  (l.foldl (fun (a : SMap Word × State) (p : Nat × Nat) =>
    let r := writeThrough a.1 (a.2.regKey p.1) (BitVec.ofNat 32 p.2)
    (r.1, r.2.foldl (fun (s : State) (q : Nat × Word) => s.regWrite q.1 q.2) a.2)) ([], s)).2

/-- REG_READ's list, in order, with latches of its own: each value goes to its entry in host memory. -/
def readList (s : State) (k : Fin 16) (addr : Nat) (inst : Option (Nat × Nat)) (offs : List Nat) : State :=
  (offs.foldl (fun (a : Nat × SMap Word × State) o =>
    let r := a.2.2.readThrough a.2.1 (a.2.2.regKey o)
    (a.1 + 8, r.2.1, r.2.2.hostWrite k (a.1 + 4) (leBytes 4 r.1.toNat) inst)) (addr, [], s)).2.2

/-! ### WRITE_SEGMENTS and TABLE_LOAD (R165, R167, R205, R302) -/

/-- Does an entry hold a reserved bit (R167)? -/
def segReserved (b : List Byte) : Bool :=
  bitsOf (fieldAt b 0 4) 28 4 != 0 || bitsOf (fieldAt b 0x10 2) 12 3 != 0 || bitsOf (fieldAt b 0x12 2) 12 3 != 0 || fieldAt b 0x1E 2 != 0

/-- The refusal of a WRITE_SEGMENTS list: its status and the index of the first offending entry. -/
def segsFail (first : Nat) (es : List (List Byte)) : Option (Status × Nat) :=
  match es.findIdx? segReserved with
  | some i => some (.badDescriptor, i)
  | none => if 4096 < first + es.length then some (.commitRange, 4096 - first) else none

/-- One entry of a TABLE_LOAD: written, or discarded and counted. -/
def tablePut (s : State) (ao : Bool) (u i v : Nat) : Bool × State :=
  if ao then
    let o : Fin 16 := Fin.ofNat 16 u
    (s.act F.AO_CFG_SRC [u] != 2, s.aoTblWrite o i v)
  else
    let g : Fin 4 := Fin.ofNat 4 u
    if s.fwState g ≤ 1 then (true, s.modFw g (fun f => { f with table := smInsert i (v % 65536) (smErase i f.table) }))
    else (false, s.count F.FW_CNT_SCR_REJECT [g])

/-- The refusal of a TABLE_LOAD. -/
def tableFail (s : State) (k : Fin 16) (ao : Bool) (u first count : Nat) : Option Status :=
  if (ao && !s.ownsAo k u) || (!ao && decide (u < 4) && !s.ownsFw k u) then some .resourceBusy
  else if (!ao && decide (3 < u)) || decide ((if ao then 16384 else 65536) < first + count) then some .commitRange
  else none

/-! ### COMMIT (R38, R42, R395) -/

/-- A COMMIT command. -/
def ringCommit (s : State) (k : Fin 16) (c : Cmd) : State :=
  let p := cmdParam c.bytes
  let scope := bitsOf p 0 4
  let target := bitsOf p 8 8
  s.commitEnter ⟨scope, target, decide (k = 0), some (k.val, c.tag, c.epoch)⟩

/-! ### START and SHOT (R149, R366, R367, R405, R460) -/

/-- Does the trip of R460 stand? -/
def tripBlocks (s : State) : Bool := s.get F.FLT_TEMP_TRIP == 1

/-- The burst that a SHOT descriptor describes (R366). -/
def burstOf (b : List Byte) : Burst where
  entry := fieldAt b 0x10 1
  onTrigger := fieldAt b 0x11 1 == 1
  tgMask := fieldAt b 0x12 1
  lead := fieldAt b 0x13 1 % 8
  flags := fieldAt b 0x14 2
  histMask := fieldAt b 0x16 1
  burst := fieldAt b 0x18 8
  spacing := fieldAt b 0x20 6
  trigTo := fieldAt b 0x28 4
  resultAddr := fieldAt b 0x30 8
  resultSize := fieldAt b 0x38 4
  shots := 0
  sTick := 0
  firstS := 0
  phase := 0
  leadAt := none
  deadFrom := none
  deadRec := none
  done := none
  shotStatus := .ok
  shotViol := 0
  shotStale := false
  shotQ := 0

/-- The refusal of a SHOT (R367). -/
def shotFail (s : State) (k : Fin 16) (b : List Byte) : Option Status :=
  let x := burstOf b
  if (List.range 8).any (fun u => bitOf x.tgMask u && !s.ownsTg k u) then some .resourceBusy
  else if 1 < fieldAt b 0x11 1 ∨ 2 ^ 32 < x.burst ∨ x.resultAddr % 64 ≠ 0 ∨ x.resultSize % 64 ≠ 0 ∨ x.resultSize < s.logOffset k x.histMask then
    some .commitRange
  else if (s.entryAddr k x.entry).isNone ∨ (x.onTrigger ∧ bitOf x.tgMask x.lead = false) ∨
      (maskHists x.histMask).any (fun h => s.act F.RM_HIST_CFG_EN [k, h] == 0) then some .commitConflict
  else none

/-- The refusal of a START whose entry point is not set, as of a SHOT's (log 30). -/
def startFail (s : State) (k : Fin 16) (b : List Byte) : Option Status :=
  if (s.entryAddr k (cmdParam b % 256)).isNone then some .commitConflict else none

/-- A START or SHOT acts for its session. -/
def runFor (s : State) (k : Fin 16) (c : Cmd) : State :=
  let q := s.quality
  s.modSess k (fun x => { x with tag := c.tag, epoch := c.epoch, hasTag := true, cond := 0, worstQ := q })

/-- A START or SHOT at the head of the queue: it completes at once under R460, is refused, is held, or begins (R396, R405). -/
def runSequence (s : State) (k : Fin 16) (op : Nat) (fails : State → List Byte → Option Status) (go : Cmd → State → State) : State :=
  match s.turn k op with
  | none => s
  | some c =>
    if s.tripBlocks then if s.mayBegin k c then (s.begin_ k c).finish k c .fault 0 0 0 else s
    else match fails s c.bytes with
      | some st => if s.mayBegin k c then (s.begin_ k c).finish k c st 0 0 0 else s
      | none =>
        if cmdHold c.bytes ∧ s.host[k].goLatch ≠ some c.tag then s.modHost k (fun h => { h with held := true })
        else
          let s := if cmdHold c.bytes then s.modHost k (fun h => { releaseHead h with goLatch := none }) else s
          if s.mayBegin k c ∧ s.sess[k].seq.isNone ∧ s.sess[k].burst.isNone then go c ((s.begin_ k c).runFor k c)
          else s

/-! ### ABORT (R403) -/

/-- End one live instance with ABORTED; one whose completion has been formed is over (R403). -/
def abortInst (s : State) (k : Fin 16) (i : Inst) : State :=
  let x := s.sess[k]
  let here := some (k.val, i.tag, i.epoch)
  if i.ended then s
  else if x.hasTag && x.tag == i.tag && x.epoch == i.epoch then s.abortSess k
  else match s.host[k].queue.find? (fun c => c.tag == i.tag && c.epoch == i.epoch) with
    | some c =>
      let head := decide (s.host[k].queue.head? = some c)
      let s := s.modHost k (fun h => { h with queue := h.queue.erase c, held := h.held && !head })
      s.finish k c .aborted 0 0 0
    | none =>
      if s.commit.pends.any (fun p => p.ring == here) then s.discardPends (fun p => p.ring == here)
      else if (s.commit.pin.map (fun (j : PinJob) => j.ring)) = some here then s.commitAbort
      else if s.commit.wait.any (fun w => w.ring == here) then
        ((s.modCommit (fun e => { e with wait := e.wait.filter (fun w => w.ring != here) })).reportCommit here .aborted)
      else s.complete k i.tag i.epoch i.opcode .aborted 0 0 s.quality 0 0

/-- The instances that an ABORT names. -/
def abortTargets (s : State) (k : Fin 16) (p : Nat) : List Inst :=
  s.host[k].live.filter (fun i => i.tag == p % 65536 && (bitOf p 20 || i.epoch == bitsOf p 16 4))

/-- An ABORT acts, wherever it stands in the queue; a refused one names its TARGET_TAG all the same (R399, R403). -/
def runAbort (s : State) (k : Fin 16) (c : Cmd) : State :=
  let p := cmdParam c.bytes
  let s := s.modHost k (fun h => { h with queue := h.queue.erase c })
  let ts := s.abortTargets k p
  if c.tag = p % 65536 ∧ (bitOf p 20 ∨ c.epoch = bitsOf p 16 4) then s.finish k c .badDescriptor 0 (p % 65536) 0
  else if ts.isEmpty then
    if bitOf p 20 then s.finish k c .ok (2 ^ Cond.notFound) (p % 65536) 0 else s.finish k c .stale 0 (p % 65536) 0
  else
    let e := (ts.getLast?.map (fun (i : Inst) => i.epoch)).getD 0
    (ts.foldl (fun s i => s.abortInst k i) s).finish k c .ok 0 (p % 65536 + 65536 * e) 0

end State

/-! ### The rows -/

/-- DESCRIPTOR_READ_DONE: the 64 bytes of a descriptor have been read (R392). -/
def execDescriptorReadDone (k : Fin 16) (bytes : List Byte) (s : State) : Host.Outcome State Fault Refusal :=
  .next (if s.mayFetch k then s.fetchDone k (padTo 64 bytes) else s)

/-- DESCRIPTOR_READ_TIMEOUT: a descriptor read meets its completion timeout, or, with `bad`, ends with UR, CA or poisoned (R400). -/
def execDescriptorReadTimeout (k : Fin 16) (bad : Bool) (s : State) : Host.Outcome State Fault Refusal :=
  .next (if s.mayFetch k then s.fetchFail k bad else s)

/-- NOP (R394). -/
def execNop (k : Fin 16) (s : State) : Host.Outcome State Fault Refusal := .next (s.runCmd k 0x00 (fun c s => s.finish k c .ok 0 0 0))

/-- REG_WRITE; `data` is its list in host memory (R394, R395). -/
def execRegWrite (k : Fin 16) (data : List Byte) (s : State) : Host.Outcome State Fault Refusal :=
  .next (s.runCmd k 0x01 (fun c s =>
    let l := State.listPairs (padTo (8 * cmdParam c.bytes) data) (cmdParam c.bytes)
    match s.pairsFail k (l.map (fun (p : Nat × Nat) => p.1)) with
    | some x => s.finish k c x.1 0 x.2 0
    | none => (s.writeList l).finish k c .ok 0 0 0))

/-- REG_READ; `data` is its list in host memory (R394, R395). -/
def execRegRead (k : Fin 16) (data : List Byte) (s : State) : Host.Outcome State Fault Refusal :=
  .next (s.runCmd k 0x02 (fun c s =>
    let offs := (State.listPairs (padTo (8 * cmdParam c.bytes) data) (cmdParam c.bytes)).map (fun (p : Nat × Nat) => p.1)
    match s.pairsFail k offs with
    | some x => s.finish k c x.1 0 x.2 0
    | none => (s.readList k (cmdAddr c.bytes) (some (c.tag, c.epoch)) offs).finish k c .ok 0 0 0))

/-- COMMIT: while another commit holds the engine it waits in the order of arrival (R38). -/
def execCommit (k : Fin 16) (s : State) : Host.Outcome State Fault Refusal :=
  .next (s.runCmd k 0x03 (fun c s => s.ringCommit k c))

/-- LOAD_IMAGE; `image` is read from host memory once (R160–R163, R475). A refusal of BAD_DESCRIPTOR comes before that of a boot in progress (R19). -/
def execLoadImage (k : Fin 16) (image : List Byte) (s : State) : Host.Outcome State Fault Refusal :=
  .next (s.runCmd k 0x04 (fun c s =>
    let n := cmdParam c.bytes
    let img := padTo n image
    if n = 0 then s.finish k c .ok 0 0 0
    else match s.imageErr k img n false with
      | some e =>
        if s.get F.NVM_BOOT_STAT_BOOT_BUSY = 1 ∧ e.status ≠ .badDescriptor then
          (s.putK (Reg.key .SQ_LOAD_STATUS []) (BitVec.ofNat 32 Status.resourceBusy.code)).finish k c .resourceBusy 0 Status.resourceBusy.code 0
        else (s.noteLoad (some e)).finish k c e.status 0 (loadWord (some e)) 0
      | none =>
        if s.get F.NVM_BOOT_STAT_BOOT_BUSY = 1 then
          (s.putK (Reg.key .SQ_LOAD_STATUS []) (BitVec.ofNat 32 Status.resourceBusy.code)).finish k c .resourceBusy 0 Status.resourceBusy.code 0
        else (s.runLoad k img n false).2.finish k c .ok 0 (loadWord none) 0))

/-- WRITE_SEGMENTS; `data` is its list in host memory (R165, R167, R395). -/
def execWriteSegments (k : Fin 16) (data : List Byte) (s : State) : Host.Outcome State Fault Refusal :=
  .next (s.runCmd k 0x05 (fun c s =>
    let first := bitsOf (cmdParam c.bytes) 0 12
    let n := bitsOf (cmdParam c.bytes) 16 13
    let bs := padTo (32 * n) data
    let es := (List.range n).map (fun i => (bs.drop (32 * i)).take 32)
    match State.segsFail first es with
    | some x => s.finish k c x.1 0 x.2 0
    | none => (s.modSess k (fun y => { y with
        segShadow := (es.zipIdx first).foldl (fun (t : SMap Nat) (p : List Byte × Nat) => smSet 0 t p.2 (leVal p.1)) y.segShadow })).finish k c .ok 0 0 0))

/-- TABLE_LOAD; `data` is its list in host memory (R205, R302, R395). -/
def execTableLoad (k : Fin 16) (data : List Byte) (s : State) : Host.Outcome State Fault Refusal :=
  .next (s.runCmd k 0x06 (fun c s =>
    let p := cmdParam c.bytes
    let n := fieldAt c.bytes 0x10 4
    let ao := bitOf p 24
    let u := bitsOf p 16 4
    let first := p % 65536
    if n = 0 then s.finish k c .ok 0 0 0
    else match s.tableFail k ao u first n with
      | some st => s.finish k c st 0 0 0
      | none =>
        let bs := padTo (4 * n) data
        let r := (List.range n).foldl (fun (a : Nat × State) i =>
          let x := a.2.tablePut ao u (first + i) (fieldAt bs (4 * i) 4)
          (a.1 + x.1.toNat, x.2)) (0, s)
        r.2.finish k c .ok (if r.1 = n then 0 else 2 ^ Cond.partial_) (r.1 + 2 ^ 32 * (n - r.1)) 0))

/-- DMA_WRITE; `data` is what host memory holds (R394, R395). -/
def execDmaWrite (k : Fin 16) (data : List Byte) (s : State) : Host.Outcome State Fault Refusal :=
  .next (s.runCmd k 0x07 (fun c s =>
    let n := cmdParam c.bytes
    let a := fieldAt c.bytes 0x10 8
    if n = 0 then s.finish k c .ok 0 0 0
    else if n % 64 ≠ 0 ∨ a % 64 ≠ 0 ∨ s.inView k a n = false then s.finish k c .commitRange 0 0 0
    else ({ s with ddr := memPuts s.ddr (s.viewPhys k a) (padTo n data) }).finish k c .ok 0 n 0))

/-- DMA_READ; `ecc` is the number of flipped bits that its read of field DDR4 meets, 0, 1 or 2 for uncorrectable (R394, R395, R457). -/
def execDmaRead (k : Fin 16) (ecc : Fin 3) (s : State) : Host.Outcome State Fault Refusal :=
  .next (s.runCmd k 0x08 (fun c s =>
    let n := cmdParam c.bytes
    let a := fieldAt c.bytes 0x10 8
    if n = 0 then s.finish k c .ok 0 0 0
    else if n % 64 ≠ 0 ∨ a % 64 ≠ 0 ∨ s.inView k a n = false then s.finish k c .commitRange 0 0 0
    else
      let r := s.ddrRead (s.viewPhys k a) ecc
      if r.2 then r.1.finish k c .fault 0 0 0
      else (r.1.hostWrite k (cmdAddr c.bytes) (memBytes r.1.ddr (s.viewPhys k a) n) (some (c.tag, c.epoch))).finish k c .ok 0 n 0))

/-- INVALIDATE (R221, R240, R394). -/
def execInvalidate (k : Fin 16) (s : State) : Host.Outcome State Fault Refusal :=
  .next (s.runCmd k 0x09 (fun c s =>
    let p := cmdParam c.bytes
    let s := if bitOf p 0 then s.invTlb k else s
    let s := if bitOf p 1 then s.invPages k else s
    s.finish k c .ok 0 0 0))

/-- START (R149, R405). -/
def execStart (k : Fin 16) (s : State) : Host.Outcome State Fault Refusal :=
  .next (s.runSequence k 0x0A (fun s b => s.startFail k b) (fun c s =>
    s.seqBegin k (cmdParam c.bytes % 256) ((s.entryAddr k (cmdParam c.bytes % 256)).getD 0) false))

/-- SHOT (R366, R405). -/
def execShot (k : Fin 16) (s : State) : Host.Outcome State Fault Refusal :=
  .next (s.runSequence k 0x0B (fun s b => s.shotFail k b) (fun c s => s.beginBurst k (State.burstOf c.bytes)))

/-- ABORT: the first ABORT that has been read (R396, R403). -/
def execAbort (k : Fin 16) (s : State) : Host.Outcome State Fault Refusal :=
  match s.host[k].queue.find? (fun c => cmdOp c.bytes == 0x0C) with
  | some c => .next (if s.linked && s.ringRoom k 1 && s.host[k].waiting.isEmpty then s.runAbort k c else s)
  | none => .next s

/-- HOST_DATA_READ_TIMEOUT: a data read for the head command meets its completion timeout, or, with `bad`, fails otherwise (R400).
A LOAD_IMAGE that ends so leaves SQ_LOAD_STATUS as it was (DESIGN CHOICE, log 12). -/
def execHostDataReadTimeout (k : Fin 16) (bad : Bool) (s : State) : Host.Outcome State Fault Refusal :=
  match s.host[k].queue with
  | c :: _ =>
    if usesAddr (cmdOp c.bytes) then
      .next (s.runCmd k (cmdOp c.bytes) (fun c s => s.finish k c (if bad then .fault else .timeout) 0 0 0))
    else .next s
  | [] => .next s

end Sys2Proof.Machine
end

