-- ==== Sys2Proof/Machine/StileRows.lean ====
section
/-! DEFINITION. The Stile's messages and link (spec/16_stile_barrier.md): frames and their numbering, lanes, the field state, and what each message
does at its receiver. `toHost` says that a frame travels from the F-die to the H-die. -/

namespace Sys2Proof.Machine

namespace State

/-! ### Frames (R420–R422) -/

/-- Frames of a message have been received and have passed their CRC: the numbering goes on, and an earlier failure is over (R420). -/
def goodFrames (s : State) (toHost : Bool) (n : Nat) : State :=
  s.modStile (fun x =>
    if toHost then { x with failsH := 0, nakH := false, rxH := (x.rxH + n) % 65536 }
    else { x with failsF := 0, nakF := false, rxF := (x.rxF + n) % 65536 })

/-- Numbering starts anew in both directions (R420). What the H-die has not accepted goes back to the head of the field side's outbound queue (R428,
log 69). -/
def frameInit (s : State) : State :=
  s.modStile (fun x => { x with
    failsH := 0, failsF := 0, rxH := 0, rxF := 0, nakH := false, nakF := false, replayH := none, replayF := none
    sentH := [], sentF := [], txH := 0, txF := 0, waitH := 0, waitF := 0, owedH := 0, owedF := 0, out := unsent x ++ x.out })

/-! ### Lanes (R423, R424) -/

/-- Spare field of a direction. -/
def spareFld (toHost : Bool) : Fld := if toHost then F.ST_STATUS_F2H_SPARE else F.ST_STATUS_H2F_SPARE

/-- Is the spare of a direction unusable? -/
def spareDead (s : State) (toHost : Bool) : Bool := if toHost then s.stile.deadF2H else s.stile.deadH2F

/-- The spare takes a lane's place (R423). -/
def laneSpared (s : State) (toHost : Bool) (lane : Nat) : State :=
  (s.set (spareFld toHost) [] lane).raise (if toHost then F.ST_EVENTS_SPARE_F2H else F.ST_EVENTS_SPARE_H2F)

/-- The receiver of a direction declares a lane failed; the spare carries the replay at most 5 µs, 4,000 event cycles, later (R423, R424, R425). -/
def laneDown (s : State) (toHost : Bool) (lane : Nat) : State :=
  let w := s.takeInject 8 (16 * toHost.toNat + lane)
  let used := s.get (spareFld toHost)
  let note := w.2.detect 8 (16 * toHost.toNat + lane) .repair w.1 none
  if lane = 8 then
    if used = 15 then note.modStile (fun x => if toHost then { x with deadF2H := true } else { x with deadH2F := true })
    else note.fieldLeave 4
  else if used = lane then s
  else if used ≠ 15 ∨ s.spareDead toHost then note.fieldLeave 4
  else (note.laneSpared toHost lane).askReplay toHost 4000

/-- INIT brings every lane back into service (R424). -/
def lanesBack (s : State) : State :=
  ((s.set F.ST_STATUS_H2F_SPARE [] 15).set F.ST_STATUS_F2H_SPARE [] 15).modStile (fun x => { x with deadF2H := false, deadH2F := false })

/-! ### Link start after a host-side reset (R429, R472, R478) -/

/-- The field side acts on INIT with HOST_RESET: its queue goes, every session is torn down without scrub, and an SPI NOR boot runs again when the
configuration selects it. -/
def hostWasReset (s : State) : State :=
  if s.stile.fieldRuns then
    let s := s.modStile (fun x => { x with out := [], hostReads := [] })
    let s := s.overSess (fun k s => s.teardown k false)
    let s := s.modStile (fun x => { x with out := [] })
    if s.boot.boot = 0 then s else s.spiBegin
  else s

/-! ### What the messages do at their receiver (R419) -/

/-- The number of a session or of a tag that a message carries. -/
def sessOf (k : Nat) : Fin 16 := Fin.ofNat 16 k

/-- STATE: the field state that the field side has reached; UP once it has read its NVM (R425). -/
def stateMsg (s : State) (v : Nat) : State :=
  if v = 3 then s.fieldComesUp else if v = 2 ∧ s.get F.ST_STATUS_FIELD = 1 then s.set F.ST_STATUS_FIELD [] 2 else s

/-- LANE: the receiver of the opposite direction names a failed lane, and the transmitter moves it onto L8 (R423). -/
def laneMsg (s : State) (toHost : Bool) (lane : Nat) : State :=
  if s.get (spareFld (!toHost)) = lane then s else s.laneSpared (!toHost) lane

/-- REG_WR: a BAR0 write reaches the F-die. -/
def regWrMsg (s : State) (off : Nat) (v : Word) : State :=
  if off % 4 = 0 ∧ keyOnHost off = false then s.bar0Put (s.regKey off) v regWrite else s

/-- REG_RD: a BAR0 read reaches the F-die, behind every earlier write; its answer goes back (R23). -/
def regRdMsg (s : State) (off : Nat) : State :=
  if off % 4 = 0 ∧ keyOnHost off = false then
    let r := s.readThrough s.regs.pairLatch (s.regKey off)
    (r.2.2.keepLatch r.2.1).modStile (fun x => { x with replies := x.replies ++ [r.1] })
  else s

/-- REG_RSP: the value read completes the host's BAR0 read. -/
def regRspMsg (s : State) (v : Word) : State := (s.modStile (fun x => { x with replies := x.replies.drop 1 })).reply v

/-- CMD: a descriptor reaches the field side for its instance, unless it is no longer live (R402). -/
def cmdMsg (s : State) (k : Fin 16) (tag epoch : Nat) (bytes : List Byte) : State :=
  s.forInst k (some (tag, epoch)) (fun s =>
    let here := s.host[k].queue.any (fun c => c.tag == tag && c.epoch == epoch)
    let began := s.host[k].live.any (fun i => i.tag == tag && i.epoch == epoch && (i.began || i.ended))
    if here || began then s else s.modHost k (fun h => { h with queue := h.queue ++ [⟨tag, epoch, padTo 64 bytes⟩] }))

/-- GO: the held command of an instance is released on the field side, unless the instance is no longer live (R402, R405). -/
def goMsg (s : State) (k : Fin 16) (tag epoch : Nat) : State :=
  s.forInst k (some (tag, epoch)) (fun s =>
    match heldCmd s.host[k] with
    | some c => if c.tag = tag ∧ c.epoch = epoch then s.modHost k releaseHead else s
    | none => s)

/-- CREDIT: room in the rings and in the data area, so waiting completions and pieces go on (R400, R408). -/
def creditMsg (s : State) (k : Fin 16) (completion capture event data : Nat) : State :=
  let s := s.modStile (fun x => { x with
    credit := x.credit.filter (fun (p : Nat × Nat × Nat × Nat × Nat) => p.1 != k.val) ++ [(k.val, completion, capture, event, data)] })
  (s.flushWaiting k s.host[k].waiting.length).forwardAll k false

/-- HOST_RD_DATA: the data of the instance's oldest host read reaches the field side; for an instance that is not live it is discarded (R402).
What the data does is its command's effect. -/
def hostDataMsg (s : State) (k : Fin 16) (inst : Option (Nat × Nat)) : State :=
  let s := s.modStile (fun x => { x with
    hostReads := match x.hostReads.find? (fun (p : HostRead) => p.sess == k.val && p.inst == inst) with
      | some p => x.hostReads.erase p
      | none => x.hostReads })
  s.forInst k inst id

/-- HOST_RD_REQ: the H-die reads host memory for an instance that is live; the read is outstanding until its data goes back (R402, R419). -/
def hostReadMsg (s : State) (r : HostRead) : State :=
  s.forInst (sessOf r.sess) r.inst (fun s => s.modStile (fun x => { x with hostReads := x.hostReads ++ [r] }))

/-- A BAR0 read that waited for a replay is made at the F-die; its answer waits in its turn. -/
def barRdMsg (s : State) (off : Nat) : State :=
  State.answer (s.bar0Value (s.regKey off))

/-- What an accepted message does (R419, R422). -/
def packetAct (s : State) (p : Packet) : State :=
  match p with
  | .idle => s
  | .bad toHost _ => s.count (if toHost then F.ST_CNT_BAD_MSG else F.ST_F_CNT_BAD_MSG)
  | .state v => s.stateMsg v
  | .lane toHost n => s.laneMsg toHost n
  | .regWr off v => s.regWrMsg off v
  | .regRd off => s.regRdMsg off
  | .regRsp v => s.regRspMsg v
  | .cmd k tag epoch bytes => s.cmdMsg (sessOf k) tag epoch bytes
  | .go k tag epoch => s.goMsg (sessOf k) tag epoch
  | .credit k a b c d => s.creditMsg (sessOf k) a b c d
  | .hostRdReq r => s.hostReadMsg r
  | .hostRdData k inst _ => s.hostDataMsg (sessOf k) inst
  | .msg k m => s.deliverMsg (sessOf k) m
  | .fieldReset => s.fieldReset
  | .barWr off v => s.bar0Put (s.regKey off) v regWrite
  | .barRd off => s.barRdMsg off
  | .barRsp v => s.reply v
  | .commitGo scope target => s.commitGo scope target

/-! ### Sending, discarding and replaying (R420, R421) -/

/-- The first message that the receiver has not accepted is marked as accepted. -/
def markGot : List Sent → List Sent
  | [] => []
  | e :: t => if e.got then e :: markGot t else { e with got := true } :: t

/-- The ACK and the NAK of a header: the transmitter of the opposite direction lets go of what is acknowledged, and replays from the frame that a NAK
names. They count even in a header whose message is discarded (DESIGN CHOICE, log 69). -/
def headerAcks (s : State) (toHost : Bool) : State :=
  s.modStile (fun x =>
    if toHost then { x with sentH := x.sentH.dropWhile (fun e => e.got), replayH := if x.nakF then some x.rxF else none }
    else { x with sentF := x.sentF.dropWhile (fun e => e.got), replayF := if x.nakH then some x.rxH else none })

/-- A message is accepted: once, in the order sent, with the session, tag and epoch it was sent with (R421). -/
def accept (s : State) (toHost : Bool) (e : Sent) : State :=
  let s := (s.goodFrames toHost e.frames).modStile (fun x =>
    if toHost then { x with sentF := markGot x.sentF } else { x with sentH := markGot x.sentH })
  (s.headerAcks toHost).packetAct e.body

/-- The next message to be accepted: a transmitter has at most 512 unacknowledged frames outstanding (R420). -/
def nextSent (n : Nat) : List Sent → Option Sent
  | [] => none
  | e :: t =>
    if e.got then nextSent (n + e.frames) t
    else if n = 0 ∨ n + e.frames ≤ 512 then some e else none

/-- Messages are accepted in turn while the receiver discards none. -/
def pump (s : State) (toHost : Bool) : Nat → State
  | 0 => s
  | n + 1 =>
    if s.stile.nak toHost then s
    else match nextSent 0 (s.stile.sent toHost) with
      | some e => (s.accept toHost e).pump toHost n
      | none => s

/-- A replay that has been asked for arrives: every message not yet accepted is sent again (R420, R421). -/
def replayNow (s : State) (toHost : Bool) : State :=
  let due := if toHost then s.stile.replayF.isSome else s.stile.replayH.isSome
  if due then
    let s := s.modStile (fun x =>
      if toHost then { x with failsH := 0, nakH := false, replayF := none, waitH := 0 }
      else { x with failsF := 0, nakF := false, replayH := none, waitF := 0 })
    s.pump toHost (s.stile.sent toHost).length
  else s

/-- A message is sent, behind a replay that has been asked for. While the receiver discards frames it waits for the replay (R420). An
armed injection inverts the CRC of its first frame, once or on eight consecutive sends (R455). -/
def stileSend (s : State) (toHost : Bool) (p : Packet) : State :=
  let s := (s.replayNow toHost).keepSent toHost p
  if s.stile.nak toHost then s.headerAcks toHost
  else if s.injOn 7 toHost.toNat then s.frameFail toHost
  else if s.injOn 9 toHost.toNat then (List.range 8).foldl (fun s _ => s.frameFail toHost) s
  else s.pump toHost (s.stile.sent toHost).length

/-- A frame slot of a direction: it belongs to a frame already numbered, or else an idle header frame goes out, while the window has room (R415, R416,
R420). -/
def frameSlot (s : State) (toHost : Bool) : State :=
  let owed := if toHost then s.stile.owedF else s.stile.owedH
  let s := if owed = 0 ∧ ((s.stile.sent toHost).map (·.frames)).sum < 512 then s.cross toHost .idle id else s
  s.modStile (fun x => if toHost then { x with owedF := x.owedF - 1 } else { x with owedH := x.owedH - 1 })

/-- An event cycle of frame slots: 312.5 M frames in a second are 25 in 64 event cycles in each direction (R415). -/
def slotTick (s : State) : State :=
  if s.stile.slot + 25 < 64 then s.modStile (fun x => { x with slot := x.slot + 25 })
  else ((s.modStile (fun x => { x with slot := x.slot + 25 - 64 })).frameSlot true).frameSlot false

/-- One event cycle of a direction: a replay that is due arrives, and what the window held back goes on. -/
def stileCycle (s : State) (toHost : Bool) : State :=
  if s.stile.nak toHost then
    if (if toHost then s.stile.waitH else s.stile.waitF) ≤ 1 then
      (s.modStile (fun x => if toHost then { x with replayF := some x.rxH } else { x with replayH := some x.rxF })).replayNow toHost
    else s.modStile (fun x => if toHost then { x with waitH := x.waitH - 1 } else { x with waitF := x.waitF - 1 })
  else s.pump toHost (s.stile.sent toHost).length

/-- The Stile at an event-clock edge: what has been accepted is acknowledged, at least once in 200 ns, and each direction goes on (R420). -/
def stileEdge (s : State) : State :=
  let f := s.get F.ST_STATUS_FIELD
  if (f = 2 ∨ f = 3) ∧ s.stile.lost = false then
    let s := s.slotTick
    let s := s.modStile (fun x => { x with sentH := x.sentH.dropWhile (fun e => e.got), sentF := x.sentF.dropWhile (fun e => e.got) })
    (s.stileCycle true).stileCycle false
  else s

end State

/-! ### The rows -/

/-- IDLE: only an acknowledgement, and a NAK that asks for a replay (R419, R420). A header whose reserved fields are not 0, of whatever TYPE, or
whose TYPE is not sent, is discarded and counted, with the data frames that follow it (R419, R422). -/
def execIdle (toHost : Bool) (how : HeaderCase) (ndata : Fin 25) (s : State) : Host.Outcome State Fault Refusal :=
  .next (s.stileSend toHost (match how with
    | .idle => .idle
    | .reserved t v => .bad toHost { initHeader false with typ := t, reserved := v, ndata := ndata }
    | .unknown t => .bad toHost { initHeader false with typ := t, ndata := ndata }))

/-- INIT: the link starts, numbering begins at 0 and spared lanes return; the H-die goes on to BOOTING (R420, R424, R425), and HOST_RESET acts at the
field side (R429). -/
def execInit (toHost hostReset : Bool) (s : State) : Host.Outcome State Fault Refusal :=
  let s := s.frameInit.lanesBack
  if toHost then
    let f := s.get F.ST_STATUS_FIELD
    .next (if f = 1 ∨ f = 4 then s.set F.ST_STATUS_FIELD [] 2 else s)
  else .next (if hostReset then s.hostWasReset else s)

/-- STATE (R425). -/
def execState (v : Fin 256) (s : State) : Host.Outcome State Fault Refusal := .next (s.stileSend true (.state v))

/-- LANE (R423). -/
def execLane (toHost : Bool) (lane : Fin 8) (s : State) : Host.Outcome State Fault Refusal := .next (s.stileSend toHost (.lane toHost lane))

/-- REG_WR (R419). -/
def execRegWr (off : Fin 1048576) (v : Word) (s : State) : Host.Outcome State Fault Refusal := .next (s.stileSend false (.regWr off v))

/-- REG_RD (R23, R419). -/
def execRegRd (off : Fin 1048576) (s : State) : Host.Outcome State Fault Refusal := .next (s.stileSend false (.regRd off))

/-- REG_RSP (R419). -/
def execRegRsp (v : Word) (s : State) : Host.Outcome State Fault Refusal := .next (s.stileSend true (.regRsp v))

/-- CMD (R402, R419). -/
def execCmd (k : Fin 16) (tag : Fin 65536) (epoch : Fin 16) (bytes : List Byte) (s : State) : Host.Outcome State Fault Refusal :=
  .next (s.stileSend false (.cmd k tag epoch bytes))

/-- GO, for the instance of a tag and an epoch (R402, R405, R419). -/
def execGo (k : Fin 16) (inst : Fin 65536 × Fin 16) (s : State) : Host.Outcome State Fault Refusal :=
  .next (s.stileSend false (.go k inst.1 inst.2))

/-- CREDIT (R400, R408, R419). -/
def execCredit (k : Fin 16) (completion capture event data : Nat) (s : State) : Host.Outcome State Fault Refusal :=
  .next (s.stileSend false (.credit k completion capture event data))

/-- HOST_RD_REQ: the field side asks for host memory on behalf of an instance (R402, R419). -/
def execHostRdReq (k : Fin 16) (inst : Option (Fin 65536 × Fin 16)) (r : HostRange) (s : State) : Host.Outcome State Fault Refusal :=
  .next (s.stileSend true
    (.hostRdReq ⟨k, inst.map (fun (p : Fin 65536 × Fin 16) => (p.1.val, p.2.val)), r.addr % 2 ^ 64, r.len⟩))

/-- HOST_RD_DATA (R402, R419). -/
def execHostRdData (k : Fin 16) (inst : Option (Fin 65536 × Fin 16)) (data : List Byte) (s : State) : Host.Outcome State Fault Refusal :=
  .next (s.stileSend false (.hostRdData k (inst.map (fun (p : Fin 65536 × Fin 16) => (p.1.val, p.2.val))) data))

/-- HOST_WR: a write to host memory (R402, R419). -/
def execHostWr (k : Fin 16) (inst : Option (Fin 65536 × Fin 16)) (addr : Nat) (data : List Byte) (s : State) : Host.Outcome State Fault Refusal :=
  .next (s.stileSend true
    (.msg k (.hostWr (addr % 2 ^ 64) data (inst.map (fun (p : Fin 65536 × Fin 16) => (p.1.val, p.2.val))))))

/-- RING_POST: an entry of ring `r` + 1 (R391, R400, R402, R407, R410, R419). -/
def execRingPost (k : Fin 16) (r : Fin 3) (inst : Option (Fin 65536 × Fin 16)) (entry : List Byte) (intr : Bool) (s : State) :
    Host.Outcome State Fault Refusal :=
  .next (s.stileSend true
    (.msg k (.ringPost (r + 1) (padTo (entrySize (Fin.ofNat 4 (r + 1))) entry) intr (inst.map (fun (p : Fin 65536 × Fin 16) => (p.1.val, p.2.val))))))

/-- FIELD_RESET: the message resets the whole F-die (R470, R471). -/
def execFieldReset (s : State) : Host.Outcome State Fault Refusal := .next (s.stileSend false .fieldReset)

/-- STILE_FRAME_CRC_FAIL (R420, R422). -/
def execStileFrameCrcFail (toHost : Bool) (s : State) : Host.Outcome State Fault Refusal := .next (s.frameFail toHost)

/-- STILE_LANE_FAIL: lane 8 is the spare (R423–R425). -/
def execStileLaneFail (toHost : Bool) (lane : Fin 9) (s : State) : Host.Outcome State Fault Refusal := .next (s.laneDown toHost lane)

/-- F2H_SIGNAL_LOSS: no signal on any F→H lane for 10 µs (R425, R427). -/
def execF2hSignalLoss (s : State) : Host.Outcome State Fault Refusal := .next (s.fieldLeave 0)

/-- LINK_FAULT_INIT_RETRY: INIT starts again; FIELD stays LINK_FAULT until it completes (R425). -/
def execLinkFaultInitRetry (s : State) : Host.Outcome State Fault Refusal := .next (if s.get F.ST_STATUS_FIELD = 4 then s.frameInit else s)

/-- FIELD_STILE_LOSS: the field side loses the Stile while it runs (R428). -/
def execFieldStileLoss (s : State) : Host.Outcome State Fault Refusal :=
  .next (if s.stile.fieldRuns then s.modStile (fun x => { x with lost := true }) else s)

/-- ORPHAN_TIMEOUT: with ORPHAN_ACT 1 every running sequence or burst ends with ABORTED (R428). -/
def execOrphanTimeout (s : State) : Host.Outcome State Fault Refusal :=
  .next (if s.stile.lost ∧ s.get F.ST_F_CFG_ORPHAN_ACT = 1 then s.overSess (fun k s => s.abortSess k) else s)

/-- ST_CTRL_FIELD_RESET: a write of ST_CTRL.FIELD_RESET (R430). -/
def execStCtrlFieldReset (s : State) : Host.Outcome State Fault Refusal := .next s.fieldResetAsk

/-- STILE_SIGNAL_PRESENT: signal on the F→H lanes (R425). -/
def execStileSignalPresent (s : State) : Host.Outcome State Fault Refusal :=
  .next (if s.get F.ST_STATUS_FIELD = 0 then s.set F.ST_STATUS_FIELD [] 1 else s)

end Sys2Proof.Machine
end

