-- ==== Sys2Proof/Machine/Clock.lean ====
section
/-! DEFINITION. The clock: what one MCLK edge does whatever is commanded (R58, R60, R68, R74, R75, R326, R434; log 2). A step on an empty queue
is one MCLK edge. -/

namespace Sys2Proof.Machine

namespace State

/-! ### REFIN edges (R58, R74, R75) -/

/-- A REFIN edge: ARM takes effect, SYNCOUT, the pulses in hand and the link pulses advance, and an EMIT that waits starts a pulse when the mode at this
edge lets it (R72–R75, R444). -/
def refEdge (s : State) : State :=
  let arm := s.get F.TB_EPOCH_CTRL_ARM == 1
  let mode := s.get F.TB_EPOCH_CTRL_SYNCOUT_MODE
  let period := s.get F.TB_SYNC_PERIOD_PERIOD
  let emit := s.tb.emitWait
  let s := s.modTb (fun t => { t with
    armEff := t.armLast, armLast := arm, emitWait := false
    pulses := t.pulses.map (fun (p : SyncPulse) => { p with lag := p.lag - 1 })
    syncoutLeft := if mode = 0 then 0 else t.syncoutLeft - 1
    periodLeft := if mode = 3 ∧ period ≠ 0 then t.periodLeft.map (· - 1) else none })
  let s := s.linkTick
  if emit && (mode == 2 || (mode == 3 && period != 0)) then
    let s := if mode = 3 ∧ period ≠ 0 then s.modTb (fun t => { t with periodLeft := some (max 3 period) }) else s
    s.syncoutStart
  else s

/-- While REFIN is lost, each MCLK edge may bring its edges back, which is the outside's affair and so a free value (R55, log 42); an armed injection
keeps them from the presence detector (R455). -/
def refReturn (s : State) : State :=
  let r := s.fresh? 1
  if r.1 = 1 ∧ s.injOn 0x0E 0 = false then ((r.2.set F.TB_STATUS_REF_PRESENT [] 1).modTb (fun t => { t with refPhase := 0 })).refEdge else r.2

/-- Count MCLK edges between REFIN edges while REFIN is present (R55, R58). -/
def refTick (s : State) : State :=
  if s.get F.TB_STATUS_REF_PRESENT = 0 then s.refReturn
  else if s.refDivide ≤ s.tb.refPhase + 1 then (s.modTb (fun t => { t with refPhase := 0 })).refEdge
  else s.modTb (fun t => { t with refPhase := t.refPhase + 1 })

/-! ### Flits (R434, R437, R449) -/

/-- Flit slots: 25 of them are 1,024 MCLK edges long, twice as long on a degraded port. In a slot one flit comes and one leaves on each up port; a
fabric port has slots of the same length (R433, R434; log 70). A commit that waits for a flit boundary of the port is copied there, or at once when
the port is down (R42); so do accepted equaliser trims come into force (R351). -/
def flitTick (s : State) : State :=
  let ph := s.net.flitPhase + 25
  let s := s.modNet (fun n => { n with flitPhase := ph % 2048 })
  (List.finRange 4).foldl (fun s (p : Fin 4) =>
    if s.portUp p then
      if ph / 2048 = 1 ∨ (s.portState p = 2 ∧ s.net.flitPhase % 1024 < 25) then (((s.flitComes p).sendFlit p).takePend 7 p).calPortBoundary p else s
    else (s.takePend 7 p).calPortBoundary p) s

/-- REFOUT goes on at REFIN's nominal frequency (R443). -/
def refoutTick (s : State) : State := s.modTb (fun t => { t with refoutPhase := if s.refDivide ≤ t.refoutPhase + 1 then 0 else t.refoutPhase + 1 })

/-- The level of REFOUT: a manager drives it, in phase with its MCLK (R443). -/
def refout (s : State) : Bool := (s.role == 1 || s.role == 2) && decide (s.tb.refoutPhase < s.refDivide / 2)

/-! ### Event-clock edges (R60, R326) -/

/-- The clocked consumers sample the levels of the event cycle that ends (R241, R326, R337, R447). -/
def sampleEdge (s : State) : State := (s.overTriggers (fun u s => s.sampleTrigger u)).sampleEvents.sampleGates.sampleLines

/-- The one-cycle pulses of the event cycle end, and markers, FAIL and stretched outputs advance (R315, R316, R319). -/
def rotateCycle (s : State) : State :=
  let s := s.modHr (fun r => { r with
    pulses := [], slPulses := [], aoPulses := [], tbPulses := [], emitPrev := r.emitFor, emitFor := []
    failLeft := r.failLeft.map (· - 1)
    stretch := (r.stretch.map (fun (p : Nat × Nat) => (p.1, p.2 - 1))).filter (fun (p : Nat × Nat) => p.2 != 0) })
  s.overSlices (fun n s => s.modSlice n (fun x => { x with
    feed := { x.feed with
      markersShown := x.feed.markers ||| x.feed.markersAcc, markersPrev := x.feed.markersAcc, markersAcc := 0 } }))

/-- Perform a deferred action whose edge has come; a forced firing comes before the samples of the edge, an arm straight after them, and all others last. -/
def fireDue (s : State) (a : DueAct) : State :=
  match a with
  | .swSet m => s.modHr (fun r => { r with sw := r.sw ||| m })
  | .swClr m => s.modHr (fun r => { r with sw := (List.range 8).foldl (fun (v i : Nat) => if bitOf m i then putBits v i 1 0 else v) r.sw })
  | .pulse ev => s.modHr (fun r => { r with pulses := ev :: r.pulses })
  | .corePulse ev k => s.modHr (fun r => { r with pulses := ev :: r.pulses, emitFor := (ev, k) :: r.emitFor })
  | .slPulse n bit => s.modHr (fun r => { r with slPulses := (n, bit) :: r.slPulses })
  | .aoPulse o bit => s.modHr (fun r => { r with aoPulses := (o, bit) :: r.aoPulses })
  | .tbPulse bit => s.modHr (fun r => { r with tbPulses := (8 + bit) :: r.tbPulses })
  | .aoMarkers o m => s.modAo (Fin.ofNat 16 o) (fun x => { x with feed := { x.feed with markersShown := m } })
  | .armTrigger u => s.armNow (Fin.ofNat 8 u) s.edgeNow
  | .fireTrigger u => s.modTrig (Fin.ofNat 8 u) (fun g => { g with fires := true })
  | .calTrig => s.calTrigBoundary
  | .hedgeCopy => s.hedgeCopy

/-- Forced firings come before the samples of their edge, and armings straight after them, so that a firing of that edge is judged with the values
from before (R243, R245, R252). -/
def armDue : DueAct → Bool
  | .armTrigger _ => true
  | _ => false
def forceDue : DueAct → Bool
  | .fireTrigger _ => true
  | _ => false

/-- An event-clock edge (R16, R60, R326, R420). -/
def eventEdge (s : State) : State :=
  let s := s.stileEdge.restNet.settleWaits.restTears.restFurrow.restJumps.restTrigs.restMeas.restHedge.prefetch.mergeFresh
  let now := (s.due.filter (fun d => decide (d.left ≤ 1))).map (fun d => d.act)
  let s := { s with due := (s.due.filter (fun d => decide (1 < d.left))).map (fun d => { d with left := d.left - 1 }) }
  let s := List.foldl fireDue ((now.filter forceDue).foldl fireDue s).sampleEdge (now.filter armDue)
  let s := (s.sampleJumps s.edgeNow).sampleCells
  ((now.filter (fun a => !armDue a && !forceDue a)).foldl fireDue s.rotateCycle).headrooms

/-! ### Epochs (R72–R74) -/

/-- The epoch is honoured at E, which is an event-cycle boundary: an event cycle that the load cuts ends here (R60, R72). -/
def epochEdge (s : State) : State :=
  let t := s.measBeforeLoad.honourEpoch
  if s.now % 2048 = 0 then t else t.eventEdge

/-- The edge E of a pulse, of the pulses `before` and `after` it in hand: behind an armed pulse it is ignored and counted; any other is recorded, and
honoured where R73 allows it, the pulses detected behind it being ignored and counted. -/
def epochAt (s : State) (before : List SyncPulse) (p : SyncPulse) (after : List SyncPulse) : State :=
  let rest := before ++ after
  if p.behind then (s.modTb (fun x => { x with pulses := rest })).count F.TB_EPOCH_STAT_REJECT
  else
    let s := (s.modTb (fun x => { x with pulses := rest })).takeSnap
    if !p.armed then s
    else if p.good && s.tbState == 2 && !s.deviceRuns then
      let n := (rest.filter (fun q => q.behind)).length
      let s := s.modTb (fun x => { x with pulses := rest.filter (fun q => !q.behind) })
      (if n = 0 then s else s.count F.TB_EPOCH_STAT_REJECT [] n).epochEdge
    else
      let r := settlePulses after
      let s := (s.modTb (fun x => { x with pulses := before ++ r.1 })).count F.TB_EPOCH_STAT_REJECT
      if r.2 = 0 then s else s.count F.TB_EPOCH_STAT_UNARMED [] r.2

/-- The first pulse in hand whose E has come. -/
def epochDue (s : State) : State :=
  match s.tb.pulses.findIdx? (fun p => p.lag == 0) with
  | some i => match s.tb.pulses.drop i with
    | p :: t => s.epochAt (s.tb.pulses.take i) p t
    | [] => s
  | none => s

/-- Every pulse in hand whose E has come, oldest first. -/
def epochsDue (s : State) : State := s.tb.pulses.foldl (fun s _ => s.epochDue) s

/-- What the last REFIN edge left to its rows, EPOCH_INSTANT and SYNCOUT_PERIODIC, is done before the next MCLK edge. -/
def restRef (s : State) : State := s.epochsDue.syncoutDue

/-- One MCLK edge: TBC advances by 1,024 ticks, a REFIN edge and flits come in their turn, and every second MCLK edge is an event-clock edge. A
field side without its supplies counts nothing; what the H-die's registers added meanwhile joins (R16, R58, R60, R68). -/
def tick (s : State) : State :=
  if s.boot.fieldOn then
    let s := ((s.restRef).modTb (fun t => { t with tbc := t.tbc + 1024, laps := t.laps + (t.tbc.toNat + 1024) / 2 ^ 64 })).refTick.refoutTick.flitTick
    if s.now % 2048 = 0 then s.eventEdge else s
  else s.mergeFresh

end State

/-- EPOCH_INSTANT: the edge E of the oldest pulse whose E has come (R72–R74). -/
def execEpochInstant (s : State) : Host.Outcome State Fault Refusal := .next s.epochDue

/-- SYNC_PULSE: SYNCIN is sampled high after low at a REFIN edge; what has its E at that edge comes first (R71, R74, R75). -/
def execSyncPulse (s : State) : Host.Outcome State Fault Refusal :=
  let s := s.epochsDue.syncDetect 0
  .next (if s.get F.TB_EPOCH_CTRL_SYNCOUT_MODE = 1 then s.syncoutStart else s)

end Sys2Proof.Machine
end

