-- ==== Sys2Proof/Machine/PciConfig.lean ====
section
/-! DEFINITION. What the endpoint presents in configuration space (R383, R384, R386, R484): identity, capabilities and BARs, and the decoding of a
BAR. No command of the table reads or writes configuration space; what software sets there is not part of State (DESIGN CHOICE, log 75). -/

namespace Sys2Proof.Machine

/-- Identity and capabilities of a function (R383). -/
structure PciFunction where
  vendor : Nat
  device : Nat
  classCode : Nat
  ssvid : Nat
  ssid : Nat
  /-- MSI-X vectors, Interrupt Pin, and the interrupt message number of AER (R383, R410). -/
  msixVectors : Nat
  interruptPin : Nat
  aerVector : Nat
  /-- Offsets of the MSI-X table and of the pending-bit array, and the BIR of both (R386). -/
  msixTable : Nat
  msixPba : Nat
  msixBir : Nat
  /-- AER, function-level reset, ECRC generation and checking. -/
  aer : Bool
  flr : Bool
  ecrc : Bool
  /-- MSI, ATS, PRI, PASID, Resizable BAR, TPH, LTR, ASPM and L1 substates (R383, R384). -/
  absent : List String
  deriving DecidableEq, Repr

/-- SR-IOV of the physical function (R383). -/
structure Sriov where
  totalVfs : Nat
  initialVfs : Nat
  vfStride : Nat
  firstVfOffset : Nat
  deriving DecidableEq, Repr

/-- A BAR pair: the number of its first BAR, its size in bytes, its width in address bits, and whether it is prefetchable (R386). -/
structure Bar where
  num : Nat
  size : Nat
  width : Nat
  prefetch : Bool
  deriving DecidableEq, Repr

/-- What the endpoint supports on the link (R383): speeds in units of 0.5 GT/s, widths, payload and read request sizes in bytes, and non-posted
requests outstanding. -/
structure PciLink where
  speeds : List Nat
  widths : List Nat
  maxPayload : List Nat
  maxRead : List Nat
  outstanding : Nat
  relaxedOrdering : Bool
  noSnoop : Bool
  deriving DecidableEq, Repr

namespace State

/-- The function of session `n`: 0 is the physical function, the others are virtual (R383, R386). -/
def pciFunction (s : State) (n : Fin 16) : PciFunction where
  vendor := 0x1E7A
  device := if n = 0 then 0x9600 else 0x9601
  classCode := 0x118000
  ssvid := s.boot.ssvid
  ssid := s.boot.ssid
  msixVectors := 64
  interruptPin := 0
  aerVector := 0
  msixTable := 0x800
  msixPba := 0xC00
  msixBir := 2
  aer := true
  flr := true
  ecrc := true
  absent := ["MSI", "ATS", "PRI", "PASID", "Resizable BAR", "TPH", "LTR", "ASPM", "L1 substates"]

/-- The virtual functions (R383). -/
def sriov : Sriov := ⟨15, 15, 1, 1⟩

/-- The link as the endpoint supports it (R383). -/
def pciLink : PciLink where
  speeds := [32, 16, 10, 5]
  widths := [8, 4, 2, 1]
  maxPayload := [128, 256, 512]
  maxRead := [128, 256, 512, 1024, 2048, 4096]
  outstanding := 256
  relaxedOrdering := false
  noSnoop := false

/-- The BARs of the physical function, and the VF BAR in its SR-IOV capability, of one virtual function's size; no other BAR is implemented (R386). -/
def pfBars : List Bar := [⟨0, 2 ^ 20, 64, false⟩, ⟨2, 4096, 64, false⟩]
def vfBars : List Bar := [⟨2, 4096, 64, false⟩]

/-- Bus addresses that system software has put into BAR0–BAR1, BAR2–BAR3 and VF BAR2–VF BAR3. -/
structure BarBases where
  bar0 : Nat
  bar2 : Nat
  vfBar2 : Nat
  deriving DecidableEq, Repr

/-- Offset of an address in a window. -/
def windowOff (base size a : Nat) : Option Nat := if base ≤ a ∧ a < base + size then some (a - base) else none

/-- Where an access to a bus address goes: the setup registers, the doorbell page of S0, or that of Sn at VF BAR2 + (n − 1) × 4 KiB (R386). -/
def barPlace (b : BarBases) (a : Nat) : Option Place :=
  match windowOff b.bar0 (2 ^ 20) a with
  | some o => some ⟨none, Fin.ofNat 1048576 o⟩
  | none => match windowOff b.bar2 4096 a with
    | some o => some ⟨some 0, Fin.ofNat 1048576 o⟩
    | none => (windowOff b.vfBar2 (15 * 4096) a).map (fun o => ⟨some (Fin.ofNat 16 (o / 4096 + 1)), Fin.ofNat 1048576 (o % 4096)⟩)

end State

end Sys2Proof.Machine
end

