-- ==== Sys2Proof/Machine/Access.lean ====
section
/-! DEFINITION. The host's accesses to BAR0 and to the doorbell pages (R12, R13, R16, R387, R388, R411). `page` names a session's doorbell page; without
it the access is to BAR0. Each crosses the Stile within the same step (log 31). -/

namespace Sys2Proof.Machine

namespace State

/-- A BAR0 access of another size than a naturally aligned 32 bits: discarded, or answered with all ones, and logged (R12, R388). -/
def badAccess (s : State) (off : Nat) (write : Bool) (be : Nat) : State :=
  let s := s.count F.HI_ACC_CNT_COUNT
  let s := if s.tot F.HI_ACC_LOG_VALID = 0 then
      (((s.set F.HI_ACC_LOG_OFFSET [] off).set F.HI_ACC_LOG_WRITE [] write.toNat).set F.HI_ACC_LOG_BE [] be).raise F.HI_ACC_LOG_VALID
    else s
  if write then s else s.reply 0xFFFFFFFF

/-- A 32-bit write by the host; one that is not aligned is of a bad size, and in a page it is discarded (R12, R387). -/
def accessWrite (s : State) (page : Option (Fin 16)) (off : Nat) (v : Word) : State :=
  match page with
  | none => if off % 4 = 0 then s.hostWriteReg off v else s.badAccess off true 15
  | some n => if off % 4 = 0 then s.pageWrite n off v else s

/-- A 32-bit read by the host. -/
def accessRead (s : State) (page : Option (Fin 16)) (off : Nat) : State :=
  match page with
  | none => if off % 4 = 0 then s.hostRead off else s.badAccess off false 15
  | some n => if off % 4 = 0 then s.bar0Read (pageKey n (off % 4096)) else s.reply 0xFFFFFFFF

end State

/-- BAR0_WRITE (R14, R15, R487). -/
def execBar0Write (page : Option (Fin 16)) (off : Fin 1048576) (v : Word) (s : State) : Host.Outcome State Fault Refusal :=
  .next (s.accessWrite page off v)

/-- BAR0_BAD_SIZE_ACCESS: an access of a bad size to BAR0, logged; to a doorbell page it is discarded or answered with all ones (R12, R387, R388,
R411). -/
def execBar0BadSizeAccess (at_ : Place) (write : Bool) (be : Fin 16) (s : State) : Host.Outcome State Fault Refusal :=
  .next (match at_.page with
    | none => s.badAccess at_.off write be
    | some _ => if write then s else s.reply 0xFFFFFFFF)

/-- PAIR_LO_READ (R13). -/
def execPairLoRead (page : Option (Fin 16)) (off : Fin 1048576) (s : State) : Host.Outcome State Fault Refusal := .next (s.accessRead page off)

/-- PAIR_HI_READ (R13). -/
def execPairHiRead (page : Option (Fin 16)) (off : Fin 1048576) (s : State) : Host.Outcome State Fault Refusal := .next (s.accessRead page off)

/-- PAIR_LO_WRITE (R13). -/
def execPairLoWrite (page : Option (Fin 16)) (off : Fin 1048576) (v : Word) (s : State) : Host.Outcome State Fault Refusal :=
  .next (s.accessWrite page off v)

/-- PAIR_HI_WRITE (R13). -/
def execPairHiWrite (page : Option (Fin 16)) (off : Fin 1048576) (v : Word) (s : State) : Host.Outcome State Fault Refusal :=
  .next (s.accessWrite page off v)

/-- RC_FIELD_READ: the read of any register; its RC fields clear (R16). -/
def execRcFieldRead (page : Option (Fin 16)) (off : Fin 1048576) (s : State) : Host.Outcome State Fault Refusal := .next (s.accessRead page off)

end Sys2Proof.Machine
end

