-- ==== Sys2Proof/Machine/NetRows.lean ====
section
/-! DEFINITION. Remote register access at its target and on its way (R438, R442), and messages of the forerunner fabric (R450). -/

namespace Sys2Proof.Machine

namespace State

/-- A remote access that this device is the target of, refused with a status when it names a wrong offset or this device is not numbered. -/
def raccRefusal (s : State) (off : Nat) : Option Status :=
  if !s.numbered then some .resourceBusy else if raccBad off then some .commitRange else none

/-- Answer a remote access upstream, in the name of its target. -/
def raccAnswer (s : State) (crate dev value : Nat) (st : Status) : State := s.netSend 0 (.raccRsp crate dev value st.code)

/-- A remote access goes on to the device behind a port, or is answered with FAULT when that port is down. -/
def raccOnward (s : State) (p : Fin 4) (crate dev : Nat) (m : NetMsg) : State :=
  if s.portUp p then s.raccAsk p crate dev false m else s.raccAnswer crate dev 0 .fault

/-- A port's oldest access to a target has been answered: the access, and the others. -/
def takeAsk (crate dev : Nat) : List RaccAsk → Option RaccAsk × List RaccAsk
  | [] => (none, [])
  | a :: t => if a.crate = crate ∧ a.device = dev then (some a, t) else let r := takeAsk crate dev t; (r.1, a :: r.2)

/-- A fabric message for this device acts (R450). -/
def fabricAct (s : State) (b : FabBody) : State :=
  match b with
  | .discover src => s.fabSend src (.node (s.act F.TL_FAB_CFG_NODE))
  | .event line level =>
    if s.crateLine line && decide (line < 8) then s.modNet (fun n => { n with fabric := setLine n.fabric line level }) else s
  | .regWr off v => if raccBad off then s else s.raccWrite off (BitVec.ofNat 32 v) regWrite
  | .regRd src off =>
    if raccBad off then s.fabSend src (.regRsp 0)
    else let r := s.raccRead off; r.2.fabSend src (.regRsp r.1.toNat)
  | .node _ => s
  | .regRsp _ => s

end State

/-- RACC_WR: a remote write comes from upstream; `via` is the port towards a target further on (R442). -/
def execRaccWr (via : Option (Fin 4)) (crate : Fin 16) (dev : Fin 32) (off : Fin 1048576) (v : Word) (s : State) :
    Host.Outcome State Fault Refusal :=
  .next (s.hear 0 (fun s =>
    match via with
    | some p => s.raccOnward p crate dev (.raccWr crate dev off v.toNat)
    | none => match s.raccRefusal off with
      | some st => s.raccAnswer crate dev 0 st
      | none => (s.raccWrite off v State.regWrite).raccAnswer crate dev 0 .ok))

/-- RACC_RD: a remote read comes from upstream (R442). -/
def execRaccRd (via : Option (Fin 4)) (crate : Fin 16) (dev : Fin 32) (off : Fin 1048576) (s : State) : Host.Outcome State Fault Refusal :=
  .next (s.hear 0 (fun s =>
    match via with
    | some p => s.raccOnward p crate dev (.raccRd crate dev off)
    | none => match s.raccRefusal off with
      | some st => s.raccAnswer crate dev 0 st
      | none => let r := s.raccRead off; r.2.raccAnswer crate dev r.1.toNat .ok))

/-- RACC_RSP: a target's answer to the oldest access that a port has carried on to it: this device's own, unless it has timed out, or one whose answer
goes on upstream (R442, log 77). -/
def execRaccRsp (p : Fin 4) (value : Word) (ans : RaccAnswer) (s : State) : Host.Outcome State Fault Refusal :=
  .next (s.hear p (fun s =>
    let a := State.takeAsk ans.crate ans.device s.net.ports[p].asks
    let s := s.modPort p (fun x => { x with asks := a.2 })
    match a.1 with
    | none => s
    | some ask =>
      if ask.own then
        if ask.live then
          let s := if s.get F.TL_RACC_TGT_WRITE = 0 then s.putK (Reg.key .TL_RACC_DATA []) value else s
          (s.set F.TL_RACC_STAT_BUSY [] 0).set F.TL_RACC_STAT_STATUS [] ans.status
        else s
      else s.netSend 0 (.raccRsp ans.crate ans.device value.toNat ans.status)))

/-- FABRIC_MESSAGE: a message on a fabric port acts in the node it names, or is routed on (R450). -/
def execFabricMessage (p : Fin 4) (node : Fin 65536) (body : FabBody) (s : State) : Host.Outcome State Fault Refusal :=
  if s.fabricOn ∧ s.act F.TL_PORT_CFG_MODE [p] = 2 then
    .next (if node.val = s.act F.TL_FAB_CFG_NODE then s.fabricAct body else s.fabSend node body)
  else .next s

end Sys2Proof.Machine
end

