-- ==== Sys2Proof/Machine/Startup.lean ====
section
/-! DEFINITION. Power, resets and boots (spec/19_startup_nvm.md), and the wraps of the time-stamp counter (R69). -/

namespace Sys2Proof.Machine

/-! ### The SPI NOR boot (R477) -/

/-- Is a boot header wrong? -/
def bootHeaderBad (b : List Byte) : Bool :=
  fieldAt b 0 4 != 0x54424E4B || fieldAt b 4 2 != 1 || decide (15 < fieldAt b 6 1) || decide (1 < fieldAt b 7 1) ||
  fieldAt b 8 4 % 8 != 0 || fieldAt b 12 4 % 8 != 0 || decide (4096 < fieldAt b 16 4) || fieldAt b 0x18 8 != 0 ||
  crc32 (b.take 0x14 ++ (leBytes 4 0 ++ b.drop 0x18)) != fieldAt b 0x14 4

namespace State

/-- The boot ends with a state and a code. -/
def spiEnd (s : State) (st err : Nat) : State :=
  ((s.set F.NVM_BOOT_STAT_SPI_STATE [] st).set F.NVM_BOOT_STAT_SPI_ERR [] err).set F.NVM_BOOT_STAT_BOOT_BUSY [] 0

/-- One pair of the script, as a BAR0 write of the physical function; one on the H-die is skipped and counted. -/
def scriptPair (s : State) (off : Nat) (v : Word) : State :=
  if off < 2 ^ 20 ∧ keyOnHost off then s.incSat F.NVM_BOOT_STAT_SKIPPED
  else if off % 4 = 0 ∧ off < 2 ^ 20 then s.bar0Put (s.regKey off) v regWrite
  else s

/-- The script, in order. -/
def runScript (s : State) (bytes : List Byte) (n : Nat) : State :=
  (List.range n).foldl (fun s i => s.scriptPair (fieldAt bytes (8 * i) 4) (BitVec.ofNat 32 (fieldAt bytes (8 * i + 4) 4))) s

/-- The boot's commit of scope 0: its refusal shows in SYS_COMMIT_WHERE, LAST and LFID and in NVM_BOOT_CMT, not in SYS_COMMIT_STATUS (R477,
R489). -/
def bootCommit (s : State) : State :=
  let v : Scope := ⟨0, 0, true⟩
  let vals := s.commitVals v
  let segs := s.commitSegs v
  let c := s.candidate vals segs
  match commitFirst s c v vals true with
  | some x =>
    let key := Reg.key .SYS_COMMIT_STATUS []
    let old := s.getK key
    let s := (s.commitRefuse none x).putK key old
    ((s.set F.NVM_BOOT_CMT_STATUS [] x.st.code).set F.NVM_BOOT_CMT_FIELD_ID [] x.id).spiEnd 2 0x22
  | none => ((pinAll (s.commitCopy v vals segs) c v [] []).incWrap F.SYS_COMMIT_INFO_SEQ []).spiEnd 2 0

/-- The regions an image takes are granted to a session in both copies (R477 step 2). -/
def grantRegions (s : State) (k : Fin 16) (mask : Nat) : State := s.putBoth F.RM_OWN_CS_REGIONS [k] mask

/-- Steps 1 to 4 of R477 over what was read from the SPI NOR. -/
def spiDone (s : State) (header image script : List Byte) : State :=
  let h := padTo 32 header
  if bootHeaderBad h then if s.boot.boot = 2 then s.spiEnd 0 0 else s.spiEnd 3 0x20
  else
    let len := fieldAt image 12 4
    let n := fieldAt h 16 4
    if 2 ^ 24 < fieldAt h 8 4 + len ∨ 2 ^ 24 < fieldAt h 12 4 + 8 * n then s.spiEnd 3 0x21
    else
      let k : Fin 16 := Fin.ofNat 16 (fieldAt h 6 1)
      let img := padTo len image
      match s.imageErr k img len true with
      | some e => (s.noteLoad (some e)).spiEnd 3 e.code
      | none =>
        let s := ((s.runLoad k img len true).2.grantRegions k (fieldAt img 8 2)).runScript (padTo (8 * n) script) n
        if fieldAt h 7 1 = 1 then s.bootCommit else s.spiEnd 2 0

/-- DDR4 sizing and training ends; the SPI NOR boot follows when the configuration selects it (R473, R474). -/
def ddrDone (s : State) (ok : Bool) (mib : Nat) : State :=
  let s := if ok then (s.set F.RM_MEM_INST_MIB [] mib).set F.NVM_BOOT_STAT_DDR_DONE [] 1 else s.set F.NVM_BOOT_STAT_DDR_FAIL [] 1
  if s.boot.boot = 0 then s else s.spiBegin

end State

/-! ### The rows -/

/-- HOST_POWER_ON: the host supplies become valid (R469, R472). -/
def execHostPowerOn (s : State) : Host.Outcome State Fault Refusal := .next (s.hostReset.modBoot (fun b => { b with hostOn := true }))

/-- HOST_CONVENTIONAL_RESET: PERST#, a hot reset or a link down (R470, R472). -/
def execHostConventionalReset (s : State) : Host.Outcome State Fault Refusal := .next s.hostReset

/-- FIELD_POWER_ON: the field supplies become valid (R469, R471). -/
def execFieldPowerOn (s : State) : Host.Outcome State Fault Refusal := .next (s.fieldReset.modBoot (fun b => { b with fieldOn := true }))

/-- FRESET_N low for at least 1 µs (R470, R471). -/
def execFresetN (s : State) : Host.Outcome State Fault Refusal := .next s.fieldReset

/-- FIELD_SUPPLY_LOSS: a field rail below its field-reset threshold (R461, R470, R471). -/
def execFieldSupplyLoss (s : State) : Host.Outcome State Fault Refusal :=
  .next (s.fieldReset.loseTables.modBoot (fun b => { b with fieldOn := false }))

/-- FIELD_BOOT: the field side boots; the operands say which bank supplies are in range (R473). -/
def execFieldBoot (mvA mvB : Nat) (s : State) : Host.Outcome State Fault Refusal := .next (s.fieldBoot mvA mvB)

/-- DDR_TRAINING_DONE: with `ok`, the installed size in MiB (R474). -/
def execDdrTrainingDone (ok : Bool) (mib : Fin 131072) (s : State) : Host.Outcome State Fault Refusal :=
  .next (if s.stile.fieldRuns then s.ddrDone ok mib else s)

/-- SPI_NOR_BOOT_DONE: the bytes that the boot read, and what it did with them (R477). -/
def execSpiNorBootDone (header image script : List Byte) (s : State) : Host.Outcome State Fault Refusal :=
  .next (if s.get F.NVM_BOOT_STAT_SPI_STATE = 1 then s.spiDone header image script else s)

/-- TBC48_WRAP: every stamp stream receives a rollover marker with TBC[63:48] (R69, R280). -/
def execTbc48Wrap (s : State) : Host.Outcome State Fault Refusal :=
  let s := (s.tbEvent 8).overSess (fun k s => s.rollover k (s.now / 2 ^ 48))
  .next (s.modTb (fun x => { x with streamHi := s.now / 2 ^ 48 }))

/-- TBC_WRAP (R69). -/
def execTbcWrap (s : State) : Host.Outcome State Fault Refusal := .next (s.tbEvent 9)

end Sys2Proof.Machine
end

