-- ==== Sys2Proof/Machine/Dispatch.lean ====
section
/-! DEFINITION. The dispatch: one arm per command, each one direct call of its meaning. -/

namespace Sys2Proof.Machine

/-- The effect of a command on everything but the queue. -/
def exec (cmd : Instr) (s : State) : Host.Outcome State Fault Refusal :=
  match cmd with
  | .bar0Write page off v => Sys2Proof.Machine.execBar0Write page off v s
  | .bar0BadSizeAccess at_ write be => Sys2Proof.Machine.execBar0BadSizeAccess at_ write be s
  | .pairLoRead page off => Sys2Proof.Machine.execPairLoRead page off s
  | .pairHiRead page off => Sys2Proof.Machine.execPairHiRead page off s
  | .pairLoWrite page off v => Sys2Proof.Machine.execPairLoWrite page off v s
  | .pairHiWrite page off v => Sys2Proof.Machine.execPairHiWrite page off v s
  | .rcFieldRead page off => Sys2Proof.Machine.execRcFieldRead page off s
  | .sysCommitGo scope target => Sys2Proof.Machine.execSysCommitGo scope target s
  | .commitPinningDone pages failed => Sys2Proof.Machine.execCommitPinningDone pages failed s
  | .handshakeWatchdog u => Sys2Proof.Machine.execHandshakeWatchdog u s
  | .refLost word => Sys2Proof.Machine.execRefLost word s
  | .rangeWindowEnd present throughout count word => Sys2Proof.Machine.execRangeWindowEnd present throughout count word s
  | .refQualified phase => Sys2Proof.Machine.execRefQualified phase s
  | .pllLockDeclared phase => Sys2Proof.Machine.execPllLockDeclared phase s
  | .lockTrip word => Sys2Proof.Machine.execLockTrip word s
  | .lockTripCompare diffPpm => Sys2Proof.Machine.execLockTripCompare diffPpm s
  | .recoverDone => Sys2Proof.Machine.execRecoverDone s
  | .holdLimitExceeded => Sys2Proof.Machine.execHoldLimitExceeded s
  | .syncPulse => Sys2Proof.Machine.execSyncPulse s
  | .epochInstant => Sys2Proof.Machine.execEpochInstant s
  | .tbc48Wrap => Sys2Proof.Machine.execTbc48Wrap s
  | .tbcWrap => Sys2Proof.Machine.execTbcWrap s
  | .relock => Sys2Proof.Machine.execRelock s
  | .emit => Sys2Proof.Machine.execEmit s
  | .syncoutPeriodic => Sys2Proof.Machine.execSyncoutPeriodic s
  | .slicePeriodStart n t balls => Sys2Proof.Machine.execSlicePeriodStart n t balls s
  | .unitStartFromIdle u => Sys2Proof.Machine.execUnitStartFromIdle u s
  | .aoSampleSlotStart o => Sys2Proof.Machine.execAoSampleSlotStart o s
  | .reflexAssert c => Sys2Proof.Machine.execReflexAssert c s
  | .reflexDeassert c => Sys2Proof.Machine.execReflexDeassert c s
  | .modeChangeHizEnd n l => Sys2Proof.Machine.execModeChangeHizEnd n l s
  | .supplyBank m => Sys2Proof.Machine.execSupplyBank m s
  | .spareForce n l => Sys2Proof.Machine.execSpareForce n l s
  | .spareRestore n l err => Sys2Proof.Machine.execSpareRestore n l err s
  | .spareTg8Connected n => Sys2Proof.Machine.execSpareTg8Connected n s
  | .spareTrimsSettled n => Sys2Proof.Machine.execSpareTrimsSettled n s
  | .spareLoopbackCheck n pass => Sys2Proof.Machine.execSpareLoopbackCheck n pass s
  | .spareTakeover n => Sys2Proof.Machine.execSpareTakeover n s
  | .microwordComplete c => Sys2Proof.Machine.execMicrowordComplete c s
  | .conditionTrue c => Sys2Proof.Machine.execConditionTrue c s
  | .waitTimeout c => Sys2Proof.Machine.execWaitTimeout c s
  | .stallRelease c => Sys2Proof.Machine.execStallRelease c s
  | .csPatrol a => Sys2Proof.Machine.execCsPatrol a s
  | .halt c => Sys2Proof.Machine.execHalt c s
  | .resume c => Sys2Proof.Machine.execResume c s
  | .step c => Sys2Proof.Machine.execStep c s
  | .sequenceComplete k => Sys2Proof.Machine.execSequenceComplete k s
  | .coreDispatch c => Sys2Proof.Machine.execCoreDispatch c s
  | .cswAddrWrite v => Sys2Proof.Machine.execCswAddrWrite v s
  | .cswData0Read => Sys2Proof.Machine.execCswData0Read s
  | .cswData5Read => Sys2Proof.Machine.execCswData5Read s
  | .jumpRequest lines => Sys2Proof.Machine.execJumpRequest lines s
  | .shadowStaged u which => Sys2Proof.Machine.execShadowStaged u which s
  | .fwProgramLoaded g => Sys2Proof.Machine.execFwProgramLoaded g s
  | .fwScrDataWrite g v => Sys2Proof.Machine.execFwScrDataWrite g v s
  | .pageTableWalkDone k page ecc => Sys2Proof.Machine.execPageTableWalkDone k page ecc s
  | .pageFillComplete k page err data => Sys2Proof.Machine.execPageFillComplete k page err data s
  | .fillTimeout k page => Sys2Proof.Machine.execFillTimeout k page s
  | .refillReadComplete u which count ecc => Sys2Proof.Machine.execRefillReadComplete u which count ecc s
  | .vsInvTlb k => Sys2Proof.Machine.execVsInvTlb k s
  | .vsInvPages k => Sys2Proof.Machine.execVsInvPages k s
  | .triggerArm u => Sys2Proof.Machine.execTriggerArm u s
  | .triggerStop u => Sys2Proof.Machine.execTriggerStop u s
  | .triggerForce u => Sys2Proof.Machine.execTriggerForce u s
  | .armEvent u => Sys2Proof.Machine.execArmEvent u s
  | .triggerFire u => Sys2Proof.Machine.execTriggerFire u s
  | .preTriggerFull u => Sys2Proof.Machine.execPreTriggerFull u s
  | .postTriggerEnd u => Sys2Proof.Machine.execPostTriggerEnd u s
  | .failUnitTimeout k => Sys2Proof.Machine.execFailUnitTimeout k s
  | .gleanerWriteDone k r src => Sys2Proof.Machine.execGleanerWriteDone k r src s
  | .maskWindowJudge m => Sys2Proof.Machine.execMaskWindowJudge m s
  | .strayJudge m => Sys2Proof.Machine.execStrayJudge m s
  | .stampEdge i t v => Sys2Proof.Machine.execStampEdge i t v s
  | .stampLineFlush k => Sys2Proof.Machine.execStampLineFlush k s
  | .muGateOpen u => Sys2Proof.Machine.execMuGateOpen u s
  | .muGateClose u => Sys2Proof.Machine.execMuGateClose u s
  | .aoSlewMove o => Sys2Proof.Machine.execAoSlewMove o s
  | .aoDetectorSet o open_ => Sys2Proof.Machine.execAoDetectorSet o open_ s
  | .aoDetectorClear o open_ => Sys2Proof.Machine.execAoDetectorClear o open_ s
  | .aoMonUpdate o forceV loadI => Sys2Proof.Machine.execAoMonUpdate o forceV loadI s
  | .aoRangeEnable o => Sys2Proof.Machine.execAoRangeEnable o s
  | .aoTblDataWrite o v => Sys2Proof.Machine.execAoTblDataWrite o v s
  | .hrSwSet mask clr => Sys2Proof.Machine.execHrSwSet mask clr s
  | .hrSwClr mask => Sys2Proof.Machine.execHrSwClr mask s
  | .hrSwPulse mask => Sys2Proof.Machine.execHrSwPulse mask s
  | .eventEdgeSampled ev acts rose => Sys2Proof.Machine.execEventEdgeSampled ev acts rose s
  | .ringHoldoffEnd k ev => Sys2Proof.Machine.execRingHoldoffEnd k ev s
  | .sedgeFilterSettle c => Sys2Proof.Machine.execSedgeFilterSettle c s
  | .cgOnEdge g => Sys2Proof.Machine.execCgOnEdge g s
  | .cgOffEdge g => Sys2Proof.Machine.execCgOffEdge g s
  | .calCmd u => Sys2Proof.Machine.execCalCmd u s
  | .calIntervalExpiry u => Sys2Proof.Machine.execCalIntervalExpiry u s
  | .tempReading t => Sys2Proof.Machine.execTempReading t s
  | .calRunStart => Sys2Proof.Machine.execCalRunStart s
  | .calAttemptEnd m quals => Sys2Proof.Machine.execCalAttemptEnd m quals s
  | .teardown k => Sys2Proof.Machine.execTeardown k s
  | .teardownScrub k => Sys2Proof.Machine.execTeardownScrub k s
  | .teardownDone k => Sys2Proof.Machine.execTeardownDone k s
  | .sessionAbort k => Sys2Proof.Machine.execSessionAbort k s
  | .shotStart k => Sys2Proof.Machine.execShotStart k s
  | .shotTriggerTimeout k => Sys2Proof.Machine.execShotTriggerTimeout k s
  | .shotSequenceStart k => Sys2Proof.Machine.execShotSequenceStart k s
  | .shotTallyClose k => Sys2Proof.Machine.execShotTallyClose k s
  | .nop k => Sys2Proof.Machine.execNop k s
  | .regWrite k data => Sys2Proof.Machine.execRegWrite k data s
  | .regRead k data => Sys2Proof.Machine.execRegRead k data s
  | .commit k => Sys2Proof.Machine.execCommit k s
  | .loadImage k image => Sys2Proof.Machine.execLoadImage k image s
  | .writeSegments k data => Sys2Proof.Machine.execWriteSegments k data s
  | .tableLoad k data => Sys2Proof.Machine.execTableLoad k data s
  | .dmaWrite k data => Sys2Proof.Machine.execDmaWrite k data s
  | .dmaRead k ecc => Sys2Proof.Machine.execDmaRead k ecc s
  | .invalidate k => Sys2Proof.Machine.execInvalidate k s
  | .start k => Sys2Proof.Machine.execStart k s
  | .shot k => Sys2Proof.Machine.execShot k s
  | .abort k => Sys2Proof.Machine.execAbort k s
  | .dbCmdTail k idx => Sys2Proof.Machine.execDbCmdTail k idx s
  | .descriptorReadDone k bytes => Sys2Proof.Machine.execDescriptorReadDone k bytes s
  | .descriptorReadTimeout k bad => Sys2Proof.Machine.execDescriptorReadTimeout k bad s
  | .dbGo k tag => Sys2Proof.Machine.execDbGo k tag s
  | .dbHead k r idx rearm => Sys2Proof.Machine.execDbHead k r idx rearm s
  | .dbDataHead k head lap => Sys2Proof.Machine.execDbDataHead k head lap s
  | .ringEnable k r v => Sys2Proof.Machine.execRingEnable k r v s
  | .ringDisable k r v => Sys2Proof.Machine.execRingDisable k r v s
  | .dataAreaEnable k v => Sys2Proof.Machine.execDataAreaEnable k v s
  | .forwardPieceTimer k r => Sys2Proof.Machine.execForwardPieceTimer k r s
  | .interruptModTime k r => Sys2Proof.Machine.execInterruptModTime k r s
  | .functionLevelReset k => Sys2Proof.Machine.execFunctionLevelReset k s
  | .d3hotEntry k => Sys2Proof.Machine.execD3hotEntry k s
  | .vfEnableClear => Sys2Proof.Machine.execVfEnableClear s
  | .idle toHost how ndata => Sys2Proof.Machine.execIdle toHost how ndata s
  | .init toHost hostReset => Sys2Proof.Machine.execInit toHost hostReset s
  | .state v => Sys2Proof.Machine.execState v s
  | .lane toHost lane => Sys2Proof.Machine.execLane toHost lane s
  | .regWr off v => Sys2Proof.Machine.execRegWr off v s
  | .regRd off => Sys2Proof.Machine.execRegRd off s
  | .regRsp v => Sys2Proof.Machine.execRegRsp v s
  | .cmd k tag epoch bytes => Sys2Proof.Machine.execCmd k tag epoch bytes s
  | .go k inst => Sys2Proof.Machine.execGo k inst s
  | .credit k completion capture event data => Sys2Proof.Machine.execCredit k completion capture event data s
  | .hostRdReq k inst r => Sys2Proof.Machine.execHostRdReq k inst r s
  | .hostRdData k inst data => Sys2Proof.Machine.execHostRdData k inst data s
  | .hostWr k inst addr data => Sys2Proof.Machine.execHostWr k inst addr data s
  | .ringPost k r inst entry intr => Sys2Proof.Machine.execRingPost k r inst entry intr s
  | .fieldReset => Sys2Proof.Machine.execFieldReset s
  | .stileFrameCrcFail toHost => Sys2Proof.Machine.execStileFrameCrcFail toHost s
  | .stileLaneFail toHost lane => Sys2Proof.Machine.execStileLaneFail toHost lane s
  | .f2hSignalLoss => Sys2Proof.Machine.execF2hSignalLoss s
  | .linkFaultInitRetry => Sys2Proof.Machine.execLinkFaultInitRetry s
  | .fieldStileLoss => Sys2Proof.Machine.execFieldStileLoss s
  | .orphanTimeout => Sys2Proof.Machine.execOrphanTimeout s
  | .stCtrlFieldReset => Sys2Proof.Machine.execStCtrlFieldReset s
  | .discover p hop => Sys2Proof.Machine.execDiscover p hop s
  | .report path role serial => Sys2Proof.Machine.execReport path role serial s
  | .assign dev crate cluster via => Sys2Proof.Machine.execAssign dev crate cluster via s
  | .align p t1 t2 t3 t4 asked up => Sys2Proof.Machine.execAlign p t1 t2 t3 t4 asked up s
  | .epoch p offset ago => Sys2Proof.Machine.execEpoch p offset ago s
  | .raccWr via crate dev off v => Sys2Proof.Machine.execRaccWr via crate dev off v s
  | .raccRd via crate dev off => Sys2Proof.Machine.execRaccRd via crate dev off s
  | .raccRsp p value ans => Sys2Proof.Machine.execRaccRsp p value ans s
  | .evcfg crate cluster scope => Sys2Proof.Machine.execEvcfg crate cluster scope s
  | .eventRecord p cycle line level => Sys2Proof.Machine.execEventRecord p cycle line level s
  | .crateEventRelease => Sys2Proof.Machine.execCrateEventRelease s
  | .crateEventApply => Sys2Proof.Machine.execCrateEventApply s
  | .tlFlitCrcFail f => Sys2Proof.Machine.execTlFlitCrcFail f s
  | .tlTrainingDone p lanes => Sys2Proof.Machine.execTlTrainingDone p lanes s
  | .tlLaneFail p lane => Sys2Proof.Machine.execTlLaneFail p lane s
  | .tlDiscStart => Sys2Proof.Machine.execTlDiscStart s
  | .discoveryDone depth => Sys2Proof.Machine.execDiscoveryDone depth s
  | .tlAlignStart => Sys2Proof.Machine.execTlAlignStart s
  | .alignExchangeTimer p => Sys2Proof.Machine.execAlignExchangeTimer p s
  | .alignSlewDone residual => Sys2Proof.Machine.execAlignSlewDone residual s
  | .tlRaccGo v => Sys2Proof.Machine.execTlRaccGo v s
  | .raccTimeout => Sys2Proof.Machine.execRaccTimeout s
  | .fabricMessage p node body => Sys2Proof.Machine.execFabricMessage p node body s
  | .ddrPatrolRead addr ecc => Sys2Proof.Machine.execDdrPatrolRead addr ecc s
  | .supply m => Sys2Proof.Machine.execSupply m s
  | .supplyAo => Sys2Proof.Machine.execSupplyAo s
  | .tgSelfCheck n g err => Sys2Proof.Machine.execTgSelfCheck n g err s
  | .fltCoreOffline c => Sys2Proof.Machine.execFltCoreOffline c s
  | .fltCoreOnline c => Sys2Proof.Machine.execFltCoreOnline c s
  | .injectionArm n => Sys2Proof.Machine.execInjectionArm n s
  | .injectionCancel => Sys2Proof.Machine.execInjectionCancel s
  | .injectionDurationEnd => Sys2Proof.Machine.execInjectionDurationEnd s
  | .csStageSet k => Sys2Proof.Machine.execCsStageSet k s
  | .csStageClear k => Sys2Proof.Machine.execCsStageClear k s
  | .csSwapGo k => Sys2Proof.Machine.execCsSwapGo k s
  | .hostPowerOn => Sys2Proof.Machine.execHostPowerOn s
  | .hostConventionalReset => Sys2Proof.Machine.execHostConventionalReset s
  | .fieldPowerOn => Sys2Proof.Machine.execFieldPowerOn s
  | .fresetN => Sys2Proof.Machine.execFresetN s
  | .fieldSupplyLoss => Sys2Proof.Machine.execFieldSupplyLoss s
  | .fieldBoot mvA mvB => Sys2Proof.Machine.execFieldBoot mvA mvB s
  | .ddrTrainingDone ok mib => Sys2Proof.Machine.execDdrTrainingDone ok mib s
  | .nvmFLoad => Sys2Proof.Machine.execNvmFLoad s
  | .nvmFProgram => Sys2Proof.Machine.execNvmFProgram s
  | .storeCal => Sys2Proof.Machine.execStoreCal s
  | .nvmHLoad => Sys2Proof.Machine.execNvmHLoad s
  | .nvmHProgram => Sys2Proof.Machine.execNvmHProgram s
  | .nvmWriteDone host => Sys2Proof.Machine.execNvmWriteDone host s
  | .stileSignalPresent => Sys2Proof.Machine.execStileSignalPresent s
  | .tlPeerSignal p => Sys2Proof.Machine.execTlPeerSignal p s
  | .phaseAccumulatorAdd o => Sys2Proof.Machine.execPhaseAccumulatorAdd o s
  | .sedgeFlipFlopCapture c => Sys2Proof.Machine.execSedgeFlipFlopCapture c s
  | .hostDataReadTimeout k bad => Sys2Proof.Machine.execHostDataReadTimeout k bad s
  | .spiNorBootDone header image script => Sys2Proof.Machine.execSpiNorBootDone header image script s
  | .supplyBankReturn m => Sys2Proof.Machine.execSupplyBankReturn m s

end Sys2Proof.Machine
end

