-- ==== Sys2Proof/Safety.lean ====
section
/-! DEFINITION. What claims are stated in: the canonical form of the state's maps, and what a command leaves unchanged. -/

namespace Sys2Proof.Machine

/-- Every memory is in its canonical form: field DDR4, host memory and the two NVMs. -/
def State.memsWf (s : State) : Prop := memWf s.ddr = true ∧ memWf s.hostMem = true ∧ memWf s.nvmF = true ∧ memWf s.nvmH = true

/-- Every copy of the setup registers is in its canonical form: the main, shadow and active copies, and the additions of the event cycle. -/
def State.regsWf (s : State) : Prop :=
  smWf resetVal s.regs.main = true ∧ smWf resetVal s.regs.shadow = true ∧ smWf resetVal s.regs.active = true ∧
  smWf (fun _ => (0 : Word)) s.regs.fresh = true

/-- The state is in its canonical form: equal contents are equal data. -/
def State.canonical (s : State) : Prop := s.memsWf ∧ s.regsWf

/-- Every byte of every memory reads after as it read before. -/
def memSame (s t : State) : Prop :=
  ∀ a, memByte t.ddr a = memByte s.ddr a ∧ memByte t.hostMem a = memByte s.hostMem a ∧
    memByte t.nvmF a = memByte s.nvmF a ∧ memByte t.nvmH a = memByte s.nvmH a

/-- Every byte outside the `n` bytes from address `a` reads after as before. -/
def bytesKept (m m' : List Host.Cell) (a n : Nat) : Prop := ∀ b, b < a ∨ a + n ≤ b → memByte m' b = memByte m b

/-- Every setup register outside the keys of `ks` reads after as before, in its main, shadow and active copies, and no count or sticky bit outside
them has been added to. -/
def regsSame (ks : List Nat) (s t : State) : Prop :=
  ∀ k, k ∉ ks → t.getK k = s.getK k ∧ t.shadowK k = s.shadowK k ∧ t.activeK k = s.activeK k ∧ t.freshK k = s.freshK k

/-- A register whose write does more than its access codes say: it carries a strobe, or the write of it acts at once. -/
def Reg.acts (r : Reg) : Bool :=
  match r with
  | .SYS_COMMIT | .TB_CTRL | .TB_EPOCH_CTRL | .TB_HOLD | .CH_SPARE_CTRL | .SQ_CTRL | .CSW_ADDR | .FW_SCR_DATA | .AO_TBL_DATA | .VS_INV
  | .TG_CTRL | .GL_RGN_RPTR | .HR_SW | .CAL_CMD | .RM_SESS_CTRL | .FLT_TEMP_CFG | .FLT_CORE | .FLT_INJ_CTRL | .FLT_CS_STAGE | .FLT_CS_SWAP
  | .NVM_H_ADDR | .NVM_F_ADDR | .NVM_H_DATA | .NVM_F_DATA | .NVM_H_CTRL | .NVM_F_CTRL | .ST_CTRL | .TL_DISC_CTRL | .TL_ALIGN_CTRL
  | .TL_RACC_TGT => true
  | _ => false

/-- A register whose read does more than clear its RC fields. -/
def Reg.readActs (r : Reg) : Bool :=
  match r with
  | .CSW_DATA | .FW_SCR_DATA | .AO_TBL_DATA | .NVM_F_DATA | .NVM_H_DATA => true
  | _ => false

/-- A number of entries that a ring may have: a power of two from 16 to 65,536 (R389). -/
abbrev goodRingSize (n : Nat) : Prop := ∃ i : Fin 17, 4 ≤ i.val ∧ n = 2 ^ i.val

/-- The same field of two words. -/
abbrev fieldSame (f : FieldRow) (v w : Word) : Prop := bitsOf v.toNat f.lsb f.width = bitsOf w.toNat f.lsb f.width

/-- A step from `s` to `t` adds `n` to an RC counter: its additions of this event cycle grow by `n` and saturate (R16, R17). -/
abbrev counted (f : Fld) (ix : List Nat) (n : Nat) (s t : State) : Prop :=
  bitsOf (t.freshK (f.reg.key ix)).toNat f.lsb f.width =
    satAdd f.width (bitsOf (s.freshK (f.reg.key ix)).toNat f.lsb f.width) n

/-- Both directions of the Stile are clear, and no injection keeps the next frame of either from passing (R420, R455). -/
abbrev crosses (s : State) : Prop :=
  s.fieldUp = true ∧ s.injOn 7 0 = false ∧ s.injOn 7 1 = false ∧ s.injOn 9 0 = false ∧ s.injOn 9 1 = false

/-- `n` frames have crossed to the field side at once: both ends have numbered them (R416, R420). -/
abbrev framesDown (n : Nat) (x : Stile) : Stile :=
  { x with txH := (x.txH + n) % 65536, rxF := (x.rxF + n) % 65536, owedH := x.owedH + n }

/-- `n` frames have crossed to the host side at once. -/
abbrev framesUp (n : Nat) (x : Stile) : Stile :=
  { x with txF := (x.txF + n) % 65536, rxH := (x.rxH + n) % 65536, owedF := x.owedF + n }

/-- The machine once a register read has shown that the PCI Express link is up (R411). -/
abbrev linkSeen (s : State) : State := { s with boot := { s.boot with linkUp := true } }

/-- A BAR0 write that FIELD not being UP keeps from the F-die changes nothing but the count of such writes (R426). -/
abbrev writeLost (s t : State) : Prop :=
  counted F.ST_DOWN_CNT_DOWN_WR [] 1 s t ∧ t = { s with regs := t.regs } ∧ regsSame [Reg.key .ST_DOWN_CNT []] s t

/-- `c` stands at the head of session `k`'s queue, `rest` behind it, and nothing keeps it from beginning (R392, R396, R400, R405). -/
abbrev headReady (k : Fin 16) (c : Cmd) (rest : List Cmd) (s : State) : Prop :=
  s.host[k].queue = c :: rest ∧ crosses s ∧ s.host[k].held = false ∧ s.midCommand k = false ∧ s.mayBegin k c = true ∧
  s.instLive k c.tag c.epoch = true ∧ s.instEnded k c.tag c.epoch = false ∧ c.tag < 65536 ∧ c.epoch < 16

/-- Bus address of the next entry of session `k`'s completion ring. -/
abbrev entryAt (k : Fin 16) (s : State) : Nat := s.ringBase k 1 + 32 * s.host[k].rings[1].wr

/-- A field of the completion entry that a step from `s` to `t` writes. -/
abbrev entryField (k : Fin 16) (s t : State) (off n : Nat) : Nat := fieldAt (memBytes t.hostMem (entryAt k s) 32) off n

/-- The completion of an instance stands in session `k`'s completion ring: tag, opcode, STATUS, COND, epoch with a quality code, DETAIL0 and DETAIL1,
TBC[47:0] and PHASE (R397); the instance is no longer live, and the ring holds one entry more. -/
abbrev posted (k : Fin 16) (tag epoch op : Nat) (st : Status) (cond q d0 d1 : Nat) (s t : State) : Prop :=
  entryField k s t 0 2 = tag ∧ entryField k s t 2 1 = op ∧ entryField k s t 3 1 = st.code ∧ entryField k s t 4 2 = cond ∧
  entryField k s t 7 1 = epoch + 16 * q ∧ entryField k s t 8 8 = d0 ∧ entryField k s t 16 8 = d1 ∧
  entryField k s t 24 6 = s.now48 ∧ entryField k s t 30 2 = 2 ^ 15 * s.host[k].rings[1].phase.toNat ∧
  t.instLive k tag epoch = false ∧ t.host[k].rings[1].used = s.host[k].rings[1].used + 1

/-- The completion of the command `c`, with the time base's present quality. -/
abbrev completed (k : Fin 16) (c : Cmd) (st : Status) (cond d0 d1 : Nat) (s t : State) : Prop :=
  posted k c.tag c.epoch (cmdOp c.bytes) st cond s.quality d0 d1 s t

/-- Session `k`'s running START or SHOT can post its completion at once. -/
abbrev canPost (k : Fin 16) (s : State) : Prop :=
  crosses s ∧ s.ringRoom k 1 = true ∧ s.host[k].waiting = [] ∧ s.instLive k s.sess[k].tag s.sess[k].epoch = true ∧
  s.instEnded k s.sess[k].tag s.sess[k].epoch = false ∧ s.sess[k].tag < 65536 ∧ s.sess[k].epoch < 16

/-- A commit of `v` in the device `s` passes every check (R40). -/
abbrev commitPasses (v : Scope) (s : State) : Prop :=
  State.commitFirst s (s.candidate (s.commitVals v) (s.commitSegs v)) v (s.commitVals v) false = none

/-- The active copies after a commit of `v`: the shadow copy of every register it covers, every other register as it was (R41, R42). -/
abbrev commitsTo (v : Scope) (s t : State) : Prop :=
  ∀ k, t.activeK k = (match regAt k with
    | some (r, ix) => if s.covers v r ix then s.shadowK k else s.activeK k
    | none => s.activeK k)

/-- A microword with no effect outside its core: no issue, timing-set switch, Furrow operation or emit, outside a span, with no shot boundary or END, and
neither a CALL nor a RET. -/
abbrev plainWord (w : Nat) : Prop :=
  mwIssue w = false ∧ mwTsSw w = false ∧ mwFwOp w = 0 ∧ mwEmit w = 0 ∧ mwAtomic w = false ∧ mwEnd w = false ∧ mwShotBnd w = false ∧
  mwMode w ≠ 3 ∧ mwMode w ≠ 4

/-- Nothing waits for the next word boundary of a core. -/
abbrev nothingWaits (c : Fin 4) (s : State) : Prop :=
  s.cores[c].abortReq = false ∧ s.cores[c].haltReq = false ∧ s.cores[c].stepping = false

/-- The core's session owns the region of the core's address, where a microword without an error stands (R127, R128). -/
abbrev fetches (c : Fin 4) (w : Nat) (s : State) : Prop :=
  s.ownsRegion (s.coreSess c) (s.cores[c].ctx.pc / 1024) = true ∧
  s.csWord s.cores[c].ctx.pc = some ⟨1, w, Vector.replicate 3 .clean⟩ ∧ s.flt.inj = none

/-- The core has fetched the word `w` at its address, which starts: its dispatch source is taken, and its timeout runs from the next event-clock edge
(R131, R138, R465). -/
abbrev started (c : Fin 4) (w : Nat) (s : State) : State :=
  s.modCore c (fun r => { r with
    dsp := s.dispatchSrc c (mwDspSrc w), waitFrom := (s.now + 2047) / 2048 * 2048
    ctx := { r.ctx with fetched := withBit r.ctx.fetched (r.ctx.pc / 1024) } })

/-- The core after a plain word whose condition was `cv` and whose wait timed out or not. -/
abbrev afterPlain (c : Fin 4) (w : Nat) (cv tmo : Bool) (st : CoreSt) (s : State) : State :=
  s.modCore c (fun r => { r with
    st := st, span := none, haltReq := false, stepping := false, ctx := mwCtx w s.cores[c].ctx cv tmo s.cores[c].dsp })

/-- Session `k` owns no slice, output or trigger unit. -/
abbrev ownsNoUnit (k : Fin 16) (s : State) : Prop :=
  (∀ n : Fin 12, s.ownsSlice k n = false) ∧ (∀ o : Fin 16, s.ownsAo k o = false) ∧ (∀ u : Fin 8, s.ownsTg k u = false)

/-- What a completion leaves alone: the other sessions' rings, every setup register but the pending bits of session `k`'s vectors and those of `ks`;
session `k`'s queue is `rest`. -/
abbrev ringFrame (k : Fin 16) (rest : List Cmd) (ks : List Nat) (s t : State) : Prop :=
  t.host[k].queue = rest ∧ (∀ j : Fin 16, j ≠ k → t.host[j] = s.host[j]) ∧
  regsSame (Reg.key .MSIX_PBA [k, 0] :: Reg.key .MSIX_PBA [k, 1] :: ks) s t

/-- Does the setup of measurement unit `u` take input `i` (R283)? -/
abbrev measures (u : Fin 16) (i : Nat) (s : State) : Prop :=
  s.act F.TM_MU_CFG_IN_A [u] = i ∨ (s.act F.TM_MU_CFG_IN_B [u] = i ∧ s.act F.TM_MU_CFG_MODE [u] < 2)

/-- The thresholds of a lane are settled at tick `t` (R109). -/
abbrev settled (l : Lane) (t : Nat) : Prop := (l.oldTh.map (fun o => decide (o.at_ + 327680 ≤ t))).getD true = true

/-- A measurement unit with nothing pending and nothing summed (R283, R287). -/
abbrev emptied (m : Meas) : Meas :=
  { m with a := none, b := none, edges := 0, lastA := none, n := 0, sum := 0, tStart := 0, coincident := false, quality := 0, stale := false }

/-- A step that ends in `t` has set a W1C bit in this event cycle (R16). -/
abbrev raised (f : Fld) (ix : List Nat) (t : State) : Prop := bitsOf (t.freshK (f.reg.key ix)).toNat f.lsb f.width = 2 ^ f.width - 1

/-- Frame numbering of both directions starts anew (R420). -/
abbrev framesAnew (x : Stile) : Stile :=
  { x with
    failsH := 0, failsF := 0, rxH := 0, rxF := 0, nakH := false, nakF := false, replayH := none, replayF := none, sentH := [], sentF := []
    txH := 0, txF := 0, waitH := 0, waitF := 0, owedH := 0, owedF := 0, out := State.unsent x ++ x.out }

/-- Nothing keeps a message of a direction from being accepted at once, and nothing sent is unacknowledged (R420, R455). -/
abbrev stileReady (toHost : Bool) (s : State) : Prop :=
  s.stile.sent toHost = [] ∧ s.stile.nak toHost = false ∧ (if toHost then s.stile.replayF = none else s.stile.replayH = none) ∧ s.flt.inj = none

/-- `n` frames of a message that carries `p` have been sent and accepted in one direction; the opposite transmitter has let go of what their header
acknowledges, and is to replay from the frame that it names when the sender asks for it (R418, R420). -/
abbrev framesIn (toHost : Bool) (n : Nat) (p : Packet) (x : Stile) : Stile :=
  if toHost then { x with
    failsH := 0, nakH := false, rxH := (x.rxH + n) % 65536, sentF := [(⟨x.txF, n, p, true⟩ : Sent)], txF := (x.txF + n) % 65536, owedF := x.owedF + n
    sentH := x.sentH.dropWhile (fun e => e.got), replayH := if x.nakF then some x.rxF else none }
  else { x with
    failsF := 0, nakF := false, rxF := (x.rxF + n) % 65536, sentH := [(⟨x.txH, n, p, true⟩ : Sent)], txH := (x.txH + n) % 65536, owedH := x.owedH + n
    sentF := x.sentF.dropWhile (fun e => e.got), replayF := if x.nakH then some x.rxH else none }

/-- The header of a message that its receiver discards (R419, R422). -/
abbrev badHeader (typ bits ndata : Nat) : Header := { initHeader false with typ := typ, reserved := bits, ndata := ndata }

/-- Frames in which `n` bytes go out (R416). -/
abbrev framesOf (n : Nat) : Nat := dataMessages n + dataFrames n

/-- The registers that record the first fault (R455, R456). -/
abbrev firstKeys : List Nat := [Reg.key .FLT_FIRST [], Reg.key .FLT_FIRST_TBC_LO [], Reg.key .FLT_FIRST_TBC_HI []]

/-- A message has come on port `p` in a flit that passes (R435). -/
abbrev heard (p : Fin 4) (n : Net) : Net := { n with ports := n.ports.set p { n.ports[p] with fails := 0 } }

/-- A message has joined the stream of port `p` (R438). -/
abbrev handed (p : Fin 4) (m : NetMsg) (n : Net) : Net := { n with ports := n.ports.set p { n.ports[p] with out := n.ports[p].out ++ [m] } }

/-- A message has joined the streams of some ports. -/
abbrev handedAll (ps : List (Fin 4)) (m : NetMsg) (n : Net) : Net := ps.foldl (fun n (p : Fin 4) => handed p m n) n

/-- A remote access has joined the stream of port `p`, which awaits its answer (R442). -/
abbrev carried (p : Fin 4) (crate dev : Nat) (own : Bool) (m : NetMsg) (n : Net) : Net :=
  { n with ports := n.ports.set p { n.ports[p] with out := n.ports[p].out ++ [m], asks := n.ports[p].asks ++ [⟨crate, dev, own, true⟩] } }

/-- The flits of a port after a training: numbered from 0, and those not acknowledged are sent again (R434–R436). -/
abbrev flitsAnew (x : Port) : Port :=
  { x with
    fails := 0, await := none, rx := 0, naks := none, tx := x.kept.length, replay := if x.kept = [] then none else some 0
    kept := x.kept.zipIdx.map (fun f => { f.1 with seq := f.2 }) }

end Sys2Proof.Machine
end

