-- ==== Sys2Proof/Certificates/Slice0/Obligations.lean ====
section
/-! DEFINITION. The statements about the machine, for the provers. Each says which rules of spec/ it formalises, or that it is the model's own choice. -/

open Sys2Proof Sys2Proof.Machine

/-! ### The step -/

/-- A step on a queue with a command at its front is that command on the machine with the rest of the queue. -/
def Obligations.StepRunsTheFrontCommand : Prop :=
  ∀ (c : Instr) (rest : List Instr) (s : State), step { s with pending := c :: rest } = exec c { s with pending := rest }

/-- With no command waiting a step is one MCLK edge: TBC advances by 1,024 ticks, and between event-clock edges and REFIN edges, with no pulse in hand,
no port up, no commit waiting and no port trims accepted, nothing else changes but the counts of MCLK edges that REFIN, REFOUT and the flit slots take;
without the field side's supplies only what the H-die's registers added joins (the model's choice, log 2). -/
def Obligations.IdleStepIsOneClockEdge : Prop :=
  ∀ s : State, s.pending = [] →
    (s.boot.fieldOn = false → step s = .next s.mergeFresh) ∧
    (s.boot.fieldOn = true → s.get F.TB_STATUS_REF_PRESENT = 1 → s.tb.refPhase + 1 < s.refDivide → s.tb.pulses = [] →
      s.get F.TB_EPOCH_CTRL_SYNCOUT_MODE ≠ 3 → (∀ p : Fin 4, s.portUp p = false ∧ s.calState (32 + p) ≠ 4) → s.commit.pends = [] →
      (s.tb.tbc.toNat + 1024) % 2048 ≠ 0 →
      step s = .next { s with
        tb := { s.tb with
          tbc := s.tb.tbc + 1024, laps := s.tb.laps + (s.tb.tbc.toNat + 1024) / 2 ^ 64, refPhase := s.tb.refPhase + 1,
          refoutPhase := if s.refDivide ≤ s.tb.refoutPhase + 1 then 0 else s.tb.refoutPhase + 1 },
        net := { s.net with flitPhase := (s.net.flitPhase + 25) % 2048 } })

/-! ### The time base -/

/-- How the reference is lost (R55, R56, R61, R63, R64, R67): each command always completes. REF_LOST in LOCKED or RECOVER enters HOLDOVER with the
averaged word, REFIN absent and unqualified, and nothing outside the time base, its events, the worst quality met and the count of the detector changes;
with REFIN absent already it changes nothing. LOCK_TRIP starts the comparison in LOCKED and RECOVER; LOCK_TRIP_COMPARE above 200 ppm in LOCKED loses the
reference, and without a trip changes nothing; RELOCK, whose write crosses the Stile, leaves FAULT for ACQUIRE or NOREF, and in any other state changes
nothing more. -/
def Obligations.TheReferenceIsLost : Prop :=
  (∀ (word : Nat) (s : State), ∃ t, exec (.refLost word) s = .next t ∧
    (s.get F.TB_STATUS_REF_PRESENT ≠ 1 → t = s) ∧
    (s.get F.TB_STATUS_REF_PRESENT = 1 → (s.get F.TB_STATUS_STATE = 2 ∨ s.get F.TB_STATUS_STATE = 4) →
      t.get F.TB_STATUS_STATE = 3 ∧ t.get F.TB_STATUS_REF_PRESENT = 0 ∧ t.get F.TB_STATUS_REF_IN_RANGE = 0 ∧
      t.tb.qualified = false ∧ t.tb.heldWord = word ∧ t.tb.holdStart = some s.now ∧ t.tb.tbc = s.tb.tbc ∧
      t.get F.TB_HOLD_LAST_HOLD = 0 ∧ t.get F.TB_HOLD_HOLD_LIMIT = s.get F.TB_HOLD_HOLD_LIMIT ∧
      t.get F.TB_STATUS_EPOCH_SUSPECT = (if s.get F.TB_HOLD_HOLD_LIMIT = 0 then 1 else s.get F.TB_STATUS_EPOCH_SUSPECT) ∧
      bitOf (t.freshK (Reg.key .TB_EVENTS [])).toNat 0 = true ∧ bitOf (t.freshK (Reg.key .TB_EVENTS [])).toNat 3 = true ∧
      memSame s t ∧ t.slices = s.slices ∧ t.aos = s.aos ∧
      regsSame [Reg.key .TB_STATUS [], Reg.key .TB_HOLD [], Reg.key .TB_EVENTS [], Reg.key .FLT_CNT [13]] s t)) ∧
  (∀ (word : Nat) (s : State), ∃ t, exec (.lockTrip word) s = .next t ∧
    (s.get F.TB_STATUS_STATE = 2 ∨ s.get F.TB_STATUS_STATE = 4 → t = { s with tb := { s.tb with trip := some word } }) ∧
    (s.get F.TB_STATUS_STATE ≠ 2 → s.get F.TB_STATUS_STATE ≠ 4 → t = s)) ∧
  (∀ (ppm : Nat) (s : State), ∃ t, exec (.lockTripCompare ppm) s = .next t ∧
    (s.tb.trip = none → t = s) ∧
    (∀ word : Nat, s.tb.trip = some word → s.get F.TB_STATUS_STATE = 2 → 200 < ppm →
      t.get F.TB_STATUS_STATE = 3 ∧ t.get F.TB_STATUS_REF_IN_RANGE = 0 ∧ t.tb.trip = none ∧ t.tb.heldWord = word ∧
      t.tb.qualified = false ∧ memSame s t ∧
      regsSame [Reg.key .TB_STATUS [], Reg.key .TB_HOLD [], Reg.key .TB_EVENTS [], Reg.key .FLT_CNT [13]] s t)) ∧
  (∀ s : State, crosses s → ∃ t, exec .relock s = .next t ∧ t.tb.qualified = s.tb.qualified ∧ t.stile = framesDown 1 s.stile ∧
    (s.get F.TB_STATUS_STATE ≠ 5 → t = { s with stile := t.stile }) ∧
    (s.get F.TB_STATUS_STATE = 5 → t.get F.TB_STATUS_STATE = (if s.tb.qualified then 1 else 0) ∧ memSame s t ∧ regsSame [Reg.key .TB_STATUS []] s t))

/-- RANGE_WINDOW_END always completes (R54, R56): REFIN is present as counted; with 100 MHz selected it is in range only with every period in tolerance
and 98,000 to 102,000 edges in the window; while REFIN was not in range before nothing else changes but the count kept. -/
def Obligations.AWindowJudgesTheReference : Prop :=
  ∀ (present throughout : Bool) (count word : Nat) (s : State),
    ∃ t, exec (.rangeWindowEnd present throughout count word) s = .next t ∧
      (s.get F.TB_STATUS_REF_IN_RANGE = 0 →
        t.get F.TB_STATUS_REF_PRESENT = present.toNat ∧
        (s.act F.TB_REF_CFG_FREQ = 1 →
          t.get F.TB_STATUS_REF_IN_RANGE = (throughout && decide (98000 ≤ count ∧ count ≤ 102000)).toNat) ∧
        t = { s with regs := t.regs, tb := { s.tb with lastCount := count } } ∧ regsSame [Reg.key .TB_STATUS []] s t)

/-- REF_QUALIFIED in NOREF, PLL_LOCK_DECLARED in ACQUIRE, RECOVER_DONE in RECOVER and HOLD_LIMIT_EXCEEDED in HOLDOVER (R57, R61, R66, R67): the
states that the time base moves to, the phase error that TB_PHASE then shows, and the doubt about the epoch. -/
def Obligations.TheTimeBaseMovesThroughItsStates : Prop :=
  (∀ (phase : Int) (s : State), s.get F.TB_STATUS_REF_PRESENT = 1 → s.get F.TB_STATUS_REF_IN_RANGE = 1 → s.tb.qualified = false →
    s.get F.TB_STATUS_STATE = 0 → ∃ t, exec (.refQualified phase) s = .next t ∧
      t.get F.TB_STATUS_STATE = 1 ∧ t.tb.qualified = true ∧ bitOf (t.freshK (Reg.key .TB_EVENTS [])).toNat 1 = true ∧
      memSame s t ∧ regsSame [Reg.key .TB_STATUS [], Reg.key .TB_EVENTS []] s t) ∧
  (∀ (phase : Int) (s : State), s.get F.TB_STATUS_STATE = 1 → ∃ t, exec (.pllLockDeclared phase) s = .next t ∧
      t.get F.TB_STATUS_STATE = 2 ∧
      signedOf (bitsOf (t.regValue (Reg.key .TB_PHASE [])).toNat F.TB_PHASE_PHASE_ERR.lsb 16) 16 = max (-32767) (min 32767 phase) ∧
      bitOf (t.freshK (Reg.key .TB_EVENTS [])).toNat 2 = true ∧
      memSame s t ∧ regsSame [Reg.key .TB_STATUS [], Reg.key .TB_EVENTS []] s t) ∧
  (∀ s : State, s.get F.TB_STATUS_STATE = 4 → ∃ t, exec .recoverDone s = .next t ∧
      t.get F.TB_STATUS_STATE = 2 ∧ bitsOf (t.regValue (Reg.key .TB_PHASE [])).toNat F.TB_PHASE_PHASE_ERR.lsb 16 = 0 ∧
      bitOf (t.freshK (Reg.key .TB_EVENTS [])).toNat 4 = true ∧
      memSame s t ∧ regsSame [Reg.key .TB_STATUS [], Reg.key .TB_EVENTS []] s t) ∧
  (∀ s : State, s.get F.TB_STATUS_STATE = 3 → ∃ t, exec .holdLimitExceeded s = .next t ∧
      t.get F.TB_STATUS_EPOCH_SUSPECT = 1 ∧ t.get F.TB_STATUS_STATE = 3 ∧ t = { s with regs := t.regs } ∧
      regsSame [Reg.key .TB_STATUS []] s t)

/-- A sync pulse and its epoch (R71–R74): with SRC on SYNCIN, LAG not 0 and ARM in effect, SYNC_PULSE puts one armed pulse in hand, LAG REFIN edges before its E; at the edge E of
such a pulse, the time base LOCKED and the device at rest, TBC takes the epoch value, ARM clears, EPOCH_SEQ counts and the snapshot holds what TBC
would have been. -/
def Obligations.AnArmedEpochLoadsTheCounter : Prop :=
  (∀ s : State, s.get F.TB_EPOCH_CTRL_SRC = 0 → s.get F.TB_EPOCH_CTRL_LAG ≠ 0 → s.get F.TB_EPOCH_CTRL_SYNCOUT_MODE = 0 →
    s.get F.TB_STATUS_STATE = 2 → s.tb.armEff = true → s.tb.pulses = [] → ∃ t, exec .syncPulse s = .next t ∧
      t.tb = { s.tb with pulses := [⟨true, true, false, s.get F.TB_EPOCH_CTRL_LAG⟩] } ∧ bitOf (t.freshK (Reg.key .TB_EVENTS [])).toNat 7 = true ∧
      memSame s t ∧ regsSame [Reg.key .TB_EVENTS []] s t) ∧
  (∀ (rest : List SyncPulse) (s : State), s.tb.pulses = ⟨true, true, false, 0⟩ :: rest → (∀ q ∈ rest, q.behind = false) →
    s.get F.TB_STATUS_STATE = 2 → s.deviceRuns = false → s.now % 2048 = 0 →
    ∃ t, exec .epochInstant s = .next t ∧
      t.tb.tbc.toNat = (2 ^ 11 * s.get F.TB_EPOCH_LO_VALUE + 2 ^ 32 * s.get F.TB_EPOCH_HI_VALUE) ∧ t.tb.pulses = rest ∧
      t.get F.TB_EPOCH_CTRL_ARM = 0 ∧ t.get F.TB_STATUS_EPOCH_SEQ = (s.get F.TB_STATUS_EPOCH_SEQ + 1) % 256 ∧
      t.get F.TB_STATUS_EPOCH_SUSPECT = 0 ∧
      t.get F.TB_SYNC_SNAP_LO_SNAP = s.tb.tbc.toNat % 2 ^ 32 ∧ t.get F.TB_SYNC_SNAP_HI_SNAP = s.tb.tbc.toNat / 2 ^ 32 ∧
      bitOf (t.freshK (Reg.key .TB_EVENTS [])).toNat 6 = true ∧ memSame s t ∧
      regsSame [Reg.key .TB_STATUS [], Reg.key .TB_EPOCH_CTRL [], Reg.key .TB_SYNC_SNAP_LO [], Reg.key .TB_SYNC_SNAP_HI [],
        Reg.key .TB_EVENTS []] s t)

/-- EMIT in mode 2, SYNCOUT_PERIODIC on a device with an upstream as its period has run out, and TBC_WRAP (R69, R75): a pulse waits for the next REFIN
edge, a periodic pulse starts two REFIN periods wide with its next period counted anew, a period that has not run out changes nothing, and the wrap is
reported. -/
def Obligations.SyncoutPulsesAndTheWrap : Prop :=
  (∀ s : State, s.get F.TB_EPOCH_CTRL_SYNCOUT_MODE = 2 → crosses s →
    exec .emit s = .next { s with tb := { s.tb with emitWait := true }, stile := framesDown 1 s.stile }) ∧
  (∀ s : State, s.get F.TB_EPOCH_CTRL_SYNCOUT_MODE = 3 → s.get F.TB_SYNC_PERIOD_PERIOD ≠ 0 → s.get F.TL_ROLE_ROLE = 0 →
    (s.tb.periodLeft = some 0 → exec .syncoutPeriodic s =
      .next { s with tb := { s.tb with syncoutLeft := 2, periodLeft := some (max 3 (s.get F.TB_SYNC_PERIOD_PERIOD)) } }) ∧
    (s.tb.periodLeft ≠ some 0 → exec .syncoutPeriodic s = .next s)) ∧
  (∀ s : State, ∃ t, exec .tbcWrap s = .next t ∧ t = { s with regs := t.regs, due := s.due ++ [⟨1, .tbPulse 9⟩] } ∧
      bitOf (t.freshK (Reg.key .TB_EVENTS [])).toNat 9 = true ∧ regsSame [Reg.key .TB_EVENTS []] s t)

/-! ### The registers -/

/-- BAR0_WRITE of a register that carries no strobe and is no half of a pair (R12–R16, R37): RW fields take the value, W1C fields clear where it is 1,
RWS fields take it in their shadow copies alone (FW_INIT as many bits as its runtime register has, R212), every other field stays; no other register and
nothing else changes. -/
def Obligations.AWriteFollowsTheAccessCodes : Prop :=
  ∀ (off : Fin 1048576) (v : Word) (r : Reg) (ix : List Nat) (s : State), off.val % 4 = 0 →
    (keyOnHost off = true ∨ crosses s) → regAt (s.regKey off) = some (r, ix) → r.row.pair = .no → r.acts = false →
    ∃ t, exec (.bar0Write none off v) s = .next t ∧
      t = { s with regs := t.regs, stile := if keyOnHost off then s.stile else framesDown 1 s.stile } ∧ regsSame [s.regKey off] s t ∧
      t.activeK (s.regKey off) = s.activeK (s.regKey off) ∧ t.freshK (s.regKey off) = s.freshK (s.regKey off) ∧
      (r = .FW_INIT → bitsOf (t.shadowK (s.regKey off)).toNat 0 (fwWidth (ix.getD 1 0)) = bitsOf v.toNat 0 (fwWidth (ix.getD 1 0))) ∧
      ∀ f ∈ r.row.fields,
        (f.acc = .rw → fieldSame f (t.getK (s.regKey off)) v) ∧
        (f.acc = .w1c → fieldSame f (t.getK (s.regKey off)) (s.getK (s.regKey off) &&& ~~~v)) ∧
        (f.acc = .rws → r ≠ .FW_INIT → fieldSame f (t.shadowK (s.regKey off)) v) ∧
        (f.acc = .ro ∨ f.acc = .rc ∨ f.acc = .wo → fieldSame f (t.getK (s.regKey off)) (s.getK (s.regKey off)))

/-- RC_FIELD_READ (R16): the read answers the register's value, leaves its RC fields at their reset values and every other field as it was; what this
event cycle added to it stays for the next read. -/
def Obligations.AReadClearsTheRcFields : Prop :=
  ∀ (off : Fin 1048576) (r : Reg) (ix : List Nat) (s : State), off.val % 4 = 0 →
    (keyOnHost off = true ∨ crosses s) → regAt (s.regKey off) = some (r, ix) → r.row.pair = .no → r.readActs = false →
    s.regKey off ≠ 0x4C → (∀ p ∈ s.regs.pairLatch, p.1 ≠ s.regKey off) →
    ∃ t, exec (.rcFieldRead none off) s = .next t ∧ t.lastRead = (linkSeen s).regValue (s.regKey off) ∧
      t = { linkSeen s with
        regs := t.regs, lastRead := t.lastRead, stile := if keyOnHost off then s.stile else framesUp 1 (framesDown 1 s.stile) } ∧
      regsSame [s.regKey off] s t ∧
      t.freshK (s.regKey off) = s.freshK (s.regKey off) ∧ t.shadowK (s.regKey off) = s.shadowK (s.regKey off) ∧
      t.activeK (s.regKey off) = s.activeK (s.regKey off) ∧
      ∀ f ∈ r.row.fields,
        (f.acc = .rc → bitsOf (t.getK (s.regKey off)).toNat f.lsb f.width = f.reset) ∧
        (f.acc ≠ .rc → fieldSame f (t.getK (s.regKey off)) (s.getK (s.regKey off)))

/-- A read of a field with access code RWS, by RC_FIELD_READ, which acts on any register (R37): it answers the shadow copy when SYS_COMMIT_INFO.VIEW is 0
and the active copy when it is 1, in every register of the map; no latch of R13 stands in for the register. -/
def Obligations.AReadShowsTheViewedCopy : Prop :=
  ∀ (off : Fin 1048576) (r : Reg) (ix : List Nat) (f : FieldRow) (s : State), off.val % 4 = 0 →
    (keyOnHost off = true ∨ crosses s) → regAt (s.regKey off) = some (r, ix) → f ∈ r.row.fields → f.acc = .rws →
    (∀ p ∈ s.regs.pairLatch, p.1 ≠ s.regKey off) →
    ∃ t, exec (.rcFieldRead none off) s = .next t ∧
      (s.get F.SYS_COMMIT_INFO_VIEW = 0 → fieldSame f t.lastRead (s.shadowK (s.regKey off))) ∧
      (s.get F.SYS_COMMIT_INFO_VIEW = 1 → fieldSame f t.lastRead (s.activeK (s.regKey off)))

/-- PAIR_LO_READ and PAIR_HI_READ of TBC (R13): the low half answers TBC's low word and latches the high word of the same instant, which the next read
of the high half answers, whatever TBC is by then; neither changes anything else. -/
def Obligations.ACounterIsReadWhole : Prop :=
  (∀ s : State, crosses s → ∃ t, exec (.pairLoRead none 0x4018) s = .next t ∧
      t.lastRead.toNat = s.tb.tbc.toNat % 2 ^ 32 ∧ t.regs.pairLatch.find? (fun p => p.1 == 0x401C) = some (0x401C, BitVec.ofNat 32 (s.tb.tbc.toNat / 2 ^ 32)) ∧
      t = { linkSeen s with
        regs := { s.regs with pairLatch := t.regs.pairLatch, main := t.regs.main }, lastRead := t.lastRead, stile := framesUp 1 (framesDown 1 s.stile) } ∧
      regsSame [] s t) ∧
  (∀ (hi : Word) (s : State), crosses s → s.regs.pairLatch.find? (fun p => p.1 == 0x401C) = some (0x401C, hi) →
    ∃ t, exec (.pairHiRead none 0x401C) s = .next t ∧ t.lastRead = hi ∧ t.regs.pairLatch = s.regs.pairLatch.filter (fun p => p.1 != 0x401C) ∧
      t = { linkSeen s with
        regs := { s.regs with pairLatch := t.regs.pairLatch, main := t.regs.main }, lastRead := t.lastRead, stile := framesUp 1 (framesDown 1 s.stile) } ∧
      regsSame [] s t)

/-- PAIR_LO_WRITE and PAIR_HI_WRITE of the epoch value (R13): the low half is held and changes no register; the high half then makes both take effect
together. -/
def Obligations.APairIsWrittenTogether : Prop :=
  (∀ (v : Word) (s : State), crosses s → ∃ t, exec (.pairLoWrite none 0x4020 v) s = .next t ∧
      t.regs.pairHeld.find? (fun p => p.1 == 0x4020) = some (0x4020, v) ∧
      t = { s with regs := { s.regs with pairHeld := t.regs.pairHeld }, stile := framesDown 1 s.stile }) ∧
  (∀ (lo hi : Word) (s : State), crosses s → s.regs.pairHeld.find? (fun p => p.1 == 0x4020) = some (0x4020, lo) →
    ∃ t, exec (.pairHiWrite none 0x4024 hi) s = .next t ∧
      t.get F.TB_EPOCH_LO_VALUE = lo.toNat / 2 ^ 11 ∧ t.get F.TB_EPOCH_HI_VALUE = hi.toNat ∧
      t.regs.pairHeld = s.regs.pairHeld.filter (fun p => p.1 != 0x4020) ∧
      t = { s with regs := t.regs, stile := framesDown 1 s.stile } ∧ regsSame [0x4020, 0x4024] s t)

/-- BAR0_BAD_SIZE_ACCESS (R12, R387, R388): in BAR0 it reaches no register; it counts in HI_ACC_CNT; while VALID is 0 its offset, direction and byte
enables are logged and VALID sets, and else the log stays; a read answers all ones. In a doorbell page a write changes nothing, and a read answers all
ones. -/
def Obligations.ABadSizeAccessIsLogged : Prop :=
  (∀ (off : Fin 1048576) (write : Bool) (be : Fin 16) (s : State), s.tot F.HI_ACC_LOG_VALID = 0 →
    ∃ t, exec (.bar0BadSizeAccess ⟨none, off⟩ write be) s = .next t ∧ counted F.HI_ACC_CNT_COUNT [] 1 s t ∧
      t.get F.HI_ACC_LOG_OFFSET = off.val ∧ t.get F.HI_ACC_LOG_WRITE = write.toNat ∧ t.get F.HI_ACC_LOG_BE = be.val ∧
      bitsOf (t.freshK (Reg.key .HI_ACC_LOG [])).toNat F.HI_ACC_LOG_VALID.lsb 1 = 1 ∧
      t.lastRead = (if write then s.lastRead else 0xFFFFFFFF) ∧
      t = { s with regs := t.regs, lastRead := t.lastRead } ∧ regsSame [Reg.key .HI_ACC_LOG [], Reg.key .HI_ACC_CNT []] s t) ∧
  (∀ (off : Fin 1048576) (write : Bool) (be : Fin 16) (s : State), s.tot F.HI_ACC_LOG_VALID ≠ 0 →
    ∃ t, exec (.bar0BadSizeAccess ⟨none, off⟩ write be) s = .next t ∧ counted F.HI_ACC_CNT_COUNT [] 1 s t ∧
      t.lastRead = (if write then s.lastRead else 0xFFFFFFFF) ∧
      t = { s with regs := t.regs, lastRead := t.lastRead } ∧ regsSame [Reg.key .HI_ACC_CNT []] s t) ∧
  (∀ (k : Fin 16) (off : Fin 1048576) (write : Bool) (be : Fin 16) (s : State),
    exec (.bar0BadSizeAccess ⟨some k, off⟩ write be) s = .next { s with lastRead := if write then s.lastRead else 0xFFFFFFFF })

/-! ### Doorbells and rings -/

/-- DB_GO (R405, R419): the go word of the held head command releases it and leaves the rest of its queue, crossing the Stile as GO while FIELD is UP;
with nothing held it is latched. -/
def Obligations.AGoReleasesTheHeldCommand : Prop :=
  (∀ (k : Fin 16) (c : Cmd) (rest : List Cmd) (s : State), s.host[k].held = true → s.host[k].queue = c :: rest → c.tag < 65536 →
    (s.linked = false ∨ crosses s) →
    ∃ t, exec (.dbGo k (Fin.ofNat 65536 c.tag)) s = .next t ∧
      t = { s with host := t.host, stile := if s.linked then framesDown 1 s.stile else s.stile } ∧ (∀ j : Fin 16, j ≠ k → t.host[j] = s.host[j]) ∧
      t.host[k].held = false ∧ t.host[k].goLatch = s.host[k].goLatch ∧
      t.host[k].queue.tail = rest ∧
      t.host[k].queue.head?.map (fun c' => (c'.tag, c'.epoch, bitOf (fieldAt c'.bytes 1 1) 2)) = some (c.tag, c.epoch, false)) ∧
  (∀ (k : Fin 16) (tag : Fin 65536) (s : State), s.host[k].held = false → s.host[k].goLatch = none →
    exec (.dbGo k tag) s = .next (s.modHost k (fun h => { h with goLatch := some tag.val })))

/-- DB_CMD_TAIL, DB_HEAD of the event ring without REARM, and DB_DATA_HEAD of a session that forwards nothing (R390, R408): an index inside the
command ring is its new write index; a head returns the entries or units that software has consumed; an index outside its ring, or one that returns more
entries than are out, counts as a bad doorbell and changes nothing else. -/
def Obligations.TheDoorbellsMoveTheIndices : Prop :=
  (∀ (k : Fin 16) (idx : Fin 65536) (s : State),
    (idx.val < s.ringEntries k 0 → exec (.dbCmdTail k idx) s = .next (s.modHost k (fun h => { h with tail := idx }))) ∧
    (s.ringEntries k 0 ≤ idx.val → exec (.dbCmdTail k idx) s = .next (s.count F.DB_CNT0_DB_BAD [k]))) ∧
  (∀ (k : Fin 16) (idx : Fin 65536) (s : State), s.ringEntries k 3 ≤ idx.val →
    exec (.dbHead k 2 idx false) s = .next (s.count F.DB_CNT0_DB_BAD [k])) ∧
  (∀ (k : Fin 16) (idx : Fin 65536) (s : State), idx.val < s.ringEntries k 3 →
    ((idx + s.ringEntries k 3 - s.host[k].rings[3].rd) % s.ringEntries k 3 ≤ s.host[k].rings[3].used →
      exec (.dbHead k 2 idx false) s = .next (s.modRing k 3 (fun g => { g with
        rd := idx, used := g.used - (idx + s.ringEntries k 3 - g.rd) % s.ringEntries k 3 }))) ∧
    (s.host[k].rings[3].used < (idx + s.ringEntries k 3 - s.host[k].rings[3].rd) % s.ringEntries k 3 →
      exec (.dbHead k 2 idx false) s = .next (s.count F.DB_CNT0_DB_BAD [k]))) ∧
  (∀ (k : Fin 16) (head : Fin 1073741824) (lap : Bool) (s : State), s.anyFwd k = false →
    exec (.dbDataHead k head lap) s = .next (s.modHost k (fun h => { h with dataRd := head, dataRdLap := lap })))

/-- RING_ENABLE of a producer ring other than completion and capture, and RING_DISABLE (R389, R412): a ring of good size on a 4 KB boundary is enabled
and empty, and RING_ERR shows OK; a ring of a bad size stays disabled with COMMIT_RANGE; the completion ring does not stop under an enabled command ring. -/
def Obligations.RingsAreEnabledAndDisabled : Prop :=
  (∀ (k : Fin 16) (v : Word) (s : State), s.ringOn k 3 = false → goodRingSize (s.ringEntries k 3) → s.ringBase k 3 % 4096 = 0 →
    ∃ t, exec (.ringEnable k 3 v) s = .next t ∧ t.get F.RING_CTL_ENABLE [k, 3] = 1 ∧ t.get F.RING_CTL_VEC [k, 3] = bitsOf v.toNat 8 6 ∧
      t.get F.RING_ERR_STATUS [k] = 0 ∧ t.get F.RING_ERR_RING [k] = 3 ∧
      t.host[k].rings[3].wr = 0 ∧ t.host[k].rings[3].rd = 0 ∧ t.host[k].rings[3].used = 0 ∧ t.host[k].rings[3].phase = true ∧
      (∀ j : Fin 16, j ≠ k → t.host[j] = s.host[j]) ∧ t = { s with regs := t.regs, host := t.host } ∧
      regsSame [Reg.key .RING_CTL [k, 3], Reg.key .RING_ERR [k]] s t) ∧
  (∀ (k : Fin 16) (v : Word) (s : State), s.ringOn k 3 = false → ¬ goodRingSize (s.ringEntries k 3) →
    ∃ t, exec (.ringEnable k 3 v) s = .next t ∧ t.get F.RING_CTL_ENABLE [k, 3] = 0 ∧ t.get F.RING_ERR_STATUS [k] = Status.commitRange.code ∧
      t.get F.RING_ERR_RING [k] = 3 ∧ t.get F.RING_ERR_FIELD [k] = 1 ∧ t = { s with regs := t.regs }) ∧
  (∀ (k : Fin 16) (v : Word) (s : State), s.ringOn k 3 = true →
    ∃ t, exec (.ringDisable k 3 v) s = .next t ∧ t.get F.RING_CTL_ENABLE [k, 3] = 0 ∧ t = { s with regs := t.regs } ∧
      regsSame [Reg.key .RING_CTL [k, 3]] s t) ∧
  (∀ (k : Fin 16) (v : Word) (s : State), s.ringOn k 1 = true → s.ringOn k 0 = true →
    ∃ t, exec (.ringDisable k 1 v) s = .next t ∧ t.get F.RING_CTL_ENABLE [k, 1] = 1 ∧ t.get F.RING_ERR_STATUS [k] = Status.commitConflict.code ∧
      t.get F.RING_ERR_RING [k] = 1 ∧ t = { s with regs := t.regs })

/-- DATA_AREA_ENABLE of a session without regions (R412): the area is committed, empty, and RING_ERR shows ring 4 with OK. -/
def Obligations.TheDataAreaIsEnabled : Prop :=
  ∀ (k : Fin 16) (v : Word) (s : State), s.anyFwd k = false → v.toNat % 8 ≠ 0 → bitsOf v.toNat 8 8 ≠ 0 → s.ringOn k 2 = true →
    s.get F.DATA_SIZE_SIZE [k] ≠ 0 → s.pair F.DATA_BASE_LO_BASE F.DATA_BASE_HI_BASE [k] % 4096 = 0 →
    s.rgnSize k 0 = 0 → s.rgnSize k 1 = 0 → s.rgnSize k 2 = 0 →
    ∃ t, exec (.dataAreaEnable k v) s = .next t ∧ t.getK (Reg.key .DATA_CFG [k]) = v &&& 0xFF07 ∧
      t.get F.RING_ERR_STATUS [k] = 0 ∧ t.get F.RING_ERR_RING [k] = 4 ∧
      t.host[k].dataWr = 0 ∧ t.host[k].dataRd = 0 ∧ t.host[k].dataLap = t.host[k].dataRdLap ∧
      t = { s with regs := t.regs, host := t.host, freeCtr := s.freeCtr + 1 } ∧ (∀ j : Fin 16, j ≠ k → t.host[j] = s.host[j]) ∧
      regsSame [Reg.key .DATA_CFG [k], Reg.key .RING_ERR [k]] s t

/-- INTERRUPT_MOD_TIME of a ring that holds unsignalled entries (R386, R410): its vector's message, with the address and the data of its table entry, is
sent, and the ring disarms; a masked vector, or one of a masked function, is held pending in the PBA instead; without MSI-X Enable nothing is sent. -/
def Obligations.ModerationRaisesTheVector : Prop :=
  ∀ (k : Fin 16) (s : State), s.get F.RING_CTL_MOD_TIME [k, 1] ≠ 0 → s.host[k].rings[1].armed = true → s.host[k].rings[1].since ≠ 0 →
    ∃ t, exec (.interruptModTime k 0) s = .next t ∧ t.host[k].rings[1].armed = false ∧ t.host[k].rings[1].since = 0 ∧
      (s.host[k].msixOn = false → t = { s with host := t.host }) ∧
      (s.host[k].msixOn = true → s.host[k].msixMask = false → s.getK (Reg.key .MSIX_TABLE [k, 4 * s.get F.RING_CTL_VEC [k, 1] + 3]) = 0 →
        t = { s with host := t.host, irqs := ⟨k, s.get F.RING_CTL_VEC [k, 1],
          (s.getK (Reg.key .MSIX_TABLE [k, 4 * s.get F.RING_CTL_VEC [k, 1]])).toNat +
            2 ^ 32 * (s.getK (Reg.key .MSIX_TABLE [k, 4 * s.get F.RING_CTL_VEC [k, 1] + 1])).toNat,
          (s.getK (Reg.key .MSIX_TABLE [k, 4 * s.get F.RING_CTL_VEC [k, 1] + 2])).toNat⟩ :: s.irqs }) ∧
      (s.host[k].msixOn = true → (s.host[k].msixMask = true ∨ s.getK (Reg.key .MSIX_TABLE [k, 4 * s.get F.RING_CTL_VEC [k, 1] + 3]) = 1) →
        t.irqs = s.irqs ∧ t = { s with host := t.host, regs := t.regs } ∧
        bitOf (t.getK (Reg.key .MSIX_PBA [k, s.get F.RING_CTL_VEC [k, 1] / 32])).toNat (s.get F.RING_CTL_VEC [k, 1] % 32) = true)

/-- FUNCTION_LEVEL_RESET, D3HOT_ENTRY and VF_ENABLE_CLEAR (R360, R385): the doorbell page and rings of the function, or of sessions 1 to 15, are as after
reset, and no other page changes; while the field side runs, the session is torn down, at once where no span defers it (R151); while it does not run, no
session is. -/
def Obligations.AFunctionResetClearsItsPage : Prop :=
  (∀ (k : Fin 16) (s : State), ∃ t, exec (.functionLevelReset k) s = .next t ∧ exec (.d3hotEntry k) s = .next t ∧ t.host[k] = resetHost ∧
    (∀ off, off < 4096 → t.getK (2 ^ 28 + k * 4096 + off) = resetVal (2 ^ 28 + k * 4096 + off)) ∧
    (s.stile.fieldRuns = false → (∀ j : Fin 16, j ≠ k → t.host[j] = s.host[j]) ∧ t = { s with regs := t.regs, host := t.host } ∧
      (∀ key, (key < 2 ^ 28 + k * 4096 ∨ 2 ^ 28 + k * 4096 + 4096 ≤ key) → t.getK key = s.getK key)) ∧
    (s.stile.fieldRuns = true → t.sess[k].tearing = true) ∧
    (s.stile.fieldRuns = true → s.inSpan k = true → t.sess[k].tearWait = true ∧ t.sess[k].seq = s.sess[k].seq) ∧
    (s.stile.fieldRuns = true → s.inSpan k = false → t.sess[k].tearWait = false ∧ t.sess[k].seq = none ∧ t.sess[k].burst = none ∧
      t.sess[k].entries = [] ∧ t.sess[k].pages = [] ∧
      ∀ r ∈ State.ownRegs, t.activeK (Reg.key r [k]) = resetVal (Reg.key r [k]) ∧ t.shadowK (Reg.key r [k]) = resetVal (Reg.key r [k]))) ∧
  (∀ s : State, s.stile.fieldRuns = false ∨ s.commit = ⟨none, [], []⟩ → ∃ t, exec .vfEnableClear s = .next t ∧
    (∀ k : Fin 16, k ≠ 0 → t.host[k] = resetHost ∧
      ∀ off, off < 4096 → t.getK (2 ^ 28 + k * 4096 + off) = resetVal (2 ^ 28 + k * 4096 + off)) ∧
    (s.stile.fieldRuns = false → t.host[(0 : Fin 16)] = s.host[(0 : Fin 16)] ∧ t = { s with regs := t.regs, host := t.host } ∧
      ∀ key, key < 2 ^ 28 + 4096 → t.getK key = s.getK key) ∧
    (s.stile.fieldRuns = true → ∀ k : Fin 16, k ≠ 0 → t.sess[k].tearing = true ∧ (s.inSpan k = false → t.sess[k].seq = none ∧ t.sess[k].burst = none ∧
      ∀ r ∈ State.ownRegs, t.activeK (Reg.key r [k]) = resetVal (Reg.key r [k]) ∧ t.shadowK (Reg.key r [k]) = resetVal (Reg.key r [k]))))

/-! ### Commands of a session's ring -/

/-- NOP, INVALIDATE, VS_INV_TLB and VS_INV_PAGES (R221, R394, R397): the head command completes OK; an invalidation drops the session's translations,
and marks its cached host pages as not arrived; nothing else changes but the frames that the Stile has numbered. -/
def Obligations.NopAndInvalidations : Prop :=
  (∀ (k : Fin 16) (c : Cmd) (rest : List Cmd) (s : State), headReady k c rest s → cmdOp c.bytes = 0 →
    ∃ t, exec (.nop k) s = .next t ∧ completed k c .ok 0 0 0 s t ∧ ringFrame k rest [] s t ∧
      bytesKept s.hostMem t.hostMem (entryAt k s) 32 ∧
      t = { s with regs := t.regs, host := t.host, hostMem := t.hostMem, irqs := t.irqs, stile := framesUp 3 s.stile }) ∧
  (∀ (k : Fin 16) (c : Cmd) (rest : List Cmd) (s : State), headReady k c rest s → cmdOp c.bytes = 9 →
    ∃ t, exec (.invalidate k) s = .next t ∧ completed k c .ok 0 0 0 s t ∧ ringFrame k rest [Reg.key .VS_PC_CNT [k]] s t ∧
      bytesKept s.hostMem t.hostMem (entryAt k s) 32 ∧
      t.sess[k].xlates = (if bitOf (cmdParam c.bytes) 0 then [] else s.sess[k].xlates) ∧
      (bitOf (cmdParam c.bytes) 1 = true → t.sess[k].pages.all (fun (p : CachePage) => !p.full) = true) ∧
      (bitOf (cmdParam c.bytes) 1 = false → t.sess[k].pages = s.sess[k].pages) ∧ (∀ j : Fin 16, j ≠ k → t.sess[j] = s.sess[j]) ∧
      t.sess[k] = { s.sess[k] with xlates := t.sess[k].xlates, pages := t.sess[k].pages, held := t.sess[k].held } ∧
      t = { s with regs := t.regs, host := t.host, hostMem := t.hostMem, irqs := t.irqs, stile := framesUp 3 s.stile, sess := t.sess }) ∧
  (∀ (k : Fin 16) (s : State), crosses s → ∃ t, exec (.vsInvTlb k) s = .next t ∧ t.sess[k].xlates = [] ∧ t.sess[k].held.all (fun (h : Nat × Nat) => decide (3 < h.2)) = true ∧
    t.sess[k].pages = s.sess[k].pages ∧ (∀ j : Fin 16, j ≠ k → t.sess[j] = s.sess[j]) ∧
      t.sess[k] = { s.sess[k] with xlates := t.sess[k].xlates, pages := t.sess[k].pages, held := t.sess[k].held } ∧
      t = { s with sess := t.sess, stile := framesDown 1 s.stile }) ∧
  (∀ (k : Fin 16) (s : State), crosses s → ∃ t, exec (.vsInvPages k) s = .next t ∧ t.sess[k].pages.all (fun (p : CachePage) => !p.full) = true ∧
    t.sess[k].pages.map (fun (p : CachePage) => p.page) =
      (s.sess[k].pages.map (fun (p : CachePage) => p.page)).filter (fun p => s.inWindow k p) ∧
    t.sess[k].xlates = s.sess[k].xlates ∧ (∀ j : Fin 16, j ≠ k → t.sess[j] = s.sess[j]) ∧
      t.sess[k] = { s.sess[k] with xlates := t.sess[k].xlates, pages := t.sess[k].pages, held := t.sess[k].held } ∧
      t = { s with sess := t.sess, regs := t.regs, stile := framesDown 1 s.stile } ∧ regsSame [Reg.key .VS_PC_CNT [k]] s t)

/-- DMA_WRITE and DMA_READ of whole 64-byte units inside the session's view (R394, R395, R397): the bytes go to field memory, or come from it to host
memory, DETAIL0 is their number, and no other byte changes but those of the completion entry. -/
def Obligations.DmaMovesBytes : Prop :=
  (∀ (k : Fin 16) (c : Cmd) (rest : List Cmd) (data : List Byte) (s : State), headReady k c rest s → cmdOp c.bytes = 7 → cmdParam c.bytes ≠ 0 →
    cmdParam c.bytes % 64 = 0 → fieldAt c.bytes 0x10 8 % 64 = 0 → s.inView k (fieldAt c.bytes 0x10 8) (cmdParam c.bytes) = true →
    ∃ t, exec (.dmaWrite k data) s = .next t ∧ completed k c .ok 0 (cmdParam c.bytes) 0 s t ∧ ringFrame k rest [] s t ∧
      memBytes t.ddr (s.viewPhys k (fieldAt c.bytes 0x10 8)) (cmdParam c.bytes) = padTo (cmdParam c.bytes) data ∧
      bytesKept s.ddr t.ddr (s.viewPhys k (fieldAt c.bytes 0x10 8)) (cmdParam c.bytes) ∧
      bytesKept s.hostMem t.hostMem (entryAt k s) 32 ∧
      t = { s with regs := t.regs, host := t.host, hostMem := t.hostMem, irqs := t.irqs, stile := framesUp 3 s.stile, ddr := t.ddr }) ∧
  (∀ (k : Fin 16) (c : Cmd) (rest : List Cmd) (s : State), headReady k c rest s → cmdOp c.bytes = 8 → cmdParam c.bytes ≠ 0 →
    cmdParam c.bytes % 64 = 0 → fieldAt c.bytes 0x10 8 % 64 = 0 → s.inView k (fieldAt c.bytes 0x10 8) (cmdParam c.bytes) = true →
    s.injOn 1 0 = false → s.injOn 1 1 = false → s.injOn 2 0 = false → s.injOn 2 1 = false → cmdAddr c.bytes + cmdParam c.bytes ≤ entryAt k s ∨ entryAt k s + 32 ≤ cmdAddr c.bytes →
    ∃ t, exec (.dmaRead k 0) s = .next t ∧ completed k c .ok 0 (cmdParam c.bytes) 0 s t ∧ ringFrame k rest [] s t ∧
      memBytes t.hostMem (cmdAddr c.bytes) (cmdParam c.bytes) =
        memBytes s.ddr (s.viewPhys k (fieldAt c.bytes 0x10 8)) (cmdParam c.bytes) ∧
      (∀ a, (a < cmdAddr c.bytes ∨ cmdAddr c.bytes + cmdParam c.bytes ≤ a) → (a < entryAt k s ∨ entryAt k s + 32 ≤ a) →
        memByte t.hostMem a = memByte s.hostMem a) ∧
      t = { s with
        regs := t.regs, host := t.host, hostMem := t.hostMem, irqs := t.irqs,
        stile := framesUp 3 (framesUp (dataMessages (cmdParam c.bytes) + dataFrames (cmdParam c.bytes)) s.stile) })

/-- WRITE_SEGMENTS and a TABLE_LOAD to a scramble table (R165, R167, R205, R394, R395): every entry of the list takes its place in the session's shadow
segment table, or in the generator's table, and no other entry of it changes; a table whose generator is staged or runs takes none, and every
entry is counted as rejected. -/
def Obligations.TablesAreLoaded : Prop :=
  (∀ (k : Fin 16) (c : Cmd) (rest : List Cmd) (data : List Byte) (s : State), headReady k c rest s → cmdOp c.bytes = 5 →
    bitsOf (cmdParam c.bytes) 0 12 + bitsOf (cmdParam c.bytes) 16 13 ≤ 4096 → data.length = 32 * bitsOf (cmdParam c.bytes) 16 13 →
    (∀ i, i < bitsOf (cmdParam c.bytes) 16 13 → State.segReserved ((data.drop (32 * i)).take 32) = false) →
    ∃ t, exec (.writeSegments k data) s = .next t ∧ completed k c .ok 0 0 0 s t ∧ ringFrame k rest [] s t ∧
      bytesKept s.hostMem t.hostMem (entryAt k s) 32 ∧
      (∀ i, i < bitsOf (cmdParam c.bytes) 16 13 →
        smGet 0 t.sess[k].segShadow (bitsOf (cmdParam c.bytes) 0 12 + i) = leVal ((data.drop (32 * i)).take 32)) ∧
      (∀ i, i < bitsOf (cmdParam c.bytes) 0 12 ∨ bitsOf (cmdParam c.bytes) 0 12 + bitsOf (cmdParam c.bytes) 16 13 ≤ i →
        smGet 0 t.sess[k].segShadow i = smGet 0 s.sess[k].segShadow i) ∧
      t.sess[k] = { s.sess[k] with segShadow := t.sess[k].segShadow } ∧ (∀ j : Fin 16, j ≠ k → t.sess[j] = s.sess[j]) ∧
      t = { s with regs := t.regs, host := t.host, hostMem := t.hostMem, irqs := t.irqs, stile := framesUp 3 s.stile, sess := t.sess }) ∧
  (∀ (k : Fin 16) (c : Cmd) (rest : List Cmd) (data : List Byte) (g : Fin 4) (s : State), headReady k c rest s → cmdOp c.bytes = 6 →
    bitOf (cmdParam c.bytes) 24 = false → bitsOf (cmdParam c.bytes) 16 4 = g.val → s.ownsFw k g = true → s.fwState g ≤ 1 →
    data.length = 4 * fieldAt c.bytes 0x10 4 → cmdParam c.bytes % 65536 + fieldAt c.bytes 0x10 4 ≤ 65536 →
    ∃ t, exec (.tableLoad k data) s = .next t ∧ completed k c .ok 0 (fieldAt c.bytes 0x10 4) 0 s t ∧ ringFrame k rest [] s t ∧
      bytesKept s.hostMem t.hostMem (entryAt k s) 32 ∧
      (∀ d i, i < fieldAt c.bytes 0x10 4 →
        smGet d t.fws[g].table (cmdParam c.bytes % 65536 + i) = fieldAt data (4 * i) 4 % 65536) ∧
      (∀ d i, i < cmdParam c.bytes % 65536 ∨ cmdParam c.bytes % 65536 + fieldAt c.bytes 0x10 4 ≤ i →
        smGet d t.fws[g].table i = smGet d s.fws[g].table i) ∧
      t.fws[g] = { s.fws[g] with table := t.fws[g].table } ∧ (∀ j : Fin 4, j ≠ g → t.fws[j] = s.fws[j]) ∧
      t = { s with regs := t.regs, host := t.host, hostMem := t.hostMem, irqs := t.irqs, stile := framesUp 3 s.stile, fws := t.fws }) ∧
  (∀ (k : Fin 16) (c : Cmd) (rest : List Cmd) (data : List Byte) (g : Fin 4) (s : State), headReady k c rest s → cmdOp c.bytes = 6 →
    bitOf (cmdParam c.bytes) 24 = false → bitsOf (cmdParam c.bytes) 16 4 = g.val → s.ownsFw k g = true → 1 < s.fwState g →
    fieldAt c.bytes 0x10 4 ≠ 0 → cmdParam c.bytes % 65536 + fieldAt c.bytes 0x10 4 ≤ 65536 →
    ∃ t, exec (.tableLoad k data) s = .next t ∧
      completed k c .ok (2 ^ Cond.partial_) (2 ^ 32 * fieldAt c.bytes 0x10 4) 0 s t ∧ t.fws = s.fws ∧
      ringFrame k rest [Reg.key .FW_CNT [g]] s t ∧
      t = { s with regs := t.regs, host := t.host, hostMem := t.hostMem, irqs := t.irqs, stile := framesUp 3 s.stile })

/-- REG_WRITE and REG_READ of one register that the session owns and that carries no strobe and is no half of a pair (R14, R15, R37, R394, R395): the
write follows the access codes, and the value read goes to the second word of its pair. -/
def Obligations.ASessionReachesItsRegisters : Prop :=
  (∀ (k : Fin 16) (c : Cmd) (rest : List Cmd) (data : List Byte) (r : Reg) (ix : List Nat) (s : State), headReady k c rest s →
    cmdOp c.bytes = 1 → cmdParam c.bytes = 1 → fieldAt data 0 4 % 4 = 0 → fieldAt data 0 4 < 2 ^ 20 →
    regAt (s.regKey (fieldAt data 0 4)) = some (r, ix) → s.ownsReg k r ix = true → r.row.pair = .no → r.acts = false →
    ∃ t, exec (.regWrite k data) s = .next t ∧ completed k c .ok 0 0 0 s t ∧
      ringFrame k rest [s.regKey (fieldAt data 0 4)] s t ∧ bytesKept s.hostMem t.hostMem (entryAt k s) 32 ∧
      (∀ f ∈ r.row.fields,
        (f.acc = .rw → bitsOf (t.getK (s.regKey (fieldAt data 0 4))).toNat f.lsb f.width = bitsOf (fieldAt data 4 4) f.lsb f.width) ∧
        (f.acc = .rws → r ≠ .FW_INIT → bitsOf (t.shadowK (s.regKey (fieldAt data 0 4))).toNat f.lsb f.width = bitsOf (fieldAt data 4 4) f.lsb f.width)) ∧
      t.activeK (s.regKey (fieldAt data 0 4)) = s.activeK (s.regKey (fieldAt data 0 4)) ∧
      t = { s with regs := t.regs, host := t.host, hostMem := t.hostMem, irqs := t.irqs, stile := framesUp 3 s.stile }) ∧
  (∀ (k : Fin 16) (c : Cmd) (rest : List Cmd) (data : List Byte) (r : Reg) (ix : List Nat) (s : State), headReady k c rest s →
    cmdOp c.bytes = 2 → cmdParam c.bytes = 1 → fieldAt data 0 4 % 4 = 0 → fieldAt data 0 4 < 2 ^ 20 →
    regAt (s.regKey (fieldAt data 0 4)) = some (r, ix) → s.ownsReg k r ix = true → r.row.pair = .no → r.readActs = false →
    (∀ f ∈ r.row.fields, f.acc ≠ .rc) → cmdAddr c.bytes + 8 ≤ entryAt k s ∨ entryAt k s + 32 ≤ cmdAddr c.bytes →
    ∃ t, exec (.regRead k data) s = .next t ∧ completed k c .ok 0 0 0 s t ∧ ringFrame k rest [] s t ∧
      fieldAt (memBytes t.hostMem (cmdAddr c.bytes + 4) 4) 0 4 = (s.regValue (s.regKey (fieldAt data 0 4))).toNat ∧
      (∀ a, (a < cmdAddr c.bytes + 4 ∨ cmdAddr c.bytes + 8 ≤ a) → (a < entryAt k s ∨ entryAt k s + 32 ≤ a) →
        memByte t.hostMem a = memByte s.hostMem a) ∧
      t = { s with regs := t.regs, host := t.host, hostMem := t.hostMem, irqs := t.irqs, stile := framesUp 3 (framesUp 2 s.stile) })

/-- DESCRIPTOR_READ_DONE, DESCRIPTOR_READ_TIMEOUT and HOST_DATA_READ_TIMEOUT (R392, R395, R400, R401): a descriptor that passes its checks takes a new
instance and its place in the queue; one that cannot be read stops the ring and posts a NOTAG completion; a data read that fails ends its command. -/
def Obligations.DescriptorsAreFetched : Prop :=
  (∀ (k : Fin 16) (b : List Byte) (s : State), b.length = 64 → s.mayFetch k = true → descriptorBad b = false → crosses s →
    s.instLive k (fieldAt b 2 2) ((smGet 0 s.host[k].epochs (fieldAt b 2 2) + 1) % 16) = false →
    s.inFlight k (fieldAt b 2 2) ((smGet 0 s.host[k].epochs (fieldAt b 2 2) + 1) % 16) = false →
    ∃ t, exec (.descriptorReadDone k b) s = .next t ∧
      t.host[k].queue = s.host[k].queue ++ [⟨fieldAt b 2 2, (smGet 0 s.host[k].epochs (fieldAt b 2 2) + 1) % 16, b⟩] ∧
      smGet 0 t.host[k].epochs (fieldAt b 2 2) = (smGet 0 s.host[k].epochs (fieldAt b 2 2) + 1) % 16 ∧
      t.instLive k (fieldAt b 2 2) ((smGet 0 s.host[k].epochs (fieldAt b 2 2) + 1) % 16) = true ∧
      t.host[k].rings[0].rd = (if s.host[k].rings[0].rd + 1 = s.ringEntries k 0 then 0 else s.host[k].rings[0].rd + 1) ∧
      (∀ j : Fin 16, j ≠ k → t.host[j] = s.host[j]) ∧ t = { s with host := t.host, stile := framesDown 3 s.stile }) ∧
  (∀ (k : Fin 16) (b : List Byte) (s : State), b.length = 64 → s.mayFetch k = true → s.host[k].stalled = false →
    s.instLive k (fieldAt b 2 2) ((smGet 0 s.host[k].epochs (fieldAt b 2 2) + 1) % 16) = true →
    ∃ t, exec (.descriptorReadDone k b) s = .next t ∧ t.host = (s.modHost k (fun h => { h with stalled := true })).host ∧
      t = { s with regs := t.regs, host := t.host } ∧ regsSame [Reg.key .DB_CNT1 [k]] s t) ∧
  (∀ (k : Fin 16) (bad : Bool) (s : State), s.mayFetch k = true → s.ringRoom k 1 = true → s.host[k].waiting = [] →
    ∃ t, exec (.descriptorReadTimeout k bad) s = .next t ∧ t.host[k].stopped = true ∧
      entryField k s t 3 1 = (if bad then 10 else 11) ∧ entryField k s t 4 2 = 2 ^ 15 + (if bad then 1 else 32) ∧
      t.host[k].queue = s.host[k].queue ∧ t.host[k].rings[0] = s.host[k].rings[0] ∧
      t.host[k].rings[1].used = s.host[k].rings[1].used + 1 ∧ ringFrame k s.host[k].queue [] s t ∧
      bytesKept s.hostMem t.hostMem (entryAt k s) 32 ∧
      t = { s with regs := t.regs, host := t.host, hostMem := t.hostMem, irqs := t.irqs }) ∧
  (∀ (k : Fin 16) (bad : Bool) (c : Cmd) (rest : List Cmd) (s : State), headReady k c rest s → usesAddr (cmdOp c.bytes) = true →
    ∃ t, exec (.hostDataReadTimeout k bad) s = .next t ∧
      completed k c (if bad then .fault else .timeout) (if bad then 1 else 32) 0 0 s t ∧ ringFrame k rest [] s t ∧
      bytesKept s.hostMem t.hostMem (entryAt k s) 32 ∧
      t = { s with regs := t.regs, host := t.host, hostMem := t.hostMem, irqs := t.irqs, stile := framesUp 3 s.stile })

/-- SYS_COMMIT_GO and COMMIT of an idle trigger unit, no check failing (R38, R41, R42, R46, R399): the active copy of every register of the unit takes the
value of its shadow copy, no other active copy changes, SEQ counts the commit, and its report is OK. -/
def Obligations.ACommitMakesShadowsActive : Prop :=
  (∀ (u : Fin 8) (s : State), crosses s → s.get F.SYS_COMMIT_STATUS_BUSY = 0 → s.commit.pin = none →
    s.commit.wait = [] → s.injOn 15 7 = false → s.tgBusy u = false → commitPasses ⟨5, u, true⟩ s →
    ∃ t, exec (.sysCommitGo 5 (Fin.ofNat 256 u)) s = .next t ∧ commitsTo ⟨5, u, true⟩ s t ∧
      (∀ k, t.shadowK k = s.shadowK k) ∧ t.get F.SYS_COMMIT_INFO_SEQ = (s.get F.SYS_COMMIT_INFO_SEQ + 1) % 65536 ∧
      t.get F.SYS_COMMIT_STATUS_STATUS = 0 ∧ t.get F.SYS_COMMIT_STATUS_FIELD_ID = 0 ∧
      t = { s with regs := t.regs, aos := t.aos, stile := framesDown 1 s.stile }) ∧
  (∀ (k : Fin 16) (c : Cmd) (rest : List Cmd) (u : Fin 8) (s : State), headReady k c rest s → cmdOp c.bytes = 3 →
    cmdParam c.bytes = 5 + 256 * u → s.ownsTg k u = true → s.commit.pin = none → s.commit.wait = [] → s.injOn 15 7 = false → s.tgBusy u = false →
    commitPasses ⟨5, u, decide (k = 0)⟩ (s.begin_ k c) →
    ∃ t, exec (.commit k) s = .next t ∧ commitsTo ⟨5, u, decide (k = 0)⟩ s t ∧ (∀ k, t.shadowK k = s.shadowK k) ∧
      t.get F.SYS_COMMIT_INFO_SEQ = (s.get F.SYS_COMMIT_INFO_SEQ + 1) % 65536 ∧
      completed k c .ok 0 0 ((s.get F.SYS_COMMIT_INFO_SEQ + 1) % 65536) s t ∧ t.host[k].queue = rest ∧
      (∀ j : Fin 16, j ≠ k → t.host[j] = s.host[j]) ∧ bytesKept s.hostMem t.hostMem (entryAt k s) 32 ∧
      t = { s with regs := t.regs, aos := t.aos, host := t.host, hostMem := t.hostMem, irqs := t.irqs, stile := framesUp 3 s.stile })

/-- A commit that a check refuses (R19, R40, R46, R489): no active copy changes, SEQ counts it, and STATUS, FIELD_ID and SYS_COMMIT_WHERE name the first
failure. -/
def Obligations.ARefusedCommitChangesNothing : Prop :=
  ∀ (scope : Fin 16) (target : Fin 256) (x : CFail) (s : State), crosses s → s.get F.SYS_COMMIT_STATUS_BUSY = 0 → s.commit.pin = none →
    s.commit.wait = [] → s.injOn 15 7 = false →
    State.commitFirst s (s.candidate (s.commitVals ⟨scope, target, true⟩) (s.commitSegs ⟨scope, target, true⟩)) ⟨scope, target, true⟩
      (s.commitVals ⟨scope, target, true⟩) false = some x →
    ∃ t, exec (.sysCommitGo scope target) s = .next t ∧ (∀ k, t.activeK k = s.activeK k ∧ t.shadowK k = s.shadowK k) ∧
      t.get F.SYS_COMMIT_INFO_SEQ = (s.get F.SYS_COMMIT_INFO_SEQ + 1) % 65536 ∧
      t.get F.SYS_COMMIT_STATUS_STATUS = x.st.code ∧ t.get F.SYS_COMMIT_STATUS_FIELD_ID = x.id % 65536 ∧
      t.get F.SYS_COMMIT_WHERE_OFFSET = x.off % 2 ^ 20 ∧ t.get F.SYS_COMMIT_WHERE_TS = x.ts % 32 ∧
      t.get F.SYS_COMMIT_WHERE_SRC_RING = 0 ∧ t = { s with regs := t.regs, stile := framesDown 1 s.stile }

/-- COMMIT_PINNING_DONE and HANDSHAKE_WATCHDOG (R41, R44, R46, R165, R232, R459): as pinning ends, the segment tables of the commit that holds the engine
become active, its copies are made, its report is OK and the engine is free; the engine's watchdog ends that commit with ABORTED and copies nothing; the
watchdog of a core takes it out of service, with AUTO set; that of another unit is a fault of the device, which puts every slice and output into its fault
state and ends every sequence. -/
def Obligations.TheEngineIsReleased : Prop :=
  (∀ (k : Fin 16) (tbl : SMap Nat) (pf : Bool) (pages : List (Nat × List Byte)) (failed : List (Nat × Nat)) (vals : List (Nat × Word))
    (ring : Option (Nat × Nat × Nat)) (s : State), s.commit.pin = some ⟨1, k, pf, vals, [(k.val, tbl)], ring⟩ → s.commit.wait = [] →
    ∃ t, exec (.commitPinningDone pages failed) s = .next t ∧ t.sess[k].segActive = tbl ∧ t.sess[k].xlates = [] ∧
      t.commit.pin = none ∧ t.get F.SYS_COMMIT_STATUS_BUSY = 0 ∧ (ring = none → t.get F.SYS_COMMIT_STATUS_STATUS = 0) ∧
      t.get F.SYS_COMMIT_INFO_SEQ = (s.get F.SYS_COMMIT_INFO_SEQ + 1) % 65536 ∧
      (∀ j : Fin 16, j ≠ k → t.sess[j].segActive = s.sess[j].segActive) ∧ t.ddr = s.ddr ∧ t.nvmF = s.nvmF) ∧
  (∀ (k : Fin 16) (tbl : SMap Nat) (pf : Bool) (pages : List (Nat × List Byte)) (failed : List (Nat × Nat)) (s : State),
    s.commit.pin = some ⟨1, k, pf, [], [(k.val, tbl)], none⟩ → s.commit.wait = [] → ownsNoUnit k s →
    ∃ t, exec (.commitPinningDone pages failed) s = .next t ∧ (∀ j : Fin 16, j ≠ k → t.sess[j] = s.sess[j]) ∧
      t = { s with regs := t.regs, aos := t.aos, sess := t.sess, commit := t.commit } ∧
      regsSame [Reg.key .SYS_COMMIT_STATUS [], Reg.key .SYS_COMMIT_INFO []] s t) ∧
  (∀ (pages : List (Nat × List Byte)) (failed : List (Nat × Nat)) (s : State), s.commit.pin = none → exec (.commitPinningDone pages failed) s = .next s) ∧
  (∀ (j : PinJob) (s : State), s.commit.pin = some j → j.ring = none → s.commit.wait = [] → s.injOn 0x0F 7 = false →
    s.due.all (fun d => d.act != DueAct.hedgeCopy) = true →
    ∃ t, exec (.handshakeWatchdog 7) s = .next t ∧ t.commit.pin = none ∧ t.get F.SYS_COMMIT_STATUS_BUSY = 0 ∧
      t.get F.SYS_COMMIT_STATUS_STATUS = Status.aborted.code ∧ (∀ k, t.activeK k = s.activeK k) ∧ counted F.FLT_CNT_COUNT [14] 1 s t ∧
      t = { s with regs := t.regs, commit := t.commit }) ∧
  (∀ (c : Fin 4) (s : State), ∃ t, exec (.handshakeWatchdog (Fin.ofNat 8 c)) s = .next t ∧ t.get F.FLT_CORE_STATE [c] = 2 ∧
      t.get F.FLT_CORE_AUTO [c] = 1 ∧ (s.coreRuns c = false → t.cores[c] = { s.cores[c] with offReq := false }) ∧
      (s.coreRuns c = true → t.cores[c].st = .idle ∧ t.sess[s.coreSess c].onCore = false) ∧ memSame s t) ∧
  (∀ (u : Fin 8) (s : State), 4 ≤ u.val → u.val ≤ 6 → ∃ t, exec (.handshakeWatchdog u) s = .next t ∧
      (∀ k : Fin 16, t.sess[k].seq.map (fun (q : SeqRun) => q.ended) = s.sess[k].seq.map (fun _ => true)) ∧
      (∀ n : Fin 12, t.slices[n].feed.play = none ∧ t.slices[n].feed.queue = []) ∧
      (∀ (n : Fin 12) (l : Fin 8), t.slices[n].lanes[l].safe = .fault) ∧ t.ddr = s.ddr ∧ t.nvmF = s.nvmF ∧ t.nvmH = s.nvmH)

/-- LOAD_IMAGE of an image that passes its checks (R160, R162, R163, R394): its words replace those of its regions, its entries join the session's table,
SQ_LOAD_STATUS reads 0 and the command completes OK. -/
def Obligations.AnImageIsLoaded : Prop :=
  ∀ (k : Fin 16) (c : Cmd) (rest : List Cmd) (img : List Byte) (s : State), headReady k c rest s → cmdOp c.bytes = 4 → cmdParam c.bytes ≠ 0 →
    img.length = cmdParam c.bytes → (s.begin_ k c).imageErr k img (cmdParam c.bytes) false = none → s.get F.NVM_BOOT_STAT_BOOT_BUSY = 0 →
    ∃ t, exec (.loadImage k img) s = .next t ∧ completed k c .ok 0 0 0 s t ∧
      ringFrame k rest [Reg.key .SQ_LOAD_STATUS []] s t ∧ bytesKept s.hostMem t.hostMem (entryAt k s) 32 ∧
      t.getK (Reg.key .SQ_LOAD_STATUS []) = 0 ∧
      t.cs = { s.cs with words :=
        (imageOf img).words.foldl State.csPut (s.cs.words.filter (fun p => !inMask (imageOf img).mask p.1)) } ∧
      (∀ j : Fin 16, j ≠ k → t.sess[j] = s.sess[j]) ∧
      t = { s with regs := t.regs, host := t.host, hostMem := t.hostMem, irqs := t.irqs, cs := t.cs, sess := t.sess, stile := framesUp 3 s.stile }

/-- START, SHOT and ABORT (R149, R366, R376, R396, R399, R403): the head command begins a sequence from its entry point, or a burst with an empty tally, for
its session, and stays live; an ABORT of a queued command ends that one with ABORTED and itself with OK, one of the running sequence ends it with ABORTED,
and one whose target is not live says so. -/
def Obligations.SequencesBeginAndAreAborted : Prop :=
  (∀ (k : Fin 16) (c : Cmd) (rest : List Cmd) (a : Nat) (s : State), headReady k c rest s → cmdOp c.bytes = 0x0A → cmdHold c.bytes = false →
    s.tripBlocks = false → s.entryAddr k (cmdParam c.bytes % 256) = some a → s.sess[k].seq = none → s.sess[k].burst = none →
    ∃ t, exec (.start k) s = .next t ∧ t.host[k].queue = rest ∧ t.instLive k c.tag c.epoch = true ∧
      t.sess[k].seq = some ⟨cmdParam c.bytes % 256, false, false, 0, false, none, false, 0, 0⟩ ∧
      t.sess[k].saved = some { resetCtx with pc := a } ∧ t.sess[k].waitSince = some s.now ∧
      t.sess[k].tag = c.tag ∧ t.sess[k].epoch = c.epoch ∧ t.sess[k].hasTag = true ∧
      (∀ j : Fin 16, j ≠ k → t.sess[j] = s.sess[j] ∧ t.host[j] = s.host[j]) ∧ (∀ key, t.activeK key = s.activeK key) ∧
      t = { s with regs := t.regs, host := t.host, sess := t.sess, slices := t.slices, aos := t.aos, gleaners := t.gleaners }) ∧
  (∀ (k : Fin 16) (c : Cmd) (rest : List Cmd) (s : State), headReady k c rest s → cmdOp c.bytes = 0x0B → cmdHold c.bytes = false →
    s.tripBlocks = false → s.shotFail k c.bytes = none → s.sess[k].seq = none → s.sess[k].burst = none → fieldAt c.bytes 0x18 8 ≠ 0 →
    ∃ t, exec (.shot k) s = .next t ∧ t.host[k].queue = rest ∧ t.instLive k c.tag c.epoch = true ∧
      t.sess[k].burst = some { State.burstOf c.bytes with sTick := s.now } ∧ t.sess[k].tally = State.noTally ∧ t.sess[k].tag = c.tag ∧
      t.sess[k].epoch = c.epoch ∧ t.sess[k].hasTag = true ∧ t.get F.RM_SESS_SHOTS_SHOTS [k] = 0 ∧
      (∀ j : Fin 16, j ≠ k → t.sess[j] = s.sess[j] ∧ t.host[j] = s.host[j]) ∧ regsSame [Reg.key .RM_SESS_SHOTS [k]] s t ∧
      t = { s with regs := t.regs, host := t.host, sess := t.sess }) ∧
  (∀ (k : Fin 16) (c d : Cmd) (x : Bool) (s : State), s.host[k].queue = [c, d] → cmdOp c.bytes = 0 → cmdOp d.bytes = 0x0C →
    s.host[k].live = [⟨c.tag, c.epoch, 0, x, false, false, 0, 0⟩, ⟨d.tag, d.epoch, 0x0C, x, false, false, 0, 1⟩] → cmdParam d.bytes = c.tag + 65536 * c.epoch →
    c.tag ≠ d.tag → c.tag < 65536 → d.tag < 65536 → c.epoch < 16 → d.epoch < 16 → s.host[k].held = false → s.host[k].waiting = [] →
    s.sess[k].hasTag = false → crosses s → s.ringOn k 1 = true →
    s.host[k].rings[1].used + 1 < s.ringEntries k 1 → s.host[k].rings[1].wr + 1 < s.ringEntries k 1 →
    ∃ t, exec (.abort k) s = .next t ∧ t.host[k].queue = [] ∧ t.host[k].live = [] ∧
      entryField k s t 0 2 = c.tag ∧ entryField k s t 3 1 = Status.aborted.code ∧ entryField k s t 4 2 = 2 ∧
      fieldAt (memBytes t.hostMem (entryAt k s + 32) 32) 0 2 = d.tag ∧ fieldAt (memBytes t.hostMem (entryAt k s + 32) 32) 3 1 = 0 ∧
      fieldAt (memBytes t.hostMem (entryAt k s + 32) 32) 8 8 = c.tag + 65536 * c.epoch ∧
      t.host[k].rings[1].used = s.host[k].rings[1].used + 2 ∧ ringFrame k [] [] s t ∧
      bytesKept s.hostMem t.hostMem (entryAt k s) 64 ∧
      t = { s with regs := t.regs, host := t.host, hostMem := t.hostMem, irqs := t.irqs, stile := framesUp 3 (framesUp 3 s.stile) }) ∧
  (∀ (k : Fin 16) (d : Cmd) (s : State), s.host[k].queue.find? (fun c => cmdOp c.bytes == 0x0C) = some d → crosses s → s.ringRoom k 1 = true →
    s.host[k].waiting = [] → s.instLive k d.tag d.epoch = true → s.instEnded k d.tag d.epoch = false → d.tag < 65536 → d.epoch < 16 →
    (∀ i ∈ s.host[k].live, i.tag ≠ cmdParam d.bytes % 65536) →
    ∃ t, exec (.abort k) s = .next t ∧
      posted k d.tag d.epoch 0x0C (if bitOf (cmdParam d.bytes) 20 then .ok else .stale) (if bitOf (cmdParam d.bytes) 20 then 2 ^ Cond.notFound else 0)
        (worseQ s.quality (s.instWorst k d.tag d.epoch)) (cmdParam d.bytes % 65536) 0 s t ∧
      ringFrame k (s.host[k].queue.erase d) [] s t ∧ bytesKept s.hostMem t.hostMem (entryAt k s) 32 ∧
      t = { s with regs := t.regs, host := t.host, hostMem := t.hostMem, irqs := t.irqs, stile := framesUp 3 s.stile }) ∧
  (∀ (k : Fin 16) (d : Cmd) (q : SeqRun) (s : State), s.host[k].queue.find? (fun c => cmdOp c.bytes == 0x0C) = some d → crosses s →
    s.ringRoom k 1 = true → s.host[k].waiting = [] → cmdParam d.bytes = s.sess[k].tag + 65536 * s.sess[k].epoch → s.sess[k].tag < 65536 →
    s.sess[k].epoch < 16 → d.tag ≠ s.sess[k].tag → s.sess[k].hasTag = true → s.instLive k s.sess[k].tag s.sess[k].epoch = true →
    s.instEnded k s.sess[k].tag s.sess[k].epoch = false → s.sess[k].seq = some q → q.ended = false → s.inSpan k = false →
    ∃ t, exec (.abort k) s = .next t ∧ t.host[k].queue = s.host[k].queue.erase d ∧ t.sess[k].onCore = false ∧ t.sess[k].waitSince = none ∧
      t.sess[k].seq.map (fun (x : SeqRun) => (x.entry, x.shot, x.ended, bitOf x.cond Cond.aborted)) = some (q.entry, q.shot, true, true))

/-! ### Sessions, shots and cores -/

/-- CORE_DISPATCH and SEQUENCE_COMPLETE (R148, R149, R363, R364, R397): an idle core takes the session that comes first, with its saved context; a
sequence that has ended and whose units are quiet completes with the status of its ending conditions, whatever units it owns; until then
SEQUENCE_COMPLETE changes nothing. -/
def Obligations.SequencesRunAndComplete : Prop :=
  (∀ (c : Fin 4) (k : Fin 16) (x : Ctx) (s : State), s.cores[c].st = .idle → s.coreIn c = true → s.nextFor c = some k →
    s.sess[k].saved = some x →
    ∃ t, exec (.coreDispatch c) s = .next t ∧ t.cores[c].st = .running ∧ t.cores[c].sess = k.val ∧ t.cores[c].ctx = x ∧
      t.cores[c].span = none ∧ t.sess[k].onCore = true ∧ t.sess[k].core = c.val ∧ t.sess[k].waitSince = none ∧ t.sess[k].saved = none ∧
      (∀ d : Fin 4, d ≠ c → t.cores[d] = s.cores[d]) ∧ (∀ j : Fin 16, j ≠ k → t.sess[j] = s.sess[j]) ∧
      t = { s with regs := t.regs, cores := t.cores, sess := t.sess } ∧ regsSame [Reg.key .RM_SESS_WAIT [k]] s t) ∧
  (∀ (k : Fin 16) (q : SeqRun) (s : State), s.sess[k].seq = some q → q.ended = true → q.shot = false → s.unitsQuiet k = true →
    s.sess[k].burst = none → s.sess[k].swapWait = false → s.usedDegraded k = false → (∀ u : Fin 8, s.ownsTg k u = false) →
    s.gleaners[k].failUnit = none → s.gleaners[k].line = [] → s.anyFwd k = false → canPost k s → q.cond < 65536 → q.flagsF < 256 → s.sess[k].cond < 65536 →
    bitOf (q.cond ||| s.sess[k].cond) Cond.underrun = false → bitOf (q.cond ||| s.sess[k].cond) Cond.wallUnderrun = false → q.under = false →
    (∀ b, b ∈ [Cond.fault, Cond.aborted, Cond.maskStop, Cond.timeout, Cond.degraded] → bitOf q.cond b = false) →
    ∃ t, exec (.sequenceComplete k) s = .next t ∧ t.sess[k].seq = none ∧ t.sess[k].hasTag = false ∧
      posted k s.sess[k].tag s.sess[k].epoch 0x0A .ok (q.cond ||| s.sess[k].cond)
        (max (max s.sess[k].worstQ s.quality) (s.instWorst k s.sess[k].tag s.sess[k].epoch)) 0 (s.get F.GL_FAILS_FAILS [k]) s t ∧
      entryField k s t 6 1 = q.flagsF ∧ ringFrame k s.host[k].queue [] s t ∧ (∀ j : Fin 16, j ≠ k → t.sess[j] = s.sess[j]) ∧
      bytesKept s.hostMem t.hostMem (entryAt k s) 32 ∧
      t = { s with regs := t.regs, host := t.host, hostMem := t.hostMem, irqs := t.irqs, sess := t.sess, stile := framesUp 3 s.stile }) ∧
  (∀ (k : Fin 16) (q : SeqRun) (s : State), s.sess[k].seq = some q → q.ended = true → s.unitsQuiet k = true →
    ∃ t, exec (.sequenceComplete k) s = .next t ∧ t.sess[k].seq = none ∧ (q.shot = false → t.sess[k].hasTag = false) ∧
      (∀ u : Fin 8, s.ownsTg k u = true → t.tgState u = 0)) ∧
  (∀ (k : Fin 16) (q : SeqRun) (s : State), s.sess[k].seq = some q → q.ended = false ∨ s.unitsQuiet k = false →
    exec (.sequenceComplete k) s = .next s)

/-- The shots of a burst (R368–R375, R378): SHOT_START, once the shot may start, takes S and counts the shot, whatever trigger units it arms;
SHOT_SEQUENCE_START starts its sequence from ENTRY at once, or, under ON_TRIGGER, once the lead unit has triggered; SHOT_TALLY_CLOSE adds its status to the
tally 250 ns after it, and the burst goes on, or ends with its completion formed; SHOT_TRIGGER_TIMEOUT ends a shot whose lead trigger had not come within
TRIG_TO, its trigger units idle. Before their conditions hold the commands change nothing. -/
def Obligations.AShotRunsThroughItsPhases : Prop :=
  (∀ (k : Fin 16) (b : Burst) (s : State), s.sess[k].burst = some b → s.shotMayStart k b s.edgeNow = true →
    b.onTrigger = false ∨ b.trigTo ≠ 0 →
    ∃ t, exec (.shotStart k) s = .next t ∧
      (∃ c, t.sess[k].burst = some c ∧ c.shots = b.shots + 1 ∧ c.sTick = s.edgeNow ∧ c.firstS = (if b.shots = 0 then s.edgeNow else b.firstS) ∧
        c.phase = 2 ∧ c.shotStatus = .ok ∧ c.done = none) ∧
      t.get F.RM_SESS_SHOTS_SHOTS [k] = min (b.shots + 1) (2 ^ 32 - 1) ∧
      (∀ u : Fin 8, bitOf b.tgMask u = true → t.tgState u ≠ 0 ∨ t.get F.TG_STATUS_DONE [u] = 1) ∧ t.ddr = s.ddr) ∧
  (∀ (k : Fin 16) (b : Burst) (s : State), s.sess[k].burst = some b → s.shotMayStart k b s.edgeNow = false → exec (.shotStart k) s = .next s) ∧
  (∀ (k : Fin 16) (b : Burst) (s : State), s.sess[k].burst = some b → s.shotMayStart k b s.edgeNow = true → b.tgMask = 0 →
    b.onTrigger = false → b.deadFrom = none →
    ∃ t, exec (.shotStart k) s = .next t ∧
      t.sess[k] = { s.sess[k] with burst := some { b with
        shots := b.shots + 1, sTick := s.edgeNow, firstS := if b.shots = 0 then s.edgeNow else b.firstS, phase := 2,
        leadAt := none, done := none, shotStatus := .ok, shotViol := 0, shotStale := false, shotQ := s.quality } } ∧
      t.get F.RM_SESS_SHOTS_SHOTS [k] = min (b.shots + 1) (2 ^ 32 - 1) ∧ (∀ j : Fin 16, j ≠ k → t.sess[j] = s.sess[j]) ∧
      t = { s with regs := t.regs, sess := t.sess } ∧ regsSame [Reg.key .RM_SESS_SHOTS [k], Reg.key .RM_SESS_WAIT [k]] s t) ∧
  (∀ (k : Fin 16) (b : Burst) (a : Nat) (s : State), s.sess[k].burst = some b → b.phase = 2 →
    b.onTrigger = false ∨ b.leadAt.isSome = true → s.sess[k].seq = none → s.entryAddr k b.entry = some a →
    ∃ t, exec (.shotSequenceStart k) s = .next t ∧ t.sess[k].burst = some { b with phase := 4 } ∧
      t.sess[k].seq = some ⟨b.entry, true, false, 0, false, none, false, 0, 0⟩ ∧ t.sess[k].saved = some { resetCtx with pc := a } ∧
      t.sess[k].waitSince = some s.now ∧ (∀ j : Fin 16, j ≠ k → t.sess[j] = s.sess[j]) ∧ (∀ key, t.activeK key = s.activeK key) ∧
      t = { s with regs := t.regs, sess := t.sess, slices := t.slices, aos := t.aos, gleaners := t.gleaners }) ∧
  (∀ (k : Fin 16) (b : Burst) (s : State), s.sess[k].burst = some b → b.phase = 2 → b.onTrigger = true → b.leadAt = none →
    exec (.shotSequenceStart k) s = .next s) ∧
  (∀ (k : Fin 16) (b : Burst) (s : State), s.sess[k].burst = some b → b.phase = 5 → State.tallyEnd b ≤ s.now → State.burstGoes b = true →
    bitOf b.flags 3 = false → s.injOn 3 0x31 = false → s.injOn 4 0x31 = false →
    ∃ t, exec (.shotTallyClose k) s = .next t ∧
      t.sess[k].burst = some { b with phase := 6, deadFrom := if bitOf b.tgMask b.lead then b.leadAt else b.done, deadRec := none } ∧
      t.sess[k].tally = { s.sess[k].tally with
        status := s.sess[k].tally.status.worse b.shotStatus,
        stale := s.sess[k].tally.stale || b.shotStale, worstQ := max s.sess[k].tally.worstQ b.shotQ,
        nDegraded := if b.shotStatus = .degraded then sat32 s.sess[k].tally.nDegraded else s.sess[k].tally.nDegraded,
        nUnderrun := if b.shotStatus = .underrun then sat32 s.sess[k].tally.nUnderrun else s.sess[k].tally.nUnderrun,
        nTimeout := if b.shotStatus = .timeout then sat32 s.sess[k].tally.nTimeout else s.sess[k].tally.nTimeout,
        nViol := if b.shotViol = 0 then s.sess[k].tally.nViol else sat32 s.sess[k].tally.nViol,
        lastTbc := (b.done.getD 0 + 409600) % 2 ^ 48 } ∧
      (∀ j : Fin 16, j ≠ k → t.sess[j] = s.sess[j]) ∧ t = { s with sess := t.sess }) ∧
  (∀ (k : Fin 16) (b : Burst) (s : State), s.sess[k].burst = some b → b.phase = 5 → State.tallyEnd b ≤ s.now → State.burstGoes b = false →
    s.injOn 4 0x31 = false →
    ∃ t, exec (.shotTallyClose k) s = .next t ∧ t.sess[k].burst = none ∧ t.sess[k].hasTag = false ∧
      t.sess[k].tally.status = s.sess[k].tally.status.worse b.shotStatus ∧ t.ddr = s.ddr) ∧
  (∀ (k : Fin 16) (b : Burst) (s : State), s.sess[k].burst = some b → b.phase ≠ 5 ∨ s.now < State.tallyEnd b →
    exec (.shotTallyClose k) s = .next s) ∧
  (∀ (k : Fin 16) (b : Burst) (s : State), s.sess[k].burst = some b → b.onTrigger = true → b.leadAt = none → b.phase = 2 →
    b.trigTo ≠ 2 ^ 32 - 1 → b.sTick + b.trigTo * ticksPerUs ≤ s.now →
    ∃ t, exec (.shotTriggerTimeout k) s = .next t ∧
      (∃ c, t.sess[k].burst = some c ∧ c.phase = 5 ∧ c.done = some s.now ∧ c.shotStatus = .timeout ∧ c.shots = b.shots ∧ c.sTick = b.sTick) ∧
      bitOf t.sess[k].tally.cond Cond.timeout = true ∧ (∀ u : Fin 8, s.ownsTg k u = true → t.tgState u = 0) ∧ memSame s t) ∧
  (∀ (k : Fin 16) (b : Burst) (s : State), s.sess[k].burst = some b →
    b.onTrigger = false ∨ b.leadAt.isSome = true ∨ b.phase ≠ 2 ∨ b.trigTo = 2 ^ 32 - 1 ∨ s.now < b.sTick + b.trigTo * ticksPerUs →
    exec (.shotTriggerTimeout k) s = .next s)

/-- TEARDOWN, TEARDOWN_SCRUB and TEARDOWN_DONE of a session with nothing running (R360, R361): its ownership returns to the reset values in the shadow
and active copies, its entry points and translations are gone, its tags start at epoch 0; a scrub leaves zeros in its view and no other byte changes.
What a session with units, a sequence or a burst had goes with it, and a running span puts the steps off. SESSION_ABORT ends a sequence, on a core or
waiting for one, and its condition flags show ABORTED; a burst between shots ends (R20, R157, R375, R398). -/
def Obligations.ATeardownReturnsTheUnits : Prop :=
  (∀ (k : Fin 16) (r : Reg) (s : State), crosses s → s.sess[k].seq = none → s.sess[k].burst = none → s.commit.pends = [] → ownsNoUnit k s →
    s.host[k].held = false → r ∈ State.ownRegs →
    ∃ t, exec (.teardown k) s = .next t ∧ t.sess[k].tearing = true ∧ t.activeK (Reg.key r [k]) = resetVal (Reg.key r [k]) ∧
      t.shadowK (Reg.key r [k]) = resetVal (Reg.key r [k]) ∧ t.sess[k].entries = [] ∧ t.sess[k].staged = none ∧
      t.sess[k].xlates = [] ∧ t.sess[k].pages = [] ∧ t.host[k].epochs = [] ∧ t.host[k].goLatch = none ∧
      t.host[k].queue = s.host[k].queue ∧ (∀ j : Fin 16, j ≠ k → t.sess[j] = s.sess[j] ∧ t.host[j] = s.host[j]) ∧
      (∀ p, p ∈ t.cs.words → p ∈ s.cs.words ∧ s.ownsRegion k (p.1 / 1024) = false) ∧
      t = { s with regs := t.regs, sess := t.sess, host := t.host, cs := t.cs, stile := framesDown 1 s.stile }) ∧
  (∀ (k : Fin 16) (s : State), crosses s → s.sess[k].seq = none → s.sess[k].burst = none → s.commit.pends = [] → ownsNoUnit k s →
    s.host[k].held = false →
    ∃ t, exec (.teardownScrub k) s = .next t ∧ t.sess[k].tearing = true ∧ t.sess[k].scrub = true ∧
      (∀ a, s.viewPhys k 0 ≤ a → a < s.viewPhys k 0 + s.viewSize k → memByte t.ddr a = 0) ∧
      bytesKept s.ddr t.ddr (s.viewPhys k 0) (s.viewSize k) ∧
      t = { s with regs := t.regs, sess := t.sess, host := t.host, cs := t.cs, ddr := t.ddr, stile := framesDown 1 s.stile }) ∧
  (∀ (k : Fin 16) (s : State), s.sess[k].tearWait = false →
    exec (.teardownDone k) s = .next (s.modSess k (fun x => { x with tearing := false, scrub := false, torn := [] }))) ∧
  (∀ (k : Fin 16) (q : SeqRun) (s : State), crosses s → s.sess[k].seq = some q → s.sess[k].onCore = false → q.ended = false → ownsNoUnit k s →
    s.commit.pends = [] →
    ∃ t, exec (.sessionAbort k) s = .next t ∧
      t.sess[k] = { s.sess[k] with saved := none, waitSince := none, onCore := false, seq := t.sess[k].seq } ∧
      t.sess[k].seq.map (fun (x : SeqRun) => (x.entry, x.shot, x.ended, bitOf x.cond Cond.aborted)) = some (q.entry, q.shot, true, true) ∧
      (∀ j : Fin 16, j ≠ k → t.sess[j] = s.sess[j]) ∧ t = { s with regs := t.regs, sess := t.sess, stile := framesDown 1 s.stile } ∧
      regsSame [Reg.key .SYS_COMMIT_STATUS [], Reg.key .RM_SESS_WAIT [k]] s t) ∧
  (∀ (k : Fin 16) (s : State), crosses s → s.inSpan k = false →
    ∃ t, exec (.teardown k) s = .next t ∧ t.sess[k].tearing = true ∧ t.sess[k].seq = none ∧ t.sess[k].burst = none ∧
      (∀ r ∈ State.ownRegs, t.activeK (Reg.key r [k]) = resetVal (Reg.key r [k]) ∧ t.shadowK (Reg.key r [k]) = resetVal (Reg.key r [k])) ∧
      t.sess[k].entries = [] ∧ t.sess[k].xlates = [] ∧ t.sess[k].pages = [] ∧ t.host[k].epochs = [] ∧ t.host[k].goLatch = none ∧
      t.host[k].held = false ∧ (∀ n : Fin 12, s.ownsSlice k n = true → t.slices[n].feed.play = none ∧ t.slices[n].feed.queue = []) ∧
      (∀ u : Fin 8, s.ownsTg k u = true → t.tgState u = 0)) ∧
  (∀ (k : Fin 16) (c : Fin 4) (s : State), crosses s → s.coreOf k = some c → s.inSpan k = true →
    ∃ t, exec (.teardown k) s = .next t ∧ t.sess[k].tearing = true ∧ t.sess[k].tearWait = true ∧ t.cores[c].abortReq = true ∧
      t.sess[k].seq = s.sess[k].seq ∧ memSame s t ∧ t.slices = s.slices ∧ t.aos = s.aos ∧ t.trigs = s.trigs) ∧
  (∀ (k : Fin 16) (q : SeqRun) (s : State), crosses s → s.sess[k].seq = some q → s.inSpan k = false → q.ended = false →
    ∃ t, exec (.sessionAbort k) s = .next t ∧ t.sess[k].onCore = false ∧ t.sess[k].waitSince = none ∧
      t.sess[k].seq.map (fun (x : SeqRun) => (x.entry, x.shot, x.ended, bitOf x.cond Cond.aborted)) = some (q.entry, q.shot, true, true)) ∧
  (∀ (k : Fin 16) (b : Burst) (s : State), crosses s → s.sess[k].seq = none → s.sess[k].burst = some b → b.phase = 0 ∨ b.phase = 6 →
    ∃ t, exec (.sessionAbort k) s = .next t ∧ t.sess[k].burst = none ∧ t.sess[k].hasTag = false ∧
      bitOf t.sess[k].tally.cond Cond.aborted = true ∧ t.ddr = s.ddr)

/-- A microword without effects outside its core (R131, R132, R137–R142): a running core starts the word, takes its dispatch source and completes it, or
waits while its condition is false; a waiting core completes it when its condition is true, or, under TO_ACT, when its timeout has passed, which its
command's conditions then show (R398); its context takes the word's effects, and nothing else changes. Without TO_ACT the timeout ends the sequence. -/
def Obligations.AMicrowordRuns : Prop :=
  (∀ (c : Fin 4) (w : Nat) (s : State), s.cores[c].st = .running → fetches c w s → plainWord w → nothingWaits c s →
    (mwWait w = false ∨ (started c w s).wordCond c w = true →
      exec (.microwordComplete c) s = .next (afterPlain c w ((started c w s).wordCond c w) false .running (started c w s))) ∧
    (mwWait w = true → (started c w s).wordCond c w = false → mwToEn w = false ∨ mwToCount w ≠ 0 →
      exec (.microwordComplete c) s = .next ((started c w s).modCore c (fun r => { r with st := .waiting })))) ∧
  (∀ (c : Fin 4) (w : Nat) (s : State), s.cores[c].st = .waiting → fetches c w s → plainWord w → nothingWaits c s →
    (s.wordCond c w = true → exec (.conditionTrue c) s = .next (afterPlain c w true false .running s)) ∧
    (s.wordCond c w = false → exec (.conditionTrue c) s = .next s)) ∧
  (∀ (c : Fin 4) (w : Nat) (s : State), s.cores[c].st = .waiting → fetches c w s → plainWord w → nothingWaits c s →
    (s.waitOver c w = true → s.wordCond c w = false → mwToAct w = true →
      exec (.waitTimeout c) s = .next ((afterPlain c w false true .running s).noteCond (s.coreSess c) Cond.timeout)) ∧
    (s.waitOver c w = true → s.wordCond c w = false → mwToAct w = false → s.sess[s.coreSess c].seq.isSome = true →
      ∃ t, exec (.waitTimeout c) s = .next t ∧
        t.sess[s.coreSess c].seq.map (fun (x : SeqRun) => x.ended) = some true ∧ t.sess[s.coreSess c].onCore = false) ∧
    (s.waitOver c w = false → exec (.waitTimeout c) s = .next s))

/-- STALL_RELEASE of a word that issues one logic-vector segment to one slice (R143, R144, R171, R238): the descriptor joins the slice's queue under the
session's next issue number, an idle slice gets its start instant, and the core goes on. -/
def Obligations.AStalledIssueIsReleased : Prop :=
  ∀ (c : Fin 4) (w : Nat) (n : Fin 12) (s : State), s.cores[c].st = .stalled → fetches c w s → nothingWaits c s → mwIssue w = true →
    mwSlices w = 2 ^ n.val → mwOutputs w = 0 → (s.segEntry (s.coreSess c) (mwSeg w)).kind = 1 →
    (s.segEntry (s.coreSess c) (mwSeg w)).loops ≠ 0 → s.slices[n].feed.queue.length < 256 → mwTsSw w = false → mwFwOp w = 0 →
    mwEmit w = 0 → mwAtomic w = false → mwEnd w = false → mwShotBnd w = false → mwMode w ≠ 3 → mwMode w ≠ 4 →
    ∃ t, exec (.stallRelease c) s = .next t ∧ t.cores[c].st = .running ∧
      t.cores[c].ctx = mwCtx w s.cores[c].ctx s.cores[c].stallCond s.cores[c].stallTimedOut s.cores[c].dsp ∧
      t.slices[n].feed.queue = s.slices[n].feed.queue ++ [.seg (s.issued (s.coreSess c) (mwSeg w))] ∧
      (s.slices[n].feed.play = none → s.slices[n].feed.startAt = none → t.slices[n].feed.startAt = some (s.now / 2048 * 2048 + 8192)) ∧
      t.slices[n].lanes = s.slices[n].lanes ∧ (∀ m : Fin 12, m ≠ n → t.slices[m] = s.slices[m]) ∧
      (∀ d : Fin 4, d ≠ c → t.cores[d] = s.cores[d]) ∧
      t.sess = ((if s.cores[c].stallTimedOut then s.noteCond (s.coreSess c) Cond.timeout else s).modSess (s.coreSess c)
        (fun x => { x with issues := x.issues + 1 })).sess ∧
      (s.slices[n].feed.play = none → t = { s with cores := t.cores, slices := t.slices, sess := t.sess }) ∧
      t = { s with cores := t.cores, slices := t.slices, sess := t.sess, regs := t.regs, due := t.due } ∧ regsSame [Reg.key .EP_WALL_MIN [n]] s t

/-- HALT, RESUME and STEP (R151, R152): a running core halts, or inside a span is to halt at its commit; a halted one goes on, or runs one word and halts
again; nothing else changes but the frames that the Stile has numbered. -/
def Obligations.ACoreHaltsAndSteps : Prop :=
  (∀ (c : Fin 4) (s : State), crosses s → s.cores[c].st = .running ∨ s.cores[c].st = .waiting ∨ s.cores[c].st = .stalled → s.cores[c].span = none →
    exec (.halt c) s = .next { s.modCore c (fun r => { r with st := .halted }) with stile := framesDown 1 s.stile }) ∧
  (∀ (c : Fin 4) (s : State), crosses s → s.cores[c].st = .running ∨ s.cores[c].st = .waiting ∨ s.cores[c].st = .stalled → s.cores[c].span ≠ none →
    ∃ t, exec (.halt c) s = .next t ∧ t.cores = (s.modCore c (fun r => { r with haltReq := true })).cores ∧
      counted F.SQ_CNT_DEFERRED [c] 1 s t ∧ t = { s with regs := t.regs, cores := t.cores, stile := framesDown 1 s.stile } ∧
      regsSame [Reg.key .SQ_CNT [c]] s t) ∧
  (∀ (c : Fin 4) (s : State), crosses s → s.cores[c].st = .halted →
    exec (.resume c) s = .next { s.modCore c (fun r => { r with st := .running, stepping := false }) with stile := framesDown 1 s.stile }) ∧
  (∀ (c : Fin 4) (w : Nat) (s : State), crosses s → s.cores[c].st = .halted → fetches c w s → plainWord w → s.cores[c].abortReq = false →
    s.cores[c].haltReq = false → mwWait w = false →
    exec (.step c) s =
      .next { afterPlain c w ((started c w s).wordCond c w) false .halted (started c w s) with stile := framesDown 1 s.stile })

/-- CS_PATROL and the control-store window (R127, R164): the patrol reads a loaded word, corrects and counts every quadword with a single-bit error and
leaves the bits of every word; an uncorrectable one is counted with its address; CSW_ADDR drops the latch, a read of CSW_DATA0 latches the word, one of
CSW_DATA5 steps ADDR. -/
def Obligations.TheControlStoreIsPatrolledAndShown : Prop :=
  (∀ (a : Fin 16384) (s : State), s.csWord a = none → exec (.csPatrol a) s = .next s) ∧
  (∀ (a : Fin 16384) (x : CsWord) (s : State), s.csWord a = some x →
    ∃ t, exec (.csPatrol a) s = .next t ∧
      (∀ b, t.csWord b = if b = a.val then some { x with ecc := x.ecc.map (fun e => if e = .single then .clean else e) } else s.csWord b) ∧
      counted F.SQ_CS_ECC_CORRECTED [] (x.ecc.toList.filter (· == .single)).length s t ∧
      counted F.SQ_CS_ECC_UNCORRECTABLE [] (x.ecc.any (· == .double)).toNat s t ∧
      t.get F.SQ_CS_ECC_ADDR_LAST_ADDR = (if x.ecc.any (· == .double) then a.val else s.get F.SQ_CS_ECC_ADDR_LAST_ADDR) ∧
      t = { s with regs := t.regs, cs := { s.cs with words := t.cs.words } } ∧
      regsSame [Reg.key .SQ_CS_ECC [], Reg.key .SQ_CS_ECC_ADDR [], Reg.key .FLT_CNT [4]] s t) ∧
  (∀ (v : Word) (s : State), crosses s → ∃ t, exec (.cswAddrWrite v) s = .next t ∧ t.cs = { s.cs with latch := none } ∧
    t.get F.CSW_ADDR_ADDR = v.toNat % 2 ^ 14 ∧ t.get F.CSW_ADDR_AUTOINC = bitsOf v.toNat 14 1 ∧
    t = { s with regs := t.regs, cs := t.cs, stile := framesDown 1 s.stile } ∧ regsSame [Reg.key .CSW_ADDR []] s t) ∧
  (∀ s : State, crosses s → exec .cswData0Read s = .next { s with
    stile := framesUp 1 (framesDown 1 s.stile),
    cs := { s.cs with latch := some (s.get F.CSW_ADDR_ADDR, s.csWord (s.get F.CSW_ADDR_ADDR)) },
    lastRead := BitVec.ofNat 32 (((s.csWord (s.get F.CSW_ADDR_ADDR)).map (fun (x : CsWord) => x.bits)).getD 0 % 2 ^ 32) }) ∧
  (∀ s : State, crosses s → ∃ t, exec .cswData5Read s = .next t ∧
      t.lastRead = BitVec.ofNat 32 (bitsOf ((s.cswShown.2.map (fun (x : CsWord) => x.bits)).getD 0) 160 32) ∧
      t.get F.CSW_ADDR_ADDR = (if s.get F.CSW_ADDR_AUTOINC = 1 then (s.get F.CSW_ADDR_ADDR + 1) % 2 ^ 14 else s.get F.CSW_ADDR_ADDR) ∧
      t = { s with regs := t.regs, lastRead := t.lastRead, stile := framesUp 1 (framesDown 1 s.stile) } ∧
      regsSame [Reg.key .CSW_ADDR []] s t)

/-! ### Furrow generators, triggers and the Gleaner -/

/-- FW_PROGRAM_LOADED (R192, R193): a program whose first word is a HALT stands in the cache with PROG_OK; one whose first word is no Furrow word
fails, and ERR_ADDR names it; the generator loads no more, and nothing outside it and FW_STATUS changes. -/
def Obligations.AProgramIsLoaded : Prop :=
  (∀ (g : Fin 4) (k : Fin 16) (w : Nat) (s : State), s.fws[g].loading = true → s.fws[g].pc < 16384 → s.ownerFw g = some k →
    s.ownsRegion k (s.fws[g].pc / 1024) = true → s.csWord s.fws[g].pc = some ⟨2, w, Vector.replicate 3 .clean⟩ → fFlow w = 7 →
    ∃ t, exec (.fwProgramLoaded g) s = .next t ∧ t.fws[g].loading = false ∧ t.fws[g].cache = [w] ∧ t.fws[g].base = s.fws[g].pc ∧
      t.get F.FW_STATUS_PROG_OK [g] = 1 ∧ t.get F.FW_STATUS_PLEN [g] = 1 ∧ (∀ j : Fin 4, j ≠ g → t.fws[j] = s.fws[j]) ∧
      t = { s with regs := t.regs, fws := t.fws } ∧ regsSame [Reg.key .FW_STATUS [g]] s t) ∧
  (∀ (g : Fin 4) (s : State), s.fws[g].loading = true → s.fws[g].pc < 16384 → s.csWord s.fws[g].pc = none →
    ∃ t, exec (.fwProgramLoaded g) s = .next t ∧ t.fws[g].loading = false ∧ t.get F.FW_STATUS_PROG_OK [g] = 0 ∧
      t.get F.FW_STATUS_ERR_ADDR [g] = s.fws[g].pc ∧ (∀ j : Fin 4, j ≠ g → t.fws[j] = s.fws[j]) ∧
      t = { s with regs := t.regs, fws := t.fws } ∧ regsSame [Reg.key .FW_STATUS [g]] s t)

/-- FW_SCR_DATA_WRITE and AO_TBL_DATA_WRITE (R205, R212, R302): an idle generator's table takes the entry, another's discards and counts it; an output
that does not play its table takes the entry; INDEX steps under AUTOINC. -/
def Obligations.TableEntriesAreWritten : Prop :=
  (∀ (g : Fin 4) (v : Word) (s : State), crosses s → s.fwState g ≤ 1 → s.get F.FW_SCR_ADDR_AUTOINC [g] = 1 →
    ∃ t, exec (.fwScrDataWrite g v) s = .next t ∧
      (∀ d i, smGet d t.fws[g].table i =
        if i = s.get F.FW_SCR_ADDR_INDEX [g] then v.toNat % 65536 else smGet d s.fws[g].table i) ∧
      t.fws[g] = { s.fws[g] with table := t.fws[g].table } ∧ (∀ j : Fin 4, j ≠ g → t.fws[j] = s.fws[j]) ∧
      t.get F.FW_SCR_ADDR_INDEX [g] = (s.get F.FW_SCR_ADDR_INDEX [g] + 1) % 65536 ∧
      t = { s with regs := t.regs, fws := t.fws, stile := framesDown 1 s.stile } ∧ regsSame [Reg.key .FW_SCR_ADDR [g]] s t) ∧
  (∀ (g : Fin 4) (v : Word) (s : State), crosses s → 1 < s.fwState g → s.get F.FW_SCR_ADDR_AUTOINC [g] = 0 →
    exec (.fwScrDataWrite g v) s = .next { s.count F.FW_CNT_SCR_REJECT [g] with stile := framesDown 1 s.stile }) ∧
  (∀ (o : Fin 16) (v : Word) (s : State), crosses s → s.act F.AO_CFG_SRC [o] ≠ 2 → s.get F.AO_TBL_ADDR_AUTOINC [o] = 0 →
    ∃ t, exec (.aoTblDataWrite o v) s = .next t ∧
      (∀ d i, smGet d t.aos[o].table i = if i = s.get F.AO_TBL_ADDR_INDEX [o] then v else smGet d s.aos[o].table i) ∧
      t.aos[o] = { s.aos[o] with table := t.aos[o].table } ∧ (∀ j : Fin 16, j ≠ o → t.aos[j] = s.aos[j]) ∧
      t = { s with aos := t.aos, stile := framesDown 1 s.stile })

/-- Arming, forcing and stopping a trigger unit (R243, R245, R251): TRIGGER_ARM and ARM_EVENT arm an IDLE unit at the next event-clock edge, TRIGGER_FORCE
fires it at the next edge, TRIGGER_STOP returns a unit without a capture to IDLE. -/
def Obligations.TriggersAreArmedForcedAndStopped : Prop :=
  (∀ (u : Fin 8) (s : State), crosses s → s.tgState u = 0 →
    exec (.triggerArm u) s = .next { s with due := s.due ++ [⟨1, .armTrigger u⟩], stile := framesDown 1 s.stile }) ∧
  (∀ (u : Fin 8) (s : State), crosses s → s.tgState u ≠ 0 → exec (.triggerArm u) s = .next { s with stile := framesDown 1 s.stile }) ∧
  (∀ (u : Fin 8) (s : State), s.tgState u = 0 → s.trigs[u].armSeen = true →
    exec (.armEvent u) s = .next { s with due := s.due ++ [⟨1, .armTrigger u⟩], trigs := s.trigs.set u { s.trigs[u] with armSeen := false } }) ∧
  (∀ (u : Fin 8) (s : State), crosses s →
    exec (.triggerForce u) s = .next { s with due := s.due ++ [⟨1, .fireTrigger u⟩], stile := framesDown 1 s.stile }) ∧
  (∀ (u : Fin 8) (s : State), crosses s → s.tgState u = 1 ∨ s.tgState u = 2 → s.trigs[u].cap = none → s.trigs[u].block = none →
    ∃ t, exec (.triggerStop u) s = .next t ∧ t.tgState u = 0 ∧ t.trigs = s.trigs.set u { s.trigs[u] with fires := false, tail := none } ∧
      t = { s with regs := t.regs, trigs := t.trigs, stile := framesDown 1 s.stile } ∧ regsSame [Reg.key .TG_STATUS [u]] s t)

/-- The course of a capture (R241, R244–R250, R259, R262): PRE_TRIGGER_FULL makes a unit READY once its pre slots have passed; TRIGGER_FIRE is a trigger in
READY and an ignored firing in FILLING; POST_TRIGGER_END, its post slots past, gives the Gleaner the header and, with no re-arm left, returns the unit to IDLE with DONE. -/
def Obligations.ACaptureTakesItsCourse : Prop :=
  (∀ (u : Fin 8) (d : Nat) (s : State), s.tgState u = 1 → s.dueEdge u = some d → d ≤ s.edgeNow → s.trigs[u].cap = none →
    s.trigs[u].held = false → s.leads u = none →
    ∃ t, exec (.preTriggerFull u) s = .next t ∧ t.tgState u = 2 ∧ t = { s with regs := t.regs, due := s.due ++ [⟨1, .pulse (216 + u)⟩] } ∧
      regsSame [Reg.key .TG_STATUS [u]] s t) ∧
  (∀ (u : Fin 8) (k : Fin 16) (s : State), s.trigs[u].fires = true → s.tgState u = 2 → s.ownerTg u = some k → s.leads u = none →
    s.trigs[u].block.isSome = true → s.tgPost u ≠ 0 →
    ∃ t, exec (.triggerFire u) s = .next t ∧ t.tgState u = 3 ∧
      t.trigs[u].cap.map (fun (c : Capture) => (c.shot, c.trigTbc, c.ignored)) =
        some (s.trigs[u].shot, s.edgeNow, s.trigs[u].ignored) ∧
      t.trigs[u].cap.map (fun (c : Capture) => (c.slices, c.pre, c.block)) = some (s.capSlices u, s.tgPre u, s.trigs[u].block) ∧
      t.trigs[u].shot = (s.trigs[u].shot + 1) % 2 ^ 32 ∧ t.trigs[u].ignored = 0 ∧ t.trigs[u].fires = false ∧
      (∀ v : Fin 8, v ≠ u → t.trigs[v] = s.trigs[v]) ∧
      t = { s with regs := t.regs, trigs := t.trigs, due := s.due ++ [⟨1, .pulse (208 + u)⟩] } ∧
      regsSame [Reg.key .TG_STATUS [u], Reg.key .TG_CNT [u]] s t) ∧
  (∀ (u : Fin 8) (s : State), s.trigs[u].fires = true → s.tgState u = 1 → (∀ d, s.dueEdge u = some d → s.edgeNow < d) → s.leads u = none →
    ∃ t, exec (.triggerFire u) s = .next t ∧ t.tgState u = 1 ∧ t.trigs[u].ignored = s.trigs[u].ignored + 1 ∧ t.trigs[u].fires = false ∧
      (∀ v : Fin 8, v ≠ u → t.trigs[v] = s.trigs[v]) ∧ t = { s with regs := t.regs, trigs := t.trigs } ∧
      regsSame [Reg.key .TG_CNT [u]] s t) ∧
  (∀ (u : Fin 8) (k : Fin 16) (c : Capture) (a d : Nat) (s : State), s.tgState u = 3 → s.trigs[u].rearm = 0 → s.leads u = none →
    s.ownerTg u = some k → s.trigs[u].cap = some c → c.block = some a → s.dueEdge u = some d → d ≤ s.edgeNow →
    s.trigs[u].fires = false → s.trigs[u].tail = none → s.sess[k].seq = none →
    ∃ t, exec (.postTriggerEnd u) s = .next t ∧ t.tgState u = 0 ∧ t.get F.TG_STATUS_DONE [u] = 1 ∧ t.trigs[u].cap = none ∧
      t.gleaners[k].blocks.map (fun (b : CapBlock) => (b.addr, b.header.isSome)) =
        s.gleaners[k].blocks.map (fun (b : CapBlock) => (b.addr, b.header.isSome || b.addr == a)) ∧
      (∀ v : Fin 8, v ≠ u → t.trigs[v] = s.trigs[v]) ∧ (∀ i : Fin 16, i ≠ k → t.gleaners[i] = s.gleaners[i]) ∧
      t = { s with regs := t.regs, trigs := t.trigs, gleaners := t.gleaners, due := s.due ++ [⟨1, .pulse (224 + u)⟩] } ∧
      regsSame [Reg.key .TG_STATUS [u]] s t)

/-- FAIL_UNIT_TIMEOUT and STAMP_LINE_FLUSH of a session that forwards nothing (R254, R256, R278, R281, R511): the open unit, its second half empty, or the
line in hand, padded, goes to the unit at the region's write pointer, which advances; no other byte of memory changes. -/
def Obligations.OpenUnitsAreWritten : Prop :=
  (∀ (k : Fin 16) (a : List Byte) (s : State), s.gleaners[k].failUnit = some a → a.length = 32 → s.anyFwd k = false →
    (s.wptr k 0).ptr + 1 < s.rgnSize k 0 → s.rgnRoom k 0 (s.wptr k 0) 1 = true →
    ∃ t, exec (.failUnitTimeout k) s = .next t ∧ t.gleaners[k].failUnit = none ∧
      memBytes t.ddr (s.viewPhys k (s.rgnBase k 0 + 64 * (s.wptr k 0).ptr)) 64 = a ++ List.replicate 32 0 ∧
      bytesKept s.ddr t.ddr (s.viewPhys k (s.rgnBase k 0 + 64 * (s.wptr k 0).ptr)) 64 ∧
      t.wptr k 0 = ⟨(s.wptr k 0).ptr + 1, (s.wptr k 0).lap⟩ ∧ (∀ j : Fin 16, j ≠ k → t.gleaners[j] = s.gleaners[j]) ∧
      t = { s with regs := t.regs, ddr := t.ddr, gleaners := t.gleaners } ∧ regsSame [Reg.key .GL_RGN_WPTR [k, 0]] s t) ∧
  (∀ (k : Fin 16) (s : State), s.gleaners[k].line ≠ [] → s.gleaners[k].line.length ≤ 8 → s.anyFwd k = false →
    (s.wptr k 2).ptr + 1 < s.rgnSize k 2 → s.rgnRoom k 2 (s.wptr k 2) 1 = true →
    ∃ t, exec (.stampLineFlush k) s = .next t ∧ t.gleaners[k].line = [] ∧
      memBytes t.ddr (s.viewPhys k (s.rgnBase k 2 + 64 * (s.wptr k 2).ptr)) 64 =
        (s.gleaners[k].line ++ List.replicate (8 - s.gleaners[k].line.length) State.padEntry).flatMap (leBytes 8) ∧
      bytesKept s.ddr t.ddr (s.viewPhys k (s.rgnBase k 2 + 64 * (s.wptr k 2).ptr)) 64 ∧
      t.wptr k 2 = ⟨(s.wptr k 2).ptr + 1, (s.wptr k 2).lap⟩ ∧ (∀ j : Fin 16, j ≠ k → t.gleaners[j] = s.gleaners[j]) ∧
      t = { s with regs := t.regs, ddr := t.ddr, gleaners := t.gleaners } ∧
      regsSame [Reg.key .GL_RGN_WPTR [k, 2], Reg.key .TM_SESS_STORED [k]] s t)

/-- GLEANER_WRITE_DONE (R256, R260–R262): a slice's waiting capture word goes to its address, and a formed header, once no word of its block waits, goes to
its block, which the write pointer passes. -/
def Obligations.CapturesReachMemory : Prop :=
  (∀ (k : Fin 16) (n : Fin 12) (x : CapWord) (s : State), s.slices[n].caps = [x] → s.anyFwd k = false →
    ∃ t, exec (.gleanerWriteDone k 1 (Fin.ofNat 128 n)) s = .next t ∧ t.slices[n].caps = [] ∧
      memBytes t.ddr (s.viewPhys x.sess x.addr) 4 = leBytes 4 x.word ∧ bytesKept s.ddr t.ddr (s.viewPhys x.sess x.addr) 4 ∧
      (∀ m : Fin 12, m ≠ n → t.slices[m] = s.slices[m]) ∧ t = { s with ddr := t.ddr, slices := t.slices }) ∧
  (∀ (k : Fin 16) (b : CapBlock) (h : List Byte) (s : State), s.gleaners[k].blocks = [b] → b.header = some h → h.length = 64 →
    s.anyFwd k = false → b.endPtr < 2 ^ 30 →
    s.wordsWait k b.addr (s.rgnBase k 1 + 64 * (if b.endPtr = 0 then s.rgnSize k 1 else b.endPtr)) = false →
    ∃ t, exec (.gleanerWriteDone k 1 12) s = .next t ∧ t.gleaners[k].blocks = [] ∧
      t.gleaners[k].done.length = s.gleaners[k].done.length + 1 ∧
      memBytes t.ddr (s.viewPhys k b.addr) 64 = h ∧ bytesKept s.ddr t.ddr (s.viewPhys k b.addr) 64 ∧
      t.wptr k 1 = ⟨b.endPtr, b.endLap⟩ ∧ (∀ j : Fin 16, j ≠ k → t.gleaners[j] = s.gleaners[j]) ∧
      t = { s with regs := t.regs, ddr := t.ddr, gleaners := t.gleaners } ∧ regsSame [Reg.key .GL_RGN_WPTR [k, 1]] s t)

/-- FORWARD_PIECE_TIMER of a FILL fail region with fewer units than CHUNK waiting, all written for one instance or none (R408, R409): they are copied to the data area, a capture entry names
where and how many, and the region's read pointer takes its write pointer. -/
def Obligations.APieceIsForwarded : Prop :=
  ∀ (k : Fin 16) (n : Nat) (i : Option (Nat × Nat)) (s : State), (State.runsTo n s.gleaners[k].runs[0]).headD ⟨n, none⟩ = ⟨n, i⟩ → s.fwdOn k 0 = true → s.fieldUp = true → s.rgnWrap k 0 = false → 0 < n → n < s.get F.DATA_CFG_CHUNK [k] * 64 →
    (s.wptr k 0).ptr < s.rgnSize k 0 → (s.wptr k 0).lap = (s.get F.GL_RGN_RPTR_LAP [k, 0] == 1) → (s.wptr k 0).ptr = s.get F.GL_RGN_RPTR_PTR [k, 0] + n →
    s.host[k].dataWr + n < s.areaUnits k → s.areaUsed k + n ≤ s.areaUnits k → s.ringRoom k 2 = true → s.sess[k].hasTag = false →
    s.flt.inj = none →
    s.pair F.DATA_BASE_LO_BASE F.DATA_BASE_HI_BASE [k] + 64 * s.areaUnits k ≤ s.ringBase k 2 + 64 * s.host[k].rings[2].wr →
    ∃ t, exec (.forwardPieceTimer k 0) s = .next t ∧
      memBytes t.hostMem (s.pair F.DATA_BASE_LO_BASE F.DATA_BASE_HI_BASE [k] + 64 * s.host[k].dataWr) (64 * n) =
        memBytes s.ddr (s.viewPhys k (s.rgnBase k 0 + 64 * s.get F.GL_RGN_RPTR_PTR [k, 0])) (64 * n) ∧
      t.host[k].dataWr = s.host[k].dataWr + n ∧ t.get F.GL_RGN_RPTR_PTR [k, 0] = (s.wptr k 0).ptr ∧
      fieldAt (memBytes t.hostMem (s.ringBase k 2 + 64 * s.host[k].rings[2].wr) 64) 0 1 = 1 ∧
      fieldAt (memBytes t.hostMem (s.ringBase k 2 + 64 * s.host[k].rings[2].wr) 64) 4 4 = 64 * n % 2 ^ 32 ∧
      t.host[k].rings[2].used = s.host[k].rings[2].used + 1 ∧ (∀ j : Fin 16, j ≠ k → t.host[j] = s.host[j] ∧ t.gleaners[j] = s.gleaners[j]) ∧
      t = { s with
        regs := t.regs, host := t.host, hostMem := t.hostMem, irqs := t.irqs, gleaners := t.gleaners, stile := framesUp 3 (framesUp (framesOf (64 * n)) s.stile) } ∧
      regsSame [Reg.key .GL_RGN_RPTR [k, 0], Reg.key .MSIX_PBA [k, 0], Reg.key .MSIX_PBA [k, 1]] s t

/-! ### Time measurement and routing -/

/-- STAMP_EDGE (R99, R100, R106, R269–R277, R314, R500): the voltages at the tick set a TRIG input's level, or a lane's comparator, whose band without
hysteresis and with settled thresholds is L, M or H; where nothing crosses, or the input does not stamp that direction, no more happens; an edge too
close to those stamped before is counted and lost, of which every unit is told; any other edge joins its input's FIFO with the time base's quality and the
running instance; a full FIFO loses it. The voltages that SLICE_PERIOD_START brings, where they cross nothing, set the comparators likewise. -/
def Obligations.EdgesAreStamped : Prop :=
  (∀ (i : Fin 112) (k : Fin 16) (tk : Nat) (vp vn : Int) (s : State), i.val = 96 + k.val → s.act F.TM_IN_CFG_STAMP_EN [i] = 0 →
    ∃ t, exec (.stampEdge i tk ⟨vp, vn⟩) s = .next t ∧
      t.hr.trig = s.hr.trig.set k (if 930000 < vp then true else if vp < 870000 then false else s.hr.trig[k]) ∧ t = { s with hr := t.hr }) ∧
  (∀ (i : Fin 112) (n : Fin 12) (l : Fin 8) (tk : Nat) (vp vn : Int) (s : State), i.val = 8 * n.val + l.val →
    s.act F.TM_IN_CFG_STAMP_EN [i] = 0 →
    ∃ t, exec (.stampEdge i tk ⟨vp, vn⟩) s = .next t ∧ t = { s with slices := t.slices, hr := t.hr } ∧
      (∀ m : Fin 12, m ≠ n → t.slices[m] = s.slices[m]) ∧
      (∀ j : Fin 8, j ≠ l → t.slices[n].lanes[j] = s.slices[n].lanes[j]) ∧
      t.slices[n].lanes[l] = { s.slices[n].lanes[l] with vp := vp, vn := vn, trace := t.slices[n].lanes[l].trace } ∧
      (s.slices[n].feed.play = none → s.act F.CH_LVL_HYST [n, l] = 0 → settled s.slices[n].lanes[l] (s.tickOf tk) →
        t.laneBand n l (s.tickOf tk) = if (s.laneThs n l).2 < s.cmpInput n l vp vn then 2 else if (s.laneThs n l).1 ≤ s.cmpInput n l vp vn then 1 else 0)) ∧
  (∀ (i : Fin 112) (tk : Nat) (vp vn : Int) (s : State),
    s.act F.TM_IN_CFG_STAMP_EN [i] = 0 ∨ (∀ d, (s.crossInput i (s.tickOf tk) vp vn).2 = some d → State.counts (s.act F.TM_IN_CFG_EDGE [i]) d = false) →
    exec (.stampEdge i tk ⟨vp, vn⟩) s = .next (s.crossInput i (s.tickOf tk) vp vn).1) ∧
  (∀ (i : Fin 112) (tk : Nat) (vp vn x : Int) (d : Bool) (s : State), s.act F.TM_IN_CFG_STAMP_EN [i] ≠ 0 →
    (s.crossInput i (s.tickOf tk) vp vn).2 = some d → State.counts (s.act F.TM_IN_CFG_EDGE [i]) d = true → s.inputs[i].last = some x →
    (s.tickOf tk : Int) < x + 656 →
    ∃ t, exec (.stampEdge i tk ⟨vp, vn⟩) s = .next t ∧ counted F.TM_IN_CNT_TOO_CLOSE [i] 1 s t ∧
      t.inputs = s.inputs.set i { s.inputs[i] with lost := true } ∧
      (∀ u : Fin 16, ∃ q ∈ t.meas[u].queue, q.lost = some i.val ∧ q.x.t = s.tickOf tk) ∧
      t = { s with regs := t.regs, slices := t.slices, hr := t.hr, inputs := t.inputs, meas := t.meas, masks := t.masks, sess := t.sess } ∧
      regsSame [Reg.key .TM_IN_CNT [i]] s t) ∧
  (∀ (i : Fin 112) (tk : Nat) (vp vn : Int) (d : Bool) (s : State), s.act F.TM_IN_CFG_STAMP_EN [i] ≠ 0 →
    (s.crossInput i (s.tickOf tk) vp vn).2 = some d → State.counts (s.act F.TM_IN_CFG_EDGE [i]) d = true → State.spaced s.inputs[i] (s.tickOf tk) = true →
    s.inputs[i].fifo.length < 512 →
    ∃ t, exec (.stampEdge i tk ⟨vp, vn⟩) s = .next t ∧
      t.inputs = s.inputs.set i { s.inputs[i] with
        last := some (s.tickOf tk : Int), last2 := s.inputs[i].last, lost := false,
        fifo := s.inputs[i].fifo ++ [⟨s.tickOf tk, d, s.quality, s.inputStale i, s.inputs[i].lost, s.storesStamp i,
          (s.ownerInput i).bind (fun k => s.runInst k)⟩] } ∧
      (∀ u : Fin 16, ¬ measures u i s → t.meas[u] = s.meas[u]) ∧
      (∀ u : Fin 16, measures u i s → ∃ q ∈ t.meas[u].queue, q.lost = none ∧ q.x.t = s.tickOf tk ∧ q.x.rise = d) ∧
      t = { s with slices := t.slices, hr := t.hr, inputs := t.inputs, meas := t.meas, masks := t.masks }) ∧
  (∀ (i : Fin 112) (tk : Nat) (vp vn : Int) (d : Bool) (s : State), s.act F.TM_IN_CFG_STAMP_EN [i] ≠ 0 →
    (s.crossInput i (s.tickOf tk) vp vn).2 = some d → State.counts (s.act F.TM_IN_CFG_EDGE [i]) d = true → State.spaced s.inputs[i] (s.tickOf tk) = true →
    512 ≤ s.inputs[i].fifo.length →
    ∃ t, exec (.stampEdge i tk ⟨vp, vn⟩) s = .next t ∧ counted F.TM_IN_CNT_LOST [i] 1 s t ∧
      t.inputs = s.inputs.set i { s.inputs[i] with last := some (s.tickOf tk : Int), last2 := s.inputs[i].last, lost := true } ∧
      (∀ u : Fin 16, ∃ q ∈ t.meas[u].queue, q.lost = some i.val ∧ q.x.t = s.tickOf tk) ∧
      t = { s with regs := t.regs, slices := t.slices, hr := t.hr, inputs := t.inputs, meas := t.meas, masks := t.masks, sess := t.sess } ∧
      regsSame [Reg.key .TM_IN_CNT [i]] s t) ∧
  (∀ (n : Fin 12) (l : Fin 8) (tk : Nat) (balls : List BallVolts) (v : BallVolts) (s : State), s.slices[n].feed.play = none →
    s.slices[n].feed.waitAt = none → balls[l.val]? = some v → s.act F.CH_LVL_HYST [n, l] = 0 → settled s.slices[n].lanes[l] (s.tickOf tk) →
    s.laneCross n l = (s.laneVolts n l (s.tickOf tk) v.p v.n).laneCross n l →
    ∃ t, exec (.slicePeriodStart n tk balls) s = .next t ∧ t = { s with slices := t.slices } ∧
      (∀ m : Fin 12, m ≠ n → t.slices[m] = s.slices[m]) ∧
      t.slices[n].lanes[l] = { s.slices[n].lanes[l] with vp := v.p, vn := v.n, trace := t.slices[n].lanes[l].trace } ∧
      t.laneBand n l (s.tickOf tk) = if (s.laneThs n l).2 < s.cmpInput n l v.p v.n then 2 else if (s.laneThs n l).1 ≤ s.cmpInput n l v.p v.n then 1 else 0)

/-- Gates, results, windows and the wrap (R69, R263–R266, R280, R283, R287–R290): a gate whose event was sampled active opens at that edge; where it was
sampled inactive a frequency gate's close forms its result's three entries and an interval gate's close counts what had no partner; a window that has
closed with one edge in it passes, one without is a violation, and so is a stray edge where strays count; at TBC[47:0]'s wrap each stamp region's stream
goes on from a marker with TBC[63:48]. -/
def Obligations.EdgesAreMeasured : Prop :=
  (∀ (u : Fin 16) (s : State), s.act F.TM_MU_GATE_ALWAYS [u] = 0 → s.meas[u].gate = none → s.meas[u].gateIn = true →
    exec (.muGateOpen u) s = .next { s with meas := s.meas.set u { emptied s.meas[u] with gate := some (s.now / 2048 * 2048) } }) ∧
  (∀ (u k : Fin 16) (g : Nat) (a b : Stamp) (s : State), s.act F.TM_MU_GATE_ALWAYS [u] = 0 → s.meas[u].gate = some g → s.meas[u].gateIn = false →
    s.meas[u].queue = [] → s.act F.TM_MU_CFG_EN [u] = 1 →
    s.act F.TM_MU_CFG_MODE [u] = 4 → s.meas[u].a = some a → s.meas[u].lastA = some b → 2 ≤ s.meas[u].edges → s.meas[u].edges < 2 ^ 32 → a.t < b.t →
    b.t < a.t + 2 ^ 48 → s.ownerMu u = some k → s.rgnSize k 2 ≠ 0 → s.sess[k].burst = none → s.meas[u].stale = false → s.meas[u].lossy = [] →
    s.meas[u].quality < 4 →
    ∃ t, exec (.muGateClose u) s = .next t ∧
      t.meas = s.meas.set u { emptied s.meas[u] with
        gate := none,
        out := s.meas[u].out ++ [((a.t % 2 ^ 48 + u.val * 2 ^ 48 + 4 * 2 ^ 52 + s.meas[u].coincident.toNat * 2 ^ 55 + s.meas[u].quality * 2 ^ 56 + 3 * 2 ^ 60,
          b.t - a.t + 4 * 2 ^ 60, s.meas[u].edges - 1 + 5 * 2 ^ 60), s.runInst k)] } ∧
      t.get F.TM_MU_RESULTS_RESULTS [u] = satAdd F.TM_MU_RESULTS_RESULTS.width (s.get F.TM_MU_RESULTS_RESULTS [u]) 1 ∧
      t = { s with regs := t.regs, meas := t.meas } ∧ regsSame [Reg.key .TM_MU_RESULTS [u]] s t) ∧
  (∀ (u : Fin 16) (g : Nat) (s : State), s.act F.TM_MU_GATE_ALWAYS [u] = 0 → s.meas[u].gate = some g → s.meas[u].gateIn = false →
    s.meas[u].queue = [] → s.muOn u = true → s.act F.TM_MU_CFG_MODE [u] ≠ 4 → s.meas[u].n = 0 →
    ∃ t, exec (.muGateClose u) s = .next t ∧
      t.meas = s.meas.set u { emptied s.meas[u] with gate := none } ∧
      t.get F.TM_MU_CNT0_UNPAIRED [u] = satAdd F.TM_MU_CNT0_UNPAIRED.width (s.get F.TM_MU_CNT0_UNPAIRED [u])
        (s.meas[u].a.isSome.toNat + s.meas[u].b.isSome.toNat) ∧
      t = { s with regs := t.regs, meas := t.meas } ∧ regsSame [Reg.key .TM_MU_CNT0 [u]] s t) ∧
  (∀ (m : Fin 16) (b a : Stamp) (rest : List MaskWin) (s : State), s.masks[m].wins = ⟨b, some a, [], false⟩ :: rest →
    s.winHi m ⟨b, some a, [], false⟩ < s.now → b.stale = false → a.stale = false → (∀ k : Fin 16, s.sess[k].burst = none) →
    ∃ t, exec (.maskWindowJudge m) s = .next t ∧ t.masks[m].wins = rest ∧ t.masks[m].loose = s.masks[m].loose ∧
      t.get F.GL_MT_PASS_COUNT [m] = satAdd F.GL_MT_PASS_COUNT.width (s.get F.GL_MT_PASS_COUNT [m]) 1 ∧
      (∀ j : Fin 16, j ≠ m → t.masks[j] = s.masks[j]) ∧ t = { s with regs := t.regs, masks := t.masks } ∧
      regsSame [Reg.key .GL_MT_PASS [m]] s t) ∧
  (∀ (m k : Fin 16) (b : Stamp) (rest : List MaskWin) (s : State), s.masks[m].wins = ⟨b, none, [], false⟩ :: rest →
    s.winHi m ⟨b, none, [], false⟩ < s.now → s.ownerMt m = some k → s.act F.GL_MT_CFG_STOP [m] = 0 →
    ∃ t, exec (.maskWindowJudge m) s = .next t ∧ t.masks[m].wins = rest ∧
      t.get F.GL_MT_VIOL_COUNT [m] = satAdd F.GL_MT_VIOL_COUNT.width (s.get F.GL_MT_VIOL_COUNT [m]) 1 ∧
      t.gleaners = s.gleaners.set k { s.gleaners[k] with
        violCount := min (s.gleaners[k].violCount + 1) (2 ^ 32 - 1),
        viols := s.gleaners[k].viols ++
          [(State.violBytes b.t 0 0 m 1 (b.stale.toNat + 2 * b.quality) (t.get F.GL_MT_VIOL_COUNT [m]), s.runInst k)] } ∧
      (∀ j : Fin 16, j ≠ m → t.masks[j] = s.masks[j]) ∧
      t = { s with regs := t.regs, masks := t.masks, gleaners := t.gleaners, sess := t.sess, cores := t.cores } ∧
      regsSame [Reg.key .GL_MT_VIOL [m]] s t) ∧
  (∀ (m : Fin 16) (w : MaskWin) (rest : List MaskWin) (s : State), s.masks[m].wins = w :: rest → (s.now : Int) ≤ s.winHi m w →
    exec (.maskWindowJudge m) s = .next s) ∧
  (∀ (m k : Fin 16) (x : Stamp) (rest : List Stamp) (s : State), s.masks[m].loose = x :: rest → s.strayDue m x = true → s.ownerMt m = some k →
    s.act F.GL_MT_CFG_STOP [m] = 0 → s.act F.GL_MT_CFG_STRAY_EN [m] = 1 →
    ∃ t, exec (.strayJudge m) s = .next t ∧ t.masks = s.masks.set m { s.masks[m] with loose := rest } ∧
      t.get F.GL_MT_VIOL_COUNT [m] = satAdd F.GL_MT_VIOL_COUNT.width (s.get F.GL_MT_VIOL_COUNT [m]) 1 ∧
      t.gleaners = s.gleaners.set k { s.gleaners[k] with
        violCount := min (s.gleaners[k].violCount + 1) (2 ^ 32 - 1),
        viols := s.gleaners[k].viols ++
          [(State.violBytes 0 x.t 0 m 3 (x.stale.toNat + 2 * x.quality) (t.get F.GL_MT_VIOL_COUNT [m]), s.runInst k)] } ∧
      t = { s with regs := t.regs, masks := t.masks, gleaners := t.gleaners, sess := t.sess, cores := t.cores } ∧
      regsSame [Reg.key .GL_MT_VIOL [m]] s t) ∧
  (∀ (m : Fin 16) (x : Stamp) (rest : List Stamp) (s : State), s.masks[m].loose = x :: rest →
    (s.strayDue m x = false → exec (.strayJudge m) s = .next s) ∧
    (s.strayDue m x = true → s.act F.GL_MT_CFG_STRAY_EN [m] ≠ 1 →
      exec (.strayJudge m) s = .next { s with masks := s.masks.set m { s.masks[m] with loose := rest } })) ∧
  (∀ s : State, (∀ k : Fin 16, s.rgnSize k 2 = 0) →
    exec .tbc48Wrap s = .next { s.tbEvent 8 with tb := { s.tb with streamHi := s.now / 2 ^ 48 } }) ∧
  (∀ s : State, ∃ t, exec .tbc48Wrap s = .next t ∧ bitOf (t.freshK (Reg.key .TB_EVENTS [])).toNat 8 = true ∧ t.tb.streamHi = s.now / 2 ^ 48 ∧
    (∀ k : Fin 16, s.rgnSize k 2 ≠ 0 → t.gleaners[k].line = [s.now / 2 ^ 48 % 65536 + 2 * 2 ^ 60] ∧ t.gleaners[k].open_ = false) ∧
    (∀ k : Fin 16, s.rgnSize k 2 = 0 → t.gleaners[k] = s.gleaners[k]))

/-- The Hedgerow (R316, R319, R328–R330, R332, R333, R337, R338): the software event bits change at the second edge, CLR before SET before PULSE, a
pulse for one edge; an event that the last edge sampled rising sets its flag, and its activations count; a held-back edge is reported at the end of its
holdoff, which ends when none was; a filter takes the value it has met at FILT edges in a row, a flip-flop what it captured at the edge; a channel group
takes what the edge sampled, and OFF wins. -/
def Obligations.EventsAreRouted : Prop :=
  (∀ (st clr : Nat) (s : State), st < 256 → clr < 256 → crosses s → exec (.hrSwSet st clr) s = .next { s with
    stile := framesDown 1 s.stile,
    due := s.due ++
      ((if clr = 0 then [] else [⟨2, .swClr clr⟩]) ++ (if st ^^^ (st &&& clr) = 0 then [] else [⟨2, .swSet (st ^^^ (st &&& clr))⟩])) }) ∧
  (∀ (clr : Nat) (s : State), 0 < clr → crosses s →
    exec (.hrSwClr clr) s = .next { s with due := s.due ++ [⟨2, .swClr clr⟩], stile := framesDown 1 s.stile }) ∧
  (∀ (mask : Nat) (s : State), 0 < mask → mask < 256 → crosses s →
    exec (.hrSwPulse mask) s = .next { s with due := s.due ++ [⟨2, .swSet mask⟩, ⟨3, .swClr mask⟩], stile := framesDown 1 s.stile }) ∧
  (∀ (ev : Fin 256) (x : EvSample) (s : State), s.hr.samples.find? (fun y => y.ev == ev.val) = some x → x.sampled = true →
    (∀ k : Fin 16, s.act F.HR_RING_EN_EN [k, ev.val / 32] = 0) →
    ∃ t, exec (.eventEdgeSampled ev x.acts x.rose) s = .next t ∧
      bitOf (t.freshK (Reg.key .HR_FLAG [ev.val / 32])).toNat (ev.val % 32) = true ∧
      (∀ j : Fin 16, s.get F.HR_ECNT_SEL_EN [j] = 1 → s.get F.HR_ECNT_SEL_EV [j] = ev → counted F.HR_ECNT_COUNT [j] x.acts s t) ∧
      (∀ n : Fin 12, ev.val / 8 = n.val → counted F.HR_SL_COAL_COALESCED [n] x.coal s t) ∧
      t = { s with regs := t.regs, hr := { s.hr with samples := s.hr.samples.filter (fun y => y.ev != ev.val) } } ∧
      regsSame (Reg.key .HR_FLAG [ev.val / 32] ::
        ((if ev.val < 96 then [Reg.key .HR_SL_COAL [ev.val / 8]] else if ev.val < 232 then [] else if ev.val < 248 then
          [Reg.key .HR_AO_COAL [ev.val - 232]] else [Reg.key .HR_DV_COAL []]) ++ (List.range 16).map (fun j => Reg.key .HR_ECNT [j]))) s t) ∧
  (∀ (ev : Fin 256) (acts : Nat) (rose : Bool) (s : State),
    s.hr.samples.any (fun y => y.ev == ev.val && y.acts == acts && y.rose == rose) = false → exec (.eventEdgeSampled ev acts rose) s = .next s) ∧
  (∀ (ev : Fin 256) (x : EvSample) (k : Fin 16) (left : Nat) (s : State), s.hr.samples.find? (fun y => y.ev == ev.val) = some x → x.sampled = true →
    s.ringTakes k ev = true → (∀ j : Fin 16, j ≠ k → s.ringTakes j ev = false) → s.hr.holdoffs = [⟨k, ev, 0, 0, none, 0, left⟩] →
    State.risesFor x k = true →
    ∃ t, exec (.eventEdgeSampled ev x.acts x.rose) s = .next t ∧
      t.hr.holdoffs = [⟨k, ev, 1, s.sampledAt % 2 ^ 48, s.instNow k, s.quality, left⟩] ∧
      counted F.HR_RING_CNT_MERGED [k] 1 s t ∧ t.host = s.host ∧ t.hostMem = s.hostMem) ∧
  (∀ (k : Fin 16) (ev : Fin 256) (n f q left : Nat) (i : Option (Nat × Nat)) (s : State), s.hr.samples.find? (fun y => y.ev == ev.val) = none →
    s.hr.holdoffs = [⟨k, ev, n, f, i, q, left⟩] →
    (left ≠ 0 → exec (.ringHoldoffEnd k ev) s = .next s) ∧
    (left = 0 → n = 0 → exec (.ringHoldoffEnd k ev) s = .next { s with hr := { s.hr with holdoffs := [] } })) ∧
  (∀ (k : Fin 16) (ev : Fin 256) (n f q : Nat) (s : State), s.hr.samples.find? (fun y => y.ev == ev.val) = none →
    s.hr.holdoffs = [⟨k, ev, n, f, none, q, 0⟩] → 0 < n → q < 4 → n < 2 ^ 32 → f < 2 ^ 48 → s.act F.HR_RING_CFG_HOLDOFF [k] ≠ 0 →
    crosses s → s.ringRoom k 3 = true → s.host[k].evDropped = 0 →
    ∃ t, exec (.ringHoldoffEnd k ev) s = .next t ∧
      t.hr = { s.hr with holdoffs := [⟨k, ev, 0, f, none, q, s.act F.HR_RING_CFG_HOLDOFF [k]⟩] } ∧
      fieldAt (memBytes t.hostMem (s.ringBase k 3 + 16 * s.host[k].rings[3].wr) 16) 0 6 = f ∧
      fieldAt (memBytes t.hostMem (s.ringBase k 3 + 16 * s.host[k].rings[3].wr) 16) 8 4 = n ∧
      fieldAt (memBytes t.hostMem (s.ringBase k 3 + 16 * s.host[k].rings[3].wr) 16) 12 1 = ev ∧
      fieldAt (memBytes t.hostMem (s.ringBase k 3 + 16 * s.host[k].rings[3].wr) 16) 13 1 = 128 + 16 * q + 64 * (s.sampledFor k ev).toNat ∧
      fieldAt (memBytes t.hostMem (s.ringBase k 3 + 16 * s.host[k].rings[3].wr) 16) 15 1 = 1 + 128 * s.host[k].rings[3].phase.toNat ∧
      bytesKept s.hostMem t.hostMem (s.ringBase k 3 + 16 * s.host[k].rings[3].wr) 16 ∧
      t.host[k].rings[3].used = s.host[k].rings[3].used + 1 ∧ (∀ j : Fin 16, j ≠ k → t.host[j] = s.host[j]) ∧
      t = { s with regs := t.regs, hr := t.hr, host := t.host, hostMem := t.hostMem, irqs := t.irqs, stile := framesUp 3 s.stile } ∧
      regsSame [Reg.key .MSIX_PBA [k, 0], Reg.key .MSIX_PBA [k, 1]] s t) ∧
  (∀ (c : Fin 64) (s : State), s.act F.HR_SC_CFG_FILT [c] ≠ 0 →
    ∃ t, exec (.sedgeFilterSettle c) (s.cellSample c) = .next t ∧ t.hr.cells[c].nfilt = none ∧
      t.hr.cells[c].filt = (if s.cellLut c ≠ s.hr.cells[c].filt ∧ s.act F.HR_SC_CFG_FILT [c] ≤ s.hr.cells[c].count + 1 then s.cellLut c
        else s.hr.cells[c].filt) ∧
      t = { s with hr := { s.hr with cells := s.hr.cells.set c t.hr.cells[c] } }) ∧
  (∀ (c : Fin 64) (d : Bool) (s : State), s.act F.HR_SC_CFG_FF [c] = 1 → s.act F.HR_SC_CFG_EDGE [c] < 4 →
    d = (if s.act F.HR_SC_CFG_FILT [c] = 0 then s.cellLut c else s.hr.cells[c].filt) →
    ∃ t, exec (.sedgeFlipFlopCapture c) (s.cellSample c) = .next t ∧ t.hr.cells[c].ff = d ∧ t.hr.cells[c].nff = none ∧
      (t.hr.cells[c].pulse = true ↔ (s.hr.cells[c].ff ≠ d ∧
        (s.act F.HR_SC_CFG_EDGE [c] = 3 ∨ s.act F.HR_SC_CFG_EDGE [c] = (if d = true then 1 else 2)))) ∧
      t = { s with hr := { s.hr with cells := s.hr.cells.set c t.hr.cells[c] } }) ∧
  (∀ (g : Fin 16) (s : State), s.hr.cgOn.contains g.val = true → s.hr.cgOff.contains g.val = false → s.hr.cgs[g] = false →
    ∃ t, exec (.cgOnEdge g) s = .next t ∧ t.hr.cgs = s.hr.cgs.set g true ∧ t.get F.HR_CG_STAT_ENABLED [g] = 1 ∧
      counted F.HR_CG_STAT_CHANGES [g] 1 s t ∧ t.hr.cgOn = s.hr.cgOn.filter (fun x => x != g.val) ∧
      t = { s with regs := t.regs, hr := { s.hr with cgs := t.hr.cgs, cgLog := t.hr.cgLog, cgOn := t.hr.cgOn } } ∧
      regsSame [Reg.key .HR_CG_STAT [g]] s t) ∧
  (∀ (g : Fin 16) (s : State), s.hr.cgOff.contains g.val = true → s.hr.cgs[g] = true → s.hr.cgOn.contains g.val = true →
    exec (.cgOnEdge g) s = exec (.cgOffEdge g) s) ∧
  (∀ (g : Fin 16) (s : State), s.hr.cgOff.contains g.val = true → s.hr.cgs[g] = true →
    ∃ t, exec (.cgOffEdge g) s = .next t ∧ t.hr.cgs = s.hr.cgs.set g false ∧ t.get F.HR_CG_STAT_ENABLED [g] = 0 ∧
      counted F.HR_CG_STAT_CHANGES [g] 1 s t ∧ t.hr.cgOff = s.hr.cgOff.filter (fun x => x != g.val) ∧
      t = { s with regs := t.regs, hr := { s.hr with cgs := t.hr.cgs, cgLog := t.hr.cgLog, cgOn := t.hr.cgOn, cgOff := t.hr.cgOff } } ∧
      regsSame [Reg.key .HR_CG_STAT [g]] s t)

/-! ### Playing units, balls and outputs -/

/-- A boundary within a row of stored vectors (R78, R169, R171, R186, R228, R234, R297): SLICE_PERIOD_START and AO_SAMPLE_SLOT_START play the next one
from the refill buffer in a slot that starts where the last one ended, an output's code being ignored under SRC 1 and 2; a pass that HOLDs extends its
last sample; UNIT_START_FROM_IDLE starts the queued segment with its first vector, and its SEG_START pulse with the first event-cycle boundary at or after
it (R315); no memory changes. -/
def Obligations.UnitsPlayTheirSegments : Prop :=
  (∀ (n : Fin 12) (tk : Nat) (balls : List BallVolts) (p : Play) (v : Nat) (rest : List Nat) (s : State),
    s.slices[n].feed.play = some p → s.unitHalted (.slice n) = false → p.seg.kind ≠ 2 → p.phase = 1 → p.wallSlip = false → p.pend = none →
    p.next < p.seg.length → p.pass < p.seg.loops → s.slices[n].feed.pins = [] → s.slices[n].feed.buf = v :: rest → s.flt.inj = none →
    s.slices[n].feed.waitAt = none → s.slices[n].feed.reqs = [] → s.gangWaits n p.seg p.segStart p.slotEnd false = false →
    s.commit.pends = [] → (∀ k : Fin 16, s.sess[k].burst = none) →
    ∃ t, exec (.slicePeriodStart n tk balls) s = .next t ∧
      t.slices[n].feed.play = some { p with
        next := p.next + 1, slotStart := p.slotEnd, slotEnd := p.slotEnd + s.tsPeriod n s.slices[n].curTs, slotQ := s.quality } ∧
      t.slices[n].feed.buf = rest ∧ t.slices[n].feed.markers = vecMarkers v ∧
      (∀ l : Fin 8, t.slices[n].lanes[l].pin = s.groupPin n l p.slotEnd (lanePin v l)) ∧
      (∀ m : Fin 12, m ≠ n → t.slices[m] = { s.slices[m] with caps := t.slices[m].caps }) ∧ t.aos = s.aos ∧ memSame s t) ∧
  (∀ (n : Fin 12) (d : Seg) (tk v : Nat) (rest : List Nat) (s : State), s.slices[n].feed.play = none → s.slices[n].feed.startAt = some tk →
    s.slices[n].feed.queue = [.seg d] → s.slices[n].feed.pins = [] → s.slices[n].feed.buf = v :: rest → d.kind ≠ 2 → 0 < d.length → 0 < d.loops →
    d.shA = none → d.shB = none → s.commit.pends = [] → s.flt.inj = none → s.calState n ≠ 4 → s.slices[n].feed.reqs = [] →
    (∀ l, l < 8 → s.laneBankOff n l = false) → (∀ k : Fin 16, s.sess[k].burst = none) →
    (∀ m : Fin 12, m ≠ n → s.slices[m].feed.play = none ∧ s.slices[m].feed.startAt = none) →
    ∃ t, exec (.unitStartFromIdle (Fin.ofNat 28 n.val)) s = .next t ∧
      t.slices[n].feed.play = some { newPlay d tk with next := 1, slotEnd := tk + s.tsPeriod n (s.segTs n d), slotQ := s.quality } ∧
      t.slices[n].feed.buf = rest ∧ t.slices[n].feed.queue = [] ∧ t.slices[n].feed.startAt = none ∧ t.slices[n].curTs = s.segTs n d ∧
      (∀ l : Fin 8, t.slices[n].lanes[l].pin = s.groupPin n l tk (lanePin v l) ∧ t.slices[n].lanes[l].safe = .none) ∧
      (s.hr.jlAt % 2048 = 0 → (s.hr.jlAt < tk → tk ≤ s.hr.jlAt + 2048 → ⟨1, .slPulse n 19⟩ ∈ t.due) ∧
        (tk ≤ s.hr.jlAt → (n.val, 19) ∈ t.hr.slPulses)) ∧
      (∀ m : Fin 12, m ≠ n → t.slices[m] = s.slices[m]) ∧ t.aos = s.aos ∧ memSame s t) ∧
  (∀ (o : Fin 16) (p : Play) (v : Nat) (rest : List Nat) (s : State), s.aos[o].feed.play = some p → s.unitHalted (.out o) = false → p.phase = 1 →
    p.wallSlip = false → p.pend = none → p.next < p.seg.length → p.pass < p.seg.loops → s.aos[o].feed.buf = v :: rest → s.flt.inj = none →
    s.aos[o].feed.waitAt = none → s.aos[o].feed.reqs = [] →
    ∃ t, exec (.aoSampleSlotStart o) s = .next t ∧ t.aos[o].slots = ((⟨p.slotEnd, if s.act F.AO_CFG_SRC [o] = 0 then ((v % 2 ^ 20 : Nat) : Int) else s.lastCode o, p.segStart, false⟩ : AoSlot) ::
        s.aos[o].slots).take 32 ∧
      t.aos[o].feed.buf = rest ∧ t.aos[o] = { s.aos[o] with feed := t.aos[o].feed, slots := t.aos[o].slots } ∧
      t.aos[o].feed.play = some { p with
        next := p.next + 1, slotStart := p.slotEnd, slotEnd := p.slotEnd + s.aoPeriod o, slotQ := s.quality } ∧
      (∀ i : Fin 16, i ≠ o → t.aos[i] = s.aos[i]) ∧ t = { s with regs := t.regs, aos := t.aos, due := t.due } ∧
      regsSame [Reg.key .AO_SEG_STATUS [o], Reg.key .AO_SEG_PASS [o], Reg.key .AO_SEG_VEC [o]] s t) ∧
  (∀ (o : Fin 16) (p : Play) (e : AoSlot) (old : List AoSlot) (s : State), s.aos[o].feed.play = some p → s.unitHalted (.out o) = false → p.phase = 1 →
    p.wallSlip = false → p.pend = none → p.next = p.seg.length → p.pass + 1 = p.seg.loops → p.seg.endAct = 2 → s.aos[o].slots = e :: old →
    s.aos[o].feed.waitAt = none → s.aos[o].feed.reqs = [] →
    ∃ t, exec (.aoSampleSlotStart o) s = .next t ∧ t.aos[o].slots = (⟨p.slotEnd, e.code, e.seg, true⟩ :: e :: old).take 32 ∧
      t.aos[o].feed.buf = s.aos[o].feed.buf ∧ t.aos[o] = { s.aos[o] with feed := t.aos[o].feed, slots := t.aos[o].slots } ∧ t.aos[o].feed.play = some { p with
        pass := p.pass + 1, phase := 2, slotStart := p.slotEnd, slotEnd := p.slotEnd + s.aoPeriod o, slotQ := s.quality } ∧
      (∀ i : Fin 16, i ≠ o → t.aos[i] = s.aos[i]) ∧ t = { s with regs := t.regs, aos := t.aos, due := t.due } ∧
      regsSame [Reg.key .AO_SEG_STATUS [o], Reg.key .AO_SEG_PASS [o], Reg.key .AO_SEG_VEC [o]] s t) ∧
  (∀ (o : Fin 16) (d : Seg) (tk v : Nat) (rest : List Nat) (s : State), s.aos[o].feed.play = none → s.aos[o].feed.startAt = some tk →
    s.get F.AO_STATUS_RANGE_CHG [o] = 0 → s.aos[o].feed.queue = [.seg d] → s.aos[o].feed.buf = v :: rest → 0 < d.length → 0 < d.loops →
    s.commit.pends = [] → s.flt.inj = none → d.shA = none → d.shB = none → s.aos[o].feed.reqs = [] →
    ∃ t, exec (.unitStartFromIdle (Fin.ofNat 28 (12 + o.val))) s = .next t ∧
      t.aos[o].feed.play = some { newPlay d tk with next := 1, slotEnd := tk + s.aoPeriod o, slotQ := s.quality } ∧
      t.aos[o].slots = ((⟨tk, if s.act F.AO_CFG_SRC [o] = 0 then ((v % 2 ^ 20 : Nat) : Int) else if s.aos[o].safe = .none then s.lastCode o else s.aoValue o, tk,
        false⟩ : AoSlot) :: (if s.aos[o].safe = .none then s.aos[o].slots else [⟨s.aoTick, s.aoValue o, tk, true⟩])).take 32 ∧
      t.aos[o].feed.queue = [] ∧ t.aos[o].safe = .none ∧ t.aos[o].heldVal = none ∧
      (∀ i : Fin 16, i ≠ o → t.aos[i] = s.aos[i]) ∧ t = { s with regs := t.regs, aos := t.aos, due := t.due, hr := t.hr } ∧
      regsSame [Reg.key .AO_SEG_STATUS [o], Reg.key .AO_SEG_PASS [o], Reg.key .AO_SEG_VEC [o]] s t)

/-- Reflexes, banks and spare generators (R104, R105, R113, R116, R118, R121–R123, R462): a reflex forces the lanes that name its cell to their alternate
states and no other, nor one that a commit has forced already (the model's choice, log 49), and on an idle slice gives them back; a MODE change's interval
ends; a bank that is back within 10 % of its class shows in every slice, and one that is not stays out; a spare swap runs through
its steps, is refused where TG8 serves or is bad, and shows what took over; the third check in a row that fails starts a swap. -/
def Obligations.BallsFollowTheirRanks : Prop :=
  (∀ (c : Fin 64) (s : State), ∃ t, exec (.reflexAssert c) s = .next t ∧
    (∀ (n : Fin 12) (l : Fin 8), s.reflexOf n l c = false ∨ (s.slices[n].lanes[l].forced = true ∧ s.slices[n].lanes[l].unforce = false) →
      t.slices[n].lanes[l] = s.slices[n].lanes[l] ∧ t.freshK (Reg.key .CH_LANE_CNT [n, l]) = s.freshK (Reg.key .CH_LANE_CNT [n, l])) ∧
    (∀ (n : Fin 12) (l : Fin 8), s.reflexOf n l c = true → t.slices[n].lanes[l].forced = true ∧ t.slices[n].lanes[l].unforce = false) ∧
    (∀ (n : Fin 12) (l : Fin 8), s.reflexOf n l c = true → s.slices[n].lanes[l].forced = false ∨ s.slices[n].lanes[l].unforce = true →
      counted F.CH_LANE_CNT_REFLEX_CNT [n, l] 1 s t ∧ t.slices[n].lanes[l].vec = some (laneVec s.slices[n].lanes[l])) ∧
    (∀ (n : Fin 12) (l : Fin 8), s.reflexOf n l c = true → s.slices[n].lanes[l].forced = false ∨ s.slices[n].lanes[l].unforce = true →
      s.slices[n].lanes[l].safe = .none → s.slices[n].lanes[l].held = false →
      laneEnable t.slices[n].lanes[l] s.now = decide (s.act F.CH_REFLEX_ALT [n, l] < 2)) ∧
    (∀ (n : Fin 12) (l : Fin 8), s.reflexOf n l c = true → s.slices[n].lanes[l].forced = false ∨ s.slices[n].lanes[l].unforce = true →
      s.slices[n].lanes[l].safe = .none → s.slices[n].lanes[l].held = false →
      (s.slices[n].lanes[l].lastChange.map (fun x => decide (x ≤ s.now))).getD true = true →
      laneLevel t.slices[n].lanes[l] (s.now + 246) = (if s.act F.CH_REFLEX_ALT [n, l] < 2 then s.act F.CH_REFLEX_ALT [n, l] == 1 else
        laneLevel s.slices[n].lanes[l] s.now)) ∧
    t = { s with regs := t.regs, slices := t.slices } ∧
    regsSame ((List.range 12).flatMap (fun n => (List.range 8).flatMap (fun l => [Reg.key .CH_LANE_CNT [n, l], Reg.key .EP_EDGE_CNT0 [n, l]]))) s t) ∧
  (∀ (c : Fin 64) (s : State), ∃ t, exec (.reflexDeassert c) s = .next t ∧
    (∀ (n : Fin 12) (l : Fin 8), s.act F.CH_REFLEX_CELL [n, l] ≠ c.val ∨ s.slices[n].lanes[l].forced = false →
      t.slices[n].lanes[l] = s.slices[n].lanes[l]) ∧
    (∀ (n : Fin 12) (l : Fin 8), s.act F.CH_REFLEX_CELL [n, l] = c.val → s.slices[n].lanes[l].forced = true →
      t.slices[n].lanes[l].forced = s.slices[n].feed.play.isSome ∧ t.slices[n].lanes[l].unforce = s.slices[n].feed.play.isSome) ∧
    (∀ (n : Fin 12) (l : Fin 8) (v : Track), s.act F.CH_REFLEX_CELL [n, l] = c.val → s.slices[n].lanes[l].forced = true →
      s.slices[n].feed.play = none → s.slices[n].lanes[l].safe = .none → s.slices[n].lanes[l].held = false → s.slices[n].lanes[l].vec = some v →
      laneEnable t.slices[n].lanes[l] s.now = laneEnable (trackLane s.slices[n].lanes[l] v) s.now) ∧
    t = { s with slices := t.slices }) ∧
  (∀ (n : Fin 12) (l : Fin 8) (s : State), ∃ t, exec (.modeChangeHizEnd n l) s = .next t ∧
    t.slices[n].lanes[l].hiz = false ∧ (s.slices[n].lanes[l].hiz = true → t.slices[n].lanes[l].hizTo = s.now) ∧
    t.slices[n].lanes[l].kept = s.laneBankOff n l ∧
    (∀ j : Fin 8, j ≠ l → t.slices[n].lanes[j] = laneKeep s.slices[n].lanes[j] s.now (s.laneBankOff n j || s.slices[n].lanes[j].hiz)) ∧
    t.slices[n] = { s.slices[n] with lanes := t.slices[n].lanes, strobes := t.slices[n].strobes } ∧
    (∀ m : Fin 12, m ≠ n → t.slices[m] = s.slices[m]) ∧ t = { s with slices := t.slices }) ∧
  (∀ (b : Bool) (mv : Nat) (s : State), s.bankInRange b mv = false → exec (.supplyBankReturn ⟨b, mv⟩) s = .next (s.bankVolts b mv)) ∧
  (∀ (b : Bool) (mv : Nat) (s : State), s.bankInRange b mv = true → ∃ t, exec (.supplyBankReturn ⟨b, mv⟩) s = .next t ∧
    bitOf (t.get F.FLT_SUPPLY_OK) (if b then 4 else 3) = true ∧
    (∀ i, i ≠ (if b then 4 else 3) → bitOf (t.get F.FLT_SUPPLY_OK) i = bitOf (s.get F.FLT_SUPPLY_OK) i) ∧
    (∀ n : Fin 12, t.get (if b then F.CH_BANK_STATUS_VIOB_OK else F.CH_BANK_STATUS_VIOA_OK) [n] = 1 ∧
      t.get (if b then F.CH_BANK_STATUS_VIOA_OK else F.CH_BANK_STATUS_VIOB_OK) [n] =
        s.get (if b then F.CH_BANK_STATUS_VIOA_OK else F.CH_BANK_STATUS_VIOB_OK) [n]) ∧
    (∀ n : Fin 12, t.slices[n] = { s.slices[n] with strobes := t.slices[n].strobes, lanes := t.slices[n].lanes }) ∧
    (∀ (n : Fin 12) (l : Fin 8), s.sliceBank n = b → s.slices[n].lanes[l].hiz = false → t.slices[n].lanes[l].kept = false) ∧
    (∀ (n : Fin 12) (l : Fin 8), s.slices[n].lanes[l].kept = (t.laneBankOff n l || s.slices[n].lanes[l].hiz) →
      t.slices[n].lanes[l] = s.slices[n].lanes[l]) ∧
    t = { s.bankVolts b mv with regs := t.regs, slices := t.slices } ∧
    regsSame (Reg.key .FLT_SUPPLY [] :: (List.range 12).map (fun n => Reg.key .CH_BANK_STATUS [n])) s t) ∧
  (∀ (n : Fin 12) (l : Fin 8) (s : State), crosses s → s.get F.CH_SPARE_STATUS_BUSY [n] = 0 → s.get F.CH_SPARE_STATUS_IN_USE [n] = 0 →
    s.get F.FLT_SC_STAT_TG8_BAD [n] = 0 → s.cal.run = none →
    ∃ t, exec (.spareForce n l) s = .next t ∧ t.get F.CH_SPARE_STATUS_BUSY [n] = 1 ∧ t.get F.CH_SPARE_CTRL_LANE [n] = l ∧
      t.slices[n].swap = some ⟨l, false, 1, s.now⟩ ∧ t.slices[n].lanes[l].held = true ∧
      (∀ i : Fin 8, i ≠ l → t.slices[n].lanes[i] = s.slices[n].lanes[i]) ∧ (∀ m : Fin 12, m ≠ n → t.slices[m] = s.slices[m]) ∧
      t = { s with regs := t.regs, slices := t.slices, stile := framesDown 1 s.stile } ∧
      regsSame [Reg.key .CH_SPARE_STATUS [n], Reg.key .CH_SPARE_CTRL [n]] s t) ∧
  (∀ (n : Fin 12) (l : Fin 8) (s : State), crosses s → s.get F.CH_SPARE_STATUS_BUSY [n] = 0 →
    s.get F.CH_SPARE_STATUS_IN_USE [n] = 1 ∨ s.get F.FLT_SC_STAT_TG8_BAD [n] = 1 →
    exec (.spareForce n l) s = .next { (s.set F.CH_SPARE_CTRL_LANE [n] l).raise F.CH_SPARE_STATUS_FORCE_REFUSED [n] with
      stile := framesDown 1 s.stile }) ∧
  (∀ (n : Fin 12) (l : Fin 8) (err : Int) (s : State), crosses s → s.get F.CH_SPARE_STATUS_BUSY [n] = 0 → s.get F.CH_SPARE_STATUS_IN_USE [n] = 1 →
    s.get F.CH_SPARE_STATUS_LANE [n] = l → s.sliceBusy n = false → s.flt.inj = none → err.natAbs ≤ s.get F.FLT_SC_CFG_TOL → s.cal.run = none →
    ∃ t, exec (.spareRestore n l err) s = .next t ∧ t.get F.CH_SPARE_STATUS_BUSY [n] = 1 ∧ t.slices[n].swap = some ⟨l, true, 1, s.now⟩ ∧
      t.slices[n].lanes[l].held = true ∧ (∀ m : Fin 12, m ≠ n → t.slices[m] = s.slices[m]) ∧
      t = { s with regs := t.regs, slices := t.slices, stile := framesDown 1 s.stile } ∧
      regsSame [Reg.key .CH_SPARE_STATUS [n], Reg.key .CH_SPARE_CTRL [n]] s t) ∧
  (∀ (n : Fin 12) (w : SpareSwap) (s : State), s.slices[n].swap = some w → w.stage = 1 →
    exec (.spareTg8Connected n) s = .next { s with slices := s.slices.set n { s.slices[n] with swap := some { w with stage := 2 } } }) ∧
  (∀ (n : Fin 12) (w : SpareSwap) (s : State), s.slices[n].swap = some w → w.stage = 2 →
    exec (.spareTrimsSettled n) s = .next { s with slices := s.slices.set n { s.slices[n] with swap := some { w with stage := 3 } } }) ∧
  (∀ (n : Fin 12) (w : SpareSwap) (s : State), s.slices[n].swap = some w → w.stage = 3 →
    exec (.spareLoopbackCheck n true) s = .next { s with slices := s.slices.set n { s.slices[n] with swap := some { w with stage := 4 } } }) ∧
  (∀ (n : Fin 12) (w : SpareSwap) (s : State), s.slices[n].swap = some w → w.stage = 4 →
    ∃ t, exec (.spareTakeover n) s = .next t ∧ t.slices[n].swap = none ∧ t.slices[n].lanes[w.lane].held = false ∧
      t.get F.CH_SPARE_STATUS_BUSY [n] = 0 ∧ t.get F.CH_SPARE_STATUS_IN_USE [n] = (!w.restore).toNat ∧
      t.get F.CH_SPARE_STATUS_LANE [n] = w.lane ∧ t.get F.CH_SPARE_STATUS_LAST_GAP [n] = min (10 * (s.now - w.start) / 16384) 65535 ∧
      (∀ m : Fin 12, m ≠ n → t.slices[m] = s.slices[m]) ∧
      t = { s with regs := t.regs, slices := t.slices, due := s.due ++ [⟨1, .slPulse n 18⟩] } ∧
      regsSame [Reg.key .CH_SPARE_STATUS [n], Reg.key .EP_EDGE_CNT0 [n, w.lane]] s t) ∧
  (∀ (n : Fin 12) (g : Fin 9) (err : Int) (s : State), s.get F.FLT_SC_CFG_PERIOD ≠ 0 → s.sliceStale n = false → s.flt.inj = none →
    err.natAbs ≤ s.get F.FLT_SC_CFG_TOL →
    ∃ t, exec (.tgSelfCheck n g err) s = .next t ∧ bitOf (t.get F.FLT_SC_STAT_FAILING [n]) g = false ∧ t.flt.scFails[n][g] = 0 ∧
      (t.get F.FLT_SC_STAT_TG8_BAD [n] = if g = 8 then 0 else s.get F.FLT_SC_STAT_TG8_BAD [n]) ∧
      t = { s with regs := t.regs, flt := { s.flt with scFails := t.flt.scFails } } ∧ regsSame [Reg.key .FLT_SC_STAT [n]] s t) ∧
  (∀ (n : Fin 12) (l : Fin 8) (err : Int) (s : State), s.get F.FLT_SC_CFG_PERIOD ≠ 0 → s.sliceStale n = false → s.flt.inj = none →
    s.get F.FLT_SC_CFG_TOL < err.natAbs → s.flt.scFails[n][Fin.ofNat 9 l.val] = 2 → s.slices[n].swap = none →
    s.get F.CH_SPARE_STATUS_BUSY [n] = 0 → s.get F.CH_SPARE_STATUS_IN_USE [n] = 0 → s.get F.FLT_SC_STAT_TG8_BAD [n] = 0 → s.cal.run = none →
    ∃ t, exec (.tgSelfCheck n (Fin.ofNat 9 l.val) err) s = .next t ∧ bitOf (t.get F.FLT_SC_STAT_FAILING [n]) l = true ∧
      t.flt.scFails[n][Fin.ofNat 9 l.val] = 0 ∧ bitOf (t.get F.CH_SPARE_STATUS_FAILED [n]) l = true ∧
      t.slices[n].swap = some ⟨l, false, 1, s.now⟩ ∧ t.slices[n].lanes[l].held = true ∧ counted F.FLT_CNT_COUNT [0x14] 1 s t)

/-- Outputs and calibration (R300, R301, R305–R308, R311, R312, R343–R348, R351): the oscillator's accumulator and code, the limiter's moves, the
detectors, the monitor and the second step of a range change; a command or an interval makes a unit due, the first due unit that nothing blocks runs, and
its attempts accept it, repeat or fail it. -/
def Obligations.OutputsMoveAndCalibrate : Prop :=
  (∀ (o : Fin 16) (s : State), s.aos[o].accAt = some s.edgeNow → exec (.phaseAccumulatorAdd o) s = .next s) ∧
  (∀ (o : Fin 16) (s : State), s.act F.AO_CFG_SRC [o] = 0 → s.aos[o].accAt ≠ some s.edgeNow →
    ∃ t, exec (.phaseAccumulatorAdd o) s = .next t ∧
      t.aos[o].acc = (s.aos[o].acc + s.act F.AO_FTW_LO_FTW [o] + 2 ^ 32 * s.act F.AO_FTW_HI_FTW [o]) % 2 ^ 48 ∧
      t.aos[o] = { s.aos[o] with acc := t.aos[o].acc, phoff := t.aos[o].phoff, accAt := some s.edgeNow } ∧ (∀ i : Fin 16, i ≠ o → t.aos[i] = s.aos[i]) ∧
      t = { s with aos := t.aos }) ∧
  (∀ (o : Fin 16) (s : State), s.act F.AO_CFG_SRC [o] = 1 → s.aos[o].phoff = s.act F.AO_NCO_PHOFF [o] →
    s.aos[o].accAt ≠ some s.edgeNow →
    ∃ t, exec (.phaseAccumulatorAdd o) s = .next t ∧ t.aos[o].phoff = s.aos[o].phoff ∧
      t.aos[o].acc = (s.aos[o].acc + s.act F.AO_FTW_LO_FTW [o] + 2 ^ 32 * s.act F.AO_FTW_HI_FTW [o]) % 2 ^ 48 ∧
      t.aos[o].oscs.head?.map (fun (x : Nat × Nat) => (x.1, (x.2 : Int))) = some (s.edgeNow, max 0 (min 1048575 ((s.act F.AO_OFFSET_OFFSET [o] : Int) + State.sineTerm (s.act F.AO_AMPL_AMPL [o])
        (bitsOf ((t.aos[o].acc + t.aos[o].phoff * 2 ^ 32) % 2 ^ 48) 36 12) (bitsOf ((t.aos[o].acc + t.aos[o].phoff * 2 ^ 32) % 2 ^ 48) 20 16)))) ∧
      (s.act F.AO_AMPL_AMPL [o] = 0 ∨ (t.aos[o].acc + t.aos[o].phoff * 2 ^ 32) % 2 ^ 47 = 0 →
        t.aos[o].oscs.head? = some (s.edgeNow, min 1048575 (s.act F.AO_OFFSET_OFFSET [o]))) ∧
      (∀ i : Fin 16, i ≠ o → t.aos[i] = s.aos[i]) ∧ t = { s with regs := t.regs, aos := t.aos } ∧ regsSame [Reg.key .AO_CLIP [o]] s t) ∧
  (∀ (o : Fin 16) (s : State), s.act F.AO_CFG_SRC [o] = 2 → s.aos[o].phoff = s.act F.AO_NCO_PHOFF [o] → s.act F.AO_NCO_TINTERP [o] = 0 →
    s.act F.AO_NCO_TBITS [o] ≤ 14 → s.flt.inj = none → s.aos[o].accAt ≠ some s.edgeNow →
    ∃ t, exec (.phaseAccumulatorAdd o) s = .next t ∧
      t.aos[o].acc = (s.aos[o].acc + s.act F.AO_FTW_LO_FTW [o] + 2 ^ 32 * s.act F.AO_FTW_HI_FTW [o]) % 2 ^ 48 ∧
      t.aos[o].oscs.head? = some (s.edgeNow,
        (s.aoEntry o ((t.aos[o].acc + t.aos[o].phoff * 2 ^ 32) % 2 ^ 48 / 2 ^ (48 - s.act F.AO_NCO_TBITS [o]))).toNat % 2 ^ 20) ∧
      t.aos[o] = { s.aos[o] with acc := t.aos[o].acc, oscs := t.aos[o].oscs, accAt := some s.edgeNow } ∧
      (∀ i : Fin 16, i ≠ o → t.aos[i] = s.aos[i]) ∧ t = { s with aos := t.aos }) ∧
  (∀ (o : Fin 16) (s : State), s.aoLimited o = false ∨ s.slewDue o = false → exec (.aoSlewMove o) s = .next s) ∧
  (∀ (o : Fin 16) (s : State), s.aoLimited o = true → s.slewDue o = true →
    ∃ t, exec (.aoSlewMove o) s = .next t ∧
      (t.aos[o].value - s.aos[o].value).natAbs ≤ (if s.act F.AO_SLEW_EN [o] = 1 then s.act F.AO_SLEW_STEP [o] else 13) ∧
      ((s.aoTarget o - s.aos[o].value).natAbs ≤ (if s.act F.AO_SLEW_EN [o] = 1 then s.act F.AO_SLEW_STEP [o] else 13) →
        t.aos[o].value = s.aoTarget o) ∧
      t.aos[o] = { s.aos[o] with value := t.aos[o].value, slewAt := some s.edgeNow, moving := t.aos[o].moving } ∧
      (∀ i : Fin 16, i ≠ o → t.aos[i] = s.aos[i]) ∧ t = { s with aos := t.aos }) ∧
  (∀ (o : Fin 16) (s : State), s.get F.AO_STATUS_COMPLIANCE [o] = 0 → s.get F.AO_STATUS_RANGE_CHG [o] = 0 → s.act F.AO_CFG_SUPV_ACT [o] = 0 →
    s.flt.inj = none →
    ∃ t, exec (.aoDetectorSet o false) s = .next t ∧ t.get F.AO_STATUS_COMPLIANCE [o] = 1 ∧ counted F.AO_SUPV_CNT_COMPLIANCE_CNT [o] 1 s t ∧
      counted F.FLT_CNT_COUNT [0x15] 1 s t ∧ t = { s with regs := t.regs, due := s.due ++ [⟨1, .aoPulse o 4⟩] } ∧
      regsSame [Reg.key .AO_STATUS [o], Reg.key .AO_SUPV_CNT [o], Reg.key .FLT_CNT [0x15]] s t) ∧
  (∀ (o : Fin 16) (s : State), 4 ≤ s.act F.AO_CFG_SPAN [o] → s.get F.AO_STATUS_COMPLIANCE [o] = 1 → s.get F.AO_STATUS_OPEN_LOAD [o] = 0 →
    s.get F.AO_STATUS_RANGE_CHG [o] = 0 → s.act F.AO_CFG_SUPV_ACT [o] = 0 → s.flt.inj = none →
    1000000 * 2 ^ 20 ≤ codeValue (s.act F.AO_CFG_SPAN [o]) (s.aoTarget o) →
    ∃ t, exec (.aoDetectorSet o true) s = .next t ∧ t.get F.AO_STATUS_OPEN_LOAD [o] = 1 ∧ counted F.AO_SUPV_CNT_OPEN_CNT [o] 1 s t ∧
      counted F.FLT_CNT_COUNT [0x15] 1 s t ∧ t = { s with regs := t.regs, due := s.due ++ [⟨1, .aoPulse o 5⟩] } ∧
      regsSame [Reg.key .AO_STATUS [o], Reg.key .AO_SUPV_CNT [o], Reg.key .FLT_CNT [0x15]] s t) ∧
  (∀ (o : Fin 16) (open_ : Bool) (s : State),
    ∃ t, exec (.aoDetectorClear o open_) s = .next t ∧
      t.get F.AO_STATUS_COMPLIANCE [o] = (if open_ then s.get F.AO_STATUS_COMPLIANCE [o] else 0) ∧
      t.get F.AO_STATUS_OPEN_LOAD [o] = 0 ∧
      t = { s with regs := t.regs } ∧ regsSame [Reg.key .AO_STATUS [o]] s t) ∧
  (∀ (o : Fin 16) (v i : Int) (s : State), -32768 ≤ v → v < 32768 → -32768 ≤ i → i < 32768 →
    ∃ t, exec (.aoMonUpdate o v i) s = .next t ∧ signedOf (t.get F.AO_MON_FORCE_V [o]) 16 = v ∧ signedOf (t.get F.AO_MON_LOAD_I [o]) 16 = i ∧
      t = { s with regs := t.regs } ∧ regsSame [Reg.key .AO_MON [o]] s t) ∧
  (∀ (o : Fin 16) (s : State), s.get F.AO_STATUS_RANGE_CHG [o] = 1 → 3276800 ≤ (s.now : Int) - s.aos[o].rangeAt →
    s.aos[o].feed.queue = [] →
    ∃ t, exec (.aoRangeEnable o) s = .next t ∧ t.get F.AO_STATUS_RANGE_CHG [o] = 0 ∧
      t.aos = s.aos.set o { s.aos[o] with clamped := false, value := parkCode (s.act F.AO_CFG_SPAN [o]) s.aos[o].park, moving := true } ∧
      t.aoDrive o = (if s.act F.AO_CFG_SPAN [o] < 4 then
          .voltage (codeValue (s.act F.AO_CFG_SPAN [o]) (parkCode (s.act F.AO_CFG_SPAN [o]) s.aos[o].park)) (s.act F.AO_CFG_SENSE [o] == 1)
        else .current (codeValue (s.act F.AO_CFG_SPAN [o]) (parkCode (s.act F.AO_CFG_SPAN [o]) s.aos[o].park))) ∧
      t = { s with regs := t.regs, aos := t.aos } ∧ regsSame [Reg.key .AO_STATUS [o]] s t) ∧
  (∀ s : State, s.flt.inj = none → (∀ o : Fin 16, s.ownerAo o = none) → s.cal.run = none →
    ∃ t, exec .supplyAo s = .next t ∧ bitOf (t.get F.FLT_SUPPLY_OK) 2 = false ∧ counted F.FLT_CNT_COUNT [0x12] 1 s t ∧
      (∀ o : Fin 16, t.aos[o].safe = .fault ∧ t.aos[o].heldVal = none ∧ t.aos[o].feed.play = none ∧ t.aos[o].feed.queue = []) ∧
      t.slices = s.slices ∧ memSame s t) ∧
  (∀ (u : Fin 36) (s : State), crosses s → State.calCode u = true → s.calState u < 2 → s.cal.due = [] →
    ∃ t, exec (.calCmd (Fin.ofNat 64 u.val)) s = .next t ∧ t.cal.due = [(s.now / 2048, u.val)] ∧ t.cal.units[u].cause = 3 ∧ t.calState u = 2 ∧
      t.get F.CAL_STATUS_DUE = 1 ∧ (∀ w : Fin 36, w ≠ u → t.cal.units[w] = s.cal.units[w]) ∧
      t = { s with regs := t.regs, cal := { s.cal with due := t.cal.due, units := t.cal.units }, stile := framesDown 1 s.stile } ∧
      regsSame [Reg.key .CAL_UNIT_STAT [u], Reg.key .CAL_STATUS []] s t) ∧
  (∀ (u : Fin 36) (s : State), State.calCode u = true → s.calState u < 2 → s.cal.due = [] → s.get F.CAL_CFG_AUTO_EN = 1 →
    s.get F.CAL_INTERVAL_SECONDS ≠ 0 → s.cal.units[u].start + s.get F.CAL_INTERVAL_SECONDS * 1638400000000 ≤ (s.now : Int) →
    ∃ t, exec (.calIntervalExpiry u) s = .next t ∧ t.cal.due = [(s.now / 2048, u.val)] ∧ t.cal.units[u].cause = 2 ∧ t.calState u = 2 ∧
      t = { s with regs := t.regs, cal := { s.cal with due := t.cal.due, units := t.cal.units } } ∧
      regsSame [Reg.key .CAL_UNIT_STAT [u], Reg.key .CAL_STATUS []] s t) ∧
  (∀ (u : Fin 36) (c : Nat) (s : State), s.cal.run = none → s.cal.due = [(c, u.val)] → s.calBlocked u = false → u.val < 16 →
    ∃ t, exec .calRunStart s = .next t ∧ t.cal.run = some u ∧ t.cal.fails = 0 ∧ t.cal.due = [] ∧ t.calState u = 3 ∧ t.get F.CAL_STATUS_BUSY = 1 ∧
      t.get F.CAL_STATUS_UNIT = u ∧ t.get F.CAL_STATUS_DUE = 0 ∧ t.get F.CAL_UNIT_STAT_FAILED [u] = 0 ∧
      t.cal.units[u].runTemp = s.cal.lastTemp ∧ t.cal.units[u].runStart = (s.now : Int) ∧
      (∀ n : Fin 12, t.slices[n] = { s.slices[n] with staleIn := s.slices[n].staleIn || (decide (n.val = u.val) && s.slices[n].feed.play.isSome) }) ∧
      t = { s with regs := t.regs, slices := t.slices, cal := t.cal } ∧
      regsSame [Reg.key .CAL_UNIT_STAT [u], Reg.key .CAL_STATUS []] s t) ∧
  (∀ (u : Fin 36) (a b : List Int) (quals : List Nat) (s : State), s.cal.run = some u → 32 ≤ u.val → s.cal.units[u].heldCause = none →
    State.calAgree u a b = true → s.portUp (Fin.ofNat 4 u) = false →
    ∃ t, exec (.calAttemptEnd ⟨a, b⟩ quals) s = .next t ∧ t.cal.run = none ∧ t.calState u = 1 ∧ t.get F.CAL_UNIT_STAT_DEGRADED [u] = 0 ∧
      t.get F.CAL_STATUS_BUSY = 0 ∧ t.cal.units[u].accepted = true ∧ t.cal.units[u].temp = s.cal.units[u].runTemp ∧
      t.cal.units[u].trims = State.calMean u a b ∧ t.cal.units[u].start = s.cal.units[u].runStart ∧
      (∀ w : Fin 36, w ≠ u → t.cal.units[w] = s.cal.units[w]) ∧
      counted F.CAL_UNIT_CNT_ACCEPTED [u] 1 s t ∧ t = { s with regs := t.regs, cal := t.cal } ∧
      regsSame [Reg.key .CAL_UNIT_STAT [u], Reg.key .CAL_STATUS [], Reg.key .CAL_UNIT_CNT [u], Reg.key .CAL_LN_QUAL [2 * (u.val - 32)],
        Reg.key .CAL_LN_QUAL [2 * (u.val - 32) + 1]] s t) ∧
  (∀ (n : Fin 12) (a b : List Int) (quals : List Nat) (s : State), s.cal.run = some (Fin.ofNat 36 n.val) → s.slices[n].feed.play ≠ none →
    State.calAgree n a b = true →
    ∃ t, exec (.calAttemptEnd ⟨a, b⟩ quals) s = .next t ∧
      t.cal = { s.cal with
        run := none, fails := 0,
        units := s.cal.units.set (Fin.ofNat 36 n.val) { s.cal.units[Fin.ofNat 36 n.val] with cand := State.calMean n a b } } ∧ t.calState n = 4 ∧
      t.get F.CAL_STATUS_BUSY = 0 ∧ counted F.CAL_UNIT_CNT_ACCEPTED [n] 1 s t ∧ t = { s with regs := t.regs, cal := t.cal }) ∧
  (∀ (u : Fin 36) (a b : List Int) (quals : List Nat) (s : State), s.cal.run = some u → s.cal.fails < 3 → State.calAgree u a b = false →
    ∃ t, exec (.calAttemptEnd ⟨a, b⟩ quals) s = .next t ∧ t.cal = { s.cal with fails := s.cal.fails + 1 } ∧
      t.get F.CAL_UNIT_STAT_FAILED [u] = s.cal.fails + 1 ∧ t = { s with regs := t.regs, cal := t.cal } ∧ regsSame [Reg.key .CAL_UNIT_STAT [u]] s t) ∧
  (∀ (u : Fin 36) (a b : List Int) (quals : List Nat) (s : State), s.cal.run = some u → s.cal.fails = 3 → u.val < 16 →
    s.cal.units[u].heldCause = none → State.calAgree u a b = false →
    ∃ t, exec (.calAttemptEnd ⟨a, b⟩ quals) s = .next t ∧ t.cal.run = none ∧ t.get F.CAL_UNIT_STAT_DEGRADED [u] = 1 ∧
      t.get F.CAL_UNIT_STAT_FAILED [u] = 3 ∧ counted F.CAL_UNIT_CNT_REJECTED [u] 1 s t ∧ t.get F.CAL_STATUS_BUSY = 0 ∧
      t = { s with regs := t.regs, cal := t.cal } ∧ regsSame [Reg.key .CAL_UNIT_STAT [u], Reg.key .CAL_STATUS [], Reg.key .CAL_UNIT_CNT [u]] s t)

/-- Pattern paging and jump requests (R175, R176, R179–R182, R215–R222, R226–R228, R457): a request waits at the units whose segment names a line that
rose, unless one waits already, and later where the edge lies in a slot that has not started; a shadow whose head is present is staged; a walk leaves a translation or holds a fault; a fill leaves the page's bytes or
holds one; a late fill is marked; a refill read delivers the stream's next vector, or holds a fault on an uncorrectable error. -/
def Obligations.PatternsArePaged : Prop :=
  (∀ (lines v e : Nat) (s : State), v = lines &&& s.hr.jlRise → e = s.hr.jlAt → ∃ t, exec (.jumpRequest lines) s = .next t ∧
    (∀ (u : Fin 28) (p : Play), (s.feed (State.playUnit u)).play = some p → t.feed (State.playUnit u) =
      if p.slotEnd ≤ e then { s.feed (State.playUnit u) with reqs := (s.feed (State.playUnit u)).reqs ++ [(e, v)] }
      else if e < p.segStart ∨ p.wallSlip = true ∨ p.pend.isSome = true ∨ (State.lineHit v p.seg.jsrcA = false ∧ State.lineHit v p.seg.jsrcB = false) then
        s.feed (State.playUnit u)
      else { s.feed (State.playUnit u) with play := some { p with pend := some (!State.lineHit v p.seg.jsrcA, e) } }) ∧
    (∀ u : Fin 28, (s.feed (State.playUnit u)).play = none → t.feed (State.playUnit u) =
      if (s.feed (State.playUnit u)).startAt.any (fun x => decide (x ≤ e)) then
        { s.feed (State.playUnit u) with reqs := (s.feed (State.playUnit u)).reqs ++ [(e, v)] }
      else s.feed (State.playUnit u)) ∧
    (∀ (n : Fin 12) (p : Play), s.slices[n].feed.play = some p → p.segStart ≤ e → e < p.slotEnd → p.wallSlip = false →
      counted F.EP_JUMP_CNT0_MERGED [n]
        ((State.lineHit v p.seg.jsrcA).toNat + (State.lineHit v p.seg.jsrcB).toNat - (if p.pend.isSome then 0 else 1)) s t) ∧
    (∀ n : Fin 12, t.slices[n] = { s.slices[n] with feed := t.slices[n].feed }) ∧ (∀ o : Fin 16, t.aos[o] = { s.aos[o] with feed := t.aos[o].feed }) ∧
    t = { s with regs := t.regs, slices := t.slices, aos := t.aos, hr := { s.hr with jlRise := s.hr.jlRise ^^^ v } } ∧
    regsSame ((List.range 12).map (fun n => Reg.key .EP_JUMP_CNT0 [n]) ++ (List.range 16).map (fun o => Reg.key .AO_JUMP_CNT0 [o])) s t) ∧
  (∀ (u : Fin 28) (which : Bool) (p : Play) (d : Seg) (s : State), (s.feed (State.playUnit u)).play = some p → p.wallSlip = false →
    State.isStaged p which = false → p.desc which = some d → s.flt.inj = none → d.kind ≠ 2 →
    64 ≤ presentFrom (s.feed (State.playUnit u)) d (if which then p.bufB else p.bufA) 0 →
    exec (.shadowStaged u which) s = .next (s.modPlay (State.playUnit u) (fun q => if which then { q with stagedB := true } else { q with stagedA := true }))) ∧
  (∀ (k : Fin 16) (page ecc : Nat) (s : State), s.sess[k].walks.contains page = false → s.inWindow k page = false →
    exec (.pageTableWalkDone k page ecc) s = .next s) ∧
  (∀ (k : Fin 16) (page x b : Nat) (s : State), s.sess[k].walks.contains page = true ∨ s.inWindow k page = true → s.viewSize k ≠ 0 → s.flt.inj = none → x < 2 ^ 17 → b < 2 ^ 48 →
    s.viewQuad k (s.walkL1 k page) = 1 + 2 ^ 19 * x → s.inView k (x * 2 ^ 19 + 8 * (page % 65536)) 8 = true →
    s.viewQuad k (x * 2 ^ 19 + 8 * (page % 65536)) = 1 + 2 ^ 16 * b → s.inView k (b * 65536) 65536 = true →
    exec (.pageTableWalkDone k page 0) s = .next { s with sess := s.sess.set k { s.sess[k] with
      walks := s.sess[k].walks.filter (fun p => p != page), held := s.sess[k].held.filter (fun h => h.1 != page),
      xlates := ⟨page, 0, b * 65536⟩ :: s.sess[k].xlates.filter (fun e => e.page != page) } }) ∧
  (∀ (k : Fin 16) (page ecc : Nat) (s : State), s.sess[k].walks.contains page = true ∨ s.inWindow k page = true → s.viewSize k = 0 →
    exec (.pageTableWalkDone k page ecc) s = .next { s with sess := s.sess.set k { s.sess[k] with
      walks := s.sess[k].walks.filter (fun p => p != page), held := (page, 1) :: s.sess[k].held.filter (fun h => h.1 != page) } }) ∧
  (∀ (k : Fin 16) (page : Nat) (s : State), s.sess[k].walks.contains page = true ∨ s.inWindow k page = true → s.viewSize k ≠ 0 → s.flt.inj = none →
    bitOf (s.viewQuad k (s.walkL1 k page)) 0 = false →
    exec (.pageTableWalkDone k page 0) s = .next { s with sess := s.sess.set k { s.sess[k] with
      walks := s.sess[k].walks.filter (fun p => p != page), held := (page, 1) :: s.sess[k].held.filter (fun h => h.1 != page) } }) ∧
  (∀ (k : Fin 16) (page : Nat) (s : State), s.sess[k].walks.contains page = true ∨ s.inWindow k page = true → s.viewSize k ≠ 0 → s.flt.inj = none →
    ∃ t, exec (.pageTableWalkDone k page 2) s = .next t ∧ t.sess = s.sess.set k { s.sess[k] with
        walks := s.sess[k].walks.filter (fun p => p != page), held := (page, 2) :: s.sess[k].held.filter (fun h => h.1 != page) } ∧
      counted F.FLT_CNT_COUNT [1] 1 s t ∧ t = { s with regs := t.regs, sess := t.sess } ∧
      regsSame [Reg.key .FLT_CNT [1], Reg.key .FLT_DDR_ADDR_LO [], Reg.key .FLT_DDR_ADDR_HI []] s t) ∧
  (∀ (k : Fin 16) (page i bus : Nat) (late : Bool) (data : List Byte) (s : State), s.sess[k].pages = [⟨page, some i, bus, false, late⟩] →
    data.length ≤ 65536 →
    ∃ t, exec (.pageFillComplete k page false data) s = .next t ∧
      memBytes t.ddr (s.viewPhys k (s.slotView k i)) data.length = data ∧ bytesKept s.ddr t.ddr (s.viewPhys k (s.slotView k i)) data.length ∧
      t.sess = s.sess.set k { s.sess[k] with pages := [⟨page, some i, bus, true, late⟩] } ∧ counted F.VS_PC_CNT_FILLS [k] 1 s t ∧
      t = { s with regs := t.regs, ddr := t.ddr, sess := t.sess } ∧ regsSame [Reg.key .VS_PC_CNT [k]] s t) ∧
  (∀ (k : Fin 16) (page bus : Nat) (slot : Option Nat) (late : Bool) (data : List Byte) (s : State),
    s.sess[k].pages = [⟨page, slot, bus, false, late⟩] →
    exec (.pageFillComplete k page true data) s = .next { s with sess := s.sess.set k { s.sess[k] with
      pages := [], held := (page, 5) :: s.sess[k].held.filter (fun h => h.1 != page) } }) ∧
  (∀ (k : Fin 16) (page bus : Nat) (slot : Option Nat) (s : State), s.sess[k].pages = [⟨page, slot, bus, false, false⟩] →
    exec (.fillTimeout k page) s = .next { s with sess := s.sess.set k { s.sess[k] with pages := [⟨page, slot, bus, false, true⟩] } }) ∧
  (∀ (u : Fin 28) (k : Fin 16) (d : Seg) (x : Nat) (s : State), (s.feed (State.playUnit u)).sess = k → (s.feed (State.playUnit u)).play = none →
    (s.feed (State.playUnit u)).queue = [.seg d] → (s.feed (State.playUnit u)).pins = [] → (s.feed (State.playUnit u)).buf = [] → d.kind ≠ 2 → 0 < d.length →
    s.vecData k (s.vecVa (State.playUnit u) d 0) = some x → s.flt.inj = none →
    exec (.refillReadComplete u 0 1 0) s =
      .next ((s.modFeed (State.playUnit u) (fun f => { f with buf := [x] })).touchPage k (s.vecVa (State.playUnit u) d 0 / 65536))) ∧
  (∀ (u : Fin 28) (k : Fin 16) (d : Seg) (a : Nat) (s : State), (s.feed (State.playUnit u)).sess = k → (s.feed (State.playUnit u)).play = none →
    (s.feed (State.playUnit u)).queue = [.seg d] → (s.feed (State.playUnit u)).pins = [] → (s.feed (State.playUnit u)).buf = [] → d.kind ≠ 2 → 0 < d.length →
    s.pageData k (s.vecVa (State.playUnit u) d 0) = some a → s.flt.inj = none →
    ∃ t, exec (.refillReadComplete u 0 1 2) s = .next t ∧ t.sess = s.sess.set k { s.sess[k] with
        held := (s.vecVa (State.playUnit u) d 0 / 65536, 4) :: s.sess[k].held.filter (fun h => h.1 != s.vecVa (State.playUnit u) d 0 / 65536) } ∧
      counted F.FLT_CNT_COUNT [1] 1 s t ∧ t = { s with regs := t.regs, sess := t.sess } ∧
      regsSame [Reg.key .FLT_CNT [1], Reg.key .FLT_DDR_ADDR_LO [], Reg.key .FLT_DDR_ADDR_HI []] s t)

/-! ### The Stile -/

/-- The Stile's messages (R23, R391, R402, R405, R408, R414–R416, R418–R423, R425): where nothing sent is unacknowledged and no replay is awaited, each is
received in the numbering of its direction and does at its receiver what its type says; a header that is discarded is counted; a frame passes its CRC and
stands on its lanes, the spare one included; and the header that a header's 32 bytes spell is that header. -/
def Obligations.TheStileCarriesMessages : Prop :=
  (∀ (toHost : Bool) (n : Fin 25) (s : State), stileReady toHost s →
    exec (.idle toHost .idle n) s = .next { s with stile := framesIn toHost 1 .idle s.stile }) ∧
  (∀ (toHost : Bool) (typ : Fin 256) (bits : Fin 32) (n : Fin 25) (s : State), stileReady toHost s →
    ∃ t, exec (.idle toHost (.reserved typ bits) n) s = .next t ∧ counted (if toHost then F.ST_CNT_BAD_MSG else F.ST_F_CNT_BAD_MSG) [] 1 s t ∧
      t = { s with regs := t.regs, stile := framesIn toHost (1 + n) (.bad toHost (badHeader typ bits n)) s.stile } ∧
      regsSame [Reg.key .ST_CNT [], Reg.key .ST_F_CNT []] s t) ∧
  (∀ (toHost : Bool) (typ : Fin 256) (n : Fin 25) (s : State), stileReady toHost s →
    ∃ t, exec (.idle toHost (.unknown typ) n) s = .next t ∧ counted (if toHost then F.ST_CNT_BAD_MSG else F.ST_F_CNT_BAD_MSG) [] 1 s t ∧
      t = { s with regs := t.regs, stile := framesIn toHost (1 + n) (.bad toHost (badHeader typ 0 n)) s.stile } ∧
      regsSame [Reg.key .ST_CNT [], Reg.key .ST_F_CNT []] s t) ∧
  (∀ s : State, stileReady true s → s.get F.ST_STATUS_FIELD = 2 → s.stile.out = [] →
    ∃ t, exec (.state 3) s = .next t ∧ t.get F.ST_STATUS_FIELD = 3 ∧ raised F.ST_EVENTS_FIELD_UP [] t ∧
      t = { s with regs := t.regs, stile := { framesIn true 1 (.state 3) s.stile with lost := false } } ∧
      regsSame [Reg.key .ST_STATUS [], Reg.key .ST_EVENTS []] s t) ∧
  (∀ (toHost : Bool) (lane : Fin 8) (s : State), stileReady toHost s →
    s.get (if toHost then F.ST_STATUS_H2F_SPARE else F.ST_STATUS_F2H_SPARE) ≠ lane →
    ∃ t, exec (.lane toHost lane) s = .next t ∧ t.get (if toHost then F.ST_STATUS_H2F_SPARE else F.ST_STATUS_F2H_SPARE) = lane ∧
      raised (if toHost then F.ST_EVENTS_SPARE_H2F else F.ST_EVENTS_SPARE_F2H) [] t ∧
      t = { s with regs := t.regs, stile := framesIn toHost 1 (.lane toHost lane) s.stile } ∧
      regsSame [Reg.key .ST_STATUS [], Reg.key .ST_EVENTS []] s t) ∧
  (∀ (off : Fin 1048576) (v : Word) (s : State), stileReady false s → off.val % 4 = 0 → keyOnHost off = false → crosses s →
    exec (.regWr off v) s = .next (State.bar0Put { s with stile := framesIn false 1 (.regWr off v) s.stile } (s.regKey off) v State.regWrite) ∧
    exec (.bar0Write none off v) s = .next (State.bar0Put { s with stile := framesDown 1 s.stile } (s.regKey off) v State.regWrite)) ∧
  (∀ (off : Fin 1048576) (s : State), stileReady false s → off.val % 4 = 0 → keyOnHost off = false → crosses s →
    ∃ t, exec (.regRd off) s = .next t ∧ ∃ u, exec (.rcFieldRead none off) s = .next u ∧
      t = { u with
        lastRead := s.lastRead, boot := t.boot,
        stile := { framesIn false 1 (.regRd off) s.stile with replies := s.stile.replies ++ [u.lastRead] } }) ∧
  (∀ (v : Word) (s : State), stileReady true s → exec (.regRsp v) s =
    .next { s with lastRead := v, stile := { framesIn true 1 (.regRsp v) s.stile with replies := s.stile.replies.drop 1 } }) ∧
  (∀ (k : Fin 16) (tag : Fin 65536) (epoch : Fin 16) (bytes : List Byte) (s : State), stileReady false s → bytes.length = 64 →
    s.host[k].live = [⟨tag, epoch, cmdOp bytes, false, false, false, 0, 0⟩] → s.host[k].queue = [] →
    exec (.cmd k tag epoch bytes) s = .next { s with
      stile := framesIn false 3 (.cmd k tag epoch bytes) s.stile, host := s.host.set k { s.host[k] with queue := [⟨tag, epoch, bytes⟩] } }) ∧
  (∀ (k : Fin 16) (c : Cmd) (rest : List Cmd) (s : State), stileReady false s → s.host[k].held = true → s.host[k].queue = c :: rest → c.tag < 65536 →
    c.epoch < 16 → s.instLive k c.tag c.epoch = true →
    ∃ t, exec (.go k (Fin.ofNat 65536 c.tag, Fin.ofNat 16 c.epoch)) s = .next t ∧ t.host[k].held = false ∧ t.host[k].queue.tail = rest ∧
      t.host[k].queue.head?.map (fun (x : Cmd) => (x.tag, x.epoch, bitOf (fieldAt x.bytes 1 1) 2)) = some (c.tag, c.epoch, false) ∧
      (∀ j : Fin 16, j ≠ k → t.host[j] = s.host[j]) ∧ t = { s with host := t.host, stile := framesIn false 1 (.go k c.tag c.epoch) s.stile }) ∧
  (∀ (k : Fin 16) (completion capture event data : Nat) (s : State), stileReady false s → s.host[k].waiting = [] → s.anyFwd k = false →
    ∃ t, exec (.credit k completion capture event data) s = .next t ∧
      t.stile.credit = s.stile.credit.filter (fun (p : Nat × Nat × Nat × Nat × Nat) => p.1 != k.val) ++ [(k.val, completion, capture, event, data)] ∧
      t = { s with stile := { framesIn false 1 (.credit k completion capture event data) s.stile with credit := t.stile.credit } }) ∧
  (∀ (k : Fin 16) (addr len : Nat) (s : State), stileReady true s → addr < 2 ^ 64 → exec (.hostRdReq k none ⟨addr, len⟩) s =
    .next { s with stile := { framesIn true 1 (.hostRdReq ⟨k, none, addr, len⟩) s.stile with
      hostReads := s.stile.hostReads ++ [⟨k, none, addr, len⟩] } }) ∧
  (∀ (k : Fin 16) (tag : Fin 65536) (epoch : Fin 16) (addr len : Nat) (s : State), stileReady true s → addr < 2 ^ 64 →
    (s.instLive k tag epoch = true → exec (.hostRdReq k (some (tag, epoch)) ⟨addr, len⟩) s =
      .next { s with stile := { framesIn true 1 (.hostRdReq ⟨k, some (tag.val, epoch.val), addr, len⟩) s.stile with
        hostReads := s.stile.hostReads ++ [⟨k, some (tag.val, epoch.val), addr, len⟩] } }) ∧
    (s.instLive k tag epoch = false → (s.host[k].stalePosted.contains (tag.val, epoch.val)) = true →
      ∃ t, exec (.hostRdReq k (some (tag, epoch)) ⟨addr, len⟩) s = .next t ∧ counted F.DB_CNT1_STALE [k] 1 s t ∧
        t = { s with regs := t.regs, stile := framesIn true 1 (.hostRdReq ⟨k, some (tag.val, epoch.val), addr, len⟩) s.stile } ∧
        regsSame [Reg.key .DB_CNT1 [k]] s t)) ∧
  (∀ (k : Fin 16) (addr len : Nat) (rest : List HostRead) (data : List Byte) (s : State), stileReady false s →
    s.stile.hostReads = ⟨k, none, addr, len⟩ :: rest →
    exec (.hostRdData k none data) s =
      .next { s with stile := { framesIn false (framesOf data.length) (.hostRdData k none data) s.stile with hostReads := rest } }) ∧
  (∀ (k : Fin 16) (addr : Nat) (data : List Byte) (s : State), stileReady true s → addr < 2 ^ 64 →
    ∃ t, exec (.hostWr k none addr data) s = .next t ∧ memBytes t.hostMem addr data.length = data ∧ bytesKept s.hostMem t.hostMem addr data.length ∧
      t = { s with hostMem := t.hostMem, stile := framesIn true (framesOf data.length) (.msg k (.hostWr addr data none)) s.stile }) ∧
  (∀ (k : Fin 16) (entry : List Byte) (s : State), stileReady true s → entry.length = 64 → s.ringRoom k 2 = true → bitOf (fieldAt entry 63 1) 7 = false →
    ∃ t, exec (.ringPost k 1 none entry false) s = .next t ∧
      fieldAt (memBytes t.hostMem (s.ringBase k 2 + 64 * s.host[k].rings[2].wr) 64) 0 63 = fieldAt entry 0 63 ∧
      fieldAt (memBytes t.hostMem (s.ringBase k 2 + 64 * s.host[k].rings[2].wr) 64) 63 1 =
        fieldAt entry 63 1 + 128 * s.host[k].rings[2].phase.toNat ∧
      bytesKept s.hostMem t.hostMem (s.ringBase k 2 + 64 * s.host[k].rings[2].wr) 64 ∧
      t.host[k].rings[2].used = s.host[k].rings[2].used + 1 ∧ (∀ j : Fin 16, j ≠ k → t.host[j] = s.host[j]) ∧
      t = { s with regs := t.regs, host := t.host, hostMem := t.hostMem, irqs := t.irqs, stile := framesIn true 3 (.msg k (.ringPost 2 entry false none)) s.stile } ∧
      regsSame [Reg.key .MSIX_PBA [k, 0], Reg.key .MSIX_PBA [k, 1]] s t) ∧
  (∀ b : List Byte, b.length = 32 → (frameOf b).good = true ∧ frameFrom (fun k => (frameOf b).lane k) = frameOf b ∧
    (∀ k : Fin 8, (frameOf b).lane k < 2 ^ 34 ∧ (frameOf b).lane k = fieldAt b (4 * k) 4 + 2 ^ 32 * bitsOf (frameOf b).crc (2 * k) 2)) ∧
  (∀ (b : List Byte) (spared : Fin 8), b.length = 32 → (frameOf b).onLane spared spared.castSucc = none ∧
    (frameOf b).onLane spared 8 = some ((frameOf b).lane spared) ∧
    (∀ l : Fin 8, l ≠ spared → (frameOf b).onLane spared l.castSucc = some ((frameOf b).lane l)) ∧
    (∀ l : Fin 8, (frameOf b).onLane 15 l.castSucc = some ((frameOf b).lane l)) ∧ (frameOf b).onLane 15 8 = none) ∧
  (∀ h : Header, h.typ < 256 → h.reserved < 32 → h.tag < 65536 → h.session < 16 → h.epoch < 16 → h.ndata < 256 → h.ack < 65536 → h.addr < 2 ^ 64 →
    h.inline_.length = 16 → h.bytes.length = 32 ∧ headerOf h.bytes = h)

/-- The Stile's link (R420–R429, R470, R471, R478): its start, its failures, its loss and its return, and the field reset that crosses it. A message that is
sent while its receiver discards frames is kept, and the replay brings it once, before what is sent behind it. While FIELD is not UP a write of a register
of the F-die is discarded and counted, whatever it would do, and a read answers all ones and is counted (R426). -/
def Obligations.TheStileFailsAndReturns : Prop :=
  (∀ s : State, s.get F.ST_STATUS_FIELD = 1 ∨ s.get F.ST_STATUS_FIELD = 4 → ∃ t, exec (.init true false) s = .next t ∧
    t.get F.ST_STATUS_FIELD = 2 ∧ t.get F.ST_STATUS_H2F_SPARE = 15 ∧ t.get F.ST_STATUS_F2H_SPARE = 15 ∧
    t = { s with regs := t.regs, stile := { framesAnew s.stile with deadF2H := false, deadH2F := false } } ∧ regsSame [Reg.key .ST_STATUS []] s t) ∧
  (∀ s : State, s.stile.fieldRuns = true → s.linked = false → (∀ k : Fin 16, s.inSpan k = false) → ∃ t, exec (.init false true) s = .next t ∧ t.stile.out = [] ∧ t.stile.hostReads = [] ∧
    (∀ k : Fin 16, t.sess[k].tearing = true ∧ t.sess[k].entries = [] ∧ t.sess[k].seq = none) ∧ t.stile.rxH = 0 ∧ t.stile.rxF = 0) ∧
  (∀ s : State, s.stile.failsH < 7 → s.flt.inj = none → ∃ t, exec (.stileFrameCrcFail true) s = .next t ∧
    counted F.ST_CNT_CRC_ERR [] 1 s t ∧ counted F.FLT_CNT_COUNT [6] 1 s t ∧
    t = { s with regs := t.regs, stile := { s.stile with
      failsH := s.stile.failsH + 1, nakH := true, replayF := none, waitH := max s.stile.waitH 800 } } ∧
    regsSame [Reg.key .ST_CNT [], Reg.key .FLT_CNT [6]] s t) ∧
  (∀ (v : Word) (s : State), s.stile.nakH = true → s.stile.replayF = none → exec (.regRsp v) s = .next { s with stile := { s.stile with
    sentF := s.stile.sentF ++ [⟨s.stile.txF, 1, .regRsp v, false⟩], txF := (s.stile.txF + 1) % 65536, owedF := s.stile.owedF + 1,
    sentH := s.stile.sentH.dropWhile (fun e => e.got), replayH := if s.stile.nakF then some s.stile.rxF else none } }) ∧
  (∀ (k : Fin 16) (addr len num from_ : Nat) (s : State), s.stile.nakH = true → s.stile.replayF = some from_ → s.flt.inj = none →
    s.stile.sentF = [⟨num, 1, .hostRdReq ⟨k, none, addr, len⟩, false⟩] →
    ∃ t, exec (.idle true .idle 0) s = .next t ∧ t.stile.hostReads = s.stile.hostReads ++ [⟨k, none, addr, len⟩] ∧ t.stile.nakH = false ∧
      t.stile.replayF = none ∧ t.stile.rxH = (s.stile.rxH + 2) % 65536 ∧
      t.stile.sentF = [⟨num, 1, .hostRdReq ⟨k, none, addr, len⟩, true⟩, ⟨s.stile.txF, 1, .idle, true⟩] ∧ t = { s with stile := t.stile }) ∧
  (∀ s : State, s.stile.failsF = 7 → s.flt.inj = none → s.get F.ST_STATUS_FIELD ≠ 3 → ∃ t, exec (.stileFrameCrcFail false) s = .next t ∧
    t.get F.ST_STATUS_FIELD = 4 ∧ raised F.ST_EVENTS_RETRY_EXHAUST [] t ∧ counted F.ST_F_CNT_CRC_ERR [] 1 s t ∧ counted F.FLT_CNT_COUNT [8] 1 s t ∧
    t = { s with regs := t.regs, stile := { s.stile with failsF := 8, nakF := true, replayH := none, waitF := max s.stile.waitF 800 } } ∧
    regsSame [Reg.key .ST_STATUS [], Reg.key .ST_EVENTS [], Reg.key .ST_F_CNT [], Reg.key .FLT_CNT [6], Reg.key .FLT_CNT [8]] s t) ∧
  (∀ (lane : Fin 9) (s : State), lane.val < 8 → s.get F.ST_STATUS_F2H_SPARE = 15 → s.stile.deadF2H = false → s.flt.inj = none →
    ∃ t, exec (.stileLaneFail true lane) s = .next t ∧ t.get F.ST_STATUS_F2H_SPARE = lane ∧ raised F.ST_EVENTS_SPARE_F2H [] t ∧
      counted F.FLT_CNT_COUNT [7] 1 s t ∧ t = { s with regs := t.regs, stile := { s.stile with nakH := true, replayF := none, waitH := max s.stile.waitH 4000 } } ∧
      regsSame (Reg.key .ST_STATUS [] :: Reg.key .ST_EVENTS [] :: Reg.key .FLT_CNT [7] :: firstKeys) s t) ∧
  (∀ (lane : Fin 9) (s : State), lane.val < 8 → s.get F.ST_STATUS_H2F_SPARE ≠ 15 → s.get F.ST_STATUS_H2F_SPARE ≠ lane.val → s.flt.inj = none →
    s.get F.ST_STATUS_FIELD ≠ 3 →
    ∃ t, exec (.stileLaneFail false lane) s = .next t ∧ t.get F.ST_STATUS_FIELD = 4 ∧ counted F.FLT_CNT_COUNT [7] 1 s t ∧
      t = { s with regs := t.regs } ∧ regsSame (Reg.key .ST_STATUS [] :: Reg.key .FLT_CNT [7] :: firstKeys) s t) ∧
  (∀ (k : Fin 16) (i : Inst) (s : State), s.get F.ST_STATUS_FIELD = 3 → s.host[k].live = [i] → s.host[k].waiting = [] → s.ringRoom k 1 = true →
    i.tag < 65536 → i.epoch < 16 → i.ended = false → i.worstQ < 4 → (∀ j : Fin 16, j ≠ k → s.host[j].live = []) →
    ∃ t, exec .f2hSignalLoss s = .next t ∧ t.get F.ST_STATUS_FIELD = 0 ∧ raised F.ST_EVENTS_FIELD_DOWN [] t ∧ t.host[k].live = [] ∧
      t.host[k].queue = [] ∧ t.host[k].held = false ∧ entryField k s t 0 2 = i.tag ∧ entryField k s t 3 1 = Status.fault.code ∧
      entryField k s t 7 1 = i.epoch + 16 * max s.quality i.worstQ ∧ entryField k s t 24 6 = s.now48 ∧
      bytesKept s.hostMem t.hostMem (entryAt k s) 32 ∧
      t = { s with regs := t.regs, host := t.host, hostMem := t.hostMem, irqs := t.irqs }) ∧
  (∀ s : State, s.get F.ST_STATUS_FIELD = 4 → exec .linkFaultInitRetry s = .next { s with stile := framesAnew s.stile }) ∧
  (∀ s : State, s.stile.fieldRuns = true → exec .fieldStileLoss s = .next { s with stile := { s.stile with lost := true } }) ∧
  (∀ (k : Fin 16) (q : SeqRun) (s : State), s.stile.lost = true → s.get F.ST_F_CFG_ORPHAN_ACT = 1 → s.sess[k].seq = some q →
    s.sess[k].onCore = false → q.ended = false → ownsNoUnit k s → s.commit.pends = [] →
    (∀ j : Fin 16, j ≠ k → s.sess[j].seq = none ∧ s.sess[j].burst = none) →
    ∃ t, exec .orphanTimeout s = .next t ∧
      t.sess[k].seq.map (fun (x : SeqRun) => (x.entry, x.shot, x.ended, bitOf x.cond Cond.aborted)) = some (q.entry, q.shot, true, true) ∧
      (∀ j : Fin 16, j ≠ k → t.sess[j] = s.sess[j]) ∧ t = { s with regs := t.regs, sess := t.sess } ∧ regsSame [Reg.key .SYS_COMMIT_STATUS []] s t) ∧
  (∀ (strobe : Bool) (s : State), s.get F.ST_STATUS_FIELD ≠ 3 →
    (if strobe then s.get F.ST_STATUS_FIELD ≠ 0 ∧ s.stile.clear false = true else stileReady false s) → s.commit = ⟨none, [], []⟩ →
    ∃ t, exec (if strobe then .stCtrlFieldReset else .fieldReset) s = .next t ∧ t.get F.ST_STATUS_FIELD = 0 ∧
      (∀ x : Nat, keyOnHost x = false → x ≠ 0x78000 → t.getK x = resetVal x) ∧ (∀ x : Nat, t.activeK x = resetVal x ∧ t.shadowK x = resetVal x) ∧
      (∀ x : Nat, keyOnHost x = true → x ≠ Reg.key .ST_STATUS [] → x ≠ Reg.key .SYS_COMMIT_STATUS [] → t.getK x = s.getK x) ∧
      memSame s t ∧ t.host = s.host ∧ t.slices = State.reset.slices ∧ t.sess = State.reset.sess ∧
      (∀ o : Fin 16, t.aos[o] = { State.reset.aos[o] with table := s.aos[o].table }) ∧
      (∀ g : Fin 4, t.fws[g] = { State.reset.fws[g] with table := s.fws[g].table }) ∧ t.cores = State.reset.cores ∧ t.trigs = State.reset.trigs ∧ t.gleaners = State.reset.gleaners ∧
      t.tb = State.reset.tb ∧ t.cs = State.reset.cs ∧ t.stile.fieldRuns = false ∧ t.hr.trig = Vector.replicate 16 false) ∧
  (∀ s : State, s.get F.ST_STATUS_FIELD = 0 → exec .stileSignalPresent s = .next (s.set F.ST_STATUS_FIELD [] 1)) ∧
  (∀ (c : Fin 4) (k : Fin 16) (u : Fin 8) (n : Fin 12) (x : Fin 64) (v : Word) (m : Nat) (e : Int) (r : Instr) (s : State), s.linked = false →
    r ∈ [.relock, .emit, .halt c, .resume c, .step c, .cswAddrWrite v, .spareForce n u, .spareRestore n u e, .fwScrDataWrite c v, .vsInvTlb k,
      .vsInvPages k, .triggerArm u, .triggerStop u, .triggerForce u, .aoTblDataWrite k v, .hrSwSet m m, .hrSwClr m, .hrSwPulse m, .calCmd x, .teardown k,
      .teardownScrub k, .sessionAbort k, .tlDiscStart, .tlAlignStart, .tlRaccGo v, .fltCoreOffline c, .fltCoreOnline c,
      .injectionArm (Fin.ofNat 65536 m), .injectionCancel, .csStageSet k, .csStageClear k, .csSwapGo k, .nvmFLoad, .nvmFProgram, .storeCal,
      .sysCommitGo k (Fin.ofNat 256 m), .bar0Write none 0x4000 v] →
    ∃ t, exec r s = .next t ∧ writeLost s t) ∧
  (∀ (r : Instr) (s : State), s.linked = false → r ∈ [.cswData0Read, .cswData5Read, .rcFieldRead none 0x4000] →
    ∃ t, exec r s = .next t ∧ t.lastRead = 0xFFFFFFFF ∧ counted F.ST_DOWN_CNT_DOWN_RD [] 1 s t ∧
      t = { s with regs := t.regs, lastRead := t.lastRead } ∧ regsSame [Reg.key .ST_DOWN_CNT []] s t)

/-! ### Tabolyar -/

/-- Numbering and remote access (R431, R435, R438–R442, R448, R450): a message at a port that does not take it changes nothing; DISCOVER, REPORT, ASSIGN
and EVCFG at a device that takes part; a port that has reported and got no number is BLOCKED (the model's choice of the moment, log 77); a discovery begins
and completes; a remote access is sent, done, refused, answered or timed out; a fabric message acts in its node or is routed on. -/
def Obligations.TheTreeIsNumbered : Prop :=
  (∀ (p : Fin 4) (path : List Nat) (n m : Nat) (x y : Option Int) (b c : Bool) (w : Word) (ans : RaccAnswer) (cycle : Fin 65536) (line : Fin 8)
    (r : Instr) (s : State), s.hears p = false →
    r ∈ [.discover p n, .report (p.val :: path) n m, .align p x y x y b c, .epoch p n m, .raccRsp p w ans, .eventRecord p cycle line b,
      .tlFlitCrcFail ⟨p, .nak n⟩, .tlFlitCrcFail ⟨p, .badType⟩] → exec r s = .next s) ∧
  (∀ (via : Option (Fin 4)) (dev : Fin 32) (crate : Fin 16) (cluster : Fin 8) (off : Fin 1048576) (v : Word) (d e : Fin 65536) (scope : Fin 256)
    (r : Instr) (s : State), s.hears 0 = false →
    r ∈ [.assign dev crate cluster via, .evcfg d e scope, .raccWr via crate dev off v, .raccRd via crate dev off] → exec r s = .next s) ∧
  (∀ (hop : Nat) (s : State), s.hears 0 = true → s.portUp 0 = true → exec (.discover 0 hop) s = .next { s with
    net := handedAll s.downPorts (.discover (hop + 1)) (handed 0 (.report s.role s.net.serial) { heard 0 s.net with reported := 0, assigned := 0 }) }) ∧
  (∀ (p : Fin 4) (hop : Nat) (s : State), s.hears p = true → p ≠ 0 → ∃ t, exec (.discover p hop) s = .next t ∧ t.portState p = 4 ∧
    t = { s with regs := t.regs, net := heard p s.net } ∧ regsSame [Reg.key .TL_PORT_STAT [p]] s t) ∧
  (∀ (p : Fin 4) (role serial : Nat) (s : State), s.hears p = true → s.role = 2 → s.net.discovering = true → role < 4 →
    ∃ t, exec (.report [p.val] role serial) s = .next t ∧ t.get F.TL_PORT_STAT_PEER_ROLE [p] = role ∧
      t = { s with regs := t.regs, net := { heard p s.net with
        reported := withBit s.net.reported p, reports := s.net.reports ++ [⟨[p.val], role, serial⟩] } } ∧
      regsSame [Reg.key .TL_PORT_STAT [p]] s t) ∧
  (∀ (p q : Fin 4) (path : List Nat) (role serial : Nat) (s : State), s.hears p = true → s.role = 0 → s.net.discovering = false → s.portUp 0 = true →
    exec (.report (p.val :: q.val :: path) role serial) s = .next { s with net := handed 0 (.report role serial) (heard p s.net) }) ∧
  (∀ (dev : Fin 32) (crate : Fin 16) (cluster : Fin 8) (s : State), s.hears 0 = true → s.role = 0 → ∃ t, exec (.assign dev crate cluster none) s = .next t ∧
    t.get F.TL_ROLE_DEVICE = dev ∧ t.get F.TL_ROLE_CRATE = crate ∧ t.get F.TL_ROLE_CLUSTER = cluster ∧ t.get F.TL_ROLE_NUMBERED = 1 ∧ t.role = 0 ∧
    t = { s with regs := t.regs, net := heard 0 s.net } ∧ regsSame [Reg.key .TL_ROLE []] s t) ∧
  (∀ (dev : Fin 32) (crate : Fin 16) (cluster : Fin 8) (s : State), s.hears 0 = true → s.role = 1 → s.portUp 0 = true →
    ∃ t, exec (.assign dev crate cluster none) s = .next t ∧ t.get F.TL_ROLE_CRATE = crate ∧ t.get F.TL_ROLE_NUMBERED = 1 ∧
      t.get F.TL_DISC_STAT_DONE = 0 ∧
      t = { s with
        regs := t.regs, net := handedAll s.downPorts (.discover 1) { heard 0 s.net with discovering := true, reports := [], reported := 0, assigned := 0 } }) ∧
  (∀ (dev : Fin 32) (crate : Fin 16) (cluster : Fin 8) (p : Fin 4) (s : State), s.hears 0 = true → s.portUp p = true →
    exec (.assign dev crate cluster (some p)) s =
    .next { s with net := handed p (.assign dev crate cluster) { heard 0 s.net with assigned := withBit s.net.assigned p } }) ∧
  (∀ (crate cluster : Fin 65536) (scope : Fin 256) (s : State), s.hears 0 = true → s.role = 0 →
    (∀ p : Fin 4, bitOf s.net.reported p = true → bitOf s.net.assigned p = true) → ∃ t, exec (.evcfg crate cluster scope) s = .next t ∧
    t.get F.TL_EV_DELAY_CRATE = crate ∧ t.get F.TL_EV_DELAY_CLUSTER = cluster ∧
    t = { s with regs := t.regs, net := handedAll s.downPorts (.evcfg crate cluster scope) { heard 0 s.net with scope := scope } } ∧
    regsSame [Reg.key .TL_EV_DELAY []] s t) ∧
  (∀ (crate cluster : Fin 65536) (scope : Fin 256) (p : Fin 4) (s : State), s.hears 0 = true → s.role = 0 → p ≠ 0 → s.portUp p = true →
    bitOf s.net.reported p = true → bitOf s.net.assigned p = false →
    ∃ t, exec (.evcfg crate cluster scope) s = .next t ∧ t.portState p = 4 ∧ t.net.ports[p].out = s.net.ports[p].out) ∧
  (∀ s : State, s.role = 2 → crosses s → ∃ t, exec .tlDiscStart s = .next t ∧ t.getK (Reg.key .TL_DISC_STAT []) = 0 ∧ t.get F.TL_ROLE_NUMBERED = 0 ∧
    t.role = 2 ∧ (∀ p ∈ s.downPorts, t.get F.TL_PORT_STAT_PEER_DEV [p.val] = 0 ∧ t.get F.TL_PORT_STAT_PEER_CRATE [p.val] = 0) ∧
    t = { s with
      regs := t.regs, stile := framesDown 1 s.stile, net := handedAll s.downPorts (.discover 1) { s.net with discovering := true, reports := [], reported := 0, assigned := 0 } } ∧
    regsSame (Reg.key .TL_DISC_STAT [] :: Reg.key .TL_ROLE [] :: (List.range 4).map (fun p => Reg.key .TL_PORT_STAT [p])) s t) ∧
  (∀ (depth : Fin 9) (p : Fin 4) (serial : Nat) (s : State), s.role = 2 → s.net.discovering = true → s.net.reports = [⟨[p.val], 0, serial⟩] →
    s.portUp p = true →
    ∃ t, exec (.discoveryDone depth) s = .next t ∧ t.get F.TL_ROLE_NUMBERED = 1 ∧ t.get F.TL_ROLE_DEVICE = 0 ∧ t.get F.TL_ROLE_CRATE = 0 ∧
      t.get F.TL_ROLE_CLUSTER = s.get F.TL_CLUSTER_CLUSTER ∧ t.get F.TL_DISC_STAT_DONE = 1 ∧ t.get F.TL_DISC_STAT_WORKERS = 1 ∧
      t.get F.TL_DISC_STAT_DEPTH = 1 ∧ t.get F.TL_DISC_STAT_CRATES = 0 ∧ t.get F.TL_DISC_STAT_EXCESS = 0 ∧
      t.get F.TL_PORT_STAT_PEER_DEV [p] = 1 ∧ t.get F.TL_PORT_STAT_PEER_CRATE [p] = 0 ∧
      t.get F.TL_EV_DELAY_CRATE = 2 * (61 + s.act F.TL_EV_CFG_MARGIN) ∧
      t.net = handedAll s.downPorts (.evcfg (t.get F.TL_EV_DELAY_CRATE) (t.get F.TL_EV_DELAY_CLUSTER) (s.act F.TL_EV_CFG_SCOPE))
        { handed p (.assign 1 0 (s.get F.TL_CLUSTER_CLUSTER)) s.net with discovering := false } ∧
      t = { s with regs := t.regs, net := t.net } ∧
      regsSame [Reg.key .TL_DISC_STAT [], Reg.key .TL_ROLE [], Reg.key .TL_EV_DELAY [], Reg.key .TL_PORT_STAT [p]] s t) ∧
  (∀ (crate : Fin 16) (dev : Fin 32) (off : Fin 1048576) (v : Word) (s : State), s.hears 0 = true → s.portUp 0 = true → s.get F.TL_ROLE_NUMBERED = 0 →
    exec (.raccWr none crate dev off v) s = .next { s with net := handed 0 (.raccRsp crate dev 0 Status.resourceBusy.code) (heard 0 s.net) }) ∧
  (∀ (crate : Fin 16) (dev : Fin 32) (off : Fin 1048576) (v : Word) (r : Reg) (ix : List Nat) (s : State), s.hears 0 = true → s.portUp 0 = true →
    s.get F.TL_ROLE_NUMBERED = 1 →
    off.val % 4 = 0 → keyOnHost off = false → regAt (s.regKey off) = some (r, ix) → r.row.pair = .no → r.acts = false →
    ∃ t, exec (.raccWr none crate dev off v) s = .next t ∧
      t = { s with regs := t.regs, net := handed 0 (.raccRsp crate dev 0 0) (heard 0 s.net) } ∧ regsSame [s.regKey off] s t ∧
      ∀ f ∈ r.row.fields, (f.acc = .rw → fieldSame f (t.getK (s.regKey off)) v) ∧ (f.acc = .rws → fieldSame f (t.shadowK (s.regKey off)) v)) ∧
  (∀ (crate : Fin 16) (dev : Fin 32) (off : Fin 1048576) (r : Reg) (ix : List Nat) (s : State), s.hears 0 = true → s.portUp 0 = true →
    s.get F.TL_ROLE_NUMBERED = 1 →
    off.val % 4 = 0 → keyOnHost off = false → regAt (s.regKey off) = some (r, ix) → r.row.pair = .no → r.readActs = false → s.regs.pairLatch = [] →
    ∃ t, exec (.raccRd none crate dev off) s = .next t ∧
      t = { s with
        regs := t.regs, net := handed 0 (.raccRsp crate dev ({ s with net := heard 0 s.net }.regValue (s.regKey off)).toNat 0) (heard 0 s.net) } ∧
      regsSame [s.regKey off] s t) ∧
  (∀ (p : Fin 4) (crate : Fin 16) (dev : Fin 32) (off : Fin 1048576) (v : Word) (s : State), s.hears 0 = true → s.portUp p = true →
    exec (.raccRd (some p) crate dev off) s = .next { s with net := carried p crate dev false (.raccRd crate dev off) (heard 0 s.net) } ∧
    exec (.raccWr (some p) crate dev off v) s = .next { s with net := carried p crate dev false (.raccWr crate dev off v.toNat) (heard 0 s.net) }) ∧
  (∀ (p : Fin 4) (crate : Fin 16) (dev : Fin 32) (off : Fin 1048576) (s : State), s.hears 0 = true → s.portUp 0 = true → s.portUp p = false →
    exec (.raccRd (some p) crate dev off) s = .next { s with net := handed 0 (.raccRsp crate dev 0 Status.fault.code) (heard 0 s.net) }) ∧
  (∀ (p : Fin 4) (value : Word) (ans : RaccAnswer) (rest : List RaccAsk) (s : State), s.hears p = true →
    s.net.ports[p].asks = ⟨ans.crate, ans.device, true, true⟩ :: rest → s.get F.TL_RACC_TGT_WRITE = 0 →
    ∃ t, exec (.raccRsp p value ans) s = .next t ∧ t.getK (Reg.key .TL_RACC_DATA []) = value ∧ t.get F.TL_RACC_STAT_BUSY = 0 ∧
      t.get F.TL_RACC_STAT_STATUS = ans.status ∧
      t = { s with regs := t.regs, net := { s.net with ports := s.net.ports.set p { s.net.ports[p] with fails := 0, asks := rest } } } ∧
      regsSame [Reg.key .TL_RACC_DATA [], Reg.key .TL_RACC_STAT []] s t) ∧
  (∀ (p : Fin 4) (value : Word) (ans : RaccAnswer) (live : Bool) (rest : List RaccAsk) (s : State), s.hears p = true → s.portUp 0 = true →
    s.net.ports[p].asks = ⟨ans.crate, ans.device, false, live⟩ :: rest →
    exec (.raccRsp p value ans) s = .next { s with
      net := handed 0 (.raccRsp ans.crate ans.device value.toNat ans.status) { s.net with ports := s.net.ports.set p { s.net.ports[p] with fails := 0, asks := rest } } }) ∧
  (∀ (p : Fin 4) (value : Word) (ans : RaccAnswer) (s : State), s.hears p = true → s.net.ports[p].asks = [] →
    exec (.raccRsp p value ans) s = .next { s with net := heard p s.net }) ∧
  (∀ (v : Word) (p : Fin 4) (serial : Nat) (s : State), crosses s → s.get F.TL_RACC_STAT_BUSY = 0 → s.net.discovering = false →
    s.get F.TL_ROLE_NUMBERED = 1 →
    s.role = 1 ∨ (s.role = 2 ∧ bitsOf v.toNat 8 4 = s.get F.TL_ROLE_CRATE) → s.net.reports = [⟨[p.val], 0, serial⟩] → bitsOf v.toNat 0 5 = 1 →
    State.raccBad (s.get F.TL_RACC_OFS_OFFSET) = false → s.portUp p = true →
    ∃ t, exec (.tlRaccGo v) s = .next t ∧ t.get F.TL_RACC_STAT_BUSY = 1 ∧ t.get F.TL_RACC_TGT_DEVICE = 1 ∧
      t = { s with regs := t.regs, stile := framesDown 1 s.stile, net := { carried p (s.get F.TL_ROLE_CRATE) 1 true
        (if bitsOf v.toNat 16 1 = 1 then
          .raccWr (s.get F.TL_ROLE_CRATE) 1 (s.get F.TL_RACC_OFS_OFFSET) (s.getK (Reg.key .TL_RACC_DATA [])).toNat
        else .raccRd (s.get F.TL_ROLE_CRATE) 1 (s.get F.TL_RACC_OFS_OFFSET)) s.net with raccAt := s.now } } ∧
      regsSame [Reg.key .TL_RACC_TGT [], Reg.key .TL_RACC_STAT []] s t) ∧
  (∀ (v : Word) (s : State), crosses s → s.get F.TL_RACC_STAT_BUSY = 0 → s.get F.TL_ROLE_NUMBERED = 1 →
    s.role = 1 ∨ (s.role = 2 ∧ bitsOf v.toNat 8 4 = s.get F.TL_ROLE_CRATE) → bitsOf v.toNat 0 5 = 0 → bitsOf v.toNat 16 1 = 0 →
    s.get F.TL_RACC_OFS_OFFSET = 0x44 →
    ∃ t, exec (.tlRaccGo v) s = .next t ∧ t.getK (Reg.key .TL_RACC_DATA []) = s.regValue 0x44 ∧ t.get F.TL_RACC_STAT_BUSY = 0 ∧
      t.get F.TL_RACC_STAT_STATUS = 0 ∧ t = { s with regs := t.regs, stile := framesDown 1 s.stile } ∧
      regsSame [Reg.key .TL_RACC_TGT [], Reg.key .TL_RACC_DATA [], Reg.key .TL_RACC_STAT []] s t) ∧
  (∀ s : State, s.get F.TL_RACC_STAT_BUSY = 0 ∨ (s.now : Int) - s.net.raccAt < 81920000 → exec .raccTimeout s = .next s) ∧
  (∀ s : State, s.get F.TL_RACC_STAT_BUSY = 1 → 81920000 ≤ (s.now : Int) - s.net.raccAt → ∃ t, exec .raccTimeout s = .next t ∧ t.get F.TL_RACC_STAT_BUSY = 0 ∧
    t.get F.TL_RACC_STAT_STATUS = Status.timeout.code ∧
    t = { s with regs := t.regs, net := { s.net with ports := s.net.ports.map (fun (x : Port) =>
      { x with asks := x.asks.map (fun (a : RaccAsk) => if a.own then { a with live := false } else a) }) } } ∧
    regsSame [Reg.key .TL_RACC_STAT []] s t) ∧
  (∀ (p : Fin 4) (node : Fin 65536) (line : Nat) (level : Bool) (s : State), s.fabricOn = true → s.act F.TL_PORT_CFG_MODE [p] = 2 →
    node.val = s.act F.TL_FAB_CFG_NODE → line < 8 → bitOf (s.act F.TL_EV_CFG_CEV_EN) line = true →
    exec (.fabricMessage p node (.event line level)) s = .next { s with net := { s.net with fabric := putBits s.net.fabric line 1 level.toNat } }) ∧
  (∀ (p q : Fin 4) (node : Fin 65536) (body : FabBody) (s : State), s.fabricOn = true → s.act F.TL_PORT_CFG_MODE [p] = 2 →
    node.val ≠ s.act F.TL_FAB_CFG_NODE → s.route node = some q.val → s.portUp q = true → s.act F.TL_PORT_CFG_MODE [q] = 2 →
    exec (.fabricMessage p node body) s = .next { s with net := { s.net with fabricOut := (q.val, .fabric node body) :: s.net.fabricOut } })

/-- Links, alignment and crate events (R431, R434–R438, R440, R444–R449): a flit is laid out in 128 bytes and passes its CRC; training, its failures and
its returns, a NAK and a replay; the stamps of an exchange, its latency and offset, and where the device stands by them; a link EPOCH goes on from its
nearest reference edge and is counted down or refused; a record is held, merged and applied, and nothing before its cycle has come. Rows that the model
gives the device's own clock do at once what that clock does later (log 70). -/
def Obligations.TheLinksCarryEvents : Prop :=
  (∀ f : WireFlit, f.flit.recs.length ≤ 8 → f.flit.msg.length ≤ 92 → f.flit.seq < 65536 → f.ack < 65536 →
    f.bytes.length = 128 ∧ flitGood f.bytes = !f.badCrc ∧ fieldAt f.bytes 0 2 = f.flit.seq ∧ fieldAt f.bytes 2 2 = f.ack ∧
    fieldAt f.bytes 4 1 = f.nak.toNat + 2 * f.degraded.toNat ∧ fieldAt f.bytes 5 1 = f.flit.recs.length ∧
    (∀ (i : Fin 8) (r : CrateRec), f.flit.recs[i.val]? = some r → fieldAt f.bytes (8 + 3 * i) 3 = r.cycle % 2 ^ 16 + 2 ^ 16 * (r.line % 8) + 2 ^ 19 * r.level.toNat) ∧
    (f.bytes.drop 32).take f.flit.msg.length = f.flit.msg) ∧
  (∀ (a b c d : Int) (x : Option Int) (y : Option Int) (up : Bool) (s : State), s.hears 0 = true → s.net.ports[(0 : Fin 4)].stamps = ⟨some a, some b, some c, x⟩ →
    ∃ t, exec (.align 0 y y y (some d) true up) s = .next t ∧
    t.get F.TL_PORT_LAT_LATENCY [0] = (((b - a) + (d - c)) / 2).toNat % 2 ^ 20 ∧
    signedOf (t.get F.TL_ALIGN_STAT_OFFSET) 16 = max (-32767) (min 32767 (((b - a) - (d - c)) / 2)) ∧
    t.get F.TL_ALIGN_STAT_STATE = (if up = false then 1 else if 32767 < (((b - a) - (d - c)) / 2).natAbs then 4
      else if (((b - a) - (d - c)) / 2).natAbs ≤ 1 then 3 else 2) ∧
    (16 < (((b - a) - (d - c)) / 2).natAbs → raised F.TL_ALIGN_STAT_ALIGN_LOST [] t) ∧
    (s.slews = false → t.get F.TL_ALIGN_PHASE_PHASE = s.get F.TL_ALIGN_PHASE_PHASE) ∧
    (s.slews = true → signedOf (t.get F.TL_ALIGN_PHASE_PHASE) 16 = max (-32767) (min 32767
      (signedOf (s.get F.TL_ALIGN_PHASE_PHASE) 16 - s.slewed (signedOf (s.get F.TL_ALIGN_STAT_OFFSET) 16)))) ∧
    t.net = { s.net with
      ports := s.net.ports.set (0 : Fin 4) { s.net.ports[(0 : Fin 4)] with fails := 0, stamps := ⟨none, none, none, none⟩ },
      upAligned := up, aligning := true, slewFrom := s.now } ∧
    t = { s with regs := t.regs, net := t.net } ∧
    regsSame [Reg.key .TL_PORT_LAT [0], Reg.key .TL_ALIGN_STAT [], Reg.key .TL_ALIGN_PHASE []] s t) ∧
  (∀ (a : Int) (x y : Option Int) (asked up : Bool) (s : State), s.hears 0 = true → s.portUp 0 = true →
    exec (.align 0 (some a) x y none asked up) s = .next { s with net := { s.net with ports := s.net.ports.set (0 : Fin 4) { s.net.ports[(0 : Fin 4)] with
      fails := 0, stamps := ⟨some a, some (s.now : Int), none, none⟩,
      out := s.net.ports[(0 : Fin 4)].out ++ [.align ⟨some a, some (s.now : Int), none, none⟩ false false] } } }) ∧
  (∀ (p : Fin 4) (a b c : Int) (w x y z : Option Int) (asked up : Bool) (s : State), s.hears p = true → p ≠ 0 → s.portUp p = true →
    s.net.ports[p].stamps.t1 = some a → ∃ t, exec (.align p w (some b) (some c) z asked up) s = .next t ∧
    t.get F.TL_PORT_LAT_LATENCY [p] = (((b - a) + ((s.now : Int) - c)) / 2).toNat % 2 ^ 20 ∧
    t = { s with regs := t.regs, net := { s.net with ports := s.net.ports.set p { s.net.ports[p] with
      fails := 0, stamps := ⟨none, none, none, none⟩, out := s.net.ports[p].out ++
        [.align ⟨some a, some b, some c, some (s.now : Int)⟩ s.net.aligning (s.get F.TL_ALIGN_STAT_STATE == 3)] } } } ∧
    regsSame [Reg.key .TL_PORT_LAT [p]] s t) ∧
  (∀ (p : Fin 4) (offset ago : Nat) (s : State), s.hears p = true → p ≠ 0 ∨ s.get F.TL_ROLE_NUMBERED = 0 →
    exec (.epoch p offset ago) s = .next { s with net := heard p s.net }) ∧
  (∀ (offset ago per since edges : Nat) (s : State), s.hears 0 = true → per = s.refDivide * 1024 → since = s.tb.refPhase * 1024 →
    edges = (2 * (offset + s.hopLatency 0 + ago) + 3 * per - 2 * since) / (2 * per) → s.get F.TL_ROLE_NUMBERED = 1 →
    ∃ t : State, exec (.epoch 0 offset ago) s = .next t ∧
      t.net = handedAll s.downPorts (.epoch ((s.now : Int) - (since + edges * per - per : Nat))) (heard 0 s.net) ∧
      (edges ≤ s.linkPeriods → t = { s with net := t.net, tb := { s.tb with linkLeft := s.tb.linkLeft ++ [s.linkPeriods + 1 - edges] } }) ∧
      (s.linkPeriods < edges → s.get F.TB_EPOCH_CTRL_SRC = 0 → t = { s with net := t.net }) ∧
      (s.linkPeriods < edges → s.get F.TB_EPOCH_CTRL_SRC = 1 → counted F.TB_EPOCH_STAT_REJECT [] 1 s t ∧
        t = { s with regs := t.regs, net := t.net } ∧ regsSame [Reg.key .TB_EPOCH_STAT []] s t)) ∧
  (∀ s : State, s.hopLatency 0 = (if s.portState 0 = 3 then 120586 else 78643)) ∧
  (∀ (p : Fin 4) (cycle : Fin 65536) (line : Fin 8) (level : Bool) (s : State), s.hears p = true → s.get F.TL_ROLE_NUMBERED = 0 →
    exec (.eventRecord p cycle line level) s = .next { s with net := heard p s.net }) ∧
  (∀ (cycle : Fin 65536) (line : Fin 8) (level : Bool) (s : State), s.hears 0 = true → s.get F.TL_ROLE_NUMBERED = 1 → s.merges line = false →
    s.downPorts = [] →
    ∃ t, exec (.eventRecord 0 cycle line level) s = .next t ∧
      t.net = { heard 0 s.net with applies := s.net.applies ++
        [((if s.lineDelay line < s.cycleAge cycle then s.cycleNow + 1 else cycle + s.lineDelay line) % 65536, ⟨cycle, line, level, 0⟩)] } ∧
      counted F.TL_EV_CNT_LATE [] (decide (s.lineDelay line < s.cycleAge cycle)).toNat s t ∧
      t = { s with regs := t.regs, net := t.net } ∧ regsSame [Reg.key .TL_EV_CNT []] s t) ∧
  (∀ (p : Fin 4) (cycle : Fin 65536) (line : Fin 8) (level : Bool) (s : State), s.hears p = true → p ≠ 0 → s.get F.TL_ROLE_NUMBERED = 1 →
    s.merges line = true → s.cycleAge cycle ≤ s.lineUp line →
    exec (.eventRecord p cycle line level) s = .next { s with net := { heard p s.net with held := s.net.held ++ [⟨cycle, line, level, p⟩] } }) ∧
  (∀ (r : CrateRec) (s : State), s.net.held = [r] → State.cycleCome s.cycleNow ((r.cycle + s.lineUp r.line) % 65536) = false →
    exec .crateEventRelease s = .next s) ∧
  (∀ (r : CrateRec) (s : State), s.net.held = [r] → State.cycleCome s.cycleNow ((r.cycle + s.lineUp r.line) % 65536) = true → r.line < 8 → r.src < 5 →
    r.level = true → s.net.contrib = Vector.replicate 5 0 → s.net.merged = 0 → s.downPorts = [] →
    ∃ t, exec .crateEventRelease s = .next t ∧ t.net = { s.net with
      held := [], contrib := s.net.contrib.set (Fin.ofNat 5 r.src) (2 ^ r.line), merged := 2 ^ r.line,
      applies := s.net.applies ++
        [((if s.lineDelay r.line < s.cycleAge r.cycle then s.cycleNow + 1 else r.cycle + s.lineDelay r.line) % 65536, ⟨r.cycle, r.line, true, 4⟩)] } ∧
      t = { s with regs := t.regs, net := t.net } ∧ regsSame [Reg.key .TL_EV_CNT []] s t) ∧
  (∀ (due : Nat) (r : CrateRec) (s : State), s.net.applies = [(due, r)] → State.cycleCome s.cycleNow due = false →
    exec .crateEventApply s = .next s) ∧
  (∀ (due : Nat) (r : CrateRec) (s : State), s.net.applies = [(due, r)] → State.cycleCome s.cycleNow due = true → bitOf s.net.applied r.line = false →
    exec .crateEventApply s = .next { s with
      net := { s.net with applies := [], applied := putBits s.net.applied r.line 1 1 },
      hr := { s.hr with crate := putBits s.hr.crate r.line 1 r.level.toNat } }) ∧
  (∀ (p : Fin 4) (s : State), s.net.ports[p].fails < 7 → ∃ t, exec (.tlFlitCrcFail ⟨p, .crc⟩) s = .next t ∧
    counted F.TL_PORT_CNT_CRC_ERR [p] 1 s t ∧ counted F.FLT_CNT_COUNT [9] 1 s t ∧
    t = { s with regs := t.regs, net := { s.net with ports := s.net.ports.set p { s.net.ports[p] with
      fails := s.net.ports[p].fails + 1, await := some 0 } } } ∧
    regsSame [Reg.key .TL_PORT_CNT [p], Reg.key .FLT_CNT [9]] s t) ∧
  (∀ (p : Fin 4) (s : State), s.net.ports[p].fails = 7 → s.portUp p = true → ∃ t, exec (.tlFlitCrcFail ⟨p, .crc⟩) s = .next t ∧
    counted F.TL_PORT_CNT_CRC_ERR [p] 1 s t ∧ raised F.TL_PORT_EVENTS_RETRY_EXHAUST [p] t ∧ counted F.TL_PORT_CNT_RETRAIN [p] 1 s t ∧
    t.portState p = 1 ∧
    t = { s with regs := t.regs, net := { s.net with ports := s.net.ports.set p { s.net.ports[p] with fails := 0, await := none } } }) ∧
  (∀ (p : Fin 4) (num k : Nat) (s : State), s.hears p = true → num < 65536 → k < 7 → s.net.ports[p].naks = (if k = 0 then none else some (num, k)) →
    (∃ f ∈ s.net.ports[p].kept, f.seq = num) →
    exec (.tlFlitCrcFail ⟨p, .nak num⟩) s = .next { s with net := { s.net with ports := s.net.ports.set p { s.net.ports[p] with
      fails := 0, naks := some (num, k + 1), replay := some num } } }) ∧
  (∀ (p : Fin 4) (num : Nat) (s : State), s.hears p = true → num < 65536 → s.net.ports[p].naks = some (num, 7) → s.portUp p = true →
    ∃ t, exec (.tlFlitCrcFail ⟨p, .nak num⟩) s = .next t ∧ raised F.TL_PORT_EVENTS_RETRY_EXHAUST [p] t ∧ t.portState p = 1 ∧
      t = { s with regs := t.regs, net := { s.net with ports := s.net.ports.set p { s.net.ports[p] with fails := 0, naks := none } } }) ∧
  (∀ (p : Fin 4) (s : State), s.hears p = true → ∃ t, exec (.tlFlitCrcFail ⟨p, .badType⟩) s = .next t ∧ counted F.TL_PORT_CNT_CRC_ERR [p] 1 s t ∧
    t = { s with regs := t.regs, net := heard p s.net } ∧ regsSame [Reg.key .TL_PORT_CNT [p]] s t) ∧
  (∀ (p : Fin 4) (k : Nat) (s : State), s.net.ports[p].await = some k →
    exec (.tlFlitCrcFail ⟨p, .replayed⟩) s = .next { s with net := { s.net with ports := s.net.ports.set p { s.net.ports[p] with
      fails := 0, await := none, rx := (s.net.ports[p].rx + 1) % 65536 } } }) ∧
  (∀ (p : Fin 4) (s : State), s.portState p = 1 → ∃ t, exec (.tlTrainingDone p 2) s = .next t ∧ t.portState p = 2 ∧
    t.get F.TL_PORT_STAT_LANES [p] = 2 ∧ t.get F.TL_PORT_STAT_DIR [p] = (s.isDown p).toNat ∧ raised F.TL_PORT_EVENTS_UP [p] t ∧
    t = { s with regs := t.regs, net := { s.net with ports := s.net.ports.set p (flitsAnew s.net.ports[p]) } } ∧
    regsSame [Reg.key .TL_PORT_STAT [p], Reg.key .TL_PORT_EVENTS [p]] s t) ∧
  (∀ (p : Fin 4) (s : State), s.portState p = 1 → s.act F.TL_PORT_CFG_DEGRADE_EN [p] = 1 → ∃ t, exec (.tlTrainingDone p 1) s = .next t ∧
    t.portState p = 3 ∧ t.get F.TL_PORT_STAT_LANES [p] = 1 ∧ raised F.TL_PORT_EVENTS_UP [p] t ∧ raised F.TL_PORT_EVENTS_DEGRADE [p] t ∧
    t = { s with regs := t.regs, net := { s.net with ports := s.net.ports.set p (flitsAnew s.net.ports[p]) } } ∧
    regsSame [Reg.key .TL_PORT_STAT [p], Reg.key .TL_PORT_EVENTS [p]] s t) ∧
  (∀ (p : Fin 4) (s : State), s.portState p = 1 → ∃ t, exec (.tlTrainingDone p 0) s = .next t ∧ t.portState p = 5 ∧
    t.get F.TL_PORT_STAT_LANES [p] = 0 ∧ raised F.TL_PORT_EVENTS_DOWN [p] t ∧ t.net.ports[p].queue = [] ∧ t.net.ports[p].out = [] ∧
    t.net.ports[p].kept = [] ∧ t = { s with regs := t.regs, net := t.net, hr := t.hr }) ∧
  (∀ (p : Fin 4) (lane : Fin 2) (s : State), s.flt.inj = none → s.portUp p = true → ∃ t, exec (.tlLaneFail p lane) s = .next t ∧ t.portState p = 1 ∧
    t.get F.TL_PORT_LAT_LATENCY [p] = 0 ∧ counted F.TL_PORT_CNT_RETRAIN [p] 1 s t ∧ counted F.FLT_CNT_COUNT [10] 1 s t ∧ t = { s with regs := t.regs } ∧
    regsSame (Reg.key .TL_PORT_STAT [p] :: Reg.key .TL_PORT_LAT [p] :: Reg.key .TL_PORT_CNT [p] :: Reg.key .FLT_CNT [10] :: firstKeys) s t) ∧
  (∀ (p : Fin 4) (lane : Fin 2) (s : State), s.flt.inj = none → s.portUp p = false → ∃ t, exec (.tlLaneFail p lane) s = .next t ∧
    counted F.FLT_CNT_COUNT [10] 1 s t ∧ t = { s with regs := t.regs } ∧ regsSame (Reg.key .FLT_CNT [10] :: firstKeys) s t) ∧
  (∀ s : State, s.isRoot = true → crosses s → ∃ t, exec .tlAlignStart s = .next t ∧ t.get F.TL_ALIGN_STAT_STATE = 3 ∧
    t = { s with regs := t.regs, stile := framesDown 1 s.stile, net := { s.net with aligning := true, upAligned := true } } ∧
    regsSame [Reg.key .TL_ALIGN_STAT []] s t) ∧
  (∀ s : State, s.isRoot = false → crosses s → exec .tlAlignStart s = .next { s with stile := framesDown 1 s.stile }) ∧
  (∀ (p : Fin 4) (s : State), s.portUp p = true → s.isDown p = true → exec (.alignExchangeTimer p) s = .next { s with
    net := handed p (.align ⟨none, none, none, none⟩ s.net.aligning (s.get F.TL_ALIGN_STAT_STATE == 3)) s.net }) ∧
  (∀ (residual : Int) (s : State), s.slews = true → residual.natAbs ≤ 1 →
    (signedOf (s.get F.TL_ALIGN_STAT_OFFSET) 16 - residual).natAbs * 1000000 ≤ ((s.now : Int) - s.net.slewFrom).toNat → ∃ t, exec (.alignSlewDone residual) s = .next t ∧
    t.get F.TL_ALIGN_STAT_STATE = 3 ∧ signedOf (t.get F.TL_ALIGN_STAT_OFFSET) 16 = residual ∧
    signedOf (t.get F.TL_ALIGN_PHASE_PHASE) 16 = max (-32767) (min 32767 (signedOf (s.get F.TL_ALIGN_PHASE_PHASE) 16 -
      (signedOf (s.get F.TL_ALIGN_STAT_OFFSET) 16 - residual))) ∧
    t = { s with regs := t.regs, net := { s.net with slewFrom := s.now } } ∧
    regsSame [Reg.key .TL_ALIGN_STAT [], Reg.key .TL_ALIGN_PHASE []] s t) ∧
  (∀ (p : Fin 4) (s : State), s.portUsed p = true → s.portUp p = false → s.portState p ≠ 4 →
    exec (.tlPeerSignal p) s = .next (s.set F.TL_PORT_STAT_STATE [p] 1)) ∧
  (∀ (p : Fin 4) (s : State), s.portUsed p = false ∨ s.portUp p = true ∨ s.portState p = 4 → exec (.tlPeerSignal p) s = .next s)

/-! ### Faults -/

/-- Detectors and their responses (R104, R454–R457, R460, R461, R464–R466): a bank that fails, a patrol read, a supply, the temperature; cores leaving and
returning to service; an injection armed, cancelled and ended; staged code. -/
def Obligations.FaultsAreDetected : Prop :=
  (∀ (b : Bool) (mv : Nat) (s : State), s.bankUsed b = false ∨ (s.injOn 0x14 (if b then 4 else 3) = false ∧ s.bankInRange b mv = true) →
    exec (.supplyBank ⟨b, mv⟩) s = .next (s.bankVolts b mv)) ∧
  (∀ (b : Bool) (mv : Nat) (s : State), s.bankUsed b = true → s.injOn 0x14 (if b then 4 else 3) = true ∨ s.bankInRange b mv = false →
    (∀ (k : Fin 16) (n : Fin 12), (s.ownsSlice k n && s.seOnBank b n) = false) →
    ∃ t, exec (.supplyBank ⟨b, mv⟩) s = .next t ∧
      (∀ n : Fin 12, t.get (if b then F.CH_BANK_STATUS_VIOB_OK else F.CH_BANK_STATUS_VIOA_OK) [n] = 0 ∧
        t.slices[n] = { s.slices[n] with strobes := t.slices[n].strobes, lanes := t.slices[n].lanes } ∧
        ∀ l : Fin 8, t.slices[n].lanes[l].safe = s.slices[n].lanes[l].safe ∧
          t.slices[n].lanes[l].kept = (t.laneBankOff n l || s.slices[n].lanes[l].hiz)) ∧
      bitOf (t.get F.FLT_SUPPLY_OK) (if b then 4 else 3) = false ∧ counted F.FLT_CNT_COUNT [0x13] 1 s t ∧
      t = { s.bankVolts b mv with regs := t.regs, slices := t.slices } ∧
      regsSame (Reg.key .FLT_SUPPLY [] :: Reg.key .FLT_CNT [0x13] :: (List.range 12).map (fun n => Reg.key .CH_BANK_STATUS [n])) s t) ∧
  (∀ (a : Nat) (s : State), a < s.get F.RM_MEM_INST_MIB * 2 ^ 20 → s.flt.inj = none → exec (.ddrPatrolRead a 0) s = .next s) ∧
  (∀ (a : Nat) (s : State), a < s.get F.RM_MEM_INST_MIB * 2 ^ 20 → s.flt.inj = none → a < 2 ^ 36 →
    (∃ t, exec (.ddrPatrolRead a 1) s = .next t ∧ counted F.FLT_CNT_COUNT [0] 1 s t ∧ t = { s with regs := t.regs } ∧
      regsSame [Reg.key .FLT_CNT [0]] s t) ∧
    (∃ t, exec (.ddrPatrolRead a 2) s = .next t ∧ counted F.FLT_CNT_COUNT [1] 1 s t ∧
      t.get F.FLT_DDR_ADDR_LO_ADDR + 2 ^ 32 * t.get F.FLT_DDR_ADDR_HI_ADDR = a ∧ t = { s with regs := t.regs } ∧
      regsSame [Reg.key .FLT_CNT [1], Reg.key .FLT_DDR_ADDR_LO [], Reg.key .FLT_DDR_ADDR_HI []] s t)) ∧
  (∀ (a : Nat) (ecc : Fin 3) (s : State), s.get F.RM_MEM_INST_MIB * 2 ^ 20 ≤ a → exec (.ddrPatrolRead a ecc) s = .fault (.noSuchAddress a)) ∧
  (∀ (dev : Int) (s : State), exec (.supply ⟨2, dev⟩) s = .next (if s.railOut 0x13 2 dev = true then s else s.setRail 2 true)) ∧
  (∀ (r : Fin 3) (dev : Int) (s : State), r ≠ 2 → s.railOut 0x12 r dev = false → exec (.supply ⟨r, dev⟩) s = .next (s.setRail r true)) ∧
  (∀ (r : Fin 3) (dev : Int) (s : State), r ≠ 2 → s.railOut 0x12 r dev = true → ∃ t, exec (.supply ⟨r, dev⟩) s = .next t ∧ bitOf (t.get F.FLT_SUPPLY_OK) r = false ∧ counted F.FLT_CNT_COUNT [0x11] 1 s t ∧
    (∀ (n : Fin 12) (l : Fin 8), t.slices[n].lanes[l].safe = .fault ∧ t.slices[n].feed.play = none ∧ t.slices[n].feed.queue = []) ∧
    (∀ o : Fin 16, t.aos[o].safe = .fault ∧ t.aos[o].feed.play = none ∧ t.aos[o].feed.queue = [])) ∧
  (∀ (x : Int) (s : State), -2048 ≤ x → x < s.get F.FLT_TEMP_CFG_WARN - 20 → x < s.get F.FLT_TEMP_CFG_TRIP - 50 → x < 2048 → s.flt.inj = none →
    s.get F.CAL_CFG_AUTO_EN = 0 →
    ∃ t, exec (.tempReading x) s = .next t ∧ signedOf (t.get F.FLT_TEMP_TEMP) 12 = x ∧ t.get F.FLT_TEMP_WARN = 0 ∧ t.get F.FLT_TEMP_TRIP = 0 ∧
      t = { s with regs := t.regs, flt := { s.flt with warnArmed := true, tripArmed := true }, cal := { s.cal with lastTemp := x } } ∧
      regsSame [Reg.key .FLT_TEMP []] s t) ∧
  (∀ (x : Int) (s : State), s.get F.FLT_TEMP_CFG_WARN ≤ x → x < s.get F.FLT_TEMP_CFG_TRIP - 50 → x < 2048 → s.flt.inj = none → s.flt.warnArmed = true →
    s.get F.CAL_CFG_AUTO_EN = 0 →
    ∃ t, exec (.tempReading x) s = .next t ∧ signedOf (t.get F.FLT_TEMP_TEMP) 12 = x ∧ t.get F.FLT_TEMP_WARN = 1 ∧ t.get F.FLT_TEMP_TRIP = 0 ∧
      counted F.FLT_CNT_COUNT [0xF] 1 s t ∧
      t = { s with regs := t.regs, flt := { s.flt with warnArmed := false, tripArmed := true }, cal := { s.cal with lastTemp := x } } ∧
      regsSame [Reg.key .FLT_TEMP [], Reg.key .FLT_CNT [0xF]] s t) ∧
  (∀ (x : Int) (s : State), s.get F.FLT_TEMP_CFG_TRIP ≤ x → s.flt.inj = none → s.flt.tripArmed = true →
    ∃ t, exec (.tempReading x) s = .next t ∧ t.get F.FLT_TEMP_TRIP = 1 ∧ counted F.FLT_CNT_COUNT [0x10] 1 s t ∧ t.flt.tripArmed = false ∧
      (∀ (n : Fin 12) (l : Fin 8), t.slices[n].lanes[l].safe = .fault) ∧ (∀ o : Fin 16, t.aos[o].safe = .fault)) ∧
  (∀ (c : Fin 4) (s : State), s.get F.FLT_CORE_STATE [c] = 0 → s.dedicatedCount + 1 ≤ s.otherCores c → s.cores[c].st = .idle → crosses s →
    ∃ t, exec (.fltCoreOffline c) s = .next t ∧ t.get F.FLT_CORE_STATE [c] = 2 ∧
      t = { s with regs := t.regs, cores := s.cores.set c { s.cores[c] with offReq := false }, stile := framesDown 1 s.stile } ∧ regsSame [Reg.key .FLT_CORE [c]] s t) ∧
  (∀ (c : Fin 4) (s : State), s.get F.FLT_CORE_STATE [c] = 0 → s.dedicatedCount + 1 ≤ s.otherCores c → s.cores[c].st ≠ .idle → crosses s →
    ∃ t, exec (.fltCoreOffline c) s = .next t ∧ t.get F.FLT_CORE_STATE [c] = 1 ∧
      t = { s with regs := t.regs, cores := s.cores.set c { s.cores[c] with offReq := true }, stile := framesDown 1 s.stile } ∧ regsSame [Reg.key .FLT_CORE [c]] s t) ∧
  (∀ (c : Fin 4) (s : State), s.get F.FLT_CORE_STATE [c] = 0 → s.otherCores c < s.dedicatedCount + 1 → crosses s →
    exec (.fltCoreOffline c) s = .next { s.raise F.FLT_CORE_REFUSED [c] with stile := framesDown 1 s.stile }) ∧
  (∀ (c : Fin 4) (s : State), crosses s → ∃ t, exec (.fltCoreOnline c) s = .next t ∧ t.get F.FLT_CORE_STATE [c] = 0 ∧ t.get F.FLT_CORE_AUTO [c] = 0 ∧
    t = { s with regs := t.regs, cores := s.cores.set c { s.cores[c] with offReq := false }, stile := framesDown 1 s.stile } ∧ regsSame [Reg.key .FLT_CORE [c]] s t) ∧
  (∀ (n : Fin 65536) (s : State), s.get F.FLT_INJ_CTRL_BUSY = 0 → n ≠ 0 → injUnit (s.get F.FLT_INJ_SEL_DET) (s.get F.FLT_INJ_SEL_UNIT) = true → crosses s →
    ∃ t, exec (.injectionArm n) s = .next t ∧ t.get F.FLT_INJ_CTRL_BUSY = 1 ∧ t.get F.FLT_INJ_CTRL_COUNT = n ∧
      t = { s with regs := t.regs, flt := { s.flt with
        inj := some ⟨s.get F.FLT_INJ_SEL_DET, s.get F.FLT_INJ_SEL_UNIT, s.get F.FLT_INJ_SEL_VARIANT == 1, n⟩, injAt := s.now }, stile := framesDown 1 s.stile } ∧
      regsSame [Reg.key .FLT_INJ_CTRL []] s t) ∧
  (∀ (n : Fin 65536) (s : State), s.get F.FLT_INJ_CTRL_BUSY = 0 → n ≠ 0 → injUnit (s.get F.FLT_INJ_SEL_DET) (s.get F.FLT_INJ_SEL_UNIT) = false → crosses s →
    ∃ t, exec (.injectionArm n) s = .next t ∧ raised F.FLT_INJ_CTRL_ERR [] t ∧ t.get F.FLT_INJ_CTRL_BUSY = 0 ∧
      t = { s with regs := t.regs, stile := framesDown 1 s.stile } ∧
      regsSame [Reg.key .FLT_INJ_CTRL []] s t) ∧
  (∀ (i : Inject) (s : State), s.flt.inj = some i → i.det ≠ 0x12 → i.det ≠ 0x13 → crosses s → ∃ t, exec .injectionCancel s = .next t ∧
    t.get F.FLT_INJ_CTRL_BUSY = 0 ∧ t = { s with regs := t.regs, flt := { s.flt with inj := none }, stile := framesDown 1 s.stile } ∧
    regsSame [Reg.key .FLT_INJ_CTRL []] s t) ∧
  (∀ (i : Inject) (s : State), s.flt.inj = some i → injTimed i.det = false ∨ (s.now : Int) - s.flt.injAt < 1638400 * i.left →
    exec .injectionDurationEnd s = .next s) ∧
  (∀ (i : Inject) (s : State), s.flt.inj = some i → injTimed i.det = true → (1638400 * i.left : Int) ≤ s.now - s.flt.injAt → i.unit_ < 5 →
    ∃ t, exec .injectionDurationEnd s = .next t ∧ t.get F.FLT_INJ_CTRL_BUSY = 0 ∧ raised F.FLT_INJ_CTRL_DONE [] t ∧
    t.get F.FLT_SUPPLY_OK = (if i.det = 0x12 ∨ i.det = 0x13 then putBits (s.get F.FLT_SUPPLY_OK) i.unit_ 1 1 else s.get F.FLT_SUPPLY_OK) ∧
    t = { s with regs := t.regs, flt := { s.flt with inj := none } } ∧ regsSame [Reg.key .FLT_INJ_CTRL [], Reg.key .FLT_SUPPLY []] s t) ∧
  (∀ (k : Fin 16) (s : State), s.sess[k].staged = none → crosses s → ∃ t, exec (.csStageSet k) s = .next t ∧ t.get F.FLT_CS_STAGE_STAGE [k] = 1 ∧
    t = { s with regs := t.regs, sess := s.sess.set k { s.sess[k] with staged := some s.sess[k].entries }, stile := framesDown 1 s.stile } ∧
    regsSame [Reg.key .FLT_CS_STAGE [k]] s t) ∧
  (∀ (k : Fin 16) (s : State), crosses s → ∃ t, exec (.csStageClear k) s = .next t ∧ t.get F.FLT_CS_STAGE_STAGE [k] = 0 ∧ t.get F.FLT_CS_SWAP_PENDING [k] = 0 ∧
    t = { s with regs := t.regs, sess := s.sess.set k { s.sess[k] with staged := none, swapWait := false }, stile := framesDown 1 s.stile } ∧
    regsSame [Reg.key .FLT_CS_STAGE [k], Reg.key .FLT_CS_SWAP [k]] s t) ∧
  (∀ (k : Fin 16) (e : SMap (Option Nat)) (s : State), s.sess[k].staged = some e → s.sess[k].seq = none → s.sess[k].burst = none → crosses s →
    ∃ t, exec (.csSwapGo k) s = .next t ∧ t.get F.FLT_CS_SWAP_PENDING [k] = 0 ∧
      t = { s with regs := t.regs, sess := s.sess.set k { s.sess[k] with entries := e, swapWait := false }, stile := framesDown 1 s.stile } ∧
      regsSame [Reg.key .FLT_CS_SWAP [k]] s t) ∧
  (∀ (k : Fin 16) (s : State), s.sess[k].staged ≠ none → s.sess[k].seq ≠ none → crosses s → ∃ t, exec (.csSwapGo k) s = .next t ∧
    t.get F.FLT_CS_SWAP_PENDING [k] = 1 ∧ t = { s with regs := t.regs, sess := s.sess.set k { s.sess[k] with swapWait := true }, stile := framesDown 1 s.stile } ∧
    regsSame [Reg.key .FLT_CS_SWAP [k]] s t)

/-! ### Non-volatile memories, power and boot -/

/-- The NVMs (R482–R484): LOAD stages the copy in use or an empty one; PROGRAM seals the staged copy, refuses one that fails a check, and writes the copy
not in use, which is in use once the write is verified; STORE_CAL writes the other calibration copy. -/
def Obligations.TheNvmsAreWritten : Prop :=
  (∀ s : State, s.get F.NVM_F_STAT_BUSY = 0 → crosses s → ∃ t, exec .nvmFLoad s = .next t ∧
    memBytes t.boot.stageF 0 4096 = (if cfgOk (s.cfgBytes s.cfgCopy) then s.cfgBytes s.cfgCopy else nvmBlank nvmMagicF 4096) ∧
    t = { s with boot := { s.boot with stageF := t.boot.stageF }, stile := framesDown 1 s.stile }) ∧
  (∀ (b : List Byte) (s : State), s.get F.NVM_F_STAT_BUSY = 0 →
    b = nvmSeal (memBytes s.boot.stageF 0 4096) (satAdd 32 (s.get F.NVM_F_COUNT_WRITE_COUNT) 1) → cfgErr b = none → crosses s →
    ∃ t, exec .nvmFProgram s = .next t ∧ memBytes t.boot.stageF 0 4096 = b ∧ memBytes t.nvmF (State.cfgAddr (!s.cfgCopy) + 4) 4092 = b.drop 4 ∧
      fieldAt (memBytes t.nvmF (State.cfgAddr (!s.cfgCopy)) 4) 0 4 = 0 ∧ bytesKept s.nvmF t.nvmF (State.cfgAddr (!s.cfgCopy)) 4096 ∧
      t.get F.NVM_F_STAT_BUSY = 1 ∧
      t = { s with regs := t.regs, nvmF := t.nvmF, boot := { s.boot with stageF := t.boot.stageF, writeCfg := some (!s.cfgCopy) }, stile := framesDown 1 s.stile } ∧
      regsSame [Reg.key .NVM_F_STAT []] s t) ∧
  (∀ (b : List Byte) (o : Nat) (s : State), s.get F.NVM_F_STAT_BUSY = 0 →
    b = nvmSeal (memBytes s.boot.stageF 0 4096) (satAdd 32 (s.get F.NVM_F_COUNT_WRITE_COUNT) 1) → cfgErr b = some o → crosses s →
    ∃ t, exec .nvmFProgram s = .next t ∧ raised F.NVM_F_STAT_PROG_ERR [] t ∧ t.get F.NVM_F_STAT_ERR_OFS = o % 4096 ∧
      t = { s with regs := t.regs, boot := { s.boot with stageF := t.boot.stageF }, stile := framesDown 1 s.stile } ∧ regsSame [Reg.key .NVM_F_STAT []] s t) ∧
  (∀ s : State, s.get F.NVM_F_STAT_BUSY = 0 → crosses s → ∃ t, exec .storeCal s = .next t ∧ t.get F.NVM_F_STAT_BUSY = 1 ∧
    t.calCopyOf (!s.calCopy) = none ∧ t.calCopyOf s.calCopy = s.calCopyOf s.calCopy ∧ t.boot.writeCal = some (!s.calCopy, s.calStored) ∧
    t = { s with regs := t.regs, boot := { s.boot with calCopies := t.boot.calCopies, writeCal := t.boot.writeCal }, stile := framesDown 1 s.stile } ∧
    regsSame [Reg.key .NVM_F_STAT []] s t) ∧
  (∀ (c : Bool) (s : State), s.boot.writeCfg = some c → ∃ t, exec (.nvmWriteDone false) s = .next t ∧
    fieldAt (memBytes t.nvmF (State.cfgAddr c) 4) 0 4 = nvmMagicF ∧ bytesKept s.nvmF t.nvmF (State.cfgAddr c) 4 ∧ t.get F.NVM_F_STAT_BUSY = 0 ∧
    t.cfgCopy = c ∧ t.get F.NVM_F_COUNT_WRITE_COUNT = leVal (memBytes s.nvmF (State.cfgAddr c + 8) 4) ∧
    t = { s with regs := t.regs, nvmF := t.nvmF, boot := { s.boot with writeCfg := none } } ∧
    regsSame [Reg.key .NVM_F_STAT [], Reg.key .NVM_F_COUNT []] s t) ∧
  (∀ (c : Bool) (us : List CalRecord) (s : State), s.boot.writeCfg = none → s.boot.writeCal = some (c, us) → ∃ t, exec (.nvmWriteDone false) s = .next t ∧
    t.calCopyOf c = some ⟨((s.calCopyOf s.calCopy).map (·.count)).getD 0 + 1, us⟩ ∧ t.calCopy = c ∧ t.get F.NVM_F_STAT_BUSY = 0 ∧
    t = { s with regs := t.regs, boot := { s.boot with calCopies := t.boot.calCopies, writeCal := none } } ∧ regsSame [Reg.key .NVM_F_STAT []] s t) ∧
  (∀ s : State, s.get F.NVM_H_STAT_BUSY = 0 → ∃ t, exec .nvmHLoad s = .next t ∧
    memBytes t.boot.stageH 0 256 = (if hostCopyOk (s.hCopyBytes s.hCopy) then s.hCopyBytes s.hCopy else nvmBlank nvmMagicH 256) ∧
    t = { s with boot := { s.boot with stageH := t.boot.stageH } }) ∧
  (∀ s : State, s.get F.NVM_H_STAT_BUSY = 0 → hostBytesOk (memBytes s.boot.stageH 0 256) = false → ∃ t, exec .nvmHProgram s = .next t ∧
    raised F.NVM_H_STAT_PROG_ERR [] t ∧ t = { s with regs := t.regs, boot := { s.boot with stageH := t.boot.stageH } } ∧
    regsSame [Reg.key .NVM_H_STAT []] s t) ∧
  (∀ s : State, s.get F.NVM_H_STAT_BUSY = 0 → hostBytesOk (memBytes s.boot.stageH 0 256) = true → ∃ t, exec .nvmHProgram s = .next t ∧
    t.get F.NVM_H_STAT_BUSY = 1 ∧ t.boot.writeH = some (!s.hCopy) ∧ bytesKept s.nvmH t.nvmH (State.hCopyAddr (!s.hCopy)) 256 ∧
    memBytes t.nvmH (State.hCopyAddr (!s.hCopy) + 16) 240 = memBytes s.boot.stageH 16 240 ∧
    t = { s with regs := t.regs, nvmH := t.nvmH, boot := { s.boot with stageH := t.boot.stageH, writeH := t.boot.writeH } } ∧
    regsSame [Reg.key .NVM_H_STAT []] s t) ∧
  (∀ (c : Bool) (s : State), s.boot.writeH = some c → ∃ t, exec (.nvmWriteDone true) s = .next t ∧
    fieldAt (memBytes t.nvmH (State.hCopyAddr c) 4) 0 4 = nvmMagicH ∧ bytesKept s.nvmH t.nvmH (State.hCopyAddr c) 4 ∧ t.get F.NVM_H_STAT_BUSY = 0 ∧
    t.hCopy = c ∧ t = { s with regs := t.regs, nvmH := t.nvmH, boot := { s.boot with writeH := none, copyH := some c } } ∧
    regsSame [Reg.key .NVM_H_STAT []] s t)

/-- Power, resets and boot (R119, R310, R425, R469–R474, R477, R481): what each of them leaves, which memories it keeps, and where the boot stands after
each of its steps. -/
def Obligations.TheDiesResetAndBoot : Prop :=
  (∀ (on : Bool) (s : State), (s.commit.pin.bind (fun (j : PinJob) => j.ring)) = none → ∃ t, exec (if on then .hostPowerOn else .hostConventionalReset) s = .next t ∧ t.host = State.reset.host ∧
    (∀ k : Nat, keyOnHost k = true → k ≠ Reg.key .NVM_H_STAT [] → t.getK k = resetVal k ∧ t.freshK k = 0) ∧
    (∀ k : Nat, keyOnHost k = false → t.getK k = s.getK k ∧ t.freshK k = s.freshK k) ∧
    t.boot.hostOn = (on || s.boot.hostOn) ∧ t.boot.stageH = [] ∧ memSame s t ∧ t.slices = s.slices ∧ t.aos = s.aos ∧ t.sess = s.sess ∧
    t.cores = s.cores ∧ t.tb = s.tb) ∧
  (∀ s : State, s.get F.ST_STATUS_FIELD ≠ 3 → s.commit = ⟨none, [], []⟩ →
    (∃ t, exec .fieldPowerOn s = .next t ∧ t.boot.fieldOn = true ∧ t.stile.fieldRuns = false ∧ t.slices = State.reset.slices ∧
      (∀ o : Fin 16, t.aos[o] = { State.reset.aos[o] with table := s.aos[o].table }) ∧
      (∀ g : Fin 4, t.fws[g] = { State.reset.fws[g] with table := s.fws[g].table }) ∧ t.sess = State.reset.sess ∧ t.host = s.host ∧ memSame s t ∧
      (∀ k : Nat, keyOnHost k = false → k ≠ 0x78000 → t.getK k = resetVal k)) ∧
    (∃ t, exec .fresetN s = .next t ∧ t.boot.fieldOn = s.boot.fieldOn ∧ t.stile.fieldRuns = false ∧ t.slices = State.reset.slices ∧
      (∀ o : Fin 16, t.aos[o] = { State.reset.aos[o] with table := s.aos[o].table }) ∧
      (∀ g : Fin 4, t.fws[g] = { State.reset.fws[g] with table := s.fws[g].table }) ∧ t.sess = State.reset.sess ∧ t.host = s.host ∧ memSame s t ∧
      (∀ k : Nat, keyOnHost k = false → k ≠ 0x78000 → t.getK k = resetVal k)) ∧
    (∃ t, exec .fieldSupplyLoss s = .next t ∧ t.boot.fieldOn = false ∧ t.stile.fieldRuns = false ∧ t.slices = State.reset.slices ∧
      t.aos = State.reset.aos ∧ t.fws = State.reset.fws ∧ t.sess = State.reset.sess ∧ t.host = s.host ∧ memSame s t ∧
      (∀ k : Nat, keyOnHost k = false → k ≠ 0x78000 → t.getK k = resetVal k))) ∧
  (∀ (mvA mvB : Nat) (s : State), s.stile.fieldRuns = false → s.boot.fieldOn = true →
    ∃ t, exec (.fieldBoot mvA mvB) s = .next t ∧ t.stile = { s.stile with fieldRuns := true, nvmRead := true } ∧
      t.get F.NVM_BOOT_STAT_NVM_DONE = 1 ∧ t.boot.bankMv = #v[mvA, mvB] ∧
      t.get F.FLT_SUPPLY_OK = 7 + 8 * (!t.bankUsed false || t.bankInRange false mvA).toNat + 16 * (!t.bankUsed true || t.bankInRange true mvB).toNat ∧
      t.get F.NVM_F_STAT_CFG_OK = (cfgOk (s.cfgBytes false) || cfgOk (s.cfgBytes true)).toNat ∧
      (∀ n : Fin 12, t.get F.CH_BANK_STATUS_VIOA_OK [n] = (!t.bankUsed false || t.bankInRange false mvA).toNat ∧
        t.get F.CH_BANK_STATUS_VIOB_OK [n] = (!t.bankUsed true || t.bankInRange true mvB).toNat) ∧
      (∀ (n : Fin 12) (l : Fin 8), cfgOk (s.cfgBytes false) = true → cfgOk (s.cfgBytes true) = false →
        t.slices[n].lanes[l].power = fieldAt (s.cfgBytes false) (0x40 + 8 * n + l) 1 % 4 ∧
        t.act F.CH_LANE_CFG_MODE [n, l] = fieldAt (s.cfgBytes false) (0x40 + 8 * n + l) 1 / 4 % 4) ∧
      (∀ o : Fin 16, cfgOk (s.cfgBytes false) = false → cfgOk (s.cfgBytes true) = false → t.aos[o].clamped = true ∧ t.aos[o].park = none) ∧
      memSame s t ∧ t.host = s.host ∧ t.cores = s.cores ∧ t.sess = s.sess) ∧
  (∀ (mib : Fin 131072) (s : State), s.stile.fieldRuns = true → s.boot.boot = 0 → ∃ t, exec (.ddrTrainingDone true mib) s = .next t ∧
    t.get F.RM_MEM_INST_MIB = mib ∧ t.get F.NVM_BOOT_STAT_DDR_DONE = 1 ∧ t = { s with regs := t.regs } ∧
    regsSame [Reg.key .RM_MEM_INST [], Reg.key .NVM_BOOT_STAT []] s t) ∧
  (∀ (mib : Fin 131072) (s : State), s.stile.fieldRuns = true → s.boot.boot ≠ 0 → ∃ t, exec (.ddrTrainingDone false mib) s = .next t ∧
    t.get F.NVM_BOOT_STAT_DDR_FAIL = 1 ∧ t.get F.NVM_BOOT_STAT_SPI_STATE = 1 ∧ t.get F.NVM_BOOT_STAT_BOOT_BUSY = 1 ∧
    t.get F.NVM_BOOT_STAT_SPI_ERR = 0 ∧ t = { s with regs := t.regs } ∧
    regsSame [Reg.key .NVM_BOOT_CMT [], Reg.key .NVM_BOOT_STAT []] s t) ∧
  (∀ (header image script : List Byte) (s : State), s.get F.NVM_BOOT_STAT_SPI_STATE = 1 → bootHeaderBad (padTo 32 header) = true →
    ∃ t, exec (.spiNorBootDone header image script) s = .next t ∧ t.get F.NVM_BOOT_STAT_BOOT_BUSY = 0 ∧
      t.get F.NVM_BOOT_STAT_SPI_STATE = (if s.boot.boot = 2 then 0 else 3) ∧ t.get F.NVM_BOOT_STAT_SPI_ERR = (if s.boot.boot = 2 then 0 else 0x20) ∧
      t = { s with regs := t.regs } ∧ regsSame [Reg.key .NVM_BOOT_STAT []] s t) ∧
  (∀ (header image : List Byte) (s : State), s.get F.NVM_BOOT_STAT_SPI_STATE = 1 → header.length = 32 → bootHeaderBad header = false →
    fieldAt header 16 4 = 0 → fieldAt header 7 1 = 0 → fieldAt header 8 4 + fieldAt image 12 4 ≤ 2 ^ 24 → fieldAt header 12 4 ≤ 2 ^ 24 →
    image.length = fieldAt image 12 4 → s.imageErr (Fin.ofNat 16 (fieldAt header 6 1)) image (fieldAt image 12 4) true = none →
    ∃ t, exec (.spiNorBootDone header image []) s = .next t ∧ t.get F.NVM_BOOT_STAT_BOOT_BUSY = 0 ∧ t.get F.NVM_BOOT_STAT_SPI_STATE = 2 ∧
      t.get F.NVM_BOOT_STAT_SPI_ERR = 0 ∧
      t.act F.RM_OWN_CS_REGIONS [(Fin.ofNat 16 (fieldAt header 6 1)).val] = fieldAt image 8 2 % 2 ^ F.RM_OWN_CS_REGIONS.width)

/-! ### The machine as a whole -/

/-- What reset leaves (R16, R61, R164, R171, R425, R471, R472, R485): every setup register at the value that the register map gives it, both of its copies
included, nothing counted; FIELD ABSENT and the time base in NOREF; no unit plays, no core runs, no session holds a sequence; no command waits; and the
state is in its canonical form. Values that the spec does not give are the model's choice (log 1). -/
def Obligations.ResetLeavesTheMachineIdle : Prop :=
  (∀ k : Nat, State.reset.getK k = resetVal k ∧ State.reset.shadowK k = resetVal k ∧ State.reset.activeK k = resetVal k ∧ State.reset.freshK k = 0) ∧
  State.reset.get F.ST_STATUS_FIELD = 0 ∧ State.reset.get F.TB_STATUS_STATE = 0 ∧ State.reset.now = 0 ∧
  (∀ n : Fin 12, State.reset.slices[n].feed.play = none ∧ State.reset.slices[n].feed.queue = []) ∧
  (∀ o : Fin 16, State.reset.aos[o].feed.play = none ∧ State.reset.aos[o].clamped = true) ∧
  (∀ c : Fin 4, State.reset.cores[c].st = .idle) ∧
  (∀ k : Fin 16, State.reset.sess[k].seq = none ∧ State.reset.sess[k].burst = none ∧ State.reset.host[k].queue = [] ∧ State.reset.host[k].live = []) ∧
  State.reset.pending = [] ∧ State.reset.canonical

/-- Every step keeps the canonical form of the memories and of the copies of the setup registers (the model's own invariant: equal contents are equal
data). -/
def Obligations.CanonicalFormIsKept : Prop := ∀ s t : State, s.canonical → step s = .next t → t.canonical

/-- Every command of the table, each of the 207 constructors of Instr, ends in a next state from every state and with every operand, which leaves the queue
of waiting commands alone and draws free values in order (the queue and the counter of free values are the model's own, log 6); a patrol read needs an
address of the installed memory, and at an address beyond it stops (R358, R457; the stop is log 44). -/
def Obligations.EveryCommandCompletes : Prop :=
  (∀ (c : Instr) (s : State), (∀ (a : Nat) (ecc : Fin 3), c = .ddrPatrolRead a ecc → a < s.get F.RM_MEM_INST_MIB * 2 ^ 20) →
    ∃ t, exec c s = .next t ∧ t.pending = s.pending ∧ s.freeCtr ≤ t.freeCtr) ∧
  (∀ (a : Nat) (ecc : Fin 3) (s : State), s.get F.RM_MEM_INST_MIB * 2 ^ 20 ≤ a → exec (.ddrPatrolRead a ecc) s = .fault (.noSuchAddress a))
end

