-- ==== Sys2Proof/Laws/Registers.lean ====
section
/-! SUPPORT. Laws of sparse maps, bit fields and the register file: a read after a write, and what a write leaves alone. -/

namespace Sys2Proof.Machine

/-! ### Sparse maps -/

theorem smGet_append_ne {α : Type} (d : α) (a b : Nat) (v : α) (m : SMap α) (h : b ≠ a) : smGet d (smInsert a v m) b = smGet d m b := by
  induction m with
  | nil => simp [smInsert, smGet, h]
  | cons p t ih =>
    obtain ⟨k, w⟩ := p
    simp only [smInsert]
    split
    · simp [smGet, h]
    · simp [smGet, ih]

theorem smGet_erase_ne {α : Type} (d : α) (a b : Nat) (m : SMap α) (h : b ≠ a) : smGet d (smErase a m) b = smGet d m b := by
  induction m with
  | nil => rfl
  | cons p t ih =>
    obtain ⟨k, w⟩ := p
    simp only [smErase, List.filter_cons] at *
    by_cases hk : k = a
    · subst hk
      simp [smGet, h, ih]
    · simp [hk, smGet, ih]

theorem smGet_erase_self {α : Type} (d : α) (a : Nat) (m : SMap α) : smGet d (smErase a m) a = d := by
  induction m with
  | nil => rfl
  | cons p t ih =>
    obtain ⟨k, w⟩ := p
    simp only [smErase, List.filter_cons] at *
    by_cases hk : k = a
    · simp [hk, ih]
    · simp [hk, smGet, ih, Ne.symm hk]

theorem smGet_insert_self {α : Type} (d : α) (a : Nat) (v : α) (m : SMap α) (h : ∀ p ∈ m, p.1 ≠ a) : smGet d (smInsert a v m) a = v := by
  induction m with
  | nil => simp [smInsert, smGet]
  | cons p t ih =>
    obtain ⟨k, w⟩ := p
    have hk : k ≠ a := h (k, w) (by simp)
    simp only [smInsert]
    split
    · simp [smGet]
    · simp [smGet, Ne.symm hk, ih (fun q hq => h q (by simp [hq]))]

/-- A read after a write of the same key. -/
theorem smGet_set_self {α : Type} [DecidableEq α] (d : α) (m : SMap α) (a : Nat) (v : α) : smGet d (smSet d m a v) a = v := by
  unfold smSet
  split
  · rw [smGet_erase_self]; simp [*]
  · exact smGet_insert_self d a v _ (by intro p hp; simp [smErase] at hp; exact hp.2)

/-- A read after a write of another key. -/
theorem smGet_set_ne {α : Type} [DecidableEq α] (d e : α) (m : SMap α) (a b : Nat) (v : α) (h : b ≠ a) :
    smGet e (smSet d m a v) b = smGet e m b := by
  unfold smSet
  split
  · exact smGet_erase_ne e a b m h
  · rw [smGet_append_ne e a b v _ h, smGet_erase_ne e a b m h]

/-! ### Bit fields -/

theorem putBits_lt (v lsb w x : Nat) (hv : v < 2 ^ 32) (h : lsb + w ≤ 32) : putBits v lsb w x < 2 ^ 32 := by
  unfold putBits
  have h1 : v / 2 ^ (lsb + w) < 2 ^ (32 - (lsb + w)) := by
    rw [Nat.div_lt_iff_lt_mul (by positivity), ← Nat.pow_add]
    rwa [show 32 - (lsb + w) + (lsb + w) = 32 by omega]
  have h2 : x % 2 ^ w < 2 ^ w := Nat.mod_lt _ (by positivity)
  have h3 : v % 2 ^ lsb < 2 ^ lsb := Nat.mod_lt _ (by positivity)
  have h4 : (2 : Nat) ^ (32 - (lsb + w)) * 2 ^ (lsb + w) = 2 ^ 32 := by
    rw [← Nat.pow_add, show 32 - (lsb + w) + (lsb + w) = 32 by omega]
  have h5 : (2 : Nat) ^ (lsb + w) = 2 ^ w * 2 ^ lsb := by rw [Nat.pow_add, Nat.mul_comm]
  have h6 : (x % 2 ^ w + 1) * 2 ^ lsb ≤ 2 ^ w * 2 ^ lsb := Nat.mul_le_mul_right _ h2
  have h7 : (v / 2 ^ (lsb + w) + 1) * 2 ^ (lsb + w) ≤ 2 ^ (32 - (lsb + w)) * 2 ^ (lsb + w) := Nat.mul_le_mul_right _ h1
  nlinarith

theorem bitsOf_putBits_self (v lsb w x : Nat) : bitsOf (putBits v lsb w x) lsb w = x % 2 ^ w := by
  unfold bitsOf putBits
  have h3 : v % 2 ^ lsb < 2 ^ lsb := Nat.mod_lt _ (by positivity)
  have h5 : (2 : Nat) ^ (lsb + w) = 2 ^ w * 2 ^ lsb := by rw [Nat.pow_add, Nat.mul_comm]
  have h6 : v / 2 ^ (lsb + w) * 2 ^ (lsb + w) + x % 2 ^ w * 2 ^ lsb + v % 2 ^ lsb
      = v % 2 ^ lsb + 2 ^ lsb * (x % 2 ^ w + 2 ^ w * (v / 2 ^ (lsb + w))) := by rw [h5]; ring
  rw [h6, Nat.add_mul_div_left _ _ (by positivity), Nat.div_eq_of_lt h3, Nat.zero_add, Nat.add_mul_mod_self_left, Nat.mod_mod]

theorem bitsOf_putBits_below (v lsb w x lsb2 w2 : Nat) (h : lsb2 + w2 ≤ lsb) : bitsOf (putBits v lsb w x) lsb2 w2 = bitsOf v lsb2 w2 := by
  unfold bitsOf putBits
  obtain ⟨c, rfl⟩ : ∃ c, lsb = lsb2 + w2 + c := ⟨lsb - (lsb2 + w2), by omega⟩
  have e1 : (2 : Nat) ^ (lsb2 + w2 + c + w) = 2 ^ lsb2 * (2 ^ w2 * (2 ^ c * 2 ^ w)) := by simp [Nat.pow_add, Nat.mul_assoc]
  have e2 : (2 : Nat) ^ (lsb2 + w2 + c) = 2 ^ lsb2 * (2 ^ w2 * 2 ^ c) := by simp [Nat.pow_add, Nat.mul_assoc]
  have h6 : v / 2 ^ (lsb2 + w2 + c + w) * 2 ^ (lsb2 + w2 + c + w) + x % 2 ^ w * 2 ^ (lsb2 + w2 + c) + v % 2 ^ (lsb2 + w2 + c)
      = v % 2 ^ (lsb2 + w2 + c) + 2 ^ lsb2 * (2 ^ w2 * (v / 2 ^ (lsb2 + w2 + c + w) * (2 ^ c * 2 ^ w) + x % 2 ^ w * 2 ^ c)) := by
    rw [e1, e2]; ring
  rw [h6, Nat.add_mul_div_left _ _ (by positivity), Nat.add_mul_mod_self_left, e2, Nat.mod_mul_right_div_self, Nat.mod_mul_right_mod]

theorem bitsOf_putBits_above (v lsb w x lsb2 w2 : Nat) (h : lsb + w ≤ lsb2) : bitsOf (putBits v lsb w x) lsb2 w2 = bitsOf v lsb2 w2 := by
  unfold bitsOf putBits
  obtain ⟨c, rfl⟩ : ∃ c, lsb2 = lsb + w + c := ⟨lsb2 - (lsb + w), by omega⟩
  have h3 : v % 2 ^ lsb < 2 ^ lsb := Nat.mod_lt _ (by positivity)
  have h2 : x % 2 ^ w < 2 ^ w := Nat.mod_lt _ (by positivity)
  have h5 : (2 : Nat) ^ (lsb + w) = 2 ^ w * 2 ^ lsb := by rw [Nat.pow_add, Nat.mul_comm]
  have h6 : (x % 2 ^ w + 1) * 2 ^ lsb ≤ 2 ^ w * 2 ^ lsb := Nat.mul_le_mul_right _ h2
  have h7 : x % 2 ^ w * 2 ^ lsb + v % 2 ^ lsb < 2 ^ (lsb + w) := by nlinarith
  have h8 : v / 2 ^ (lsb + w) * 2 ^ (lsb + w) + x % 2 ^ w * 2 ^ lsb + v % 2 ^ lsb
      = (x % 2 ^ w * 2 ^ lsb + v % 2 ^ lsb) + 2 ^ (lsb + w) * (v / 2 ^ (lsb + w)) := by ring
  rw [Nat.pow_add 2 (lsb + w) c, ← Nat.div_div_eq_div_mul, ← Nat.div_div_eq_div_mul, h8, Nat.add_mul_div_left _ _ (by positivity),
    Nat.div_eq_of_lt h7, Nat.zero_add]

theorem putBits_bits (w : Word) (lsb n x : Nat) (h : lsb + n ≤ 32) :
    (BitVec.ofNat 32 (putBits w.toNat lsb n x)).toNat = putBits w.toNat lsb n x := by
  rw [BitVec.toNat_ofNat, Nat.mod_eq_of_lt (putBits_lt _ _ _ _ w.isLt h)]

/-! ### Register copies -/

namespace State

@[simp] theorem getK_putK_self (s : State) (k : Nat) (v : Word) : (s.putK k v).getK k = v := smGet_set_self _ _ _ _

theorem getK_putK_ne (s : State) (k j : Nat) (v : Word) (h : j ≠ k) : (s.putK k v).getK j = s.getK j := smGet_set_ne _ _ _ _ _ _ h

@[simp] theorem shadowK_putShadow_self (s : State) (k : Nat) (v : Word) : (s.putShadow k v).shadowK k = v := smGet_set_self _ _ _ _

theorem shadowK_putShadow_ne (s : State) (k j : Nat) (v : Word) (h : j ≠ k) : (s.putShadow k v).shadowK j = s.shadowK j :=
  smGet_set_ne _ _ _ _ _ _ h

@[simp] theorem activeK_putActive_self (s : State) (k : Nat) (v : Word) : (s.putActive k v).activeK k = v := smGet_set_self _ _ _ _

theorem activeK_putActive_ne (s : State) (k j : Nat) (v : Word) (h : j ≠ k) : (s.putActive k v).activeK j = s.activeK j :=
  smGet_set_ne _ _ _ _ _ _ h

@[simp] theorem freshK_putFresh_self (s : State) (k : Nat) (v : Word) : (s.putFresh k v).freshK k = v := smGet_set_self _ _ _ _

theorem freshK_putFresh_ne (s : State) (k j : Nat) (v : Word) (h : j ≠ k) : (s.putFresh k v).freshK j = s.freshK j :=
  smGet_set_ne _ _ _ _ _ _ h

@[simp] theorem activeK_putK (s : State) (k j : Nat) (v : Word) : (s.putK k v).activeK j = s.activeK j := (rfl)
@[simp] theorem shadowK_putK (s : State) (k j : Nat) (v : Word) : (s.putK k v).shadowK j = s.shadowK j := (rfl)
@[simp] theorem freshK_putK (s : State) (k j : Nat) (v : Word) : (s.putK k v).freshK j = s.freshK j := (rfl)
@[simp] theorem getK_putShadow (s : State) (k j : Nat) (v : Word) : (s.putShadow k v).getK j = s.getK j := (rfl)
@[simp] theorem activeK_putShadow (s : State) (k j : Nat) (v : Word) : (s.putShadow k v).activeK j = s.activeK j := (rfl)
@[simp] theorem freshK_putShadow (s : State) (k j : Nat) (v : Word) : (s.putShadow k v).freshK j = s.freshK j := (rfl)
@[simp] theorem getK_putActive (s : State) (k j : Nat) (v : Word) : (s.putActive k v).getK j = s.getK j := (rfl)
@[simp] theorem shadowK_putActive (s : State) (k j : Nat) (v : Word) : (s.putActive k v).shadowK j = s.shadowK j := (rfl)
@[simp] theorem freshK_putActive (s : State) (k j : Nat) (v : Word) : (s.putActive k v).freshK j = s.freshK j := (rfl)
@[simp] theorem getK_putFresh (s : State) (k j : Nat) (v : Word) : (s.putFresh k v).getK j = s.getK j := (rfl)
@[simp] theorem activeK_putFresh (s : State) (k j : Nat) (v : Word) : (s.putFresh k v).activeK j = s.activeK j := (rfl)
@[simp] theorem shadowK_putFresh (s : State) (k j : Nat) (v : Word) : (s.putFresh k v).shadowK j = s.shadowK j := (rfl)

/-! ### Fields -/

/-- A field reads as written, cut to its width. -/
theorem get_set_self (s : State) (f : Fld) (ix : List Nat) (v : Nat) (h : f.lsb + f.width ≤ 32) :
    (s.set f ix v).get f ix = v % 2 ^ f.width := by
  simp only [State.get, State.set, getK_putK_self]
  rw [putBits_bits _ _ _ _ h, bitsOf_putBits_self]

/-- A write leaves every register at another key as it was. -/
theorem getK_set_ne (s : State) (f : Fld) (ix : List Nat) (v k : Nat) (h : k ≠ f.reg.key ix) : (s.set f ix v).getK k = s.getK k :=
  getK_putK_ne _ _ _ _ h

theorem get_set_key (s : State) (f g : Fld) (ix jx : List Nat) (v : Nat) (h : g.reg.key jx ≠ f.reg.key ix) :
    (s.set f ix v).get g jx = s.get g jx := by
  simp only [State.get, getK_set_ne _ _ _ _ _ h]

/-- A write leaves the other fields of its register as they were. -/
theorem get_set_field (s : State) (f g : Fld) (ix jx : List Nat) (v : Nat) (h : f.lsb + f.width ≤ 32)
    (h2 : g.lsb + g.width ≤ f.lsb ∨ f.lsb + f.width ≤ g.lsb) : (s.set f ix v).get g jx = s.get g jx := by
  by_cases hk : g.reg.key jx = f.reg.key ix
  · simp only [State.get, State.set, hk, getK_putK_self]
    rw [putBits_bits _ _ _ _ h]
    rcases h2 with h2 | h2
    · rw [bitsOf_putBits_below _ _ _ _ _ _ h2]
    · rw [bitsOf_putBits_above _ _ _ _ _ _ h2]
  · exact get_set_key s f g ix jx v hk

@[simp] theorem activeK_set (s : State) (f : Fld) (ix : List Nat) (v k : Nat) : (s.set f ix v).activeK k = s.activeK k := (rfl)
@[simp] theorem act_set (s : State) (f g : Fld) (ix jx : List Nat) (v : Nat) : (s.set f ix v).act g jx = s.act g jx := (rfl)
@[simp] theorem freshK_set (s : State) (f : Fld) (ix : List Nat) (v k : Nat) : (s.set f ix v).freshK k = s.freshK k := (rfl)
@[simp] theorem get_raise (s : State) (f g : Fld) (ix jx : List Nat) : (s.raise f ix).get g jx = s.get g jx := (rfl)
@[simp] theorem act_raise (s : State) (f g : Fld) (ix jx : List Nat) : (s.raise f ix).act g jx = s.act g jx := (rfl)
@[simp] theorem get_count (s : State) (f g : Fld) (ix jx : List Nat) (n : Nat) : (s.count f ix n).get g jx = s.get g jx := (rfl)
@[simp] theorem act_count (s : State) (f g : Fld) (ix jx : List Nat) (n : Nat) : (s.count f ix n).act g jx = s.act g jx := (rfl)

/-- What a field adds in this event cycle. -/
theorem freshK_count_self (s : State) (f : Fld) (ix : List Nat) (n : Nat) (h : f.lsb + f.width ≤ 32) :
    bitsOf ((s.count f ix n).freshK (f.reg.key ix)).toNat f.lsb f.width
      = satAdd f.width (bitsOf (s.freshK (f.reg.key ix)).toNat f.lsb f.width) n % 2 ^ f.width := by
  simp only [State.count, freshK_putFresh_self]
  rw [putBits_bits _ _ _ _ h, bitsOf_putBits_self]

theorem freshK_raise_self (s : State) (f : Fld) (ix : List Nat) (h : f.lsb + f.width ≤ 32) :
    bitsOf ((s.raise f ix).freshK (f.reg.key ix)).toNat f.lsb f.width = 2 ^ f.width - 1 := by
  simp only [State.raise, freshK_putFresh_self]
  rw [putBits_bits _ _ _ _ h, bitsOf_putBits_self, Nat.mod_eq_of_lt]
  have : 0 < 2 ^ f.width := by positivity
  omega

theorem freshK_count_ne (s : State) (f : Fld) (ix : List Nat) (n k : Nat) (h : k ≠ f.reg.key ix) : (s.count f ix n).freshK k = s.freshK k :=
  freshK_putFresh_ne _ _ _ _ h

theorem freshK_raise_ne (s : State) (f : Fld) (ix : List Nat) (k : Nat) (h : k ≠ f.reg.key ix) : (s.raise f ix).freshK k = s.freshK k :=
  freshK_putFresh_ne _ _ _ _ h

end State

end Sys2Proof.Machine
end

