-- ==== Sys2Proof/Laws/Canonical.lean ====
section
/-! SUPPORT. Every operation over sparse maps and memories keeps their canonical form. -/

namespace Sys2Proof.Machine

theorem smWf_iff {α : Type} [DecidableEq α] (d : Nat → α) (m : SMap α) :
    smWf d m = true ↔ m.Pairwise (fun p q => p.1 < q.1) ∧ ∀ p ∈ m, p.2 ≠ d p.1 := by
  simp [smWf]

theorem smWf_filter {α : Type} [DecidableEq α] (d : Nat → α) (m : SMap α) (p : Nat × α → Bool) (h : smWf d m = true) :
    smWf d (m.filter p) = true := by
  rw [smWf_iff] at *
  exact ⟨h.1.filter _, fun q hq => h.2 q (List.mem_filter.mp hq).1⟩

theorem smWf_erase {α : Type} [DecidableEq α] (d : Nat → α) (m : SMap α) (a : Nat) (h : smWf d m = true) : smWf d (smErase a m) = true :=
  smWf_filter d m _ h

theorem mem_smInsert {α : Type} (a : Nat) (v : α) (m : SMap α) (q : Nat × α) : q ∈ smInsert a v m ↔ q = (a, v) ∨ q ∈ m := by
  induction m with
  | nil => simp [smInsert]
  | cons p t ih =>
    obtain ⟨k, w⟩ := p
    simp only [smInsert]
    split
    · simp
    · simp only [List.mem_cons, ih]
      tauto

theorem smWf_insert {α : Type} [DecidableEq α] (d : Nat → α) (m : SMap α) (a : Nat) (v : α) (hv : v ≠ d a) (hn : ∀ q ∈ m, q.1 ≠ a)
    (h : smWf d m = true) : smWf d (smInsert a v m) = true := by
  rw [smWf_iff] at *
  refine ⟨?_, fun q hq => ?_⟩
  · have hp := h.1
    clear h hv
    induction m with
    | nil => simp [smInsert]
    | cons p t ih =>
      obtain ⟨k, w⟩ := p
      rw [List.pairwise_cons] at hp
      simp only [smInsert]
      split
      · rename_i hlt
        rw [List.pairwise_cons]
        refine ⟨fun q hq => ?_, List.pairwise_cons.mpr hp⟩
        rcases List.mem_cons.mp hq with rfl | hq
        · exact hlt
        · exact lt_trans hlt (hp.1 q hq)
      · rename_i hlt
        rw [List.pairwise_cons]
        refine ⟨fun q hq => ?_, ih (fun q hq => hn q (by simp [hq])) hp.2⟩
        rcases (mem_smInsert a v t q).mp hq with rfl | hq
        · have : k ≠ a := hn (k, w) (by simp)
          simp only
          omega
        · exact hp.1 q hq
  · rcases (mem_smInsert a v m q).mp hq with rfl | hq
    · exact hv
    · exact h.2 q hq

theorem smWf_set {α : Type} [DecidableEq α] (d : Nat → α) (m : SMap α) (a : Nat) (v : α) (h : smWf d m = true) :
    smWf d (smSet (d a) m a v) = true := by
  unfold smSet
  split
  · exact smWf_erase d m a h
  · rename_i hv
    exact smWf_insert d _ a v hv (by intro q hq; simp [smErase] at hq; exact hq.2) (smWf_erase d m a h)

theorem memWf_put (m : List Host.Cell) (a : Nat) (b : Byte) (h : memWf m = true) : memWf (memPut m a b) = true :=
  smWf_set (fun _ => 0) m a b h

theorem memWf_puts (bs : List Byte) : ∀ (m : List Host.Cell) (a : Nat), memWf m = true → memWf (memPuts m a bs) = true := by
  induction bs with
  | nil => intro m a h; exact h
  | cons b t ih => intro m a h; exact ih _ _ (memWf_put m a b h)

theorem memWf_zero (m : List Host.Cell) (a n : Nat) (h : memWf m = true) : memWf (memZero m a n) = true := smWf_filter _ m _ h

theorem memByte_put_self (m : List Host.Cell) (a : Nat) (b : Byte) : memByte (memPut m a b) a = b := smGet_set_self _ _ _ _

theorem memByte_put_ne (m : List Host.Cell) (a c : Nat) (b : Byte) (h : c ≠ a) : memByte (memPut m a b) c = memByte m c :=
  smGet_set_ne _ _ _ _ _ _ h

/-- A store changes no byte outside the bytes it stores. -/
theorem memByte_puts_out (bs : List Byte) : ∀ (m : List Host.Cell) (a c : Nat), c < a ∨ a + bs.length ≤ c →
    memByte (memPuts m a bs) c = memByte m c := by
  induction bs with
  | nil => intro m a c _; rfl
  | cons b t ih =>
    intro m a c h
    simp only [List.length_cons] at h
    simp only [memPuts]
    rw [ih _ _ _ (by omega), memByte_put_ne _ _ _ _ (by omega)]

/-- A stored byte reads as stored. -/
theorem memByte_puts_in (bs : List Byte) : ∀ (m : List Host.Cell) (a i : Nat) (h : i < bs.length),
    memByte (memPuts m a bs) (a + i) = bs[i] := by
  induction bs with
  | nil => intro m a i h; simp at h
  | cons b t ih =>
    intro m a i h
    simp only [memPuts]
    cases i with
    | zero => rw [memByte_puts_out _ _ _ _ (by omega)]; simpa using memByte_put_self m a b
    | succ j => rw [show a + (j + 1) = a + 1 + j by omega, ih _ _ _ (by simpa using h)]; simp

end Sys2Proof.Machine
end

