-- ==== Sys2Proof/Laws/Commits.lean ====
section
/-! SUPPORT. Commits whose event graph has no path of two edges: the loops of R335 give no refusal, and the field checks alone decide. -/

namespace Sys2Proof.Machine

/-- A graph of trigger edges in which no edge starts where another ends has no failing cycle (R334, R335). -/
theorem loopFails_of_flat (c : State)
    (h : c.loopEdges.all (fun e => e.kind == 2 && c.loopEdges.all (fun y => y.dst != e.src)) = true) : c.loopFails = [] := by
  simp only [List.all_eq_true, Bool.and_eq_true, beq_iff_eq, bne_iff_ne] at h
  have key : ∀ x, c.failingInto c.loopEdges x = [] := by
    intro x
    unfold State.failingInto
    rw [if_neg]
    simp only [Bool.and_eq_true, List.any_eq_true, beq_iff_eq, not_and, not_exists]
    exact fun ⟨e, he, hs⟩ y hy hd => (h e he).2 y hy (hd.trans hs.symm)
  have none : (List.range 256).find? (fun x => !(c.failingInto c.loopEdges x).isEmpty) = none := by
    simp [List.find?_eq_none, key]
  simp only [State.loopFails, none]

/-- The first failure of a commit whose target exists, when no loop fails. -/
theorem commitFirst_of_flat {s c : State} {v : Scope} {vals : List (Nat × Word)} {boot : Bool} (hl : c.loopFails = [])
    (ht : State.targetOk v.code v.target = true) : s.commitFirst c v vals boot = leastFail (s.fieldFails c v vals boot ++ c.pinFails v) := by
  have hf : s.commitFails c v vals boot = s.fieldFails c v vals boot := by
    simp [State.commitFails, hl]
  rw [State.commitFirst, hf, ht]
  rfl

end Sys2Proof.Machine
end

