-- ==== Sys2Proof/Laws/State.lean ====
section
/-! SUPPORT. What each update of the state leaves: one lemma per field and per view of the registers. -/

namespace Sys2Proof.Machine.State

variable (s : State)

/-! ### putK -/

@[simp] theorem putK_tb (k : Nat) (v : Word) : (s.putK k v).tb = s.tb := (rfl)
@[simp] theorem putK_slices (k : Nat) (v : Word) : (s.putK k v).slices = s.slices := (rfl)
@[simp] theorem putK_cores (k : Nat) (v : Word) : (s.putK k v).cores = s.cores := (rfl)
@[simp] theorem putK_cs (k : Nat) (v : Word) : (s.putK k v).cs = s.cs := (rfl)
@[simp] theorem putK_sess (k : Nat) (v : Word) : (s.putK k v).sess = s.sess := (rfl)
@[simp] theorem putK_host (k : Nat) (v : Word) : (s.putK k v).host = s.host := (rfl)
@[simp] theorem putK_aos (k : Nat) (v : Word) : (s.putK k v).aos = s.aos := (rfl)
@[simp] theorem putK_fws (k : Nat) (v : Word) : (s.putK k v).fws = s.fws := (rfl)
@[simp] theorem putK_trigs (k : Nat) (v : Word) : (s.putK k v).trigs = s.trigs := (rfl)
@[simp] theorem putK_masks (k : Nat) (v : Word) : (s.putK k v).masks = s.masks := (rfl)
@[simp] theorem putK_inputs (k : Nat) (v : Word) : (s.putK k v).inputs = s.inputs := (rfl)
@[simp] theorem putK_meas (k : Nat) (v : Word) : (s.putK k v).meas = s.meas := (rfl)
@[simp] theorem putK_gleaners (k : Nat) (v : Word) : (s.putK k v).gleaners = s.gleaners := (rfl)
@[simp] theorem putK_drained (k : Nat) (v : Word) : (s.putK k v).drained = s.drained := (rfl)
@[simp] theorem putK_cal (k : Nat) (v : Word) : (s.putK k v).cal = s.cal := (rfl)
@[simp] theorem putK_flt (k : Nat) (v : Word) : (s.putK k v).flt = s.flt := (rfl)
@[simp] theorem putK_commit (k : Nat) (v : Word) : (s.putK k v).commit = s.commit := (rfl)
@[simp] theorem putK_stile (k : Nat) (v : Word) : (s.putK k v).stile = s.stile := (rfl)
@[simp] theorem putK_hr (k : Nat) (v : Word) : (s.putK k v).hr = s.hr := (rfl)
@[simp] theorem putK_net (k : Nat) (v : Word) : (s.putK k v).net = s.net := (rfl)
@[simp] theorem putK_boot (k : Nat) (v : Word) : (s.putK k v).boot = s.boot := (rfl)
@[simp] theorem putK_due (k : Nat) (v : Word) : (s.putK k v).due = s.due := (rfl)
@[simp] theorem putK_ddr (k : Nat) (v : Word) : (s.putK k v).ddr = s.ddr := (rfl)
@[simp] theorem putK_hostMem (k : Nat) (v : Word) : (s.putK k v).hostMem = s.hostMem := (rfl)
@[simp] theorem putK_nvmF (k : Nat) (v : Word) : (s.putK k v).nvmF = s.nvmF := (rfl)
@[simp] theorem putK_nvmH (k : Nat) (v : Word) : (s.putK k v).nvmH = s.nvmH := (rfl)
@[simp] theorem putK_irqs (k : Nat) (v : Word) : (s.putK k v).irqs = s.irqs := (rfl)
@[simp] theorem putK_lastRead (k : Nat) (v : Word) : (s.putK k v).lastRead = s.lastRead := (rfl)
@[simp] theorem putK_freeCtr (k : Nat) (v : Word) : (s.putK k v).freeCtr = s.freeCtr := (rfl)
@[simp] theorem putK_pending (k : Nat) (v : Word) : (s.putK k v).pending = s.pending := (rfl)

/-! ### putShadow -/

@[simp] theorem putShadow_tb (k : Nat) (v : Word) : (s.putShadow k v).tb = s.tb := (rfl)
@[simp] theorem putShadow_slices (k : Nat) (v : Word) : (s.putShadow k v).slices = s.slices := (rfl)
@[simp] theorem putShadow_cores (k : Nat) (v : Word) : (s.putShadow k v).cores = s.cores := (rfl)
@[simp] theorem putShadow_cs (k : Nat) (v : Word) : (s.putShadow k v).cs = s.cs := (rfl)
@[simp] theorem putShadow_sess (k : Nat) (v : Word) : (s.putShadow k v).sess = s.sess := (rfl)
@[simp] theorem putShadow_host (k : Nat) (v : Word) : (s.putShadow k v).host = s.host := (rfl)
@[simp] theorem putShadow_aos (k : Nat) (v : Word) : (s.putShadow k v).aos = s.aos := (rfl)
@[simp] theorem putShadow_fws (k : Nat) (v : Word) : (s.putShadow k v).fws = s.fws := (rfl)
@[simp] theorem putShadow_trigs (k : Nat) (v : Word) : (s.putShadow k v).trigs = s.trigs := (rfl)
@[simp] theorem putShadow_masks (k : Nat) (v : Word) : (s.putShadow k v).masks = s.masks := (rfl)
@[simp] theorem putShadow_inputs (k : Nat) (v : Word) : (s.putShadow k v).inputs = s.inputs := (rfl)
@[simp] theorem putShadow_meas (k : Nat) (v : Word) : (s.putShadow k v).meas = s.meas := (rfl)
@[simp] theorem putShadow_gleaners (k : Nat) (v : Word) : (s.putShadow k v).gleaners = s.gleaners := (rfl)
@[simp] theorem putShadow_drained (k : Nat) (v : Word) : (s.putShadow k v).drained = s.drained := (rfl)
@[simp] theorem putShadow_cal (k : Nat) (v : Word) : (s.putShadow k v).cal = s.cal := (rfl)
@[simp] theorem putShadow_flt (k : Nat) (v : Word) : (s.putShadow k v).flt = s.flt := (rfl)
@[simp] theorem putShadow_commit (k : Nat) (v : Word) : (s.putShadow k v).commit = s.commit := (rfl)
@[simp] theorem putShadow_stile (k : Nat) (v : Word) : (s.putShadow k v).stile = s.stile := (rfl)
@[simp] theorem putShadow_hr (k : Nat) (v : Word) : (s.putShadow k v).hr = s.hr := (rfl)
@[simp] theorem putShadow_net (k : Nat) (v : Word) : (s.putShadow k v).net = s.net := (rfl)
@[simp] theorem putShadow_boot (k : Nat) (v : Word) : (s.putShadow k v).boot = s.boot := (rfl)
@[simp] theorem putShadow_due (k : Nat) (v : Word) : (s.putShadow k v).due = s.due := (rfl)
@[simp] theorem putShadow_ddr (k : Nat) (v : Word) : (s.putShadow k v).ddr = s.ddr := (rfl)
@[simp] theorem putShadow_hostMem (k : Nat) (v : Word) : (s.putShadow k v).hostMem = s.hostMem := (rfl)
@[simp] theorem putShadow_nvmF (k : Nat) (v : Word) : (s.putShadow k v).nvmF = s.nvmF := (rfl)
@[simp] theorem putShadow_nvmH (k : Nat) (v : Word) : (s.putShadow k v).nvmH = s.nvmH := (rfl)
@[simp] theorem putShadow_irqs (k : Nat) (v : Word) : (s.putShadow k v).irqs = s.irqs := (rfl)
@[simp] theorem putShadow_lastRead (k : Nat) (v : Word) : (s.putShadow k v).lastRead = s.lastRead := (rfl)
@[simp] theorem putShadow_freeCtr (k : Nat) (v : Word) : (s.putShadow k v).freeCtr = s.freeCtr := (rfl)
@[simp] theorem putShadow_pending (k : Nat) (v : Word) : (s.putShadow k v).pending = s.pending := (rfl)

/-! ### putActive -/

@[simp] theorem putActive_tb (k : Nat) (v : Word) : (s.putActive k v).tb = s.tb := (rfl)
@[simp] theorem putActive_slices (k : Nat) (v : Word) : (s.putActive k v).slices = s.slices := (rfl)
@[simp] theorem putActive_cores (k : Nat) (v : Word) : (s.putActive k v).cores = s.cores := (rfl)
@[simp] theorem putActive_cs (k : Nat) (v : Word) : (s.putActive k v).cs = s.cs := (rfl)
@[simp] theorem putActive_sess (k : Nat) (v : Word) : (s.putActive k v).sess = s.sess := (rfl)
@[simp] theorem putActive_host (k : Nat) (v : Word) : (s.putActive k v).host = s.host := (rfl)
@[simp] theorem putActive_aos (k : Nat) (v : Word) : (s.putActive k v).aos = s.aos := (rfl)
@[simp] theorem putActive_fws (k : Nat) (v : Word) : (s.putActive k v).fws = s.fws := (rfl)
@[simp] theorem putActive_trigs (k : Nat) (v : Word) : (s.putActive k v).trigs = s.trigs := (rfl)
@[simp] theorem putActive_masks (k : Nat) (v : Word) : (s.putActive k v).masks = s.masks := (rfl)
@[simp] theorem putActive_inputs (k : Nat) (v : Word) : (s.putActive k v).inputs = s.inputs := (rfl)
@[simp] theorem putActive_meas (k : Nat) (v : Word) : (s.putActive k v).meas = s.meas := (rfl)
@[simp] theorem putActive_gleaners (k : Nat) (v : Word) : (s.putActive k v).gleaners = s.gleaners := (rfl)
@[simp] theorem putActive_drained (k : Nat) (v : Word) : (s.putActive k v).drained = s.drained := (rfl)
@[simp] theorem putActive_cal (k : Nat) (v : Word) : (s.putActive k v).cal = s.cal := (rfl)
@[simp] theorem putActive_flt (k : Nat) (v : Word) : (s.putActive k v).flt = s.flt := (rfl)
@[simp] theorem putActive_commit (k : Nat) (v : Word) : (s.putActive k v).commit = s.commit := (rfl)
@[simp] theorem putActive_stile (k : Nat) (v : Word) : (s.putActive k v).stile = s.stile := (rfl)
@[simp] theorem putActive_hr (k : Nat) (v : Word) : (s.putActive k v).hr = s.hr := (rfl)
@[simp] theorem putActive_net (k : Nat) (v : Word) : (s.putActive k v).net = s.net := (rfl)
@[simp] theorem putActive_boot (k : Nat) (v : Word) : (s.putActive k v).boot = s.boot := (rfl)
@[simp] theorem putActive_due (k : Nat) (v : Word) : (s.putActive k v).due = s.due := (rfl)
@[simp] theorem putActive_ddr (k : Nat) (v : Word) : (s.putActive k v).ddr = s.ddr := (rfl)
@[simp] theorem putActive_hostMem (k : Nat) (v : Word) : (s.putActive k v).hostMem = s.hostMem := (rfl)
@[simp] theorem putActive_nvmF (k : Nat) (v : Word) : (s.putActive k v).nvmF = s.nvmF := (rfl)
@[simp] theorem putActive_nvmH (k : Nat) (v : Word) : (s.putActive k v).nvmH = s.nvmH := (rfl)
@[simp] theorem putActive_irqs (k : Nat) (v : Word) : (s.putActive k v).irqs = s.irqs := (rfl)
@[simp] theorem putActive_lastRead (k : Nat) (v : Word) : (s.putActive k v).lastRead = s.lastRead := (rfl)
@[simp] theorem putActive_freeCtr (k : Nat) (v : Word) : (s.putActive k v).freeCtr = s.freeCtr := (rfl)
@[simp] theorem putActive_pending (k : Nat) (v : Word) : (s.putActive k v).pending = s.pending := (rfl)

/-! ### putFresh -/

@[simp] theorem putFresh_tb (k : Nat) (v : Word) : (s.putFresh k v).tb = s.tb := (rfl)
@[simp] theorem putFresh_slices (k : Nat) (v : Word) : (s.putFresh k v).slices = s.slices := (rfl)
@[simp] theorem putFresh_cores (k : Nat) (v : Word) : (s.putFresh k v).cores = s.cores := (rfl)
@[simp] theorem putFresh_cs (k : Nat) (v : Word) : (s.putFresh k v).cs = s.cs := (rfl)
@[simp] theorem putFresh_sess (k : Nat) (v : Word) : (s.putFresh k v).sess = s.sess := (rfl)
@[simp] theorem putFresh_host (k : Nat) (v : Word) : (s.putFresh k v).host = s.host := (rfl)
@[simp] theorem putFresh_aos (k : Nat) (v : Word) : (s.putFresh k v).aos = s.aos := (rfl)
@[simp] theorem putFresh_fws (k : Nat) (v : Word) : (s.putFresh k v).fws = s.fws := (rfl)
@[simp] theorem putFresh_trigs (k : Nat) (v : Word) : (s.putFresh k v).trigs = s.trigs := (rfl)
@[simp] theorem putFresh_masks (k : Nat) (v : Word) : (s.putFresh k v).masks = s.masks := (rfl)
@[simp] theorem putFresh_inputs (k : Nat) (v : Word) : (s.putFresh k v).inputs = s.inputs := (rfl)
@[simp] theorem putFresh_meas (k : Nat) (v : Word) : (s.putFresh k v).meas = s.meas := (rfl)
@[simp] theorem putFresh_gleaners (k : Nat) (v : Word) : (s.putFresh k v).gleaners = s.gleaners := (rfl)
@[simp] theorem putFresh_drained (k : Nat) (v : Word) : (s.putFresh k v).drained = s.drained := (rfl)
@[simp] theorem putFresh_cal (k : Nat) (v : Word) : (s.putFresh k v).cal = s.cal := (rfl)
@[simp] theorem putFresh_flt (k : Nat) (v : Word) : (s.putFresh k v).flt = s.flt := (rfl)
@[simp] theorem putFresh_commit (k : Nat) (v : Word) : (s.putFresh k v).commit = s.commit := (rfl)
@[simp] theorem putFresh_stile (k : Nat) (v : Word) : (s.putFresh k v).stile = s.stile := (rfl)
@[simp] theorem putFresh_hr (k : Nat) (v : Word) : (s.putFresh k v).hr = s.hr := (rfl)
@[simp] theorem putFresh_net (k : Nat) (v : Word) : (s.putFresh k v).net = s.net := (rfl)
@[simp] theorem putFresh_boot (k : Nat) (v : Word) : (s.putFresh k v).boot = s.boot := (rfl)
@[simp] theorem putFresh_due (k : Nat) (v : Word) : (s.putFresh k v).due = s.due := (rfl)
@[simp] theorem putFresh_ddr (k : Nat) (v : Word) : (s.putFresh k v).ddr = s.ddr := (rfl)
@[simp] theorem putFresh_hostMem (k : Nat) (v : Word) : (s.putFresh k v).hostMem = s.hostMem := (rfl)
@[simp] theorem putFresh_nvmF (k : Nat) (v : Word) : (s.putFresh k v).nvmF = s.nvmF := (rfl)
@[simp] theorem putFresh_nvmH (k : Nat) (v : Word) : (s.putFresh k v).nvmH = s.nvmH := (rfl)
@[simp] theorem putFresh_irqs (k : Nat) (v : Word) : (s.putFresh k v).irqs = s.irqs := (rfl)
@[simp] theorem putFresh_lastRead (k : Nat) (v : Word) : (s.putFresh k v).lastRead = s.lastRead := (rfl)
@[simp] theorem putFresh_freeCtr (k : Nat) (v : Word) : (s.putFresh k v).freeCtr = s.freeCtr := (rfl)
@[simp] theorem putFresh_pending (k : Nat) (v : Word) : (s.putFresh k v).pending = s.pending := (rfl)

/-! ### set -/

@[simp] theorem set_tb (f : Fld) (ix : List Nat) (v : Nat) : (s.set f ix v).tb = s.tb := (rfl)
@[simp] theorem set_slices (f : Fld) (ix : List Nat) (v : Nat) : (s.set f ix v).slices = s.slices := (rfl)
@[simp] theorem set_cores (f : Fld) (ix : List Nat) (v : Nat) : (s.set f ix v).cores = s.cores := (rfl)
@[simp] theorem set_cs (f : Fld) (ix : List Nat) (v : Nat) : (s.set f ix v).cs = s.cs := (rfl)
@[simp] theorem set_sess (f : Fld) (ix : List Nat) (v : Nat) : (s.set f ix v).sess = s.sess := (rfl)
@[simp] theorem set_host (f : Fld) (ix : List Nat) (v : Nat) : (s.set f ix v).host = s.host := (rfl)
@[simp] theorem set_aos (f : Fld) (ix : List Nat) (v : Nat) : (s.set f ix v).aos = s.aos := (rfl)
@[simp] theorem set_fws (f : Fld) (ix : List Nat) (v : Nat) : (s.set f ix v).fws = s.fws := (rfl)
@[simp] theorem set_trigs (f : Fld) (ix : List Nat) (v : Nat) : (s.set f ix v).trigs = s.trigs := (rfl)
@[simp] theorem set_masks (f : Fld) (ix : List Nat) (v : Nat) : (s.set f ix v).masks = s.masks := (rfl)
@[simp] theorem set_inputs (f : Fld) (ix : List Nat) (v : Nat) : (s.set f ix v).inputs = s.inputs := (rfl)
@[simp] theorem set_meas (f : Fld) (ix : List Nat) (v : Nat) : (s.set f ix v).meas = s.meas := (rfl)
@[simp] theorem set_gleaners (f : Fld) (ix : List Nat) (v : Nat) : (s.set f ix v).gleaners = s.gleaners := (rfl)
@[simp] theorem set_drained (f : Fld) (ix : List Nat) (v : Nat) : (s.set f ix v).drained = s.drained := (rfl)
@[simp] theorem set_cal (f : Fld) (ix : List Nat) (v : Nat) : (s.set f ix v).cal = s.cal := (rfl)
@[simp] theorem set_flt (f : Fld) (ix : List Nat) (v : Nat) : (s.set f ix v).flt = s.flt := (rfl)
@[simp] theorem set_commit (f : Fld) (ix : List Nat) (v : Nat) : (s.set f ix v).commit = s.commit := (rfl)
@[simp] theorem set_stile (f : Fld) (ix : List Nat) (v : Nat) : (s.set f ix v).stile = s.stile := (rfl)
@[simp] theorem set_hr (f : Fld) (ix : List Nat) (v : Nat) : (s.set f ix v).hr = s.hr := (rfl)
@[simp] theorem set_net (f : Fld) (ix : List Nat) (v : Nat) : (s.set f ix v).net = s.net := (rfl)
@[simp] theorem set_boot (f : Fld) (ix : List Nat) (v : Nat) : (s.set f ix v).boot = s.boot := (rfl)
@[simp] theorem set_due (f : Fld) (ix : List Nat) (v : Nat) : (s.set f ix v).due = s.due := (rfl)
@[simp] theorem set_ddr (f : Fld) (ix : List Nat) (v : Nat) : (s.set f ix v).ddr = s.ddr := (rfl)
@[simp] theorem set_hostMem (f : Fld) (ix : List Nat) (v : Nat) : (s.set f ix v).hostMem = s.hostMem := (rfl)
@[simp] theorem set_nvmF (f : Fld) (ix : List Nat) (v : Nat) : (s.set f ix v).nvmF = s.nvmF := (rfl)
@[simp] theorem set_nvmH (f : Fld) (ix : List Nat) (v : Nat) : (s.set f ix v).nvmH = s.nvmH := (rfl)
@[simp] theorem set_irqs (f : Fld) (ix : List Nat) (v : Nat) : (s.set f ix v).irqs = s.irqs := (rfl)
@[simp] theorem set_lastRead (f : Fld) (ix : List Nat) (v : Nat) : (s.set f ix v).lastRead = s.lastRead := (rfl)
@[simp] theorem set_freeCtr (f : Fld) (ix : List Nat) (v : Nat) : (s.set f ix v).freeCtr = s.freeCtr := (rfl)
@[simp] theorem set_pending (f : Fld) (ix : List Nat) (v : Nat) : (s.set f ix v).pending = s.pending := (rfl)

/-! ### raise -/

@[simp] theorem raise_tb (f : Fld) (ix : List Nat) : (s.raise f ix).tb = s.tb := (rfl)
@[simp] theorem raise_slices (f : Fld) (ix : List Nat) : (s.raise f ix).slices = s.slices := (rfl)
@[simp] theorem raise_cores (f : Fld) (ix : List Nat) : (s.raise f ix).cores = s.cores := (rfl)
@[simp] theorem raise_cs (f : Fld) (ix : List Nat) : (s.raise f ix).cs = s.cs := (rfl)
@[simp] theorem raise_sess (f : Fld) (ix : List Nat) : (s.raise f ix).sess = s.sess := (rfl)
@[simp] theorem raise_host (f : Fld) (ix : List Nat) : (s.raise f ix).host = s.host := (rfl)
@[simp] theorem raise_aos (f : Fld) (ix : List Nat) : (s.raise f ix).aos = s.aos := (rfl)
@[simp] theorem raise_fws (f : Fld) (ix : List Nat) : (s.raise f ix).fws = s.fws := (rfl)
@[simp] theorem raise_trigs (f : Fld) (ix : List Nat) : (s.raise f ix).trigs = s.trigs := (rfl)
@[simp] theorem raise_masks (f : Fld) (ix : List Nat) : (s.raise f ix).masks = s.masks := (rfl)
@[simp] theorem raise_inputs (f : Fld) (ix : List Nat) : (s.raise f ix).inputs = s.inputs := (rfl)
@[simp] theorem raise_meas (f : Fld) (ix : List Nat) : (s.raise f ix).meas = s.meas := (rfl)
@[simp] theorem raise_gleaners (f : Fld) (ix : List Nat) : (s.raise f ix).gleaners = s.gleaners := (rfl)
@[simp] theorem raise_drained (f : Fld) (ix : List Nat) : (s.raise f ix).drained = s.drained := (rfl)
@[simp] theorem raise_cal (f : Fld) (ix : List Nat) : (s.raise f ix).cal = s.cal := (rfl)
@[simp] theorem raise_flt (f : Fld) (ix : List Nat) : (s.raise f ix).flt = s.flt := (rfl)
@[simp] theorem raise_commit (f : Fld) (ix : List Nat) : (s.raise f ix).commit = s.commit := (rfl)
@[simp] theorem raise_stile (f : Fld) (ix : List Nat) : (s.raise f ix).stile = s.stile := (rfl)
@[simp] theorem raise_hr (f : Fld) (ix : List Nat) : (s.raise f ix).hr = s.hr := (rfl)
@[simp] theorem raise_net (f : Fld) (ix : List Nat) : (s.raise f ix).net = s.net := (rfl)
@[simp] theorem raise_boot (f : Fld) (ix : List Nat) : (s.raise f ix).boot = s.boot := (rfl)
@[simp] theorem raise_due (f : Fld) (ix : List Nat) : (s.raise f ix).due = s.due := (rfl)
@[simp] theorem raise_ddr (f : Fld) (ix : List Nat) : (s.raise f ix).ddr = s.ddr := (rfl)
@[simp] theorem raise_hostMem (f : Fld) (ix : List Nat) : (s.raise f ix).hostMem = s.hostMem := (rfl)
@[simp] theorem raise_nvmF (f : Fld) (ix : List Nat) : (s.raise f ix).nvmF = s.nvmF := (rfl)
@[simp] theorem raise_nvmH (f : Fld) (ix : List Nat) : (s.raise f ix).nvmH = s.nvmH := (rfl)
@[simp] theorem raise_irqs (f : Fld) (ix : List Nat) : (s.raise f ix).irqs = s.irqs := (rfl)
@[simp] theorem raise_lastRead (f : Fld) (ix : List Nat) : (s.raise f ix).lastRead = s.lastRead := (rfl)
@[simp] theorem raise_freeCtr (f : Fld) (ix : List Nat) : (s.raise f ix).freeCtr = s.freeCtr := (rfl)
@[simp] theorem raise_pending (f : Fld) (ix : List Nat) : (s.raise f ix).pending = s.pending := (rfl)

/-! ### count -/

@[simp] theorem count_tb (f : Fld) (ix : List Nat) (n : Nat) : (s.count f ix n).tb = s.tb := (rfl)
@[simp] theorem count_slices (f : Fld) (ix : List Nat) (n : Nat) : (s.count f ix n).slices = s.slices := (rfl)
@[simp] theorem count_cores (f : Fld) (ix : List Nat) (n : Nat) : (s.count f ix n).cores = s.cores := (rfl)
@[simp] theorem count_cs (f : Fld) (ix : List Nat) (n : Nat) : (s.count f ix n).cs = s.cs := (rfl)
@[simp] theorem count_sess (f : Fld) (ix : List Nat) (n : Nat) : (s.count f ix n).sess = s.sess := (rfl)
@[simp] theorem count_host (f : Fld) (ix : List Nat) (n : Nat) : (s.count f ix n).host = s.host := (rfl)
@[simp] theorem count_aos (f : Fld) (ix : List Nat) (n : Nat) : (s.count f ix n).aos = s.aos := (rfl)
@[simp] theorem count_fws (f : Fld) (ix : List Nat) (n : Nat) : (s.count f ix n).fws = s.fws := (rfl)
@[simp] theorem count_trigs (f : Fld) (ix : List Nat) (n : Nat) : (s.count f ix n).trigs = s.trigs := (rfl)
@[simp] theorem count_masks (f : Fld) (ix : List Nat) (n : Nat) : (s.count f ix n).masks = s.masks := (rfl)
@[simp] theorem count_inputs (f : Fld) (ix : List Nat) (n : Nat) : (s.count f ix n).inputs = s.inputs := (rfl)
@[simp] theorem count_meas (f : Fld) (ix : List Nat) (n : Nat) : (s.count f ix n).meas = s.meas := (rfl)
@[simp] theorem count_gleaners (f : Fld) (ix : List Nat) (n : Nat) : (s.count f ix n).gleaners = s.gleaners := (rfl)
@[simp] theorem count_drained (f : Fld) (ix : List Nat) (n : Nat) : (s.count f ix n).drained = s.drained := (rfl)
@[simp] theorem count_cal (f : Fld) (ix : List Nat) (n : Nat) : (s.count f ix n).cal = s.cal := (rfl)
@[simp] theorem count_flt (f : Fld) (ix : List Nat) (n : Nat) : (s.count f ix n).flt = s.flt := (rfl)
@[simp] theorem count_commit (f : Fld) (ix : List Nat) (n : Nat) : (s.count f ix n).commit = s.commit := (rfl)
@[simp] theorem count_stile (f : Fld) (ix : List Nat) (n : Nat) : (s.count f ix n).stile = s.stile := (rfl)
@[simp] theorem count_hr (f : Fld) (ix : List Nat) (n : Nat) : (s.count f ix n).hr = s.hr := (rfl)
@[simp] theorem count_net (f : Fld) (ix : List Nat) (n : Nat) : (s.count f ix n).net = s.net := (rfl)
@[simp] theorem count_boot (f : Fld) (ix : List Nat) (n : Nat) : (s.count f ix n).boot = s.boot := (rfl)
@[simp] theorem count_due (f : Fld) (ix : List Nat) (n : Nat) : (s.count f ix n).due = s.due := (rfl)
@[simp] theorem count_ddr (f : Fld) (ix : List Nat) (n : Nat) : (s.count f ix n).ddr = s.ddr := (rfl)
@[simp] theorem count_hostMem (f : Fld) (ix : List Nat) (n : Nat) : (s.count f ix n).hostMem = s.hostMem := (rfl)
@[simp] theorem count_nvmF (f : Fld) (ix : List Nat) (n : Nat) : (s.count f ix n).nvmF = s.nvmF := (rfl)
@[simp] theorem count_nvmH (f : Fld) (ix : List Nat) (n : Nat) : (s.count f ix n).nvmH = s.nvmH := (rfl)
@[simp] theorem count_irqs (f : Fld) (ix : List Nat) (n : Nat) : (s.count f ix n).irqs = s.irqs := (rfl)
@[simp] theorem count_lastRead (f : Fld) (ix : List Nat) (n : Nat) : (s.count f ix n).lastRead = s.lastRead := (rfl)
@[simp] theorem count_freeCtr (f : Fld) (ix : List Nat) (n : Nat) : (s.count f ix n).freeCtr = s.freeCtr := (rfl)
@[simp] theorem count_pending (f : Fld) (ix : List Nat) (n : Nat) : (s.count f ix n).pending = s.pending := (rfl)

/-! ### incSat -/

@[simp] theorem incSat_tb (f : Fld) (ix : List Nat) (n : Nat) : (s.incSat f ix n).tb = s.tb := (rfl)
@[simp] theorem incSat_slices (f : Fld) (ix : List Nat) (n : Nat) : (s.incSat f ix n).slices = s.slices := (rfl)
@[simp] theorem incSat_cores (f : Fld) (ix : List Nat) (n : Nat) : (s.incSat f ix n).cores = s.cores := (rfl)
@[simp] theorem incSat_cs (f : Fld) (ix : List Nat) (n : Nat) : (s.incSat f ix n).cs = s.cs := (rfl)
@[simp] theorem incSat_sess (f : Fld) (ix : List Nat) (n : Nat) : (s.incSat f ix n).sess = s.sess := (rfl)
@[simp] theorem incSat_host (f : Fld) (ix : List Nat) (n : Nat) : (s.incSat f ix n).host = s.host := (rfl)
@[simp] theorem incSat_aos (f : Fld) (ix : List Nat) (n : Nat) : (s.incSat f ix n).aos = s.aos := (rfl)
@[simp] theorem incSat_fws (f : Fld) (ix : List Nat) (n : Nat) : (s.incSat f ix n).fws = s.fws := (rfl)
@[simp] theorem incSat_trigs (f : Fld) (ix : List Nat) (n : Nat) : (s.incSat f ix n).trigs = s.trigs := (rfl)
@[simp] theorem incSat_masks (f : Fld) (ix : List Nat) (n : Nat) : (s.incSat f ix n).masks = s.masks := (rfl)
@[simp] theorem incSat_inputs (f : Fld) (ix : List Nat) (n : Nat) : (s.incSat f ix n).inputs = s.inputs := (rfl)
@[simp] theorem incSat_meas (f : Fld) (ix : List Nat) (n : Nat) : (s.incSat f ix n).meas = s.meas := (rfl)
@[simp] theorem incSat_gleaners (f : Fld) (ix : List Nat) (n : Nat) : (s.incSat f ix n).gleaners = s.gleaners := (rfl)
@[simp] theorem incSat_drained (f : Fld) (ix : List Nat) (n : Nat) : (s.incSat f ix n).drained = s.drained := (rfl)
@[simp] theorem incSat_cal (f : Fld) (ix : List Nat) (n : Nat) : (s.incSat f ix n).cal = s.cal := (rfl)
@[simp] theorem incSat_flt (f : Fld) (ix : List Nat) (n : Nat) : (s.incSat f ix n).flt = s.flt := (rfl)
@[simp] theorem incSat_commit (f : Fld) (ix : List Nat) (n : Nat) : (s.incSat f ix n).commit = s.commit := (rfl)
@[simp] theorem incSat_stile (f : Fld) (ix : List Nat) (n : Nat) : (s.incSat f ix n).stile = s.stile := (rfl)
@[simp] theorem incSat_hr (f : Fld) (ix : List Nat) (n : Nat) : (s.incSat f ix n).hr = s.hr := (rfl)
@[simp] theorem incSat_net (f : Fld) (ix : List Nat) (n : Nat) : (s.incSat f ix n).net = s.net := (rfl)
@[simp] theorem incSat_boot (f : Fld) (ix : List Nat) (n : Nat) : (s.incSat f ix n).boot = s.boot := (rfl)
@[simp] theorem incSat_due (f : Fld) (ix : List Nat) (n : Nat) : (s.incSat f ix n).due = s.due := (rfl)
@[simp] theorem incSat_ddr (f : Fld) (ix : List Nat) (n : Nat) : (s.incSat f ix n).ddr = s.ddr := (rfl)
@[simp] theorem incSat_hostMem (f : Fld) (ix : List Nat) (n : Nat) : (s.incSat f ix n).hostMem = s.hostMem := (rfl)
@[simp] theorem incSat_nvmF (f : Fld) (ix : List Nat) (n : Nat) : (s.incSat f ix n).nvmF = s.nvmF := (rfl)
@[simp] theorem incSat_nvmH (f : Fld) (ix : List Nat) (n : Nat) : (s.incSat f ix n).nvmH = s.nvmH := (rfl)
@[simp] theorem incSat_irqs (f : Fld) (ix : List Nat) (n : Nat) : (s.incSat f ix n).irqs = s.irqs := (rfl)
@[simp] theorem incSat_lastRead (f : Fld) (ix : List Nat) (n : Nat) : (s.incSat f ix n).lastRead = s.lastRead := (rfl)
@[simp] theorem incSat_freeCtr (f : Fld) (ix : List Nat) (n : Nat) : (s.incSat f ix n).freeCtr = s.freeCtr := (rfl)
@[simp] theorem incSat_pending (f : Fld) (ix : List Nat) (n : Nat) : (s.incSat f ix n).pending = s.pending := (rfl)

/-! ### incWrap -/

@[simp] theorem incWrap_tb (f : Fld) (ix : List Nat) : (s.incWrap f ix).tb = s.tb := (rfl)
@[simp] theorem incWrap_slices (f : Fld) (ix : List Nat) : (s.incWrap f ix).slices = s.slices := (rfl)
@[simp] theorem incWrap_cores (f : Fld) (ix : List Nat) : (s.incWrap f ix).cores = s.cores := (rfl)
@[simp] theorem incWrap_cs (f : Fld) (ix : List Nat) : (s.incWrap f ix).cs = s.cs := (rfl)
@[simp] theorem incWrap_sess (f : Fld) (ix : List Nat) : (s.incWrap f ix).sess = s.sess := (rfl)
@[simp] theorem incWrap_host (f : Fld) (ix : List Nat) : (s.incWrap f ix).host = s.host := (rfl)
@[simp] theorem incWrap_aos (f : Fld) (ix : List Nat) : (s.incWrap f ix).aos = s.aos := (rfl)
@[simp] theorem incWrap_fws (f : Fld) (ix : List Nat) : (s.incWrap f ix).fws = s.fws := (rfl)
@[simp] theorem incWrap_trigs (f : Fld) (ix : List Nat) : (s.incWrap f ix).trigs = s.trigs := (rfl)
@[simp] theorem incWrap_masks (f : Fld) (ix : List Nat) : (s.incWrap f ix).masks = s.masks := (rfl)
@[simp] theorem incWrap_inputs (f : Fld) (ix : List Nat) : (s.incWrap f ix).inputs = s.inputs := (rfl)
@[simp] theorem incWrap_meas (f : Fld) (ix : List Nat) : (s.incWrap f ix).meas = s.meas := (rfl)
@[simp] theorem incWrap_gleaners (f : Fld) (ix : List Nat) : (s.incWrap f ix).gleaners = s.gleaners := (rfl)
@[simp] theorem incWrap_drained (f : Fld) (ix : List Nat) : (s.incWrap f ix).drained = s.drained := (rfl)
@[simp] theorem incWrap_cal (f : Fld) (ix : List Nat) : (s.incWrap f ix).cal = s.cal := (rfl)
@[simp] theorem incWrap_flt (f : Fld) (ix : List Nat) : (s.incWrap f ix).flt = s.flt := (rfl)
@[simp] theorem incWrap_commit (f : Fld) (ix : List Nat) : (s.incWrap f ix).commit = s.commit := (rfl)
@[simp] theorem incWrap_stile (f : Fld) (ix : List Nat) : (s.incWrap f ix).stile = s.stile := (rfl)
@[simp] theorem incWrap_hr (f : Fld) (ix : List Nat) : (s.incWrap f ix).hr = s.hr := (rfl)
@[simp] theorem incWrap_net (f : Fld) (ix : List Nat) : (s.incWrap f ix).net = s.net := (rfl)
@[simp] theorem incWrap_boot (f : Fld) (ix : List Nat) : (s.incWrap f ix).boot = s.boot := (rfl)
@[simp] theorem incWrap_due (f : Fld) (ix : List Nat) : (s.incWrap f ix).due = s.due := (rfl)
@[simp] theorem incWrap_ddr (f : Fld) (ix : List Nat) : (s.incWrap f ix).ddr = s.ddr := (rfl)
@[simp] theorem incWrap_hostMem (f : Fld) (ix : List Nat) : (s.incWrap f ix).hostMem = s.hostMem := (rfl)
@[simp] theorem incWrap_nvmF (f : Fld) (ix : List Nat) : (s.incWrap f ix).nvmF = s.nvmF := (rfl)
@[simp] theorem incWrap_nvmH (f : Fld) (ix : List Nat) : (s.incWrap f ix).nvmH = s.nvmH := (rfl)
@[simp] theorem incWrap_irqs (f : Fld) (ix : List Nat) : (s.incWrap f ix).irqs = s.irqs := (rfl)
@[simp] theorem incWrap_lastRead (f : Fld) (ix : List Nat) : (s.incWrap f ix).lastRead = s.lastRead := (rfl)
@[simp] theorem incWrap_freeCtr (f : Fld) (ix : List Nat) : (s.incWrap f ix).freeCtr = s.freeCtr := (rfl)
@[simp] theorem incWrap_pending (f : Fld) (ix : List Nat) : (s.incWrap f ix).pending = s.pending := (rfl)

/-! ### modSlice -/

@[simp] theorem modSlice_regs (n : Fin 12) (f : Slice → Slice) : (s.modSlice n f).regs = s.regs := (rfl)
@[simp] theorem modSlice_tb (n : Fin 12) (f : Slice → Slice) : (s.modSlice n f).tb = s.tb := (rfl)
@[simp] theorem modSlice_cores (n : Fin 12) (f : Slice → Slice) : (s.modSlice n f).cores = s.cores := (rfl)
@[simp] theorem modSlice_cs (n : Fin 12) (f : Slice → Slice) : (s.modSlice n f).cs = s.cs := (rfl)
@[simp] theorem modSlice_sess (n : Fin 12) (f : Slice → Slice) : (s.modSlice n f).sess = s.sess := (rfl)
@[simp] theorem modSlice_host (n : Fin 12) (f : Slice → Slice) : (s.modSlice n f).host = s.host := (rfl)
@[simp] theorem modSlice_aos (n : Fin 12) (f : Slice → Slice) : (s.modSlice n f).aos = s.aos := (rfl)
@[simp] theorem modSlice_fws (n : Fin 12) (f : Slice → Slice) : (s.modSlice n f).fws = s.fws := (rfl)
@[simp] theorem modSlice_trigs (n : Fin 12) (f : Slice → Slice) : (s.modSlice n f).trigs = s.trigs := (rfl)
@[simp] theorem modSlice_masks (n : Fin 12) (f : Slice → Slice) : (s.modSlice n f).masks = s.masks := (rfl)
@[simp] theorem modSlice_inputs (n : Fin 12) (f : Slice → Slice) : (s.modSlice n f).inputs = s.inputs := (rfl)
@[simp] theorem modSlice_meas (n : Fin 12) (f : Slice → Slice) : (s.modSlice n f).meas = s.meas := (rfl)
@[simp] theorem modSlice_gleaners (n : Fin 12) (f : Slice → Slice) : (s.modSlice n f).gleaners = s.gleaners := (rfl)
@[simp] theorem modSlice_drained (n : Fin 12) (f : Slice → Slice) : (s.modSlice n f).drained = s.drained := (rfl)
@[simp] theorem modSlice_cal (n : Fin 12) (f : Slice → Slice) : (s.modSlice n f).cal = s.cal := (rfl)
@[simp] theorem modSlice_flt (n : Fin 12) (f : Slice → Slice) : (s.modSlice n f).flt = s.flt := (rfl)
@[simp] theorem modSlice_commit (n : Fin 12) (f : Slice → Slice) : (s.modSlice n f).commit = s.commit := (rfl)
@[simp] theorem modSlice_stile (n : Fin 12) (f : Slice → Slice) : (s.modSlice n f).stile = s.stile := (rfl)
@[simp] theorem modSlice_hr (n : Fin 12) (f : Slice → Slice) : (s.modSlice n f).hr = s.hr := (rfl)
@[simp] theorem modSlice_net (n : Fin 12) (f : Slice → Slice) : (s.modSlice n f).net = s.net := (rfl)
@[simp] theorem modSlice_boot (n : Fin 12) (f : Slice → Slice) : (s.modSlice n f).boot = s.boot := (rfl)
@[simp] theorem modSlice_due (n : Fin 12) (f : Slice → Slice) : (s.modSlice n f).due = s.due := (rfl)
@[simp] theorem modSlice_ddr (n : Fin 12) (f : Slice → Slice) : (s.modSlice n f).ddr = s.ddr := (rfl)
@[simp] theorem modSlice_hostMem (n : Fin 12) (f : Slice → Slice) : (s.modSlice n f).hostMem = s.hostMem := (rfl)
@[simp] theorem modSlice_nvmF (n : Fin 12) (f : Slice → Slice) : (s.modSlice n f).nvmF = s.nvmF := (rfl)
@[simp] theorem modSlice_nvmH (n : Fin 12) (f : Slice → Slice) : (s.modSlice n f).nvmH = s.nvmH := (rfl)
@[simp] theorem modSlice_irqs (n : Fin 12) (f : Slice → Slice) : (s.modSlice n f).irqs = s.irqs := (rfl)
@[simp] theorem modSlice_lastRead (n : Fin 12) (f : Slice → Slice) : (s.modSlice n f).lastRead = s.lastRead := (rfl)
@[simp] theorem modSlice_freeCtr (n : Fin 12) (f : Slice → Slice) : (s.modSlice n f).freeCtr = s.freeCtr := (rfl)
@[simp] theorem modSlice_pending (n : Fin 12) (f : Slice → Slice) : (s.modSlice n f).pending = s.pending := (rfl)
@[simp] theorem modSlice_getK (n : Fin 12) (f : Slice → Slice) (j : Nat) : (s.modSlice n f).getK j = s.getK j := (rfl)
@[simp] theorem modSlice_shadowK (n : Fin 12) (f : Slice → Slice) (j : Nat) : (s.modSlice n f).shadowK j = s.shadowK j := (rfl)
@[simp] theorem modSlice_activeK (n : Fin 12) (f : Slice → Slice) (j : Nat) : (s.modSlice n f).activeK j = s.activeK j := (rfl)
@[simp] theorem modSlice_freshK (n : Fin 12) (f : Slice → Slice) (j : Nat) : (s.modSlice n f).freshK j = s.freshK j := (rfl)
@[simp] theorem modSlice_total (n : Fin 12) (f : Slice → Slice) (j : Nat) : (s.modSlice n f).total j = s.total j := (rfl)
@[simp] theorem modSlice_get (n : Fin 12) (f : Slice → Slice) (g : Fld) (jx : List Nat) : (s.modSlice n f).get g jx = s.get g jx := (rfl)
@[simp] theorem modSlice_act (n : Fin 12) (f : Slice → Slice) (g : Fld) (jx : List Nat) : (s.modSlice n f).act g jx = s.act g jx := (rfl)
@[simp] theorem modSlice_tot (n : Fin 12) (f : Slice → Slice) (g : Fld) (jx : List Nat) : (s.modSlice n f).tot g jx = s.tot g jx := (rfl)

/-! ### modLane -/

@[simp] theorem modLane_regs (n : Fin 12) (l : Fin 8) (f : Lane → Lane) : (s.modLane n l f).regs = s.regs := (rfl)
@[simp] theorem modLane_tb (n : Fin 12) (l : Fin 8) (f : Lane → Lane) : (s.modLane n l f).tb = s.tb := (rfl)
@[simp] theorem modLane_cores (n : Fin 12) (l : Fin 8) (f : Lane → Lane) : (s.modLane n l f).cores = s.cores := (rfl)
@[simp] theorem modLane_cs (n : Fin 12) (l : Fin 8) (f : Lane → Lane) : (s.modLane n l f).cs = s.cs := (rfl)
@[simp] theorem modLane_sess (n : Fin 12) (l : Fin 8) (f : Lane → Lane) : (s.modLane n l f).sess = s.sess := (rfl)
@[simp] theorem modLane_host (n : Fin 12) (l : Fin 8) (f : Lane → Lane) : (s.modLane n l f).host = s.host := (rfl)
@[simp] theorem modLane_aos (n : Fin 12) (l : Fin 8) (f : Lane → Lane) : (s.modLane n l f).aos = s.aos := (rfl)
@[simp] theorem modLane_fws (n : Fin 12) (l : Fin 8) (f : Lane → Lane) : (s.modLane n l f).fws = s.fws := (rfl)
@[simp] theorem modLane_trigs (n : Fin 12) (l : Fin 8) (f : Lane → Lane) : (s.modLane n l f).trigs = s.trigs := (rfl)
@[simp] theorem modLane_masks (n : Fin 12) (l : Fin 8) (f : Lane → Lane) : (s.modLane n l f).masks = s.masks := (rfl)
@[simp] theorem modLane_inputs (n : Fin 12) (l : Fin 8) (f : Lane → Lane) : (s.modLane n l f).inputs = s.inputs := (rfl)
@[simp] theorem modLane_meas (n : Fin 12) (l : Fin 8) (f : Lane → Lane) : (s.modLane n l f).meas = s.meas := (rfl)
@[simp] theorem modLane_gleaners (n : Fin 12) (l : Fin 8) (f : Lane → Lane) : (s.modLane n l f).gleaners = s.gleaners := (rfl)
@[simp] theorem modLane_drained (n : Fin 12) (l : Fin 8) (f : Lane → Lane) : (s.modLane n l f).drained = s.drained := (rfl)
@[simp] theorem modLane_cal (n : Fin 12) (l : Fin 8) (f : Lane → Lane) : (s.modLane n l f).cal = s.cal := (rfl)
@[simp] theorem modLane_flt (n : Fin 12) (l : Fin 8) (f : Lane → Lane) : (s.modLane n l f).flt = s.flt := (rfl)
@[simp] theorem modLane_commit (n : Fin 12) (l : Fin 8) (f : Lane → Lane) : (s.modLane n l f).commit = s.commit := (rfl)
@[simp] theorem modLane_stile (n : Fin 12) (l : Fin 8) (f : Lane → Lane) : (s.modLane n l f).stile = s.stile := (rfl)
@[simp] theorem modLane_hr (n : Fin 12) (l : Fin 8) (f : Lane → Lane) : (s.modLane n l f).hr = s.hr := (rfl)
@[simp] theorem modLane_net (n : Fin 12) (l : Fin 8) (f : Lane → Lane) : (s.modLane n l f).net = s.net := (rfl)
@[simp] theorem modLane_boot (n : Fin 12) (l : Fin 8) (f : Lane → Lane) : (s.modLane n l f).boot = s.boot := (rfl)
@[simp] theorem modLane_due (n : Fin 12) (l : Fin 8) (f : Lane → Lane) : (s.modLane n l f).due = s.due := (rfl)
@[simp] theorem modLane_ddr (n : Fin 12) (l : Fin 8) (f : Lane → Lane) : (s.modLane n l f).ddr = s.ddr := (rfl)
@[simp] theorem modLane_hostMem (n : Fin 12) (l : Fin 8) (f : Lane → Lane) : (s.modLane n l f).hostMem = s.hostMem := (rfl)
@[simp] theorem modLane_nvmF (n : Fin 12) (l : Fin 8) (f : Lane → Lane) : (s.modLane n l f).nvmF = s.nvmF := (rfl)
@[simp] theorem modLane_nvmH (n : Fin 12) (l : Fin 8) (f : Lane → Lane) : (s.modLane n l f).nvmH = s.nvmH := (rfl)
@[simp] theorem modLane_irqs (n : Fin 12) (l : Fin 8) (f : Lane → Lane) : (s.modLane n l f).irqs = s.irqs := (rfl)
@[simp] theorem modLane_lastRead (n : Fin 12) (l : Fin 8) (f : Lane → Lane) : (s.modLane n l f).lastRead = s.lastRead := (rfl)
@[simp] theorem modLane_freeCtr (n : Fin 12) (l : Fin 8) (f : Lane → Lane) : (s.modLane n l f).freeCtr = s.freeCtr := (rfl)
@[simp] theorem modLane_pending (n : Fin 12) (l : Fin 8) (f : Lane → Lane) : (s.modLane n l f).pending = s.pending := (rfl)
@[simp] theorem modLane_getK (n : Fin 12) (l : Fin 8) (f : Lane → Lane) (j : Nat) : (s.modLane n l f).getK j = s.getK j := (rfl)
@[simp] theorem modLane_shadowK (n : Fin 12) (l : Fin 8) (f : Lane → Lane) (j : Nat) : (s.modLane n l f).shadowK j = s.shadowK j := (rfl)
@[simp] theorem modLane_activeK (n : Fin 12) (l : Fin 8) (f : Lane → Lane) (j : Nat) : (s.modLane n l f).activeK j = s.activeK j := (rfl)
@[simp] theorem modLane_freshK (n : Fin 12) (l : Fin 8) (f : Lane → Lane) (j : Nat) : (s.modLane n l f).freshK j = s.freshK j := (rfl)
@[simp] theorem modLane_total (n : Fin 12) (l : Fin 8) (f : Lane → Lane) (j : Nat) : (s.modLane n l f).total j = s.total j := (rfl)
@[simp] theorem modLane_get (n : Fin 12) (l : Fin 8) (f : Lane → Lane) (g : Fld) (jx : List Nat) : (s.modLane n l f).get g jx = s.get g jx := (rfl)
@[simp] theorem modLane_act (n : Fin 12) (l : Fin 8) (f : Lane → Lane) (g : Fld) (jx : List Nat) : (s.modLane n l f).act g jx = s.act g jx := (rfl)
@[simp] theorem modLane_tot (n : Fin 12) (l : Fin 8) (f : Lane → Lane) (g : Fld) (jx : List Nat) : (s.modLane n l f).tot g jx = s.tot g jx := (rfl)

/-! ### mapLanes -/

@[simp] theorem mapLanes_regs (n : Fin 12) (f : Fin 8 → Lane → Lane) : (s.mapLanes n f).regs = s.regs := (rfl)
@[simp] theorem mapLanes_tb (n : Fin 12) (f : Fin 8 → Lane → Lane) : (s.mapLanes n f).tb = s.tb := (rfl)
@[simp] theorem mapLanes_cores (n : Fin 12) (f : Fin 8 → Lane → Lane) : (s.mapLanes n f).cores = s.cores := (rfl)
@[simp] theorem mapLanes_cs (n : Fin 12) (f : Fin 8 → Lane → Lane) : (s.mapLanes n f).cs = s.cs := (rfl)
@[simp] theorem mapLanes_sess (n : Fin 12) (f : Fin 8 → Lane → Lane) : (s.mapLanes n f).sess = s.sess := (rfl)
@[simp] theorem mapLanes_host (n : Fin 12) (f : Fin 8 → Lane → Lane) : (s.mapLanes n f).host = s.host := (rfl)
@[simp] theorem mapLanes_aos (n : Fin 12) (f : Fin 8 → Lane → Lane) : (s.mapLanes n f).aos = s.aos := (rfl)
@[simp] theorem mapLanes_fws (n : Fin 12) (f : Fin 8 → Lane → Lane) : (s.mapLanes n f).fws = s.fws := (rfl)
@[simp] theorem mapLanes_trigs (n : Fin 12) (f : Fin 8 → Lane → Lane) : (s.mapLanes n f).trigs = s.trigs := (rfl)
@[simp] theorem mapLanes_masks (n : Fin 12) (f : Fin 8 → Lane → Lane) : (s.mapLanes n f).masks = s.masks := (rfl)
@[simp] theorem mapLanes_inputs (n : Fin 12) (f : Fin 8 → Lane → Lane) : (s.mapLanes n f).inputs = s.inputs := (rfl)
@[simp] theorem mapLanes_meas (n : Fin 12) (f : Fin 8 → Lane → Lane) : (s.mapLanes n f).meas = s.meas := (rfl)
@[simp] theorem mapLanes_gleaners (n : Fin 12) (f : Fin 8 → Lane → Lane) : (s.mapLanes n f).gleaners = s.gleaners := (rfl)
@[simp] theorem mapLanes_drained (n : Fin 12) (f : Fin 8 → Lane → Lane) : (s.mapLanes n f).drained = s.drained := (rfl)
@[simp] theorem mapLanes_cal (n : Fin 12) (f : Fin 8 → Lane → Lane) : (s.mapLanes n f).cal = s.cal := (rfl)
@[simp] theorem mapLanes_flt (n : Fin 12) (f : Fin 8 → Lane → Lane) : (s.mapLanes n f).flt = s.flt := (rfl)
@[simp] theorem mapLanes_commit (n : Fin 12) (f : Fin 8 → Lane → Lane) : (s.mapLanes n f).commit = s.commit := (rfl)
@[simp] theorem mapLanes_stile (n : Fin 12) (f : Fin 8 → Lane → Lane) : (s.mapLanes n f).stile = s.stile := (rfl)
@[simp] theorem mapLanes_hr (n : Fin 12) (f : Fin 8 → Lane → Lane) : (s.mapLanes n f).hr = s.hr := (rfl)
@[simp] theorem mapLanes_net (n : Fin 12) (f : Fin 8 → Lane → Lane) : (s.mapLanes n f).net = s.net := (rfl)
@[simp] theorem mapLanes_boot (n : Fin 12) (f : Fin 8 → Lane → Lane) : (s.mapLanes n f).boot = s.boot := (rfl)
@[simp] theorem mapLanes_due (n : Fin 12) (f : Fin 8 → Lane → Lane) : (s.mapLanes n f).due = s.due := (rfl)
@[simp] theorem mapLanes_ddr (n : Fin 12) (f : Fin 8 → Lane → Lane) : (s.mapLanes n f).ddr = s.ddr := (rfl)
@[simp] theorem mapLanes_hostMem (n : Fin 12) (f : Fin 8 → Lane → Lane) : (s.mapLanes n f).hostMem = s.hostMem := (rfl)
@[simp] theorem mapLanes_nvmF (n : Fin 12) (f : Fin 8 → Lane → Lane) : (s.mapLanes n f).nvmF = s.nvmF := (rfl)
@[simp] theorem mapLanes_nvmH (n : Fin 12) (f : Fin 8 → Lane → Lane) : (s.mapLanes n f).nvmH = s.nvmH := (rfl)
@[simp] theorem mapLanes_irqs (n : Fin 12) (f : Fin 8 → Lane → Lane) : (s.mapLanes n f).irqs = s.irqs := (rfl)
@[simp] theorem mapLanes_lastRead (n : Fin 12) (f : Fin 8 → Lane → Lane) : (s.mapLanes n f).lastRead = s.lastRead := (rfl)
@[simp] theorem mapLanes_freeCtr (n : Fin 12) (f : Fin 8 → Lane → Lane) : (s.mapLanes n f).freeCtr = s.freeCtr := (rfl)
@[simp] theorem mapLanes_pending (n : Fin 12) (f : Fin 8 → Lane → Lane) : (s.mapLanes n f).pending = s.pending := (rfl)
@[simp] theorem mapLanes_getK (n : Fin 12) (f : Fin 8 → Lane → Lane) (j : Nat) : (s.mapLanes n f).getK j = s.getK j := (rfl)
@[simp] theorem mapLanes_shadowK (n : Fin 12) (f : Fin 8 → Lane → Lane) (j : Nat) : (s.mapLanes n f).shadowK j = s.shadowK j := (rfl)
@[simp] theorem mapLanes_activeK (n : Fin 12) (f : Fin 8 → Lane → Lane) (j : Nat) : (s.mapLanes n f).activeK j = s.activeK j := (rfl)
@[simp] theorem mapLanes_freshK (n : Fin 12) (f : Fin 8 → Lane → Lane) (j : Nat) : (s.mapLanes n f).freshK j = s.freshK j := (rfl)
@[simp] theorem mapLanes_total (n : Fin 12) (f : Fin 8 → Lane → Lane) (j : Nat) : (s.mapLanes n f).total j = s.total j := (rfl)
@[simp] theorem mapLanes_get (n : Fin 12) (f : Fin 8 → Lane → Lane) (g : Fld) (jx : List Nat) : (s.mapLanes n f).get g jx = s.get g jx := (rfl)
@[simp] theorem mapLanes_act (n : Fin 12) (f : Fin 8 → Lane → Lane) (g : Fld) (jx : List Nat) : (s.mapLanes n f).act g jx = s.act g jx := (rfl)
@[simp] theorem mapLanes_tot (n : Fin 12) (f : Fin 8 → Lane → Lane) (g : Fld) (jx : List Nat) : (s.mapLanes n f).tot g jx = s.tot g jx := (rfl)

/-! ### modCore -/

@[simp] theorem modCore_regs (c : Fin 4) (f : Core → Core) : (s.modCore c f).regs = s.regs := (rfl)
@[simp] theorem modCore_tb (c : Fin 4) (f : Core → Core) : (s.modCore c f).tb = s.tb := (rfl)
@[simp] theorem modCore_slices (c : Fin 4) (f : Core → Core) : (s.modCore c f).slices = s.slices := (rfl)
@[simp] theorem modCore_cs (c : Fin 4) (f : Core → Core) : (s.modCore c f).cs = s.cs := (rfl)
@[simp] theorem modCore_sess (c : Fin 4) (f : Core → Core) : (s.modCore c f).sess = s.sess := (rfl)
@[simp] theorem modCore_host (c : Fin 4) (f : Core → Core) : (s.modCore c f).host = s.host := (rfl)
@[simp] theorem modCore_aos (c : Fin 4) (f : Core → Core) : (s.modCore c f).aos = s.aos := (rfl)
@[simp] theorem modCore_fws (c : Fin 4) (f : Core → Core) : (s.modCore c f).fws = s.fws := (rfl)
@[simp] theorem modCore_trigs (c : Fin 4) (f : Core → Core) : (s.modCore c f).trigs = s.trigs := (rfl)
@[simp] theorem modCore_masks (c : Fin 4) (f : Core → Core) : (s.modCore c f).masks = s.masks := (rfl)
@[simp] theorem modCore_inputs (c : Fin 4) (f : Core → Core) : (s.modCore c f).inputs = s.inputs := (rfl)
@[simp] theorem modCore_meas (c : Fin 4) (f : Core → Core) : (s.modCore c f).meas = s.meas := (rfl)
@[simp] theorem modCore_gleaners (c : Fin 4) (f : Core → Core) : (s.modCore c f).gleaners = s.gleaners := (rfl)
@[simp] theorem modCore_drained (c : Fin 4) (f : Core → Core) : (s.modCore c f).drained = s.drained := (rfl)
@[simp] theorem modCore_cal (c : Fin 4) (f : Core → Core) : (s.modCore c f).cal = s.cal := (rfl)
@[simp] theorem modCore_flt (c : Fin 4) (f : Core → Core) : (s.modCore c f).flt = s.flt := (rfl)
@[simp] theorem modCore_commit (c : Fin 4) (f : Core → Core) : (s.modCore c f).commit = s.commit := (rfl)
@[simp] theorem modCore_stile (c : Fin 4) (f : Core → Core) : (s.modCore c f).stile = s.stile := (rfl)
@[simp] theorem modCore_hr (c : Fin 4) (f : Core → Core) : (s.modCore c f).hr = s.hr := (rfl)
@[simp] theorem modCore_net (c : Fin 4) (f : Core → Core) : (s.modCore c f).net = s.net := (rfl)
@[simp] theorem modCore_boot (c : Fin 4) (f : Core → Core) : (s.modCore c f).boot = s.boot := (rfl)
@[simp] theorem modCore_due (c : Fin 4) (f : Core → Core) : (s.modCore c f).due = s.due := (rfl)
@[simp] theorem modCore_ddr (c : Fin 4) (f : Core → Core) : (s.modCore c f).ddr = s.ddr := (rfl)
@[simp] theorem modCore_hostMem (c : Fin 4) (f : Core → Core) : (s.modCore c f).hostMem = s.hostMem := (rfl)
@[simp] theorem modCore_nvmF (c : Fin 4) (f : Core → Core) : (s.modCore c f).nvmF = s.nvmF := (rfl)
@[simp] theorem modCore_nvmH (c : Fin 4) (f : Core → Core) : (s.modCore c f).nvmH = s.nvmH := (rfl)
@[simp] theorem modCore_irqs (c : Fin 4) (f : Core → Core) : (s.modCore c f).irqs = s.irqs := (rfl)
@[simp] theorem modCore_lastRead (c : Fin 4) (f : Core → Core) : (s.modCore c f).lastRead = s.lastRead := (rfl)
@[simp] theorem modCore_freeCtr (c : Fin 4) (f : Core → Core) : (s.modCore c f).freeCtr = s.freeCtr := (rfl)
@[simp] theorem modCore_pending (c : Fin 4) (f : Core → Core) : (s.modCore c f).pending = s.pending := (rfl)
@[simp] theorem modCore_getK (c : Fin 4) (f : Core → Core) (j : Nat) : (s.modCore c f).getK j = s.getK j := (rfl)
@[simp] theorem modCore_shadowK (c : Fin 4) (f : Core → Core) (j : Nat) : (s.modCore c f).shadowK j = s.shadowK j := (rfl)
@[simp] theorem modCore_activeK (c : Fin 4) (f : Core → Core) (j : Nat) : (s.modCore c f).activeK j = s.activeK j := (rfl)
@[simp] theorem modCore_freshK (c : Fin 4) (f : Core → Core) (j : Nat) : (s.modCore c f).freshK j = s.freshK j := (rfl)
@[simp] theorem modCore_total (c : Fin 4) (f : Core → Core) (j : Nat) : (s.modCore c f).total j = s.total j := (rfl)
@[simp] theorem modCore_get (c : Fin 4) (f : Core → Core) (g : Fld) (jx : List Nat) : (s.modCore c f).get g jx = s.get g jx := (rfl)
@[simp] theorem modCore_act (c : Fin 4) (f : Core → Core) (g : Fld) (jx : List Nat) : (s.modCore c f).act g jx = s.act g jx := (rfl)
@[simp] theorem modCore_tot (c : Fin 4) (f : Core → Core) (g : Fld) (jx : List Nat) : (s.modCore c f).tot g jx = s.tot g jx := (rfl)

/-! ### modSess -/

@[simp] theorem modSess_regs (n : Fin 16) (f : Sess → Sess) : (s.modSess n f).regs = s.regs := (rfl)
@[simp] theorem modSess_tb (n : Fin 16) (f : Sess → Sess) : (s.modSess n f).tb = s.tb := (rfl)
@[simp] theorem modSess_slices (n : Fin 16) (f : Sess → Sess) : (s.modSess n f).slices = s.slices := (rfl)
@[simp] theorem modSess_cores (n : Fin 16) (f : Sess → Sess) : (s.modSess n f).cores = s.cores := (rfl)
@[simp] theorem modSess_cs (n : Fin 16) (f : Sess → Sess) : (s.modSess n f).cs = s.cs := (rfl)
@[simp] theorem modSess_host (n : Fin 16) (f : Sess → Sess) : (s.modSess n f).host = s.host := (rfl)
@[simp] theorem modSess_aos (n : Fin 16) (f : Sess → Sess) : (s.modSess n f).aos = s.aos := (rfl)
@[simp] theorem modSess_fws (n : Fin 16) (f : Sess → Sess) : (s.modSess n f).fws = s.fws := (rfl)
@[simp] theorem modSess_trigs (n : Fin 16) (f : Sess → Sess) : (s.modSess n f).trigs = s.trigs := (rfl)
@[simp] theorem modSess_masks (n : Fin 16) (f : Sess → Sess) : (s.modSess n f).masks = s.masks := (rfl)
@[simp] theorem modSess_inputs (n : Fin 16) (f : Sess → Sess) : (s.modSess n f).inputs = s.inputs := (rfl)
@[simp] theorem modSess_meas (n : Fin 16) (f : Sess → Sess) : (s.modSess n f).meas = s.meas := (rfl)
@[simp] theorem modSess_gleaners (n : Fin 16) (f : Sess → Sess) : (s.modSess n f).gleaners = s.gleaners := (rfl)
@[simp] theorem modSess_drained (n : Fin 16) (f : Sess → Sess) : (s.modSess n f).drained = s.drained := (rfl)
@[simp] theorem modSess_cal (n : Fin 16) (f : Sess → Sess) : (s.modSess n f).cal = s.cal := (rfl)
@[simp] theorem modSess_flt (n : Fin 16) (f : Sess → Sess) : (s.modSess n f).flt = s.flt := (rfl)
@[simp] theorem modSess_commit (n : Fin 16) (f : Sess → Sess) : (s.modSess n f).commit = s.commit := (rfl)
@[simp] theorem modSess_stile (n : Fin 16) (f : Sess → Sess) : (s.modSess n f).stile = s.stile := (rfl)
@[simp] theorem modSess_hr (n : Fin 16) (f : Sess → Sess) : (s.modSess n f).hr = s.hr := (rfl)
@[simp] theorem modSess_net (n : Fin 16) (f : Sess → Sess) : (s.modSess n f).net = s.net := (rfl)
@[simp] theorem modSess_boot (n : Fin 16) (f : Sess → Sess) : (s.modSess n f).boot = s.boot := (rfl)
@[simp] theorem modSess_due (n : Fin 16) (f : Sess → Sess) : (s.modSess n f).due = s.due := (rfl)
@[simp] theorem modSess_ddr (n : Fin 16) (f : Sess → Sess) : (s.modSess n f).ddr = s.ddr := (rfl)
@[simp] theorem modSess_hostMem (n : Fin 16) (f : Sess → Sess) : (s.modSess n f).hostMem = s.hostMem := (rfl)
@[simp] theorem modSess_nvmF (n : Fin 16) (f : Sess → Sess) : (s.modSess n f).nvmF = s.nvmF := (rfl)
@[simp] theorem modSess_nvmH (n : Fin 16) (f : Sess → Sess) : (s.modSess n f).nvmH = s.nvmH := (rfl)
@[simp] theorem modSess_irqs (n : Fin 16) (f : Sess → Sess) : (s.modSess n f).irqs = s.irqs := (rfl)
@[simp] theorem modSess_lastRead (n : Fin 16) (f : Sess → Sess) : (s.modSess n f).lastRead = s.lastRead := (rfl)
@[simp] theorem modSess_freeCtr (n : Fin 16) (f : Sess → Sess) : (s.modSess n f).freeCtr = s.freeCtr := (rfl)
@[simp] theorem modSess_pending (n : Fin 16) (f : Sess → Sess) : (s.modSess n f).pending = s.pending := (rfl)
@[simp] theorem modSess_getK (n : Fin 16) (f : Sess → Sess) (j : Nat) : (s.modSess n f).getK j = s.getK j := (rfl)
@[simp] theorem modSess_shadowK (n : Fin 16) (f : Sess → Sess) (j : Nat) : (s.modSess n f).shadowK j = s.shadowK j := (rfl)
@[simp] theorem modSess_activeK (n : Fin 16) (f : Sess → Sess) (j : Nat) : (s.modSess n f).activeK j = s.activeK j := (rfl)
@[simp] theorem modSess_freshK (n : Fin 16) (f : Sess → Sess) (j : Nat) : (s.modSess n f).freshK j = s.freshK j := (rfl)
@[simp] theorem modSess_total (n : Fin 16) (f : Sess → Sess) (j : Nat) : (s.modSess n f).total j = s.total j := (rfl)
@[simp] theorem modSess_get (n : Fin 16) (f : Sess → Sess) (g : Fld) (jx : List Nat) : (s.modSess n f).get g jx = s.get g jx := (rfl)
@[simp] theorem modSess_act (n : Fin 16) (f : Sess → Sess) (g : Fld) (jx : List Nat) : (s.modSess n f).act g jx = s.act g jx := (rfl)
@[simp] theorem modSess_tot (n : Fin 16) (f : Sess → Sess) (g : Fld) (jx : List Nat) : (s.modSess n f).tot g jx = s.tot g jx := (rfl)

/-! ### modHost -/

@[simp] theorem modHost_regs (n : Fin 16) (f : HostSess → HostSess) : (s.modHost n f).regs = s.regs := (rfl)
@[simp] theorem modHost_tb (n : Fin 16) (f : HostSess → HostSess) : (s.modHost n f).tb = s.tb := (rfl)
@[simp] theorem modHost_slices (n : Fin 16) (f : HostSess → HostSess) : (s.modHost n f).slices = s.slices := (rfl)
@[simp] theorem modHost_cores (n : Fin 16) (f : HostSess → HostSess) : (s.modHost n f).cores = s.cores := (rfl)
@[simp] theorem modHost_cs (n : Fin 16) (f : HostSess → HostSess) : (s.modHost n f).cs = s.cs := (rfl)
@[simp] theorem modHost_sess (n : Fin 16) (f : HostSess → HostSess) : (s.modHost n f).sess = s.sess := (rfl)
@[simp] theorem modHost_aos (n : Fin 16) (f : HostSess → HostSess) : (s.modHost n f).aos = s.aos := (rfl)
@[simp] theorem modHost_fws (n : Fin 16) (f : HostSess → HostSess) : (s.modHost n f).fws = s.fws := (rfl)
@[simp] theorem modHost_trigs (n : Fin 16) (f : HostSess → HostSess) : (s.modHost n f).trigs = s.trigs := (rfl)
@[simp] theorem modHost_masks (n : Fin 16) (f : HostSess → HostSess) : (s.modHost n f).masks = s.masks := (rfl)
@[simp] theorem modHost_inputs (n : Fin 16) (f : HostSess → HostSess) : (s.modHost n f).inputs = s.inputs := (rfl)
@[simp] theorem modHost_meas (n : Fin 16) (f : HostSess → HostSess) : (s.modHost n f).meas = s.meas := (rfl)
@[simp] theorem modHost_gleaners (n : Fin 16) (f : HostSess → HostSess) : (s.modHost n f).gleaners = s.gleaners := (rfl)
@[simp] theorem modHost_drained (n : Fin 16) (f : HostSess → HostSess) : (s.modHost n f).drained = s.drained := (rfl)
@[simp] theorem modHost_cal (n : Fin 16) (f : HostSess → HostSess) : (s.modHost n f).cal = s.cal := (rfl)
@[simp] theorem modHost_flt (n : Fin 16) (f : HostSess → HostSess) : (s.modHost n f).flt = s.flt := (rfl)
@[simp] theorem modHost_commit (n : Fin 16) (f : HostSess → HostSess) : (s.modHost n f).commit = s.commit := (rfl)
@[simp] theorem modHost_stile (n : Fin 16) (f : HostSess → HostSess) : (s.modHost n f).stile = s.stile := (rfl)
@[simp] theorem modHost_hr (n : Fin 16) (f : HostSess → HostSess) : (s.modHost n f).hr = s.hr := (rfl)
@[simp] theorem modHost_net (n : Fin 16) (f : HostSess → HostSess) : (s.modHost n f).net = s.net := (rfl)
@[simp] theorem modHost_boot (n : Fin 16) (f : HostSess → HostSess) : (s.modHost n f).boot = s.boot := (rfl)
@[simp] theorem modHost_due (n : Fin 16) (f : HostSess → HostSess) : (s.modHost n f).due = s.due := (rfl)
@[simp] theorem modHost_ddr (n : Fin 16) (f : HostSess → HostSess) : (s.modHost n f).ddr = s.ddr := (rfl)
@[simp] theorem modHost_hostMem (n : Fin 16) (f : HostSess → HostSess) : (s.modHost n f).hostMem = s.hostMem := (rfl)
@[simp] theorem modHost_nvmF (n : Fin 16) (f : HostSess → HostSess) : (s.modHost n f).nvmF = s.nvmF := (rfl)
@[simp] theorem modHost_nvmH (n : Fin 16) (f : HostSess → HostSess) : (s.modHost n f).nvmH = s.nvmH := (rfl)
@[simp] theorem modHost_irqs (n : Fin 16) (f : HostSess → HostSess) : (s.modHost n f).irqs = s.irqs := (rfl)
@[simp] theorem modHost_lastRead (n : Fin 16) (f : HostSess → HostSess) : (s.modHost n f).lastRead = s.lastRead := (rfl)
@[simp] theorem modHost_freeCtr (n : Fin 16) (f : HostSess → HostSess) : (s.modHost n f).freeCtr = s.freeCtr := (rfl)
@[simp] theorem modHost_pending (n : Fin 16) (f : HostSess → HostSess) : (s.modHost n f).pending = s.pending := (rfl)
@[simp] theorem modHost_getK (n : Fin 16) (f : HostSess → HostSess) (j : Nat) : (s.modHost n f).getK j = s.getK j := (rfl)
@[simp] theorem modHost_shadowK (n : Fin 16) (f : HostSess → HostSess) (j : Nat) : (s.modHost n f).shadowK j = s.shadowK j := (rfl)
@[simp] theorem modHost_activeK (n : Fin 16) (f : HostSess → HostSess) (j : Nat) : (s.modHost n f).activeK j = s.activeK j := (rfl)
@[simp] theorem modHost_freshK (n : Fin 16) (f : HostSess → HostSess) (j : Nat) : (s.modHost n f).freshK j = s.freshK j := (rfl)
@[simp] theorem modHost_total (n : Fin 16) (f : HostSess → HostSess) (j : Nat) : (s.modHost n f).total j = s.total j := (rfl)
@[simp] theorem modHost_get (n : Fin 16) (f : HostSess → HostSess) (g : Fld) (jx : List Nat) : (s.modHost n f).get g jx = s.get g jx := (rfl)
@[simp] theorem modHost_act (n : Fin 16) (f : HostSess → HostSess) (g : Fld) (jx : List Nat) : (s.modHost n f).act g jx = s.act g jx := (rfl)
@[simp] theorem modHost_tot (n : Fin 16) (f : HostSess → HostSess) (g : Fld) (jx : List Nat) : (s.modHost n f).tot g jx = s.tot g jx := (rfl)

/-! ### modRing -/

@[simp] theorem modRing_regs (n : Fin 16) (r : Fin 4) (f : Ring → Ring) : (s.modRing n r f).regs = s.regs := (rfl)
@[simp] theorem modRing_tb (n : Fin 16) (r : Fin 4) (f : Ring → Ring) : (s.modRing n r f).tb = s.tb := (rfl)
@[simp] theorem modRing_slices (n : Fin 16) (r : Fin 4) (f : Ring → Ring) : (s.modRing n r f).slices = s.slices := (rfl)
@[simp] theorem modRing_cores (n : Fin 16) (r : Fin 4) (f : Ring → Ring) : (s.modRing n r f).cores = s.cores := (rfl)
@[simp] theorem modRing_cs (n : Fin 16) (r : Fin 4) (f : Ring → Ring) : (s.modRing n r f).cs = s.cs := (rfl)
@[simp] theorem modRing_sess (n : Fin 16) (r : Fin 4) (f : Ring → Ring) : (s.modRing n r f).sess = s.sess := (rfl)
@[simp] theorem modRing_aos (n : Fin 16) (r : Fin 4) (f : Ring → Ring) : (s.modRing n r f).aos = s.aos := (rfl)
@[simp] theorem modRing_fws (n : Fin 16) (r : Fin 4) (f : Ring → Ring) : (s.modRing n r f).fws = s.fws := (rfl)
@[simp] theorem modRing_trigs (n : Fin 16) (r : Fin 4) (f : Ring → Ring) : (s.modRing n r f).trigs = s.trigs := (rfl)
@[simp] theorem modRing_masks (n : Fin 16) (r : Fin 4) (f : Ring → Ring) : (s.modRing n r f).masks = s.masks := (rfl)
@[simp] theorem modRing_inputs (n : Fin 16) (r : Fin 4) (f : Ring → Ring) : (s.modRing n r f).inputs = s.inputs := (rfl)
@[simp] theorem modRing_meas (n : Fin 16) (r : Fin 4) (f : Ring → Ring) : (s.modRing n r f).meas = s.meas := (rfl)
@[simp] theorem modRing_gleaners (n : Fin 16) (r : Fin 4) (f : Ring → Ring) : (s.modRing n r f).gleaners = s.gleaners := (rfl)
@[simp] theorem modRing_drained (n : Fin 16) (r : Fin 4) (f : Ring → Ring) : (s.modRing n r f).drained = s.drained := (rfl)
@[simp] theorem modRing_cal (n : Fin 16) (r : Fin 4) (f : Ring → Ring) : (s.modRing n r f).cal = s.cal := (rfl)
@[simp] theorem modRing_flt (n : Fin 16) (r : Fin 4) (f : Ring → Ring) : (s.modRing n r f).flt = s.flt := (rfl)
@[simp] theorem modRing_commit (n : Fin 16) (r : Fin 4) (f : Ring → Ring) : (s.modRing n r f).commit = s.commit := (rfl)
@[simp] theorem modRing_stile (n : Fin 16) (r : Fin 4) (f : Ring → Ring) : (s.modRing n r f).stile = s.stile := (rfl)
@[simp] theorem modRing_hr (n : Fin 16) (r : Fin 4) (f : Ring → Ring) : (s.modRing n r f).hr = s.hr := (rfl)
@[simp] theorem modRing_net (n : Fin 16) (r : Fin 4) (f : Ring → Ring) : (s.modRing n r f).net = s.net := (rfl)
@[simp] theorem modRing_boot (n : Fin 16) (r : Fin 4) (f : Ring → Ring) : (s.modRing n r f).boot = s.boot := (rfl)
@[simp] theorem modRing_due (n : Fin 16) (r : Fin 4) (f : Ring → Ring) : (s.modRing n r f).due = s.due := (rfl)
@[simp] theorem modRing_ddr (n : Fin 16) (r : Fin 4) (f : Ring → Ring) : (s.modRing n r f).ddr = s.ddr := (rfl)
@[simp] theorem modRing_hostMem (n : Fin 16) (r : Fin 4) (f : Ring → Ring) : (s.modRing n r f).hostMem = s.hostMem := (rfl)
@[simp] theorem modRing_nvmF (n : Fin 16) (r : Fin 4) (f : Ring → Ring) : (s.modRing n r f).nvmF = s.nvmF := (rfl)
@[simp] theorem modRing_nvmH (n : Fin 16) (r : Fin 4) (f : Ring → Ring) : (s.modRing n r f).nvmH = s.nvmH := (rfl)
@[simp] theorem modRing_irqs (n : Fin 16) (r : Fin 4) (f : Ring → Ring) : (s.modRing n r f).irqs = s.irqs := (rfl)
@[simp] theorem modRing_lastRead (n : Fin 16) (r : Fin 4) (f : Ring → Ring) : (s.modRing n r f).lastRead = s.lastRead := (rfl)
@[simp] theorem modRing_freeCtr (n : Fin 16) (r : Fin 4) (f : Ring → Ring) : (s.modRing n r f).freeCtr = s.freeCtr := (rfl)
@[simp] theorem modRing_pending (n : Fin 16) (r : Fin 4) (f : Ring → Ring) : (s.modRing n r f).pending = s.pending := (rfl)
@[simp] theorem modRing_getK (n : Fin 16) (r : Fin 4) (f : Ring → Ring) (j : Nat) : (s.modRing n r f).getK j = s.getK j := (rfl)
@[simp] theorem modRing_shadowK (n : Fin 16) (r : Fin 4) (f : Ring → Ring) (j : Nat) : (s.modRing n r f).shadowK j = s.shadowK j := (rfl)
@[simp] theorem modRing_activeK (n : Fin 16) (r : Fin 4) (f : Ring → Ring) (j : Nat) : (s.modRing n r f).activeK j = s.activeK j := (rfl)
@[simp] theorem modRing_freshK (n : Fin 16) (r : Fin 4) (f : Ring → Ring) (j : Nat) : (s.modRing n r f).freshK j = s.freshK j := (rfl)
@[simp] theorem modRing_total (n : Fin 16) (r : Fin 4) (f : Ring → Ring) (j : Nat) : (s.modRing n r f).total j = s.total j := (rfl)
@[simp] theorem modRing_get (n : Fin 16) (r : Fin 4) (f : Ring → Ring) (g : Fld) (jx : List Nat) : (s.modRing n r f).get g jx = s.get g jx := (rfl)
@[simp] theorem modRing_act (n : Fin 16) (r : Fin 4) (f : Ring → Ring) (g : Fld) (jx : List Nat) : (s.modRing n r f).act g jx = s.act g jx := (rfl)
@[simp] theorem modRing_tot (n : Fin 16) (r : Fin 4) (f : Ring → Ring) (g : Fld) (jx : List Nat) : (s.modRing n r f).tot g jx = s.tot g jx := (rfl)

/-! ### modAo -/

@[simp] theorem modAo_regs (n : Fin 16) (f : Ao → Ao) : (s.modAo n f).regs = s.regs := (rfl)
@[simp] theorem modAo_tb (n : Fin 16) (f : Ao → Ao) : (s.modAo n f).tb = s.tb := (rfl)
@[simp] theorem modAo_slices (n : Fin 16) (f : Ao → Ao) : (s.modAo n f).slices = s.slices := (rfl)
@[simp] theorem modAo_cores (n : Fin 16) (f : Ao → Ao) : (s.modAo n f).cores = s.cores := (rfl)
@[simp] theorem modAo_cs (n : Fin 16) (f : Ao → Ao) : (s.modAo n f).cs = s.cs := (rfl)
@[simp] theorem modAo_sess (n : Fin 16) (f : Ao → Ao) : (s.modAo n f).sess = s.sess := (rfl)
@[simp] theorem modAo_host (n : Fin 16) (f : Ao → Ao) : (s.modAo n f).host = s.host := (rfl)
@[simp] theorem modAo_fws (n : Fin 16) (f : Ao → Ao) : (s.modAo n f).fws = s.fws := (rfl)
@[simp] theorem modAo_trigs (n : Fin 16) (f : Ao → Ao) : (s.modAo n f).trigs = s.trigs := (rfl)
@[simp] theorem modAo_masks (n : Fin 16) (f : Ao → Ao) : (s.modAo n f).masks = s.masks := (rfl)
@[simp] theorem modAo_inputs (n : Fin 16) (f : Ao → Ao) : (s.modAo n f).inputs = s.inputs := (rfl)
@[simp] theorem modAo_meas (n : Fin 16) (f : Ao → Ao) : (s.modAo n f).meas = s.meas := (rfl)
@[simp] theorem modAo_gleaners (n : Fin 16) (f : Ao → Ao) : (s.modAo n f).gleaners = s.gleaners := (rfl)
@[simp] theorem modAo_drained (n : Fin 16) (f : Ao → Ao) : (s.modAo n f).drained = s.drained := (rfl)
@[simp] theorem modAo_cal (n : Fin 16) (f : Ao → Ao) : (s.modAo n f).cal = s.cal := (rfl)
@[simp] theorem modAo_flt (n : Fin 16) (f : Ao → Ao) : (s.modAo n f).flt = s.flt := (rfl)
@[simp] theorem modAo_commit (n : Fin 16) (f : Ao → Ao) : (s.modAo n f).commit = s.commit := (rfl)
@[simp] theorem modAo_stile (n : Fin 16) (f : Ao → Ao) : (s.modAo n f).stile = s.stile := (rfl)
@[simp] theorem modAo_hr (n : Fin 16) (f : Ao → Ao) : (s.modAo n f).hr = s.hr := (rfl)
@[simp] theorem modAo_net (n : Fin 16) (f : Ao → Ao) : (s.modAo n f).net = s.net := (rfl)
@[simp] theorem modAo_boot (n : Fin 16) (f : Ao → Ao) : (s.modAo n f).boot = s.boot := (rfl)
@[simp] theorem modAo_due (n : Fin 16) (f : Ao → Ao) : (s.modAo n f).due = s.due := (rfl)
@[simp] theorem modAo_ddr (n : Fin 16) (f : Ao → Ao) : (s.modAo n f).ddr = s.ddr := (rfl)
@[simp] theorem modAo_hostMem (n : Fin 16) (f : Ao → Ao) : (s.modAo n f).hostMem = s.hostMem := (rfl)
@[simp] theorem modAo_nvmF (n : Fin 16) (f : Ao → Ao) : (s.modAo n f).nvmF = s.nvmF := (rfl)
@[simp] theorem modAo_nvmH (n : Fin 16) (f : Ao → Ao) : (s.modAo n f).nvmH = s.nvmH := (rfl)
@[simp] theorem modAo_irqs (n : Fin 16) (f : Ao → Ao) : (s.modAo n f).irqs = s.irqs := (rfl)
@[simp] theorem modAo_lastRead (n : Fin 16) (f : Ao → Ao) : (s.modAo n f).lastRead = s.lastRead := (rfl)
@[simp] theorem modAo_freeCtr (n : Fin 16) (f : Ao → Ao) : (s.modAo n f).freeCtr = s.freeCtr := (rfl)
@[simp] theorem modAo_pending (n : Fin 16) (f : Ao → Ao) : (s.modAo n f).pending = s.pending := (rfl)
@[simp] theorem modAo_getK (n : Fin 16) (f : Ao → Ao) (j : Nat) : (s.modAo n f).getK j = s.getK j := (rfl)
@[simp] theorem modAo_shadowK (n : Fin 16) (f : Ao → Ao) (j : Nat) : (s.modAo n f).shadowK j = s.shadowK j := (rfl)
@[simp] theorem modAo_activeK (n : Fin 16) (f : Ao → Ao) (j : Nat) : (s.modAo n f).activeK j = s.activeK j := (rfl)
@[simp] theorem modAo_freshK (n : Fin 16) (f : Ao → Ao) (j : Nat) : (s.modAo n f).freshK j = s.freshK j := (rfl)
@[simp] theorem modAo_total (n : Fin 16) (f : Ao → Ao) (j : Nat) : (s.modAo n f).total j = s.total j := (rfl)
@[simp] theorem modAo_get (n : Fin 16) (f : Ao → Ao) (g : Fld) (jx : List Nat) : (s.modAo n f).get g jx = s.get g jx := (rfl)
@[simp] theorem modAo_act (n : Fin 16) (f : Ao → Ao) (g : Fld) (jx : List Nat) : (s.modAo n f).act g jx = s.act g jx := (rfl)
@[simp] theorem modAo_tot (n : Fin 16) (f : Ao → Ao) (g : Fld) (jx : List Nat) : (s.modAo n f).tot g jx = s.tot g jx := (rfl)

/-! ### modFw -/

@[simp] theorem modFw_regs (n : Fin 4) (f : Furrow → Furrow) : (s.modFw n f).regs = s.regs := (rfl)
@[simp] theorem modFw_tb (n : Fin 4) (f : Furrow → Furrow) : (s.modFw n f).tb = s.tb := (rfl)
@[simp] theorem modFw_slices (n : Fin 4) (f : Furrow → Furrow) : (s.modFw n f).slices = s.slices := (rfl)
@[simp] theorem modFw_cores (n : Fin 4) (f : Furrow → Furrow) : (s.modFw n f).cores = s.cores := (rfl)
@[simp] theorem modFw_cs (n : Fin 4) (f : Furrow → Furrow) : (s.modFw n f).cs = s.cs := (rfl)
@[simp] theorem modFw_sess (n : Fin 4) (f : Furrow → Furrow) : (s.modFw n f).sess = s.sess := (rfl)
@[simp] theorem modFw_host (n : Fin 4) (f : Furrow → Furrow) : (s.modFw n f).host = s.host := (rfl)
@[simp] theorem modFw_aos (n : Fin 4) (f : Furrow → Furrow) : (s.modFw n f).aos = s.aos := (rfl)
@[simp] theorem modFw_trigs (n : Fin 4) (f : Furrow → Furrow) : (s.modFw n f).trigs = s.trigs := (rfl)
@[simp] theorem modFw_masks (n : Fin 4) (f : Furrow → Furrow) : (s.modFw n f).masks = s.masks := (rfl)
@[simp] theorem modFw_inputs (n : Fin 4) (f : Furrow → Furrow) : (s.modFw n f).inputs = s.inputs := (rfl)
@[simp] theorem modFw_meas (n : Fin 4) (f : Furrow → Furrow) : (s.modFw n f).meas = s.meas := (rfl)
@[simp] theorem modFw_gleaners (n : Fin 4) (f : Furrow → Furrow) : (s.modFw n f).gleaners = s.gleaners := (rfl)
@[simp] theorem modFw_drained (n : Fin 4) (f : Furrow → Furrow) : (s.modFw n f).drained = s.drained := (rfl)
@[simp] theorem modFw_cal (n : Fin 4) (f : Furrow → Furrow) : (s.modFw n f).cal = s.cal := (rfl)
@[simp] theorem modFw_flt (n : Fin 4) (f : Furrow → Furrow) : (s.modFw n f).flt = s.flt := (rfl)
@[simp] theorem modFw_commit (n : Fin 4) (f : Furrow → Furrow) : (s.modFw n f).commit = s.commit := (rfl)
@[simp] theorem modFw_stile (n : Fin 4) (f : Furrow → Furrow) : (s.modFw n f).stile = s.stile := (rfl)
@[simp] theorem modFw_hr (n : Fin 4) (f : Furrow → Furrow) : (s.modFw n f).hr = s.hr := (rfl)
@[simp] theorem modFw_net (n : Fin 4) (f : Furrow → Furrow) : (s.modFw n f).net = s.net := (rfl)
@[simp] theorem modFw_boot (n : Fin 4) (f : Furrow → Furrow) : (s.modFw n f).boot = s.boot := (rfl)
@[simp] theorem modFw_due (n : Fin 4) (f : Furrow → Furrow) : (s.modFw n f).due = s.due := (rfl)
@[simp] theorem modFw_ddr (n : Fin 4) (f : Furrow → Furrow) : (s.modFw n f).ddr = s.ddr := (rfl)
@[simp] theorem modFw_hostMem (n : Fin 4) (f : Furrow → Furrow) : (s.modFw n f).hostMem = s.hostMem := (rfl)
@[simp] theorem modFw_nvmF (n : Fin 4) (f : Furrow → Furrow) : (s.modFw n f).nvmF = s.nvmF := (rfl)
@[simp] theorem modFw_nvmH (n : Fin 4) (f : Furrow → Furrow) : (s.modFw n f).nvmH = s.nvmH := (rfl)
@[simp] theorem modFw_irqs (n : Fin 4) (f : Furrow → Furrow) : (s.modFw n f).irqs = s.irqs := (rfl)
@[simp] theorem modFw_lastRead (n : Fin 4) (f : Furrow → Furrow) : (s.modFw n f).lastRead = s.lastRead := (rfl)
@[simp] theorem modFw_freeCtr (n : Fin 4) (f : Furrow → Furrow) : (s.modFw n f).freeCtr = s.freeCtr := (rfl)
@[simp] theorem modFw_pending (n : Fin 4) (f : Furrow → Furrow) : (s.modFw n f).pending = s.pending := (rfl)
@[simp] theorem modFw_getK (n : Fin 4) (f : Furrow → Furrow) (j : Nat) : (s.modFw n f).getK j = s.getK j := (rfl)
@[simp] theorem modFw_shadowK (n : Fin 4) (f : Furrow → Furrow) (j : Nat) : (s.modFw n f).shadowK j = s.shadowK j := (rfl)
@[simp] theorem modFw_activeK (n : Fin 4) (f : Furrow → Furrow) (j : Nat) : (s.modFw n f).activeK j = s.activeK j := (rfl)
@[simp] theorem modFw_freshK (n : Fin 4) (f : Furrow → Furrow) (j : Nat) : (s.modFw n f).freshK j = s.freshK j := (rfl)
@[simp] theorem modFw_total (n : Fin 4) (f : Furrow → Furrow) (j : Nat) : (s.modFw n f).total j = s.total j := (rfl)
@[simp] theorem modFw_get (n : Fin 4) (f : Furrow → Furrow) (g : Fld) (jx : List Nat) : (s.modFw n f).get g jx = s.get g jx := (rfl)
@[simp] theorem modFw_act (n : Fin 4) (f : Furrow → Furrow) (g : Fld) (jx : List Nat) : (s.modFw n f).act g jx = s.act g jx := (rfl)
@[simp] theorem modFw_tot (n : Fin 4) (f : Furrow → Furrow) (g : Fld) (jx : List Nat) : (s.modFw n f).tot g jx = s.tot g jx := (rfl)

/-! ### modTrig -/

@[simp] theorem modTrig_regs (u : Fin 8) (f : Trig → Trig) : (s.modTrig u f).regs = s.regs := (rfl)
@[simp] theorem modTrig_tb (u : Fin 8) (f : Trig → Trig) : (s.modTrig u f).tb = s.tb := (rfl)
@[simp] theorem modTrig_slices (u : Fin 8) (f : Trig → Trig) : (s.modTrig u f).slices = s.slices := (rfl)
@[simp] theorem modTrig_cores (u : Fin 8) (f : Trig → Trig) : (s.modTrig u f).cores = s.cores := (rfl)
@[simp] theorem modTrig_cs (u : Fin 8) (f : Trig → Trig) : (s.modTrig u f).cs = s.cs := (rfl)
@[simp] theorem modTrig_sess (u : Fin 8) (f : Trig → Trig) : (s.modTrig u f).sess = s.sess := (rfl)
@[simp] theorem modTrig_host (u : Fin 8) (f : Trig → Trig) : (s.modTrig u f).host = s.host := (rfl)
@[simp] theorem modTrig_aos (u : Fin 8) (f : Trig → Trig) : (s.modTrig u f).aos = s.aos := (rfl)
@[simp] theorem modTrig_fws (u : Fin 8) (f : Trig → Trig) : (s.modTrig u f).fws = s.fws := (rfl)
@[simp] theorem modTrig_masks (u : Fin 8) (f : Trig → Trig) : (s.modTrig u f).masks = s.masks := (rfl)
@[simp] theorem modTrig_inputs (u : Fin 8) (f : Trig → Trig) : (s.modTrig u f).inputs = s.inputs := (rfl)
@[simp] theorem modTrig_meas (u : Fin 8) (f : Trig → Trig) : (s.modTrig u f).meas = s.meas := (rfl)
@[simp] theorem modTrig_gleaners (u : Fin 8) (f : Trig → Trig) : (s.modTrig u f).gleaners = s.gleaners := (rfl)
@[simp] theorem modTrig_drained (u : Fin 8) (f : Trig → Trig) : (s.modTrig u f).drained = s.drained := (rfl)
@[simp] theorem modTrig_cal (u : Fin 8) (f : Trig → Trig) : (s.modTrig u f).cal = s.cal := (rfl)
@[simp] theorem modTrig_flt (u : Fin 8) (f : Trig → Trig) : (s.modTrig u f).flt = s.flt := (rfl)
@[simp] theorem modTrig_commit (u : Fin 8) (f : Trig → Trig) : (s.modTrig u f).commit = s.commit := (rfl)
@[simp] theorem modTrig_stile (u : Fin 8) (f : Trig → Trig) : (s.modTrig u f).stile = s.stile := (rfl)
@[simp] theorem modTrig_hr (u : Fin 8) (f : Trig → Trig) : (s.modTrig u f).hr = s.hr := (rfl)
@[simp] theorem modTrig_net (u : Fin 8) (f : Trig → Trig) : (s.modTrig u f).net = s.net := (rfl)
@[simp] theorem modTrig_boot (u : Fin 8) (f : Trig → Trig) : (s.modTrig u f).boot = s.boot := (rfl)
@[simp] theorem modTrig_due (u : Fin 8) (f : Trig → Trig) : (s.modTrig u f).due = s.due := (rfl)
@[simp] theorem modTrig_ddr (u : Fin 8) (f : Trig → Trig) : (s.modTrig u f).ddr = s.ddr := (rfl)
@[simp] theorem modTrig_hostMem (u : Fin 8) (f : Trig → Trig) : (s.modTrig u f).hostMem = s.hostMem := (rfl)
@[simp] theorem modTrig_nvmF (u : Fin 8) (f : Trig → Trig) : (s.modTrig u f).nvmF = s.nvmF := (rfl)
@[simp] theorem modTrig_nvmH (u : Fin 8) (f : Trig → Trig) : (s.modTrig u f).nvmH = s.nvmH := (rfl)
@[simp] theorem modTrig_irqs (u : Fin 8) (f : Trig → Trig) : (s.modTrig u f).irqs = s.irqs := (rfl)
@[simp] theorem modTrig_lastRead (u : Fin 8) (f : Trig → Trig) : (s.modTrig u f).lastRead = s.lastRead := (rfl)
@[simp] theorem modTrig_freeCtr (u : Fin 8) (f : Trig → Trig) : (s.modTrig u f).freeCtr = s.freeCtr := (rfl)
@[simp] theorem modTrig_pending (u : Fin 8) (f : Trig → Trig) : (s.modTrig u f).pending = s.pending := (rfl)
@[simp] theorem modTrig_getK (u : Fin 8) (f : Trig → Trig) (j : Nat) : (s.modTrig u f).getK j = s.getK j := (rfl)
@[simp] theorem modTrig_shadowK (u : Fin 8) (f : Trig → Trig) (j : Nat) : (s.modTrig u f).shadowK j = s.shadowK j := (rfl)
@[simp] theorem modTrig_activeK (u : Fin 8) (f : Trig → Trig) (j : Nat) : (s.modTrig u f).activeK j = s.activeK j := (rfl)
@[simp] theorem modTrig_freshK (u : Fin 8) (f : Trig → Trig) (j : Nat) : (s.modTrig u f).freshK j = s.freshK j := (rfl)
@[simp] theorem modTrig_total (u : Fin 8) (f : Trig → Trig) (j : Nat) : (s.modTrig u f).total j = s.total j := (rfl)
@[simp] theorem modTrig_get (u : Fin 8) (f : Trig → Trig) (g : Fld) (jx : List Nat) : (s.modTrig u f).get g jx = s.get g jx := (rfl)
@[simp] theorem modTrig_act (u : Fin 8) (f : Trig → Trig) (g : Fld) (jx : List Nat) : (s.modTrig u f).act g jx = s.act g jx := (rfl)
@[simp] theorem modTrig_tot (u : Fin 8) (f : Trig → Trig) (g : Fld) (jx : List Nat) : (s.modTrig u f).tot g jx = s.tot g jx := (rfl)

/-! ### modGl -/

@[simp] theorem modGl_regs (k : Fin 16) (f : Gleaner → Gleaner) : (s.modGl k f).regs = s.regs := (rfl)
@[simp] theorem modGl_tb (k : Fin 16) (f : Gleaner → Gleaner) : (s.modGl k f).tb = s.tb := (rfl)
@[simp] theorem modGl_slices (k : Fin 16) (f : Gleaner → Gleaner) : (s.modGl k f).slices = s.slices := (rfl)
@[simp] theorem modGl_cores (k : Fin 16) (f : Gleaner → Gleaner) : (s.modGl k f).cores = s.cores := (rfl)
@[simp] theorem modGl_cs (k : Fin 16) (f : Gleaner → Gleaner) : (s.modGl k f).cs = s.cs := (rfl)
@[simp] theorem modGl_sess (k : Fin 16) (f : Gleaner → Gleaner) : (s.modGl k f).sess = s.sess := (rfl)
@[simp] theorem modGl_host (k : Fin 16) (f : Gleaner → Gleaner) : (s.modGl k f).host = s.host := (rfl)
@[simp] theorem modGl_aos (k : Fin 16) (f : Gleaner → Gleaner) : (s.modGl k f).aos = s.aos := (rfl)
@[simp] theorem modGl_fws (k : Fin 16) (f : Gleaner → Gleaner) : (s.modGl k f).fws = s.fws := (rfl)
@[simp] theorem modGl_trigs (k : Fin 16) (f : Gleaner → Gleaner) : (s.modGl k f).trigs = s.trigs := (rfl)
@[simp] theorem modGl_masks (k : Fin 16) (f : Gleaner → Gleaner) : (s.modGl k f).masks = s.masks := (rfl)
@[simp] theorem modGl_inputs (k : Fin 16) (f : Gleaner → Gleaner) : (s.modGl k f).inputs = s.inputs := (rfl)
@[simp] theorem modGl_meas (k : Fin 16) (f : Gleaner → Gleaner) : (s.modGl k f).meas = s.meas := (rfl)
@[simp] theorem modGl_drained (k : Fin 16) (f : Gleaner → Gleaner) : (s.modGl k f).drained = s.drained := (rfl)
@[simp] theorem modGl_cal (k : Fin 16) (f : Gleaner → Gleaner) : (s.modGl k f).cal = s.cal := (rfl)
@[simp] theorem modGl_flt (k : Fin 16) (f : Gleaner → Gleaner) : (s.modGl k f).flt = s.flt := (rfl)
@[simp] theorem modGl_commit (k : Fin 16) (f : Gleaner → Gleaner) : (s.modGl k f).commit = s.commit := (rfl)
@[simp] theorem modGl_stile (k : Fin 16) (f : Gleaner → Gleaner) : (s.modGl k f).stile = s.stile := (rfl)
@[simp] theorem modGl_hr (k : Fin 16) (f : Gleaner → Gleaner) : (s.modGl k f).hr = s.hr := (rfl)
@[simp] theorem modGl_net (k : Fin 16) (f : Gleaner → Gleaner) : (s.modGl k f).net = s.net := (rfl)
@[simp] theorem modGl_boot (k : Fin 16) (f : Gleaner → Gleaner) : (s.modGl k f).boot = s.boot := (rfl)
@[simp] theorem modGl_due (k : Fin 16) (f : Gleaner → Gleaner) : (s.modGl k f).due = s.due := (rfl)
@[simp] theorem modGl_ddr (k : Fin 16) (f : Gleaner → Gleaner) : (s.modGl k f).ddr = s.ddr := (rfl)
@[simp] theorem modGl_hostMem (k : Fin 16) (f : Gleaner → Gleaner) : (s.modGl k f).hostMem = s.hostMem := (rfl)
@[simp] theorem modGl_nvmF (k : Fin 16) (f : Gleaner → Gleaner) : (s.modGl k f).nvmF = s.nvmF := (rfl)
@[simp] theorem modGl_nvmH (k : Fin 16) (f : Gleaner → Gleaner) : (s.modGl k f).nvmH = s.nvmH := (rfl)
@[simp] theorem modGl_irqs (k : Fin 16) (f : Gleaner → Gleaner) : (s.modGl k f).irqs = s.irqs := (rfl)
@[simp] theorem modGl_lastRead (k : Fin 16) (f : Gleaner → Gleaner) : (s.modGl k f).lastRead = s.lastRead := (rfl)
@[simp] theorem modGl_freeCtr (k : Fin 16) (f : Gleaner → Gleaner) : (s.modGl k f).freeCtr = s.freeCtr := (rfl)
@[simp] theorem modGl_pending (k : Fin 16) (f : Gleaner → Gleaner) : (s.modGl k f).pending = s.pending := (rfl)
@[simp] theorem modGl_getK (k : Fin 16) (f : Gleaner → Gleaner) (j : Nat) : (s.modGl k f).getK j = s.getK j := (rfl)
@[simp] theorem modGl_shadowK (k : Fin 16) (f : Gleaner → Gleaner) (j : Nat) : (s.modGl k f).shadowK j = s.shadowK j := (rfl)
@[simp] theorem modGl_activeK (k : Fin 16) (f : Gleaner → Gleaner) (j : Nat) : (s.modGl k f).activeK j = s.activeK j := (rfl)
@[simp] theorem modGl_freshK (k : Fin 16) (f : Gleaner → Gleaner) (j : Nat) : (s.modGl k f).freshK j = s.freshK j := (rfl)
@[simp] theorem modGl_total (k : Fin 16) (f : Gleaner → Gleaner) (j : Nat) : (s.modGl k f).total j = s.total j := (rfl)
@[simp] theorem modGl_get (k : Fin 16) (f : Gleaner → Gleaner) (g : Fld) (jx : List Nat) : (s.modGl k f).get g jx = s.get g jx := (rfl)
@[simp] theorem modGl_act (k : Fin 16) (f : Gleaner → Gleaner) (g : Fld) (jx : List Nat) : (s.modGl k f).act g jx = s.act g jx := (rfl)
@[simp] theorem modGl_tot (k : Fin 16) (f : Gleaner → Gleaner) (g : Fld) (jx : List Nat) : (s.modGl k f).tot g jx = s.tot g jx := (rfl)

/-! ### modInput -/

@[simp] theorem modInput_regs (i : Fin 112) (f : Input → Input) : (s.modInput i f).regs = s.regs := (rfl)
@[simp] theorem modInput_tb (i : Fin 112) (f : Input → Input) : (s.modInput i f).tb = s.tb := (rfl)
@[simp] theorem modInput_slices (i : Fin 112) (f : Input → Input) : (s.modInput i f).slices = s.slices := (rfl)
@[simp] theorem modInput_cores (i : Fin 112) (f : Input → Input) : (s.modInput i f).cores = s.cores := (rfl)
@[simp] theorem modInput_cs (i : Fin 112) (f : Input → Input) : (s.modInput i f).cs = s.cs := (rfl)
@[simp] theorem modInput_sess (i : Fin 112) (f : Input → Input) : (s.modInput i f).sess = s.sess := (rfl)
@[simp] theorem modInput_host (i : Fin 112) (f : Input → Input) : (s.modInput i f).host = s.host := (rfl)
@[simp] theorem modInput_aos (i : Fin 112) (f : Input → Input) : (s.modInput i f).aos = s.aos := (rfl)
@[simp] theorem modInput_fws (i : Fin 112) (f : Input → Input) : (s.modInput i f).fws = s.fws := (rfl)
@[simp] theorem modInput_trigs (i : Fin 112) (f : Input → Input) : (s.modInput i f).trigs = s.trigs := (rfl)
@[simp] theorem modInput_masks (i : Fin 112) (f : Input → Input) : (s.modInput i f).masks = s.masks := (rfl)
@[simp] theorem modInput_meas (i : Fin 112) (f : Input → Input) : (s.modInput i f).meas = s.meas := (rfl)
@[simp] theorem modInput_gleaners (i : Fin 112) (f : Input → Input) : (s.modInput i f).gleaners = s.gleaners := (rfl)
@[simp] theorem modInput_drained (i : Fin 112) (f : Input → Input) : (s.modInput i f).drained = s.drained := (rfl)
@[simp] theorem modInput_cal (i : Fin 112) (f : Input → Input) : (s.modInput i f).cal = s.cal := (rfl)
@[simp] theorem modInput_flt (i : Fin 112) (f : Input → Input) : (s.modInput i f).flt = s.flt := (rfl)
@[simp] theorem modInput_commit (i : Fin 112) (f : Input → Input) : (s.modInput i f).commit = s.commit := (rfl)
@[simp] theorem modInput_stile (i : Fin 112) (f : Input → Input) : (s.modInput i f).stile = s.stile := (rfl)
@[simp] theorem modInput_hr (i : Fin 112) (f : Input → Input) : (s.modInput i f).hr = s.hr := (rfl)
@[simp] theorem modInput_net (i : Fin 112) (f : Input → Input) : (s.modInput i f).net = s.net := (rfl)
@[simp] theorem modInput_boot (i : Fin 112) (f : Input → Input) : (s.modInput i f).boot = s.boot := (rfl)
@[simp] theorem modInput_due (i : Fin 112) (f : Input → Input) : (s.modInput i f).due = s.due := (rfl)
@[simp] theorem modInput_ddr (i : Fin 112) (f : Input → Input) : (s.modInput i f).ddr = s.ddr := (rfl)
@[simp] theorem modInput_hostMem (i : Fin 112) (f : Input → Input) : (s.modInput i f).hostMem = s.hostMem := (rfl)
@[simp] theorem modInput_nvmF (i : Fin 112) (f : Input → Input) : (s.modInput i f).nvmF = s.nvmF := (rfl)
@[simp] theorem modInput_nvmH (i : Fin 112) (f : Input → Input) : (s.modInput i f).nvmH = s.nvmH := (rfl)
@[simp] theorem modInput_irqs (i : Fin 112) (f : Input → Input) : (s.modInput i f).irqs = s.irqs := (rfl)
@[simp] theorem modInput_lastRead (i : Fin 112) (f : Input → Input) : (s.modInput i f).lastRead = s.lastRead := (rfl)
@[simp] theorem modInput_freeCtr (i : Fin 112) (f : Input → Input) : (s.modInput i f).freeCtr = s.freeCtr := (rfl)
@[simp] theorem modInput_pending (i : Fin 112) (f : Input → Input) : (s.modInput i f).pending = s.pending := (rfl)
@[simp] theorem modInput_getK (i : Fin 112) (f : Input → Input) (j : Nat) : (s.modInput i f).getK j = s.getK j := (rfl)
@[simp] theorem modInput_shadowK (i : Fin 112) (f : Input → Input) (j : Nat) : (s.modInput i f).shadowK j = s.shadowK j := (rfl)
@[simp] theorem modInput_activeK (i : Fin 112) (f : Input → Input) (j : Nat) : (s.modInput i f).activeK j = s.activeK j := (rfl)
@[simp] theorem modInput_freshK (i : Fin 112) (f : Input → Input) (j : Nat) : (s.modInput i f).freshK j = s.freshK j := (rfl)
@[simp] theorem modInput_total (i : Fin 112) (f : Input → Input) (j : Nat) : (s.modInput i f).total j = s.total j := (rfl)
@[simp] theorem modInput_get (i : Fin 112) (f : Input → Input) (g : Fld) (jx : List Nat) : (s.modInput i f).get g jx = s.get g jx := (rfl)
@[simp] theorem modInput_act (i : Fin 112) (f : Input → Input) (g : Fld) (jx : List Nat) : (s.modInput i f).act g jx = s.act g jx := (rfl)
@[simp] theorem modInput_tot (i : Fin 112) (f : Input → Input) (g : Fld) (jx : List Nat) : (s.modInput i f).tot g jx = s.tot g jx := (rfl)

/-! ### modMeas -/

@[simp] theorem modMeas_regs (u : Fin 16) (f : Meas → Meas) : (s.modMeas u f).regs = s.regs := (rfl)
@[simp] theorem modMeas_tb (u : Fin 16) (f : Meas → Meas) : (s.modMeas u f).tb = s.tb := (rfl)
@[simp] theorem modMeas_slices (u : Fin 16) (f : Meas → Meas) : (s.modMeas u f).slices = s.slices := (rfl)
@[simp] theorem modMeas_cores (u : Fin 16) (f : Meas → Meas) : (s.modMeas u f).cores = s.cores := (rfl)
@[simp] theorem modMeas_cs (u : Fin 16) (f : Meas → Meas) : (s.modMeas u f).cs = s.cs := (rfl)
@[simp] theorem modMeas_sess (u : Fin 16) (f : Meas → Meas) : (s.modMeas u f).sess = s.sess := (rfl)
@[simp] theorem modMeas_host (u : Fin 16) (f : Meas → Meas) : (s.modMeas u f).host = s.host := (rfl)
@[simp] theorem modMeas_aos (u : Fin 16) (f : Meas → Meas) : (s.modMeas u f).aos = s.aos := (rfl)
@[simp] theorem modMeas_fws (u : Fin 16) (f : Meas → Meas) : (s.modMeas u f).fws = s.fws := (rfl)
@[simp] theorem modMeas_trigs (u : Fin 16) (f : Meas → Meas) : (s.modMeas u f).trigs = s.trigs := (rfl)
@[simp] theorem modMeas_masks (u : Fin 16) (f : Meas → Meas) : (s.modMeas u f).masks = s.masks := (rfl)
@[simp] theorem modMeas_inputs (u : Fin 16) (f : Meas → Meas) : (s.modMeas u f).inputs = s.inputs := (rfl)
@[simp] theorem modMeas_gleaners (u : Fin 16) (f : Meas → Meas) : (s.modMeas u f).gleaners = s.gleaners := (rfl)
@[simp] theorem modMeas_drained (u : Fin 16) (f : Meas → Meas) : (s.modMeas u f).drained = s.drained := (rfl)
@[simp] theorem modMeas_cal (u : Fin 16) (f : Meas → Meas) : (s.modMeas u f).cal = s.cal := (rfl)
@[simp] theorem modMeas_flt (u : Fin 16) (f : Meas → Meas) : (s.modMeas u f).flt = s.flt := (rfl)
@[simp] theorem modMeas_commit (u : Fin 16) (f : Meas → Meas) : (s.modMeas u f).commit = s.commit := (rfl)
@[simp] theorem modMeas_stile (u : Fin 16) (f : Meas → Meas) : (s.modMeas u f).stile = s.stile := (rfl)
@[simp] theorem modMeas_hr (u : Fin 16) (f : Meas → Meas) : (s.modMeas u f).hr = s.hr := (rfl)
@[simp] theorem modMeas_net (u : Fin 16) (f : Meas → Meas) : (s.modMeas u f).net = s.net := (rfl)
@[simp] theorem modMeas_boot (u : Fin 16) (f : Meas → Meas) : (s.modMeas u f).boot = s.boot := (rfl)
@[simp] theorem modMeas_due (u : Fin 16) (f : Meas → Meas) : (s.modMeas u f).due = s.due := (rfl)
@[simp] theorem modMeas_ddr (u : Fin 16) (f : Meas → Meas) : (s.modMeas u f).ddr = s.ddr := (rfl)
@[simp] theorem modMeas_hostMem (u : Fin 16) (f : Meas → Meas) : (s.modMeas u f).hostMem = s.hostMem := (rfl)
@[simp] theorem modMeas_nvmF (u : Fin 16) (f : Meas → Meas) : (s.modMeas u f).nvmF = s.nvmF := (rfl)
@[simp] theorem modMeas_nvmH (u : Fin 16) (f : Meas → Meas) : (s.modMeas u f).nvmH = s.nvmH := (rfl)
@[simp] theorem modMeas_irqs (u : Fin 16) (f : Meas → Meas) : (s.modMeas u f).irqs = s.irqs := (rfl)
@[simp] theorem modMeas_lastRead (u : Fin 16) (f : Meas → Meas) : (s.modMeas u f).lastRead = s.lastRead := (rfl)
@[simp] theorem modMeas_freeCtr (u : Fin 16) (f : Meas → Meas) : (s.modMeas u f).freeCtr = s.freeCtr := (rfl)
@[simp] theorem modMeas_pending (u : Fin 16) (f : Meas → Meas) : (s.modMeas u f).pending = s.pending := (rfl)
@[simp] theorem modMeas_getK (u : Fin 16) (f : Meas → Meas) (j : Nat) : (s.modMeas u f).getK j = s.getK j := (rfl)
@[simp] theorem modMeas_shadowK (u : Fin 16) (f : Meas → Meas) (j : Nat) : (s.modMeas u f).shadowK j = s.shadowK j := (rfl)
@[simp] theorem modMeas_activeK (u : Fin 16) (f : Meas → Meas) (j : Nat) : (s.modMeas u f).activeK j = s.activeK j := (rfl)
@[simp] theorem modMeas_freshK (u : Fin 16) (f : Meas → Meas) (j : Nat) : (s.modMeas u f).freshK j = s.freshK j := (rfl)
@[simp] theorem modMeas_total (u : Fin 16) (f : Meas → Meas) (j : Nat) : (s.modMeas u f).total j = s.total j := (rfl)
@[simp] theorem modMeas_get (u : Fin 16) (f : Meas → Meas) (g : Fld) (jx : List Nat) : (s.modMeas u f).get g jx = s.get g jx := (rfl)
@[simp] theorem modMeas_act (u : Fin 16) (f : Meas → Meas) (g : Fld) (jx : List Nat) : (s.modMeas u f).act g jx = s.act g jx := (rfl)
@[simp] theorem modMeas_tot (u : Fin 16) (f : Meas → Meas) (g : Fld) (jx : List Nat) : (s.modMeas u f).tot g jx = s.tot g jx := (rfl)

/-! ### modMask -/

@[simp] theorem modMask_regs (m : Fin 16) (f : Mask → Mask) : (s.modMask m f).regs = s.regs := (rfl)
@[simp] theorem modMask_tb (m : Fin 16) (f : Mask → Mask) : (s.modMask m f).tb = s.tb := (rfl)
@[simp] theorem modMask_slices (m : Fin 16) (f : Mask → Mask) : (s.modMask m f).slices = s.slices := (rfl)
@[simp] theorem modMask_cores (m : Fin 16) (f : Mask → Mask) : (s.modMask m f).cores = s.cores := (rfl)
@[simp] theorem modMask_cs (m : Fin 16) (f : Mask → Mask) : (s.modMask m f).cs = s.cs := (rfl)
@[simp] theorem modMask_sess (m : Fin 16) (f : Mask → Mask) : (s.modMask m f).sess = s.sess := (rfl)
@[simp] theorem modMask_host (m : Fin 16) (f : Mask → Mask) : (s.modMask m f).host = s.host := (rfl)
@[simp] theorem modMask_aos (m : Fin 16) (f : Mask → Mask) : (s.modMask m f).aos = s.aos := (rfl)
@[simp] theorem modMask_fws (m : Fin 16) (f : Mask → Mask) : (s.modMask m f).fws = s.fws := (rfl)
@[simp] theorem modMask_trigs (m : Fin 16) (f : Mask → Mask) : (s.modMask m f).trigs = s.trigs := (rfl)
@[simp] theorem modMask_inputs (m : Fin 16) (f : Mask → Mask) : (s.modMask m f).inputs = s.inputs := (rfl)
@[simp] theorem modMask_meas (m : Fin 16) (f : Mask → Mask) : (s.modMask m f).meas = s.meas := (rfl)
@[simp] theorem modMask_gleaners (m : Fin 16) (f : Mask → Mask) : (s.modMask m f).gleaners = s.gleaners := (rfl)
@[simp] theorem modMask_drained (m : Fin 16) (f : Mask → Mask) : (s.modMask m f).drained = s.drained := (rfl)
@[simp] theorem modMask_cal (m : Fin 16) (f : Mask → Mask) : (s.modMask m f).cal = s.cal := (rfl)
@[simp] theorem modMask_flt (m : Fin 16) (f : Mask → Mask) : (s.modMask m f).flt = s.flt := (rfl)
@[simp] theorem modMask_commit (m : Fin 16) (f : Mask → Mask) : (s.modMask m f).commit = s.commit := (rfl)
@[simp] theorem modMask_stile (m : Fin 16) (f : Mask → Mask) : (s.modMask m f).stile = s.stile := (rfl)
@[simp] theorem modMask_hr (m : Fin 16) (f : Mask → Mask) : (s.modMask m f).hr = s.hr := (rfl)
@[simp] theorem modMask_net (m : Fin 16) (f : Mask → Mask) : (s.modMask m f).net = s.net := (rfl)
@[simp] theorem modMask_boot (m : Fin 16) (f : Mask → Mask) : (s.modMask m f).boot = s.boot := (rfl)
@[simp] theorem modMask_due (m : Fin 16) (f : Mask → Mask) : (s.modMask m f).due = s.due := (rfl)
@[simp] theorem modMask_ddr (m : Fin 16) (f : Mask → Mask) : (s.modMask m f).ddr = s.ddr := (rfl)
@[simp] theorem modMask_hostMem (m : Fin 16) (f : Mask → Mask) : (s.modMask m f).hostMem = s.hostMem := (rfl)
@[simp] theorem modMask_nvmF (m : Fin 16) (f : Mask → Mask) : (s.modMask m f).nvmF = s.nvmF := (rfl)
@[simp] theorem modMask_nvmH (m : Fin 16) (f : Mask → Mask) : (s.modMask m f).nvmH = s.nvmH := (rfl)
@[simp] theorem modMask_irqs (m : Fin 16) (f : Mask → Mask) : (s.modMask m f).irqs = s.irqs := (rfl)
@[simp] theorem modMask_lastRead (m : Fin 16) (f : Mask → Mask) : (s.modMask m f).lastRead = s.lastRead := (rfl)
@[simp] theorem modMask_freeCtr (m : Fin 16) (f : Mask → Mask) : (s.modMask m f).freeCtr = s.freeCtr := (rfl)
@[simp] theorem modMask_pending (m : Fin 16) (f : Mask → Mask) : (s.modMask m f).pending = s.pending := (rfl)
@[simp] theorem modMask_getK (m : Fin 16) (f : Mask → Mask) (j : Nat) : (s.modMask m f).getK j = s.getK j := (rfl)
@[simp] theorem modMask_shadowK (m : Fin 16) (f : Mask → Mask) (j : Nat) : (s.modMask m f).shadowK j = s.shadowK j := (rfl)
@[simp] theorem modMask_activeK (m : Fin 16) (f : Mask → Mask) (j : Nat) : (s.modMask m f).activeK j = s.activeK j := (rfl)
@[simp] theorem modMask_freshK (m : Fin 16) (f : Mask → Mask) (j : Nat) : (s.modMask m f).freshK j = s.freshK j := (rfl)
@[simp] theorem modMask_total (m : Fin 16) (f : Mask → Mask) (j : Nat) : (s.modMask m f).total j = s.total j := (rfl)
@[simp] theorem modMask_get (m : Fin 16) (f : Mask → Mask) (g : Fld) (jx : List Nat) : (s.modMask m f).get g jx = s.get g jx := (rfl)
@[simp] theorem modMask_act (m : Fin 16) (f : Mask → Mask) (g : Fld) (jx : List Nat) : (s.modMask m f).act g jx = s.act g jx := (rfl)
@[simp] theorem modMask_tot (m : Fin 16) (f : Mask → Mask) (g : Fld) (jx : List Nat) : (s.modMask m f).tot g jx = s.tot g jx := (rfl)

/-! ### modFlt -/

@[simp] theorem modFlt_regs (f : Faults → Faults) : (s.modFlt f).regs = s.regs := (rfl)
@[simp] theorem modFlt_tb (f : Faults → Faults) : (s.modFlt f).tb = s.tb := (rfl)
@[simp] theorem modFlt_slices (f : Faults → Faults) : (s.modFlt f).slices = s.slices := (rfl)
@[simp] theorem modFlt_cores (f : Faults → Faults) : (s.modFlt f).cores = s.cores := (rfl)
@[simp] theorem modFlt_cs (f : Faults → Faults) : (s.modFlt f).cs = s.cs := (rfl)
@[simp] theorem modFlt_sess (f : Faults → Faults) : (s.modFlt f).sess = s.sess := (rfl)
@[simp] theorem modFlt_host (f : Faults → Faults) : (s.modFlt f).host = s.host := (rfl)
@[simp] theorem modFlt_aos (f : Faults → Faults) : (s.modFlt f).aos = s.aos := (rfl)
@[simp] theorem modFlt_fws (f : Faults → Faults) : (s.modFlt f).fws = s.fws := (rfl)
@[simp] theorem modFlt_trigs (f : Faults → Faults) : (s.modFlt f).trigs = s.trigs := (rfl)
@[simp] theorem modFlt_masks (f : Faults → Faults) : (s.modFlt f).masks = s.masks := (rfl)
@[simp] theorem modFlt_inputs (f : Faults → Faults) : (s.modFlt f).inputs = s.inputs := (rfl)
@[simp] theorem modFlt_meas (f : Faults → Faults) : (s.modFlt f).meas = s.meas := (rfl)
@[simp] theorem modFlt_gleaners (f : Faults → Faults) : (s.modFlt f).gleaners = s.gleaners := (rfl)
@[simp] theorem modFlt_drained (f : Faults → Faults) : (s.modFlt f).drained = s.drained := (rfl)
@[simp] theorem modFlt_cal (f : Faults → Faults) : (s.modFlt f).cal = s.cal := (rfl)
@[simp] theorem modFlt_commit (f : Faults → Faults) : (s.modFlt f).commit = s.commit := (rfl)
@[simp] theorem modFlt_stile (f : Faults → Faults) : (s.modFlt f).stile = s.stile := (rfl)
@[simp] theorem modFlt_hr (f : Faults → Faults) : (s.modFlt f).hr = s.hr := (rfl)
@[simp] theorem modFlt_net (f : Faults → Faults) : (s.modFlt f).net = s.net := (rfl)
@[simp] theorem modFlt_boot (f : Faults → Faults) : (s.modFlt f).boot = s.boot := (rfl)
@[simp] theorem modFlt_due (f : Faults → Faults) : (s.modFlt f).due = s.due := (rfl)
@[simp] theorem modFlt_ddr (f : Faults → Faults) : (s.modFlt f).ddr = s.ddr := (rfl)
@[simp] theorem modFlt_hostMem (f : Faults → Faults) : (s.modFlt f).hostMem = s.hostMem := (rfl)
@[simp] theorem modFlt_nvmF (f : Faults → Faults) : (s.modFlt f).nvmF = s.nvmF := (rfl)
@[simp] theorem modFlt_nvmH (f : Faults → Faults) : (s.modFlt f).nvmH = s.nvmH := (rfl)
@[simp] theorem modFlt_irqs (f : Faults → Faults) : (s.modFlt f).irqs = s.irqs := (rfl)
@[simp] theorem modFlt_lastRead (f : Faults → Faults) : (s.modFlt f).lastRead = s.lastRead := (rfl)
@[simp] theorem modFlt_freeCtr (f : Faults → Faults) : (s.modFlt f).freeCtr = s.freeCtr := (rfl)
@[simp] theorem modFlt_pending (f : Faults → Faults) : (s.modFlt f).pending = s.pending := (rfl)
@[simp] theorem modFlt_getK (f : Faults → Faults) (j : Nat) : (s.modFlt f).getK j = s.getK j := (rfl)
@[simp] theorem modFlt_shadowK (f : Faults → Faults) (j : Nat) : (s.modFlt f).shadowK j = s.shadowK j := (rfl)
@[simp] theorem modFlt_activeK (f : Faults → Faults) (j : Nat) : (s.modFlt f).activeK j = s.activeK j := (rfl)
@[simp] theorem modFlt_freshK (f : Faults → Faults) (j : Nat) : (s.modFlt f).freshK j = s.freshK j := (rfl)
@[simp] theorem modFlt_total (f : Faults → Faults) (j : Nat) : (s.modFlt f).total j = s.total j := (rfl)
@[simp] theorem modFlt_get (f : Faults → Faults) (g : Fld) (jx : List Nat) : (s.modFlt f).get g jx = s.get g jx := (rfl)
@[simp] theorem modFlt_act (f : Faults → Faults) (g : Fld) (jx : List Nat) : (s.modFlt f).act g jx = s.act g jx := (rfl)
@[simp] theorem modFlt_tot (f : Faults → Faults) (g : Fld) (jx : List Nat) : (s.modFlt f).tot g jx = s.tot g jx := (rfl)

/-! ### modCommit -/

@[simp] theorem modCommit_regs (f : CommitEng → CommitEng) : (s.modCommit f).regs = s.regs := (rfl)
@[simp] theorem modCommit_tb (f : CommitEng → CommitEng) : (s.modCommit f).tb = s.tb := (rfl)
@[simp] theorem modCommit_slices (f : CommitEng → CommitEng) : (s.modCommit f).slices = s.slices := (rfl)
@[simp] theorem modCommit_cores (f : CommitEng → CommitEng) : (s.modCommit f).cores = s.cores := (rfl)
@[simp] theorem modCommit_cs (f : CommitEng → CommitEng) : (s.modCommit f).cs = s.cs := (rfl)
@[simp] theorem modCommit_sess (f : CommitEng → CommitEng) : (s.modCommit f).sess = s.sess := (rfl)
@[simp] theorem modCommit_host (f : CommitEng → CommitEng) : (s.modCommit f).host = s.host := (rfl)
@[simp] theorem modCommit_aos (f : CommitEng → CommitEng) : (s.modCommit f).aos = s.aos := (rfl)
@[simp] theorem modCommit_fws (f : CommitEng → CommitEng) : (s.modCommit f).fws = s.fws := (rfl)
@[simp] theorem modCommit_trigs (f : CommitEng → CommitEng) : (s.modCommit f).trigs = s.trigs := (rfl)
@[simp] theorem modCommit_masks (f : CommitEng → CommitEng) : (s.modCommit f).masks = s.masks := (rfl)
@[simp] theorem modCommit_inputs (f : CommitEng → CommitEng) : (s.modCommit f).inputs = s.inputs := (rfl)
@[simp] theorem modCommit_meas (f : CommitEng → CommitEng) : (s.modCommit f).meas = s.meas := (rfl)
@[simp] theorem modCommit_gleaners (f : CommitEng → CommitEng) : (s.modCommit f).gleaners = s.gleaners := (rfl)
@[simp] theorem modCommit_drained (f : CommitEng → CommitEng) : (s.modCommit f).drained = s.drained := (rfl)
@[simp] theorem modCommit_cal (f : CommitEng → CommitEng) : (s.modCommit f).cal = s.cal := (rfl)
@[simp] theorem modCommit_flt (f : CommitEng → CommitEng) : (s.modCommit f).flt = s.flt := (rfl)
@[simp] theorem modCommit_stile (f : CommitEng → CommitEng) : (s.modCommit f).stile = s.stile := (rfl)
@[simp] theorem modCommit_hr (f : CommitEng → CommitEng) : (s.modCommit f).hr = s.hr := (rfl)
@[simp] theorem modCommit_net (f : CommitEng → CommitEng) : (s.modCommit f).net = s.net := (rfl)
@[simp] theorem modCommit_boot (f : CommitEng → CommitEng) : (s.modCommit f).boot = s.boot := (rfl)
@[simp] theorem modCommit_due (f : CommitEng → CommitEng) : (s.modCommit f).due = s.due := (rfl)
@[simp] theorem modCommit_ddr (f : CommitEng → CommitEng) : (s.modCommit f).ddr = s.ddr := (rfl)
@[simp] theorem modCommit_hostMem (f : CommitEng → CommitEng) : (s.modCommit f).hostMem = s.hostMem := (rfl)
@[simp] theorem modCommit_nvmF (f : CommitEng → CommitEng) : (s.modCommit f).nvmF = s.nvmF := (rfl)
@[simp] theorem modCommit_nvmH (f : CommitEng → CommitEng) : (s.modCommit f).nvmH = s.nvmH := (rfl)
@[simp] theorem modCommit_irqs (f : CommitEng → CommitEng) : (s.modCommit f).irqs = s.irqs := (rfl)
@[simp] theorem modCommit_lastRead (f : CommitEng → CommitEng) : (s.modCommit f).lastRead = s.lastRead := (rfl)
@[simp] theorem modCommit_freeCtr (f : CommitEng → CommitEng) : (s.modCommit f).freeCtr = s.freeCtr := (rfl)
@[simp] theorem modCommit_pending (f : CommitEng → CommitEng) : (s.modCommit f).pending = s.pending := (rfl)
@[simp] theorem modCommit_getK (f : CommitEng → CommitEng) (j : Nat) : (s.modCommit f).getK j = s.getK j := (rfl)
@[simp] theorem modCommit_shadowK (f : CommitEng → CommitEng) (j : Nat) : (s.modCommit f).shadowK j = s.shadowK j := (rfl)
@[simp] theorem modCommit_activeK (f : CommitEng → CommitEng) (j : Nat) : (s.modCommit f).activeK j = s.activeK j := (rfl)
@[simp] theorem modCommit_freshK (f : CommitEng → CommitEng) (j : Nat) : (s.modCommit f).freshK j = s.freshK j := (rfl)
@[simp] theorem modCommit_total (f : CommitEng → CommitEng) (j : Nat) : (s.modCommit f).total j = s.total j := (rfl)
@[simp] theorem modCommit_get (f : CommitEng → CommitEng) (g : Fld) (jx : List Nat) : (s.modCommit f).get g jx = s.get g jx := (rfl)
@[simp] theorem modCommit_act (f : CommitEng → CommitEng) (g : Fld) (jx : List Nat) : (s.modCommit f).act g jx = s.act g jx := (rfl)
@[simp] theorem modCommit_tot (f : CommitEng → CommitEng) (g : Fld) (jx : List Nat) : (s.modCommit f).tot g jx = s.tot g jx := (rfl)

/-! ### modTb -/

@[simp] theorem modTb_regs (f : TimeBase → TimeBase) : (s.modTb f).regs = s.regs := (rfl)
@[simp] theorem modTb_slices (f : TimeBase → TimeBase) : (s.modTb f).slices = s.slices := (rfl)
@[simp] theorem modTb_cores (f : TimeBase → TimeBase) : (s.modTb f).cores = s.cores := (rfl)
@[simp] theorem modTb_cs (f : TimeBase → TimeBase) : (s.modTb f).cs = s.cs := (rfl)
@[simp] theorem modTb_sess (f : TimeBase → TimeBase) : (s.modTb f).sess = s.sess := (rfl)
@[simp] theorem modTb_host (f : TimeBase → TimeBase) : (s.modTb f).host = s.host := (rfl)
@[simp] theorem modTb_aos (f : TimeBase → TimeBase) : (s.modTb f).aos = s.aos := (rfl)
@[simp] theorem modTb_fws (f : TimeBase → TimeBase) : (s.modTb f).fws = s.fws := (rfl)
@[simp] theorem modTb_trigs (f : TimeBase → TimeBase) : (s.modTb f).trigs = s.trigs := (rfl)
@[simp] theorem modTb_masks (f : TimeBase → TimeBase) : (s.modTb f).masks = s.masks := (rfl)
@[simp] theorem modTb_inputs (f : TimeBase → TimeBase) : (s.modTb f).inputs = s.inputs := (rfl)
@[simp] theorem modTb_meas (f : TimeBase → TimeBase) : (s.modTb f).meas = s.meas := (rfl)
@[simp] theorem modTb_gleaners (f : TimeBase → TimeBase) : (s.modTb f).gleaners = s.gleaners := (rfl)
@[simp] theorem modTb_drained (f : TimeBase → TimeBase) : (s.modTb f).drained = s.drained := (rfl)
@[simp] theorem modTb_cal (f : TimeBase → TimeBase) : (s.modTb f).cal = s.cal := (rfl)
@[simp] theorem modTb_flt (f : TimeBase → TimeBase) : (s.modTb f).flt = s.flt := (rfl)
@[simp] theorem modTb_commit (f : TimeBase → TimeBase) : (s.modTb f).commit = s.commit := (rfl)
@[simp] theorem modTb_stile (f : TimeBase → TimeBase) : (s.modTb f).stile = s.stile := (rfl)
@[simp] theorem modTb_hr (f : TimeBase → TimeBase) : (s.modTb f).hr = s.hr := (rfl)
@[simp] theorem modTb_net (f : TimeBase → TimeBase) : (s.modTb f).net = s.net := (rfl)
@[simp] theorem modTb_boot (f : TimeBase → TimeBase) : (s.modTb f).boot = s.boot := (rfl)
@[simp] theorem modTb_due (f : TimeBase → TimeBase) : (s.modTb f).due = s.due := (rfl)
@[simp] theorem modTb_ddr (f : TimeBase → TimeBase) : (s.modTb f).ddr = s.ddr := (rfl)
@[simp] theorem modTb_hostMem (f : TimeBase → TimeBase) : (s.modTb f).hostMem = s.hostMem := (rfl)
@[simp] theorem modTb_nvmF (f : TimeBase → TimeBase) : (s.modTb f).nvmF = s.nvmF := (rfl)
@[simp] theorem modTb_nvmH (f : TimeBase → TimeBase) : (s.modTb f).nvmH = s.nvmH := (rfl)
@[simp] theorem modTb_irqs (f : TimeBase → TimeBase) : (s.modTb f).irqs = s.irqs := (rfl)
@[simp] theorem modTb_lastRead (f : TimeBase → TimeBase) : (s.modTb f).lastRead = s.lastRead := (rfl)
@[simp] theorem modTb_freeCtr (f : TimeBase → TimeBase) : (s.modTb f).freeCtr = s.freeCtr := (rfl)
@[simp] theorem modTb_pending (f : TimeBase → TimeBase) : (s.modTb f).pending = s.pending := (rfl)
@[simp] theorem modTb_getK (f : TimeBase → TimeBase) (j : Nat) : (s.modTb f).getK j = s.getK j := (rfl)
@[simp] theorem modTb_shadowK (f : TimeBase → TimeBase) (j : Nat) : (s.modTb f).shadowK j = s.shadowK j := (rfl)
@[simp] theorem modTb_activeK (f : TimeBase → TimeBase) (j : Nat) : (s.modTb f).activeK j = s.activeK j := (rfl)
@[simp] theorem modTb_freshK (f : TimeBase → TimeBase) (j : Nat) : (s.modTb f).freshK j = s.freshK j := (rfl)
@[simp] theorem modTb_total (f : TimeBase → TimeBase) (j : Nat) : (s.modTb f).total j = s.total j := (rfl)
@[simp] theorem modTb_get (f : TimeBase → TimeBase) (g : Fld) (jx : List Nat) : (s.modTb f).get g jx = s.get g jx := (rfl)
@[simp] theorem modTb_act (f : TimeBase → TimeBase) (g : Fld) (jx : List Nat) : (s.modTb f).act g jx = s.act g jx := (rfl)
@[simp] theorem modTb_tot (f : TimeBase → TimeBase) (g : Fld) (jx : List Nat) : (s.modTb f).tot g jx = s.tot g jx := (rfl)

/-! ### modHr -/

@[simp] theorem modHr_regs (f : Hedge → Hedge) : (s.modHr f).regs = s.regs := (rfl)
@[simp] theorem modHr_tb (f : Hedge → Hedge) : (s.modHr f).tb = s.tb := (rfl)
@[simp] theorem modHr_slices (f : Hedge → Hedge) : (s.modHr f).slices = s.slices := (rfl)
@[simp] theorem modHr_cores (f : Hedge → Hedge) : (s.modHr f).cores = s.cores := (rfl)
@[simp] theorem modHr_cs (f : Hedge → Hedge) : (s.modHr f).cs = s.cs := (rfl)
@[simp] theorem modHr_sess (f : Hedge → Hedge) : (s.modHr f).sess = s.sess := (rfl)
@[simp] theorem modHr_host (f : Hedge → Hedge) : (s.modHr f).host = s.host := (rfl)
@[simp] theorem modHr_aos (f : Hedge → Hedge) : (s.modHr f).aos = s.aos := (rfl)
@[simp] theorem modHr_fws (f : Hedge → Hedge) : (s.modHr f).fws = s.fws := (rfl)
@[simp] theorem modHr_trigs (f : Hedge → Hedge) : (s.modHr f).trigs = s.trigs := (rfl)
@[simp] theorem modHr_masks (f : Hedge → Hedge) : (s.modHr f).masks = s.masks := (rfl)
@[simp] theorem modHr_inputs (f : Hedge → Hedge) : (s.modHr f).inputs = s.inputs := (rfl)
@[simp] theorem modHr_meas (f : Hedge → Hedge) : (s.modHr f).meas = s.meas := (rfl)
@[simp] theorem modHr_gleaners (f : Hedge → Hedge) : (s.modHr f).gleaners = s.gleaners := (rfl)
@[simp] theorem modHr_drained (f : Hedge → Hedge) : (s.modHr f).drained = s.drained := (rfl)
@[simp] theorem modHr_cal (f : Hedge → Hedge) : (s.modHr f).cal = s.cal := (rfl)
@[simp] theorem modHr_flt (f : Hedge → Hedge) : (s.modHr f).flt = s.flt := (rfl)
@[simp] theorem modHr_commit (f : Hedge → Hedge) : (s.modHr f).commit = s.commit := (rfl)
@[simp] theorem modHr_stile (f : Hedge → Hedge) : (s.modHr f).stile = s.stile := (rfl)
@[simp] theorem modHr_net (f : Hedge → Hedge) : (s.modHr f).net = s.net := (rfl)
@[simp] theorem modHr_boot (f : Hedge → Hedge) : (s.modHr f).boot = s.boot := (rfl)
@[simp] theorem modHr_due (f : Hedge → Hedge) : (s.modHr f).due = s.due := (rfl)
@[simp] theorem modHr_ddr (f : Hedge → Hedge) : (s.modHr f).ddr = s.ddr := (rfl)
@[simp] theorem modHr_hostMem (f : Hedge → Hedge) : (s.modHr f).hostMem = s.hostMem := (rfl)
@[simp] theorem modHr_nvmF (f : Hedge → Hedge) : (s.modHr f).nvmF = s.nvmF := (rfl)
@[simp] theorem modHr_nvmH (f : Hedge → Hedge) : (s.modHr f).nvmH = s.nvmH := (rfl)
@[simp] theorem modHr_irqs (f : Hedge → Hedge) : (s.modHr f).irqs = s.irqs := (rfl)
@[simp] theorem modHr_lastRead (f : Hedge → Hedge) : (s.modHr f).lastRead = s.lastRead := (rfl)
@[simp] theorem modHr_freeCtr (f : Hedge → Hedge) : (s.modHr f).freeCtr = s.freeCtr := (rfl)
@[simp] theorem modHr_pending (f : Hedge → Hedge) : (s.modHr f).pending = s.pending := (rfl)
@[simp] theorem modHr_getK (f : Hedge → Hedge) (j : Nat) : (s.modHr f).getK j = s.getK j := (rfl)
@[simp] theorem modHr_shadowK (f : Hedge → Hedge) (j : Nat) : (s.modHr f).shadowK j = s.shadowK j := (rfl)
@[simp] theorem modHr_activeK (f : Hedge → Hedge) (j : Nat) : (s.modHr f).activeK j = s.activeK j := (rfl)
@[simp] theorem modHr_freshK (f : Hedge → Hedge) (j : Nat) : (s.modHr f).freshK j = s.freshK j := (rfl)
@[simp] theorem modHr_total (f : Hedge → Hedge) (j : Nat) : (s.modHr f).total j = s.total j := (rfl)
@[simp] theorem modHr_get (f : Hedge → Hedge) (g : Fld) (jx : List Nat) : (s.modHr f).get g jx = s.get g jx := (rfl)
@[simp] theorem modHr_act (f : Hedge → Hedge) (g : Fld) (jx : List Nat) : (s.modHr f).act g jx = s.act g jx := (rfl)
@[simp] theorem modHr_tot (f : Hedge → Hedge) (g : Fld) (jx : List Nat) : (s.modHr f).tot g jx = s.tot g jx := (rfl)

/-! ### modStile -/

@[simp] theorem modStile_regs (f : Stile → Stile) : (s.modStile f).regs = s.regs := (rfl)
@[simp] theorem modStile_tb (f : Stile → Stile) : (s.modStile f).tb = s.tb := (rfl)
@[simp] theorem modStile_slices (f : Stile → Stile) : (s.modStile f).slices = s.slices := (rfl)
@[simp] theorem modStile_cores (f : Stile → Stile) : (s.modStile f).cores = s.cores := (rfl)
@[simp] theorem modStile_cs (f : Stile → Stile) : (s.modStile f).cs = s.cs := (rfl)
@[simp] theorem modStile_sess (f : Stile → Stile) : (s.modStile f).sess = s.sess := (rfl)
@[simp] theorem modStile_host (f : Stile → Stile) : (s.modStile f).host = s.host := (rfl)
@[simp] theorem modStile_aos (f : Stile → Stile) : (s.modStile f).aos = s.aos := (rfl)
@[simp] theorem modStile_fws (f : Stile → Stile) : (s.modStile f).fws = s.fws := (rfl)
@[simp] theorem modStile_trigs (f : Stile → Stile) : (s.modStile f).trigs = s.trigs := (rfl)
@[simp] theorem modStile_masks (f : Stile → Stile) : (s.modStile f).masks = s.masks := (rfl)
@[simp] theorem modStile_inputs (f : Stile → Stile) : (s.modStile f).inputs = s.inputs := (rfl)
@[simp] theorem modStile_meas (f : Stile → Stile) : (s.modStile f).meas = s.meas := (rfl)
@[simp] theorem modStile_gleaners (f : Stile → Stile) : (s.modStile f).gleaners = s.gleaners := (rfl)
@[simp] theorem modStile_drained (f : Stile → Stile) : (s.modStile f).drained = s.drained := (rfl)
@[simp] theorem modStile_cal (f : Stile → Stile) : (s.modStile f).cal = s.cal := (rfl)
@[simp] theorem modStile_flt (f : Stile → Stile) : (s.modStile f).flt = s.flt := (rfl)
@[simp] theorem modStile_commit (f : Stile → Stile) : (s.modStile f).commit = s.commit := (rfl)
@[simp] theorem modStile_hr (f : Stile → Stile) : (s.modStile f).hr = s.hr := (rfl)
@[simp] theorem modStile_net (f : Stile → Stile) : (s.modStile f).net = s.net := (rfl)
@[simp] theorem modStile_boot (f : Stile → Stile) : (s.modStile f).boot = s.boot := (rfl)
@[simp] theorem modStile_due (f : Stile → Stile) : (s.modStile f).due = s.due := (rfl)
@[simp] theorem modStile_ddr (f : Stile → Stile) : (s.modStile f).ddr = s.ddr := (rfl)
@[simp] theorem modStile_hostMem (f : Stile → Stile) : (s.modStile f).hostMem = s.hostMem := (rfl)
@[simp] theorem modStile_nvmF (f : Stile → Stile) : (s.modStile f).nvmF = s.nvmF := (rfl)
@[simp] theorem modStile_nvmH (f : Stile → Stile) : (s.modStile f).nvmH = s.nvmH := (rfl)
@[simp] theorem modStile_irqs (f : Stile → Stile) : (s.modStile f).irqs = s.irqs := (rfl)
@[simp] theorem modStile_lastRead (f : Stile → Stile) : (s.modStile f).lastRead = s.lastRead := (rfl)
@[simp] theorem modStile_freeCtr (f : Stile → Stile) : (s.modStile f).freeCtr = s.freeCtr := (rfl)
@[simp] theorem modStile_pending (f : Stile → Stile) : (s.modStile f).pending = s.pending := (rfl)
@[simp] theorem modStile_getK (f : Stile → Stile) (j : Nat) : (s.modStile f).getK j = s.getK j := (rfl)
@[simp] theorem modStile_shadowK (f : Stile → Stile) (j : Nat) : (s.modStile f).shadowK j = s.shadowK j := (rfl)
@[simp] theorem modStile_activeK (f : Stile → Stile) (j : Nat) : (s.modStile f).activeK j = s.activeK j := (rfl)
@[simp] theorem modStile_freshK (f : Stile → Stile) (j : Nat) : (s.modStile f).freshK j = s.freshK j := (rfl)
@[simp] theorem modStile_total (f : Stile → Stile) (j : Nat) : (s.modStile f).total j = s.total j := (rfl)
@[simp] theorem modStile_get (f : Stile → Stile) (g : Fld) (jx : List Nat) : (s.modStile f).get g jx = s.get g jx := (rfl)
@[simp] theorem modStile_act (f : Stile → Stile) (g : Fld) (jx : List Nat) : (s.modStile f).act g jx = s.act g jx := (rfl)
@[simp] theorem modStile_tot (f : Stile → Stile) (g : Fld) (jx : List Nat) : (s.modStile f).tot g jx = s.tot g jx := (rfl)

/-! ### modNet -/

@[simp] theorem modNet_regs (f : Net → Net) : (s.modNet f).regs = s.regs := (rfl)
@[simp] theorem modNet_tb (f : Net → Net) : (s.modNet f).tb = s.tb := (rfl)
@[simp] theorem modNet_slices (f : Net → Net) : (s.modNet f).slices = s.slices := (rfl)
@[simp] theorem modNet_cores (f : Net → Net) : (s.modNet f).cores = s.cores := (rfl)
@[simp] theorem modNet_cs (f : Net → Net) : (s.modNet f).cs = s.cs := (rfl)
@[simp] theorem modNet_sess (f : Net → Net) : (s.modNet f).sess = s.sess := (rfl)
@[simp] theorem modNet_host (f : Net → Net) : (s.modNet f).host = s.host := (rfl)
@[simp] theorem modNet_aos (f : Net → Net) : (s.modNet f).aos = s.aos := (rfl)
@[simp] theorem modNet_fws (f : Net → Net) : (s.modNet f).fws = s.fws := (rfl)
@[simp] theorem modNet_trigs (f : Net → Net) : (s.modNet f).trigs = s.trigs := (rfl)
@[simp] theorem modNet_masks (f : Net → Net) : (s.modNet f).masks = s.masks := (rfl)
@[simp] theorem modNet_inputs (f : Net → Net) : (s.modNet f).inputs = s.inputs := (rfl)
@[simp] theorem modNet_meas (f : Net → Net) : (s.modNet f).meas = s.meas := (rfl)
@[simp] theorem modNet_gleaners (f : Net → Net) : (s.modNet f).gleaners = s.gleaners := (rfl)
@[simp] theorem modNet_drained (f : Net → Net) : (s.modNet f).drained = s.drained := (rfl)
@[simp] theorem modNet_cal (f : Net → Net) : (s.modNet f).cal = s.cal := (rfl)
@[simp] theorem modNet_flt (f : Net → Net) : (s.modNet f).flt = s.flt := (rfl)
@[simp] theorem modNet_commit (f : Net → Net) : (s.modNet f).commit = s.commit := (rfl)
@[simp] theorem modNet_stile (f : Net → Net) : (s.modNet f).stile = s.stile := (rfl)
@[simp] theorem modNet_hr (f : Net → Net) : (s.modNet f).hr = s.hr := (rfl)
@[simp] theorem modNet_boot (f : Net → Net) : (s.modNet f).boot = s.boot := (rfl)
@[simp] theorem modNet_due (f : Net → Net) : (s.modNet f).due = s.due := (rfl)
@[simp] theorem modNet_ddr (f : Net → Net) : (s.modNet f).ddr = s.ddr := (rfl)
@[simp] theorem modNet_hostMem (f : Net → Net) : (s.modNet f).hostMem = s.hostMem := (rfl)
@[simp] theorem modNet_nvmF (f : Net → Net) : (s.modNet f).nvmF = s.nvmF := (rfl)
@[simp] theorem modNet_nvmH (f : Net → Net) : (s.modNet f).nvmH = s.nvmH := (rfl)
@[simp] theorem modNet_irqs (f : Net → Net) : (s.modNet f).irqs = s.irqs := (rfl)
@[simp] theorem modNet_lastRead (f : Net → Net) : (s.modNet f).lastRead = s.lastRead := (rfl)
@[simp] theorem modNet_freeCtr (f : Net → Net) : (s.modNet f).freeCtr = s.freeCtr := (rfl)
@[simp] theorem modNet_pending (f : Net → Net) : (s.modNet f).pending = s.pending := (rfl)
@[simp] theorem modNet_getK (f : Net → Net) (j : Nat) : (s.modNet f).getK j = s.getK j := (rfl)
@[simp] theorem modNet_shadowK (f : Net → Net) (j : Nat) : (s.modNet f).shadowK j = s.shadowK j := (rfl)
@[simp] theorem modNet_activeK (f : Net → Net) (j : Nat) : (s.modNet f).activeK j = s.activeK j := (rfl)
@[simp] theorem modNet_freshK (f : Net → Net) (j : Nat) : (s.modNet f).freshK j = s.freshK j := (rfl)
@[simp] theorem modNet_total (f : Net → Net) (j : Nat) : (s.modNet f).total j = s.total j := (rfl)
@[simp] theorem modNet_get (f : Net → Net) (g : Fld) (jx : List Nat) : (s.modNet f).get g jx = s.get g jx := (rfl)
@[simp] theorem modNet_act (f : Net → Net) (g : Fld) (jx : List Nat) : (s.modNet f).act g jx = s.act g jx := (rfl)
@[simp] theorem modNet_tot (f : Net → Net) (g : Fld) (jx : List Nat) : (s.modNet f).tot g jx = s.tot g jx := (rfl)

/-! ### modPort -/

@[simp] theorem modPort_regs (p : Fin 4) (f : Port → Port) : (s.modPort p f).regs = s.regs := (rfl)
@[simp] theorem modPort_tb (p : Fin 4) (f : Port → Port) : (s.modPort p f).tb = s.tb := (rfl)
@[simp] theorem modPort_slices (p : Fin 4) (f : Port → Port) : (s.modPort p f).slices = s.slices := (rfl)
@[simp] theorem modPort_cores (p : Fin 4) (f : Port → Port) : (s.modPort p f).cores = s.cores := (rfl)
@[simp] theorem modPort_cs (p : Fin 4) (f : Port → Port) : (s.modPort p f).cs = s.cs := (rfl)
@[simp] theorem modPort_sess (p : Fin 4) (f : Port → Port) : (s.modPort p f).sess = s.sess := (rfl)
@[simp] theorem modPort_host (p : Fin 4) (f : Port → Port) : (s.modPort p f).host = s.host := (rfl)
@[simp] theorem modPort_aos (p : Fin 4) (f : Port → Port) : (s.modPort p f).aos = s.aos := (rfl)
@[simp] theorem modPort_fws (p : Fin 4) (f : Port → Port) : (s.modPort p f).fws = s.fws := (rfl)
@[simp] theorem modPort_trigs (p : Fin 4) (f : Port → Port) : (s.modPort p f).trigs = s.trigs := (rfl)
@[simp] theorem modPort_masks (p : Fin 4) (f : Port → Port) : (s.modPort p f).masks = s.masks := (rfl)
@[simp] theorem modPort_inputs (p : Fin 4) (f : Port → Port) : (s.modPort p f).inputs = s.inputs := (rfl)
@[simp] theorem modPort_meas (p : Fin 4) (f : Port → Port) : (s.modPort p f).meas = s.meas := (rfl)
@[simp] theorem modPort_gleaners (p : Fin 4) (f : Port → Port) : (s.modPort p f).gleaners = s.gleaners := (rfl)
@[simp] theorem modPort_drained (p : Fin 4) (f : Port → Port) : (s.modPort p f).drained = s.drained := (rfl)
@[simp] theorem modPort_cal (p : Fin 4) (f : Port → Port) : (s.modPort p f).cal = s.cal := (rfl)
@[simp] theorem modPort_flt (p : Fin 4) (f : Port → Port) : (s.modPort p f).flt = s.flt := (rfl)
@[simp] theorem modPort_commit (p : Fin 4) (f : Port → Port) : (s.modPort p f).commit = s.commit := (rfl)
@[simp] theorem modPort_stile (p : Fin 4) (f : Port → Port) : (s.modPort p f).stile = s.stile := (rfl)
@[simp] theorem modPort_hr (p : Fin 4) (f : Port → Port) : (s.modPort p f).hr = s.hr := (rfl)
@[simp] theorem modPort_boot (p : Fin 4) (f : Port → Port) : (s.modPort p f).boot = s.boot := (rfl)
@[simp] theorem modPort_due (p : Fin 4) (f : Port → Port) : (s.modPort p f).due = s.due := (rfl)
@[simp] theorem modPort_ddr (p : Fin 4) (f : Port → Port) : (s.modPort p f).ddr = s.ddr := (rfl)
@[simp] theorem modPort_hostMem (p : Fin 4) (f : Port → Port) : (s.modPort p f).hostMem = s.hostMem := (rfl)
@[simp] theorem modPort_nvmF (p : Fin 4) (f : Port → Port) : (s.modPort p f).nvmF = s.nvmF := (rfl)
@[simp] theorem modPort_nvmH (p : Fin 4) (f : Port → Port) : (s.modPort p f).nvmH = s.nvmH := (rfl)
@[simp] theorem modPort_irqs (p : Fin 4) (f : Port → Port) : (s.modPort p f).irqs = s.irqs := (rfl)
@[simp] theorem modPort_lastRead (p : Fin 4) (f : Port → Port) : (s.modPort p f).lastRead = s.lastRead := (rfl)
@[simp] theorem modPort_freeCtr (p : Fin 4) (f : Port → Port) : (s.modPort p f).freeCtr = s.freeCtr := (rfl)
@[simp] theorem modPort_pending (p : Fin 4) (f : Port → Port) : (s.modPort p f).pending = s.pending := (rfl)
@[simp] theorem modPort_getK (p : Fin 4) (f : Port → Port) (j : Nat) : (s.modPort p f).getK j = s.getK j := (rfl)
@[simp] theorem modPort_shadowK (p : Fin 4) (f : Port → Port) (j : Nat) : (s.modPort p f).shadowK j = s.shadowK j := (rfl)
@[simp] theorem modPort_activeK (p : Fin 4) (f : Port → Port) (j : Nat) : (s.modPort p f).activeK j = s.activeK j := (rfl)
@[simp] theorem modPort_freshK (p : Fin 4) (f : Port → Port) (j : Nat) : (s.modPort p f).freshK j = s.freshK j := (rfl)
@[simp] theorem modPort_total (p : Fin 4) (f : Port → Port) (j : Nat) : (s.modPort p f).total j = s.total j := (rfl)
@[simp] theorem modPort_get (p : Fin 4) (f : Port → Port) (g : Fld) (jx : List Nat) : (s.modPort p f).get g jx = s.get g jx := (rfl)
@[simp] theorem modPort_act (p : Fin 4) (f : Port → Port) (g : Fld) (jx : List Nat) : (s.modPort p f).act g jx = s.act g jx := (rfl)
@[simp] theorem modPort_tot (p : Fin 4) (f : Port → Port) (g : Fld) (jx : List Nat) : (s.modPort p f).tot g jx = s.tot g jx := (rfl)

/-! ### modCal -/

@[simp] theorem modCal_regs (f : Calib → Calib) : (s.modCal f).regs = s.regs := (rfl)
@[simp] theorem modCal_tb (f : Calib → Calib) : (s.modCal f).tb = s.tb := (rfl)
@[simp] theorem modCal_slices (f : Calib → Calib) : (s.modCal f).slices = s.slices := (rfl)
@[simp] theorem modCal_cores (f : Calib → Calib) : (s.modCal f).cores = s.cores := (rfl)
@[simp] theorem modCal_cs (f : Calib → Calib) : (s.modCal f).cs = s.cs := (rfl)
@[simp] theorem modCal_sess (f : Calib → Calib) : (s.modCal f).sess = s.sess := (rfl)
@[simp] theorem modCal_host (f : Calib → Calib) : (s.modCal f).host = s.host := (rfl)
@[simp] theorem modCal_aos (f : Calib → Calib) : (s.modCal f).aos = s.aos := (rfl)
@[simp] theorem modCal_fws (f : Calib → Calib) : (s.modCal f).fws = s.fws := (rfl)
@[simp] theorem modCal_trigs (f : Calib → Calib) : (s.modCal f).trigs = s.trigs := (rfl)
@[simp] theorem modCal_masks (f : Calib → Calib) : (s.modCal f).masks = s.masks := (rfl)
@[simp] theorem modCal_inputs (f : Calib → Calib) : (s.modCal f).inputs = s.inputs := (rfl)
@[simp] theorem modCal_meas (f : Calib → Calib) : (s.modCal f).meas = s.meas := (rfl)
@[simp] theorem modCal_gleaners (f : Calib → Calib) : (s.modCal f).gleaners = s.gleaners := (rfl)
@[simp] theorem modCal_drained (f : Calib → Calib) : (s.modCal f).drained = s.drained := (rfl)
@[simp] theorem modCal_flt (f : Calib → Calib) : (s.modCal f).flt = s.flt := (rfl)
@[simp] theorem modCal_commit (f : Calib → Calib) : (s.modCal f).commit = s.commit := (rfl)
@[simp] theorem modCal_stile (f : Calib → Calib) : (s.modCal f).stile = s.stile := (rfl)
@[simp] theorem modCal_hr (f : Calib → Calib) : (s.modCal f).hr = s.hr := (rfl)
@[simp] theorem modCal_net (f : Calib → Calib) : (s.modCal f).net = s.net := (rfl)
@[simp] theorem modCal_boot (f : Calib → Calib) : (s.modCal f).boot = s.boot := (rfl)
@[simp] theorem modCal_due (f : Calib → Calib) : (s.modCal f).due = s.due := (rfl)
@[simp] theorem modCal_ddr (f : Calib → Calib) : (s.modCal f).ddr = s.ddr := (rfl)
@[simp] theorem modCal_hostMem (f : Calib → Calib) : (s.modCal f).hostMem = s.hostMem := (rfl)
@[simp] theorem modCal_nvmF (f : Calib → Calib) : (s.modCal f).nvmF = s.nvmF := (rfl)
@[simp] theorem modCal_nvmH (f : Calib → Calib) : (s.modCal f).nvmH = s.nvmH := (rfl)
@[simp] theorem modCal_irqs (f : Calib → Calib) : (s.modCal f).irqs = s.irqs := (rfl)
@[simp] theorem modCal_lastRead (f : Calib → Calib) : (s.modCal f).lastRead = s.lastRead := (rfl)
@[simp] theorem modCal_freeCtr (f : Calib → Calib) : (s.modCal f).freeCtr = s.freeCtr := (rfl)
@[simp] theorem modCal_pending (f : Calib → Calib) : (s.modCal f).pending = s.pending := (rfl)
@[simp] theorem modCal_getK (f : Calib → Calib) (j : Nat) : (s.modCal f).getK j = s.getK j := (rfl)
@[simp] theorem modCal_shadowK (f : Calib → Calib) (j : Nat) : (s.modCal f).shadowK j = s.shadowK j := (rfl)
@[simp] theorem modCal_activeK (f : Calib → Calib) (j : Nat) : (s.modCal f).activeK j = s.activeK j := (rfl)
@[simp] theorem modCal_freshK (f : Calib → Calib) (j : Nat) : (s.modCal f).freshK j = s.freshK j := (rfl)
@[simp] theorem modCal_total (f : Calib → Calib) (j : Nat) : (s.modCal f).total j = s.total j := (rfl)
@[simp] theorem modCal_get (f : Calib → Calib) (g : Fld) (jx : List Nat) : (s.modCal f).get g jx = s.get g jx := (rfl)
@[simp] theorem modCal_act (f : Calib → Calib) (g : Fld) (jx : List Nat) : (s.modCal f).act g jx = s.act g jx := (rfl)
@[simp] theorem modCal_tot (f : Calib → Calib) (g : Fld) (jx : List Nat) : (s.modCal f).tot g jx = s.tot g jx := (rfl)

/-! ### modBoot -/

@[simp] theorem modBoot_regs (f : Boot → Boot) : (s.modBoot f).regs = s.regs := (rfl)
@[simp] theorem modBoot_tb (f : Boot → Boot) : (s.modBoot f).tb = s.tb := (rfl)
@[simp] theorem modBoot_slices (f : Boot → Boot) : (s.modBoot f).slices = s.slices := (rfl)
@[simp] theorem modBoot_cores (f : Boot → Boot) : (s.modBoot f).cores = s.cores := (rfl)
@[simp] theorem modBoot_cs (f : Boot → Boot) : (s.modBoot f).cs = s.cs := (rfl)
@[simp] theorem modBoot_sess (f : Boot → Boot) : (s.modBoot f).sess = s.sess := (rfl)
@[simp] theorem modBoot_host (f : Boot → Boot) : (s.modBoot f).host = s.host := (rfl)
@[simp] theorem modBoot_aos (f : Boot → Boot) : (s.modBoot f).aos = s.aos := (rfl)
@[simp] theorem modBoot_fws (f : Boot → Boot) : (s.modBoot f).fws = s.fws := (rfl)
@[simp] theorem modBoot_trigs (f : Boot → Boot) : (s.modBoot f).trigs = s.trigs := (rfl)
@[simp] theorem modBoot_masks (f : Boot → Boot) : (s.modBoot f).masks = s.masks := (rfl)
@[simp] theorem modBoot_inputs (f : Boot → Boot) : (s.modBoot f).inputs = s.inputs := (rfl)
@[simp] theorem modBoot_meas (f : Boot → Boot) : (s.modBoot f).meas = s.meas := (rfl)
@[simp] theorem modBoot_gleaners (f : Boot → Boot) : (s.modBoot f).gleaners = s.gleaners := (rfl)
@[simp] theorem modBoot_drained (f : Boot → Boot) : (s.modBoot f).drained = s.drained := (rfl)
@[simp] theorem modBoot_cal (f : Boot → Boot) : (s.modBoot f).cal = s.cal := (rfl)
@[simp] theorem modBoot_flt (f : Boot → Boot) : (s.modBoot f).flt = s.flt := (rfl)
@[simp] theorem modBoot_commit (f : Boot → Boot) : (s.modBoot f).commit = s.commit := (rfl)
@[simp] theorem modBoot_stile (f : Boot → Boot) : (s.modBoot f).stile = s.stile := (rfl)
@[simp] theorem modBoot_hr (f : Boot → Boot) : (s.modBoot f).hr = s.hr := (rfl)
@[simp] theorem modBoot_net (f : Boot → Boot) : (s.modBoot f).net = s.net := (rfl)
@[simp] theorem modBoot_due (f : Boot → Boot) : (s.modBoot f).due = s.due := (rfl)
@[simp] theorem modBoot_ddr (f : Boot → Boot) : (s.modBoot f).ddr = s.ddr := (rfl)
@[simp] theorem modBoot_hostMem (f : Boot → Boot) : (s.modBoot f).hostMem = s.hostMem := (rfl)
@[simp] theorem modBoot_nvmF (f : Boot → Boot) : (s.modBoot f).nvmF = s.nvmF := (rfl)
@[simp] theorem modBoot_nvmH (f : Boot → Boot) : (s.modBoot f).nvmH = s.nvmH := (rfl)
@[simp] theorem modBoot_irqs (f : Boot → Boot) : (s.modBoot f).irqs = s.irqs := (rfl)
@[simp] theorem modBoot_lastRead (f : Boot → Boot) : (s.modBoot f).lastRead = s.lastRead := (rfl)
@[simp] theorem modBoot_freeCtr (f : Boot → Boot) : (s.modBoot f).freeCtr = s.freeCtr := (rfl)
@[simp] theorem modBoot_pending (f : Boot → Boot) : (s.modBoot f).pending = s.pending := (rfl)
@[simp] theorem modBoot_getK (f : Boot → Boot) (j : Nat) : (s.modBoot f).getK j = s.getK j := (rfl)
@[simp] theorem modBoot_shadowK (f : Boot → Boot) (j : Nat) : (s.modBoot f).shadowK j = s.shadowK j := (rfl)
@[simp] theorem modBoot_activeK (f : Boot → Boot) (j : Nat) : (s.modBoot f).activeK j = s.activeK j := (rfl)
@[simp] theorem modBoot_freshK (f : Boot → Boot) (j : Nat) : (s.modBoot f).freshK j = s.freshK j := (rfl)
@[simp] theorem modBoot_total (f : Boot → Boot) (j : Nat) : (s.modBoot f).total j = s.total j := (rfl)
@[simp] theorem modBoot_get (f : Boot → Boot) (g : Fld) (jx : List Nat) : (s.modBoot f).get g jx = s.get g jx := (rfl)
@[simp] theorem modBoot_act (f : Boot → Boot) (g : Fld) (jx : List Nat) : (s.modBoot f).act g jx = s.act g jx := (rfl)
@[simp] theorem modBoot_tot (f : Boot → Boot) (g : Fld) (jx : List Nat) : (s.modBoot f).tot g jx = s.tot g jx := (rfl)

/-! ### defer -/

@[simp] theorem defer_regs (n : Nat) (a : DueAct) : (s.defer n a).regs = s.regs := (rfl)
@[simp] theorem defer_tb (n : Nat) (a : DueAct) : (s.defer n a).tb = s.tb := (rfl)
@[simp] theorem defer_slices (n : Nat) (a : DueAct) : (s.defer n a).slices = s.slices := (rfl)
@[simp] theorem defer_cores (n : Nat) (a : DueAct) : (s.defer n a).cores = s.cores := (rfl)
@[simp] theorem defer_cs (n : Nat) (a : DueAct) : (s.defer n a).cs = s.cs := (rfl)
@[simp] theorem defer_sess (n : Nat) (a : DueAct) : (s.defer n a).sess = s.sess := (rfl)
@[simp] theorem defer_host (n : Nat) (a : DueAct) : (s.defer n a).host = s.host := (rfl)
@[simp] theorem defer_aos (n : Nat) (a : DueAct) : (s.defer n a).aos = s.aos := (rfl)
@[simp] theorem defer_fws (n : Nat) (a : DueAct) : (s.defer n a).fws = s.fws := (rfl)
@[simp] theorem defer_trigs (n : Nat) (a : DueAct) : (s.defer n a).trigs = s.trigs := (rfl)
@[simp] theorem defer_masks (n : Nat) (a : DueAct) : (s.defer n a).masks = s.masks := (rfl)
@[simp] theorem defer_inputs (n : Nat) (a : DueAct) : (s.defer n a).inputs = s.inputs := (rfl)
@[simp] theorem defer_meas (n : Nat) (a : DueAct) : (s.defer n a).meas = s.meas := (rfl)
@[simp] theorem defer_gleaners (n : Nat) (a : DueAct) : (s.defer n a).gleaners = s.gleaners := (rfl)
@[simp] theorem defer_drained (n : Nat) (a : DueAct) : (s.defer n a).drained = s.drained := (rfl)
@[simp] theorem defer_cal (n : Nat) (a : DueAct) : (s.defer n a).cal = s.cal := (rfl)
@[simp] theorem defer_flt (n : Nat) (a : DueAct) : (s.defer n a).flt = s.flt := (rfl)
@[simp] theorem defer_commit (n : Nat) (a : DueAct) : (s.defer n a).commit = s.commit := (rfl)
@[simp] theorem defer_stile (n : Nat) (a : DueAct) : (s.defer n a).stile = s.stile := (rfl)
@[simp] theorem defer_hr (n : Nat) (a : DueAct) : (s.defer n a).hr = s.hr := (rfl)
@[simp] theorem defer_net (n : Nat) (a : DueAct) : (s.defer n a).net = s.net := (rfl)
@[simp] theorem defer_boot (n : Nat) (a : DueAct) : (s.defer n a).boot = s.boot := (rfl)
@[simp] theorem defer_ddr (n : Nat) (a : DueAct) : (s.defer n a).ddr = s.ddr := (rfl)
@[simp] theorem defer_hostMem (n : Nat) (a : DueAct) : (s.defer n a).hostMem = s.hostMem := (rfl)
@[simp] theorem defer_nvmF (n : Nat) (a : DueAct) : (s.defer n a).nvmF = s.nvmF := (rfl)
@[simp] theorem defer_nvmH (n : Nat) (a : DueAct) : (s.defer n a).nvmH = s.nvmH := (rfl)
@[simp] theorem defer_irqs (n : Nat) (a : DueAct) : (s.defer n a).irqs = s.irqs := (rfl)
@[simp] theorem defer_lastRead (n : Nat) (a : DueAct) : (s.defer n a).lastRead = s.lastRead := (rfl)
@[simp] theorem defer_freeCtr (n : Nat) (a : DueAct) : (s.defer n a).freeCtr = s.freeCtr := (rfl)
@[simp] theorem defer_pending (n : Nat) (a : DueAct) : (s.defer n a).pending = s.pending := (rfl)
@[simp] theorem defer_getK (n : Nat) (a : DueAct) (j : Nat) : (s.defer n a).getK j = s.getK j := (rfl)
@[simp] theorem defer_shadowK (n : Nat) (a : DueAct) (j : Nat) : (s.defer n a).shadowK j = s.shadowK j := (rfl)
@[simp] theorem defer_activeK (n : Nat) (a : DueAct) (j : Nat) : (s.defer n a).activeK j = s.activeK j := (rfl)
@[simp] theorem defer_freshK (n : Nat) (a : DueAct) (j : Nat) : (s.defer n a).freshK j = s.freshK j := (rfl)
@[simp] theorem defer_total (n : Nat) (a : DueAct) (j : Nat) : (s.defer n a).total j = s.total j := (rfl)
@[simp] theorem defer_get (n : Nat) (a : DueAct) (g : Fld) (jx : List Nat) : (s.defer n a).get g jx = s.get g jx := (rfl)
@[simp] theorem defer_act (n : Nat) (a : DueAct) (g : Fld) (jx : List Nat) : (s.defer n a).act g jx = s.act g jx := (rfl)
@[simp] theorem defer_tot (n : Nat) (a : DueAct) (g : Fld) (jx : List Nat) : (s.defer n a).tot g jx = s.tot g jx := (rfl)

/-! ### reply -/

@[simp] theorem reply_regs (v : Word) : (s.reply v).regs = s.regs := (rfl)
@[simp] theorem reply_tb (v : Word) : (s.reply v).tb = s.tb := (rfl)
@[simp] theorem reply_slices (v : Word) : (s.reply v).slices = s.slices := (rfl)
@[simp] theorem reply_cores (v : Word) : (s.reply v).cores = s.cores := (rfl)
@[simp] theorem reply_cs (v : Word) : (s.reply v).cs = s.cs := (rfl)
@[simp] theorem reply_sess (v : Word) : (s.reply v).sess = s.sess := (rfl)
@[simp] theorem reply_host (v : Word) : (s.reply v).host = s.host := (rfl)
@[simp] theorem reply_aos (v : Word) : (s.reply v).aos = s.aos := (rfl)
@[simp] theorem reply_fws (v : Word) : (s.reply v).fws = s.fws := (rfl)
@[simp] theorem reply_trigs (v : Word) : (s.reply v).trigs = s.trigs := (rfl)
@[simp] theorem reply_masks (v : Word) : (s.reply v).masks = s.masks := (rfl)
@[simp] theorem reply_inputs (v : Word) : (s.reply v).inputs = s.inputs := (rfl)
@[simp] theorem reply_meas (v : Word) : (s.reply v).meas = s.meas := (rfl)
@[simp] theorem reply_gleaners (v : Word) : (s.reply v).gleaners = s.gleaners := (rfl)
@[simp] theorem reply_drained (v : Word) : (s.reply v).drained = s.drained := (rfl)
@[simp] theorem reply_cal (v : Word) : (s.reply v).cal = s.cal := (rfl)
@[simp] theorem reply_flt (v : Word) : (s.reply v).flt = s.flt := (rfl)
@[simp] theorem reply_commit (v : Word) : (s.reply v).commit = s.commit := (rfl)
@[simp] theorem reply_stile (v : Word) : (s.reply v).stile = s.stile := (rfl)
@[simp] theorem reply_hr (v : Word) : (s.reply v).hr = s.hr := (rfl)
@[simp] theorem reply_net (v : Word) : (s.reply v).net = s.net := (rfl)
@[simp] theorem reply_boot (v : Word) : (s.reply v).boot = s.boot := (rfl)
@[simp] theorem reply_due (v : Word) : (s.reply v).due = s.due := (rfl)
@[simp] theorem reply_ddr (v : Word) : (s.reply v).ddr = s.ddr := (rfl)
@[simp] theorem reply_hostMem (v : Word) : (s.reply v).hostMem = s.hostMem := (rfl)
@[simp] theorem reply_nvmF (v : Word) : (s.reply v).nvmF = s.nvmF := (rfl)
@[simp] theorem reply_nvmH (v : Word) : (s.reply v).nvmH = s.nvmH := (rfl)
@[simp] theorem reply_irqs (v : Word) : (s.reply v).irqs = s.irqs := (rfl)
@[simp] theorem reply_freeCtr (v : Word) : (s.reply v).freeCtr = s.freeCtr := (rfl)
@[simp] theorem reply_pending (v : Word) : (s.reply v).pending = s.pending := (rfl)
@[simp] theorem reply_getK (v : Word) (j : Nat) : (s.reply v).getK j = s.getK j := (rfl)
@[simp] theorem reply_shadowK (v : Word) (j : Nat) : (s.reply v).shadowK j = s.shadowK j := (rfl)
@[simp] theorem reply_activeK (v : Word) (j : Nat) : (s.reply v).activeK j = s.activeK j := (rfl)
@[simp] theorem reply_freshK (v : Word) (j : Nat) : (s.reply v).freshK j = s.freshK j := (rfl)
@[simp] theorem reply_total (v : Word) (j : Nat) : (s.reply v).total j = s.total j := (rfl)
@[simp] theorem reply_get (v : Word) (g : Fld) (jx : List Nat) : (s.reply v).get g jx = s.get g jx := (rfl)
@[simp] theorem reply_act (v : Word) (g : Fld) (jx : List Nat) : (s.reply v).act g jx = s.act g jx := (rfl)
@[simp] theorem reply_tot (v : Word) (g : Fld) (jx : List Nat) : (s.reply v).tot g jx = s.tot g jx := (rfl)

/-! ### The field that an update changes -/

@[simp] theorem modFlt_flt (f : Faults → Faults) : (s.modFlt f).flt = f s.flt := (rfl)
@[simp] theorem modCommit_commit (f : CommitEng → CommitEng) : (s.modCommit f).commit = f s.commit := (rfl)
@[simp] theorem modTb_tb (f : TimeBase → TimeBase) : (s.modTb f).tb = f s.tb := (rfl)
@[simp] theorem modHr_hr (f : Hedge → Hedge) : (s.modHr f).hr = f s.hr := (rfl)
@[simp] theorem modStile_stile (f : Stile → Stile) : (s.modStile f).stile = f s.stile := (rfl)
@[simp] theorem modNet_net (f : Net → Net) : (s.modNet f).net = f s.net := (rfl)
@[simp] theorem modCal_cal (f : Calib → Calib) : (s.modCal f).cal = f s.cal := (rfl)
@[simp] theorem modBoot_boot (f : Boot → Boot) : (s.modBoot f).boot = f s.boot := (rfl)
@[simp] theorem defer_due (n : Nat) (a : DueAct) : (s.defer n a).due = s.due ++ [⟨n, a⟩] := (rfl)
@[simp] theorem reply_lastRead (v : Word) : (s.reply v).lastRead = v := (rfl)
@[simp] theorem modSlice_self (n : Fin 12) (f : Slice → Slice) : (s.modSlice n f).slices[n] = f s.slices[n] := by simp [State.modSlice]
theorem modSlice_ne (n m : Fin 12) (f : Slice → Slice) (h : n ≠ m) : (s.modSlice n f).slices[m] = s.slices[m] := by
  have : n.val ≠ m.val := fun e => h (Fin.ext e)
  simp [State.modSlice, this]
@[simp] theorem modCore_self (n : Fin 4) (f : Core → Core) : (s.modCore n f).cores[n] = f s.cores[n] := by simp [State.modCore]
theorem modCore_ne (n m : Fin 4) (f : Core → Core) (h : n ≠ m) : (s.modCore n f).cores[m] = s.cores[m] := by
  have : n.val ≠ m.val := fun e => h (Fin.ext e)
  simp [State.modCore, this]
@[simp] theorem modSess_self (n : Fin 16) (f : Sess → Sess) : (s.modSess n f).sess[n] = f s.sess[n] := by simp [State.modSess]
theorem modSess_ne (n m : Fin 16) (f : Sess → Sess) (h : n ≠ m) : (s.modSess n f).sess[m] = s.sess[m] := by
  have : n.val ≠ m.val := fun e => h (Fin.ext e)
  simp [State.modSess, this]
@[simp] theorem modHost_self (n : Fin 16) (f : HostSess → HostSess) : (s.modHost n f).host[n] = f s.host[n] := by simp [State.modHost]
theorem modHost_ne (n m : Fin 16) (f : HostSess → HostSess) (h : n ≠ m) : (s.modHost n f).host[m] = s.host[m] := by
  have : n.val ≠ m.val := fun e => h (Fin.ext e)
  simp [State.modHost, this]
@[simp] theorem modAo_self (n : Fin 16) (f : Ao → Ao) : (s.modAo n f).aos[n] = f s.aos[n] := by simp [State.modAo]
theorem modAo_ne (n m : Fin 16) (f : Ao → Ao) (h : n ≠ m) : (s.modAo n f).aos[m] = s.aos[m] := by
  have : n.val ≠ m.val := fun e => h (Fin.ext e)
  simp [State.modAo, this]
@[simp] theorem modFw_self (n : Fin 4) (f : Furrow → Furrow) : (s.modFw n f).fws[n] = f s.fws[n] := by simp [State.modFw]
theorem modFw_ne (n m : Fin 4) (f : Furrow → Furrow) (h : n ≠ m) : (s.modFw n f).fws[m] = s.fws[m] := by
  have : n.val ≠ m.val := fun e => h (Fin.ext e)
  simp [State.modFw, this]
@[simp] theorem modTrig_self (n : Fin 8) (f : Trig → Trig) : (s.modTrig n f).trigs[n] = f s.trigs[n] := by simp [State.modTrig]
theorem modTrig_ne (n m : Fin 8) (f : Trig → Trig) (h : n ≠ m) : (s.modTrig n f).trigs[m] = s.trigs[m] := by
  have : n.val ≠ m.val := fun e => h (Fin.ext e)
  simp [State.modTrig, this]
@[simp] theorem modGl_self (n : Fin 16) (f : Gleaner → Gleaner) : (s.modGl n f).gleaners[n] = f s.gleaners[n] := by simp [State.modGl]
theorem modGl_ne (n m : Fin 16) (f : Gleaner → Gleaner) (h : n ≠ m) : (s.modGl n f).gleaners[m] = s.gleaners[m] := by
  have : n.val ≠ m.val := fun e => h (Fin.ext e)
  simp [State.modGl, this]
@[simp] theorem modInput_self (n : Fin 112) (f : Input → Input) : (s.modInput n f).inputs[n] = f s.inputs[n] := by simp [State.modInput]
theorem modInput_ne (n m : Fin 112) (f : Input → Input) (h : n ≠ m) : (s.modInput n f).inputs[m] = s.inputs[m] := by
  have : n.val ≠ m.val := fun e => h (Fin.ext e)
  simp [State.modInput, this]
@[simp] theorem modMeas_self (n : Fin 16) (f : Meas → Meas) : (s.modMeas n f).meas[n] = f s.meas[n] := by simp [State.modMeas]
theorem modMeas_ne (n m : Fin 16) (f : Meas → Meas) (h : n ≠ m) : (s.modMeas n f).meas[m] = s.meas[m] := by
  have : n.val ≠ m.val := fun e => h (Fin.ext e)
  simp [State.modMeas, this]
@[simp] theorem modMask_self (n : Fin 16) (f : Mask → Mask) : (s.modMask n f).masks[n] = f s.masks[n] := by simp [State.modMask]
theorem modMask_ne (n m : Fin 16) (f : Mask → Mask) (h : n ≠ m) : (s.modMask n f).masks[m] = s.masks[m] := by
  have : n.val ≠ m.val := fun e => h (Fin.ext e)
  simp [State.modMask, this]

end Sys2Proof.Machine.State
end

