-- ==== Sys2Proof/Laws/Frames.lean ====
section
/-! SUPPORT. What `regsSame` and `memSame` say of each update: a frame is walked one update at a time. -/

namespace Sys2Proof.Machine

theorem regsSame_refl (ks : List Nat) (s : State) : regsSame ks s s := fun _ _ => ⟨rfl, rfl, rfl, rfl⟩

theorem regsSame_trans {ks : List Nat} {s t u : State} (h : regsSame ks s t) (g : regsSame ks t u) : regsSame ks s u := fun k hk =>
  ⟨(g k hk).1.trans (h k hk).1, (g k hk).2.1.trans (h k hk).2.1, (g k hk).2.2.1.trans (h k hk).2.2.1, (g k hk).2.2.2.trans (h k hk).2.2.2⟩

/-- An update that leaves every register. -/
theorem regsSame_other {ks : List Nat} {s t u : State} (h : regsSame ks s t) (e : u.regs = t.regs) : regsSame ks s u := by
  refine regsSame_trans h (fun k _ => ?_)
  simp only [State.getK, State.shadowK, State.activeK, State.freshK, e, and_self]

theorem regsSame_putK {ks : List Nat} {s t : State} (k : Nat) (v : Word) (hk : k ∈ ks) (h : regsSame ks s t) : regsSame ks s (t.putK k v) := by
  refine regsSame_trans h (fun j hj => ⟨State.getK_putK_ne _ _ _ _ (fun e => hj (e ▸ hk)), (rfl), (rfl), (rfl)⟩)

theorem regsSame_putShadow {ks : List Nat} {s t : State} (k : Nat) (v : Word) (hk : k ∈ ks) (h : regsSame ks s t) :
    regsSame ks s (t.putShadow k v) := by
  refine regsSame_trans h (fun j hj => ⟨(rfl), State.shadowK_putShadow_ne _ _ _ _ (fun e => hj (e ▸ hk)), (rfl), (rfl)⟩)

theorem regsSame_putActive {ks : List Nat} {s t : State} (k : Nat) (v : Word) (hk : k ∈ ks) (h : regsSame ks s t) :
    regsSame ks s (t.putActive k v) := by
  refine regsSame_trans h (fun j hj => ⟨(rfl), (rfl), State.activeK_putActive_ne _ _ _ _ (fun e => hj (e ▸ hk)), (rfl)⟩)

theorem regsSame_putFresh {ks : List Nat} {s t : State} (k : Nat) (v : Word) (hk : k ∈ ks) (h : regsSame ks s t) :
    regsSame ks s (t.putFresh k v) := by
  refine regsSame_trans h (fun j hj => ⟨(rfl), (rfl), (rfl), State.freshK_putFresh_ne _ _ _ _ (fun e => hj (e ▸ hk))⟩)

theorem regsSame_set {ks : List Nat} {s t : State} (f : Fld) (ix : List Nat) (v : Nat) (hk : f.reg.key ix ∈ ks) (h : regsSame ks s t) :
    regsSame ks s (t.set f ix v) := regsSame_putK _ _ hk h

theorem regsSame_incSat {ks : List Nat} {s t : State} (f : Fld) (ix : List Nat) (n : Nat) (hk : f.reg.key ix ∈ ks) (h : regsSame ks s t) :
    regsSame ks s (t.incSat f ix n) := regsSame_putK _ _ hk h

theorem regsSame_incWrap {ks : List Nat} {s t : State} (f : Fld) (ix : List Nat) (hk : f.reg.key ix ∈ ks) (h : regsSame ks s t) :
    regsSame ks s (t.incWrap f ix) := regsSame_putK _ _ hk h

theorem regsSame_raise {ks : List Nat} {s t : State} (f : Fld) (ix : List Nat) (hk : f.reg.key ix ∈ ks) (h : regsSame ks s t) :
    regsSame ks s (t.raise f ix) := regsSame_putFresh _ _ hk h

theorem regsSame_count {ks : List Nat} {s t : State} (f : Fld) (ix : List Nat) (n : Nat) (hk : f.reg.key ix ∈ ks) (h : regsSame ks s t) :
    regsSame ks s (t.count f ix n) := regsSame_putFresh _ _ hk h

theorem memSame_refl (s : State) : memSame s s := fun _ => ⟨rfl, rfl, rfl, rfl⟩

/-- An update that leaves every memory. -/
theorem memSame_other {s t u : State} (h : memSame s t) (e1 : u.ddr = t.ddr) (e2 : u.hostMem = t.hostMem) (e3 : u.nvmF = t.nvmF)
    (e4 : u.nvmH = t.nvmH) : memSame s u := by
  intro a
  rw [e1, e2, e3, e4]
  exact h a

end Sys2Proof.Machine
end

