-- ==== Sys2Proof/Laws/Keeps.lean ====
section
/-! SUPPORT. What every operation of the machine keeps: the queue of waiting commands, the canonical form of the state's maps, and the free values
already taken. `Keeps a s` says that `s` stands so to an earlier state `a`. -/

namespace Sys2Proof.Machine

/-- What every operation keeps of an earlier state. -/
structure Keeps (a s : State) : Prop where
  pending : s.pending = a.pending
  canonical : a.canonical → s.canonical
  freeCtr : a.freeCtr ≤ s.freeCtr

/-- The same of an outcome: of its next state, if it has one. -/
def KeepsOut (a : State) (o : Host.Outcome State Fault Refusal) : Prop := ∀ t, o = .next t → Keeps a t

theorem Keeps.refl (a : State) : Keeps a a := ⟨rfl, id, le_refl _⟩

theorem Keeps.trans {a b c : State} (h : Keeps a b) (g : Keeps b c) : Keeps a c :=
  ⟨g.pending.trans h.pending, fun w => g.canonical (h.canonical w), le_trans h.freeCtr g.freeCtr⟩

/-- Takes a value of a proof's course as a state of its own. -/
theorem Keeps.cut {a t : State} (x : State) (h : Keeps a x) (g : Keeps a x → Keeps a t) : Keeps a t := g h

theorem KeepsOut.cut {a : State} {o : Host.Outcome State Fault Refusal} (x : State) (h : Keeps a x) (g : Keeps a x → KeepsOut a o) :
    KeepsOut a o := g h

theorem KeepsOut.next {a t : State} (h : Keeps a t) : KeepsOut a (.next t) := by
  intro u e
  cases e
  exact h

theorem KeepsOut.fault {a : State} (r : Fault) : KeepsOut a (.fault r) := by
  intro u e
  cases e

/-- The same of an answer that may be absent. -/
def KeepsOpt (a : State) (o : Option State) : Prop := ∀ t, o = some t → Keeps a t

theorem KeepsOpt.cut {a : State} {o : Option State} (x : State) (h : Keeps a x) (g : Keeps a x → KeepsOpt a o) : KeepsOpt a o := g h

theorem KeepsOpt.some {a t : State} (h : Keeps a t) : KeepsOpt a (some t) := by
  intro u e
  cases e
  exact h

theorem KeepsOpt.none {a : State} : KeepsOpt a none := by
  intro u e
  cases e

theorem Keeps.ite {a x y : State} {c : Prop} [Decidable c] (h : Keeps a x) (g : Keeps a y) : Keeps a (if c then x else y) := by
  split
  · exact h
  · exact g

theorem Keeps.ite_fst {β : Type} {a : State} {x y : State × β} {c : Prop} [Decidable c] (h : Keeps a x.1) (g : Keeps a y.1) :
    Keeps a (if c then x else y).1 := by
  split
  · exact h
  · exact g

theorem Keeps.ite_snd {β : Type} {a : State} {x y : β × State} {c : Prop} [Decidable c] (h : Keeps a x.2) (g : Keeps a y.2) :
    Keeps a (if c then x else y).2 := by
  split
  · exact h
  · exact g

theorem KeepsOut.ite {a : State} {x y : Host.Outcome State Fault Refusal} {c : Prop} [Decidable c] (h : KeepsOut a x) (g : KeepsOut a y) :
    KeepsOut a (if c then x else y) := by
  split
  · exact h
  · exact g

theorem KeepsOpt.ite {a : State} {x y : Option State} {c : Prop} [Decidable c] (h : KeepsOpt a x) (g : KeepsOpt a y) :
    KeepsOpt a (if c then x else y) := by
  split
  · exact h
  · exact g

/-- An operation that touches neither the registers nor the memories nor the queue. -/
theorem Keeps.other {a s t : State} (h : Keeps a s) (hp : t.pending = s.pending) (hr : t.regs = s.regs) (hd : t.ddr = s.ddr)
    (hm : t.hostMem = s.hostMem) (hf : t.nvmF = s.nvmF) (hh : t.nvmH = s.nvmH) (hc : t.freeCtr = s.freeCtr) : Keeps a t := by
  refine ⟨hp.trans h.pending, fun w => ?_, hc ▸ h.freeCtr⟩
  have g := h.canonical w
  unfold State.canonical State.memsWf State.regsWf at *
  rw [hr, hd, hm, hf, hh]
  exact g

/-- A record update of what no other lemma names. -/
theorem keeps_mk {a s : State} (tb : TimeBase) (slices : Vector Slice 12) (cores : Vector Core 4) (cs : CtlStore) (sess : Vector Sess 16)
    (host : Vector HostSess 16) (aos : Vector Ao 16) (fws : Vector Furrow 4) (trigs : Vector Trig 8) (masks : Vector Mask 16)
    (inputs : Vector Input 112) (meas : Vector Meas 16) (gleaners : Vector Gleaner 16) (drained : Nat) (cal : Calib) (flt : Faults)
    (commit : CommitEng) (stile : Stile) (hr : Hedge) (net : Net) (boot : Boot) (due : List Due) (irqs : List Irq) (lastRead : Word) (h : Keeps a s) :
    Keeps a ⟨s.regs, tb, slices, cores, cs, sess, host, aos, fws, trigs, masks, inputs, meas, gleaners, drained, cal, flt, commit, stile, hr, net, boot,
      due, s.ddr, s.hostMem, s.nvmF, s.nvmH, irqs, lastRead, s.freeCtr, s.pending⟩ := h.other rfl rfl rfl rfl rfl rfl rfl

/-- An operation on the registers that keeps their form. -/
theorem Keeps.regs {a s t : State} (h : Keeps a s) (hp : t.pending = s.pending) (hd : t.ddr = s.ddr) (hm : t.hostMem = s.hostMem)
    (hf : t.nvmF = s.nvmF) (hh : t.nvmH = s.nvmH) (hc : t.freeCtr = s.freeCtr) (hr : s.regsWf → t.regsWf) : Keeps a t := by
  refine ⟨hp.trans h.pending, fun w => ?_, hc ▸ h.freeCtr⟩
  have g := h.canonical w
  refine ⟨?_, hr g.2⟩
  have g := g.1
  unfold State.memsWf at *
  rw [hd, hm, hf, hh]
  exact g

/-- An operation on the memories that keeps their form. -/
theorem Keeps.mems {a s t : State} (h : Keeps a s) (hp : t.pending = s.pending) (hr : t.regs = s.regs) (hc : t.freeCtr = s.freeCtr)
    (hm : s.memsWf → t.memsWf) : Keeps a t := by
  refine ⟨hp.trans h.pending, fun w => ?_, hc ▸ h.freeCtr⟩
  have g := h.canonical w
  refine ⟨hm g.1, ?_⟩
  have g := g.2
  unfold State.regsWf at *
  rw [hr]
  exact g

theorem keeps_ddr {a s : State} (a' : Nat) (bs : List Byte) (h : Keeps a s) : Keeps a { s with ddr := memPuts s.ddr a' bs } :=
  h.mems rfl rfl rfl (fun w => ⟨memWf_puts _ _ _ w.1, w.2⟩)

theorem keeps_ddrZero {a s : State} (a' n : Nat) (h : Keeps a s) : Keeps a { s with ddr := memZero s.ddr a' n } :=
  h.mems rfl rfl rfl (fun w => ⟨memWf_zero _ _ _ w.1, w.2⟩)

theorem keeps_hostMem {a s : State} (a' : Nat) (bs : List Byte) (h : Keeps a s) : Keeps a { s with hostMem := memPuts s.hostMem a' bs } :=
  h.mems rfl rfl rfl (fun w => ⟨w.1, memWf_puts _ _ _ w.2.1, w.2.2⟩)

theorem keeps_nvmF {a s : State} (a' : Nat) (bs : List Byte) (h : Keeps a s) : Keeps a { s with nvmF := memPuts s.nvmF a' bs } :=
  h.mems rfl rfl rfl (fun w => ⟨w.1, w.2.1, memWf_puts _ _ _ w.2.2.1, w.2.2.2⟩)

theorem keeps_nvmH {a s : State} (a' : Nat) (bs : List Byte) (h : Keeps a s) : Keeps a { s with nvmH := memPuts s.nvmH a' bs } :=
  h.mems rfl rfl rfl (fun w => ⟨w.1, w.2.1, w.2.2.1, memWf_puts _ _ _ w.2.2.2⟩)

theorem keeps_putK {a s : State} (k : Nat) (v : Word) (h : Keeps a s) : Keeps a (s.putK k v) :=
  h.regs rfl rfl rfl rfl rfl rfl (fun w => ⟨smWf_set resetVal _ _ _ w.1, w.2⟩)

theorem keeps_putShadow {a s : State} (k : Nat) (v : Word) (h : Keeps a s) : Keeps a (s.putShadow k v) :=
  h.regs rfl rfl rfl rfl rfl rfl (fun w => ⟨w.1, smWf_set resetVal _ _ _ w.2.1, w.2.2⟩)

theorem keeps_putActive {a s : State} (k : Nat) (v : Word) (h : Keeps a s) : Keeps a (s.putActive k v) :=
  h.regs rfl rfl rfl rfl rfl rfl (fun w => ⟨w.1, w.2.1, smWf_set resetVal _ _ _ w.2.2.1, w.2.2.2⟩)

theorem keeps_putFresh {a s : State} (k : Nat) (v : Word) (h : Keeps a s) : Keeps a (s.putFresh k v) :=
  h.regs rfl rfl rfl rfl rfl rfl (fun w => ⟨w.1, w.2.1, w.2.2.1, smWf_set (fun _ => 0) _ _ _ w.2.2.2⟩)

/-- A fold of operations. -/
theorem keeps_foldl {α : Type} {a : State} (f : State → α → State) (l : List α) : ∀ {s : State}, Keeps a s →
    (∀ s x, Keeps a s → Keeps a (f s x)) → Keeps a (l.foldl f s) := by
  induction l with
  | nil => intro s h _; exact h
  | cons x t ih => intro s h g; exact ih (g s x h) g

/-- A fold that carries something beside the state. -/
theorem keeps_foldl_fst {α β : Type} {a : State} (f : State × β → α → State × β) (l : List α) : ∀ {r : State × β}, Keeps a r.1 →
    (∀ r x, Keeps a r.1 → Keeps a (f r x).1) → Keeps a (l.foldl f r).1 := by
  induction l with
  | nil => intro r h _; exact h
  | cons x t ih => intro r h g; exact ih (g r x h) g

theorem keeps_foldl_snd {α β : Type} {a : State} (f : β × State → α → β × State) (l : List α) : ∀ {r : β × State}, Keeps a r.2 →
    (∀ r x, Keeps a r.2 → Keeps a (f r x).2) → Keeps a (l.foldl f r).2 := by
  induction l with
  | nil => intro r h _; exact h
  | cons x t ih => intro r h g; exact ih (g r x h) g

end Sys2Proof.Machine
end

