-- ==== Sys2Proof/Laws/KeepsBasics.lean ====
section
/-! SUPPORT. What the operations of the machine keep: the named operations, completions, pins, the ending of sequences, the NVM and segments. -/

namespace Sys2Proof.Machine

theorem keeps_set {a_ : State} (s : State) (f : Fld) (ix : List ℕ) (v : ℕ) (h_s : Keeps a_ s) : Keeps a_ (State.set s f ix v) := by
  unfold State.set
  repeat' (first | with_reducible assumption | with_reducible apply keeps_putK)

theorem keeps_raise {a_ : State} (s : State) (f : Fld) (ix : optParam (List ℕ) []) (h_s : Keeps a_ s) : Keeps a_ (State.raise s f ix) := by
  unfold State.raise
  repeat' (first | with_reducible assumption | with_reducible apply keeps_putFresh)

theorem keeps_count {a_ : State} (s : State) (f : Fld) (ix : optParam (List ℕ) []) (n : optParam ℕ 1) (h_s : Keeps a_ s) : Keeps a_ (State.count s f ix n) := by
  unfold State.count
  repeat' (first | with_reducible assumption | with_reducible apply keeps_putFresh)

theorem keeps_incSat {a_ : State} (s : State) (f : Fld) (ix : optParam (List ℕ) []) (n : optParam ℕ 1) (h_s : Keeps a_ s) : Keeps a_ (State.incSat s f ix n) := by
  unfold State.incSat
  repeat' (first | with_reducible assumption | with_reducible apply keeps_set)

theorem keeps_incWrap {a_ : State} (s : State) (f : Fld) (ix : optParam (List ℕ) []) (h_s : Keeps a_ s) : Keeps a_ (State.incWrap s f ix) := by
  unfold State.incWrap
  repeat' (first | with_reducible assumption | with_reducible apply keeps_set)

theorem keeps_freshCut {a_ s : State} (h : Keeps a_ s) : Keeps a_ { s with regs := { s.regs with fresh := [] } } :=
  h.regs rfl rfl rfl rfl rfl rfl (fun w => ⟨w.1, w.2.1, w.2.2.1, rfl⟩)

theorem keeps_mergeFresh {a_ : State} (s : State) (h : Keeps a_ s) : Keeps a_ (State.mergeFresh s) :=
  keeps_freshCut (keeps_foldl _ _ h (fun t p ht => keeps_putK _ _ ht))

theorem keeps_modSlice {a_ : State} (s : State) (n : Fin 12) (f : Slice → Slice) (h_s : Keeps a_ s) : Keeps a_ (State.modSlice s n f) := by
  unfold State.modSlice
  repeat' (first | with_reducible assumption | with_reducible apply keeps_mk)

theorem keeps_modLane {a_ : State} (s : State) (n : Fin 12) (l : Fin 8) (f : Lane → Lane) (h_s : Keeps a_ s) : Keeps a_ (State.modLane s n l f) := by
  unfold State.modLane
  repeat' (first | with_reducible assumption | with_reducible apply keeps_modSlice)

theorem keeps_mapLanes {a_ : State} (s : State) (n : Fin 12) (f : Fin 8 → Lane → Lane) (h_s : Keeps a_ s) : Keeps a_ (State.mapLanes s n f) := by
  unfold State.mapLanes
  repeat' (first | with_reducible assumption | with_reducible apply keeps_modSlice)

theorem keeps_modCore {a_ : State} (s : State) (c : Fin 4) (f : Core → Core) (h_s : Keeps a_ s) : Keeps a_ (State.modCore s c f) := by
  unfold State.modCore
  repeat' (first | with_reducible assumption | with_reducible apply keeps_mk)

theorem keeps_modSess {a_ : State} (s : State) (n : Fin 16) (f : Sess → Sess) (h_s : Keeps a_ s) : Keeps a_ (State.modSess s n f) := by
  unfold State.modSess
  repeat' (first | with_reducible assumption | with_reducible apply keeps_mk)

theorem keeps_modHost {a_ : State} (s : State) (n : Fin 16) (f : HostSess → HostSess) (h_s : Keeps a_ s) : Keeps a_ (State.modHost s n f) := by
  unfold State.modHost
  repeat' (first | with_reducible assumption | with_reducible apply keeps_mk)

theorem keeps_modRing {a_ : State} (s : State) (n : Fin 16) (r : Fin 4) (f : Ring → Ring) (h_s : Keeps a_ s) : Keeps a_ (State.modRing s n r f) := by
  unfold State.modRing
  repeat' (first | with_reducible assumption | with_reducible apply keeps_modHost)

theorem keeps_modAo {a_ : State} (s : State) (n : Fin 16) (f : Ao → Ao) (h_s : Keeps a_ s) : Keeps a_ (State.modAo s n f) := by
  unfold State.modAo
  repeat' (first | with_reducible assumption | with_reducible apply keeps_mk)

theorem keeps_modFw {a_ : State} (s : State) (g : Fin 4) (f : Furrow → Furrow) (h_s : Keeps a_ s) : Keeps a_ (State.modFw s g f) := by
  unfold State.modFw
  repeat' (first | with_reducible assumption | with_reducible apply keeps_mk)

theorem keeps_modFlt {a_ : State} (s : State) (f : Faults → Faults) (h_s : Keeps a_ s) : Keeps a_ (State.modFlt s f) := by
  unfold State.modFlt
  repeat' (first | with_reducible assumption | with_reducible apply keeps_mk)

theorem keeps_modCommit {a_ : State} (s : State) (f : CommitEng → CommitEng) (h_s : Keeps a_ s) : Keeps a_ (State.modCommit s f) := by
  unfold State.modCommit
  repeat' (first | with_reducible assumption | with_reducible apply keeps_mk)

theorem keeps_modTb {a_ : State} (s : State) (f : TimeBase → TimeBase) (h_s : Keeps a_ s) : Keeps a_ (State.modTb s f) := by
  unfold State.modTb
  repeat' (first | with_reducible assumption | with_reducible apply keeps_mk)

theorem keeps_modHr {a_ : State} (s : State) (f : Hedge → Hedge) (h_s : Keeps a_ s) : Keeps a_ (State.modHr s f) := by
  unfold State.modHr
  repeat' (first | with_reducible assumption | with_reducible apply keeps_mk)

theorem keeps_modStile {a_ : State} (s : State) (f : Stile → Stile) (h_s : Keeps a_ s) : Keeps a_ (State.modStile s f) := by
  unfold State.modStile
  repeat' (first | with_reducible assumption | with_reducible apply keeps_mk)

theorem keeps_overLanes {a_ : State} (f : Fin 8 → State → State) (s : State) (h_f : ∀ x0 x1, Keeps a_ x1 → Keeps a_ (f x0 x1)) (h_s : Keeps a_ s) : Keeps a_ (State.overLanes f s) := by
  unfold State.overLanes
  repeat' (first | with_reducible assumption | apply h_f)

theorem keeps_overSlices {a_ : State} (f : Fin 12 → State → State) (s : State) (h_f : ∀ x0 x1, Keeps a_ x1 → Keeps a_ (f x0 x1)) (h_s : Keeps a_ s) : Keeps a_ (State.overSlices f s) := by
  unfold State.overSlices
  repeat' (first | with_reducible assumption | apply h_f)

theorem keeps_overSess {a_ : State} (f : Fin 16 → State → State) (s : State) (h_f : ∀ x0 x1, Keeps a_ x1 → Keeps a_ (f x0 x1)) (h_s : Keeps a_ s) : Keeps a_ (State.overSess f s) := by
  unfold State.overSess
  repeat' (first | with_reducible assumption | apply h_f)

theorem keeps_overOutputs {a_ : State} (f : Fin 16 → State → State) (s : State) (h_f : ∀ x0 x1, Keeps a_ x1 → Keeps a_ (f x0 x1)) (h_s : Keeps a_ s) : Keeps a_ (State.overOutputs f s) := by
  unfold State.overOutputs
  repeat' (first | with_reducible assumption | apply h_f)

theorem keeps_overTriggers {a_ : State} (f : Fin 8 → State → State) (s : State) (h_f : ∀ x0 x1, Keeps a_ x1 → Keeps a_ (f x0 x1)) (h_s : Keeps a_ s) : Keeps a_ (State.overTriggers f s) := by
  unfold State.overTriggers
  repeat' (first | with_reducible assumption | apply h_f)

theorem keeps_overCores {a_ : State} (f : Fin 4 → State → State) (s : State) (h_f : ∀ x0 x1, Keeps a_ x1 → Keeps a_ (f x0 x1)) (h_s : Keeps a_ s) : Keeps a_ (State.overCores f s) := by
  unfold State.overCores
  repeat' (first | with_reducible assumption | apply h_f)

theorem keeps_defer {a_ : State} (s : State) (left : ℕ) (a : DueAct) (h_s : Keeps a_ s) : Keeps a_ (State.defer s left a) := by
  unfold State.defer
  repeat' (first | with_reducible assumption | with_reducible apply keeps_mk)

theorem keeps_reply {a_ : State} (s : State) (v : Word) (h_s : Keeps a_ s) : Keeps a_ (State.reply s v) := by
  unfold State.reply
  repeat' (first | with_reducible assumption | with_reducible apply keeps_mk)

theorem keeps_fresh {a_ : State} (s : State) (w : Nat) (h : Keeps a_ s) : Keeps a_ (s.fresh? w).2 :=
  ⟨h.pending, h.canonical, Nat.le_succ_of_le h.freeCtr⟩

theorem keeps_sendVec {a_ : State} (s : State) (n : Fin 16) (v : ℕ) (h_s : Keeps a_ s) : Keeps a_ (State.sendVec s n v) := by
  unfold State.sendVec
  repeat' (first | with_reducible assumption | with_reducible apply keeps_mk)

theorem keeps_raiseVec {a_ : State} (s : State) (n : Fin 16) (v : ℕ) (h_s : Keeps a_ s) : Keeps a_ (State.raiseVec s n v) := by
  unfold State.raiseVec
  repeat' (first | with_reducible assumption | (extract_lets +onlyGivenNames x_; clear_value x_) | with_reducible apply keeps_putK | with_reducible apply keeps_sendVec | with_reducible apply Keeps.ite)

theorem keeps_raiseRing {a_ : State} (s : State) (n : Fin 16) (r : Fin 4) (h_s : Keeps a_ s) : Keeps a_ (State.raiseRing s n r) := by
  unfold State.raiseRing
  repeat' (first | with_reducible assumption | with_reducible apply keeps_modRing | with_reducible apply keeps_raiseVec)

theorem keeps_putEntry {a_ : State} (s : State) (n : Fin 16) (r : Fin 4) (bytes : List Byte) (intr : Bool) (h_s : Keeps a_ s) : Keeps a_ (State.putEntry s n r bytes intr) := by
  unfold State.putEntry
  repeat' (first | with_reducible assumption | with_reducible apply keeps_modRing | with_reducible apply keeps_raiseRing | with_reducible apply keeps_hostMem | with_reducible apply Keeps.ite)

theorem keeps_flushWaiting {a_ : State} (s : State) (n : Fin 16) (k : Nat) (h : Keeps a_ s) : Keeps a_ (s.flushWaiting n k) := by
  induction k generalizing s with
  | zero => exact h
  | succ k ih =>
    unfold State.flushWaiting
    split
    · exact h
    · split
      · exact ih _ (keeps_putEntry _ _ _ _ _ (keeps_modHost _ _ _ h))
      · exact h

theorem keeps_deliverCompletion {a_ : State} (s : State) (n : Fin 16) (w : Waiting) (h_s : Keeps a_ s) : Keeps a_ (State.deliverCompletion s n w) := by
  unfold State.deliverCompletion
  repeat' (first | with_reducible assumption | with_reducible apply keeps_modHost | with_reducible apply keeps_flushWaiting)

theorem keeps_endInst {a_ : State} (s : State) (n : Fin 16) (tag : ℕ) (epoch : ℕ) (h_s : Keeps a_ s) : Keeps a_ (State.endInst s n tag epoch) := by
  unfold State.endInst
  repeat' (first | with_reducible assumption | with_reducible apply keeps_modHost)

theorem keeps_staleMsg {a_ : State} (s : State) (n : Fin 16) (tag : ℕ) (epoch : ℕ) (h_s : Keeps a_ s) : Keeps a_ (State.staleMsg s n tag epoch) := by
  unfold State.staleMsg
  repeat' (first | with_reducible assumption | with_reducible apply keeps_count | with_reducible apply keeps_modHost | with_reducible apply keeps_deliverCompletion | with_reducible apply Keeps.ite)

theorem keeps_forInst {a_ : State} (s : State) (n : Fin 16) (inst : Option (ℕ × ℕ)) (act : State → State) (h_s : Keeps a_ s) (h_act : ∀ x0, Keeps a_ x0 → Keeps a_ (act x0)) : Keeps a_ (State.forInst s n inst act) := by
  unfold State.forInst
  repeat' (first | with_reducible assumption | (with_reducible intro _; intros) | apply h_act | with_reducible apply keeps_staleMsg | with_reducible apply Keeps.ite | split)

theorem keeps_deliverMsg {a_ : State} (s : State) (n : Fin 16) (m : Msg) (h_s : Keeps a_ s) : Keeps a_ (State.deliverMsg s n m) := by
  unfold State.deliverMsg
  repeat' (first | with_reducible assumption | (with_reducible intro _; intros) | (extract_lets +onlyGivenNames x_; clear_value x_) | with_reducible apply keeps_forInst | with_reducible apply keeps_deliverCompletion | with_reducible apply keeps_putEntry | with_reducible apply keeps_modHost | with_reducible apply keeps_count | with_reducible apply keeps_ddr | with_reducible apply keeps_hostMem | with_reducible apply keeps_nvmF | with_reducible apply keeps_nvmH | with_reducible apply Keeps.ite | split)

theorem keeps_keepSent {a_ : State} (s : State) (toHost : Bool) (p : Packet) (h_s : Keeps a_ s) : Keeps a_ (State.keepSent s toHost p) := by
  unfold State.keepSent
  repeat' (first | with_reducible assumption | with_reducible apply keeps_modStile)

theorem keeps_passFrames {a_ : State} (s : State) (toHost : Bool) (p : Packet) (h_s : Keeps a_ s) : Keeps a_ (State.passFrames s toHost p) := by
  unfold State.passFrames
  repeat' (first | with_reducible assumption | (extract_lets +onlyGivenNames x_; clear_value x_) | with_reducible apply keeps_modStile)

theorem keeps_detect {a_ : State} (s : State) (det : ℕ) (unit_ : ℕ) (cls : State.Resp) (injected : Bool) (owner : Option (Fin 16)) (h_s : Keeps a_ s) : Keeps a_ (State.detect s det unit_ cls injected owner) := by
  unfold State.detect
  repeat' (first | with_reducible assumption | (extract_lets +onlyGivenNames x_; refine Keeps.cut x_ ?_ (fun hx_ => ?_); (on_goal 1 => (unfold x_; clear x_)); (on_goal 2 => clear_value x_)) | with_reducible apply keeps_count | with_reducible apply keeps_set | with_reducible apply keeps_raise | with_reducible apply Keeps.ite)

theorem keeps_takeInject {a_ : State} (s : State) (det : ℕ) (unit_ : ℕ) (h_s : Keeps a_ s) : Keeps a_ (State.takeInject s det unit_).2 := by
  unfold State.takeInject
  repeat' (first | with_reducible assumption | with_reducible apply keeps_raise | with_reducible apply keeps_set | with_reducible apply keeps_modFlt | split)

theorem keeps_failInst {a_ : State} (s : State) (k : Fin 16) (i : Inst) (h_s : Keeps a_ s) : Keeps a_ (State.failInst s k i) := by
  unfold State.failInst
  repeat' (first | with_reducible assumption | with_reducible apply keeps_deliverCompletion | with_reducible apply keeps_endInst | with_reducible apply Keeps.ite)

theorem keeps_failLive {a_ : State} (s : State) (h_s : Keeps a_ s) : Keeps a_ (State.failLive s) := by
  unfold State.failLive
  repeat' (first | with_reducible assumption | (with_reducible intro _; intros) | (extract_lets +onlyGivenNames x_; refine Keeps.cut x_ ?_ (fun hx_ => ?_); (on_goal 1 => (unfold x_; clear x_)); (on_goal 2 => clear_value x_)) | with_reducible apply keeps_overSess | with_reducible apply keeps_failInst | with_reducible apply keeps_modHost | with_reducible apply keeps_foldl)

theorem keeps_fieldLeave {a_ : State} (s : State) (st : ℕ) (h_s : Keeps a_ s) : Keeps a_ (State.fieldLeave s st) := by
  unfold State.fieldLeave
  repeat' (first | with_reducible assumption | (extract_lets +onlyGivenNames x_; refine Keeps.cut x_ ?_ (fun hx_ => ?_); (on_goal 1 => (unfold x_; clear x_)); (on_goal 2 => clear_value x_)) | (extract_lets +onlyGivenNames x_; clear_value x_) | with_reducible apply keeps_set | with_reducible apply keeps_failLive | with_reducible apply keeps_raise | with_reducible apply Keeps.ite)

theorem keeps_askReplay {a_ : State} (s : State) (toHost : Bool) (n : ℕ) (h_s : Keeps a_ s) : Keeps a_ (State.askReplay s toHost n) := by
  unfold State.askReplay
  repeat' (first | with_reducible assumption | with_reducible apply keeps_modStile)

theorem keeps_frameFail {a_ : State} (s : State) (toHost : Bool) (h_s : Keeps a_ s) : Keeps a_ (State.frameFail s toHost) := by
  unfold State.frameFail
  repeat' (first | with_reducible assumption | (extract_lets +onlyGivenNames x_; refine Keeps.cut x_ ?_ (fun hx_ => ?_); (on_goal 1 => (unfold x_; clear x_)); (on_goal 2 => clear_value x_)) | (extract_lets +onlyGivenNames x_; refine Keeps.cut x_.2 ?_ (fun hx_ => ?_); (on_goal 1 => (unfold x_; clear x_)); (on_goal 2 => clear_value x_)) | (extract_lets +onlyGivenNames x_; clear_value x_) | with_reducible apply keeps_takeInject | with_reducible apply keeps_detect | with_reducible apply keeps_count | with_reducible apply keeps_askReplay | with_reducible apply keeps_modStile | with_reducible apply keeps_fieldLeave | with_reducible apply keeps_raise | with_reducible apply Keeps.ite)

theorem keeps_cross {a_ : State} (s : State) (toHost : Bool) (p : Packet) (act : State → State) (h_s : Keeps a_ s) (h_act : ∀ x0, Keeps a_ x0 → Keeps a_ (act x0)) : Keeps a_ (State.cross s toHost p act) := by
  unfold State.cross
  repeat' (first | with_reducible assumption | (with_reducible intro _; intros) | apply h_act | with_reducible apply keeps_keepSent | with_reducible apply keeps_frameFail | with_reducible apply keeps_passFrames | with_reducible apply keeps_foldl | with_reducible apply Keeps.ite)

theorem keeps_toField {a_ : State} (s : State) (p : Packet) (act : State → State) (h_s : Keeps a_ s) (h_act : ∀ x0, Keeps a_ x0 → Keeps a_ (act x0)) : Keeps a_ (State.toField s p act) := by
  unfold State.toField
  repeat' (first | with_reducible assumption | (with_reducible intro _; intros) | apply h_act | with_reducible apply keeps_cross | with_reducible apply keeps_count | with_reducible apply Keeps.ite)

theorem keeps_hostStrobe {a_ : State} (s : State) (r : Reg) (ix : List ℕ) (b : ℕ) (act : State → State) (h_s : Keeps a_ s) (h_act : ∀ x0, Keeps a_ x0 → Keeps a_ (act x0)) : Keeps a_ (State.hostStrobe s r ix b act) := by
  unfold State.hostStrobe
  repeat' (first | with_reducible assumption | (with_reducible intro _; intros) | apply h_act | with_reducible apply keeps_toField)

theorem keeps_downRead {a_ : State} (s : State) (h_s : Keeps a_ s) : Keeps a_ (State.downRead s) := by
  unfold State.downRead
  repeat' (first | with_reducible assumption | with_reducible apply keeps_reply | with_reducible apply keeps_count)

theorem keeps_answer {a_ : State} (r : Word × State) (h_r : Keeps a_ r.2) : Keeps a_ (State.answer r) := by
  unfold State.answer
  repeat' (first | with_reducible assumption | (with_reducible intro _; intros) | with_reducible apply keeps_cross | with_reducible apply keeps_reply)

theorem keeps_readField {a_ : State} (s : State) (p : Packet) (act : State → Word × State) (h_s : Keeps a_ s) (h_act : ∀ x0, Keeps a_ x0 → Keeps a_ (act x0).2) : Keeps a_ (State.readField s p act) := by
  unfold State.readField
  repeat' (first | with_reducible assumption | (with_reducible intro _; intros) | apply h_act | with_reducible apply keeps_cross | with_reducible apply keeps_answer | with_reducible apply keeps_downRead | with_reducible apply Keeps.ite)

theorem keeps_sendMsg {a_ : State} (s : State) (n : Fin 16) (m : Msg) (h_s : Keeps a_ s) : Keeps a_ (State.sendMsg s n m) := by
  unfold State.sendMsg
  repeat' (first | with_reducible assumption | (with_reducible intro _; intros) | with_reducible apply keeps_cross | with_reducible apply keeps_deliverMsg | with_reducible apply keeps_modStile | with_reducible apply Keeps.ite)

theorem keeps_sendRing {a_ : State} (s : State) (n : Fin 16) (tag : ℕ) (epoch : ℕ) (bytes : List Byte) (intr : Bool) (h_s : Keeps a_ s) : Keeps a_ (State.sendRing s n tag epoch bytes intr) := by
  unfold State.sendRing
  repeat' (first | with_reducible assumption | with_reducible apply keeps_sendMsg)

theorem keeps_hostWrite {a_ : State} (s : State) (n : Fin 16) (a : ℕ) (bs : List Byte) (inst : Option (ℕ × ℕ)) (h_s : Keeps a_ s) : Keeps a_ (State.hostWrite s n a bs inst) := by
  unfold State.hostWrite
  repeat' (first | with_reducible assumption | with_reducible apply keeps_sendMsg)

theorem keeps_complete {a_ : State} (s : State) (n : Fin 16) (tag : ℕ) (epoch : ℕ) (opcode : ℕ) (st : Status) (cond : ℕ) (f : ℕ) (q : ℕ) (d0 : ℕ) (d1 : ℕ) (h_s : Keeps a_ s) : Keeps a_ (State.complete s n tag epoch opcode st cond f q d0 d1) := by
  unfold State.complete
  repeat' (first | with_reducible assumption | (extract_lets +onlyGivenNames x_; clear_value x_) | with_reducible apply keeps_sendRing | with_reducible apply keeps_endInst | with_reducible apply Keeps.ite)

theorem keeps_aoHold {a_ : State} (s : State) (o : Fin 16) (t : ℕ) (h_s : Keeps a_ s) : Keeps a_ (State.aoHold s o t) := by
  unfold State.aoHold
  repeat' (first | with_reducible assumption | with_reducible apply keeps_modAo)

theorem keeps_aoCatch {a_ : State} (s : State) (o : Fin 16) (h_s : Keeps a_ s) : Keeps a_ (State.aoCatch s o) := by
  unfold State.aoCatch
  repeat' (first | with_reducible assumption | with_reducible apply keeps_modAo)

theorem keeps_aoSafe {a_ : State} (s : State) (o : Fin 16) (kind : SafeKind) (h_s : Keeps a_ s) : Keeps a_ (State.aoSafe s o kind) := by
  unfold State.aoSafe
  repeat' (first | with_reducible assumption | with_reducible apply keeps_modAo | with_reducible apply keeps_aoHold | with_reducible apply keeps_mk)

theorem keeps_modCal {a_ : State} (s : State) (f : Calib → Calib) (h_s : Keeps a_ s) : Keeps a_ (State.modCal s f) := by
  unfold State.modCal
  repeat' (first | with_reducible assumption | with_reducible apply keeps_mk)

theorem keeps_modCalUnit {a_ : State} (s : State) (u : Fin 36) (f : CalUnit → CalUnit) (h_s : Keeps a_ s) : Keeps a_ (State.modCalUnit s u f) := by
  unfold State.modCalUnit
  repeat' (first | with_reducible assumption | with_reducible apply keeps_modCal)

theorem keeps_showDue {a_ : State} (s : State) (h_s : Keeps a_ s) : Keeps a_ (State.showDue s) := by
  unfold State.showDue
  repeat' (first | with_reducible assumption | with_reducible apply keeps_set)

theorem keeps_calDue {a_ : State} (s : State) (u : Fin 36) (cause : ℕ) (h_s : Keeps a_ s) : Keeps a_ (State.calDue s u cause) := by
  unfold State.calDue
  repeat' (first | with_reducible assumption | with_reducible apply keeps_modCalUnit | with_reducible apply keeps_modCal | with_reducible apply keeps_showDue | with_reducible apply keeps_set | with_reducible apply Keeps.ite)

theorem keeps_calRest {a_ : State} (s : State) (u : Fin 36) (h_s : Keeps a_ s) : Keeps a_ (State.calRest s u) := by
  unfold State.calRest
  repeat' (first | with_reducible assumption | with_reducible apply keeps_set)

theorem keeps_calHold {a_ : State} (s : State) (u : ℕ) (on : Bool) (h_s : Keeps a_ s) : Keeps a_ (State.calHold s u on) := by
  unfold State.calHold
  repeat' (first | with_reducible assumption | with_reducible apply keeps_modAo | with_reducible apply keeps_aoCatch | split)

theorem keeps_calHeldCause {a_ : State} (s : State) (u : Fin 36) (accepted : Bool) (h_s : Keeps a_ s) : Keeps a_ (State.calHeldCause s u accepted) := by
  unfold State.calHeldCause
  repeat' (first | with_reducible assumption | with_reducible apply keeps_modCalUnit | with_reducible apply keeps_calDue | split)

theorem keeps_calApply {a_ : State} (s : State) (u : Fin 36) (h_s : Keeps a_ s) : Keeps a_ (State.calApply s u) := by
  unfold State.calApply
  repeat' (first | with_reducible assumption | with_reducible apply keeps_modCalUnit | with_reducible apply keeps_set | with_reducible apply keeps_calRest | with_reducible apply keeps_calHeldCause | with_reducible apply keeps_calHold)

theorem keeps_calSliceBoundary {a_ : State} (s : State) (n : Fin 12) (h_s : Keeps a_ s) : Keeps a_ (State.calSliceBoundary s n) := by
  unfold State.calSliceBoundary
  repeat' (first | with_reducible assumption | with_reducible apply keeps_calApply | with_reducible apply Keeps.ite)

theorem keeps_calFree {a_ : State} (s : State) (h_s : Keeps a_ s) : Keeps a_ (State.calFree s) := by
  unfold State.calFree
  repeat' (first | with_reducible assumption | with_reducible apply keeps_set | with_reducible apply keeps_modCal)

theorem keeps_calAbandon {a_ : State} (s : State) (u : Fin 36) (h_s : Keeps a_ s) : Keeps a_ (State.calAbandon s u) := by
  unfold State.calAbandon
  repeat' (first | with_reducible assumption | (extract_lets +onlyGivenNames x_; refine Keeps.cut x_ ?_ (fun hx_ => ?_); (on_goal 1 => (unfold x_; clear x_)); (on_goal 2 => clear_value x_)) | (extract_lets +onlyGivenNames x_; clear_value x_) | with_reducible apply keeps_calRest | with_reducible apply keeps_calHold | with_reducible apply keeps_count | with_reducible apply keeps_calFree | with_reducible apply keeps_calDue | with_reducible apply keeps_modCalUnit | with_reducible apply Keeps.ite)

theorem keeps_safeLane {a_ : State} (s : State) (n : Fin 12) (l : Fin 8) (t : ℕ) (act : ℕ) (kind : SafeKind) (h_s : Keeps a_ s) : Keeps a_ (State.safeLane s n l t act kind) := by
  unfold State.safeLane
  repeat' (first | with_reducible assumption | with_reducible apply keeps_count | with_reducible apply keeps_modLane | with_reducible apply Keeps.ite)

theorem keeps_keepLanes {a_ : State} (s : State) (n : Fin 12) (h_s : Keeps a_ s) : Keeps a_ (State.keepLanes s n) := by
  unfold State.keepLanes
  repeat' (first | with_reducible assumption | with_reducible apply keeps_mapLanes)

theorem keeps_laneVolts {a_ : State} (s : State) (n : Fin 12) (l : Fin 8) (t : ℕ) (vp : ℤ) (vn : ℤ) (h_s : Keeps a_ s) : Keeps a_ (State.laneVolts s n l t vp vn) := by
  unfold State.laneVolts
  repeat' (first | with_reducible assumption | with_reducible apply keeps_modLane)

theorem keeps_quietVolts {a_ : State} (s : State) (n : Fin 12) (t : ℕ) (balls : List BallVolts) (h_s : Keeps a_ s) : Keeps a_ (State.quietVolts s n t balls) := by
  unfold State.quietVolts
  repeat' (first | with_reducible assumption | (with_reducible intro _; intros) | with_reducible apply keeps_overLanes | with_reducible apply keeps_laneVolts | with_reducible apply Keeps.ite | split)

theorem keeps_newThs {a_ : State} (s0 : State) (s : State) (n : Fin 12) (l : Fin 8) (h_s0 : Keeps a_ s0) (h_s : Keeps a_ s) : Keeps a_ (State.newThs s0 s n l) := by
  unfold State.newThs
  repeat' (first | with_reducible assumption | with_reducible apply keeps_modLane | with_reducible apply keeps_laneVolts | with_reducible apply Keeps.ite)

theorem keeps_strobeAt {a_ : State} (s : State) (n : Fin 12) (t : ℕ) (fresh : Bool) (h_s : Keeps a_ s) : Keeps a_ (State.strobeAt s n t fresh) := by
  unfold State.strobeAt
  repeat' (first | with_reducible assumption | (extract_lets +onlyGivenNames x_; unfold x_; clear x_; beta_reduce) | with_reducible apply keeps_modSlice)

theorem keeps_strobeSync {a_ : State} (s : State) (n : Fin 12) (h_s : Keeps a_ s) : Keeps a_ (State.strobeSync s n) := by
  unfold State.strobeSync
  repeat' (first | with_reducible assumption | with_reducible apply keeps_strobeAt)

theorem keeps_safeSlice {a_ : State} (s : State) (n : Fin 12) (kind : SafeKind) (h_s : Keeps a_ s) : Keeps a_ (State.safeSlice s n kind) := by
  unfold State.safeSlice
  repeat' (first | with_reducible assumption | (with_reducible intro _; intros) | with_reducible apply keeps_strobeSync | with_reducible apply keeps_overLanes | with_reducible apply keeps_safeLane)

theorem keeps_driveAlt {a_ : State} (s : State) (n : Fin 12) (l : Fin 8) (h_s : Keeps a_ s) : Keeps a_ (State.driveAlt s n l) := by
  unfold State.driveAlt
  repeat' (first | with_reducible assumption | with_reducible apply keeps_count | with_reducible apply keeps_modLane | with_reducible apply Keeps.ite)

theorem keeps_forceLane {a_ : State} (s : State) (n : Fin 12) (l : Fin 8) (h_s : Keeps a_ s) : Keeps a_ (State.forceLane s n l) := by
  unfold State.forceLane
  repeat' (first | with_reducible assumption | with_reducible apply keeps_count | with_reducible apply keeps_modLane | with_reducible apply keeps_strobeSync | with_reducible apply keeps_driveAlt | with_reducible apply Keeps.ite)

theorem keeps_execReflexAssert {a_ : State} (c : Fin 64) (s : State) (h_s : Keeps a_ s) : KeepsOut a_ (execReflexAssert c s) := by
  unfold execReflexAssert
  repeat' (first | with_reducible apply KeepsOut.next | with_reducible assumption | (with_reducible intro _; intros) | with_reducible apply keeps_overSlices | with_reducible apply keeps_overLanes | with_reducible apply keeps_forceLane | with_reducible apply Keeps.ite)

theorem keeps_unforceLane {a_ : State} (s : State) (n : Fin 12) (l : Fin 8) (h_s : Keeps a_ s) : Keeps a_ (State.unforceLane s n l) := by
  unfold State.unforceLane
  repeat' (first | with_reducible assumption | with_reducible apply keeps_modLane | with_reducible apply keeps_strobeSync | with_reducible apply Keeps.ite)

theorem keeps_execReflexDeassert {a_ : State} (c : Fin 64) (s : State) (h_s : Keeps a_ s) : KeepsOut a_ (execReflexDeassert c s) := by
  unfold execReflexDeassert
  repeat' (first | with_reducible apply KeepsOut.next | with_reducible assumption | (with_reducible intro _; intros) | with_reducible apply keeps_overSlices | with_reducible apply keeps_overLanes | with_reducible apply keeps_unforceLane | with_reducible apply Keeps.ite)

theorem keeps_execModeChangeHizEnd {a_ : State} (n : Fin 12) (l : Fin 8) (s : State) (h_s : Keeps a_ s) : KeepsOut a_ (execModeChangeHizEnd n l s) := by
  unfold execModeChangeHizEnd
  repeat' (first | with_reducible apply KeepsOut.next | with_reducible apply KeepsOut.fault | with_reducible assumption | with_reducible apply keeps_strobeSync | with_reducible apply keeps_keepLanes | with_reducible apply keeps_modLane)

theorem keeps_setBank {a_ : State} (s : State) (b : Bool) (ok : Bool) (h_s : Keeps a_ s) : Keeps a_ (State.setBank s b ok) := by
  unfold State.setBank
  repeat' (first | with_reducible assumption | (with_reducible intro _; intros) | (extract_lets +onlyGivenNames x_; refine Keeps.cut x_ ?_ (fun hx_ => ?_); (on_goal 1 => (unfold x_; clear x_)); (on_goal 2 => clear_value x_)) | with_reducible apply keeps_set | with_reducible apply keeps_overSlices | with_reducible apply keeps_keepLanes | with_reducible apply keeps_foldl)

theorem keeps_bankVolts {a_ : State} (s : State) (b : Bool) (mv : ℕ) (h_s : Keeps a_ s) : Keeps a_ (State.bankVolts s b mv) := by
  unfold State.bankVolts
  repeat' (first | with_reducible assumption | with_reducible apply keeps_mk)

theorem keeps_execSupplyBankReturn {a_ : State} (m : BankReading) (s : State) (h_s : Keeps a_ s) : KeepsOut a_ (execSupplyBankReturn m s) := by
  unfold execSupplyBankReturn
  repeat' (first | with_reducible apply KeepsOut.next | with_reducible assumption | (with_reducible intro _; intros) | with_reducible apply keeps_bankVolts | with_reducible apply keeps_overSlices | with_reducible apply keeps_strobeSync | with_reducible apply keeps_set | with_reducible apply keeps_setBank | with_reducible apply Keeps.ite)

theorem keeps_reportCommit {a_ : State} (s : State) (ring : Option (ℕ × ℕ × ℕ)) (st : Status) (h_s : Keeps a_ s) : Keeps a_ (State.reportCommit s ring st) := by
  unfold State.reportCommit
  repeat' (first | with_reducible assumption | with_reducible apply keeps_incWrap | with_reducible apply keeps_set | with_reducible apply keeps_complete | split)

theorem keeps_showPending {a_ : State} (s : State) (h_s : Keeps a_ s) : Keeps a_ (State.showPending s) := by
  unfold State.showPending
  repeat' (first | with_reducible assumption | with_reducible apply keeps_set)

theorem keeps_discardPends {a_ : State} (s : State) (which : PendCommit → Bool) (h_s : Keeps a_ s) : Keeps a_ (State.discardPends s which) := by
  unfold State.discardPends
  repeat' (first | with_reducible assumption | (with_reducible intro _; intros) | with_reducible apply keeps_modCommit | with_reducible apply keeps_showPending | with_reducible apply keeps_reportCommit | with_reducible apply keeps_foldl)

theorem keeps_seqCond {a_ : State} (s : State) (k : Fin 16) (bit : ℕ) (h_s : Keeps a_ s) : Keeps a_ (State.seqCond s k bit) := by
  unfold State.seqCond
  repeat' (first | with_reducible assumption | with_reducible apply keeps_modSess)

theorem keeps_noteCond {a_ : State} (s : State) (k : Fin 16) (bit : ℕ) (h_s : Keeps a_ s) : Keeps a_ (State.noteCond s k bit) := by
  unfold State.noteCond
  repeat' (first | with_reducible assumption | with_reducible apply keeps_modSess)

theorem keeps_freeCore {a_ : State} (s : State) (c : Fin 4) (h_s : Keeps a_ s) : Keeps a_ (State.freeCore s c) := by
  unfold State.freeCore
  repeat' (first | with_reducible assumption | with_reducible apply keeps_modCore)

theorem keeps_noteWait {a_ : State} (s : State) (k : Fin 16) (h_s : Keeps a_ s) : Keeps a_ (State.noteWait s k) := by
  unfold State.noteWait
  repeat' (first | with_reducible assumption | (extract_lets +onlyGivenNames x_; clear_value x_) | with_reducible apply keeps_putFresh | split)

theorem keeps_stopSeq {a_ : State} (s : State) (k : Fin 16) (h_s : Keeps a_ s) : Keeps a_ (State.stopSeq s k) := by
  unfold State.stopSeq
  repeat' (first | with_reducible assumption | (extract_lets +onlyGivenNames x_; refine Keeps.cut x_ ?_ (fun hx_ => ?_); (on_goal 1 => (unfold x_; clear x_)); (on_goal 2 => clear_value x_)) | (extract_lets +onlyGivenNames x_; clear_value x_) | with_reducible apply keeps_noteWait | with_reducible apply keeps_freeCore | with_reducible apply keeps_modSess | with_reducible apply Keeps.ite | split)

theorem keeps_cutUnits {a_ : State} (s : State) (k : Fin 16) (kind : SafeKind) (h_s : Keeps a_ s) : Keeps a_ (State.cutUnits s k kind) := by
  unfold State.cutUnits
  repeat' (first | with_reducible assumption | (with_reducible intro _; intros) | (extract_lets +onlyGivenNames x_; refine Keeps.cut x_ ?_ (fun hx_ => ?_); (on_goal 1 => (unfold x_; clear x_)); (on_goal 2 => clear_value x_)) | with_reducible apply keeps_overSlices | with_reducible apply keeps_calSliceBoundary | with_reducible apply keeps_modSlice | with_reducible apply keeps_safeSlice | with_reducible apply keeps_overOutputs | with_reducible apply keeps_aoSafe | with_reducible apply Keeps.ite)

theorem keeps_endSeq {a_ : State} (s : State) (k : Fin 16) (st : Status) (h_s : Keeps a_ s) : Keeps a_ (State.endSeq s k st) := by
  unfold State.endSeq
  repeat' (first | with_reducible assumption | with_reducible apply keeps_stopSeq | with_reducible apply keeps_seqCond | with_reducible apply keeps_discardPends | with_reducible apply keeps_cutUnits | split)

theorem keeps_sramCe {a_ : State} (s : State) (code : ℕ) (owner : Option (Fin 16)) (h_s : Keeps a_ s) : Keeps a_ (State.sramCe s code owner) := by
  unfold State.sramCe
  repeat' (first | with_reducible assumption | with_reducible apply keeps_takeInject | with_reducible apply keeps_detect | with_reducible apply Keeps.ite)

theorem keeps_coreFault {a_ : State} (s : State) (c : Fin 4) (code : ℕ) (addr : ℕ) (h_s : Keeps a_ s) : Keeps a_ (State.coreFault s c code addr) := by
  unfold State.coreFault
  repeat' (first | with_reducible assumption | with_reducible apply keeps_raise | with_reducible apply keeps_set | with_reducible apply Keeps.ite)

theorem keeps_spanRecord {a_ : State} (s : State) (c : Fin 4) (h_s : Keeps a_ s) : Keeps a_ (State.spanRecord s c) := by
  unfold State.spanRecord
  repeat' (first | with_reducible assumption | (with_reducible intro _; intros) | (extract_lets +onlyGivenNames x_; refine Keeps.cut x_ ?_ (fun hx_ => ?_); (on_goal 1 => (unfold x_; clear x_)); (on_goal 2 => clear_value x_)) | with_reducible apply keeps_set | with_reducible apply keeps_raise | with_reducible apply keeps_foldl | split)

theorem keeps_hardFaultCore {a_ : State} (s : State) (c : Fin 4) (code : ℕ) (h_s : Keeps a_ s) : Keeps a_ (State.hardFaultCore s c code) := by
  unfold State.hardFaultCore
  repeat' (first | with_reducible assumption | (extract_lets +onlyGivenNames x_; refine Keeps.cut x_ ?_ (fun hx_ => ?_); (on_goal 1 => (unfold x_; clear x_)); (on_goal 2 => clear_value x_)) | with_reducible apply keeps_spanRecord | with_reducible apply keeps_coreFault | with_reducible apply keeps_endSeq | split)

theorem keeps_hardFaultSess {a_ : State} (s : State) (k : Fin 16) (h_s : Keeps a_ s) : Keeps a_ (State.hardFaultSess s k) := by
  unfold State.hardFaultSess
  repeat' (first | with_reducible assumption | with_reducible apply keeps_hardFaultCore | with_reducible apply keeps_endSeq | split)

theorem keeps_faultSlice {a_ : State} (s : State) (n : Fin 12) (h_s : Keeps a_ s) : Keeps a_ (State.faultSlice s n) := by
  unfold State.faultSlice
  repeat' (first | with_reducible assumption | (extract_lets +onlyGivenNames x_; refine Keeps.cut x_ ?_ (fun hx_ => ?_); (on_goal 1 => (unfold x_; clear x_)); (on_goal 2 => clear_value x_)) | with_reducible apply keeps_calAbandon | with_reducible apply keeps_hardFaultSess | with_reducible apply keeps_safeSlice | split)

theorem keeps_faultOutput {a_ : State} (s : State) (o : Fin 16) (h_s : Keeps a_ s) : Keeps a_ (State.faultOutput s o) := by
  unfold State.faultOutput
  repeat' (first | with_reducible assumption | with_reducible apply keeps_calAbandon | with_reducible apply keeps_hardFaultSess | with_reducible apply keeps_aoSafe | split)

theorem keeps_faultDevice {a_ : State} (s : State) (h_s : Keeps a_ s) : Keeps a_ (State.faultDevice s) := by
  unfold State.faultDevice
  repeat' (first | with_reducible assumption | (with_reducible intro _; intros) | (extract_lets +onlyGivenNames x_; refine Keeps.cut x_ ?_ (fun hx_ => ?_); (on_goal 1 => (unfold x_; clear x_)); (on_goal 2 => clear_value x_)) | with_reducible apply keeps_calAbandon | with_reducible apply keeps_overSess | with_reducible apply keeps_hardFaultSess | with_reducible apply keeps_overSlices | with_reducible apply keeps_calSliceBoundary | with_reducible apply keeps_modSlice | with_reducible apply keeps_safeSlice | with_reducible apply keeps_overOutputs | with_reducible apply keeps_aoSafe | split)

theorem keeps_tbEvent {a_ : State} (s : State) (bit : ℕ) (h_s : Keeps a_ s) : Keeps a_ (State.tbEvent s bit) := by
  unfold State.tbEvent
  repeat' (first | with_reducible assumption | with_reducible apply keeps_defer | with_reducible apply keeps_putFresh)

theorem keeps_modBoot {a_ : State} (s : State) (f : Boot → Boot) (h_s : Keeps a_ s) : Keeps a_ (State.modBoot s f) := by
  unfold State.modBoot
  repeat' (first | with_reducible assumption | with_reducible apply keeps_mk)

theorem keeps_nvmFLoad {a_ : State} (s : State) (h_s : Keeps a_ s) : Keeps a_ (State.nvmFLoad s) := by
  unfold State.nvmFLoad
  repeat' (first | with_reducible assumption | with_reducible apply keeps_modBoot | with_reducible apply Keeps.ite)

theorem keeps_nvmFProgram {a_ : State} (s : State) (h_s : Keeps a_ s) : Keeps a_ (State.nvmFProgram s) := by
  unfold State.nvmFProgram
  repeat' (first | with_reducible assumption | with_reducible apply keeps_modBoot | with_reducible apply keeps_raise | with_reducible apply keeps_set | with_reducible apply keeps_nvmF | split | with_reducible apply keeps_mk)

theorem keeps_putCalCopy {a_ : State} (s : State) (b : Bool) (c : Option CalCopy) (h_s : Keeps a_ s) : Keeps a_ (State.putCalCopy s b c) := by
  unfold State.putCalCopy
  repeat' (first | with_reducible assumption | with_reducible apply keeps_modBoot)

theorem keeps_nvmStoreCal {a_ : State} (s : State) (h_s : Keeps a_ s) : Keeps a_ (State.nvmStoreCal s) := by
  unfold State.nvmStoreCal
  repeat' (first | with_reducible assumption | with_reducible apply keeps_set | with_reducible apply keeps_modBoot | with_reducible apply keeps_putCalCopy | with_reducible apply Keeps.ite)

theorem keeps_nvmFDone {a_ : State} (s : State) (h_s : Keeps a_ s) : Keeps a_ (State.nvmFDone s) := by
  unfold State.nvmFDone
  repeat' (first | with_reducible assumption | (extract_lets +onlyGivenNames x_; refine Keeps.cut x_ ?_ (fun hx_ => ?_); (on_goal 1 => (unfold x_; clear x_)); (on_goal 2 => clear_value x_)) | with_reducible apply keeps_set | with_reducible apply keeps_modBoot | with_reducible apply keeps_putCalCopy | with_reducible apply keeps_nvmF | split)

theorem keeps_nvmHLoad {a_ : State} (s : State) (h_s : Keeps a_ s) : Keeps a_ (State.nvmHLoad s) := by
  unfold State.nvmHLoad
  repeat' (first | with_reducible assumption | with_reducible apply keeps_modBoot | with_reducible apply Keeps.ite)

theorem keeps_nvmHProgram {a_ : State} (s : State) (h_s : Keeps a_ s) : Keeps a_ (State.nvmHProgram s) := by
  unfold State.nvmHProgram
  repeat' (first | with_reducible assumption | with_reducible apply keeps_modBoot | with_reducible apply keeps_set | with_reducible apply keeps_raise | with_reducible apply keeps_nvmH | with_reducible apply Keeps.ite)

theorem keeps_nvmHDone {a_ : State} (s : State) (h_s : Keeps a_ s) : Keeps a_ (State.nvmHDone s) := by
  unfold State.nvmHDone
  repeat' (first | with_reducible assumption | with_reducible apply keeps_set | with_reducible apply keeps_modBoot | with_reducible apply keeps_nvmH | split)

theorem keeps_execNvmFLoad {a_ : State} (s : State) (h_s : Keeps a_ s) : KeepsOut a_ (execNvmFLoad s) := by
  unfold execNvmFLoad
  repeat' (first | with_reducible apply KeepsOut.next | with_reducible apply KeepsOut.fault | with_reducible assumption | (with_reducible intro _; intros) | with_reducible apply keeps_hostStrobe | with_reducible apply keeps_nvmFLoad)

theorem keeps_execNvmFProgram {a_ : State} (s : State) (h_s : Keeps a_ s) : KeepsOut a_ (execNvmFProgram s) := by
  unfold execNvmFProgram
  repeat' (first | with_reducible apply KeepsOut.next | with_reducible apply KeepsOut.fault | with_reducible assumption | (with_reducible intro _; intros) | with_reducible apply keeps_hostStrobe | with_reducible apply keeps_nvmFProgram)

theorem keeps_execStoreCal {a_ : State} (s : State) (h_s : Keeps a_ s) : KeepsOut a_ (execStoreCal s) := by
  unfold execStoreCal
  repeat' (first | with_reducible apply KeepsOut.next | with_reducible apply KeepsOut.fault | with_reducible assumption | (with_reducible intro _; intros) | with_reducible apply keeps_hostStrobe | with_reducible apply keeps_nvmStoreCal)

theorem keeps_execNvmHLoad {a_ : State} (s : State) (h_s : Keeps a_ s) : KeepsOut a_ (execNvmHLoad s) := by
  unfold execNvmHLoad
  repeat' (first | with_reducible apply KeepsOut.next | with_reducible assumption | with_reducible apply keeps_nvmHLoad)

theorem keeps_execNvmHProgram {a_ : State} (s : State) (h_s : Keeps a_ s) : KeepsOut a_ (execNvmHProgram s) := by
  unfold execNvmHProgram
  repeat' (first | with_reducible apply KeepsOut.next | with_reducible assumption | with_reducible apply keeps_nvmHProgram)

theorem keeps_execNvmWriteDone {a_ : State} (host : Bool) (s : State) (h_s : Keeps a_ s) : KeepsOut a_ (execNvmWriteDone host s) := by
  unfold execNvmWriteDone
  repeat' (first | with_reducible apply KeepsOut.next | with_reducible assumption | with_reducible apply keeps_nvmHDone | with_reducible apply keeps_nvmFDone | with_reducible apply Keeps.ite)

theorem keeps_modFeed {a_ : State} (s : State) (u : PlayUnit) (f : Feed → Feed) (h_s : Keeps a_ s) : Keeps a_ (State.modFeed s u f) := by
  unfold State.modFeed
  repeat' (first | with_reducible assumption | with_reducible apply keeps_modSlice | with_reducible apply keeps_modAo | split)

theorem keeps_modPlay {a_ : State} (s : State) (u : PlayUnit) (f : Play → Play) (h_s : Keeps a_ s) : Keeps a_ (State.modPlay s u f) := by
  unfold State.modPlay
  repeat' (first | with_reducible assumption | with_reducible apply keeps_modFeed)

theorem keeps_noteHeadroom {a_ : State} (s : State) (u : PlayUnit) (h_s : Keeps a_ s) : Keeps a_ (State.noteHeadroom s u) := by
  unfold State.noteHeadroom
  repeat' (first | with_reducible assumption | with_reducible apply keeps_putFresh | with_reducible apply keeps_defer | with_reducible apply keeps_modFeed | with_reducible apply Keeps.ite | split)

theorem keeps_deposit {a_ : State} (s : State) (u : PlayUnit) (k : ℕ) (e : WallEntry) (h_s : Keeps a_ s) : Keeps a_ (State.deposit s u k e) := by
  unfold State.deposit
  repeat' (first | with_reducible assumption | with_reducible apply keeps_noteHeadroom | with_reducible apply keeps_modFeed)

theorem keeps_depositSlice {a_ : State} (s : State) (n : Fin 12) (k : ℕ) (e : WallEntry) (h_s : Keeps a_ s) : Keeps a_ (State.depositSlice s n k e) := by
  unfold State.depositSlice
  repeat' (first | with_reducible assumption | with_reducible apply keeps_deposit)

theorem keeps_depositAo {a_ : State} (s : State) (o : Fin 16) (k : ℕ) (d : Seg) (h_s : Keeps a_ s) : Keeps a_ (State.depositAo s o k d) := by
  unfold State.depositAo
  repeat' (first | with_reducible assumption | with_reducible apply keeps_deposit)

theorem keeps_haltUnits {a_ : State} (s : State) (k : Fin 16) (t : ℕ) (h_s : Keeps a_ s) : Keeps a_ (State.haltUnits s k t) := by
  unfold State.haltUnits
  repeat' (first | with_reducible assumption | (with_reducible intro _; intros) | with_reducible apply keeps_modSess | with_reducible apply keeps_overSlices | with_reducible apply keeps_modFeed | with_reducible apply keeps_overOutputs | with_reducible apply Keeps.ite)

theorem keeps_noteUnder {a_ : State} (s : State) (k : Fin 16) (u : PlayUnit) (flag : ℕ) (stop : Bool) (h_s : Keeps a_ s) : Keeps a_ (State.noteUnder s k u flag stop) := by
  unfold State.noteUnder
  repeat' (first | with_reducible assumption | with_reducible apply keeps_modSess)

theorem keeps_sticky {a_ : State} (s : State) (k : Fin 16) (f : Ctx → Ctx) (h_s : Keeps a_ s) : Keeps a_ (State.sticky s k f) := by
  unfold State.sticky
  repeat' (first | with_reducible assumption | with_reducible apply keeps_modCore | with_reducible apply keeps_modSess | split)

theorem keeps_noteSlip {a_ : State} (s : State) (k : Fin 16) (h_s : Keeps a_ s) : Keeps a_ (State.noteSlip s k) := by
  unfold State.noteSlip
  repeat' (first | with_reducible assumption | with_reducible apply keeps_noteCond | with_reducible apply keeps_sticky)

end Sys2Proof.Machine
end

