-- ==== Sys2Proof/Laws/KeepsUnits.lean ====
section
/-! SUPPORT. What the operations of the machine keep: the generators, the Hedgerow, the time base, calibration, the Gleaner and what a commit copies. -/

namespace Sys2Proof.Machine

theorem keeps_fwReload {a_ : State} (s : State) (g : Fin 4) (h_s : Keeps a_ s) : Keeps a_ (State.fwReload s g) := by
  unfold State.fwReload
  repeat' (first | with_reducible assumption | with_reducible apply keeps_modFw)

theorem keeps_fwLoadFrom {a_ : State} (s : State) (g : Fin 4) (a : ℕ) (h_s : Keeps a_ s) : Keeps a_ (State.fwLoadFrom s g a) := by
  unfold State.fwLoadFrom
  repeat' (first | with_reducible assumption | with_reducible apply keeps_modFw)

theorem keeps_fwApplyOp {a_ : State} (s : State) (g : Fin 4) (op : ℕ) (reg : ℕ) (arg : ℕ) (h_s : Keeps a_ s) : Keeps a_ (State.fwApplyOp s g op reg arg) := by
  unfold State.fwApplyOp
  repeat' (first | with_reducible assumption | with_reducible apply keeps_fwLoadFrom | with_reducible apply keeps_modFw | with_reducible apply keeps_fwReload | split)

theorem keeps_fwQueueOp {a_ : State} (s : State) (g : Fin 4) (op : ℕ) (reg : ℕ) (arg : ℕ) (h_s : Keeps a_ s) : Keeps a_ (State.fwQueueOp s g op reg arg) := by
  unfold State.fwQueueOp
  repeat' (first | with_reducible assumption | with_reducible apply keeps_modFw | with_reducible apply keeps_fwApplyOp | with_reducible apply Keeps.ite)

theorem keeps_faultFw {a_ : State} (s : State) (g : Fin 4) (code : ℕ) (addr : ℕ) (user : Option (Fin 16)) (h_s : Keeps a_ s) : Keeps a_ (State.faultFw s g code addr user) := by
  unfold State.faultFw
  repeat' (first | with_reducible assumption | (extract_lets +onlyGivenNames x_; refine Keeps.cut x_ ?_ (fun hx_ => ?_); (on_goal 1 => (unfold x_; clear x_)); (on_goal 2 => clear_value x_)) | with_reducible apply keeps_raise | with_reducible apply keeps_set | with_reducible apply keeps_modFw | with_reducible apply keeps_hardFaultSess | split)

theorem keeps_fwTakeOps {a_ : State} (s : State) (g : Fin 4) (t : ℕ) (h_s : Keeps a_ s) : Keeps a_ (State.fwTakeOps s g t) := by
  unfold State.fwTakeOps
  repeat' (first | with_reducible assumption | (with_reducible intro _; intros) | with_reducible apply keeps_modFw | with_reducible apply keeps_fwApplyOp | with_reducible apply keeps_foldl)

theorem keeps_fwStart {a_ : State} (s : State) (g : Fin 4) (n : Fin 12) (d : Seg) (t : ℕ) (period : ℕ) (h_s : Keeps a_ s) : Keeps a_ (State.fwStart s g n d t period) := by
  unfold State.fwStart
  repeat' (first | with_reducible assumption | with_reducible apply keeps_faultFw | with_reducible apply keeps_modFw | with_reducible apply Keeps.ite | split)

theorem keeps_fwVector {a_ : State} (s : State) (g : Fin 4) (pass : ℕ) (i : ℕ) (h_s : Keeps a_ s) : Keeps a_ (State.fwVector s g pass i).1 := by
  unfold State.fwVector
  repeat' (first | with_reducible assumption | (extract_lets +onlyGivenNames x_; refine Keeps.cut x_ ?_ (fun hx_ => ?_); (on_goal 1 => (unfold x_; clear x_)); (on_goal 2 => clear_value x_)) | (extract_lets +onlyGivenNames x_; refine Keeps.cut x_.2 ?_ (fun hx_ => ?_); (on_goal 1 => (unfold x_; clear x_)); (on_goal 2 => clear_value x_)) | (extract_lets +onlyGivenNames x_; clear_value x_) | with_reducible apply keeps_sramCe | with_reducible apply keeps_takeInject | with_reducible apply keeps_faultFw | with_reducible apply keeps_detect | with_reducible apply keeps_modFw | with_reducible apply keeps_count | split)

theorem keeps_execFwProgramLoaded {a_ : State} (g : Fin 4) (s : State) (h_s : Keeps a_ s) : KeepsOut a_ (execFwProgramLoaded g s) := by
  unfold execFwProgramLoaded
  repeat' (first | with_reducible apply KeepsOut.next | with_reducible assumption | (extract_lets +onlyGivenNames x_; unfold x_; clear x_; beta_reduce) | with_reducible apply keeps_modFw | with_reducible apply keeps_set | split)

theorem keeps_fwScrPut {a_ : State} (s : State) (g : Fin 4) (v : Word) (h_s : Keeps a_ s) : Keeps a_ (State.fwScrPut s g v) := by
  unfold State.fwScrPut
  repeat' (first | with_reducible assumption | (extract_lets +onlyGivenNames x_; refine Keeps.cut x_ ?_ (fun hx_ => ?_); (on_goal 1 => (unfold x_; clear x_)); (on_goal 2 => clear_value x_)) | (extract_lets +onlyGivenNames x_; clear_value x_) | with_reducible apply keeps_modFw | with_reducible apply keeps_count | with_reducible apply keeps_set | with_reducible apply Keeps.ite)

theorem keeps_execFwScrDataWrite {a_ : State} (g : Fin 4) (v : Word) (s : State) (h_s : Keeps a_ s) : KeepsOut a_ (execFwScrDataWrite g v s) := by
  unfold execFwScrDataWrite
  repeat' (first | with_reducible apply KeepsOut.next | with_reducible apply KeepsOut.fault | with_reducible assumption | (with_reducible intro _; intros) | with_reducible apply keeps_toField | with_reducible apply keeps_fwScrPut)

theorem keeps_modNet {a_ : State} (s : State) (f : Net → Net) (h_s : Keeps a_ s) : Keeps a_ (State.modNet s f) := by
  unfold State.modNet
  repeat' (first | with_reducible assumption | with_reducible apply keeps_mk)

theorem keeps_modPort {a_ : State} (s : State) (p : Fin 4) (f : Port → Port) (h_s : Keeps a_ s) : Keeps a_ (State.modPort s p f) := by
  unfold State.modPort
  repeat' (first | with_reducible assumption | with_reducible apply keeps_modNet)

theorem keeps_hear {a_ : State} (s : State) (p : Fin 4) (f : State → State) (h_s : Keeps a_ s) (h_f : ∀ x0, Keeps a_ x0 → Keeps a_ (f x0)) : Keeps a_ (State.hear s p f) := by
  unfold State.hear
  repeat' (first | with_reducible assumption | (with_reducible intro _; intros) | apply h_f | with_reducible apply keeps_modPort | with_reducible apply Keeps.ite)

theorem keeps_netSend {a_ : State} (s : State) (p : ℕ) (m : NetMsg) (h_s : Keeps a_ s) : Keeps a_ (State.netSend s p m) := by
  unfold State.netSend
  repeat' (first | with_reducible assumption | with_reducible apply keeps_modPort | with_reducible apply Keeps.ite)

theorem keeps_sendDown {a_ : State} (s : State) (m : NetMsg) (h_s : Keeps a_ s) : Keeps a_ (State.sendDown s m) := by
  unfold State.sendDown
  repeat' (first | with_reducible assumption | (with_reducible intro _; intros) | with_reducible apply keeps_netSend | with_reducible apply keeps_foldl)

theorem keeps_linkEpoch {a_ : State} (s : State) (h_s : Keeps a_ s) : Keeps a_ (State.linkEpoch s) := by
  unfold State.linkEpoch
  repeat' (first | with_reducible assumption | with_reducible apply keeps_fresh | with_reducible apply keeps_sendDown | with_reducible apply Keeps.ite)

theorem keeps_cellSample {a_ : State} (s : State) (c : Fin 64) (h_s : Keeps a_ s) : Keeps a_ (State.cellSample s c) := by
  unfold State.cellSample
  repeat' (first | with_reducible assumption | with_reducible apply keeps_modHr | with_reducible apply Keeps.ite)

theorem keeps_sampleJumps {a_ : State} (s : State) (e : ℕ) (h_s : Keeps a_ s) : Keeps a_ (State.sampleJumps s e) := by
  unfold State.sampleJumps
  repeat' (first | with_reducible assumption | with_reducible apply keeps_modHr)

theorem keeps_postEvent {a_ : State} (s : State) (k : Fin 16) (ev : ℕ) (tbc : ℕ) (cnt : ℕ) (level : Bool) (hold : Bool) (inst : Option (ℕ × ℕ)) (q : ℕ) (h_s : Keeps a_ s) : Keeps a_ (State.postEvent s k ev tbc cnt level hold inst q) := by
  unfold State.postEvent
  repeat' (first | with_reducible assumption | with_reducible apply keeps_sendMsg | with_reducible apply keeps_modHost | with_reducible apply keeps_count | with_reducible apply Keeps.ite)

theorem keeps_ringEdge {a_ : State} (s : State) (k : Fin 16) (ev : ℕ) (h_s : Keeps a_ s) : Keeps a_ (State.ringEdge s k ev) := by
  unfold State.ringEdge
  repeat' (first | with_reducible assumption | with_reducible apply keeps_modHr | with_reducible apply keeps_count | with_reducible apply keeps_postEvent | with_reducible apply Keeps.ite)

theorem keeps_stretchEdge {a_ : State} (s : State) (ev : ℕ) (h_s : Keeps a_ s) : Keeps a_ (State.stretchEdge s ev) := by
  unfold State.stretchEdge
  repeat' (first | with_reducible assumption | with_reducible apply keeps_modHr | with_reducible apply Keeps.ite)

theorem keeps_noteRises {a_ : State} (s : State) (s' : State) (h_s : Keeps a_ s) (h_s' : Keeps a_ s') : Keeps a_ (State.noteRises s s') := by
  unfold State.noteRises
  repeat' (first | with_reducible assumption | (with_reducible intro _; intros) | with_reducible apply keeps_modHr | with_reducible apply keeps_stretchEdge | with_reducible apply keeps_foldl | with_reducible apply Keeps.ite)

theorem keeps_countCoal {a_ : State} (s : State) (ev : ℕ) (n : ℕ) (h_s : Keeps a_ s) : Keeps a_ (State.countCoal s ev n) := by
  unfold State.countCoal
  repeat' (first | with_reducible assumption | with_reducible apply keeps_count | with_reducible apply Keeps.ite)

theorem keeps_countEvents {a_ : State} (s : State) (ev : ℕ) (acts : ℕ) (h_s : Keeps a_ s) : Keeps a_ (State.countEvents s ev acts) := by
  unfold State.countEvents
  repeat' (first | with_reducible assumption | (with_reducible intro _; intros) | with_reducible apply keeps_count | with_reducible apply keeps_foldl | with_reducible apply Keeps.ite)

theorem keeps_setFlag {a_ : State} (s : State) (ev : ℕ) (h_s : Keeps a_ s) : Keeps a_ (State.setFlag s ev) := by
  unfold State.setFlag
  repeat' (first | with_reducible assumption | with_reducible apply keeps_putFresh)

theorem keeps_meetSample {a_ : State} (s : State) (x : EvSample) (h_s : Keeps a_ s) : Keeps a_ (State.meetSample s x) := by
  unfold State.meetSample
  repeat' (first | with_reducible assumption | (with_reducible intro _; intros) | with_reducible apply keeps_countEvents | with_reducible apply keeps_countCoal | with_reducible apply keeps_overSess | with_reducible apply keeps_ringEdge | with_reducible apply keeps_setFlag | with_reducible apply Keeps.ite)

theorem keeps_takeSample {a_ : State} (s : State) (ev : ℕ) (h_s : Keeps a_ s) : Keeps a_ (State.takeSample s ev) := by
  unfold State.takeSample
  repeat' (first | with_reducible assumption | with_reducible apply keeps_meetSample | with_reducible apply keeps_modHr | split)

theorem keeps_setGroup {a_ : State} (s : State) (g : Fin 16) (v : Bool) (h_s : Keeps a_ s) : Keeps a_ (State.setGroup s g v) := by
  unfold State.setGroup
  repeat' (first | with_reducible assumption | with_reducible apply keeps_set | with_reducible apply keeps_modHr | with_reducible apply keeps_count | with_reducible apply Keeps.ite)

theorem keeps_groupCommitted {a_ : State} (s : State) (g : Fin 16) (h_s : Keeps a_ s) : Keeps a_ (State.groupCommitted s g) := by
  unfold State.groupCommitted
  repeat' (first | with_reducible assumption | with_reducible apply keeps_setGroup | with_reducible apply keeps_modHr)

theorem keeps_takeGroup {a_ : State} (s : State) (g : Fin 16) (h_s : Keeps a_ s) : Keeps a_ (State.takeGroup s g) := by
  unfold State.takeGroup
  repeat' (first | with_reducible assumption | with_reducible apply keeps_modHr | with_reducible apply keeps_setGroup | with_reducible apply Keeps.ite)

theorem keeps_endHoldoff {a_ : State} (s : State) (k : Fin 16) (ev : ℕ) (h_s : Keeps a_ s) : Keeps a_ (State.endHoldoff s k ev) := by
  unfold State.endHoldoff
  repeat' (first | with_reducible assumption | (extract_lets +onlyGivenNames x_; refine Keeps.cut x_ ?_ (fun hx_ => ?_); (on_goal 1 => (unfold x_; clear x_)); (on_goal 2 => clear_value x_)) | with_reducible apply keeps_postEvent | with_reducible apply keeps_modHr | with_reducible apply Keeps.ite | split)

theorem keeps_settleCell {a_ : State} (s : State) (c : Fin 64) (h_s : Keeps a_ s) : Keeps a_ (State.settleCell s c) := by
  unfold State.settleCell
  repeat' (first | with_reducible assumption | with_reducible apply keeps_modHr)

theorem keeps_captureCell {a_ : State} (s : State) (c : Fin 64) (h_s : Keeps a_ s) : Keeps a_ (State.captureCell s c) := by
  unfold State.captureCell
  repeat' (first | with_reducible assumption | with_reducible apply keeps_modHr)

theorem keeps_restHedge {a_ : State} (s : State) (h_s : Keeps a_ s) : Keeps a_ (State.restHedge s) := by
  unfold State.restHedge
  repeat' (first | with_reducible assumption | (with_reducible intro _; intros) | with_reducible apply keeps_takeSample | with_reducible apply keeps_endHoldoff | with_reducible apply keeps_takeGroup | with_reducible apply keeps_settleCell | with_reducible apply keeps_captureCell | with_reducible apply keeps_foldl)

theorem keeps_sampleEvents {a_ : State} (s : State) (h_s : Keeps a_ s) : Keeps a_ (State.sampleEvents s) := by
  unfold State.sampleEvents
  repeat' (first | with_reducible assumption | (with_reducible intro _; intros) | (extract_lets +onlyGivenNames x_; unfold x_; clear x_; beta_reduce) | with_reducible apply keeps_stretchEdge | with_reducible apply keeps_modHr | with_reducible apply keeps_putK | with_reducible apply keeps_foldl | with_reducible apply Keeps.ite)

theorem keeps_sampleCells {a_ : State} (s : State) (h_s : Keeps a_ s) : Keeps a_ (State.sampleCells s) := by
  unfold State.sampleCells
  repeat' (first | with_reducible assumption | with_reducible apply keeps_cellSample | with_reducible apply keeps_foldl)

theorem keeps_swWrite {a_ : State} (s : State) (set : ℕ) (clr : ℕ) (pulse : ℕ) (h_s : Keeps a_ s) : Keeps a_ (State.swWrite s set clr pulse) := by
  unfold State.swWrite
  repeat' (first | with_reducible assumption | with_reducible apply keeps_defer | with_reducible apply Keeps.ite)

theorem keeps_execHrSwSet {a_ : State} (mask : ℕ) (clr : ℕ) (s : State) (h_s : Keeps a_ s) : KeepsOut a_ (execHrSwSet mask clr s) := by
  unfold execHrSwSet
  repeat' (first | with_reducible apply KeepsOut.next | with_reducible apply KeepsOut.fault | with_reducible assumption | (with_reducible intro _; intros) | with_reducible apply keeps_toField | with_reducible apply keeps_swWrite)

theorem keeps_execHrSwClr {a_ : State} (mask : ℕ) (s : State) (h_s : Keeps a_ s) : KeepsOut a_ (execHrSwClr mask s) := by
  unfold execHrSwClr
  repeat' (first | with_reducible apply KeepsOut.next | with_reducible apply KeepsOut.fault | with_reducible assumption | (with_reducible intro _; intros) | with_reducible apply keeps_toField | with_reducible apply keeps_swWrite)

theorem keeps_execHrSwPulse {a_ : State} (mask : ℕ) (s : State) (h_s : Keeps a_ s) : KeepsOut a_ (execHrSwPulse mask s) := by
  unfold execHrSwPulse
  repeat' (first | with_reducible apply KeepsOut.next | with_reducible apply KeepsOut.fault | with_reducible assumption | (with_reducible intro _; intros) | with_reducible apply keeps_toField | with_reducible apply keeps_swWrite)

theorem keeps_execEventEdgeSampled {a_ : State} (ev : Fin 256) (acts : ℕ) (rose : Bool) (s : State) (h_s : Keeps a_ s) : KeepsOut a_ (execEventEdgeSampled ev acts rose s) := by
  unfold execEventEdgeSampled
  repeat' (first | with_reducible apply KeepsOut.next | with_reducible assumption | with_reducible apply keeps_takeSample | with_reducible apply Keeps.ite)

theorem keeps_execRingHoldoffEnd {a_ : State} (k : Fin 16) (ev : Fin 256) (s : State) (h_s : Keeps a_ s) : KeepsOut a_ (execRingHoldoffEnd k ev s) := by
  unfold execRingHoldoffEnd
  repeat' (first | with_reducible apply KeepsOut.next | with_reducible assumption | with_reducible apply keeps_endHoldoff | with_reducible apply keeps_takeSample)

theorem keeps_execSedgeFilterSettle {a_ : State} (c : Fin 64) (s : State) (h_s : Keeps a_ s) : KeepsOut a_ (execSedgeFilterSettle c s) := by
  unfold execSedgeFilterSettle
  repeat' (first | with_reducible apply KeepsOut.next | with_reducible assumption | with_reducible apply keeps_settleCell)

theorem keeps_execSedgeFlipFlopCapture {a_ : State} (c : Fin 64) (s : State) (h_s : Keeps a_ s) : KeepsOut a_ (execSedgeFlipFlopCapture c s) := by
  unfold execSedgeFlipFlopCapture
  repeat' (first | with_reducible apply KeepsOut.next | with_reducible assumption | with_reducible apply keeps_captureCell)

theorem keeps_execCgOnEdge {a_ : State} (g : Fin 16) (s : State) (h_s : Keeps a_ s) : KeepsOut a_ (execCgOnEdge g s) := by
  unfold execCgOnEdge
  repeat' (first | with_reducible apply KeepsOut.next | with_reducible assumption | with_reducible apply keeps_takeGroup | with_reducible apply Keeps.ite)

theorem keeps_execCgOffEdge {a_ : State} (g : Fin 16) (s : State) (h_s : Keeps a_ s) : KeepsOut a_ (execCgOffEdge g s) := by
  unfold execCgOffEdge
  repeat' (first | with_reducible apply KeepsOut.next | with_reducible assumption | with_reducible apply keeps_takeGroup | with_reducible apply Keeps.ite)

theorem keeps_setPhase {a_ : State} (s : State) (e : ℤ) (h_s : Keeps a_ s) : Keeps a_ (State.setPhase s e) := by
  unfold State.setPhase
  repeat' (first | with_reducible assumption | with_reducible apply keeps_modTb)

theorem keeps_noteQuality {a_ : State} (s : State) (q : ℕ) (h_s : Keeps a_ s) : Keeps a_ (State.noteQuality s q) := by
  unfold State.noteQuality
  repeat' (first | with_reducible assumption | with_reducible apply keeps_mk)

theorem keeps_tbEnter {a_ : State} (s : State) (st : ℕ) (h_s : Keeps a_ s) : Keeps a_ (State.tbEnter s st) := by
  unfold State.tbEnter
  repeat' (first | with_reducible assumption | with_reducible apply keeps_noteQuality | with_reducible apply keeps_set | with_reducible apply keeps_setPhase | with_reducible apply keeps_modTb | with_reducible apply Keeps.ite)

theorem keeps_enterHoldover {a_ : State} (s : State) (word : ℕ) (h_s : Keeps a_ s) : Keeps a_ (State.enterHoldover s word) := by
  unfold State.enterHoldover
  repeat' (first | with_reducible assumption | with_reducible apply keeps_modTb | with_reducible apply keeps_tbEnter | with_reducible apply keeps_tbEvent | with_reducible apply keeps_set | with_reducible apply Keeps.ite)

theorem keeps_leaveHoldover {a_ : State} (s : State) (h_s : Keeps a_ s) : Keeps a_ (State.leaveHoldover s) := by
  unfold State.leaveHoldover
  repeat' (first | with_reducible assumption | with_reducible apply keeps_modTb | with_reducible apply keeps_set)

theorem keeps_loseRef {a_ : State} (s : State) (word : ℕ) (h_s : Keeps a_ s) : Keeps a_ (State.loseRef s word) := by
  unfold State.loseRef
  repeat' (first | with_reducible assumption | (extract_lets +onlyGivenNames x_; refine Keeps.cut x_ ?_ (fun hx_ => ?_); (on_goal 1 => (unfold x_; clear x_)); (on_goal 2 => clear_value x_)) | with_reducible apply keeps_tbEvent | with_reducible apply keeps_modTb | with_reducible apply keeps_detect | with_reducible apply keeps_tbEnter | with_reducible apply keeps_enterHoldover | split)

theorem keeps_enterLockFault {a_ : State} (s : State) (word : ℕ) (h_s : Keeps a_ s) : Keeps a_ (State.enterLockFault s word) := by
  unfold State.enterLockFault
  repeat' (first | with_reducible assumption | with_reducible apply keeps_takeInject | with_reducible apply keeps_modTb | with_reducible apply keeps_tbEnter | with_reducible apply keeps_faultDevice | with_reducible apply keeps_detect | with_reducible apply keeps_tbEvent)

theorem keeps_reacquire {a_ : State} (s : State) (h_s : Keeps a_ s) : Keeps a_ (State.reacquire s) := by
  unfold State.reacquire
  repeat' (first | with_reducible assumption | with_reducible apply keeps_leaveHoldover | with_reducible apply keeps_tbEnter | with_reducible apply Keeps.ite)

theorem keeps_syncDetect {a_ : State} (s : State) (src : ℕ) (h_s : Keeps a_ s) : Keeps a_ (State.syncDetect s src) := by
  unfold State.syncDetect
  repeat' (first | with_reducible assumption | (extract_lets +onlyGivenNames x_; refine Keeps.cut x_ ?_ (fun hx_ => ?_); (on_goal 1 => (unfold x_; clear x_)); (on_goal 2 => clear_value x_)) | with_reducible apply keeps_tbEvent | with_reducible apply keeps_count | with_reducible apply keeps_modTb | with_reducible apply Keeps.ite)

theorem keeps_syncoutStart {a_ : State} (s : State) (h_s : Keeps a_ s) : Keeps a_ (State.syncoutStart s) := by
  unfold State.syncoutStart
  repeat' (first | with_reducible assumption | with_reducible apply keeps_linkEpoch | with_reducible apply keeps_modTb | with_reducible apply Keeps.ite)

theorem keeps_syncoutDue {a_ : State} (s : State) (h_s : Keeps a_ s) : Keeps a_ (State.syncoutDue s) := by
  unfold State.syncoutDue
  repeat' (first | with_reducible assumption | (extract_lets +onlyGivenNames x_; clear_value x_) | with_reducible apply keeps_modTb | with_reducible apply keeps_syncoutStart | with_reducible apply Keeps.ite)

theorem keeps_linkTick {a_ : State} (s : State) (h_s : Keeps a_ s) : Keeps a_ (State.linkTick s) := by
  unfold State.linkTick
  repeat' (first | with_reducible assumption | with_reducible apply keeps_modTb | with_reducible apply keeps_syncDetect | with_reducible apply Keeps.ite)

theorem keeps_shiftTicks {a_ : State} (s : State) (d : ℕ) (h_s : Keeps a_ s) : Keeps a_ (State.shiftTicks s d) := by
  unfold State.shiftTicks
  repeat' (first | with_reducible assumption | (extract_lets +onlyGivenNames x_; clear_value x_) | with_reducible apply keeps_mk)

theorem keeps_honourEpoch {a_ : State} (s : State) (h_s : Keeps a_ s) : Keeps a_ (State.honourEpoch s) := by
  unfold State.honourEpoch
  repeat' (first | with_reducible assumption | (extract_lets +onlyGivenNames x_; refine Keeps.cut x_ ?_ (fun hx_ => ?_); (on_goal 1 => (unfold x_; clear x_)); (on_goal 2 => clear_value x_)) | (extract_lets +onlyGivenNames x_; clear_value x_) | with_reducible apply keeps_shiftTicks | with_reducible apply keeps_modTb | with_reducible apply keeps_incWrap | with_reducible apply keeps_set | with_reducible apply keeps_tbEvent)

theorem keeps_takeSnap {a_ : State} (s : State) (h_s : Keeps a_ s) : Keeps a_ (State.takeSnap s) := by
  unfold State.takeSnap
  repeat' (first | with_reducible assumption | with_reducible apply keeps_set)

theorem keeps_execRefLost {a_ : State} (word : ℕ) (s : State) (h_s : Keeps a_ s) : KeepsOut a_ (execRefLost word s) := by
  unfold execRefLost
  repeat' (first | with_reducible apply KeepsOut.next | with_reducible assumption | with_reducible apply keeps_loseRef | with_reducible apply keeps_set | with_reducible apply Keeps.ite)

theorem keeps_execRangeWindowEnd {a_ : State} (present : Bool) (throughout : Bool) (count : ℕ) (word : ℕ) (s : State) (h_s : Keeps a_ s) : KeepsOut a_ (execRangeWindowEnd present throughout count word s) := by
  unfold execRangeWindowEnd
  repeat' (first | with_reducible apply KeepsOut.next | with_reducible assumption | with_reducible apply keeps_set | with_reducible apply keeps_modTb | with_reducible apply keeps_loseRef | with_reducible apply Keeps.ite)

theorem keeps_execRefQualified {a_ : State} (phase : ℤ) (s : State) (h_s : Keeps a_ s) : KeepsOut a_ (execRefQualified phase s) := by
  unfold execRefQualified
  repeat' (first | with_reducible apply KeepsOut.next | with_reducible assumption | (extract_lets +onlyGivenNames x_; refine KeepsOut.cut x_ ?_ (fun hx_ => ?_); (on_goal 1 => (unfold x_; clear x_)); (on_goal 2 => clear_value x_)) | with_reducible apply keeps_tbEvent | with_reducible apply keeps_modTb | with_reducible apply keeps_tbEnter | with_reducible apply keeps_set | with_reducible apply keeps_setPhase | with_reducible apply keeps_leaveHoldover | split)

theorem keeps_execPllLockDeclared {a_ : State} (phase : ℤ) (s : State) (h_s : Keeps a_ s) : KeepsOut a_ (execPllLockDeclared phase s) := by
  unfold execPllLockDeclared
  repeat' (first | with_reducible apply KeepsOut.next | with_reducible assumption | with_reducible apply keeps_tbEvent | with_reducible apply keeps_setPhase | with_reducible apply keeps_tbEnter | with_reducible apply Keeps.ite)

theorem keeps_execLockTrip {a_ : State} (word : ℕ) (s : State) (h_s : Keeps a_ s) : KeepsOut a_ (execLockTrip word s) := by
  unfold execLockTrip
  repeat' (first | with_reducible apply KeepsOut.next | with_reducible assumption | with_reducible apply keeps_modTb | with_reducible apply Keeps.ite)

theorem keeps_execLockTripCompare {a_ : State} (diffPpm : ℕ) (s : State) (h_s : Keeps a_ s) : KeepsOut a_ (execLockTripCompare diffPpm s) := by
  unfold execLockTripCompare
  repeat' (first | with_reducible apply KeepsOut.next | with_reducible assumption | with_reducible apply keeps_modTb | with_reducible apply keeps_loseRef | with_reducible apply keeps_set | with_reducible apply keeps_enterLockFault | with_reducible apply KeepsOut.ite | split)

theorem keeps_execRecoverDone {a_ : State} (s : State) (h_s : Keeps a_ s) : KeepsOut a_ (execRecoverDone s) := by
  unfold execRecoverDone
  repeat' (first | with_reducible apply KeepsOut.next | with_reducible assumption | with_reducible apply keeps_tbEvent | with_reducible apply keeps_setPhase | with_reducible apply keeps_tbEnter | with_reducible apply Keeps.ite)

theorem keeps_execHoldLimitExceeded {a_ : State} (s : State) (h_s : Keeps a_ s) : KeepsOut a_ (execHoldLimitExceeded s) := by
  unfold execHoldLimitExceeded
  repeat' (first | with_reducible apply KeepsOut.next | with_reducible assumption | with_reducible apply keeps_set | with_reducible apply Keeps.ite)

theorem keeps_relock {a_ : State} (s : State) (h_s : Keeps a_ s) : Keeps a_ (State.relock s) := by
  unfold State.relock
  repeat' (first | with_reducible assumption | with_reducible apply keeps_reacquire | with_reducible apply Keeps.ite)

theorem keeps_execRelock {a_ : State} (s : State) (h_s : Keeps a_ s) : KeepsOut a_ (execRelock s) := by
  unfold execRelock
  repeat' (first | with_reducible apply KeepsOut.next | with_reducible apply KeepsOut.fault | with_reducible assumption | (with_reducible intro _; intros) | with_reducible apply keeps_hostStrobe | with_reducible apply keeps_relock)

theorem keeps_emit {a_ : State} (s : State) (h_s : Keeps a_ s) : Keeps a_ (State.emit s) := by
  unfold State.emit
  repeat' (first | with_reducible assumption | (extract_lets +onlyGivenNames x_; clear_value x_) | with_reducible apply keeps_modTb | with_reducible apply Keeps.ite)

theorem keeps_execEmit {a_ : State} (s : State) (h_s : Keeps a_ s) : KeepsOut a_ (execEmit s) := by
  unfold execEmit
  repeat' (first | with_reducible apply KeepsOut.next | with_reducible apply KeepsOut.fault | with_reducible assumption | (with_reducible intro _; intros) | with_reducible apply keeps_hostStrobe | with_reducible apply keeps_emit)

theorem keeps_execSyncoutPeriodic {a_ : State} (s : State) (h_s : Keeps a_ s) : KeepsOut a_ (execSyncoutPeriodic s) := by
  unfold execSyncoutPeriodic
  repeat' (first | with_reducible apply KeepsOut.next | with_reducible apply KeepsOut.fault | with_reducible assumption | with_reducible apply keeps_syncoutDue)

theorem keeps_calDeposit {a_ : State} (s : State) (o : Fin 16) (h_s : Keeps a_ s) : Keeps a_ (State.calDeposit s o) := by
  unfold State.calDeposit
  repeat' (first | with_reducible assumption | with_reducible apply keeps_calAbandon | with_reducible apply Keeps.ite)

theorem keeps_calPortBoundary {a_ : State} (s : State) (p : Fin 4) (h_s : Keeps a_ s) : Keeps a_ (State.calPortBoundary s p) := by
  unfold State.calPortBoundary
  repeat' (first | with_reducible assumption | with_reducible apply keeps_calApply | with_reducible apply Keeps.ite)

theorem keeps_calTrigBoundary {a_ : State} (s : State) (h_s : Keeps a_ s) : Keeps a_ (State.calTrigBoundary s) := by
  unfold State.calTrigBoundary
  repeat' (first | with_reducible assumption | with_reducible apply keeps_calApply | with_reducible apply Keeps.ite)

theorem keeps_calQuality {a_ : State} (s : State) (u : Fin 36) (q : List ℕ) (h_s : Keeps a_ s) : Keeps a_ (State.calQuality s u q) := by
  unfold State.calQuality
  repeat' (first | with_reducible assumption | (with_reducible intro _; intros) | with_reducible apply keeps_set | with_reducible apply keeps_foldl | with_reducible apply Keeps.ite)

theorem keeps_calTemp {a_ : State} (s : State) (t : ℤ) (h_s : Keeps a_ s) : Keeps a_ (State.calTemp s t) := by
  unfold State.calTemp
  repeat' (first | with_reducible assumption | (with_reducible intro _; intros) | (extract_lets +onlyGivenNames x_; refine Keeps.cut x_ ?_ (fun hx_ => ?_); (on_goal 1 => (unfold x_; clear x_)); (on_goal 2 => clear_value x_)) | with_reducible apply keeps_modCal | with_reducible apply keeps_calDue | with_reducible apply keeps_foldl | with_reducible apply Keeps.ite)

theorem keeps_calCmd {a_ : State} (s : State) (u : Fin 64) (h_s : Keeps a_ s) : Keeps a_ (State.calCmd s u) := by
  unfold State.calCmd
  repeat' (first | with_reducible assumption | (with_reducible intro _; intros) | with_reducible apply keeps_calDue | with_reducible apply keeps_foldl | with_reducible apply Keeps.ite | split)

theorem keeps_execCalCmd {a_ : State} (u : Fin 64) (s : State) (h_s : Keeps a_ s) : KeepsOut a_ (execCalCmd u s) := by
  unfold execCalCmd
  repeat' (first | with_reducible apply KeepsOut.next | with_reducible apply KeepsOut.fault | with_reducible assumption | (with_reducible intro _; intros) | with_reducible apply keeps_toField | with_reducible apply keeps_calCmd)

theorem keeps_execCalIntervalExpiry {a_ : State} (u : Fin 36) (s : State) (h_s : Keeps a_ s) : KeepsOut a_ (execCalIntervalExpiry u s) := by
  unfold execCalIntervalExpiry
  repeat' (first | with_reducible apply KeepsOut.next | with_reducible assumption | with_reducible apply keeps_calDue | with_reducible apply Keeps.ite)

theorem keeps_execCalRunStart {a_ : State} (s : State) (h_s : Keeps a_ s) : KeepsOut a_ (execCalRunStart s) := by
  unfold execCalRunStart
  repeat' (first | with_reducible apply KeepsOut.next | with_reducible assumption | with_reducible apply keeps_modCal | with_reducible apply keeps_modCalUnit | with_reducible apply keeps_set | with_reducible apply keeps_modSlice | with_reducible apply keeps_calHold | with_reducible apply keeps_showDue | split)

theorem keeps_execCalAttemptEnd {a_ : State} (m : TrimSets) (quals : List ℕ) (s : State) (h_s : Keeps a_ s) : KeepsOut a_ (execCalAttemptEnd m quals s) := by
  unfold execCalAttemptEnd
  repeat' (first | with_reducible apply KeepsOut.next | with_reducible assumption | with_reducible apply keeps_modCalUnit | with_reducible apply keeps_count | with_reducible apply keeps_calFree | with_reducible apply keeps_calQuality | with_reducible apply keeps_calApply | with_reducible apply keeps_set | with_reducible apply keeps_defer | with_reducible apply keeps_calHeldCause | with_reducible apply keeps_calRest | with_reducible apply keeps_calHold | with_reducible apply keeps_modCal | with_reducible apply KeepsOut.ite | split)

theorem keeps_modGl {a_ : State} (s : State) (k : Fin 16) (f : Gleaner → Gleaner) (h_s : Keeps a_ s) : Keeps a_ (State.modGl s k f) := by
  unfold State.modGl
  repeat' (first | with_reducible assumption | with_reducible apply keeps_mk)

theorem keeps_setWptr {a_ : State} (s : State) (k : Fin 16) (r : Fin 3) (p : RgnAlloc) (h_s : Keeps a_ s) : Keeps a_ (State.setWptr s k r p) := by
  unfold State.setWptr
  repeat' (first | with_reducible assumption | with_reducible apply keeps_modGl | with_reducible apply keeps_set)

theorem keeps_writeView {a_ : State} (s : State) (k : ℕ) (a : ℕ) (bs : List Byte) (h_s : Keeps a_ s) : Keeps a_ (State.writeView s k a bs) := by
  unfold State.writeView
  repeat' (first | with_reducible assumption | with_reducible apply keeps_ddr)

theorem keeps_writeUnit {a_ : State} (s : State) (k : Fin 16) (r : Fin 3) (bs : List Byte) (h_s : Keeps a_ s) : Keeps a_ (State.writeUnit s k r bs).1 := by
  unfold State.writeUnit
  repeat' (first | with_reducible assumption | with_reducible apply keeps_setWptr | with_reducible apply keeps_writeView | with_reducible apply Keeps.ite_fst)

theorem keeps_noteLoss {a_ : State} (s : State) (k : Fin 16) (h_s : Keeps a_ s) : Keeps a_ (State.noteLoss s k) := by
  unfold State.noteLoss
  repeat' (first | with_reducible assumption | with_reducible apply keeps_noteCond)

theorem keeps_noteStale {a_ : State} (s : State) (k : Fin 16) (b : Bool) (h_s : Keeps a_ s) : Keeps a_ (State.noteStale s k b) := by
  unfold State.noteStale
  repeat' (first | with_reducible assumption | with_reducible apply keeps_noteCond | with_reducible apply Keeps.ite)

theorem keeps_closeUnit {a_ : State} (s : State) (k : Fin 16) (second : List Byte) (h_s : Keeps a_ s) : Keeps a_ (State.closeUnit s k second) := by
  unfold State.closeUnit
  repeat' (first | with_reducible assumption | with_reducible apply keeps_modGl | with_reducible apply keeps_writeUnit | split)

theorem keeps_failRecord {a_ : State} (s : State) (k : Fin 16) (rec : List Byte) (h_s : Keeps a_ s) : Keeps a_ (State.failRecord s k rec) := by
  unfold State.failRecord
  repeat' (first | with_reducible assumption | with_reducible apply keeps_closeUnit | with_reducible apply keeps_modGl | with_reducible apply keeps_noteLoss | with_reducible apply keeps_count | with_reducible apply Keeps.ite)

theorem keeps_formFail {a_ : State} (s : State) (k : Fin 16) (h_s : Keeps a_ s) : Keeps a_ (State.formFail s k) := by
  unfold State.formFail
  repeat' (first | with_reducible assumption | (with_reducible intro _; intros) | (extract_lets +onlyGivenNames x_; refine Keeps.cut x_ ?_ (fun hx_ => ?_); (on_goal 1 => (unfold x_; clear x_)); (on_goal 2 => clear_value x_)) | (extract_lets +onlyGivenNames x_; unfold x_; clear x_; beta_reduce) | with_reducible apply keeps_overSlices | with_reducible apply keeps_modSlice | with_reducible apply keeps_failRecord | with_reducible apply keeps_noteStale | with_reducible apply keeps_incSat | with_reducible apply keeps_staleMsg | with_reducible apply keeps_foldl | with_reducible apply Keeps.ite | split)

theorem keeps_pushFail {a_ : State} (s : State) (n : Fin 12) (e : FailEntry) (h_s : Keeps a_ s) : Keeps a_ (State.pushFail s n e) := by
  unfold State.pushFail
  repeat' (first | with_reducible assumption | with_reducible apply keeps_takeInject | with_reducible apply keeps_sramCe | with_reducible apply keeps_detect | with_reducible apply keeps_noteLoss | with_reducible apply keeps_modSlice | with_reducible apply keeps_count | with_reducible apply Keeps.ite)

theorem keeps_allocBlock {a_ : State} (s : State) (k : Fin 16) (u : ℕ) (n : ℕ) (h_s : Keeps a_ s) : Keeps a_ (State.allocBlock s k u n).1 := by
  unfold State.allocBlock
  repeat' (first | with_reducible assumption | with_reducible apply keeps_modGl | with_reducible apply Keeps.ite_fst)

theorem keeps_dropBlock {a_ : State} (s : State) (k : Fin 16) (u : ℕ) (a : ℕ) (h_s : Keeps a_ s) : Keeps a_ (State.dropBlock s k u a) := by
  unfold State.dropBlock
  repeat' (first | with_reducible assumption | with_reducible apply keeps_modGl)

theorem keeps_setHeader {a_ : State} (s : State) (k : Fin 16) (u : ℕ) (a : ℕ) (h : List Byte) (h_s : Keeps a_ s) : Keeps a_ (State.setHeader s k u a h) := by
  unfold State.setHeader
  repeat' (first | with_reducible assumption | with_reducible apply keeps_modGl)

theorem keeps_drainCaps {a_ : State} (s : State) (n : Fin 12) (h_s : Keeps a_ s) : Keeps a_ (State.drainCaps s n) := by
  unfold State.drainCaps
  repeat' (first | with_reducible assumption | (with_reducible intro _; intros) | (extract_lets +onlyGivenNames x_; refine Keeps.cut x_ ?_ (fun hx_ => ?_); (on_goal 1 => (unfold x_; clear x_)); (on_goal 2 => clear_value x_)) | (extract_lets +onlyGivenNames x_; clear_value x_) | with_reducible apply keeps_modSlice | with_reducible apply keeps_forInst | with_reducible apply keeps_writeView | with_reducible apply keeps_foldl)

theorem keeps_writeHeaders {a_ : State} (s : State) (k : Fin 16) (n : Nat) (h : Keeps a_ s) : Keeps a_ (s.writeHeaders k n) := by
  induction n generalizing s with
  | zero => exact h
  | succ n ih =>
    unfold State.writeHeaders
    split
    · exact h
    · split
      · exact h
      · exact Keeps.ite h (ih _ (keeps_setWptr _ _ _ _ (keeps_modGl _ _ _ (keeps_writeView _ _ _ _ h))))

theorem keeps_lineLost {a_ : State} (s : State) (l : List ℕ) (h_s : Keeps a_ s) : Keeps a_ (State.lineLost s l) := by
  unfold State.lineLost
  repeat' (first | with_reducible assumption | with_reducible apply Keeps.ite | with_reducible apply keeps_mk)

theorem keeps_writeLine {a_ : State} (s : State) (k : Fin 16) (h_s : Keeps a_ s) : Keeps a_ (State.writeLine s k) := by
  unfold State.writeLine
  repeat' (first | with_reducible assumption | (extract_lets +onlyGivenNames x_; refine Keeps.cut x_ ?_ (fun hx_ => ?_); (on_goal 1 => (unfold x_; clear x_)); (on_goal 2 => clear_value x_)) | (extract_lets +onlyGivenNames x_; refine Keeps.cut x_.1 ?_ (fun hx_ => ?_); (on_goal 1 => (unfold x_; clear x_)); (on_goal 2 => clear_value x_)) | (extract_lets +onlyGivenNames x_; clear_value x_) | with_reducible apply keeps_writeUnit | with_reducible apply keeps_modGl | with_reducible apply keeps_incSat | with_reducible apply keeps_lineLost | with_reducible apply keeps_noteLoss | with_reducible apply keeps_count | with_reducible apply Keeps.ite)

theorem keeps_openLine {a_ : State} (s : State) (k : Fin 16) (h_s : Keeps a_ s) : Keeps a_ (State.openLine s k) := by
  unfold State.openLine
  repeat' (first | with_reducible assumption | with_reducible apply keeps_writeLine | with_reducible apply keeps_modGl | with_reducible apply Keeps.ite)

theorem keeps_addEntries {a_ : State} (s : State) (k : Fin 16) (es : List ℕ) (h_s : Keeps a_ s) : Keeps a_ (State.addEntries s k es) := by
  unfold State.addEntries
  repeat' (first | with_reducible assumption | with_reducible apply keeps_openLine | with_reducible apply keeps_writeLine | with_reducible apply keeps_modGl | with_reducible apply Keeps.ite)

theorem keeps_modInput {a_ : State} (s : State) (i : Fin 112) (f : Input → Input) (h_s : Keeps a_ s) : Keeps a_ (State.modInput s i f) := by
  unfold State.modInput
  repeat' (first | with_reducible assumption | with_reducible apply keeps_mk)

theorem keeps_modMeas {a_ : State} (s : State) (u : Fin 16) (f : Meas → Meas) (h_s : Keeps a_ s) : Keeps a_ (State.modMeas s u f) := by
  unfold State.modMeas
  repeat' (first | with_reducible assumption | with_reducible apply keeps_mk)

theorem keeps_drainStamp {a_ : State} (s : State) (k : Fin 16) (i : Fin 112) (h_s : Keeps a_ s) : Keeps a_ (State.drainStamp s k i) := by
  unfold State.drainStamp
  repeat' (first | with_reducible assumption | (with_reducible intro _; intros) | (extract_lets +onlyGivenNames x_; refine Keeps.cut x_ ?_ (fun hx_ => ?_); (on_goal 1 => (unfold x_; clear x_)); (on_goal 2 => clear_value x_)) | (extract_lets +onlyGivenNames x_; refine Keeps.cut x_.2 ?_ (fun hx_ => ?_); (on_goal 1 => (unfold x_; clear x_)); (on_goal 2 => clear_value x_)) | (extract_lets +onlyGivenNames x_; clear_value x_) | with_reducible apply keeps_modInput | with_reducible apply keeps_takeInject | with_reducible apply keeps_sramCe | with_reducible apply keeps_count | with_reducible apply keeps_detect | with_reducible apply keeps_forInst | with_reducible apply keeps_noteStale | with_reducible apply keeps_addEntries | with_reducible apply Keeps.ite | with_reducible apply Keeps.ite_snd | split)

theorem keeps_drainResult {a_ : State} (s : State) (k : Fin 16) (u : Fin 16) (h_s : Keeps a_ s) : Keeps a_ (State.drainResult s k u) := by
  unfold State.drainResult
  repeat' (first | with_reducible assumption | (with_reducible intro _; intros) | with_reducible apply keeps_forInst | with_reducible apply keeps_modMeas | with_reducible apply keeps_addEntries | split)

theorem keeps_drainTurns {a_ : State} (s : State) (k : Fin 16) (n : Nat) (h : Keeps a_ s) : Keeps a_ (s.drainTurns k n) := by
  induction n generalizing s with
  | zero => exact h
  | succ n ih =>
    unfold State.drainTurns
    split
    · exact h
    · exact ih _ ((keeps_drainStamp _ _ _ h).other rfl rfl rfl rfl rfl rfl rfl)

theorem keeps_drainAll {a_ : State} (s : State) (k : Fin 16) (h_s : Keeps a_ s) : Keeps a_ (State.drainAll s k) := by
  unfold State.drainAll
  repeat' (first | with_reducible assumption | (with_reducible intro _; intros) | (extract_lets +onlyGivenNames x_; refine Keeps.cut x_ ?_ (fun hx_ => ?_); (on_goal 1 => (unfold x_; clear x_)); (on_goal 2 => clear_value x_)) | with_reducible apply keeps_drainTurns | with_reducible apply keeps_drainResult | with_reducible apply keeps_foldl | with_reducible apply Keeps.ite)

theorem keeps_rollover {a_ : State} (s : State) (k : Fin 16) (hi : ℕ) (h_s : Keeps a_ s) : Keeps a_ (State.rollover s k hi) := by
  unfold State.rollover
  repeat' (first | with_reducible assumption | with_reducible apply keeps_writeLine | with_reducible apply keeps_openLine | with_reducible apply keeps_drainAll | with_reducible apply keeps_modGl | with_reducible apply Keeps.ite)

theorem keeps_glSeqEnd {a_ : State} (s : State) (k : Fin 16) (h_s : Keeps a_ s) : Keeps a_ (State.glSeqEnd s k) := by
  unfold State.glSeqEnd
  repeat' (first | with_reducible assumption | with_reducible apply keeps_writeLine | with_reducible apply keeps_closeUnit)

theorem keeps_glSeqStart {a_ : State} (s : State) (k : Fin 16) (h_s : Keeps a_ s) : Keeps a_ (State.glSeqStart s k) := by
  unfold State.glSeqStart
  repeat' (first | with_reducible assumption | (with_reducible intro _; intros) | with_reducible apply keeps_set | with_reducible apply keeps_modGl | with_reducible apply keeps_putK | with_reducible apply keeps_foldl | with_reducible apply Keeps.ite)

theorem keeps_modBurst {a_ : State} (s : State) (k : Fin 16) (f : Burst → Burst) (h_s : Keeps a_ s) : Keeps a_ (State.modBurst s k f) := by
  unfold State.modBurst
  repeat' (first | with_reducible assumption | with_reducible apply keeps_modSess)

theorem keeps_modTally {a_ : State} (s : State) (k : Fin 16) (f : Tally → Tally) (h_s : Keeps a_ s) : Keeps a_ (State.modTally s k f) := by
  unfold State.modTally
  repeat' (first | with_reducible assumption | with_reducible apply keeps_modSess)

theorem keeps_feedHists {a_ : State} (s : State) (k : Fin 16) (u : Fin 16) (value : ℤ) (cycles : ℕ) (q : ℕ) (stale : Bool) (loss : Bool) (h_s : Keeps a_ s) : Keeps a_ (State.feedHists s k u value cycles q stale loss) := by
  unfold State.feedHists
  repeat' (first | with_reducible assumption | (with_reducible intro _; intros) | with_reducible apply keeps_modSess | with_reducible apply keeps_modBurst | with_reducible apply keeps_modTally | with_reducible apply keeps_foldl | with_reducible apply Keeps.ite)

theorem keeps_muResult {a_ : State} (s : State) (u : Fin 16) (tStart : ℤ) (value : ℤ) (cycles : ℕ) (h_s : Keeps a_ s) : Keeps a_ (State.muResult s u tStart value cycles) := by
  unfold State.muResult
  repeat' (first | with_reducible assumption | (extract_lets +onlyGivenNames x_; refine Keeps.cut x_ ?_ (fun hx_ => ?_); (on_goal 1 => (unfold x_; clear x_)); (on_goal 2 => clear_value x_)) | (extract_lets +onlyGivenNames x_; clear_value x_) | with_reducible apply keeps_modMeas | with_reducible apply keeps_incSat | with_reducible apply keeps_noteStale | with_reducible apply keeps_noteLoss | with_reducible apply keeps_feedHists | split)

theorem keeps_muMeasure {a_ : State} (s : State) (u : Fin 16) (x : Stamp) (y : Stamp) (value : ℤ) (h_s : Keeps a_ s) : Keeps a_ (State.muMeasure s u x y value) := by
  unfold State.muMeasure
  repeat' (first | with_reducible assumption | with_reducible apply keeps_modMeas | with_reducible apply keeps_muResult | with_reducible apply Keeps.ite)

theorem keeps_muEdgeA {a_ : State} (s : State) (u : Fin 16) (x : Stamp) (h_s : Keeps a_ s) : Keeps a_ (State.muEdgeA s u x) := by
  unfold State.muEdgeA
  repeat' (first | with_reducible assumption | (extract_lets +onlyGivenNames x_; refine Keeps.cut x_ ?_ (fun hx_ => ?_); (on_goal 1 => (unfold x_; clear x_)); (on_goal 2 => clear_value x_)) | with_reducible apply keeps_incSat | with_reducible apply keeps_modMeas | with_reducible apply keeps_muMeasure | with_reducible apply Keeps.ite | split)

theorem keeps_muEdgeB {a_ : State} (s : State) (u : Fin 16) (x : Stamp) (h_s : Keeps a_ s) : Keeps a_ (State.muEdgeB s u x) := by
  unfold State.muEdgeB
  repeat' (first | with_reducible assumption | with_reducible apply keeps_muMeasure | with_reducible apply keeps_modMeas | with_reducible apply keeps_incSat | with_reducible apply Keeps.ite | split)

theorem keeps_muStamp {a_ : State} (s : State) (u : Fin 16) (isB : Bool) (x : Stamp) (h_s : Keeps a_ s) : Keeps a_ (State.muStamp s u isB x) := by
  unfold State.muStamp
  repeat' (first | with_reducible assumption | with_reducible apply keeps_muEdgeB | with_reducible apply keeps_muEdgeA | split)

theorem keeps_muMeets {a_ : State} (s : State) (u : Fin 16) (q : MuIn) (h_s : Keeps a_ s) : Keeps a_ (State.muMeets s u q) := by
  unfold State.muMeets
  repeat' (first | with_reducible assumption | with_reducible apply keeps_modMeas | with_reducible apply keeps_muStamp | split)

theorem keeps_muQueue {a_ : State} (s : State) (u : Fin 16) (i : ℕ) (isLoss : Bool) (x : Stamp) (h_s : Keeps a_ s) : Keeps a_ (State.muQueue s u i isLoss x) := by
  unfold State.muQueue
  repeat' (first | with_reducible assumption | with_reducible apply keeps_modMeas | with_reducible apply Keeps.ite)

theorem keeps_muJudge {a_ : State} (s : State) (u : Fin 16) (t : ℕ) (h_s : Keeps a_ s) : Keeps a_ (State.muJudge s u t) := by
  unfold State.muJudge
  repeat' (first | with_reducible assumption | (with_reducible intro _; intros) | with_reducible apply keeps_modMeas | with_reducible apply keeps_muMeets | with_reducible apply keeps_foldl)

theorem keeps_muOpen {a_ : State} (s : State) (u : Fin 16) (t : ℕ) (h_s : Keeps a_ s) : Keeps a_ (State.muOpen s u t) := by
  unfold State.muOpen
  repeat' (first | with_reducible assumption | with_reducible apply keeps_modMeas)

theorem keeps_muEnd {a_ : State} (s : State) (u : Fin 16) (g : ℕ) (h_s : Keeps a_ s) : Keeps a_ (State.muEnd s u g) := by
  unfold State.muEnd
  repeat' (first | with_reducible assumption | (extract_lets +onlyGivenNames x_; refine Keeps.cut x_ ?_ (fun hx_ => ?_); (on_goal 1 => (unfold x_; clear x_)); (on_goal 2 => clear_value x_)) | with_reducible apply keeps_muResult | with_reducible apply keeps_incSat | with_reducible apply keeps_modMeas | split)

theorem keeps_muClose {a_ : State} (s : State) (u : Fin 16) (t : ℕ) (h_s : Keeps a_ s) : Keeps a_ (State.muClose s u t) := by
  unfold State.muClose
  repeat' (first | with_reducible assumption | with_reducible apply keeps_muJudge | with_reducible apply keeps_modMeas | with_reducible apply keeps_muEnd | split)

theorem keeps_muBefore {a_ : State} (s : State) (vals : List (ℕ × Word)) (h_s : Keeps a_ s) : Keeps a_ (State.muBefore s vals) := by
  unfold State.muBefore
  repeat' (first | with_reducible assumption | (with_reducible intro _; intros) | (extract_lets +onlyGivenNames x_; refine Keeps.cut x_ ?_ (fun hx_ => ?_); (on_goal 1 => (unfold x_; clear x_)); (on_goal 2 => clear_value x_)) | (extract_lets +onlyGivenNames x_; unfold x_; clear x_; beta_reduce) | with_reducible apply keeps_muJudge | with_reducible apply keeps_muEnd | with_reducible apply keeps_foldl | with_reducible apply Keeps.ite | split)

theorem keeps_muAlways {a_ : State} (s : State) (u : Fin 16) (wasAlways : Bool) (h_s : Keeps a_ s) : Keeps a_ (State.muAlways s u wasAlways) := by
  unfold State.muAlways
  repeat' (first | with_reducible assumption | with_reducible apply keeps_muOpen | with_reducible apply keeps_muClose | with_reducible apply Keeps.ite)

theorem keeps_sampleGates {a_ : State} (s : State) (h_s : Keeps a_ s) : Keeps a_ (State.sampleGates s) := by
  unfold State.sampleGates
  repeat' (first | with_reducible assumption | (with_reducible intro _; intros) | with_reducible apply keeps_modMeas | with_reducible apply keeps_foldl)

theorem keeps_muGate {a_ : State} (s : State) (u : Fin 16) (t : ℕ) (h_s : Keeps a_ s) : Keeps a_ (State.muGate s u t) := by
  unfold State.muGate
  repeat' (first | with_reducible assumption | with_reducible apply keeps_muOpen | with_reducible apply keeps_muClose | with_reducible apply Keeps.ite)

theorem keeps_restMeas {a_ : State} (s : State) (h_s : Keeps a_ s) : Keeps a_ (State.restMeas s) := by
  unfold State.restMeas
  repeat' (first | with_reducible assumption | (with_reducible intro _; intros) | (extract_lets +onlyGivenNames x_; refine Keeps.cut x_ ?_ (fun hx_ => ?_); (on_goal 1 => (unfold x_; clear x_)); (on_goal 2 => clear_value x_)) | (extract_lets +onlyGivenNames x_; clear_value x_) | with_reducible apply keeps_muJudge | with_reducible apply keeps_muGate | with_reducible apply keeps_modMeas | with_reducible apply keeps_foldl | with_reducible apply Keeps.ite)

theorem keeps_measBeforeLoad {a_ : State} (s : State) (h_s : Keeps a_ s) : Keeps a_ (State.measBeforeLoad s) := by
  unfold State.measBeforeLoad
  repeat' (first | with_reducible assumption | (with_reducible intro _; intros) | with_reducible apply keeps_muJudge | with_reducible apply keeps_muGate | with_reducible apply keeps_foldl)

theorem keeps_modMask {a_ : State} (s : State) (m : Fin 16) (f : Mask → Mask) (h_s : Keeps a_ s) : Keeps a_ (State.modMask s m f) := by
  unfold State.modMask
  repeat' (first | with_reducible assumption | with_reducible apply keeps_mk)

theorem keeps_maskA {a_ : State} (s : State) (m : Fin 16) (x : Stamp) (h_s : Keeps a_ s) : Keeps a_ (State.maskA s m x) := by
  unfold State.maskA
  repeat' (first | with_reducible assumption | with_reducible apply keeps_modMask | with_reducible apply Keeps.ite)

theorem keeps_maskB {a_ : State} (s : State) (m : Fin 16) (x : Stamp) (h_s : Keeps a_ s) : Keeps a_ (State.maskB s m x) := by
  unfold State.maskB
  repeat' (first | with_reducible assumption | with_reducible apply keeps_modMask)

theorem keeps_maskStamp {a_ : State} (s : State) (m : Fin 16) (i : ℕ) (x : Stamp) (h_s : Keeps a_ s) : Keeps a_ (State.maskStamp s m i x) := by
  unfold State.maskStamp
  repeat' (first | with_reducible assumption | with_reducible apply keeps_maskB | with_reducible apply keeps_maskA | with_reducible apply Keeps.ite)

theorem keeps_maskLost {a_ : State} (s : State) (m : Fin 16) (i : ℕ) (t : ℕ) (h_s : Keeps a_ s) : Keeps a_ (State.maskLost s m i t) := by
  unfold State.maskLost
  repeat' (first | with_reducible assumption | with_reducible apply keeps_modMask | with_reducible apply Keeps.ite)

theorem keeps_tallyJudge {a_ : State} (s : State) (k : Fin 16) (m : Fin 16) (viol : Bool) (stale : Bool) (h_s : Keeps a_ s) : Keeps a_ (State.tallyJudge s k m viol stale) := by
  unfold State.tallyJudge
  repeat' (first | with_reducible assumption | with_reducible apply keeps_modBurst | with_reducible apply keeps_modTally | with_reducible apply Keeps.ite)

theorem keeps_violation {a_ : State} (s : State) (m : Fin 16) (tRef : ℕ) (tA : ℕ) (offset : ℤ) (cause : ℕ) (q : ℕ) (stale : Bool) (h_s : Keeps a_ s) : Keeps a_ (State.violation s m tRef tA offset cause q stale) := by
  unfold State.violation
  repeat' (first | with_reducible assumption | (extract_lets +onlyGivenNames x_; refine Keeps.cut x_ ?_ (fun hx_ => ?_); (on_goal 1 => (unfold x_; clear x_)); (on_goal 2 => clear_value x_)) | (extract_lets +onlyGivenNames x_; clear_value x_) | with_reducible apply keeps_incSat | with_reducible apply keeps_modGl | with_reducible apply keeps_noteStale | with_reducible apply keeps_noteCond | with_reducible apply keeps_sticky | with_reducible apply keeps_tallyJudge | with_reducible apply keeps_haltUnits | with_reducible apply keeps_endSeq | with_reducible apply Keeps.ite | split)

theorem keeps_judgeWin {a_ : State} (s : State) (m : Fin 16) (w : MaskWin) (h_s : Keeps a_ s) : Keeps a_ (State.judgeWin s m w) := by
  unfold State.judgeWin
  repeat' (first | with_reducible assumption | (with_reducible intro _; intros) | (extract_lets +onlyGivenNames x_; unfold x_; clear x_; beta_reduce) | with_reducible apply keeps_violation | with_reducible apply keeps_incSat | with_reducible apply keeps_noteStale | with_reducible apply keeps_tallyJudge | with_reducible apply keeps_foldl | split)

theorem keeps_stampLost {a_ : State} (s : State) (i : Fin 112) (t : ℕ) (h_s : Keeps a_ s) : Keeps a_ (State.stampLost s i t) := by
  unfold State.stampLost
  repeat' (first | with_reducible assumption | (with_reducible intro _; intros) | (extract_lets +onlyGivenNames x_; refine Keeps.cut x_ ?_ (fun hx_ => ?_); (on_goal 1 => (unfold x_; clear x_)); (on_goal 2 => clear_value x_)) | with_reducible apply keeps_modInput | with_reducible apply keeps_muQueue | with_reducible apply keeps_maskLost | with_reducible apply keeps_noteLoss | with_reducible apply keeps_foldl | split)

theorem keeps_crossInput {a_ : State} (s : State) (i : Fin 112) (t : ℕ) (vp : ℤ) (vn : ℤ) (h_s : Keeps a_ s) : Keeps a_ (State.crossInput s i t vp vn).1 := by
  unfold State.crossInput
  repeat' (first | with_reducible assumption | with_reducible apply keeps_laneVolts | with_reducible apply keeps_noteRises | with_reducible apply keeps_modHr | with_reducible apply Keeps.ite_fst | split)

theorem keeps_takeStamp {a_ : State} (s : State) (i : Fin 112) (x : Stamp) (h_s : Keeps a_ s) : Keeps a_ (State.takeStamp s i x) := by
  unfold State.takeStamp
  repeat' (first | with_reducible assumption | (with_reducible intro _; intros) | with_reducible apply keeps_modInput | with_reducible apply keeps_maskStamp | with_reducible apply keeps_muQueue | with_reducible apply keeps_foldl)

theorem keeps_execStampEdge {a_ : State} (i : Fin 112) (t : ℕ) (v : BallVolts) (s : State) (h_s : Keeps a_ s) : KeepsOut a_ (execStampEdge i t v s) := by
  unfold execStampEdge
  repeat' (first | with_reducible apply KeepsOut.next | with_reducible apply KeepsOut.fault | with_reducible assumption | (extract_lets +onlyGivenNames x_; refine Keeps.cut x_ ?_ (fun hx_ => ?_); (on_goal 1 => (unfold x_; clear x_)); (on_goal 2 => clear_value x_)) | (extract_lets +onlyGivenNames x_; refine KeepsOut.cut x_ ?_ (fun hx_ => ?_); (on_goal 1 => (unfold x_; clear x_)); (on_goal 2 => clear_value x_)) | (extract_lets +onlyGivenNames x_; refine KeepsOut.cut x_.1 ?_ (fun hx_ => ?_); (on_goal 1 => (unfold x_; clear x_)); (on_goal 2 => clear_value x_)) | (extract_lets +onlyGivenNames x_; clear_value x_) | with_reducible apply keeps_crossInput | with_reducible apply keeps_stampLost | with_reducible apply keeps_count | with_reducible apply keeps_modInput | with_reducible apply keeps_takeStamp | with_reducible apply Keeps.ite | with_reducible apply KeepsOut.ite | with_reducible apply Keeps.ite_fst | split)

theorem keeps_execMaskWindowJudge {a_ : State} (m : Fin 16) (s : State) (h_s : Keeps a_ s) : KeepsOut a_ (execMaskWindowJudge m s) := by
  unfold execMaskWindowJudge
  repeat' (first | with_reducible apply KeepsOut.next | with_reducible assumption | with_reducible apply keeps_modMask | with_reducible apply keeps_judgeWin | split)

theorem keeps_execStrayJudge {a_ : State} (m : Fin 16) (s : State) (h_s : Keeps a_ s) : KeepsOut a_ (execStrayJudge m s) := by
  unfold execStrayJudge
  repeat' (first | with_reducible apply KeepsOut.next | with_reducible assumption | with_reducible apply keeps_modMask | with_reducible apply keeps_violation | split)

theorem keeps_execMuGateOpen {a_ : State} (u : Fin 16) (s : State) (h_s : Keeps a_ s) : KeepsOut a_ (execMuGateOpen u s) := by
  unfold execMuGateOpen
  repeat' (first | with_reducible apply KeepsOut.next | with_reducible assumption | with_reducible apply keeps_muGate | with_reducible apply Keeps.ite)

theorem keeps_execMuGateClose {a_ : State} (u : Fin 16) (s : State) (h_s : Keeps a_ s) : KeepsOut a_ (execMuGateClose u s) := by
  unfold execMuGateClose
  repeat' (first | with_reducible apply KeepsOut.next | with_reducible assumption | with_reducible apply keeps_muGate | with_reducible apply Keeps.ite)

theorem keeps_aoRangeStart {a_ : State} (s : State) (o : Fin 16) (h_s : Keeps a_ s) : Keeps a_ (State.aoRangeStart s o) := by
  unfold State.aoRangeStart
  repeat' (first | with_reducible assumption | with_reducible apply keeps_modAo | with_reducible apply keeps_set)

theorem keeps_rgnReset {a_ : State} (s : State) (k : Fin 16) (r : Fin 3) (h_s : Keeps a_ s) : Keeps a_ (State.rgnReset s k r) := by
  unfold State.rgnReset
  repeat' (first | with_reducible assumption | with_reducible apply keeps_set | with_reducible apply keeps_modGl)

theorem keeps_cellReset {a_ : State} (s : State) (c : Fin 64) (h_s : Keeps a_ s) : Keeps a_ (State.cellReset s c) := by
  unfold State.cellReset
  repeat' (first | with_reducible assumption | with_reducible apply keeps_modHr)

theorem keeps_laneModeChange {a_ : State} (s : State) (n : Fin 12) (l : Fin 8) (h_s : Keeps a_ s) : Keeps a_ (State.laneModeChange s n l) := by
  unfold State.laneModeChange
  repeat' (first | with_reducible assumption | with_reducible apply keeps_strobeSync | with_reducible apply keeps_keepLanes | with_reducible apply keeps_modLane)

theorem keeps_rejudgeBanks {a_ : State} (s : State) (h_s : Keeps a_ s) : Keeps a_ (State.rejudgeBanks s) := by
  unfold State.rejudgeBanks
  repeat' (first | with_reducible assumption | (with_reducible intro _; intros) | with_reducible apply keeps_setBank | with_reducible apply keeps_foldl | with_reducible apply Keeps.ite)

theorem keeps_reflexCommit {a_ : State} (s0 : State) (s : State) (n : Fin 12) (l : Fin 8) (h_s0 : Keeps a_ s0) (h_s : Keeps a_ s) : Keeps a_ (State.reflexCommit s0 s n l) := by
  unfold State.reflexCommit
  repeat' (first | with_reducible assumption | with_reducible apply keeps_forceLane | with_reducible apply keeps_strobeSync | with_reducible apply keeps_driveAlt | with_reducible apply keeps_unforceLane | with_reducible apply Keeps.ite)

theorem keeps_portMode {a_ : State} (s : State) (p : Fin 4) (h_s : Keeps a_ s) : Keeps a_ (State.portMode s p) := by
  unfold State.portMode
  repeat' (first | with_reducible assumption | (extract_lets +onlyGivenNames x_; refine Keeps.cut x_ ?_ (fun hx_ => ?_); (on_goal 1 => (unfold x_; clear x_)); (on_goal 2 => clear_value x_)) | with_reducible apply keeps_modPort | with_reducible apply keeps_set)

theorem keeps_emptyPages {a_ : State} (s : State) (k : Fin 16) (h_s : Keeps a_ s) : Keeps a_ (State.emptyPages s k) := by
  unfold State.emptyPages
  repeat' (first | with_reducible assumption | with_reducible apply keeps_modSess)

theorem keeps_activeChanged {a_ : State} (s0 : State) (s : State) (k : ℕ) (h_s0 : Keeps a_ s0) (h_s : Keeps a_ s) : Keeps a_ (State.activeChanged s0 s k) := by
  unfold State.activeChanged
  repeat' (first | with_reducible assumption | (extract_lets +onlyGivenNames x_; refine Keeps.cut x_ ?_ (fun hx_ => ?_); (on_goal 1 => (unfold x_; clear x_)); (on_goal 2 => clear_value x_)) | (extract_lets +onlyGivenNames x_; unfold x_; clear x_; beta_reduce) | with_reducible apply keeps_fwReload | with_reducible apply keeps_fwLoadFrom | with_reducible apply keeps_newThs | with_reducible apply keeps_laneModeChange | with_reducible apply keeps_calDue | with_reducible apply keeps_reflexCommit | with_reducible apply keeps_strobeSync | with_reducible apply keeps_keepLanes | with_reducible apply keeps_rejudgeBanks | with_reducible apply keeps_aoRangeStart | with_reducible apply keeps_modAo | with_reducible apply keeps_emptyPages | with_reducible apply keeps_rgnReset | with_reducible apply keeps_modGl | with_reducible apply keeps_cellReset | with_reducible apply keeps_groupCommitted | with_reducible apply keeps_reacquire | with_reducible apply keeps_portMode | with_reducible apply keeps_modMeas | with_reducible apply keeps_muAlways | with_reducible apply Keeps.ite | split)

theorem keeps_copyVals {a_ : State} (s : State) (vals : List (ℕ × Word)) (h_s : Keeps a_ s) : Keeps a_ (State.copyVals s vals) := by
  unfold State.copyVals
  repeat' (first | with_reducible assumption | (with_reducible intro _; intros) | (extract_lets +onlyGivenNames x_; refine Keeps.cut x_ ?_ (fun hx_ => ?_); (on_goal 1 => (unfold x_; clear x_)); (on_goal 2 => clear_value x_)) | (extract_lets +onlyGivenNames x_; clear_value x_) | with_reducible apply keeps_muBefore | with_reducible apply keeps_overOutputs | with_reducible apply keeps_aoCatch | with_reducible apply keeps_putActive | with_reducible apply keeps_activeChanged | with_reducible apply keeps_foldl)

theorem keeps_sliceCommitted {a_ : State} (s : State) (n : Fin 12) (h_s : Keeps a_ s) : Keeps a_ (State.sliceCommitted s n) := by
  unfold State.sliceCommitted
  repeat' (first | with_reducible assumption | (with_reducible intro _; intros) | (extract_lets +onlyGivenNames x_; refine Keeps.cut x_ ?_ (fun hx_ => ?_); (on_goal 1 => (unfold x_; clear x_)); (on_goal 2 => clear_value x_)) | with_reducible apply keeps_modSlice | with_reducible apply keeps_strobeSync | with_reducible apply keeps_overLanes | with_reducible apply keeps_driveAlt | with_reducible apply keeps_forceLane | with_reducible apply Keeps.ite)

theorem keeps_outputCommitted {a_ : State} (s : State) (o : Fin 16) (h_s : Keeps a_ s) : Keeps a_ (State.outputCommitted s o) := by
  unfold State.outputCommitted
  repeat' (first | with_reducible assumption | with_reducible apply keeps_modAo)

theorem keeps_unitsCommitted {a_ : State} (s : State) (slices : ℕ → Bool) (outs : ℕ → Bool) (h_s : Keeps a_ s) : Keeps a_ (State.unitsCommitted s slices outs) := by
  unfold State.unitsCommitted
  repeat' (first | with_reducible assumption | (with_reducible intro _; intros) | with_reducible apply keeps_overSlices | with_reducible apply keeps_sliceCommitted | with_reducible apply keeps_overOutputs | with_reducible apply keeps_outputCommitted | with_reducible apply Keeps.ite)

theorem keeps_takePend {a_ : State} (s : State) (scope : ℕ) (unit_ : ℕ) (h_s : Keeps a_ s) : Keeps a_ (State.takePend s scope unit_) := by
  unfold State.takePend
  repeat' (first | with_reducible assumption | with_reducible apply keeps_modCommit | with_reducible apply keeps_unitsCommitted | with_reducible apply keeps_copyVals | with_reducible apply keeps_showPending | with_reducible apply keeps_reportCommit | split)

end Sys2Proof.Machine
end

