-- ==== Sys2Proof/Laws/KeepsPlay.lean ====
section
/-! SUPPORT. What the operations of the machine keep: the triggers, the playing of slices and outputs, pages, cores and spares. -/

namespace Sys2Proof.Machine

theorem keeps_modTrig {a_ : State} (s : State) (u : Fin 8) (f : Trig → Trig) (h_s : Keeps a_ s) : Keeps a_ (State.modTrig s u f) := by
  unfold State.modTrig
  repeat' (first | with_reducible assumption | with_reducible apply keeps_mk)

theorem keeps_setTg {a_ : State} (s : State) (u : Fin 8) (st : ℕ) (h_s : Keeps a_ s) : Keeps a_ (State.setTg s u st) := by
  unfold State.setTg
  repeat' (first | with_reducible assumption | with_reducible apply keeps_set)

theorem keeps_sampleTrigger {a_ : State} (s : State) (u : Fin 8) (h_s : Keeps a_ s) : Keeps a_ (State.sampleTrigger s u) := by
  unfold State.sampleTrigger
  repeat' (first | with_reducible assumption | with_reducible apply keeps_modTrig | with_reducible apply Keeps.ite)

theorem keeps_giveHeader {a_ : State} (s : State) (u : Fin 8) (dead : Option ℕ) (h_s : Keeps a_ s) : Keeps a_ (State.giveHeader s u dead) := by
  unfold State.giveHeader
  repeat' (first | with_reducible assumption | (extract_lets +onlyGivenNames x_; refine Keeps.cut x_ ?_ (fun hx_ => ?_); (on_goal 1 => (unfold x_; clear x_)); (on_goal 2 => clear_value x_)) | with_reducible apply keeps_modTrig | with_reducible apply keeps_noteStale | with_reducible apply keeps_setHeader | split)

theorem keeps_ignoreFire {a_ : State} (s : State) (u : Fin 8) (h_s : Keeps a_ s) : Keeps a_ (State.ignoreFire s u) := by
  unfold State.ignoreFire
  repeat' (first | with_reducible assumption | (extract_lets +onlyGivenNames x_; refine Keeps.cut x_ ?_ (fun hx_ => ?_); (on_goal 1 => (unfold x_; clear x_)); (on_goal 2 => clear_value x_)) | with_reducible apply keeps_modTrig | with_reducible apply keeps_count | with_reducible apply keeps_modTally | split)

theorem keeps_burstDead {a_ : State} (s : State) (k : Fin 16) (t : ℕ) (h_s : Keeps a_ s) : Keeps a_ (State.burstDead s k t) := by
  unfold State.burstDead
  repeat' (first | with_reducible assumption | with_reducible apply keeps_modTally | with_reducible apply keeps_hostWrite | with_reducible apply keeps_modBurst | split)

theorem keeps_enterReady {a_ : State} (s : State) (u : Fin 8) (t : ℕ) (h_s : Keeps a_ s) : Keeps a_ (State.enterReady s u t) := by
  unfold State.enterReady
  repeat' (first | with_reducible assumption | (extract_lets +onlyGivenNames x_; refine Keeps.cut x_ ?_ (fun hx_ => ?_); (on_goal 1 => (unfold x_; clear x_)); (on_goal 2 => clear_value x_)) | (extract_lets +onlyGivenNames x_; clear_value x_) | with_reducible apply keeps_defer | with_reducible apply keeps_setTg | with_reducible apply keeps_set | with_reducible apply keeps_giveHeader | with_reducible apply keeps_modTrig | with_reducible apply keeps_burstDead | with_reducible apply keeps_modBurst | split)

theorem keeps_slotStart {a_ : State} (s : State) (u : Fin 8) (t : ℕ) (v : ℕ) (h_s : Keeps a_ s) : Keeps a_ (State.slotStart s u t v) := by
  unfold State.slotStart
  repeat' (first | with_reducible assumption | with_reducible apply keeps_modTrig | with_reducible apply Keeps.ite)

theorem keeps_countPeriod {a_ : State} (s : State) (u : Fin 8) (t : ℕ) (h_s : Keeps a_ s) : Keeps a_ (State.countPeriod s u t) := by
  unfold State.countPeriod
  repeat' (first | with_reducible assumption | (extract_lets +onlyGivenNames x_; clear_value x_) | with_reducible apply keeps_slotStart | split)

theorem keeps_enterFilling {a_ : State} (s : State) (u : Fin 8) (t : Nat) (h : Keeps a_ s) : Keeps a_ (s.enterFilling u t) := by
  have g := keeps_setTg _ u 1 (keeps_takePend s 5 u h)
  unfold State.enterFilling
  extract_lets holds x w r q y
  have hr : Keeps a_ r.1 := by
    unfold r
    split
    · exact keeps_allocBlock _ _ _ _ g
    · exact g
  have hy : Keeps a_ y := keeps_countPeriod _ _ _ (keeps_modTrig _ _ _ hr)
  exact Keeps.ite (keeps_enterReady _ _ _ hy) (Keeps.ite (keeps_ignoreFire _ _ hy) hy)

theorem keeps_armNow {a_ : State} (s : State) (u : Fin 8) (t : ℕ) (h_s : Keeps a_ s) : Keeps a_ (State.armNow s u t) := by
  unfold State.armNow
  repeat' (first | with_reducible assumption | (extract_lets +onlyGivenNames x_; refine Keeps.cut x_ ?_ (fun hx_ => ?_); (on_goal 1 => (unfold x_; clear x_)); (on_goal 2 => clear_value x_)) | (extract_lets +onlyGivenNames x_; clear_value x_) | with_reducible apply keeps_modTrig | with_reducible apply keeps_set | with_reducible apply keeps_enterFilling | with_reducible apply Keeps.ite)

theorem keeps_closeCap {a_ : State} (s : State) (u : Fin 8) (f : Capture → Capture) (h_s : Keeps a_ s) : Keeps a_ (State.closeCap s u f) := by
  unfold State.closeCap
  repeat' (first | with_reducible assumption | with_reducible apply keeps_modTrig)

theorem keeps_postEnd {a_ : State} (s : State) (u : Fin 8) (t : ℕ) (wait : Bool) (h_s : Keeps a_ s) : Keeps a_ (State.postEnd s u t wait) := by
  unfold State.postEnd
  repeat' (first | with_reducible assumption | (extract_lets +onlyGivenNames x_; refine Keeps.cut x_ ?_ (fun hx_ => ?_); (on_goal 1 => (unfold x_; clear x_)); (on_goal 2 => clear_value x_)) | (extract_lets +onlyGivenNames x_; clear_value x_) | with_reducible apply keeps_closeCap | with_reducible apply keeps_defer | with_reducible apply keeps_set | with_reducible apply keeps_enterFilling | with_reducible apply keeps_modTrig | with_reducible apply keeps_ignoreFire | with_reducible apply keeps_setTg | with_reducible apply keeps_giveHeader | with_reducible apply Keeps.ite)

theorem keeps_trigger {a_ : State} (s : State) (u : Fin 8) (t : ℕ) (h_s : Keeps a_ s) : Keeps a_ (State.trigger s u t) := by
  unfold State.trigger
  repeat' (first | with_reducible assumption | (extract_lets +onlyGivenNames x_; refine Keeps.cut x_ ?_ (fun hx_ => ?_); (on_goal 1 => (unfold x_; clear x_)); (on_goal 2 => clear_value x_)) | (extract_lets +onlyGivenNames x_; clear_value x_) | with_reducible apply keeps_giveHeader | with_reducible apply keeps_defer | with_reducible apply keeps_count | with_reducible apply keeps_setTg | with_reducible apply keeps_modTrig | with_reducible apply keeps_noteLoss | with_reducible apply keeps_modBurst | with_reducible apply keeps_postEnd | with_reducible apply Keeps.ite | split)

theorem keeps_stopTrigger {a_ : State} (s : State) (u : Fin 8) (keep : Bool) (h_s : Keeps a_ s) : Keeps a_ (State.stopTrigger s u keep) := by
  unfold State.stopTrigger
  repeat' (first | with_reducible assumption | (extract_lets +onlyGivenNames x_; refine Keeps.cut x_ ?_ (fun hx_ => ?_); (on_goal 1 => (unfold x_; clear x_)); (on_goal 2 => clear_value x_)) | with_reducible apply keeps_closeCap | with_reducible apply keeps_giveHeader | with_reducible apply keeps_modTrig | with_reducible apply keeps_setTg | with_reducible apply keeps_dropBlock | with_reducible apply Keeps.ite | split)

theorem keeps_pushCap {a_ : State} (s : State) (n : Fin 12) (k : ℕ) (a : ℕ) (v : ℕ) (h_s : Keeps a_ s) : Keeps a_ (State.pushCap s n k a v).1 := by
  unfold State.pushCap
  repeat' (first | with_reducible assumption | with_reducible apply keeps_takeInject | with_reducible apply keeps_sramCe | with_reducible apply keeps_detect | with_reducible apply keeps_modSlice | with_reducible apply Keeps.ite | with_reducible apply Keeps.ite_fst)

theorem keeps_putWords {a_ : State} (s : State) (l : List ℕ) (k : ℕ) (a : ℕ) (e : ℕ) (h_s : Keeps a_ s) : Keeps a_ (State.putWords s l k a e).1 := by
  unfold State.putWords
  repeat' (first | with_reducible assumption | (with_reducible intro _; intros) | (extract_lets +onlyGivenNames x_; refine Keeps.cut x_ ?_ (fun hx_ => ?_); (on_goal 1 => (unfold x_; clear x_)); (on_goal 2 => clear_value x_)) | (extract_lets +onlyGivenNames x_; refine Keeps.cut x_.1 ?_ (fun hx_ => ?_); (on_goal 1 => (unfold x_; clear x_)); (on_goal 2 => clear_value x_)) | (extract_lets +onlyGivenNames x_; clear_value x_) | with_reducible apply keeps_pushCap | with_reducible apply keeps_noteLoss | with_reducible apply keeps_foldl | with_reducible apply keeps_foldl_fst | with_reducible apply keeps_foldl_snd | with_reducible apply Keeps.ite | with_reducible apply Keeps.ite_fst | split)

theorem keeps_tailEnds {a_ : State} (s : State) (u : Fin 8) (k : Fin 16) (a : ℕ) (mask : ℕ) (e : ℕ) (h_s : Keeps a_ s) : Keeps a_ (State.tailEnds s u k a mask e) := by
  unfold State.tailEnds
  repeat' (first | with_reducible assumption | with_reducible apply keeps_putWords | with_reducible apply keeps_modTrig | with_reducible apply keeps_giveHeader | with_reducible apply Keeps.ite)

theorem keeps_slotEnds {a_ : State} (s : State) (u : Fin 8) (k : Fin 16) (i : ℕ) (e : ℕ) (h_s : Keeps a_ s) : Keeps a_ (State.slotEnds s u k i e) := by
  unfold State.slotEnds
  repeat' (first | with_reducible assumption | with_reducible apply keeps_putWords | with_reducible apply keeps_modTrig | split)

theorem keeps_trigPeriodEnd {a_ : State} (s : State) (n : Fin 12) (h_s : Keeps a_ s) : Keeps a_ (State.trigPeriodEnd s n) := by
  unfold State.trigPeriodEnd
  repeat' (first | with_reducible assumption | (with_reducible intro _; intros) | (extract_lets +onlyGivenNames x_; refine Keeps.cut x_ ?_ (fun hx_ => ?_); (on_goal 1 => (unfold x_; clear x_)); (on_goal 2 => clear_value x_)) | with_reducible apply keeps_overTriggers | with_reducible apply keeps_tailEnds | with_reducible apply keeps_slotEnds | split)

theorem keeps_settleOne {a_ : State} (s : State) (u : Fin 8) (t : ℕ) (h_s : Keeps a_ s) : Keeps a_ (State.settleOne s u t) := by
  unfold State.settleOne
  repeat' (first | with_reducible assumption | with_reducible apply keeps_enterReady | with_reducible apply keeps_modTrig | with_reducible apply keeps_postEnd | split)

theorem keeps_settleTrig {a_ : State} (s : State) (u : Fin 8) (t : ℕ) (h_s : Keeps a_ s) : Keeps a_ (State.settleTrig s u t) := by
  unfold State.settleTrig
  repeat' (first | with_reducible assumption | with_reducible apply keeps_settleOne)

theorem keeps_takeFire {a_ : State} (s : State) (u : Fin 8) (t : ℕ) (h_s : Keeps a_ s) : Keeps a_ (State.takeFire s u t) := by
  unfold State.takeFire
  repeat' (first | with_reducible assumption | (extract_lets +onlyGivenNames x_; refine Keeps.cut x_ ?_ (fun hx_ => ?_); (on_goal 1 => (unfold x_; clear x_)); (on_goal 2 => clear_value x_)) | with_reducible apply keeps_modTrig | with_reducible apply keeps_trigger | with_reducible apply keeps_ignoreFire | split)

theorem keeps_restTrigs {a_ : State} (s : State) (h_s : Keeps a_ s) : Keeps a_ (State.restTrigs s) := by
  unfold State.restTrigs
  repeat' (first | with_reducible assumption | (with_reducible intro _; intros) | with_reducible apply keeps_overTriggers | with_reducible apply keeps_takeFire | with_reducible apply keeps_settleTrig)

theorem keeps_trigPeriodStart {a_ : State} (s : State) (n : Fin 12) (t : ℕ) (v : ℕ) (h_s : Keeps a_ s) : Keeps a_ (State.trigPeriodStart s n t v) := by
  unfold State.trigPeriodStart
  repeat' (first | with_reducible assumption | (with_reducible intro _; intros) | (extract_lets +onlyGivenNames x_; refine Keeps.cut x_ ?_ (fun hx_ => ?_); (on_goal 1 => (unfold x_; clear x_)); (on_goal 2 => clear_value x_)) | (extract_lets +onlyGivenNames x_; clear_value x_) | with_reducible apply keeps_overTriggers | with_reducible apply keeps_settleTrig | with_reducible apply keeps_takeFire | with_reducible apply keeps_slotStart | with_reducible apply Keeps.ite)

theorem keeps_armTrigger {a_ : State} (s : State) (u : Fin 8) (h_s : Keeps a_ s) : Keeps a_ (State.armTrigger s u) := by
  unfold State.armTrigger
  repeat' (first | with_reducible assumption | with_reducible apply keeps_defer | with_reducible apply Keeps.ite)

theorem keeps_execTriggerArm {a_ : State} (u : Fin 8) (s : State) (h_s : Keeps a_ s) : KeepsOut a_ (execTriggerArm u s) := by
  unfold execTriggerArm
  repeat' (first | with_reducible apply KeepsOut.next | with_reducible apply KeepsOut.fault | with_reducible assumption | (with_reducible intro _; intros) | with_reducible apply keeps_hostStrobe | with_reducible apply keeps_armTrigger)

theorem keeps_execTriggerStop {a_ : State} (u : Fin 8) (s : State) (h_s : Keeps a_ s) : KeepsOut a_ (execTriggerStop u s) := by
  unfold execTriggerStop
  repeat' (first | with_reducible apply KeepsOut.next | with_reducible apply KeepsOut.fault | with_reducible assumption | (with_reducible intro _; intros) | with_reducible apply keeps_hostStrobe | with_reducible apply keeps_stopTrigger)

theorem keeps_forceTrigger {a_ : State} (s : State) (u : Fin 8) (h_s : Keeps a_ s) : Keeps a_ (State.forceTrigger s u) := by
  unfold State.forceTrigger
  repeat' (first | with_reducible assumption | with_reducible apply keeps_defer)

theorem keeps_execTriggerForce {a_ : State} (u : Fin 8) (s : State) (h_s : Keeps a_ s) : KeepsOut a_ (execTriggerForce u s) := by
  unfold execTriggerForce
  repeat' (first | with_reducible apply KeepsOut.next | with_reducible apply KeepsOut.fault | with_reducible assumption | (with_reducible intro _; intros) | with_reducible apply keeps_hostStrobe | with_reducible apply keeps_forceTrigger)

theorem keeps_execArmEvent {a_ : State} (u : Fin 8) (s : State) (h_s : Keeps a_ s) : KeepsOut a_ (execArmEvent u s) := by
  unfold execArmEvent
  repeat' (first | with_reducible apply KeepsOut.next | with_reducible assumption | with_reducible apply keeps_defer | with_reducible apply keeps_modTrig | with_reducible apply Keeps.ite)

theorem keeps_execTriggerFire {a_ : State} (u : Fin 8) (s : State) (h_s : Keeps a_ s) : KeepsOut a_ (execTriggerFire u s) := by
  unfold execTriggerFire
  repeat' (first | with_reducible apply KeepsOut.next | with_reducible assumption | with_reducible apply keeps_takeFire | with_reducible apply keeps_settleTrig | with_reducible apply Keeps.ite)

theorem keeps_execPreTriggerFull {a_ : State} (u : Fin 8) (s : State) (h_s : Keeps a_ s) : KeepsOut a_ (execPreTriggerFull u s) := by
  unfold execPreTriggerFull
  repeat' (first | with_reducible apply KeepsOut.next | with_reducible assumption | with_reducible apply keeps_settleOne | with_reducible apply Keeps.ite)

theorem keeps_execPostTriggerEnd {a_ : State} (u : Fin 8) (s : State) (h_s : Keeps a_ s) : KeepsOut a_ (execPostTriggerEnd u s) := by
  unfold execPostTriggerEnd
  repeat' (first | with_reducible apply KeepsOut.next | with_reducible assumption | with_reducible apply keeps_settleOne | with_reducible apply Keeps.ite)

theorem keeps_countU {a_ : State} (s : State) (u : PlayUnit) (a : Fld) (b : Fld) (h_s : Keeps a_ s) : Keeps a_ (State.countU s u a b) := by
  unfold State.countU
  repeat' (first | with_reducible assumption | with_reducible apply keeps_count)

theorem keeps_setSegRegs {a_ : State} (s : State) (u : PlayUnit) (h_s : Keeps a_ s) : Keeps a_ (State.setSegRegs s u) := by
  unfold State.setSegRegs
  repeat' (first | with_reducible assumption | with_reducible apply keeps_set | split)

theorem keeps_setMarkers {a_ : State} (s : State) (u : PlayUnit) (m : ℕ) (t : ℕ) (h_s : Keeps a_ s) : Keeps a_ (State.setMarkers s u m t) := by
  unfold State.setMarkers
  repeat' (first | with_reducible assumption | with_reducible apply keeps_modFeed)

theorem keeps_noteLost {a_ : State} (s : State) (u : PlayUnit) (p : Play) (h_s : Keeps a_ s) : Keeps a_ (State.noteLost s u p) := by
  unfold State.noteLost
  repeat' (first | with_reducible assumption | with_reducible apply keeps_countU | with_reducible apply Keeps.ite)

theorem keeps_noteTaken {a_ : State} (s : State) (u : PlayUnit) (h_s : Keeps a_ s) : Keeps a_ (State.noteTaken s u) := by
  unfold State.noteTaken
  repeat' (first | with_reducible assumption | with_reducible apply keeps_countU)

theorem keeps_noteStageWait {a_ : State} (s : State) (u : PlayUnit) (p : Play) (t : ℕ) (h_s : Keeps a_ s) : Keeps a_ (State.noteStageWait s u p t) := by
  unfold State.noteStageWait
  repeat' (first | with_reducible assumption | with_reducible apply keeps_countU | with_reducible apply Keeps.ite)

theorem keeps_noteSlipSlot {a_ : State} (s : State) (u : PlayUnit) (ticks : ℕ) (h_s : Keeps a_ s) : Keeps a_ (State.noteSlipSlot s u ticks) := by
  unfold State.noteSlipSlot
  repeat' (first | with_reducible assumption | with_reducible apply keeps_incSat | with_reducible apply keeps_set)

theorem keeps_recordVsFault {a_ : State} (s : State) (k : Fin 16) (u : PlayUnit) (code : ℕ) (va : ℕ) (h_s : Keeps a_ s) : Keeps a_ (State.recordVsFault s k u code va) := by
  unfold State.recordVsFault
  repeat' (first | with_reducible assumption | with_reducible apply keeps_set | with_reducible apply keeps_raise | with_reducible apply Keeps.ite)

theorem keeps_noteRefill {a_ : State} (s : State) (u : PlayUnit) (h_s : Keeps a_ s) : Keeps a_ (State.noteRefill s u) := by
  unfold State.noteRefill
  repeat' (first | with_reducible assumption | with_reducible apply keeps_countU | with_reducible apply keeps_set | split)

theorem keeps_refillStop {a_ : State} (s : State) (k : Fin 16) (u : PlayUnit) (t : ℕ) (h_s : Keeps a_ s) : Keeps a_ (State.refillStop s k u t) := by
  unfold State.refillStop
  repeat' (first | with_reducible assumption | with_reducible apply keeps_haltUnits | with_reducible apply keeps_endSeq | with_reducible apply keeps_noteUnder | with_reducible apply keeps_noteRefill)

theorem keeps_missingEnds {a_ : State} (s : State) (k : Fin 16) (u : PlayUnit) (d : Seg) (i : ℕ) (t : ℕ) (h_s : Keeps a_ s) : Keeps a_ (State.missingEnds s k u d i t).1 := by
  unfold State.missingEnds
  repeat' (first | with_reducible assumption | (extract_lets +onlyGivenNames x_; clear_value x_) | with_reducible apply keeps_hardFaultSess | with_reducible apply keeps_noteUnder | with_reducible apply keeps_noteRefill | with_reducible apply keeps_recordVsFault | with_reducible apply keeps_haltUnits | with_reducible apply keeps_endSeq | split)

theorem keeps_noteStarve {a_ : State} (s : State) (k : Fin 16) (u : PlayUnit) (injected : Bool) (h_s : Keeps a_ s) : Keeps a_ (State.noteStarve s k u injected) := by
  unfold State.noteStarve
  repeat' (first | with_reducible assumption | (extract_lets +onlyGivenNames x_; refine Keeps.cut x_ ?_ (fun hx_ => ?_); (on_goal 1 => (unfold x_; clear x_)); (on_goal 2 => clear_value x_)) | with_reducible apply keeps_countU | with_reducible apply keeps_noteUnder | with_reducible apply keeps_detect)

theorem keeps_wallStop {a_ : State} (s : State) (k : Fin 16) (u : PlayUnit) (t : ℕ) (h_s : Keeps a_ s) : Keeps a_ (State.wallStop s k u t) := by
  unfold State.wallStop
  repeat' (first | with_reducible assumption | with_reducible apply keeps_haltUnits | with_reducible apply keeps_endSeq | with_reducible apply keeps_noteUnder)

theorem keeps_segPulse {a_ : State} (s : State) (u : PlayUnit) (t : ℕ) (h_s : Keeps a_ s) : Keeps a_ (State.segPulse s u t) := by
  unfold State.segPulse
  repeat' (first | with_reducible assumption | (extract_lets +onlyGivenNames x_; clear_value x_) | with_reducible apply keeps_noteRises | with_reducible apply keeps_modHr | with_reducible apply keeps_defer | with_reducible apply Keeps.ite)

theorem keeps_takeQueue {a_ : State} (s : State) (u : PlayUnit) (h_s : Keeps a_ s) : Keeps a_ (State.takeQueue s u).1 := by
  unfold State.takeQueue
  repeat' (first | with_reducible assumption | (extract_lets +onlyGivenNames x_; refine Keeps.cut x_ ?_ (fun hx_ => ?_); (on_goal 1 => (unfold x_; clear x_)); (on_goal 2 => clear_value x_)) | (extract_lets +onlyGivenNames x_; clear_value x_) | with_reducible apply keeps_modSlice | with_reducible apply keeps_modFeed | split)

theorem keeps_fwBoundary {a_ : State} (s : State) (g : Fin 4) (t : ℕ) (h_s : Keeps a_ s) : Keeps a_ (State.fwBoundary s g t) := by
  unfold State.fwBoundary
  repeat' (first | with_reducible assumption | with_reducible apply keeps_fwTakeOps | with_reducible apply keeps_takePend | with_reducible apply keeps_modFw | with_reducible apply Keeps.ite)

theorem keeps_restFurrow {a_ : State} (s : State) (h_s : Keeps a_ s) : Keeps a_ (State.restFurrow s) := by
  unfold State.restFurrow
  repeat' (first | with_reducible assumption | (with_reducible intro _; intros) | (extract_lets +onlyGivenNames x_; clear_value x_) | with_reducible apply keeps_fwTakeOps | with_reducible apply keeps_takePend | with_reducible apply keeps_modFw | with_reducible apply keeps_foldl | with_reducible apply Keeps.ite)

theorem keeps_leftSeg {a_ : State} (s : State) (p : Option Play) (t : ℕ) (h_s : Keeps a_ s) : Keeps a_ (State.leftSeg s p t) := by
  unfold State.leftSeg
  repeat' (first | with_reducible assumption | (with_reducible intro _; intros) | with_reducible apply keeps_fwBoundary | with_reducible apply keeps_foldl | split)

theorem keeps_jumpMeets {a_ : State} (s : State) (u : PlayUnit) (lines : ℕ) (e : ℕ) (h_s : Keeps a_ s) : Keeps a_ (State.jumpMeets s u lines e) := by
  unfold State.jumpMeets
  repeat' (first | with_reducible assumption | with_reducible apply keeps_modPlay | with_reducible apply keeps_count | with_reducible apply Keeps.ite | split)

theorem keeps_jumpUnit {a_ : State} (s : State) (u : PlayUnit) (lines : ℕ) (e : ℕ) (h_s : Keeps a_ s) : Keeps a_ (State.jumpUnit s u lines e) := by
  unfold State.jumpUnit
  repeat' (first | with_reducible assumption | (extract_lets +onlyGivenNames x_; refine Keeps.cut x_ ?_ (fun hx_ => ?_); (on_goal 1 => (unfold x_; clear x_)); (on_goal 2 => clear_value x_)) | (extract_lets +onlyGivenNames x_; clear_value x_) | with_reducible apply keeps_modFeed | with_reducible apply keeps_jumpMeets | split)

theorem keeps_takeReqs {a_ : State} (s : State) (u : PlayUnit) (h_s : Keeps a_ s) : Keeps a_ (State.takeReqs s u) := by
  unfold State.takeReqs
  repeat' (first | with_reducible assumption | (with_reducible intro _; intros) | with_reducible apply keeps_modFeed | with_reducible apply keeps_jumpMeets | with_reducible apply keeps_foldl | split)

theorem keeps_dropQueue {a_ : State} (s : State) (u : PlayUnit) (h_s : Keeps a_ s) : Keeps a_ (State.dropQueue s u) := by
  unfold State.dropQueue
  repeat' (first | with_reducible assumption | with_reducible apply keeps_modFeed)

theorem keeps_stopMeets {a_ : State} (s : State) (u : PlayUnit) (t : ℕ) (h_s : Keeps a_ s) : Keeps a_ (State.stopMeets s u t) := by
  unfold State.stopMeets
  repeat' (first | with_reducible assumption | with_reducible apply keeps_missingEnds | with_reducible apply keeps_noteUnder | with_reducible apply keeps_noteRefill | with_reducible apply Keeps.ite | split)

theorem keeps_judgePeriod {a_ : State} (s : State) (n : Fin 12) (h_s : Keeps a_ s) : Keeps a_ (State.judgePeriod s n) := by
  unfold State.judgePeriod
  repeat' (first | with_reducible assumption | (with_reducible intro _; intros) | (extract_lets +onlyGivenNames x_; refine Keeps.cut x_ ?_ (fun hx_ => ?_); (on_goal 1 => (unfold x_; clear x_)); (on_goal 2 => clear_value x_)) | (extract_lets +onlyGivenNames x_; unfold x_; clear x_; beta_reduce) | with_reducible apply keeps_overLanes | with_reducible apply keeps_count | with_reducible apply keeps_mapLanes | with_reducible apply keeps_pushFail | with_reducible apply keeps_noteCond | with_reducible apply keeps_sticky | with_reducible apply keeps_modHr | with_reducible apply Keeps.ite | split)

theorem keeps_lanePeriod {a_ : State} (s : State) (n : Fin 12) (l : Fin 8) (ts : ℕ) (t : ℕ) (v : ℕ) (judged : Bool) (respace : Bool) (h_s : Keeps a_ s) : Keeps a_ (State.lanePeriod s n l ts t v judged respace) := by
  unfold State.lanePeriod
  repeat' (first | with_reducible assumption | with_reducible apply keeps_count | with_reducible apply keeps_modLane | with_reducible apply keeps_driveAlt | with_reducible apply Keeps.ite)

theorem keeps_placeSlot {a_ : State} (s : State) (n : Fin 12) (t : ℕ) (v : ℕ) (judged : Bool) (respace : Bool) (h_s : Keeps a_ s) : Keeps a_ (State.placeSlot s n t v judged respace) := by
  unfold State.placeSlot
  repeat' (first | with_reducible assumption | (with_reducible intro _; intros) | (extract_lets +onlyGivenNames x_; refine Keeps.cut x_ ?_ (fun hx_ => ?_); (on_goal 1 => (unfold x_; clear x_)); (on_goal 2 => clear_value x_)) | (extract_lets +onlyGivenNames x_; clear_value x_) | with_reducible apply keeps_mapLanes | with_reducible apply keeps_overLanes | with_reducible apply keeps_lanePeriod | with_reducible apply keeps_modPlay | with_reducible apply keeps_modFeed | with_reducible apply keeps_modSlice | with_reducible apply keeps_strobeAt | with_reducible apply keeps_setMarkers | with_reducible apply keeps_noteHeadroom | with_reducible apply keeps_setSegRegs | with_reducible apply keeps_set | with_reducible apply keeps_takeReqs | with_reducible apply keeps_trigPeriodStart)

theorem keeps_sliceIdle {a_ : State} (s : State) (n : Fin 12) (t : ℕ) (h_s : Keeps a_ s) : Keeps a_ (State.sliceIdle s n t) := by
  unfold State.sliceIdle
  repeat' (first | with_reducible assumption | (extract_lets +onlyGivenNames x_; refine Keeps.cut x_ ?_ (fun hx_ => ?_); (on_goal 1 => (unfold x_; clear x_)); (on_goal 2 => clear_value x_)) | (extract_lets +onlyGivenNames x_; clear_value x_) | with_reducible apply keeps_mapLanes | with_reducible apply keeps_modSlice | with_reducible apply keeps_modFeed | with_reducible apply keeps_strobeSync | with_reducible apply keeps_leftSeg | with_reducible apply keeps_calSliceBoundary | with_reducible apply keeps_takePend)

theorem keeps_sliceStop {a_ : State} (s : State) (n : Fin 12) (t : ℕ) (h_s : Keeps a_ s) : Keeps a_ (State.sliceStop s n t) := by
  unfold State.sliceStop
  repeat' (first | with_reducible assumption | (with_reducible intro _; intros) | (extract_lets +onlyGivenNames x_; unfold x_; clear x_; beta_reduce) | with_reducible apply keeps_overLanes | with_reducible apply keeps_safeLane | with_reducible apply keeps_count | with_reducible apply keeps_modLane | with_reducible apply keeps_modFeed | with_reducible apply keeps_sliceIdle | split)

theorem keeps_idleSlot {a_ : State} (s : State) (n : Fin 12) (t : ℕ) (respace : Bool) (h_s : Keeps a_ s) : Keeps a_ (State.idleSlot s n t respace) := by
  unfold State.idleSlot
  repeat' (first | with_reducible assumption | with_reducible apply keeps_placeSlot | split)

theorem keeps_slipSlot {a_ : State} (s : State) (n : Fin 12) (k : Fin 16) (t : ℕ) (own : Bool) (respace : Bool) (h_s : Keeps a_ s) : Keeps a_ (State.slipSlot s n k t own respace) := by
  unfold State.slipSlot
  repeat' (first | with_reducible assumption | (extract_lets +onlyGivenNames x_; refine Keeps.cut x_ ?_ (fun hx_ => ?_); (on_goal 1 => (unfold x_; clear x_)); (on_goal 2 => clear_value x_)) | with_reducible apply keeps_noteSlip | with_reducible apply keeps_noteRefill | with_reducible apply keeps_count | with_reducible apply keeps_modPlay | with_reducible apply keeps_idleSlot | with_reducible apply keeps_noteSlipSlot | with_reducible apply Keeps.ite)

theorem keeps_sliceSram {a_ : State} (s : State) (n : Fin 12) (h_s : Keeps a_ s) : Keeps a_ (State.sliceSram s n).1 := by
  unfold State.sliceSram
  repeat' (first | with_reducible assumption | with_reducible apply keeps_sramCe | with_reducible apply keeps_takeInject | with_reducible apply keeps_faultSlice | with_reducible apply keeps_detect | with_reducible apply Keeps.ite_fst)

theorem keeps_sliceSlot {a_ : State} (s : State) (n : Fin 12) (t : ℕ) (respace : Bool) (h_s : Keeps a_ s) : Keeps a_ (State.sliceSlot s n t respace) := by
  unfold State.sliceSlot
  repeat' (first | with_reducible assumption | (extract_lets +onlyGivenNames x_; refine Keeps.cut x_ ?_ (fun hx_ => ?_); (on_goal 1 => (unfold x_; clear x_)); (on_goal 2 => clear_value x_)) | (extract_lets +onlyGivenNames x_; refine Keeps.cut x_.1 ?_ (fun hx_ => ?_); (on_goal 1 => (unfold x_; clear x_)); (on_goal 2 => clear_value x_)) | with_reducible apply keeps_slipSlot | with_reducible apply keeps_idleSlot | with_reducible apply keeps_fwVector | with_reducible apply keeps_placeSlot | with_reducible apply keeps_modPlay | with_reducible apply keeps_sliceSram | with_reducible apply keeps_modFeed | with_reducible apply keeps_missingEnds | with_reducible apply keeps_sliceStop | with_reducible apply keeps_refillStop | with_reducible apply Keeps.ite | split)

theorem keeps_stageBegin {a_ : State} (s : State) (n : Fin 12) (d : Seg) (h_s : Keeps a_ s) : Keeps a_ (State.stageBegin s n d) := by
  unfold State.stageBegin
  repeat' (first | with_reducible assumption | (with_reducible intro _; intros) | with_reducible apply keeps_faultFw | with_reducible apply keeps_foldl | split)

theorem keeps_bankFault {a_ : State} (s : State) (n : Fin 12) (k : Fin 16) (h_s : Keeps a_ s) : Keeps a_ (State.bankFault s n k) := by
  unfold State.bankFault
  repeat' (first | with_reducible assumption | with_reducible apply keeps_hardFaultSess | with_reducible apply Keeps.ite)

theorem keeps_startSlice {a_ : State} (s : State) (n : Fin 12) (d : Seg) (t : ℕ) (buf : List ℕ) (head : List ℕ) (old : Option Play) (h_s : Keeps a_ s) : Keeps a_ (State.startSlice s n d t buf head old) := by
  unfold State.startSlice
  repeat' (first | with_reducible assumption | (extract_lets +onlyGivenNames x_; refine Keeps.cut x_ ?_ (fun hx_ => ?_); (on_goal 1 => (unfold x_; clear x_)); (on_goal 2 => clear_value x_)) | (extract_lets +onlyGivenNames x_; clear_value x_) | with_reducible apply keeps_modFeed | with_reducible apply keeps_leftSeg | with_reducible apply keeps_calSliceBoundary | with_reducible apply keeps_takePend | with_reducible apply keeps_modSlice | with_reducible apply keeps_segPulse | with_reducible apply keeps_fwStart | with_reducible apply keeps_bankFault | with_reducible apply keeps_stageBegin | with_reducible apply keeps_sliceSlot | with_reducible apply Keeps.ite)

theorem keeps_starveSlice {a_ : State} (s : State) (n : Fin 12) (p : Play) (t : ℕ) (injected : Bool) (h_s : Keeps a_ s) : Keeps a_ (State.starveSlice s n p t injected) := by
  unfold State.starveSlice
  repeat' (first | with_reducible assumption | with_reducible apply keeps_noteStarve | with_reducible apply keeps_modPlay | with_reducible apply keeps_calSliceBoundary | with_reducible apply keeps_takePend | with_reducible apply keeps_modSlice | with_reducible apply keeps_sliceSlot | with_reducible apply keeps_leftSeg | with_reducible apply keeps_sliceStop | with_reducible apply keeps_wallStop | with_reducible apply Keeps.ite)

theorem keeps_handOn {a_ : State} (s : State) (n : Fin 12) (p : Play) (t : ℕ) (idleEnd : Bool) (h_s : Keeps a_ s) : Keeps a_ (State.handOn s n p t idleEnd) := by
  unfold State.handOn
  repeat' (first | with_reducible assumption | (extract_lets +onlyGivenNames x_; refine Keeps.cut x_.1 ?_ (fun hx_ => ?_); (on_goal 1 => (unfold x_; clear x_)); (on_goal 2 => clear_value x_)) | with_reducible apply keeps_takeInject | with_reducible apply keeps_starveSlice | with_reducible apply keeps_takeQueue | with_reducible apply keeps_startSlice | with_reducible apply keeps_sliceIdle | with_reducible apply Keeps.ite | split)

theorem keeps_sliceBoundary {a_ : State} (s : State) (n : Fin 12) (p : Play) (t : ℕ) (h_s : Keeps a_ s) : Keeps a_ (State.sliceBoundary s n p t) := by
  unfold State.sliceBoundary
  repeat' (first | with_reducible assumption | (extract_lets +onlyGivenNames x_; refine Keeps.cut x_ ?_ (fun hx_ => ?_); (on_goal 1 => (unfold x_; clear x_)); (on_goal 2 => clear_value x_)) | (extract_lets +onlyGivenNames x_; clear_value x_) | with_reducible apply keeps_noteStageWait | with_reducible apply keeps_modFeed | with_reducible apply keeps_sliceStop | with_reducible apply keeps_dropQueue | with_reducible apply keeps_stopMeets | with_reducible apply keeps_startSlice | with_reducible apply keeps_noteTaken | with_reducible apply keeps_handOn | with_reducible apply keeps_noteLost | with_reducible apply keeps_sliceSlot | with_reducible apply keeps_modPlay | with_reducible apply Keeps.ite | split)

theorem keeps_sliceEnds {a_ : State} (s : State) (n : Fin 12) (p : Play) (t : ℕ) (h_s : Keeps a_ s) : Keeps a_ (State.sliceEnds s n p t) := by
  unfold State.sliceEnds
  repeat' (first | with_reducible assumption | with_reducible apply keeps_modFeed | with_reducible apply keeps_sliceBoundary | with_reducible apply Keeps.ite)

theorem keeps_sliceGo {a_ : State} (s : State) (n : Fin 12) (h_s : Keeps a_ s) : Keeps a_ (State.sliceGo s n) := by
  unfold State.sliceGo
  repeat' (first | with_reducible assumption | with_reducible apply keeps_sliceEnds | with_reducible apply keeps_trigPeriodEnd | with_reducible apply keeps_judgePeriod | split)

theorem keeps_sliceStarts {a_ : State} (s : State) (n : Fin 12) (t : ℕ) (h_s : Keeps a_ s) : Keeps a_ (State.sliceStarts s n t) := by
  unfold State.sliceStarts
  repeat' (first | with_reducible assumption | (extract_lets +onlyGivenNames x_; refine Keeps.cut x_ ?_ (fun hx_ => ?_); (on_goal 1 => (unfold x_; clear x_)); (on_goal 2 => clear_value x_)) | (extract_lets +onlyGivenNames x_; refine Keeps.cut x_.1 ?_ (fun hx_ => ?_); (on_goal 1 => (unfold x_; clear x_)); (on_goal 2 => clear_value x_)) | with_reducible apply keeps_modFeed | with_reducible apply keeps_dropQueue | with_reducible apply keeps_stopMeets | with_reducible apply keeps_takeQueue | with_reducible apply keeps_startSlice | with_reducible apply Keeps.ite | with_reducible apply Keeps.ite_fst | split)

theorem keeps_sliceSettle {a_ : State} (s : State) (n : Fin 12) (h_s : Keeps a_ s) : Keeps a_ (State.sliceSettle s n) := by
  unfold State.sliceSettle
  repeat' (first | with_reducible assumption | with_reducible apply keeps_sliceBoundary | with_reducible apply keeps_sliceStarts | split)

theorem keeps_sliceRow {a_ : State} (s : State) (n : Fin 12) (h_s : Keeps a_ s) : Keeps a_ (State.sliceRow s n) := by
  unfold State.sliceRow
  repeat' (first | with_reducible assumption | with_reducible apply keeps_modFeed | with_reducible apply keeps_sliceGo | with_reducible apply keeps_sliceSettle | with_reducible apply Keeps.ite)

theorem keeps_sliceCatch {a_ : State} (s : State) (n : Fin 12) (h_s : Keeps a_ s) : Keeps a_ (State.sliceCatch s n) := by
  unfold State.sliceCatch
  repeat' (first | with_reducible assumption | (with_reducible intro _; intros) | (extract_lets +onlyGivenNames x_; clear_value x_) | with_reducible apply keeps_sliceRow | with_reducible apply keeps_sliceSettle | with_reducible apply keeps_modFeed | with_reducible apply keeps_foldl | with_reducible apply Keeps.ite)

theorem keeps_execSlicePeriodStart {a_ : State} (n : Fin 12) (t : ℕ) (balls : List BallVolts) (s : State) (h_s : Keeps a_ s) : KeepsOut a_ (execSlicePeriodStart n t balls s) := by
  unfold execSlicePeriodStart
  repeat' (first | with_reducible apply KeepsOut.next | with_reducible apply KeepsOut.fault | with_reducible assumption | with_reducible apply keeps_sliceRow | with_reducible apply keeps_sliceCatch | with_reducible apply keeps_quietVolts)

theorem keeps_aoMarkers {a_ : State} (s : State) (o : Fin 16) (m : ℕ) (t : ℕ) (h_s : Keeps a_ s) : Keeps a_ (State.aoMarkers s o m t) := by
  unfold State.aoMarkers
  repeat' (first | with_reducible assumption | with_reducible apply keeps_defer)

theorem keeps_aoPlace {a_ : State} (s : State) (o : Fin 16) (t : ℕ) (sample : Option ℕ) (h_s : Keeps a_ s) : Keeps a_ (State.aoPlace s o t sample) := by
  unfold State.aoPlace
  repeat' (first | with_reducible assumption | with_reducible apply keeps_modPlay | with_reducible apply keeps_modAo | with_reducible apply keeps_aoHold | with_reducible apply keeps_takeReqs | with_reducible apply keeps_noteHeadroom | with_reducible apply keeps_setSegRegs | with_reducible apply keeps_aoMarkers | split)

theorem keeps_aoIdle {a_ : State} (s : State) (o : Fin 16) (t : ℕ) (h_s : Keeps a_ s) : Keeps a_ (State.aoIdle s o t) := by
  unfold State.aoIdle
  repeat' (first | with_reducible assumption | with_reducible apply keeps_modFeed | with_reducible apply keeps_aoMarkers | with_reducible apply keeps_takePend | with_reducible apply keeps_aoHold)

theorem keeps_aoSlip {a_ : State} (s : State) (o : Fin 16) (k : Fin 16) (t : ℕ) (h_s : Keeps a_ s) : Keeps a_ (State.aoSlip s o k t) := by
  unfold State.aoSlip
  repeat' (first | with_reducible assumption | with_reducible apply keeps_noteSlip | with_reducible apply keeps_noteRefill | with_reducible apply keeps_modPlay | with_reducible apply keeps_aoPlace | with_reducible apply keeps_noteSlipSlot | with_reducible apply Keeps.ite)

theorem keeps_aoSram {a_ : State} (s : State) (o : Fin 16) (h_s : Keeps a_ s) : Keeps a_ (State.aoSram s o).1 := by
  unfold State.aoSram
  repeat' (first | with_reducible assumption | with_reducible apply keeps_sramCe | with_reducible apply keeps_takeInject | with_reducible apply keeps_faultOutput | with_reducible apply keeps_detect | with_reducible apply Keeps.ite_fst)

theorem keeps_aoSlot {a_ : State} (s : State) (o : Fin 16) (t : ℕ) (h_s : Keeps a_ s) : Keeps a_ (State.aoSlot s o t) := by
  unfold State.aoSlot
  repeat' (first | with_reducible assumption | (extract_lets +onlyGivenNames x_; refine Keeps.cut x_ ?_ (fun hx_ => ?_); (on_goal 1 => (unfold x_; clear x_)); (on_goal 2 => clear_value x_)) | (extract_lets +onlyGivenNames x_; refine Keeps.cut x_.1 ?_ (fun hx_ => ?_); (on_goal 1 => (unfold x_; clear x_)); (on_goal 2 => clear_value x_)) | with_reducible apply keeps_aoSlip | with_reducible apply keeps_aoPlace | with_reducible apply keeps_aoSram | with_reducible apply keeps_modFeed | with_reducible apply keeps_modPlay | with_reducible apply keeps_missingEnds | with_reducible apply keeps_aoIdle | with_reducible apply keeps_refillStop | with_reducible apply Keeps.ite | split)

theorem keeps_startOutput {a_ : State} (s : State) (o : Fin 16) (d : Seg) (t : ℕ) (buf : List ℕ) (h_s : Keeps a_ s) : Keeps a_ (State.startOutput s o d t buf) := by
  unfold State.startOutput
  repeat' (first | with_reducible assumption | (extract_lets +onlyGivenNames x_; refine Keeps.cut x_ ?_ (fun hx_ => ?_); (on_goal 1 => (unfold x_; clear x_)); (on_goal 2 => clear_value x_)) | (extract_lets +onlyGivenNames x_; clear_value x_) | with_reducible apply keeps_aoCatch | with_reducible apply keeps_modAo | with_reducible apply keeps_aoSlot | with_reducible apply keeps_segPulse | with_reducible apply keeps_takePend)

theorem keeps_starveOutput {a_ : State} (s : State) (o : Fin 16) (p : Play) (t : ℕ) (injected : Bool) (h_s : Keeps a_ s) : Keeps a_ (State.starveOutput s o p t injected) := by
  unfold State.starveOutput
  repeat' (first | with_reducible assumption | (extract_lets +onlyGivenNames x_; refine Keeps.cut x_ ?_ (fun hx_ => ?_); (on_goal 1 => (unfold x_; clear x_)); (on_goal 2 => clear_value x_)) | with_reducible apply keeps_noteStarve | with_reducible apply keeps_modPlay | with_reducible apply keeps_aoSlot | with_reducible apply keeps_takePend | with_reducible apply keeps_aoIdle | with_reducible apply keeps_wallStop | with_reducible apply Keeps.ite)

theorem keeps_aoHandOn {a_ : State} (s : State) (o : Fin 16) (p : Play) (t : ℕ) (idleEnd : Bool) (h_s : Keeps a_ s) : Keeps a_ (State.aoHandOn s o p t idleEnd) := by
  unfold State.aoHandOn
  repeat' (first | with_reducible assumption | (extract_lets +onlyGivenNames x_; refine Keeps.cut x_.1 ?_ (fun hx_ => ?_); (on_goal 1 => (unfold x_; clear x_)); (on_goal 2 => clear_value x_)) | with_reducible apply keeps_takeInject | with_reducible apply keeps_starveOutput | with_reducible apply keeps_takeQueue | with_reducible apply keeps_startOutput | with_reducible apply keeps_aoIdle | with_reducible apply Keeps.ite | split)

theorem keeps_aoBoundary {a_ : State} (s : State) (o : Fin 16) (p : Play) (t : ℕ) (h_s : Keeps a_ s) : Keeps a_ (State.aoBoundary s o p t) := by
  unfold State.aoBoundary
  repeat' (first | with_reducible assumption | (extract_lets +onlyGivenNames x_; refine Keeps.cut x_ ?_ (fun hx_ => ?_); (on_goal 1 => (unfold x_; clear x_)); (on_goal 2 => clear_value x_)) | with_reducible apply keeps_noteStageWait | with_reducible apply keeps_modFeed | with_reducible apply keeps_aoIdle | with_reducible apply keeps_dropQueue | with_reducible apply keeps_stopMeets | with_reducible apply keeps_startOutput | with_reducible apply keeps_noteTaken | with_reducible apply keeps_aoHandOn | with_reducible apply keeps_noteLost | with_reducible apply keeps_aoSlot | with_reducible apply keeps_modPlay | with_reducible apply Keeps.ite | split)

theorem keeps_aoGo {a_ : State} (s : State) (o : Fin 16) (h_s : Keeps a_ s) : Keeps a_ (State.aoGo s o) := by
  unfold State.aoGo
  repeat' (first | with_reducible assumption | with_reducible apply keeps_modFeed | with_reducible apply keeps_aoBoundary | split)

theorem keeps_outputStarts {a_ : State} (s : State) (o : Fin 16) (t : ℕ) (h_s : Keeps a_ s) : Keeps a_ (State.outputStarts s o t) := by
  unfold State.outputStarts
  repeat' (first | with_reducible assumption | (extract_lets +onlyGivenNames x_; refine Keeps.cut x_ ?_ (fun hx_ => ?_); (on_goal 1 => (unfold x_; clear x_)); (on_goal 2 => clear_value x_)) | (extract_lets +onlyGivenNames x_; refine Keeps.cut x_.1 ?_ (fun hx_ => ?_); (on_goal 1 => (unfold x_; clear x_)); (on_goal 2 => clear_value x_)) | with_reducible apply keeps_modFeed | with_reducible apply keeps_dropQueue | with_reducible apply keeps_stopMeets | with_reducible apply keeps_takeQueue | with_reducible apply keeps_startOutput | with_reducible apply Keeps.ite | with_reducible apply Keeps.ite_fst | split)

theorem keeps_aoSettle {a_ : State} (s : State) (o : Fin 16) (h_s : Keeps a_ s) : Keeps a_ (State.aoSettle s o) := by
  unfold State.aoSettle
  repeat' (first | with_reducible assumption | with_reducible apply keeps_aoBoundary | with_reducible apply keeps_outputStarts | split)

theorem keeps_aoRow {a_ : State} (s : State) (o : Fin 16) (h_s : Keeps a_ s) : Keeps a_ (State.aoRow s o) := by
  unfold State.aoRow
  repeat' (first | with_reducible assumption | with_reducible apply keeps_modFeed | with_reducible apply keeps_aoGo | with_reducible apply keeps_aoSettle | with_reducible apply Keeps.ite)

theorem keeps_aoCatchUp {a_ : State} (s : State) (o : Fin 16) (h_s : Keeps a_ s) : Keeps a_ (State.aoCatchUp s o) := by
  unfold State.aoCatchUp
  repeat' (first | with_reducible assumption | (with_reducible intro _; intros) | (extract_lets +onlyGivenNames x_; clear_value x_) | with_reducible apply keeps_aoRow | with_reducible apply keeps_aoSettle | with_reducible apply keeps_modFeed | with_reducible apply keeps_foldl | with_reducible apply Keeps.ite)

theorem keeps_settleWaits {a_ : State} (s : State) (h_s : Keeps a_ s) : Keeps a_ (State.settleWaits s) := by
  unfold State.settleWaits
  repeat' (first | with_reducible assumption | (with_reducible intro _; intros) | with_reducible apply keeps_sliceCatch | with_reducible apply keeps_aoCatchUp | with_reducible apply keeps_foldl | with_reducible apply Keeps.ite | split)

theorem keeps_headrooms {a_ : State} (s : State) (h_s : Keeps a_ s) : Keeps a_ (State.headrooms s) := by
  unfold State.headrooms
  repeat' (first | with_reducible assumption | (with_reducible intro _; intros) | with_reducible apply keeps_noteHeadroom | with_reducible apply keeps_foldl)

theorem keeps_aoTblWrite {a_ : State} (s : State) (o : Fin 16) (i : ℕ) (v : ℕ) (h_s : Keeps a_ s) : Keeps a_ (State.aoTblWrite s o i v) := by
  unfold State.aoTblWrite
  repeat' (first | with_reducible assumption | with_reducible apply keeps_count | with_reducible apply keeps_modAo | with_reducible apply Keeps.ite)

theorem keeps_aoTblStep {a_ : State} (s : State) (o : Fin 16) (h_s : Keeps a_ s) : Keeps a_ (State.aoTblStep s o) := by
  unfold State.aoTblStep
  repeat' (first | with_reducible assumption | with_reducible apply keeps_set | with_reducible apply Keeps.ite)

theorem keeps_execAoSampleSlotStart {a_ : State} (o : Fin 16) (s : State) (h_s : Keeps a_ s) : KeepsOut a_ (execAoSampleSlotStart o s) := by
  unfold execAoSampleSlotStart
  repeat' (first | with_reducible apply KeepsOut.next | with_reducible apply KeepsOut.fault | with_reducible assumption | with_reducible apply keeps_aoRow | with_reducible apply keeps_aoCatchUp)

theorem keeps_execUnitStartFromIdle {a_ : State} (u : Fin 28) (s : State) (h_s : Keeps a_ s) : KeepsOut a_ (execUnitStartFromIdle u s) := by
  unfold execUnitStartFromIdle
  repeat' (first | with_reducible apply KeepsOut.next | with_reducible apply KeepsOut.fault | with_reducible assumption | with_reducible apply keeps_modFeed | with_reducible apply keeps_sliceCatch | with_reducible apply keeps_sliceStarts | with_reducible apply keeps_aoCatchUp | with_reducible apply keeps_outputStarts | with_reducible apply Keeps.ite | with_reducible apply KeepsOut.ite | split)

theorem keeps_execAoSlewMove {a_ : State} (o : Fin 16) (s : State) (h_s : Keeps a_ s) : KeepsOut a_ (execAoSlewMove o s) := by
  unfold execAoSlewMove
  repeat' (first | with_reducible apply KeepsOut.next | with_reducible assumption | with_reducible apply keeps_modAo | with_reducible apply KeepsOut.ite)

theorem keeps_execAoDetectorSet {a_ : State} (o : Fin 16) (open_ : Bool) (s : State) (h_s : Keeps a_ s) : KeepsOut a_ (execAoDetectorSet o open_ s) := by
  unfold execAoDetectorSet
  repeat' (first | with_reducible apply KeepsOut.next | with_reducible assumption | with_reducible apply keeps_set | with_reducible apply keeps_count | with_reducible apply keeps_defer | with_reducible apply keeps_takeInject | with_reducible apply keeps_detect | with_reducible apply keeps_faultOutput | with_reducible apply Keeps.ite | with_reducible apply KeepsOut.ite)

theorem keeps_execAoDetectorClear {a_ : State} (o : Fin 16) (open_ : Bool) (s : State) (h_s : Keeps a_ s) : KeepsOut a_ (execAoDetectorClear o open_ s) := by
  unfold execAoDetectorClear
  repeat' (first | with_reducible apply KeepsOut.next | with_reducible assumption | with_reducible apply keeps_set | with_reducible apply Keeps.ite)

theorem keeps_execAoMonUpdate {a_ : State} (o : Fin 16) (forceV : ℤ) (loadI : ℤ) (s : State) (h_s : Keeps a_ s) : KeepsOut a_ (execAoMonUpdate o forceV loadI s) := by
  unfold execAoMonUpdate
  repeat' (first | with_reducible apply KeepsOut.next | with_reducible assumption | with_reducible apply keeps_set)

theorem keeps_execAoRangeEnable {a_ : State} (o : Fin 16) (s : State) (h_s : Keeps a_ s) : KeepsOut a_ (execAoRangeEnable o s) := by
  unfold execAoRangeEnable
  repeat' (first | with_reducible apply KeepsOut.next | with_reducible assumption | with_reducible apply keeps_set | with_reducible apply keeps_modAo | with_reducible apply KeepsOut.ite)

theorem keeps_aoTblPut {a_ : State} (s : State) (o : Fin 16) (v : Word) (h_s : Keeps a_ s) : Keeps a_ (State.aoTblPut s o v) := by
  unfold State.aoTblPut
  repeat' (first | with_reducible assumption | with_reducible apply keeps_aoTblStep | with_reducible apply keeps_aoTblWrite)

theorem keeps_execAoTblDataWrite {a_ : State} (o : Fin 16) (v : Word) (s : State) (h_s : Keeps a_ s) : KeepsOut a_ (execAoTblDataWrite o v s) := by
  unfold execAoTblDataWrite
  repeat' (first | with_reducible apply KeepsOut.next | with_reducible apply KeepsOut.fault | with_reducible assumption | (with_reducible intro _; intros) | with_reducible apply keeps_toField | with_reducible apply keeps_aoTblPut)

theorem keeps_phaseAdd {a_ : State} (s : State) (o : Fin 16) (h_s : Keeps a_ s) : Keeps a_ (State.phaseAdd s o) := by
  unfold State.phaseAdd
  repeat' (first | with_reducible assumption | (extract_lets +onlyGivenNames x_; refine Keeps.cut x_.1 ?_ (fun hx_ => ?_); (on_goal 1 => (unfold x_; clear x_)); (on_goal 2 => clear_value x_)) | with_reducible apply keeps_modAo | with_reducible apply keeps_aoSram | with_reducible apply keeps_count | with_reducible apply Keeps.ite | with_reducible apply Keeps.ite_fst)

theorem keeps_execPhaseAccumulatorAdd {a_ : State} (o : Fin 16) (s : State) (h_s : Keeps a_ s) : KeepsOut a_ (execPhaseAccumulatorAdd o s) := by
  unfold execPhaseAccumulatorAdd
  repeat' (first | with_reducible apply KeepsOut.next | with_reducible assumption | with_reducible apply keeps_phaseAdd | with_reducible apply Keeps.ite)

theorem keeps_ddrRead {a_ : State} (s : State) (a : ℕ) (ecc : ℕ) (h_s : Keeps a_ s) : Keeps a_ (State.ddrRead s a ecc).1 := by
  unfold State.ddrRead
  repeat' (first | with_reducible assumption | (extract_lets +onlyGivenNames x_; refine Keeps.cut x_ ?_ (fun hx_ => ?_); (on_goal 1 => (unfold x_; clear x_)); (on_goal 2 => clear_value x_)) | with_reducible apply keeps_takeInject | with_reducible apply keeps_detect | with_reducible apply keeps_set | with_reducible apply Keeps.ite_fst)

theorem keeps_holdFault {a_ : State} (s : State) (k : Fin 16) (page : ℕ) (code : ℕ) (h_s : Keeps a_ s) : Keeps a_ (State.holdFault s k page code) := by
  unfold State.holdFault
  repeat' (first | with_reducible assumption | with_reducible apply keeps_modSess)

theorem keeps_giveSlot {a_ : State} (s : State) (k : Fin 16) (page : ℕ) (h_s : Keeps a_ s) : Keeps a_ (State.giveSlot s k page) := by
  unfold State.giveSlot
  repeat' (first | with_reducible assumption | with_reducible apply keeps_modSess | split)

theorem keeps_issueFill {a_ : State} (s : State) (k : Fin 16) (page : ℕ) (bus : ℕ) (h_s : Keeps a_ s) : Keeps a_ (State.issueFill s k page bus) := by
  unfold State.issueFill
  repeat' (first | with_reducible assumption | with_reducible apply keeps_count | with_reducible apply keeps_giveSlot | with_reducible apply keeps_modSess | with_reducible apply Keeps.ite)

theorem keeps_wantPage {a_ : State} (s : State) (k : Fin 16) (page : ℕ) (h_s : Keeps a_ s) : Keeps a_ (State.wantPage s k page) := by
  unfold State.wantPage
  repeat' (first | with_reducible assumption | with_reducible apply keeps_issueFill | with_reducible apply keeps_modSess | split)

theorem keeps_prefetch {a_ : State} (s : State) (h_s : Keeps a_ s) : Keeps a_ (State.prefetch s) := by
  unfold State.prefetch
  repeat' (first | with_reducible assumption | (with_reducible intro _; intros) | with_reducible apply keeps_wantPage | with_reducible apply keeps_foldl)

theorem keeps_touchPage {a_ : State} (s : State) (k : Fin 16) (page : ℕ) (h_s : Keeps a_ s) : Keeps a_ (State.touchPage s k page) := by
  unfold State.touchPage
  repeat' (first | with_reducible assumption | with_reducible apply keeps_modSess)

theorem keeps_refillPut {a_ : State} (s : State) (u : PlayUnit) (which : ℕ) (vs : List ℕ) (h_s : Keeps a_ s) : Keeps a_ (State.refillPut s u which vs) := by
  unfold State.refillPut
  repeat' (first | with_reducible assumption | with_reducible apply keeps_modFeed | with_reducible apply keeps_modPlay | split)

theorem keeps_execJumpRequest {a_ : State} (lines : ℕ) (s : State) (h_s : Keeps a_ s) : KeepsOut a_ (execJumpRequest lines s) := by
  unfold execJumpRequest
  repeat' (first | with_reducible apply KeepsOut.next | with_reducible assumption | (with_reducible intro _; intros) | with_reducible apply keeps_modHr | with_reducible apply keeps_jumpUnit | with_reducible apply keeps_foldl)

theorem keeps_restJumps {a_ : State} (s : State) (h_s : Keeps a_ s) : Keeps a_ (State.restJumps s) := by
  unfold State.restJumps
  repeat' (first | with_reducible assumption | (with_reducible intro _; intros) | with_reducible apply keeps_modHr | with_reducible apply keeps_jumpUnit | with_reducible apply keeps_foldl | with_reducible apply Keeps.ite)

theorem keeps_stageShadow {a_ : State} (s : State) (v : PlayUnit) (which : Bool) (d : Seg) (h_s : Keeps a_ s) : Keeps a_ (State.stageShadow s v which d) := by
  unfold State.stageShadow
  repeat' (first | with_reducible assumption | with_reducible apply keeps_modPlay)

theorem keeps_execShadowStaged {a_ : State} (u : Fin 28) (which : Bool) (s : State) (h_s : Keeps a_ s) : KeepsOut a_ (execShadowStaged u which s) := by
  unfold execShadowStaged
  repeat' (first | with_reducible apply KeepsOut.next | with_reducible assumption | (extract_lets +onlyGivenNames x_; refine KeepsOut.cut x_ ?_ (fun hx_ => ?_); (on_goal 1 => (unfold x_; clear x_)); (on_goal 2 => clear_value x_)) | (extract_lets +onlyGivenNames x_; refine KeepsOut.cut x_.2 ?_ (fun hx_ => ?_); (on_goal 1 => (unfold x_; clear x_)); (on_goal 2 => clear_value x_)) | (extract_lets +onlyGivenNames x_; clear_value x_) | with_reducible apply keeps_takeInject | with_reducible apply keeps_detect | with_reducible apply keeps_faultSlice | with_reducible apply keeps_faultOutput | with_reducible apply keeps_stageShadow | split)

theorem keeps_walkEnd {a_ : State} (s : State) (k : Fin 16) (page : ℕ) (w : ℕ ⊕ ℕ × ℕ) (h_s : Keeps a_ s) : Keeps a_ (State.walkEnd s k page w) := by
  unfold State.walkEnd
  repeat' (first | with_reducible assumption | with_reducible apply keeps_modSess | with_reducible apply keeps_holdFault | with_reducible apply keeps_issueFill | with_reducible apply Keeps.ite | split)

theorem keeps_walkReads {a_ : State} (s : State) (a1 : ℕ) (a2 : ℕ) (ecc : ℕ) (valid : Bool) (h_s : Keeps a_ s) : Keeps a_ (State.walkReads s a1 a2 ecc valid).1 := by
  unfold State.walkReads
  repeat' (first | with_reducible assumption | with_reducible apply keeps_ddrRead | with_reducible apply Keeps.ite_fst)

theorem keeps_walkJudge {a_ : State} (k : Fin 16) (page : ℕ) (r : State × Bool) (h_r : Keeps a_ r.1) : Keeps a_ (State.walkJudge k page r) := by
  unfold State.walkJudge
  repeat' (first | with_reducible assumption | with_reducible apply keeps_walkEnd | with_reducible apply Keeps.ite)

theorem keeps_pageIn {a_ : State} (s : State) (k : Fin 16) (page : ℕ) (i : ℕ) (data : List Byte) (h_s : Keeps a_ s) : Keeps a_ (State.pageIn s k page i data) := by
  unfold State.pageIn
  repeat' (first | with_reducible assumption | (extract_lets +onlyGivenNames x_; refine Keeps.cut x_ ?_ (fun hx_ => ?_); (on_goal 1 => (unfold x_; clear x_)); (on_goal 2 => clear_value x_)) | with_reducible apply keeps_modSess | with_reducible apply keeps_count | with_reducible apply keeps_ddr)

theorem keeps_execPageTableWalkDone {a_ : State} (k : Fin 16) (page : ℕ) (ecc : ℕ) (s : State) (h_s : Keeps a_ s) : KeepsOut a_ (execPageTableWalkDone k page ecc s) := by
  unfold execPageTableWalkDone
  repeat' (first | with_reducible apply KeepsOut.next | with_reducible apply KeepsOut.fault | with_reducible assumption | with_reducible apply keeps_walkEnd | with_reducible apply keeps_walkJudge | with_reducible apply keeps_walkReads | with_reducible apply Keeps.ite)

theorem keeps_execPageFillComplete {a_ : State} (k : Fin 16) (page : ℕ) (err : Bool) (data : List Byte) (s : State) (h_s : Keeps a_ s) : KeepsOut a_ (execPageFillComplete k page err data s) := by
  unfold execPageFillComplete
  repeat' (first | with_reducible apply KeepsOut.next | with_reducible apply KeepsOut.fault | with_reducible assumption | (extract_lets +onlyGivenNames x_; refine Keeps.cut x_ ?_ (fun hx_ => ?_); (on_goal 1 => (unfold x_; clear x_)); (on_goal 2 => clear_value x_)) | (extract_lets +onlyGivenNames x_; refine KeepsOut.cut x_ ?_ (fun hx_ => ?_); (on_goal 1 => (unfold x_; clear x_)); (on_goal 2 => clear_value x_)) | (extract_lets +onlyGivenNames x_; unfold x_; clear x_; beta_reduce) | with_reducible apply keeps_modSess | with_reducible apply keeps_holdFault | with_reducible apply keeps_giveSlot | with_reducible apply keeps_pageIn | with_reducible apply Keeps.ite | with_reducible apply KeepsOut.ite | split)

theorem keeps_execFillTimeout {a_ : State} (k : Fin 16) (page : ℕ) (s : State) (h_s : Keeps a_ s) : KeepsOut a_ (execFillTimeout k page s) := by
  unfold execFillTimeout
  repeat' (first | with_reducible apply KeepsOut.next | with_reducible apply KeepsOut.fault | with_reducible assumption | with_reducible apply keeps_modSess)

theorem keeps_execRefillReadComplete {a_ : State} (u : Fin 28) (which : Fin 3) (count : ℕ) (ecc : ℕ) (s : State) (h_s : Keeps a_ s) : KeepsOut a_ (execRefillReadComplete u which count ecc s) := by
  unfold execRefillReadComplete
  repeat' (first | with_reducible apply KeepsOut.next | with_reducible apply KeepsOut.fault | with_reducible assumption | (with_reducible intro _; intros) | (extract_lets +onlyGivenNames x_; refine KeepsOut.cut x_.1 ?_ (fun hx_ => ?_); (on_goal 1 => (unfold x_; clear x_)); (on_goal 2 => clear_value x_)) | (extract_lets +onlyGivenNames x_; clear_value x_) | with_reducible apply keeps_ddrRead | with_reducible apply keeps_holdFault | with_reducible apply keeps_touchPage | with_reducible apply keeps_refillPut | with_reducible apply keeps_foldl | with_reducible apply keeps_foldl_fst | with_reducible apply keeps_foldl_snd | with_reducible apply Keeps.ite | with_reducible apply KeepsOut.ite | with_reducible apply Keeps.ite_fst | split)

theorem keeps_invTlb {a_ : State} (s : State) (k : Fin 16) (h_s : Keeps a_ s) : Keeps a_ (State.invTlb s k) := by
  unfold State.invTlb
  repeat' (first | with_reducible assumption | with_reducible apply keeps_modSess)

theorem keeps_invPages {a_ : State} (s : State) (k : Fin 16) (h_s : Keeps a_ s) : Keeps a_ (State.invPages s k) := by
  unfold State.invPages
  repeat' (first | with_reducible assumption | (extract_lets +onlyGivenNames x_; refine Keeps.cut x_ ?_ (fun hx_ => ?_); (on_goal 1 => (unfold x_; clear x_)); (on_goal 2 => clear_value x_)) | (extract_lets +onlyGivenNames x_; clear_value x_) | with_reducible apply keeps_count | with_reducible apply keeps_modSess | with_reducible apply Keeps.ite)

theorem keeps_execVsInvTlb {a_ : State} (k : Fin 16) (s : State) (h_s : Keeps a_ s) : KeepsOut a_ (execVsInvTlb k s) := by
  unfold execVsInvTlb
  repeat' (first | with_reducible apply KeepsOut.next | with_reducible apply KeepsOut.fault | with_reducible assumption | (with_reducible intro _; intros) | with_reducible apply keeps_hostStrobe | with_reducible apply keeps_invTlb)

theorem keeps_execVsInvPages {a_ : State} (k : Fin 16) (s : State) (h_s : Keeps a_ s) : KeepsOut a_ (execVsInvPages k s) := by
  unfold execVsInvPages
  repeat' (first | with_reducible apply KeepsOut.next | with_reducible apply KeepsOut.fault | with_reducible assumption | (with_reducible intro _; intros) | with_reducible apply keeps_hostStrobe | with_reducible apply keeps_invPages)

theorem keeps_emitPulses {a_ : State} (s : State) (c : Fin 4) (mask : ℕ) (h_s : Keeps a_ s) : Keeps a_ (State.emitPulses s c mask) := by
  unfold State.emitPulses
  repeat' (first | with_reducible assumption | (with_reducible intro _; intros) | with_reducible apply keeps_defer | with_reducible apply keeps_foldl | with_reducible apply Keeps.ite)

theorem keeps_applyFx {a_ : State} (s : State) (c : Fin 4) (fx : SpanFx) (h_s : Keeps a_ s) : Keeps a_ (State.applyFx s c fx) := by
  unfold State.applyFx
  repeat' (first | with_reducible assumption | (with_reducible intro _; intros) | (extract_lets +onlyGivenNames x_; refine Keeps.cut x_ ?_ (fun hx_ => ?_); (on_goal 1 => (unfold x_; clear x_)); (on_goal 2 => clear_value x_)) | (extract_lets +onlyGivenNames x_; clear_value x_) | with_reducible apply keeps_emitPulses | with_reducible apply keeps_fwQueueOp | with_reducible apply keeps_overSlices | with_reducible apply keeps_depositSlice | with_reducible apply keeps_overOutputs | with_reducible apply keeps_calDeposit | with_reducible apply keeps_depositAo | with_reducible apply keeps_foldl | with_reducible apply Keeps.ite | split)

theorem keeps_spanView {a_ : State} (s : State) (c : Fin 4) (h_s : Keeps a_ s) : Keeps a_ (State.spanView s c) := by
  unfold State.spanView
  repeat' (first | with_reducible assumption | (with_reducible intro _; intros) | with_reducible apply keeps_applyFx | with_reducible apply keeps_foldl | split)

theorem keeps_dispatch {a_ : State} (s : State) (c : Fin 4) (k : Fin 16) (h_s : Keeps a_ s) : Keeps a_ (State.dispatch s c k) := by
  unfold State.dispatch
  repeat' (first | with_reducible assumption | (extract_lets +onlyGivenNames x_; refine Keeps.cut x_ ?_ (fun hx_ => ?_); (on_goal 1 => (unfold x_; clear x_)); (on_goal 2 => clear_value x_)) | with_reducible apply keeps_noteWait | with_reducible apply keeps_modCore | with_reducible apply keeps_modSess | split)

theorem keeps_switchOut {a_ : State} (s : State) (c : Fin 4) (h_s : Keeps a_ s) : Keeps a_ (State.switchOut s c) := by
  unfold State.switchOut
  repeat' (first | with_reducible assumption | (extract_lets +onlyGivenNames x_; clear_value x_) | with_reducible apply keeps_modCore | with_reducible apply keeps_modSess)

theorem keeps_retireCore {a_ : State} (s : State) (c : Fin 4) (h_s : Keeps a_ s) : Keeps a_ (State.retireCore s c) := by
  unfold State.retireCore
  repeat' (first | with_reducible assumption | with_reducible apply keeps_set | with_reducible apply keeps_modCore)

theorem keeps_shotBoundary {a_ : State} (s : State) (c : Fin 4) (h_s : Keeps a_ s) : Keeps a_ (State.shotBoundary s c) := by
  unfold State.shotBoundary
  repeat' (first | with_reducible assumption | (extract_lets +onlyGivenNames x_; refine Keeps.cut x_ ?_ (fun hx_ => ?_); (on_goal 1 => (unfold x_; clear x_)); (on_goal 2 => clear_value x_)) | with_reducible apply keeps_retireCore | with_reducible apply keeps_switchOut | with_reducible apply keeps_count | with_reducible apply keeps_dispatch | with_reducible apply Keeps.ite | split)

theorem keeps_takePending {a_ : State} (s : State) (c : Fin 4) (h_s : Keeps a_ s) : Keeps a_ (State.takePending s c) := by
  unfold State.takePending
  repeat' (first | with_reducible assumption | with_reducible apply keeps_endSeq | with_reducible apply keeps_modCore | with_reducible apply Keeps.ite)

theorem keeps_afterWord {a_ : State} (s : State) (c : Fin 4) (w : ℕ) (h_s : Keeps a_ s) : Keeps a_ (State.afterWord s c w) := by
  unfold State.afterWord
  repeat' (first | with_reducible assumption | (extract_lets +onlyGivenNames x_; refine Keeps.cut x_ ?_ (fun hx_ => ?_); (on_goal 1 => (unfold x_; clear x_)); (on_goal 2 => clear_value x_)) | with_reducible apply keeps_stopSeq | with_reducible apply keeps_retireCore | with_reducible apply keeps_shotBoundary | with_reducible apply keeps_takePending | with_reducible apply Keeps.ite)

theorem keeps_countIssue {a_ : State} (s : State) (k : Fin 16) (w : ℕ) (h_s : Keeps a_ s) : Keeps a_ (State.countIssue s k w) := by
  unfold State.countIssue
  repeat' (first | with_reducible assumption | with_reducible apply keeps_modSess | with_reducible apply Keeps.ite)

theorem keeps_stall {a_ : State} (s : State) (c : Fin 4) (cv : Bool) (tmo : Bool) (h_s : Keeps a_ s) : Keeps a_ (State.stall s c cv tmo) := by
  unfold State.stall
  repeat' (first | with_reducible assumption | (extract_lets +onlyGivenNames x_; refine Keeps.cut x_ ?_ (fun hx_ => ?_); (on_goal 1 => (unfold x_; clear x_)); (on_goal 2 => clear_value x_)) | with_reducible apply keeps_count | with_reducible apply keeps_modCore | with_reducible apply Keeps.ite)

theorem keeps_openSpan {a_ : State} (s : State) (c : Fin 4) (h_s : Keeps a_ s) : Keeps a_ (State.openSpan s c) := by
  unfold State.openSpan
  repeat' (first | with_reducible assumption | with_reducible apply keeps_modCore)

theorem keeps_completeWord {a_ : State} (s : State) (c : Fin 4) (w : ℕ) (cv : Bool) (tmo : Bool) (h_s : Keeps a_ s) : Keeps a_ (State.completeWord s c w cv tmo) := by
  unfold State.completeWord
  repeat' (first | with_reducible assumption | (with_reducible intro _; intros) | (extract_lets +onlyGivenNames x_; refine Keeps.cut x_ ?_ (fun hx_ => ?_); (on_goal 1 => (unfold x_; clear x_)); (on_goal 2 => clear_value x_)) | (extract_lets +onlyGivenNames x_; refine Keeps.cut x_.2 ?_ (fun hx_ => ?_); (on_goal 1 => (unfold x_; clear x_)); (on_goal 2 => clear_value x_)) | (extract_lets +onlyGivenNames x_; clear_value x_) | with_reducible apply keeps_openSpan | with_reducible apply keeps_takeInject | with_reducible apply keeps_hardFaultCore | with_reducible apply keeps_detect | with_reducible apply keeps_sramCe | with_reducible apply keeps_noteCond | with_reducible apply keeps_countIssue | with_reducible apply keeps_modCore | with_reducible apply keeps_afterWord | with_reducible apply keeps_applyFx | with_reducible apply keeps_stall | with_reducible apply keeps_foldl | with_reducible apply keeps_foldl_fst | with_reducible apply keeps_foldl_snd | with_reducible apply Keeps.ite | with_reducible apply Keeps.ite_snd)

theorem keeps_csScrub {a_ : State} (s : State) (a : ℕ) (x : CsWord) (inj : Bool) (owner : Option (Fin 16)) (h_s : Keeps a_ s) : Keeps a_ (State.csScrub s a x inj owner) := by
  unfold State.csScrub
  repeat' (first | with_reducible assumption | (with_reducible intro _; intros) | (extract_lets +onlyGivenNames x_; refine Keeps.cut x_ ?_ (fun hx_ => ?_); (on_goal 1 => (unfold x_; clear x_)); (on_goal 2 => clear_value x_)) | (extract_lets +onlyGivenNames x_; unfold x_; clear x_; beta_reduce) | with_reducible apply keeps_detect | with_reducible apply keeps_count | with_reducible apply keeps_foldl | with_reducible apply Keeps.ite | with_reducible apply keeps_mk)

theorem keeps_csDouble {a_ : State} (s : State) (a : ℕ) (h_s : Keeps a_ s) : Keeps a_ (State.csDouble s a) := by
  unfold State.csDouble
  repeat' (first | with_reducible assumption | with_reducible apply keeps_set | with_reducible apply keeps_count)

theorem keeps_fetchWord {a_ : State} (s : State) (c : Fin 4) (h_s : Keeps a_ s) : Keeps a_ (State.fetchWord s c).1 := by
  unfold State.fetchWord
  repeat' (first | with_reducible assumption | (extract_lets +onlyGivenNames x_; refine Keeps.cut x_ ?_ (fun hx_ => ?_); (on_goal 1 => (unfold x_; clear x_)); (on_goal 2 => clear_value x_)) | (extract_lets +onlyGivenNames x_; refine Keeps.cut x_.2 ?_ (fun hx_ => ?_); (on_goal 1 => (unfold x_; clear x_)); (on_goal 2 => clear_value x_)) | (extract_lets +onlyGivenNames x_; clear_value x_) | with_reducible apply keeps_modCore | with_reducible apply keeps_takeInject | with_reducible apply keeps_csScrub | with_reducible apply keeps_detect | with_reducible apply keeps_csDouble | with_reducible apply Keeps.ite | with_reducible apply Keeps.ite_fst | with_reducible apply Keeps.ite_snd | split)

theorem keeps_wordStarts {a_ : State} (s : State) (c : Fin 4) (w : ℕ) (h_s : Keeps a_ s) : Keeps a_ (State.wordStarts s c w) := by
  unfold State.wordStarts
  repeat' (first | with_reducible assumption | (extract_lets +onlyGivenNames x_; clear_value x_) | with_reducible apply keeps_modCore)

theorem keeps_runWord {a_ : State} (s : State) (c : Fin 4) (h : Keeps a_ s) : Keeps a_ (s.runWord c) := by
  have g := keeps_fetchWord s c h
  unfold State.runWord
  generalize s.fetchWord c = r at g ⊢
  obtain ⟨s, x⟩ := r
  dsimp only at g
  cases x with
  | inr code => exact keeps_hardFaultCore _ _ _ g
  | inl w =>
    have g := keeps_wordStarts _ c w g
    exact Keeps.ite (Keeps.ite (Keeps.ite (keeps_completeWord _ _ _ _ _ g) (keeps_endSeq _ _ _ g)) (keeps_modCore _ _ _ g))
      (keeps_completeWord _ _ _ _ _ g)

theorem keeps_runSpan {a_ : State} (s : State) (c : Fin 4) (n : Nat) (h : Keeps a_ s) : Keeps a_ (s.runSpan c n) := by
  induction n generalizing s with
  | zero => exact h
  | succ n ih => exact Keeps.ite (ih _ (keeps_runWord _ _ h)) (keeps_runWord _ _ h)

theorem keeps_execMicrowordComplete {a_ : State} (c : Fin 4) (s : State) (h_s : Keeps a_ s) : KeepsOut a_ (execMicrowordComplete c s) := by
  unfold execMicrowordComplete
  repeat' (first | with_reducible apply KeepsOut.next | with_reducible apply KeepsOut.fault | with_reducible assumption | with_reducible apply keeps_runWord | with_reducible apply Keeps.ite)

theorem keeps_execConditionTrue {a_ : State} (c : Fin 4) (s : State) (h_s : Keeps a_ s) : KeepsOut a_ (execConditionTrue c s) := by
  unfold execConditionTrue
  repeat' (first | with_reducible apply KeepsOut.next | with_reducible apply KeepsOut.fault | with_reducible assumption | with_reducible apply keeps_completeWord | with_reducible apply Keeps.ite | with_reducible apply KeepsOut.ite | split)

theorem keeps_execWaitTimeout {a_ : State} (c : Fin 4) (s : State) (h_s : Keeps a_ s) : KeepsOut a_ (execWaitTimeout c s) := by
  unfold execWaitTimeout
  repeat' (first | with_reducible apply KeepsOut.next | with_reducible apply KeepsOut.fault | with_reducible assumption | with_reducible apply keeps_completeWord | with_reducible apply keeps_endSeq | with_reducible apply Keeps.ite | with_reducible apply KeepsOut.ite | split)

theorem keeps_execStallRelease {a_ : State} (c : Fin 4) (s : State) (h_s : Keeps a_ s) : KeepsOut a_ (execStallRelease c s) := by
  unfold execStallRelease
  repeat' (first | with_reducible apply KeepsOut.next | with_reducible apply KeepsOut.fault | with_reducible assumption | with_reducible apply keeps_completeWord | split)

theorem keeps_execCsPatrol {a_ : State} (a : Fin 16384) (s : State) (h_s : Keeps a_ s) : KeepsOut a_ (execCsPatrol a s) := by
  unfold execCsPatrol
  repeat' (first | with_reducible apply KeepsOut.next | with_reducible apply KeepsOut.fault | with_reducible assumption | with_reducible apply keeps_csScrub | with_reducible apply keeps_csDouble | with_reducible apply Keeps.ite | with_reducible apply KeepsOut.ite | split)

theorem keeps_haltCore {a_ : State} (s : State) (c : Fin 4) (h_s : Keeps a_ s) : Keeps a_ (State.haltCore s c) := by
  unfold State.haltCore
  repeat' (first | with_reducible assumption | with_reducible apply keeps_modCore | with_reducible apply keeps_count | with_reducible apply Keeps.ite | split)

theorem keeps_resumeCore {a_ : State} (s : State) (c : Fin 4) (h_s : Keeps a_ s) : Keeps a_ (State.resumeCore s c) := by
  unfold State.resumeCore
  repeat' (first | with_reducible assumption | with_reducible apply keeps_modCore | with_reducible apply Keeps.ite)

theorem keeps_stepCore {a_ : State} (s : State) (c : Fin 4) (h_s : Keeps a_ s) : Keeps a_ (State.stepCore s c) := by
  unfold State.stepCore
  repeat' (first | with_reducible assumption | with_reducible apply keeps_runSpan | with_reducible apply keeps_modCore | with_reducible apply Keeps.ite)

theorem keeps_execHalt {a_ : State} (c : Fin 4) (s : State) (h_s : Keeps a_ s) : KeepsOut a_ (execHalt c s) := by
  unfold execHalt
  repeat' (first | with_reducible apply KeepsOut.next | with_reducible apply KeepsOut.fault | with_reducible assumption | (with_reducible intro _; intros) | with_reducible apply keeps_hostStrobe | with_reducible apply keeps_haltCore)

theorem keeps_execResume {a_ : State} (c : Fin 4) (s : State) (h_s : Keeps a_ s) : KeepsOut a_ (execResume c s) := by
  unfold execResume
  repeat' (first | with_reducible apply KeepsOut.next | with_reducible apply KeepsOut.fault | with_reducible assumption | (with_reducible intro _; intros) | with_reducible apply keeps_hostStrobe | with_reducible apply keeps_resumeCore)

theorem keeps_execStep {a_ : State} (c : Fin 4) (s : State) (h_s : Keeps a_ s) : KeepsOut a_ (execStep c s) := by
  unfold execStep
  repeat' (first | with_reducible apply KeepsOut.next | with_reducible apply KeepsOut.fault | with_reducible assumption | (with_reducible intro _; intros) | with_reducible apply keeps_hostStrobe | with_reducible apply keeps_stepCore)

theorem keeps_execCoreDispatch {a_ : State} (c : Fin 4) (s : State) (h_s : Keeps a_ s) : KeepsOut a_ (execCoreDispatch c s) := by
  unfold execCoreDispatch
  repeat' (first | with_reducible apply KeepsOut.next | with_reducible apply KeepsOut.fault | with_reducible assumption | with_reducible apply keeps_dispatch | with_reducible apply Keeps.ite | with_reducible apply KeepsOut.ite | split)

theorem keeps_cswAddr {a_ : State} (s : State) (v : Word) (h_s : Keeps a_ s) : Keeps a_ (State.cswAddr s v) := by
  unfold State.cswAddr
  repeat' (first | with_reducible assumption | (extract_lets +onlyGivenNames x_; refine Keeps.cut x_ ?_ (fun hx_ => ?_); (on_goal 1 => (unfold x_; clear x_)); (on_goal 2 => clear_value x_)) | (extract_lets +onlyGivenNames x_; clear_value x_) | with_reducible apply keeps_set | with_reducible apply keeps_mk)

theorem keeps_execCswAddrWrite {a_ : State} (v : Word) (s : State) (h_s : Keeps a_ s) : KeepsOut a_ (execCswAddrWrite v s) := by
  unfold execCswAddrWrite
  repeat' (first | with_reducible apply KeepsOut.next | with_reducible apply KeepsOut.fault | with_reducible assumption | (with_reducible intro _; intros) | with_reducible apply keeps_toField | with_reducible apply keeps_cswAddr)

theorem keeps_execCswData0Read {a_ : State} (s : State) (h_s : Keeps a_ s) : KeepsOut a_ (execCswData0Read s) := by
  unfold execCswData0Read
  repeat' (first | with_reducible apply KeepsOut.next | with_reducible apply KeepsOut.fault | with_reducible assumption | (with_reducible intro _; intros) | (extract_lets +onlyGivenNames x_; clear_value x_) | with_reducible apply keeps_readField | with_reducible apply keeps_mk)

theorem keeps_execCswData5Read {a_ : State} (s : State) (h_s : Keeps a_ s) : KeepsOut a_ (execCswData5Read s) := by
  unfold execCswData5Read
  repeat' (first | with_reducible apply KeepsOut.next | with_reducible apply KeepsOut.fault | with_reducible assumption | (with_reducible intro _; intros) | (extract_lets +onlyGivenNames x_; refine Keeps.cut x_ ?_ (fun hx_ => ?_); (on_goal 1 => (unfold x_; clear x_)); (on_goal 2 => clear_value x_)) | (extract_lets +onlyGivenNames x_; clear_value x_) | with_reducible apply keeps_readField | with_reducible apply keeps_set | with_reducible apply Keeps.ite)

theorem keeps_candidate {a_ : State} (s : State) (vals : List (ℕ × Word)) (segs : List (ℕ × SMap ℕ)) (h_s : Keeps a_ s) : Keeps a_ (State.candidate s vals segs) := by
  unfold State.candidate
  repeat' (first | with_reducible assumption | (with_reducible intro _; intros) | (extract_lets +onlyGivenNames x_; refine Keeps.cut x_ ?_ (fun hx_ => ?_); (on_goal 1 => (unfold x_; clear x_)); (on_goal 2 => clear_value x_)) | with_reducible apply keeps_putActive | with_reducible apply keeps_modSess | with_reducible apply keeps_foldl)

theorem keeps_spareStart {a_ : State} (s : State) (n : Fin 12) (l : Fin 8) (restore : Bool) (h_s : Keeps a_ s) : Keeps a_ (State.spareStart s n l restore) := by
  unfold State.spareStart
  repeat' (first | with_reducible assumption | (extract_lets +onlyGivenNames x_; refine Keeps.cut x_ ?_ (fun hx_ => ?_); (on_goal 1 => (unfold x_; clear x_)); (on_goal 2 => clear_value x_)) | (extract_lets +onlyGivenNames x_; clear_value x_) | with_reducible apply keeps_set | with_reducible apply keeps_calAbandon | with_reducible apply keeps_modSlice | with_reducible apply keeps_strobeSync | with_reducible apply keeps_modLane)

theorem keeps_spareOver {a_ : State} (s : State) (n : Fin 12) (h_s : Keeps a_ s) : Keeps a_ (State.spareOver s n) := by
  unfold State.spareOver
  repeat' (first | with_reducible assumption | with_reducible apply keeps_set | with_reducible apply keeps_modSlice)

theorem keeps_laneFault {a_ : State} (s : State) (n : Fin 12) (l : Fin 8) (h_s : Keeps a_ s) : Keeps a_ (State.laneFault s n l) := by
  unfold State.laneFault
  repeat' (first | with_reducible assumption | (extract_lets +onlyGivenNames x_; refine Keeps.cut x_ ?_ (fun hx_ => ?_); (on_goal 1 => (unfold x_; clear x_)); (on_goal 2 => clear_value x_)) | (extract_lets +onlyGivenNames x_; clear_value x_) | with_reducible apply keeps_strobeSync | with_reducible apply keeps_modLane | with_reducible apply keeps_safeLane | with_reducible apply keeps_hardFaultSess | with_reducible apply Keeps.ite | split)

theorem keeps_releaseLane {a_ : State} (s : State) (n : Fin 12) (l : Fin 8) (h_s : Keeps a_ s) : Keeps a_ (State.releaseLane s n l) := by
  unfold State.releaseLane
  repeat' (first | with_reducible assumption | (extract_lets +onlyGivenNames x_; clear_value x_) | with_reducible apply keeps_modLane | with_reducible apply keeps_strobeSync | with_reducible apply keeps_driveAlt | with_reducible apply Keeps.ite)

theorem keeps_spareStep {a_ : State} (s : State) (n : Fin 12) (stage : ℕ) (h_s : Keeps a_ s) : Keeps a_ (State.spareStep s n stage) := by
  unfold State.spareStep
  repeat' (first | with_reducible assumption | with_reducible apply keeps_modSlice | with_reducible apply Keeps.ite | split)

theorem keeps_spareForce {a_ : State} (s : State) (n : Fin 12) (l : Fin 8) (h_s : Keeps a_ s) : Keeps a_ (State.spareForce s n l) := by
  unfold State.spareForce
  repeat' (first | with_reducible assumption | (extract_lets +onlyGivenNames x_; refine Keeps.cut x_ ?_ (fun hx_ => ?_); (on_goal 1 => (unfold x_; clear x_)); (on_goal 2 => clear_value x_)) | with_reducible apply keeps_set | with_reducible apply keeps_raise | with_reducible apply keeps_spareStart | with_reducible apply Keeps.ite)

theorem keeps_execSpareForce {a_ : State} (n : Fin 12) (l : Fin 8) (s : State) (h_s : Keeps a_ s) : KeepsOut a_ (execSpareForce n l s) := by
  unfold execSpareForce
  repeat' (first | with_reducible apply KeepsOut.next | with_reducible apply KeepsOut.fault | with_reducible assumption | (with_reducible intro _; intros) | with_reducible apply keeps_toField | with_reducible apply keeps_spareForce)

theorem keeps_spareRestore {a_ : State} (s : State) (n : Fin 12) (l : Fin 8) (err : ℤ) (h_s : Keeps a_ s) : Keeps a_ (State.spareRestore s n l err) := by
  unfold State.spareRestore
  repeat' (first | with_reducible assumption | (extract_lets +onlyGivenNames x_; refine Keeps.cut x_ ?_ (fun hx_ => ?_); (on_goal 1 => (unfold x_; clear x_)); (on_goal 2 => clear_value x_)) | (extract_lets +onlyGivenNames x_; refine Keeps.cut x_.2 ?_ (fun hx_ => ?_); (on_goal 1 => (unfold x_; clear x_)); (on_goal 2 => clear_value x_)) | (extract_lets +onlyGivenNames x_; clear_value x_) | with_reducible apply keeps_set | with_reducible apply keeps_takeInject | with_reducible apply keeps_spareStart | with_reducible apply keeps_raise | with_reducible apply Keeps.ite)

theorem keeps_execSpareRestore {a_ : State} (n : Fin 12) (l : Fin 8) (err : ℤ) (s : State) (h_s : Keeps a_ s) : KeepsOut a_ (execSpareRestore n l err s) := by
  unfold execSpareRestore
  repeat' (first | with_reducible apply KeepsOut.next | with_reducible apply KeepsOut.fault | with_reducible assumption | (with_reducible intro _; intros) | with_reducible apply keeps_toField | with_reducible apply keeps_spareRestore)

theorem keeps_execSpareTg8Connected {a_ : State} (n : Fin 12) (s : State) (h_s : Keeps a_ s) : KeepsOut a_ (execSpareTg8Connected n s) := by
  unfold execSpareTg8Connected
  repeat' (first | with_reducible apply KeepsOut.next | with_reducible apply KeepsOut.fault | with_reducible assumption | with_reducible apply keeps_spareStep)

theorem keeps_execSpareTrimsSettled {a_ : State} (n : Fin 12) (s : State) (h_s : Keeps a_ s) : KeepsOut a_ (execSpareTrimsSettled n s) := by
  unfold execSpareTrimsSettled
  repeat' (first | with_reducible apply KeepsOut.next | with_reducible apply KeepsOut.fault | with_reducible assumption | with_reducible apply keeps_spareStep)

theorem keeps_execSpareLoopbackCheck {a_ : State} (n : Fin 12) (pass : Bool) (s : State) (h_s : Keeps a_ s) : KeepsOut a_ (execSpareLoopbackCheck n pass s) := by
  unfold execSpareLoopbackCheck
  repeat' (first | with_reducible apply KeepsOut.next | with_reducible apply KeepsOut.fault | with_reducible assumption | with_reducible apply keeps_spareStep | with_reducible apply keeps_laneFault | with_reducible apply keeps_spareOver | with_reducible apply Keeps.ite | with_reducible apply KeepsOut.ite | split)

theorem keeps_execSpareTakeover {a_ : State} (n : Fin 12) (s : State) (h_s : Keeps a_ s) : KeepsOut a_ (execSpareTakeover n s) := by
  unfold execSpareTakeover
  repeat' (first | with_reducible apply KeepsOut.next | with_reducible apply KeepsOut.fault | with_reducible assumption | (extract_lets +onlyGivenNames x_; refine Keeps.cut x_ ?_ (fun hx_ => ?_); (on_goal 1 => (unfold x_; clear x_)); (on_goal 2 => clear_value x_)) | (extract_lets +onlyGivenNames x_; refine KeepsOut.cut x_ ?_ (fun hx_ => ?_); (on_goal 1 => (unfold x_; clear x_)); (on_goal 2 => clear_value x_)) | (extract_lets +onlyGivenNames x_; clear_value x_) | with_reducible apply keeps_set | with_reducible apply keeps_spareOver | with_reducible apply keeps_defer | with_reducible apply keeps_releaseLane | with_reducible apply Keeps.ite | with_reducible apply KeepsOut.ite | split)

theorem keeps_tgDetect {a_ : State} (s : State) (n : Fin 12) (g : Fin 9) (injected : Bool) (h_s : Keeps a_ s) : Keeps a_ (State.tgDetect s n g injected) := by
  unfold State.tgDetect
  repeat' (first | with_reducible assumption | (extract_lets +onlyGivenNames x_; unfold x_; clear x_; beta_reduce) | with_reducible apply keeps_detect | with_reducible apply keeps_set | with_reducible apply keeps_spareStart | with_reducible apply keeps_laneFault | with_reducible apply keeps_spareOver | with_reducible apply Keeps.ite | split)

theorem keeps_execTgSelfCheck {a_ : State} (n : Fin 12) (g : Fin 9) (err : ℤ) (s : State) (h_s : Keeps a_ s) : KeepsOut a_ (execTgSelfCheck n g err s) := by
  unfold execTgSelfCheck
  repeat' (first | with_reducible apply KeepsOut.next | with_reducible apply KeepsOut.fault | with_reducible assumption | (extract_lets +onlyGivenNames x_; refine Keeps.cut x_ ?_ (fun hx_ => ?_); (on_goal 1 => (unfold x_; clear x_)); (on_goal 2 => clear_value x_)) | (extract_lets +onlyGivenNames x_; refine KeepsOut.cut x_ ?_ (fun hx_ => ?_); (on_goal 1 => (unfold x_; clear x_)); (on_goal 2 => clear_value x_)) | (extract_lets +onlyGivenNames x_; refine KeepsOut.cut x_.2 ?_ (fun hx_ => ?_); (on_goal 1 => (unfold x_; clear x_)); (on_goal 2 => clear_value x_)) | (extract_lets +onlyGivenNames x_; unfold x_; clear x_; beta_reduce) | with_reducible apply keeps_takeInject | with_reducible apply keeps_modFlt | with_reducible apply keeps_set | with_reducible apply keeps_tgDetect | with_reducible apply Keeps.ite | with_reducible apply KeepsOut.ite)

end Sys2Proof.Machine
end

