-- ==== Sys2Proof/Laws/KeepsSessions.lean ====
section
/-! SUPPORT. What the operations of the machine keep: commits, forwarding, sessions, faults, images and reads. -/

namespace Sys2Proof.Machine

theorem keeps_pinReadAt {a_ : State} (s : State) (c : State) (k : Fin 16) (va : ℕ) (w : ℕ ⊕ ℕ × ℕ) (h_s : Keeps a_ s) (h_c : Keeps a_ c) : Keeps a_ (State.pinReadAt s c k va w).1 := by
  unfold State.pinReadAt
  repeat' (first | with_reducible assumption | with_reducible apply keeps_ddrRead | split)

theorem keeps_pinRead {a_ : State} (s : State) (c : State) (k : Fin 16) (n : Fin 12) (d : Seg) (h_s : Keeps a_ s) (h_c : Keeps a_ c) : Keeps a_ (State.pinRead s c k n d).1 := by
  unfold State.pinRead
  repeat' (first | with_reducible assumption | with_reducible apply keeps_pinReadAt)

theorem keeps_pinJoin {a_ : State} (pinned : List (ℕ × List ℕ)) (idx : ℕ) (r : State × Bool) (x : Option (List ℕ)) (h_r : Keeps a_ r.1) : Keeps a_ (State.pinJoin pinned idx r x).1 := by
  unfold State.pinJoin
  repeat' (first | with_reducible assumption | split)

theorem keeps_pinEntry {a_ : State} (c : State) (k : Fin 16) (n : Fin 12) (pages : List (ℕ × List Byte)) (failed : List (ℕ × ℕ)) (acc : State × List (ℕ × List ℕ)) (d : Seg) (m : ℕ) (h_c : Keeps a_ c) (h_acc : Keeps a_ acc.1) : Keeps a_ (State.pinEntry c k n pages failed acc d m).1 := by
  unfold State.pinEntry
  repeat' (first | with_reducible assumption | with_reducible apply keeps_pinJoin | with_reducible apply keeps_pinRead | with_reducible apply Keeps.ite | with_reducible apply Keeps.ite_fst)

theorem keeps_pinSlice {a_ : State} (s : State) (c : State) (k : Fin 16) (n : Fin 12) (pages : List (ℕ × List Byte)) (failed : List (ℕ × ℕ)) (h_s : Keeps a_ s) (h_c : Keeps a_ c) : Keeps a_ (State.pinSlice s c k n pages failed) := by
  unfold State.pinSlice
  repeat' (first | with_reducible assumption | (with_reducible intro _; intros) | (extract_lets +onlyGivenNames x_; refine Keeps.cut x_ ?_ (fun hx_ => ?_); (on_goal 1 => (unfold x_; clear x_)); (on_goal 2 => clear_value x_)) | (extract_lets +onlyGivenNames x_; refine Keeps.cut x_.1 ?_ (fun hx_ => ?_); (on_goal 1 => (unfold x_; clear x_)); (on_goal 2 => clear_value x_)) | (extract_lets +onlyGivenNames x_; clear_value x_) | with_reducible apply keeps_pinEntry | with_reducible apply keeps_modSlice | with_reducible apply keeps_set | with_reducible apply keeps_foldl | with_reducible apply keeps_foldl_fst)

theorem keeps_pinAll {a_ : State} (s : State) (c : State) (v : Scope) (pages : List (ℕ × List Byte)) (failed : List (ℕ × ℕ)) (h_s : Keeps a_ s) (h_c : Keeps a_ c) : Keeps a_ (State.pinAll s c v pages failed) := by
  unfold State.pinAll
  repeat' (first | with_reducible assumption | (with_reducible intro _; intros) | (extract_lets +onlyGivenNames x_; refine Keeps.cut x_ ?_ (fun hx_ => ?_); (on_goal 1 => (unfold x_; clear x_)); (on_goal 2 => clear_value x_)) | with_reducible apply keeps_overSlices | with_reducible apply keeps_set | with_reducible apply keeps_modSlice | with_reducible apply keeps_overSess | with_reducible apply keeps_pinSlice | with_reducible apply keeps_foldl | with_reducible apply Keeps.ite)

theorem keeps_commitRefuse {a_ : State} (s : State) (ring : Option (ℕ × ℕ × ℕ)) (x : CFail) (h_s : Keeps a_ s) : Keeps a_ (State.commitRefuse s ring x) := by
  unfold State.commitRefuse
  repeat' (first | with_reducible assumption | (extract_lets +onlyGivenNames x_; refine Keeps.cut x_ ?_ (fun hx_ => ?_); (on_goal 1 => (unfold x_; clear x_)); (on_goal 2 => clear_value x_)) | (extract_lets +onlyGivenNames x_; clear_value x_) | with_reducible apply keeps_incWrap | with_reducible apply keeps_set | with_reducible apply keeps_complete | split)

theorem keeps_commitCopy {a_ : State} (s : State) (v : Scope) (vals : List (ℕ × Word)) (segs : List (ℕ × SMap ℕ)) (h_s : Keeps a_ s) : Keeps a_ (State.commitCopy s v vals segs) := by
  unfold State.commitCopy
  repeat' (first | with_reducible assumption | (with_reducible intro _; intros) | (extract_lets +onlyGivenNames x_; refine Keeps.cut x_ ?_ (fun hx_ => ?_); (on_goal 1 => (unfold x_; clear x_)); (on_goal 2 => clear_value x_)) | with_reducible apply keeps_unitsCommitted | with_reducible apply keeps_copyVals | with_reducible apply keeps_modSess | with_reducible apply keeps_overSess | with_reducible apply keeps_invTlb | with_reducible apply keeps_foldl | with_reducible apply Keeps.ite)

theorem keeps_showBusy {a_ : State} (s : State) (h_s : Keeps a_ s) : Keeps a_ (State.showBusy s) := by
  unfold State.showBusy
  repeat' (first | with_reducible assumption | with_reducible apply keeps_set)

theorem keeps_commitStart {a_ : State} (s : State) (v : Scope) (ring : Option (ℕ × ℕ × ℕ)) (h_s : Keeps a_ s) : Keeps a_ (State.commitStart s v ring) := by
  unfold State.commitStart
  repeat' (first | with_reducible assumption | (extract_lets +onlyGivenNames x_; refine Keeps.cut x_ ?_ (fun hx_ => ?_); (on_goal 1 => (unfold x_; clear x_)); (on_goal 2 => clear_value x_)) | (extract_lets +onlyGivenNames x_; clear_value x_) | with_reducible apply keeps_showBusy | with_reducible apply keeps_modCommit | with_reducible apply keeps_candidate | with_reducible apply keeps_commitRefuse | with_reducible apply keeps_reportCommit | with_reducible apply keeps_pinAll | with_reducible apply keeps_commitCopy | with_reducible apply keeps_defer | with_reducible apply keeps_showPending | with_reducible apply Keeps.ite | split)

theorem keeps_commitEnter {a_ : State} (s : State) (w : WaitCommit) (h_s : Keeps a_ s) : Keeps a_ (State.commitEnter s w) := by
  unfold State.commitEnter
  repeat' (first | with_reducible assumption | with_reducible apply keeps_showBusy | with_reducible apply keeps_modCommit | with_reducible apply keeps_commitStart | with_reducible apply Keeps.ite)

theorem keeps_commitDrain {a_ : State} (l : List WaitCommit) (s : State) (h : Keeps a_ s) : Keeps a_ (State.commitDrain l s) := by
  induction l generalizing s with
  | nil => exact keeps_showBusy _ (keeps_modCommit _ _ h)
  | cons w t ih =>
    have g := keeps_commitStart _ ⟨w.scope, w.target, w.byPf⟩ w.ring (keeps_showBusy _ (keeps_modCommit s (fun e => { e with wait := t }) h))
    exact Keeps.ite g (ih _ g)

theorem keeps_engineFree {a_ : State} (s : State) (h_s : Keeps a_ s) : Keeps a_ (State.engineFree s) := by
  unfold State.engineFree
  repeat' (first | with_reducible assumption | (extract_lets +onlyGivenNames x_; refine Keeps.cut x_ ?_ (fun hx_ => ?_); (on_goal 1 => (unfold x_; clear x_)); (on_goal 2 => clear_value x_)) | with_reducible apply keeps_commitDrain | with_reducible apply keeps_modCommit | with_reducible apply keeps_mk)

theorem keeps_commitGo {a_ : State} (s : State) (scope : ℕ) (target : ℕ) (h_s : Keeps a_ s) : Keeps a_ (State.commitGo s scope target) := by
  unfold State.commitGo
  repeat' (first | with_reducible assumption | with_reducible apply keeps_count | with_reducible apply keeps_commitEnter | with_reducible apply Keeps.ite)

theorem keeps_hedgeCopy {a_ : State} (s : State) (h_s : Keeps a_ s) : Keeps a_ (State.hedgeCopy s) := by
  unfold State.hedgeCopy
  repeat' (first | with_reducible assumption | with_reducible apply keeps_engineFree | with_reducible apply keeps_reportCommit | with_reducible apply keeps_commitCopy | with_reducible apply Keeps.ite | split)

theorem keeps_commitAbort {a_ : State} (s : State) (h_s : Keeps a_ s) : Keeps a_ (State.commitAbort s) := by
  unfold State.commitAbort
  repeat' (first | with_reducible assumption | with_reducible apply keeps_engineFree | with_reducible apply keeps_reportCommit | split)

theorem keeps_execSysCommitGo {a_ : State} (scope : Fin 16) (target : Fin 256) (s : State) (h_s : Keeps a_ s) : KeepsOut a_ (execSysCommitGo scope target s) := by
  unfold execSysCommitGo
  repeat' (first | with_reducible apply KeepsOut.next | with_reducible apply KeepsOut.fault | with_reducible assumption | (with_reducible intro _; intros) | with_reducible apply keeps_toField | with_reducible apply keeps_commitGo)

theorem keeps_execCommitPinningDone {a_ : State} (pages : List (ℕ × List Byte)) (failed : List (ℕ × ℕ)) (s : State) (h_s : Keeps a_ s) : KeepsOut a_ (execCommitPinningDone pages failed s) := by
  unfold execCommitPinningDone
  repeat' (first | with_reducible apply KeepsOut.next | with_reducible apply KeepsOut.fault | with_reducible assumption | (extract_lets +onlyGivenNames x_; refine Keeps.cut x_ ?_ (fun hx_ => ?_); (on_goal 1 => (unfold x_; clear x_)); (on_goal 2 => clear_value x_)) | (extract_lets +onlyGivenNames x_; refine KeepsOut.cut x_ ?_ (fun hx_ => ?_); (on_goal 1 => (unfold x_; clear x_)); (on_goal 2 => clear_value x_)) | (extract_lets +onlyGivenNames x_; clear_value x_) | with_reducible apply keeps_candidate | with_reducible apply keeps_engineFree | with_reducible apply keeps_reportCommit | with_reducible apply keeps_pinAll | with_reducible apply keeps_commitCopy | with_reducible apply Keeps.ite | with_reducible apply KeepsOut.ite | split)

theorem keeps_announce {a_ : State} (s : State) (k : Fin 16) (r : Fin 3) (len : ℕ) (host : ℕ) (field : ℕ) (unit_ : ℕ) (big : Bool) (stale : Bool) (i : Option (ℕ × ℕ)) (h_s : Keeps a_ s) : Keeps a_ (State.announce s k r len host field unit_ big stale i) := by
  unfold State.announce
  repeat' (first | with_reducible assumption | (extract_lets +onlyGivenNames x_; clear_value x_) | with_reducible apply keeps_modGl | with_reducible apply keeps_sendMsg)

theorem keeps_sendPiece {a_ : State} (s : State) (k : Fin 16) (r : Fin 3) (skip : ℕ) (n : ℕ) (field : ℕ) (unit_ : ℕ) (stale : Bool) (i : Option (ℕ × ℕ)) (h_s : Keeps a_ s) : Keeps a_ (State.sendPiece s k r skip n field unit_ stale i) := by
  unfold State.sendPiece
  repeat' (first | with_reducible assumption | (extract_lets +onlyGivenNames x_; refine Keeps.cut x_ ?_ (fun hx_ => ?_); (on_goal 1 => (unfold x_; clear x_)); (on_goal 2 => clear_value x_)) | (extract_lets +onlyGivenNames x_; clear_value x_) | with_reducible apply keeps_hostWrite | with_reducible apply keeps_modHost | with_reducible apply keeps_announce)

theorem keeps_fwdAdvance {a_ : State} (s : State) (k : Fin 16) (r : Fin 3) (n : ℕ) (endAt : RgnAlloc) (h_s : Keeps a_ s) : Keeps a_ (State.fwdAdvance s k r n endAt) := by
  unfold State.fwdAdvance
  repeat' (first | with_reducible assumption | (extract_lets +onlyGivenNames x_; refine Keeps.cut x_ ?_ (fun hx_ => ?_); (on_goal 1 => (unfold x_; clear x_)); (on_goal 2 => clear_value x_)) | with_reducible apply keeps_modGl | with_reducible apply keeps_set | with_reducible apply Keeps.ite)

theorem keeps_forwardStream {a_ : State} (s : State) (k : Fin 16) (r : Fin 3) (small : Bool) (h_s : Keeps a_ s) : KeepsOpt a_ (State.forwardStream s k r small) := by
  unfold State.forwardStream
  repeat' (first | with_reducible apply KeepsOpt.some | with_reducible apply KeepsOpt.none | with_reducible assumption | (extract_lets +onlyGivenNames x_; refine KeepsOpt.cut x_ ?_ (fun hx_ => ?_); (on_goal 1 => (unfold x_; clear x_)); (on_goal 2 => clear_value x_)) | (extract_lets +onlyGivenNames x_; refine Keeps.cut x_.1 ?_ (fun hx_ => ?_); (on_goal 1 => (unfold x_; clear x_)); (on_goal 2 => clear_value x_)) | (extract_lets +onlyGivenNames x_; refine KeepsOpt.cut x_.1 ?_ (fun hx_ => ?_); (on_goal 1 => (unfold x_; clear x_)); (on_goal 2 => clear_value x_)) | (extract_lets +onlyGivenNames x_; clear_value x_) | with_reducible apply keeps_modGl | with_reducible apply keeps_ddrRead | with_reducible apply keeps_fwdAdvance | with_reducible apply keeps_sendPiece | with_reducible apply Keeps.ite | with_reducible apply KeepsOpt.ite | with_reducible apply Keeps.ite_fst | split)

theorem keeps_forwardBlock {a_ : State} (s : State) (k : Fin 16) (h_s : Keeps a_ s) : KeepsOpt a_ (State.forwardBlock s k) := by
  unfold State.forwardBlock
  repeat' (first | with_reducible apply KeepsOpt.some | with_reducible apply KeepsOpt.none | with_reducible assumption | (extract_lets +onlyGivenNames x_; refine KeepsOpt.cut x_ ?_ (fun hx_ => ?_); (on_goal 1 => (unfold x_; clear x_)); (on_goal 2 => clear_value x_)) | (extract_lets +onlyGivenNames x_; refine Keeps.cut x_.1 ?_ (fun hx_ => ?_); (on_goal 1 => (unfold x_; clear x_)); (on_goal 2 => clear_value x_)) | (extract_lets +onlyGivenNames x_; refine KeepsOpt.cut x_.1 ?_ (fun hx_ => ?_); (on_goal 1 => (unfold x_; clear x_)); (on_goal 2 => clear_value x_)) | (extract_lets +onlyGivenNames x_; clear_value x_) | with_reducible apply keeps_modGl | with_reducible apply keeps_fwdAdvance | with_reducible apply keeps_announce | with_reducible apply keeps_ddrRead | with_reducible apply keeps_sendPiece | with_reducible apply Keeps.ite | with_reducible apply KeepsOpt.ite | with_reducible apply Keeps.ite_fst | split)

theorem keeps_forward {a_ : State} (s : State) (k : Fin 16) (r : Fin 3) (small : Bool) (n : Nat) (h : Keeps a_ s) :
    Keeps a_ (s.forward k r small n) := by
  induction n generalizing s with
  | zero => exact h
  | succ n ih =>
    unfold State.forward
    split
    · exact h
    · split
      · rename_i t e
        split at e
        · exact ih _ (keeps_forwardBlock _ _ h _ e)
        · exact ih _ (keeps_forwardStream _ _ _ _ h _ e)
      · exact h

theorem keeps_forwardAll {a_ : State} (s : State) (k : Fin 16) (small : Bool) (h_s : Keeps a_ s) : Keeps a_ (State.forwardAll s k small) := by
  unfold State.forwardAll
  repeat' (first | with_reducible assumption | (with_reducible intro _; intros) | with_reducible apply keeps_forward | with_reducible apply keeps_foldl)

theorem keeps_execGleanerWriteDone {a_ : State} (k : Fin 16) (r : Fin 3) (src : Fin 128) (s : State) (h_s : Keeps a_ s) : KeepsOut a_ (execGleanerWriteDone k r src s) := by
  unfold execGleanerWriteDone
  repeat' (first | with_reducible apply KeepsOut.next | with_reducible apply KeepsOut.fault | with_reducible assumption | (with_reducible intro _; intros) | with_reducible apply keeps_forInst | with_reducible apply keeps_modGl | with_reducible apply keeps_failRecord | with_reducible apply keeps_formFail | with_reducible apply keeps_drainCaps | with_reducible apply keeps_writeHeaders | with_reducible apply keeps_drainStamp | with_reducible apply keeps_drainResult | with_reducible apply keeps_forwardAll | with_reducible apply Keeps.ite | with_reducible apply KeepsOut.ite | split | with_reducible apply keeps_mk)

theorem keeps_execFailUnitTimeout {a_ : State} (k : Fin 16) (s : State) (h_s : Keeps a_ s) : KeepsOut a_ (execFailUnitTimeout k s) := by
  unfold execFailUnitTimeout
  repeat' (first | with_reducible apply KeepsOut.next | with_reducible apply KeepsOut.fault | with_reducible assumption | with_reducible apply keeps_forwardAll | with_reducible apply keeps_closeUnit)

theorem keeps_execStampLineFlush {a_ : State} (k : Fin 16) (s : State) (h_s : Keeps a_ s) : KeepsOut a_ (execStampLineFlush k s) := by
  unfold execStampLineFlush
  repeat' (first | with_reducible apply KeepsOut.next | with_reducible apply KeepsOut.fault | with_reducible assumption | with_reducible apply keeps_forwardAll | with_reducible apply keeps_writeLine)

theorem keeps_execForwardPieceTimer {a_ : State} (k : Fin 16) (r : Fin 3) (s : State) (h_s : Keeps a_ s) : KeepsOut a_ (execForwardPieceTimer k r s) := by
  unfold execForwardPieceTimer
  repeat' (first | with_reducible apply KeepsOut.next | with_reducible apply KeepsOut.fault | with_reducible assumption | with_reducible apply keeps_forward)

theorem keeps_unitSeqStart {a_ : State} (s : State) (u : PlayUnit) (k : Fin 16) (h_s : Keeps a_ s) : Keeps a_ (State.unitSeqStart s u k) := by
  unfold State.unitSeqStart
  repeat' (first | with_reducible assumption | (extract_lets +onlyGivenNames x_; refine Keeps.cut x_ ?_ (fun hx_ => ?_); (on_goal 1 => (unfold x_; clear x_)); (on_goal 2 => clear_value x_)) | (extract_lets +onlyGivenNames x_; clear_value x_) | with_reducible apply keeps_set | with_reducible apply keeps_modFeed)

theorem keeps_seqBegin {a_ : State} (s : State) (k : Fin 16) (entry : ℕ) (addr : ℕ) (shot : Bool) (h_s : Keeps a_ s) : Keeps a_ (State.seqBegin s k entry addr shot) := by
  unfold State.seqBegin
  repeat' (first | with_reducible assumption | (with_reducible intro _; intros) | (extract_lets +onlyGivenNames x_; refine Keeps.cut x_ ?_ (fun hx_ => ?_); (on_goal 1 => (unfold x_; clear x_)); (on_goal 2 => clear_value x_)) | (extract_lets +onlyGivenNames x_; clear_value x_) | with_reducible apply keeps_glSeqStart | with_reducible apply keeps_unitSeqStart | with_reducible apply keeps_modSess | with_reducible apply keeps_foldl)

theorem keeps_stopSessTriggers {a_ : State} (s : State) (k : Fin 16) (next : Bool) (h_s : Keeps a_ s) : Keeps a_ (State.stopSessTriggers s k next) := by
  unfold State.stopSessTriggers
  repeat' (first | with_reducible assumption | (with_reducible intro _; intros) | with_reducible apply keeps_overTriggers | with_reducible apply keeps_stopTrigger | with_reducible apply Keeps.ite)

theorem keeps_doSwap {a_ : State} (s : State) (k : Fin 16) (h_s : Keeps a_ s) : Keeps a_ (State.doSwap s k) := by
  unfold State.doSwap
  repeat' (first | with_reducible assumption | (extract_lets +onlyGivenNames x_; refine Keeps.cut x_ ?_ (fun hx_ => ?_); (on_goal 1 => (unfold x_; clear x_)); (on_goal 2 => clear_value x_)) | with_reducible apply keeps_modSess | with_reducible apply keeps_set)

theorem keeps_swapIfDue {a_ : State} (s : State) (k : Fin 16) (h_s : Keeps a_ s) : Keeps a_ (State.swapIfDue s k) := by
  unfold State.swapIfDue
  repeat' (first | with_reducible assumption | with_reducible apply keeps_doSwap | with_reducible apply Keeps.ite)

theorem keeps_completeRun {a_ : State} (s : State) (k : Fin 16) (opcode : ℕ) (st : Status) (cond : ℕ) (flags : ℕ) (detail : ℕ) (d1 : ℕ) (h_s : Keeps a_ s) : Keeps a_ (State.completeRun s k opcode st cond flags detail d1) := by
  unfold State.completeRun
  repeat' (first | with_reducible assumption | (extract_lets +onlyGivenNames x_; refine Keeps.cut x_ ?_ (fun hx_ => ?_); (on_goal 1 => (unfold x_; clear x_)); (on_goal 2 => clear_value x_)) | (extract_lets +onlyGivenNames x_; clear_value x_) | with_reducible apply keeps_complete | with_reducible apply keeps_modSess)

theorem keeps_seqClose {a_ : State} (s : State) (k : Fin 16) (next : Bool) (h_s : Keeps a_ s) : Keeps a_ (State.seqClose s k next) := by
  unfold State.seqClose
  repeat' (first | with_reducible assumption | (extract_lets +onlyGivenNames x_; refine Keeps.cut x_ ?_ (fun hx_ => ?_); (on_goal 1 => (unfold x_; clear x_)); (on_goal 2 => clear_value x_)) | with_reducible apply keeps_seqCond | with_reducible apply keeps_stopSessTriggers | with_reducible apply keeps_forwardAll | with_reducible apply keeps_glSeqEnd | with_reducible apply Keeps.ite)

theorem keeps_writeResult {a_ : State} (s : State) (k : Fin 16) (b : Burst) (h_s : Keeps a_ s) : Keeps a_ (State.writeResult s k b) := by
  unfold State.writeResult
  repeat' (first | with_reducible assumption | (with_reducible intro _; intros) | (extract_lets +onlyGivenNames x_; refine Keeps.cut x_ ?_ (fun hx_ => ?_); (on_goal 1 => (unfold x_; clear x_)); (on_goal 2 => clear_value x_)) | (extract_lets +onlyGivenNames x_; clear_value x_) | with_reducible apply keeps_hostWrite | with_reducible apply keeps_foldl_fst)

theorem keeps_endBurst {a_ : State} (s : State) (k : Fin 16) (block : Bool) (h_s : Keeps a_ s) : Keeps a_ (State.endBurst s k block) := by
  unfold State.endBurst
  repeat' (first | with_reducible assumption | (extract_lets +onlyGivenNames x_; refine Keeps.cut x_ ?_ (fun hx_ => ?_); (on_goal 1 => (unfold x_; clear x_)); (on_goal 2 => clear_value x_)) | (extract_lets +onlyGivenNames x_; clear_value x_) | with_reducible apply keeps_noteWait | with_reducible apply keeps_giveHeader | with_reducible apply keeps_writeResult | with_reducible apply keeps_completeRun | with_reducible apply keeps_swapIfDue | with_reducible apply keeps_modSess | with_reducible apply Keeps.ite | split)

theorem keeps_beginBurst {a_ : State} (s : State) (k : Fin 16) (b : Burst) (h_s : Keeps a_ s) : Keeps a_ (State.beginBurst s k b) := by
  unfold State.beginBurst
  repeat' (first | with_reducible assumption | (extract_lets +onlyGivenNames x_; refine Keeps.cut x_ ?_ (fun hx_ => ?_); (on_goal 1 => (unfold x_; clear x_)); (on_goal 2 => clear_value x_)) | with_reducible apply keeps_modSess | with_reducible apply keeps_set | with_reducible apply keeps_endBurst | with_reducible apply Keeps.ite)

theorem keeps_shotDone {a_ : State} (s : State) (k : Fin 16) (st : Status) (h_s : Keeps a_ s) : Keeps a_ (State.shotDone s k st) := by
  unfold State.shotDone
  repeat' (first | with_reducible assumption | (extract_lets +onlyGivenNames x_; clear_value x_) | with_reducible apply keeps_modBurst)

theorem keeps_shotCut {a_ : State} (s : State) (k : Fin 16) (st : Status) (cond : ℕ) (h_s : Keeps a_ s) : Keeps a_ (State.shotCut s k st cond) := by
  unfold State.shotCut
  repeat' (first | with_reducible assumption | (extract_lets +onlyGivenNames x_; refine Keeps.cut x_ ?_ (fun hx_ => ?_); (on_goal 1 => (unfold x_; clear x_)); (on_goal 2 => clear_value x_)) | with_reducible apply keeps_shotDone | with_reducible apply keeps_noteWait | with_reducible apply keeps_modTally | with_reducible apply keeps_stopSessTriggers)

theorem keeps_tallyClose {a_ : State} (s : State) (k : Fin 16) (b : Burst) (h_s : Keeps a_ s) : Keeps a_ (State.tallyClose s k b) := by
  unfold State.tallyClose
  repeat' (first | with_reducible assumption | (extract_lets +onlyGivenNames x_; refine Keeps.cut x_ ?_ (fun hx_ => ?_); (on_goal 1 => (unfold x_; clear x_)); (on_goal 2 => clear_value x_)) | (extract_lets +onlyGivenNames x_; clear_value x_) | with_reducible apply keeps_modTally | with_reducible apply keeps_modBurst | with_reducible apply keeps_hostWrite | with_reducible apply keeps_endBurst | with_reducible apply Keeps.ite)

theorem keeps_seqComplete {a_ : State} (s : State) (k : Fin 16) (q0 : SeqRun) (h_s : Keeps a_ s) : Keeps a_ (State.seqComplete s k q0) := by
  unfold State.seqComplete
  repeat' (first | with_reducible assumption | (extract_lets +onlyGivenNames x_; refine Keeps.cut x_ ?_ (fun hx_ => ?_); (on_goal 1 => (unfold x_; clear x_)); (on_goal 2 => clear_value x_)) | (extract_lets +onlyGivenNames x_; clear_value x_) | with_reducible apply keeps_modBurst | with_reducible apply keeps_seqClose | with_reducible apply keeps_modSess | with_reducible apply keeps_modTally | with_reducible apply keeps_shotDone | with_reducible apply keeps_swapIfDue | with_reducible apply keeps_completeRun | with_reducible apply Keeps.ite | split)

theorem keeps_tallyAbort {a_ : State} (s : State) (k : Fin 16) (shot : Status) (h_s : Keeps a_ s) : Keeps a_ (State.tallyAbort s k shot) := by
  unfold State.tallyAbort
  repeat' (first | with_reducible assumption | with_reducible apply keeps_modTally)

theorem keeps_abortSess {a_ : State} (s : State) (k : Fin 16) (h_s : Keeps a_ s) : Keeps a_ (State.abortSess s k) := by
  unfold State.abortSess
  repeat' (first | with_reducible assumption | (extract_lets +onlyGivenNames x_; refine Keeps.cut x_ ?_ (fun hx_ => ?_); (on_goal 1 => (unfold x_; clear x_)); (on_goal 2 => clear_value x_)) | with_reducible apply keeps_modCore | with_reducible apply keeps_count | with_reducible apply keeps_endSeq | with_reducible apply keeps_endBurst | with_reducible apply keeps_tallyAbort | with_reducible apply keeps_modTally | with_reducible apply keeps_stopSessTriggers | with_reducible apply keeps_modBurst | with_reducible apply keeps_shotCut | with_reducible apply Keeps.ite | split)

theorem keeps_dropHeld {a_ : State} (s : State) (k : Fin 16) (h_s : Keeps a_ s) : Keeps a_ (State.dropHeld s k) := by
  unfold State.dropHeld
  repeat' (first | with_reducible assumption | (extract_lets +onlyGivenNames x_; refine Keeps.cut x_ ?_ (fun hx_ => ?_); (on_goal 1 => (unfold x_; clear x_)); (on_goal 2 => clear_value x_)) | with_reducible apply keeps_complete | with_reducible apply keeps_modHost | with_reducible apply Keeps.ite | split)

theorem keeps_teardownSteps {a_ : State} (s : State) (k : Fin 16) (zero : Bool) (h_s : Keeps a_ s) : Keeps a_ (State.teardownSteps s k zero) := by
  unfold State.teardownSteps
  repeat' (first | with_reducible assumption | (with_reducible intro _; intros) | (extract_lets +onlyGivenNames x_; refine Keeps.cut x_ ?_ (fun hx_ => ?_); (on_goal 1 => (unfold x_; clear x_)); (on_goal 2 => clear_value x_)) | (extract_lets +onlyGivenNames x_; clear_value x_) | with_reducible apply keeps_modSess | with_reducible apply keeps_endSeq | with_reducible apply keeps_seqComplete | with_reducible apply keeps_endBurst | with_reducible apply keeps_tallyAbort | with_reducible apply keeps_discardPends | with_reducible apply keeps_stopSessTriggers | with_reducible apply keeps_overSlices | with_reducible apply keeps_calSliceBoundary | with_reducible apply keeps_modFeed | with_reducible apply keeps_putActive | with_reducible apply keeps_putShadow | with_reducible apply keeps_set | with_reducible apply keeps_modHost | with_reducible apply keeps_dropHeld | with_reducible apply keeps_ddrZero | with_reducible apply keeps_foldl | with_reducible apply Keeps.ite | split | with_reducible apply keeps_mk)

theorem keeps_teardown {a_ : State} (s : State) (k : Fin 16) (zero : Bool) (h_s : Keeps a_ s) : Keeps a_ (State.teardown s k zero) := by
  unfold State.teardown
  repeat' (first | with_reducible assumption | (extract_lets +onlyGivenNames x_; refine Keeps.cut x_ ?_ (fun hx_ => ?_); (on_goal 1 => (unfold x_; clear x_)); (on_goal 2 => clear_value x_)) | with_reducible apply keeps_modSess | with_reducible apply keeps_abortSess | with_reducible apply keeps_teardownSteps | with_reducible apply Keeps.ite)

theorem keeps_restTear {a_ : State} (s : State) (k : Fin 16) (h_s : Keeps a_ s) : Keeps a_ (State.restTear s k) := by
  unfold State.restTear
  repeat' (first | with_reducible assumption | with_reducible apply keeps_teardownSteps | with_reducible apply Keeps.ite)

theorem keeps_restTears {a_ : State} (s : State) (h_s : Keeps a_ s) : Keeps a_ (State.restTears s) := by
  unfold State.restTears
  repeat' (first | with_reducible assumption | (with_reducible intro _; intros) | with_reducible apply keeps_overSess | with_reducible apply keeps_restTear)

theorem keeps_execSequenceComplete {a_ : State} (k : Fin 16) (s : State) (h_s : Keeps a_ s) : KeepsOut a_ (execSequenceComplete k s) := by
  unfold execSequenceComplete
  repeat' (first | with_reducible apply KeepsOut.next | with_reducible apply KeepsOut.fault | with_reducible assumption | with_reducible apply keeps_seqComplete | with_reducible apply Keeps.ite | with_reducible apply KeepsOut.ite | split)

theorem keeps_execShotStart {a_ : State} (k : Fin 16) (s : State) (h_s : Keeps a_ s) : KeepsOut a_ (execShotStart k s) := by
  unfold execShotStart
  repeat' (first | with_reducible apply KeepsOut.next | with_reducible apply KeepsOut.fault | with_reducible assumption | (with_reducible intro _; intros) | (extract_lets +onlyGivenNames x_; refine Keeps.cut x_ ?_ (fun hx_ => ?_); (on_goal 1 => (unfold x_; clear x_)); (on_goal 2 => clear_value x_)) | (extract_lets +onlyGivenNames x_; refine KeepsOut.cut x_ ?_ (fun hx_ => ?_); (on_goal 1 => (unfold x_; clear x_)); (on_goal 2 => clear_value x_)) | (extract_lets +onlyGivenNames x_; clear_value x_) | with_reducible apply keeps_noteWait | with_reducible apply keeps_burstDead | with_reducible apply keeps_overTriggers | with_reducible apply keeps_stopTrigger | with_reducible apply keeps_modBurst | with_reducible apply keeps_set | with_reducible apply keeps_armNow | with_reducible apply keeps_shotCut | with_reducible apply Keeps.ite | with_reducible apply KeepsOut.ite | split)

theorem keeps_execShotTriggerTimeout {a_ : State} (k : Fin 16) (s : State) (h_s : Keeps a_ s) : KeepsOut a_ (execShotTriggerTimeout k s) := by
  unfold execShotTriggerTimeout
  repeat' (first | with_reducible apply KeepsOut.next | with_reducible apply KeepsOut.fault | with_reducible assumption | with_reducible apply keeps_shotCut | with_reducible apply Keeps.ite | with_reducible apply KeepsOut.ite | split)

theorem keeps_execShotSequenceStart {a_ : State} (k : Fin 16) (s : State) (h_s : Keeps a_ s) : KeepsOut a_ (execShotSequenceStart k s) := by
  unfold execShotSequenceStart
  repeat' (first | with_reducible apply KeepsOut.next | with_reducible apply KeepsOut.fault | with_reducible assumption | with_reducible apply keeps_seqBegin | with_reducible apply keeps_modBurst | with_reducible apply keeps_shotCut | with_reducible apply Keeps.ite | with_reducible apply KeepsOut.ite | split)

theorem keeps_execShotTallyClose {a_ : State} (k : Fin 16) (s : State) (h_s : Keeps a_ s) : KeepsOut a_ (execShotTallyClose k s) := by
  unfold execShotTallyClose
  repeat' (first | with_reducible apply KeepsOut.next | with_reducible apply KeepsOut.fault | with_reducible assumption | (extract_lets +onlyGivenNames x_; refine Keeps.cut x_ ?_ (fun hx_ => ?_); (on_goal 1 => (unfold x_; clear x_)); (on_goal 2 => clear_value x_)) | (extract_lets +onlyGivenNames x_; refine KeepsOut.cut x_ ?_ (fun hx_ => ?_); (on_goal 1 => (unfold x_; clear x_)); (on_goal 2 => clear_value x_)) | (extract_lets +onlyGivenNames x_; refine Keeps.cut x_.2 ?_ (fun hx_ => ?_); (on_goal 1 => (unfold x_; clear x_)); (on_goal 2 => clear_value x_)) | (extract_lets +onlyGivenNames x_; refine KeepsOut.cut x_.2 ?_ (fun hx_ => ?_); (on_goal 1 => (unfold x_; clear x_)); (on_goal 2 => clear_value x_)) | with_reducible apply keeps_sramCe | with_reducible apply keeps_takeInject | with_reducible apply keeps_modTally | with_reducible apply keeps_detect | with_reducible apply keeps_tallyClose | with_reducible apply Keeps.ite | with_reducible apply KeepsOut.ite | with_reducible apply Keeps.ite_snd | split)

theorem keeps_execSessionAbort {a_ : State} (k : Fin 16) (s : State) (h_s : Keeps a_ s) : KeepsOut a_ (execSessionAbort k s) := by
  unfold execSessionAbort
  repeat' (first | with_reducible apply KeepsOut.next | with_reducible apply KeepsOut.fault | with_reducible assumption | (with_reducible intro _; intros) | with_reducible apply keeps_hostStrobe | with_reducible apply keeps_abortSess)

theorem keeps_execTeardown {a_ : State} (k : Fin 16) (s : State) (h_s : Keeps a_ s) : KeepsOut a_ (execTeardown k s) := by
  unfold execTeardown
  repeat' (first | with_reducible apply KeepsOut.next | with_reducible apply KeepsOut.fault | with_reducible assumption | (with_reducible intro _; intros) | with_reducible apply keeps_hostStrobe | with_reducible apply keeps_teardown)

theorem keeps_execTeardownScrub {a_ : State} (k : Fin 16) (s : State) (h_s : Keeps a_ s) : KeepsOut a_ (execTeardownScrub k s) := by
  unfold execTeardownScrub
  repeat' (first | with_reducible apply KeepsOut.next | with_reducible apply KeepsOut.fault | with_reducible assumption | (with_reducible intro _; intros) | with_reducible apply keeps_toField | with_reducible apply keeps_teardown)

theorem keeps_execTeardownDone {a_ : State} (k : Fin 16) (s : State) (h_s : Keeps a_ s) : KeepsOut a_ (execTeardownDone k s) := by
  unfold execTeardownDone
  repeat' (first | with_reducible apply KeepsOut.next | with_reducible apply KeepsOut.fault | with_reducible assumption | with_reducible apply keeps_restTear | with_reducible apply keeps_modSess | with_reducible apply Keeps.ite)

theorem keeps_setRail {a_ : State} (s : State) (r : ℕ) (ok : Bool) (h_s : Keeps a_ s) : Keeps a_ (State.setRail s r ok) := by
  unfold State.setRail
  repeat' (first | with_reducible assumption | with_reducible apply keeps_set)

theorem keeps_glDropRecords {a_ : State} (s : State) (h_s : Keeps a_ s) : Keeps a_ (State.glDropRecords s) := by
  unfold State.glDropRecords
  repeat' (first | with_reducible assumption | (with_reducible intro _; intros) | (extract_lets +onlyGivenNames x_; clear_value x_) | with_reducible apply keeps_overSess | with_reducible apply keeps_noteLoss | with_reducible apply keeps_count | with_reducible apply keeps_modGl | with_reducible apply Keeps.ite)

theorem keeps_coreOut {a_ : State} (s : State) (c : Fin 4) (auto : Bool) (h_s : Keeps a_ s) : Keeps a_ (State.coreOut s c auto) := by
  unfold State.coreOut
  repeat' (first | with_reducible assumption | (extract_lets +onlyGivenNames x_; refine Keeps.cut x_ ?_ (fun hx_ => ?_); (on_goal 1 => (unfold x_; clear x_)); (on_goal 2 => clear_value x_)) | with_reducible apply keeps_set | with_reducible apply keeps_modCore | with_reducible apply Keeps.ite)

theorem keeps_execHandshakeWatchdog {a_ : State} (u : Fin 8) (s : State) (h_s : Keeps a_ s) : KeepsOut a_ (execHandshakeWatchdog u s) := by
  unfold execHandshakeWatchdog
  repeat' (first | with_reducible apply KeepsOut.next | with_reducible apply KeepsOut.fault | with_reducible assumption | (extract_lets +onlyGivenNames x_; refine Keeps.cut x_ ?_ (fun hx_ => ?_); (on_goal 1 => (unfold x_; clear x_)); (on_goal 2 => clear_value x_)) | (extract_lets +onlyGivenNames x_; refine KeepsOut.cut x_ ?_ (fun hx_ => ?_); (on_goal 1 => (unfold x_; clear x_)); (on_goal 2 => clear_value x_)) | (extract_lets +onlyGivenNames x_; refine KeepsOut.cut x_.2 ?_ (fun hx_ => ?_); (on_goal 1 => (unfold x_; clear x_)); (on_goal 2 => clear_value x_)) | (extract_lets +onlyGivenNames x_; clear_value x_) | with_reducible apply keeps_takeInject | with_reducible apply keeps_coreOut | with_reducible apply keeps_hardFaultCore | with_reducible apply keeps_detect | with_reducible apply keeps_coreFault | with_reducible apply keeps_commitAbort | with_reducible apply keeps_faultDevice | with_reducible apply keeps_glDropRecords | with_reducible apply Keeps.ite | with_reducible apply KeepsOut.ite | with_reducible apply Keeps.ite_snd | split)

theorem keeps_execSupplyBank {a_ : State} (m : BankReading) (s : State) (h_s : Keeps a_ s) : KeepsOut a_ (execSupplyBank m s) := by
  unfold execSupplyBank
  repeat' (first | with_reducible apply KeepsOut.next | with_reducible apply KeepsOut.fault | with_reducible assumption | (with_reducible intro _; intros) | (extract_lets +onlyGivenNames x_; refine Keeps.cut x_ ?_ (fun hx_ => ?_); (on_goal 1 => (unfold x_; clear x_)); (on_goal 2 => clear_value x_)) | (extract_lets +onlyGivenNames x_; refine KeepsOut.cut x_ ?_ (fun hx_ => ?_); (on_goal 1 => (unfold x_; clear x_)); (on_goal 2 => clear_value x_)) | (extract_lets +onlyGivenNames x_; clear_value x_) | with_reducible apply keeps_bankVolts | with_reducible apply keeps_setRail | with_reducible apply keeps_setBank | with_reducible apply keeps_detect | with_reducible apply keeps_overSlices | with_reducible apply keeps_strobeSync | with_reducible apply keeps_overSess | with_reducible apply keeps_hardFaultSess | with_reducible apply Keeps.ite | with_reducible apply KeepsOut.ite)

theorem keeps_execTempReading {a_ : State} (t : ℤ) (s : State) (h_s : Keeps a_ s) : KeepsOut a_ (execTempReading t s) := by
  unfold execTempReading
  repeat' (first | with_reducible apply KeepsOut.next | with_reducible apply KeepsOut.fault | with_reducible assumption | with_reducible apply keeps_takeInject | with_reducible apply keeps_modFlt | with_reducible apply keeps_set | with_reducible apply keeps_detect | with_reducible apply keeps_faultDevice | with_reducible apply keeps_calTemp | with_reducible apply Keeps.ite)

theorem keeps_execDdrPatrolRead {a_ : State} (addr : ℕ) (ecc : Fin 3) (s : State) (h_s : Keeps a_ s) : KeepsOut a_ (execDdrPatrolRead addr ecc s) := by
  unfold execDdrPatrolRead
  repeat' (first | with_reducible apply KeepsOut.next | with_reducible apply KeepsOut.fault | with_reducible assumption | with_reducible apply keeps_ddrRead | with_reducible apply Keeps.ite | with_reducible apply KeepsOut.ite)

theorem keeps_execSupply {a_ : State} (m : RailReading) (s : State) (h_s : Keeps a_ s) : KeepsOut a_ (execSupply m s) := by
  unfold execSupply
  repeat' (first | with_reducible apply KeepsOut.next | with_reducible apply KeepsOut.fault | with_reducible assumption | with_reducible apply keeps_faultDevice | with_reducible apply keeps_detect | with_reducible apply keeps_setRail | with_reducible apply Keeps.ite | with_reducible apply KeepsOut.ite)

theorem keeps_execSupplyAo {a_ : State} (s : State) (h_s : Keeps a_ s) : KeepsOut a_ (execSupplyAo s) := by
  unfold execSupplyAo
  repeat' (first | with_reducible apply KeepsOut.next | with_reducible apply KeepsOut.fault | with_reducible assumption | (with_reducible intro _; intros) | with_reducible apply keeps_overOutputs | with_reducible apply keeps_faultOutput | with_reducible apply keeps_detect | with_reducible apply keeps_setRail)

theorem keeps_coreOffline {a_ : State} (s : State) (c : Fin 4) (h_s : Keeps a_ s) : Keeps a_ (State.coreOffline s c) := by
  unfold State.coreOffline
  repeat' (first | with_reducible assumption | with_reducible apply keeps_raise | with_reducible apply keeps_coreOut | with_reducible apply keeps_set | with_reducible apply keeps_modCore | with_reducible apply Keeps.ite)

theorem keeps_coreOnline {a_ : State} (s : State) (c : Fin 4) (h_s : Keeps a_ s) : Keeps a_ (State.coreOnline s c) := by
  unfold State.coreOnline
  repeat' (first | with_reducible assumption | with_reducible apply keeps_set | with_reducible apply keeps_modCore)

theorem keeps_execFltCoreOffline {a_ : State} (c : Fin 4) (s : State) (h_s : Keeps a_ s) : KeepsOut a_ (execFltCoreOffline c s) := by
  unfold execFltCoreOffline
  repeat' (first | with_reducible apply KeepsOut.next | with_reducible apply KeepsOut.fault | with_reducible assumption | (with_reducible intro _; intros) | with_reducible apply keeps_hostStrobe | with_reducible apply keeps_coreOffline)

theorem keeps_execFltCoreOnline {a_ : State} (c : Fin 4) (s : State) (h_s : Keeps a_ s) : KeepsOut a_ (execFltCoreOnline c s) := by
  unfold execFltCoreOnline
  repeat' (first | with_reducible apply KeepsOut.next | with_reducible apply KeepsOut.fault | with_reducible assumption | (with_reducible intro _; intros) | with_reducible apply keeps_hostStrobe | with_reducible apply keeps_coreOnline)

theorem keeps_injRailBack {a_ : State} (s : State) (h_s : Keeps a_ s) : Keeps a_ (State.injRailBack s) := by
  unfold State.injRailBack
  repeat' (first | with_reducible assumption | with_reducible apply keeps_setRail | with_reducible apply Keeps.ite | split)

theorem keeps_injCancel {a_ : State} (s : State) (h_s : Keeps a_ s) : Keeps a_ (State.injCancel s) := by
  unfold State.injCancel
  repeat' (first | with_reducible assumption | with_reducible apply keeps_set | with_reducible apply keeps_modFlt | with_reducible apply keeps_injRailBack)

theorem keeps_injArm {a_ : State} (s : State) (n : ℕ) (h_s : Keeps a_ s) : Keeps a_ (State.injArm s n) := by
  unfold State.injArm
  repeat' (first | with_reducible assumption | (extract_lets +onlyGivenNames x_; clear_value x_) | with_reducible apply keeps_set | with_reducible apply keeps_modFlt | with_reducible apply keeps_raise | with_reducible apply Keeps.ite)

theorem keeps_execInjectionArm {a_ : State} (n : Fin 65536) (s : State) (h_s : Keeps a_ s) : KeepsOut a_ (execInjectionArm n s) := by
  unfold execInjectionArm
  repeat' (first | with_reducible apply KeepsOut.next | with_reducible apply KeepsOut.fault | with_reducible assumption | (with_reducible intro _; intros) | with_reducible apply keeps_toField | with_reducible apply keeps_injArm | with_reducible apply keeps_set)

theorem keeps_execInjectionCancel {a_ : State} (s : State) (h_s : Keeps a_ s) : KeepsOut a_ (execInjectionCancel s) := by
  unfold execInjectionCancel
  repeat' (first | with_reducible apply KeepsOut.next | with_reducible apply KeepsOut.fault | with_reducible assumption | (with_reducible intro _; intros) | with_reducible apply keeps_hostStrobe | with_reducible apply keeps_injCancel)

theorem keeps_execInjectionDurationEnd {a_ : State} (s : State) (h_s : Keeps a_ s) : KeepsOut a_ (execInjectionDurationEnd s) := by
  unfold execInjectionDurationEnd
  repeat' (first | with_reducible apply KeepsOut.next | with_reducible apply KeepsOut.fault | with_reducible assumption | with_reducible apply keeps_raise | with_reducible apply keeps_injCancel | with_reducible apply Keeps.ite | with_reducible apply KeepsOut.ite | split)

theorem keeps_stageSet {a_ : State} (s : State) (k : Fin 16) (h_s : Keeps a_ s) : Keeps a_ (State.stageSet s k) := by
  unfold State.stageSet
  repeat' (first | with_reducible assumption | with_reducible apply keeps_set | with_reducible apply keeps_modSess | with_reducible apply Keeps.ite)

theorem keeps_stageClear {a_ : State} (s : State) (k : Fin 16) (h_s : Keeps a_ s) : Keeps a_ (State.stageClear s k) := by
  unfold State.stageClear
  repeat' (first | with_reducible assumption | with_reducible apply keeps_set | with_reducible apply keeps_modSess)

theorem keeps_swapGo {a_ : State} (s : State) (k : Fin 16) (h_s : Keeps a_ s) : Keeps a_ (State.swapGo s k) := by
  unfold State.swapGo
  repeat' (first | with_reducible assumption | with_reducible apply keeps_doSwap | with_reducible apply keeps_set | with_reducible apply keeps_modSess | with_reducible apply Keeps.ite)

theorem keeps_execCsStageSet {a_ : State} (k : Fin 16) (s : State) (h_s : Keeps a_ s) : KeepsOut a_ (execCsStageSet k s) := by
  unfold execCsStageSet
  repeat' (first | with_reducible apply KeepsOut.next | with_reducible apply KeepsOut.fault | with_reducible assumption | (with_reducible intro _; intros) | with_reducible apply keeps_hostStrobe | with_reducible apply keeps_stageSet)

theorem keeps_execCsStageClear {a_ : State} (k : Fin 16) (s : State) (h_s : Keeps a_ s) : KeepsOut a_ (execCsStageClear k s) := by
  unfold execCsStageClear
  repeat' (first | with_reducible apply KeepsOut.next | with_reducible apply KeepsOut.fault | with_reducible assumption | (with_reducible intro _; intros) | with_reducible apply keeps_toField | with_reducible apply keeps_stageClear)

theorem keeps_execCsSwapGo {a_ : State} (k : Fin 16) (s : State) (h_s : Keeps a_ s) : KeepsOut a_ (execCsSwapGo k s) := by
  unfold execCsSwapGo
  repeat' (first | with_reducible apply KeepsOut.next | with_reducible apply KeepsOut.fault | with_reducible assumption | (with_reducible intro _; intros) | with_reducible apply keeps_hostStrobe | with_reducible apply keeps_swapGo)

theorem keeps_loadImage {a_ : State} (s : State) (k : Fin 16) (m : Image) (h_s : Keeps a_ s) : Keeps a_ (State.loadImage s k m) := by
  unfold State.loadImage
  repeat' (first | with_reducible assumption | (with_reducible intro _; intros) | (extract_lets +onlyGivenNames x_; refine Keeps.cut x_ ?_ (fun hx_ => ?_); (on_goal 1 => (unfold x_; clear x_)); (on_goal 2 => clear_value x_)) | (extract_lets +onlyGivenNames x_; clear_value x_) | with_reducible apply keeps_modSess | with_reducible apply keeps_foldl | with_reducible apply Keeps.ite | split | with_reducible apply keeps_mk)

theorem keeps_noteLoad {a_ : State} (s : State) (e : Option LoadErr) (h_s : Keeps a_ s) : Keeps a_ (State.noteLoad s e) := by
  unfold State.noteLoad
  repeat' (first | with_reducible assumption | with_reducible apply keeps_putK)

theorem keeps_runLoad {a_ : State} (s : State) (k : Fin 16) (img : List Byte) (len : ℕ) (boot : Bool) (h_s : Keeps a_ s) : Keeps a_ (State.runLoad s k img len boot).2 := by
  unfold State.runLoad
  repeat' (first | with_reducible assumption | with_reducible apply keeps_noteLoad | with_reducible apply keeps_loadImage | split)

theorem keeps_clearRc {a_ : State} (s : State) (k : ℕ) (h_s : Keeps a_ s) : Keeps a_ (State.clearRc s k) := by
  unfold State.clearRc
  repeat' (first | with_reducible assumption | (with_reducible intro _; intros) | with_reducible apply keeps_putK | with_reducible apply keeps_foldl | with_reducible apply Keeps.ite | split)

theorem keeps_nvmStep {a_ : State} (s : State) (host : Bool) (h_s : Keeps a_ s) : Keeps a_ (State.nvmStep s host) := by
  unfold State.nvmStep
  repeat' (first | with_reducible assumption | with_reducible apply keeps_set | with_reducible apply Keeps.ite)

theorem keeps_fwScrStep {a_ : State} (s : State) (g : ℕ) (h_s : Keeps a_ s) : Keeps a_ (State.fwScrStep s g) := by
  unfold State.fwScrStep
  repeat' (first | with_reducible assumption | with_reducible apply keeps_set | with_reducible apply Keeps.ite)

theorem keeps_readEffect {a_ : State} (s : State) (k : ℕ) (h_s : Keeps a_ s) : Keeps a_ (State.readEffect s k) := by
  unfold State.readEffect
  repeat' (first | with_reducible assumption | (extract_lets +onlyGivenNames x_; clear_value x_) | with_reducible apply keeps_set | with_reducible apply keeps_fwScrStep | with_reducible apply keeps_aoTblStep | with_reducible apply keeps_nvmStep | with_reducible apply keeps_clearRc | with_reducible apply Keeps.ite | split | with_reducible apply keeps_mk)

theorem keeps_keepLatch {a_ : State} (s : State) (m : SMap Word) (h : Keeps a_ s) : Keeps a_ (s.keepLatch m) :=
  h.regs rfl rfl rfl rfl rfl rfl (fun w => w)

theorem keeps_readThrough {a_ : State} (s : State) (lat : SMap Word) (k : ℕ) (h_s : Keeps a_ s) : Keeps a_ (State.readThrough s lat k).2.2 := by
  unfold State.readThrough
  repeat' (first | with_reducible assumption | with_reducible apply keeps_readEffect | split)

theorem keeps_bar0Value {a_ : State} (s : State) (k : ℕ) (h_s : Keeps a_ s) : Keeps a_ (State.bar0Value s k).2 := by
  unfold State.bar0Value
  repeat' (first | with_reducible assumption | (extract_lets +onlyGivenNames x_; refine Keeps.cut x_ ?_ (fun hx_ => ?_); (on_goal 1 => (unfold x_; clear x_)); (on_goal 2 => clear_value x_)) | (extract_lets +onlyGivenNames x_; refine Keeps.cut x_.2.2 ?_ (fun hx_ => ?_); (on_goal 1 => (unfold x_; clear x_)); (on_goal 2 => clear_value x_)) | (extract_lets +onlyGivenNames x_; clear_value x_) | with_reducible apply keeps_modBoot | with_reducible apply keeps_readThrough | with_reducible apply keeps_keepLatch)

theorem keeps_bar0Read {a_ : State} (s : State) (k : ℕ) (h_s : Keeps a_ s) : Keeps a_ (State.bar0Read s k) := by
  unfold State.bar0Read
  repeat' (first | with_reducible assumption | (extract_lets +onlyGivenNames x_; refine Keeps.cut x_.2 ?_ (fun hx_ => ?_); (on_goal 1 => (unfold x_; clear x_)); (on_goal 2 => clear_value x_)) | with_reducible apply keeps_bar0Value | with_reducible apply keeps_reply)

theorem keeps_hostRead {a_ : State} (s : State) (off : ℕ) (h_s : Keeps a_ s) : Keeps a_ (State.hostRead s off) := by
  unfold State.hostRead
  repeat' (first | with_reducible assumption | (with_reducible intro _; intros) | with_reducible apply keeps_bar0Read | with_reducible apply keeps_readField | with_reducible apply keeps_bar0Value | with_reducible apply Keeps.ite)

end Sys2Proof.Machine
end

