-- ==== Sys2Proof/Laws/KeepsHost.lean ====
section
/-! SUPPORT. What the operations of the machine keep: the network, the resets, the registers, the rings and their commands. -/

namespace Sys2Proof.Machine

theorem keeps_replayCame {a_ : State} (s : State) (p : Fin 4) (h_s : Keeps a_ s) : Keeps a_ (State.replayCame s p) := by
  unfold State.replayCame
  repeat' (first | with_reducible assumption | with_reducible apply keeps_modPort | with_reducible apply Keeps.ite)

theorem keeps_flitComes {a_ : State} (s : State) (p : Fin 4) (h_s : Keeps a_ s) : Keeps a_ (State.flitComes s p) := by
  unfold State.flitComes
  repeat' (first | with_reducible assumption | (extract_lets +onlyGivenNames x_; clear_value x_) | with_reducible apply keeps_modPort | with_reducible apply keeps_replayCame | with_reducible apply Keeps.ite | split)

theorem keeps_retrain {a_ : State} (s : State) (p : Fin 4) (h_s : Keeps a_ s) : Keeps a_ (State.retrain s p) := by
  unfold State.retrain
  repeat' (first | with_reducible assumption | with_reducible apply keeps_count | with_reducible apply keeps_set | with_reducible apply Keeps.ite)

theorem keeps_exhaust {a_ : State} (s : State) (p : Fin 4) (injected : Bool) (h_s : Keeps a_ s) : Keeps a_ (State.exhaust s p injected) := by
  unfold State.exhaust
  repeat' (first | with_reducible assumption | with_reducible apply keeps_retrain | with_reducible apply keeps_detect | with_reducible apply keeps_raise)

theorem keeps_queueRec {a_ : State} (s : State) (p : Fin 4) (r : CrateRec) (h_s : Keeps a_ s) : Keeps a_ (State.queueRec s p r) := by
  unfold State.queueRec
  repeat' (first | with_reducible assumption | with_reducible apply keeps_modPort | with_reducible apply keeps_count | with_reducible apply Keeps.ite)

theorem keeps_queueDown {a_ : State} (s : State) (r : CrateRec) (h_s : Keeps a_ s) : Keeps a_ (State.queueDown s r) := by
  unfold State.queueDown
  repeat' (first | with_reducible assumption | (with_reducible intro _; intros) | with_reducible apply keeps_queueRec | with_reducible apply keeps_foldl)

theorem keeps_flitOut {a_ : State} (s : State) (p : Fin 4) (f : Flit) (badCrc : Bool) (h_s : Keeps a_ s) : Keeps a_ (State.flitOut s p f badCrc) := by
  unfold State.flitOut
  repeat' (first | with_reducible assumption | (extract_lets +onlyGivenNames x_; clear_value x_) | with_reducible apply keeps_modPort)

theorem keeps_resendFlit {a_ : State} (s : State) (p : Fin 4) (f : Flit) (h_s : Keeps a_ s) : Keeps a_ (State.resendFlit s p f) := by
  unfold State.resendFlit
  repeat' (first | with_reducible assumption | (extract_lets +onlyGivenNames x_; clear_value x_) | with_reducible apply keeps_flitOut | with_reducible apply keeps_modPort)

theorem keeps_newFlit {a_ : State} (s : State) (p : Fin 4) (badCrc : Bool) (h_s : Keeps a_ s) : Keeps a_ (State.newFlit s p badCrc) := by
  unfold State.newFlit
  repeat' (first | with_reducible assumption | (with_reducible intro _; intros) | (extract_lets +onlyGivenNames x_; clear_value x_) | with_reducible apply keeps_flitOut | with_reducible apply keeps_modPort)

theorem keeps_mergeRecs {a_ : State} (s : State) (c : ℕ) (rs : List CrateRec) (h_s : Keeps a_ s) : Keeps a_ (State.mergeRecs s c rs) := by
  unfold State.mergeRecs
  repeat' (first | with_reducible assumption | (with_reducible intro _; intros) | (extract_lets +onlyGivenNames x_; refine Keeps.cut x_ ?_ (fun hx_ => ?_); (on_goal 1 => (unfold x_; clear x_)); (on_goal 2 => clear_value x_)) | (extract_lets +onlyGivenNames x_; unfold x_; clear x_; beta_reduce) | with_reducible apply keeps_modNet | with_reducible apply keeps_count | with_reducible apply keeps_queueDown | with_reducible apply keeps_foldl)

theorem keeps_releaseRecs {a_ : State} (s : State) (now : ℕ) (h_s : Keeps a_ s) : Keeps a_ (State.releaseRecs s now) := by
  unfold State.releaseRecs
  repeat' (first | with_reducible assumption | (extract_lets +onlyGivenNames x_; clear_value x_) | with_reducible apply keeps_mergeRecs | with_reducible apply keeps_modNet | split)

theorem keeps_applyRecs {a_ : State} (s : State) (now : ℕ) (h_s : Keeps a_ s) : Keeps a_ (State.applyRecs s now) := by
  unfold State.applyRecs
  repeat' (first | with_reducible assumption | (with_reducible intro _; intros) | (extract_lets +onlyGivenNames x_; refine Keeps.cut x_ ?_ (fun hx_ => ?_); (on_goal 1 => (unfold x_; clear x_)); (on_goal 2 => clear_value x_)) | (extract_lets +onlyGivenNames x_; clear_value x_) | with_reducible apply keeps_modNet | with_reducible apply keeps_modHr | with_reducible apply keeps_foldl | split)

theorem keeps_restNet {a_ : State} (s : State) (h_s : Keeps a_ s) : Keeps a_ (State.restNet s) := by
  unfold State.restNet
  repeat' (first | with_reducible assumption | (with_reducible intro _; intros) | (extract_lets +onlyGivenNames x_; refine Keeps.cut x_ ?_ (fun hx_ => ?_); (on_goal 1 => (unfold x_; clear x_)); (on_goal 2 => clear_value x_)) | (extract_lets +onlyGivenNames x_; clear_value x_) | with_reducible apply keeps_releaseRecs | with_reducible apply keeps_applyRecs | with_reducible apply keeps_modNet | with_reducible apply keeps_foldl)

theorem keeps_recordUp {a_ : State} (s : State) (r : CrateRec) (h_s : Keeps a_ s) : Keeps a_ (State.recordUp s r) := by
  unfold State.recordUp
  repeat' (first | with_reducible assumption | with_reducible apply keeps_mergeRecs | with_reducible apply keeps_count | with_reducible apply keeps_modNet | with_reducible apply keeps_queueRec | with_reducible apply Keeps.ite)

theorem keeps_recordDown {a_ : State} (s : State) (r : CrateRec) (h_s : Keeps a_ s) : Keeps a_ (State.recordDown s r) := by
  unfold State.recordDown
  repeat' (first | with_reducible assumption | (extract_lets +onlyGivenNames x_; refine Keeps.cut x_ ?_ (fun hx_ => ?_); (on_goal 1 => (unfold x_; clear x_)); (on_goal 2 => clear_value x_)) | (extract_lets +onlyGivenNames x_; clear_value x_) | with_reducible apply keeps_queueDown | with_reducible apply keeps_count | with_reducible apply keeps_modNet | with_reducible apply Keeps.ite)

theorem keeps_portDown {a_ : State} (s : State) (p : Fin 4) (h_s : Keeps a_ s) : Keeps a_ (State.portDown s p) := by
  unfold State.portDown
  repeat' (first | with_reducible assumption | (extract_lets +onlyGivenNames x_; refine Keeps.cut x_ ?_ (fun hx_ => ?_); (on_goal 1 => (unfold x_; clear x_)); (on_goal 2 => clear_value x_)) | (extract_lets +onlyGivenNames x_; clear_value x_) | with_reducible apply keeps_set | with_reducible apply keeps_modPort | with_reducible apply keeps_raise | with_reducible apply keeps_modHr | with_reducible apply keeps_modNet | with_reducible apply Keeps.ite)

theorem keeps_flitFail {a_ : State} (s : State) (p : Fin 4) (h_s : Keeps a_ s) : Keeps a_ (State.flitFail s p) := by
  unfold State.flitFail
  repeat' (first | with_reducible assumption | (extract_lets +onlyGivenNames x_; refine Keeps.cut x_ ?_ (fun hx_ => ?_); (on_goal 1 => (unfold x_; clear x_)); (on_goal 2 => clear_value x_)) | with_reducible apply keeps_modPort | with_reducible apply keeps_detect | with_reducible apply keeps_count | with_reducible apply keeps_exhaust | with_reducible apply Keeps.ite)

theorem keeps_flitNak {a_ : State} (s : State) (p : Fin 4) (num : ℕ) (h_s : Keeps a_ s) : Keeps a_ (State.flitNak s p num) := by
  unfold State.flitNak
  repeat' (first | with_reducible assumption | (extract_lets +onlyGivenNames x_; clear_value x_) | with_reducible apply keeps_exhaust | with_reducible apply keeps_modPort | with_reducible apply Keeps.ite)

theorem keeps_freshFlit {a_ : State} (s : State) (p : Fin 4) (h_s : Keeps a_ s) : Keeps a_ (State.freshFlit s p) := by
  unfold State.freshFlit
  repeat' (first | with_reducible assumption | (with_reducible intro _; intros) | (extract_lets +onlyGivenNames x_; refine Keeps.cut x_ ?_ (fun hx_ => ?_); (on_goal 1 => (unfold x_; clear x_)); (on_goal 2 => clear_value x_)) | (extract_lets +onlyGivenNames x_; refine Keeps.cut x_.2 ?_ (fun hx_ => ?_); (on_goal 1 => (unfold x_; clear x_)); (on_goal 2 => clear_value x_)) | (extract_lets +onlyGivenNames x_; clear_value x_) | with_reducible apply keeps_takeInject | with_reducible apply keeps_newFlit | with_reducible apply keeps_exhaust | with_reducible apply keeps_detect | with_reducible apply keeps_modPort | with_reducible apply keeps_foldl | with_reducible apply keeps_foldl_fst | with_reducible apply keeps_foldl_snd | with_reducible apply Keeps.ite)

theorem keeps_sendFlit {a_ : State} (s : State) (p : Fin 4) (h_s : Keeps a_ s) : Keeps a_ (State.sendFlit s p) := by
  unfold State.sendFlit
  repeat' (first | with_reducible assumption | with_reducible apply keeps_resendFlit | with_reducible apply keeps_freshFlit | with_reducible apply keeps_modPort | split)

theorem keeps_trained {a_ : State} (s : State) (p : Fin 4) (lanes : ℕ) (h_s : Keeps a_ s) : Keeps a_ (State.trained s p lanes) := by
  unfold State.trained
  repeat' (first | with_reducible assumption | (extract_lets +onlyGivenNames x_; refine Keeps.cut x_ ?_ (fun hx_ => ?_); (on_goal 1 => (unfold x_; clear x_)); (on_goal 2 => clear_value x_)) | (extract_lets +onlyGivenNames x_; unfold x_; clear x_; beta_reduce) | with_reducible apply keeps_set | with_reducible apply keeps_modPort | with_reducible apply keeps_raise | with_reducible apply keeps_portDown | with_reducible apply Keeps.ite)

theorem keeps_discover {a_ : State} (s : State) (h_s : Keeps a_ s) : Keeps a_ (State.discover s) := by
  unfold State.discover
  repeat' (first | with_reducible assumption | (with_reducible intro _; intros) | (extract_lets +onlyGivenNames x_; refine Keeps.cut x_ ?_ (fun hx_ => ?_); (on_goal 1 => (unfold x_; clear x_)); (on_goal 2 => clear_value x_)) | with_reducible apply keeps_putK | with_reducible apply keeps_set | with_reducible apply keeps_sendDown | with_reducible apply keeps_modNet | with_reducible apply keeps_foldl | with_reducible apply Keeps.ite)

theorem keeps_discovered {a_ : State} (s : State) (depth : ℕ) (h_s : Keeps a_ s) : Keeps a_ (State.discovered s depth) := by
  unfold State.discovered
  repeat' (first | with_reducible assumption | (with_reducible intro _; intros) | (extract_lets +onlyGivenNames x_; refine Keeps.cut x_ ?_ (fun hx_ => ?_); (on_goal 1 => (unfold x_; clear x_)); (on_goal 2 => clear_value x_)) | (extract_lets +onlyGivenNames x_; clear_value x_) | with_reducible apply keeps_set | with_reducible apply keeps_netSend | with_reducible apply keeps_modNet | with_reducible apply keeps_sendDown | with_reducible apply keeps_foldl | with_reducible apply Keeps.ite)

theorem keeps_slewBy {a_ : State} (s : State) (d : ℤ) (h_s : Keeps a_ s) : Keeps a_ (State.slewBy s d) := by
  unfold State.slewBy
  repeat' (first | with_reducible assumption | with_reducible apply keeps_modNet | with_reducible apply keeps_set)

theorem keeps_measured {a_ : State} (s : State) (p : Fin 4) (t1 : ℤ) (t2 : ℤ) (t3 : ℤ) (t4 : ℤ) (h_s : Keeps a_ s) : Keeps a_ (State.measured s p t1 t2 t3 t4) := by
  unfold State.measured
  repeat' (first | with_reducible assumption | with_reducible apply keeps_modPort | with_reducible apply keeps_set)

theorem keeps_follow {a_ : State} (s : State) (off : ℤ) (asked : Bool) (up : Bool) (h_s : Keeps a_ s) : Keeps a_ (State.follow s off asked up) := by
  unfold State.follow
  repeat' (first | with_reducible assumption | (extract_lets +onlyGivenNames x_; refine Keeps.cut x_ ?_ (fun hx_ => ?_); (on_goal 1 => (unfold x_; clear x_)); (on_goal 2 => clear_value x_)) | (extract_lets +onlyGivenNames x_; clear_value x_) | with_reducible apply keeps_slewBy | with_reducible apply keeps_modNet | with_reducible apply keeps_set | with_reducible apply keeps_raise | with_reducible apply Keeps.ite)

theorem keeps_blockUnnumbered {a_ : State} (s : State) (h_s : Keeps a_ s) : Keeps a_ (State.blockUnnumbered s) := by
  unfold State.blockUnnumbered
  repeat' (first | with_reducible assumption | (with_reducible intro _; intros) | with_reducible apply keeps_set | with_reducible apply keeps_foldl | with_reducible apply Keeps.ite)

theorem keeps_alignStart {a_ : State} (s : State) (h_s : Keeps a_ s) : Keeps a_ (State.alignStart s) := by
  unfold State.alignStart
  repeat' (first | with_reducible assumption | with_reducible apply keeps_set | with_reducible apply keeps_modNet | with_reducible apply Keeps.ite)

theorem keeps_fabSend {a_ : State} (s : State) (node : ℕ) (b : FabBody) (h_s : Keeps a_ s) : Keeps a_ (State.fabSend s node b) := by
  unfold State.fabSend
  repeat' (first | with_reducible assumption | with_reducible apply keeps_modNet | with_reducible apply Keeps.ite | split)

theorem keeps_sampleLines {a_ : State} (s : State) (h_s : Keeps a_ s) : Keeps a_ (State.sampleLines s) := by
  unfold State.sampleLines
  repeat' (first | with_reducible assumption | (with_reducible intro _; intros) | (extract_lets +onlyGivenNames x_; refine Keeps.cut x_ ?_ (fun hx_ => ?_); (on_goal 1 => (unfold x_; clear x_)); (on_goal 2 => clear_value x_)) | (extract_lets +onlyGivenNames x_; clear_value x_) | with_reducible apply keeps_modNet | with_reducible apply keeps_fabSend | with_reducible apply keeps_recordUp | with_reducible apply keeps_foldl | with_reducible apply Keeps.ite)

theorem keeps_execDiscover {a_ : State} (p : Fin 4) (hop : ℕ) (s : State) (h_s : Keeps a_ s) : KeepsOut a_ (execDiscover p hop s) := by
  unfold execDiscover
  repeat' (first | with_reducible apply KeepsOut.next | with_reducible apply KeepsOut.fault | with_reducible assumption | (with_reducible intro _; intros) | with_reducible apply keeps_hear | with_reducible apply keeps_set | with_reducible apply keeps_sendDown | with_reducible apply keeps_netSend | with_reducible apply keeps_modNet | with_reducible apply Keeps.ite)

theorem keeps_execReport {a_ : State} (path : List ℕ) (role : ℕ) (serial : ℕ) (s : State) (h_s : Keeps a_ s) : KeepsOut a_ (execReport path role serial s) := by
  unfold execReport
  repeat' (first | with_reducible apply KeepsOut.next | with_reducible apply KeepsOut.fault | with_reducible assumption | (with_reducible intro _; intros) | (extract_lets +onlyGivenNames x_; refine Keeps.cut x_ ?_ (fun hx_ => ?_); (on_goal 1 => (unfold x_; clear x_)); (on_goal 2 => clear_value x_)) | (extract_lets +onlyGivenNames x_; clear_value x_) | with_reducible apply keeps_hear | with_reducible apply keeps_modNet | with_reducible apply keeps_set | with_reducible apply keeps_netSend | with_reducible apply Keeps.ite | with_reducible apply KeepsOut.ite | split)

theorem keeps_execAssign {a_ : State} (dev : Fin 32) (crate : Fin 16) (cluster : Fin 8) (via : Option (Fin 4)) (s : State) (h_s : Keeps a_ s) : KeepsOut a_ (execAssign dev crate cluster via s) := by
  unfold execAssign
  repeat' (first | with_reducible apply KeepsOut.next | with_reducible apply KeepsOut.fault | with_reducible assumption | (with_reducible intro _; intros) | (extract_lets +onlyGivenNames x_; refine Keeps.cut x_ ?_ (fun hx_ => ?_); (on_goal 1 => (unfold x_; clear x_)); (on_goal 2 => clear_value x_)) | with_reducible apply keeps_hear | with_reducible apply keeps_netSend | with_reducible apply keeps_modNet | with_reducible apply keeps_set | with_reducible apply keeps_discover | with_reducible apply Keeps.ite | with_reducible apply KeepsOut.ite | split)

theorem keeps_execAlign {a_ : State} (p : Fin 4) (t1 : Option ℤ) (t2 : Option ℤ) (t3 : Option ℤ) (t4 : Option ℤ) (asked : Bool) (up : Bool) (s : State) (h_s : Keeps a_ s) : KeepsOut a_ (execAlign p t1 t2 t3 t4 asked up s) := by
  unfold execAlign
  repeat' (first | with_reducible apply KeepsOut.next | with_reducible apply KeepsOut.fault | with_reducible assumption | (with_reducible intro _; intros) | (extract_lets +onlyGivenNames x_; clear_value x_) | with_reducible apply keeps_hear | with_reducible apply keeps_netSend | with_reducible apply keeps_measured | with_reducible apply keeps_modPort | with_reducible apply keeps_follow | with_reducible apply Keeps.ite | with_reducible apply KeepsOut.ite | split)

theorem keeps_execEpoch {a_ : State} (p : Fin 4) (offset : ℕ) (ago : ℕ) (s : State) (h_s : Keeps a_ s) : KeepsOut a_ (execEpoch p offset ago s) := by
  unfold execEpoch
  repeat' (first | with_reducible apply KeepsOut.next | with_reducible apply KeepsOut.fault | with_reducible assumption | (with_reducible intro _; intros) | (extract_lets +onlyGivenNames x_; refine Keeps.cut x_ ?_ (fun hx_ => ?_); (on_goal 1 => (unfold x_; clear x_)); (on_goal 2 => clear_value x_)) | (extract_lets +onlyGivenNames x_; clear_value x_) | with_reducible apply keeps_hear | with_reducible apply keeps_sendDown | with_reducible apply keeps_count | with_reducible apply keeps_modTb | with_reducible apply Keeps.ite)

theorem keeps_execEvcfg {a_ : State} (crate : Fin 65536) (cluster : Fin 65536) (scope : Fin 256) (s : State) (h_s : Keeps a_ s) : KeepsOut a_ (execEvcfg crate cluster scope s) := by
  unfold execEvcfg
  repeat' (first | with_reducible apply KeepsOut.next | with_reducible apply KeepsOut.fault | with_reducible assumption | (with_reducible intro _; intros) | (extract_lets +onlyGivenNames x_; refine Keeps.cut x_ ?_ (fun hx_ => ?_); (on_goal 1 => (unfold x_; clear x_)); (on_goal 2 => clear_value x_)) | with_reducible apply keeps_hear | with_reducible apply keeps_set | with_reducible apply keeps_blockUnnumbered | with_reducible apply keeps_modNet | with_reducible apply keeps_sendDown | with_reducible apply Keeps.ite)

theorem keeps_execEventRecord {a_ : State} (p : Fin 4) (cycle : Fin 65536) (line : Fin 8) (level : Bool) (s : State) (h_s : Keeps a_ s) : KeepsOut a_ (execEventRecord p cycle line level s) := by
  unfold execEventRecord
  repeat' (first | with_reducible apply KeepsOut.next | with_reducible apply KeepsOut.fault | with_reducible assumption | (with_reducible intro _; intros) | with_reducible apply keeps_hear | with_reducible apply keeps_recordDown | with_reducible apply keeps_recordUp | with_reducible apply Keeps.ite)

theorem keeps_execCrateEventRelease {a_ : State} (s : State) (h_s : Keeps a_ s) : KeepsOut a_ (execCrateEventRelease s) := by
  unfold execCrateEventRelease
  repeat' (first | with_reducible apply KeepsOut.next | with_reducible apply KeepsOut.fault | with_reducible assumption | with_reducible apply keeps_releaseRecs)

theorem keeps_execCrateEventApply {a_ : State} (s : State) (h_s : Keeps a_ s) : KeepsOut a_ (execCrateEventApply s) := by
  unfold execCrateEventApply
  repeat' (first | with_reducible apply KeepsOut.next | with_reducible apply KeepsOut.fault | with_reducible assumption | with_reducible apply keeps_applyRecs)

theorem keeps_execTlFlitCrcFail {a_ : State} (f : FlitFail) (s : State) (h_s : Keeps a_ s) : KeepsOut a_ (execTlFlitCrcFail f s) := by
  unfold execTlFlitCrcFail
  repeat' (first | with_reducible apply KeepsOut.next | with_reducible apply KeepsOut.fault | with_reducible assumption | (with_reducible intro _; intros) | with_reducible apply keeps_flitFail | with_reducible apply keeps_hear | with_reducible apply keeps_flitNak | with_reducible apply keeps_count | with_reducible apply keeps_replayCame | split)

theorem keeps_execTlTrainingDone {a_ : State} (p : Fin 4) (lanes : Fin 3) (s : State) (h_s : Keeps a_ s) : KeepsOut a_ (execTlTrainingDone p lanes s) := by
  unfold execTlTrainingDone
  repeat' (first | with_reducible apply KeepsOut.next | with_reducible apply KeepsOut.fault | with_reducible assumption | with_reducible apply keeps_trained)

theorem keeps_execTlLaneFail {a_ : State} (p : Fin 4) (lane : Fin 2) (s : State) (h_s : Keeps a_ s) : KeepsOut a_ (execTlLaneFail p lane s) := by
  unfold execTlLaneFail
  repeat' (first | with_reducible apply KeepsOut.next | with_reducible apply KeepsOut.fault | with_reducible assumption | with_reducible apply keeps_takeInject | with_reducible apply keeps_retrain | with_reducible apply keeps_detect)

theorem keeps_execTlPeerSignal {a_ : State} (p : Fin 4) (s : State) (h_s : Keeps a_ s) : KeepsOut a_ (execTlPeerSignal p s) := by
  unfold execTlPeerSignal
  repeat' (first | with_reducible apply KeepsOut.next | with_reducible apply KeepsOut.fault | with_reducible assumption | with_reducible apply keeps_set | with_reducible apply Keeps.ite)

theorem keeps_execTlDiscStart {a_ : State} (s : State) (h_s : Keeps a_ s) : KeepsOut a_ (execTlDiscStart s) := by
  unfold execTlDiscStart
  repeat' (first | with_reducible apply KeepsOut.next | with_reducible apply KeepsOut.fault | with_reducible assumption | (with_reducible intro _; intros) | with_reducible apply keeps_hostStrobe | with_reducible apply keeps_discover)

theorem keeps_execDiscoveryDone {a_ : State} (depth : Fin 9) (s : State) (h_s : Keeps a_ s) : KeepsOut a_ (execDiscoveryDone depth s) := by
  unfold execDiscoveryDone
  repeat' (first | with_reducible apply KeepsOut.next | with_reducible apply KeepsOut.fault | with_reducible assumption | with_reducible apply keeps_discovered)

theorem keeps_execTlAlignStart {a_ : State} (s : State) (h_s : Keeps a_ s) : KeepsOut a_ (execTlAlignStart s) := by
  unfold execTlAlignStart
  repeat' (first | with_reducible apply KeepsOut.next | with_reducible apply KeepsOut.fault | with_reducible assumption | (with_reducible intro _; intros) | with_reducible apply keeps_hostStrobe | with_reducible apply keeps_alignStart)

theorem keeps_execAlignExchangeTimer {a_ : State} (p : Fin 4) (s : State) (h_s : Keeps a_ s) : KeepsOut a_ (execAlignExchangeTimer p s) := by
  unfold execAlignExchangeTimer
  repeat' (first | with_reducible apply KeepsOut.next | with_reducible apply KeepsOut.fault | with_reducible assumption | with_reducible apply keeps_modPort | with_reducible apply keeps_netSend | with_reducible apply Keeps.ite)

theorem keeps_execAlignSlewDone {a_ : State} (residual : ℤ) (s : State) (h_s : Keeps a_ s) : KeepsOut a_ (execAlignSlewDone residual s) := by
  unfold execAlignSlewDone
  repeat' (first | with_reducible apply KeepsOut.next | with_reducible apply KeepsOut.fault | with_reducible assumption | (extract_lets +onlyGivenNames x_; clear_value x_) | with_reducible apply keeps_set | with_reducible apply keeps_slewBy | with_reducible apply Keeps.ite | with_reducible apply KeepsOut.ite)

theorem keeps_execRaccTimeout {a_ : State} (s : State) (h_s : Keeps a_ s) : KeepsOut a_ (execRaccTimeout s) := by
  unfold execRaccTimeout
  repeat' (first | with_reducible apply KeepsOut.next | with_reducible apply KeepsOut.fault | with_reducible assumption | with_reducible apply keeps_modNet | with_reducible apply keeps_set | with_reducible apply Keeps.ite | with_reducible apply KeepsOut.ite)

theorem keeps_fieldComesUp {a_ : State} (s : State) (h_s : Keeps a_ s) : Keeps a_ (State.fieldComesUp s) := by
  unfold State.fieldComesUp
  repeat' (first | with_reducible assumption | (with_reducible intro _; intros) | (extract_lets +onlyGivenNames x_; refine Keeps.cut x_ ?_ (fun hx_ => ?_); (on_goal 1 => (unfold x_; clear x_)); (on_goal 2 => clear_value x_)) | (extract_lets +onlyGivenNames x_; clear_value x_) | with_reducible apply keeps_raise | with_reducible apply keeps_set | with_reducible apply keeps_modStile | with_reducible apply keeps_sendMsg | with_reducible apply keeps_foldl | with_reducible apply Keeps.ite)

theorem keeps_dropCommits {a_ : State} (s : State) (h_s : Keeps a_ s) : Keeps a_ (State.dropCommits s) := by
  unfold State.dropCommits
  repeat' (first | with_reducible assumption | (with_reducible intro _; intros) | (extract_lets +onlyGivenNames x_; refine Keeps.cut x_ ?_ (fun hx_ => ?_); (on_goal 1 => (unfold x_; clear x_)); (on_goal 2 => clear_value x_)) | with_reducible apply keeps_discardPends | with_reducible apply keeps_reportCommit | with_reducible apply keeps_showPending | with_reducible apply keeps_showBusy | with_reducible apply keeps_modCommit | with_reducible apply keeps_foldl | split)

theorem keeps_fieldReset {a_ : State} (s : State) (h : Keeps a_ s) : Keeps a_ s.fieldReset := by
  refine Keeps.regs (s := (s.fieldLeave 0).dropCommits) (keeps_dropCommits _ (keeps_fieldLeave s 0 h)) rfl rfl rfl rfl rfl rfl (fun w => ?_)
  exact ⟨smWf_set resetVal _ 0x78000 _ (smWf_filter resetVal _ _ w.1), rfl, rfl, smWf_filter (fun _ => 0) _ _ w.2.2.2⟩

theorem keeps_loseTables {a_ : State} (s : State) (h_s : Keeps a_ s) : Keeps a_ (State.loseTables s) := by
  unfold State.loseTables
  repeat' (first | with_reducible assumption | with_reducible apply keeps_mk)

theorem keeps_readHostNvm {a_ : State} (s : State) (h_s : Keeps a_ s) : Keeps a_ (State.readHostNvm s) := by
  unfold State.readHostNvm
  repeat' (first | with_reducible assumption | (extract_lets +onlyGivenNames x_; refine Keeps.cut x_ ?_ (fun hx_ => ?_); (on_goal 1 => (unfold x_; clear x_)); (on_goal 2 => clear_value x_)) | (extract_lets +onlyGivenNames x_; clear_value x_) | with_reducible apply keeps_set | with_reducible apply keeps_modBoot | split)

theorem keeps_dropRingCommits {a_ : State} (s : State) (h_s : Keeps a_ s) : Keeps a_ (State.dropRingCommits s) := by
  unfold State.dropRingCommits
  repeat' (first | with_reducible assumption | (extract_lets +onlyGivenNames x_; refine Keeps.cut x_ ?_ (fun hx_ => ?_); (on_goal 1 => (unfold x_; clear x_)); (on_goal 2 => clear_value x_)) | (extract_lets +onlyGivenNames x_; clear_value x_) | with_reducible apply keeps_modCommit | with_reducible apply keeps_engineFree | with_reducible apply Keeps.ite)

theorem keeps_hostReset {a_ : State} (s : State) (h : Keeps a_ s) : Keeps a_ s.hostReset := by
  refine keeps_readHostNvm _ ((keeps_dropRingCommits s h).regs rfl rfl rfl rfl rfl rfl (fun w => ?_))
  exact ⟨smWf_filter resetVal _ _ w.1, w.2.1, w.2.2.1, smWf_filter (fun _ => 0) _ _ w.2.2.2⟩

theorem keeps_putBoth {a_ : State} (s : State) (f : Fld) (ix : List ℕ) (v : ℕ) (h_s : Keeps a_ s) : Keeps a_ (State.putBoth s f ix v) := by
  unfold State.putBoth
  repeat' (first | with_reducible assumption | (extract_lets +onlyGivenNames x_; unfold x_; clear x_; beta_reduce) | with_reducible apply keeps_putActive | with_reducible apply keeps_putShadow)

theorem keeps_bootLane {a_ : State} (s : State) (n : Fin 12) (l : Fin 8) (code : ℕ) (mode : ℕ) (h_s : Keeps a_ s) : Keeps a_ (State.bootLane s n l code mode) := by
  unfold State.bootLane
  repeat' (first | with_reducible assumption | (extract_lets +onlyGivenNames x_; clear_value x_) | with_reducible apply keeps_keepLanes | with_reducible apply keeps_modLane | with_reducible apply keeps_putBoth)

theorem keeps_bootOutput {a_ : State} (s : State) (o : Fin 16) (e : Option (ℕ × ℤ)) (h_s : Keeps a_ s) : Keeps a_ (State.bootOutput s o e) := by
  unfold State.bootOutput
  repeat' (first | with_reducible assumption | with_reducible apply keeps_modAo | with_reducible apply keeps_putBoth | split)

theorem keeps_bootNvm {a_ : State} (s : State) (h_s : Keeps a_ s) : Keeps a_ (State.bootNvm s) := by
  unfold State.bootNvm
  repeat' (first | with_reducible assumption | (with_reducible intro _; intros) | (extract_lets +onlyGivenNames x_; refine Keeps.cut x_ ?_ (fun hx_ => ?_); (on_goal 1 => (unfold x_; clear x_)); (on_goal 2 => clear_value x_)) | (extract_lets +onlyGivenNames x_; unfold x_; clear x_; beta_reduce) | with_reducible apply keeps_set | with_reducible apply keeps_overSlices | with_reducible apply keeps_putBoth | with_reducible apply keeps_overLanes | with_reducible apply keeps_bootLane | with_reducible apply keeps_overOutputs | with_reducible apply keeps_bootOutput | with_reducible apply keeps_modNet | with_reducible apply keeps_modBoot)

theorem keeps_bootCal {a_ : State} (s : State) (h_s : Keeps a_ s) : Keeps a_ (State.bootCal s) := by
  unfold State.bootCal
  repeat' (first | with_reducible assumption | (with_reducible intro _; intros) | (extract_lets +onlyGivenNames x_; refine Keeps.cut x_ ?_ (fun hx_ => ?_); (on_goal 1 => (unfold x_; clear x_)); (on_goal 2 => clear_value x_)) | (extract_lets +onlyGivenNames x_; clear_value x_) | with_reducible apply keeps_set | with_reducible apply keeps_calDue | with_reducible apply keeps_modCalUnit | with_reducible apply keeps_foldl | with_reducible apply Keeps.ite)

theorem keeps_fieldBoot {a_ : State} (s : State) (mvA : ℕ) (mvB : ℕ) (h_s : Keeps a_ s) : Keeps a_ (State.fieldBoot s mvA mvB) := by
  unfold State.fieldBoot
  repeat' (first | with_reducible assumption | (with_reducible intro _; intros) | (extract_lets +onlyGivenNames x_; refine Keeps.cut x_ ?_ (fun hx_ => ?_); (on_goal 1 => (unfold x_; clear x_)); (on_goal 2 => clear_value x_)) | (extract_lets +onlyGivenNames x_; unfold x_; clear x_; beta_reduce) | with_reducible apply keeps_bootNvm | with_reducible apply keeps_modStile | with_reducible apply keeps_bankVolts | with_reducible apply keeps_set | with_reducible apply keeps_setBank | with_reducible apply keeps_bootCal | with_reducible apply keeps_foldl | with_reducible apply Keeps.ite)

theorem keeps_spiBegin {a_ : State} (s : State) (h_s : Keeps a_ s) : Keeps a_ (State.spiBegin s) := by
  unfold State.spiBegin
  repeat' (first | with_reducible assumption | (extract_lets +onlyGivenNames x_; refine Keeps.cut x_ ?_ (fun hx_ => ?_); (on_goal 1 => (unfold x_; clear x_)); (on_goal 2 => clear_value x_)) | with_reducible apply keeps_putK | with_reducible apply keeps_set)

theorem keeps_ran {a_ : State} (o : Host.Outcome State Fault Refusal) (s : State) (g : KeepsOut a_ o) (h : Keeps a_ s) : Keeps a_ (ran o s) := by
  unfold ran
  split
  · exact g _ rfl
  · exact h

theorem keeps_plainWrite {a_ : State} (s : State) (k : ℕ) (v : Word) (h_s : Keeps a_ s) : Keeps a_ (State.plainWrite s k v) := by
  unfold State.plainWrite
  repeat' (first | with_reducible assumption | (extract_lets +onlyGivenNames x_; refine Keeps.cut x_ ?_ (fun hx_ => ?_); (on_goal 1 => (unfold x_; clear x_)); (on_goal 2 => clear_value x_)) | (extract_lets +onlyGivenNames x_; clear_value x_) | with_reducible apply keeps_putK | with_reducible apply keeps_putShadow | with_reducible apply Keeps.ite | split)

theorem keeps_strobe {a_ : State} (v : Word) (b : ℕ) (f : State → State) (s : State) (h_f : ∀ x0, Keeps a_ x0 → Keeps a_ (f x0)) (h_s : Keeps a_ s) : Keeps a_ (State.strobe v b f s) := by
  unfold State.strobe
  repeat' (first | with_reducible assumption | (with_reducible intro _; intros) | apply h_f | with_reducible apply Keeps.ite)

theorem keeps_holdWrite {a_ : State} (s : State) (k : ℕ) (v : Word) (h_s : Keeps a_ s) : Keeps a_ (State.holdWrite s k v) := by
  unfold State.holdWrite
  repeat' (first | with_reducible assumption | (extract_lets +onlyGivenNames x_; refine Keeps.cut x_ ?_ (fun hx_ => ?_); (on_goal 1 => (unfold x_; clear x_)); (on_goal 2 => clear_value x_)) | with_reducible apply keeps_plainWrite | with_reducible apply keeps_set | with_reducible apply Keeps.ite)

theorem keeps_epochCtrlWrite {a_ : State} (s : State) (k : ℕ) (v : Word) (h_s : Keeps a_ s) : Keeps a_ (State.epochCtrlWrite s k v) := by
  unfold State.epochCtrlWrite
  repeat' (first | with_reducible assumption | (extract_lets +onlyGivenNames x_; refine Keeps.cut x_ ?_ (fun hx_ => ?_); (on_goal 1 => (unfold x_; clear x_)); (on_goal 2 => clear_value x_)) | with_reducible apply keeps_plainWrite | with_reducible apply keeps_modTb | with_reducible apply Keeps.ite)

theorem keeps_spareWrite {a_ : State} (s : State) (n : Fin 12) (k : ℕ) (v : Word) (h_s : Keeps a_ s) : Keeps a_ (State.spareWrite s n k v) := by
  unfold State.spareWrite
  repeat' (first | with_reducible assumption | (with_reducible intro _; intros) | (extract_lets +onlyGivenNames x_; refine Keeps.cut x_ ?_ (fun hx_ => ?_); (on_goal 1 => (unfold x_; clear x_)); (on_goal 2 => clear_value x_)) | (extract_lets +onlyGivenNames x_; refine Keeps.cut x_.2 ?_ (fun hx_ => ?_); (on_goal 1 => (unfold x_; clear x_)); (on_goal 2 => clear_value x_)) | (extract_lets +onlyGivenNames x_; clear_value x_) | with_reducible apply keeps_plainWrite | with_reducible apply keeps_strobe | with_reducible apply keeps_spareForce | with_reducible apply keeps_fresh | with_reducible apply keeps_spareRestore)

theorem keeps_sessCtrlWrite {a_ : State} (s : State) (k : Fin 16) (v : Word) (h_s : Keeps a_ s) : Keeps a_ (State.sessCtrlWrite s k v) := by
  unfold State.sessCtrlWrite
  repeat' (first | with_reducible assumption | (with_reducible intro _; intros) | (extract_lets +onlyGivenNames x_; refine Keeps.cut x_ ?_ (fun hx_ => ?_); (on_goal 1 => (unfold x_; clear x_)); (on_goal 2 => clear_value x_)) | with_reducible apply keeps_strobe | with_reducible apply keeps_teardown | with_reducible apply keeps_abortSess)

theorem keeps_tempCfgWrite {a_ : State} (s : State) (k : ℕ) (v : Word) (h_s : Keeps a_ s) : Keeps a_ (State.tempCfgWrite s k v) := by
  unfold State.tempCfgWrite
  repeat' (first | with_reducible assumption | (extract_lets +onlyGivenNames x_; clear_value x_) | with_reducible apply keeps_plainWrite)

theorem keeps_nvmFDataWrite {a_ : State} (s : State) (v : Word) (h_s : Keeps a_ s) : Keeps a_ (State.nvmFDataWrite s v) := by
  unfold State.nvmFDataWrite
  repeat' (first | with_reducible assumption | (extract_lets +onlyGivenNames x_; refine Keeps.cut x_ ?_ (fun hx_ => ?_); (on_goal 1 => (unfold x_; clear x_)); (on_goal 2 => clear_value x_)) | (extract_lets +onlyGivenNames x_; clear_value x_) | with_reducible apply keeps_modBoot | with_reducible apply keeps_nvmStep | with_reducible apply keeps_ddr | with_reducible apply keeps_hostMem | with_reducible apply keeps_nvmF | with_reducible apply keeps_nvmH | with_reducible apply Keeps.ite)

theorem keeps_nvmHDataWrite {a_ : State} (s : State) (v : Word) (h_s : Keeps a_ s) : Keeps a_ (State.nvmHDataWrite s v) := by
  unfold State.nvmHDataWrite
  repeat' (first | with_reducible assumption | (extract_lets +onlyGivenNames x_; clear_value x_) | with_reducible apply keeps_nvmStep | with_reducible apply keeps_modBoot)

theorem keeps_stageWrite {a_ : State} (s : State) (k : Fin 16) (v : Word) (h_s : Keeps a_ s) : Keeps a_ (State.stageWrite s k v) := by
  unfold State.stageWrite
  repeat' (first | with_reducible assumption | with_reducible apply keeps_stageSet | with_reducible apply keeps_stageClear | with_reducible apply Keeps.ite)

theorem keeps_rptrWrite {a_ : State} (s : State) (n : ℕ) (r : ℕ) (k : ℕ) (v : Word) (h_s : Keeps a_ s) : Keeps a_ (State.rptrWrite s n r k v) := by
  unfold State.rptrWrite
  repeat' (first | with_reducible assumption | with_reducible apply keeps_modGl | with_reducible apply keeps_plainWrite | with_reducible apply Keeps.ite)

theorem keeps_fieldResetAsk {a_ : State} (s : State) (h_s : Keeps a_ s) : Keeps a_ (State.fieldResetAsk s) := by
  unfold State.fieldResetAsk
  repeat' (first | with_reducible assumption | (with_reducible intro _; intros) | with_reducible apply keeps_cross | with_reducible apply keeps_fieldReset | with_reducible apply Keeps.ite)

theorem keeps_regWriteBase {a_ : State} (s : State) (k : ℕ) (v : Word) (h_s : Keeps a_ s) : Keeps a_ (State.regWriteBase s k v) := by
  unfold State.regWriteBase
  repeat' (first | with_reducible assumption | (with_reducible intro _; intros) | (extract_lets +onlyGivenNames x_; clear_value x_) | with_reducible apply keeps_strobe | with_reducible apply keeps_ran | with_reducible apply keeps_execSysCommitGo | with_reducible apply keeps_relock | with_reducible apply keeps_emit | with_reducible apply keeps_epochCtrlWrite | with_reducible apply keeps_holdWrite | with_reducible apply keeps_spareWrite | with_reducible apply keeps_stepCore | with_reducible apply keeps_resumeCore | with_reducible apply keeps_haltCore | with_reducible apply keeps_cswAddr | with_reducible apply keeps_fwScrPut | with_reducible apply keeps_aoTblPut | with_reducible apply keeps_invPages | with_reducible apply keeps_invTlb | with_reducible apply keeps_forceTrigger | with_reducible apply keeps_stopTrigger | with_reducible apply keeps_armTrigger | with_reducible apply keeps_rptrWrite | with_reducible apply keeps_swWrite | with_reducible apply keeps_calCmd | with_reducible apply keeps_sessCtrlWrite | with_reducible apply keeps_tempCfgWrite | with_reducible apply keeps_coreOnline | with_reducible apply keeps_coreOffline | with_reducible apply keeps_plainWrite | with_reducible apply keeps_injCancel | with_reducible apply keeps_injArm | with_reducible apply keeps_stageWrite | with_reducible apply keeps_swapGo | with_reducible apply keeps_nvmHDataWrite | with_reducible apply keeps_nvmFDataWrite | with_reducible apply keeps_nvmHProgram | with_reducible apply keeps_nvmHLoad | with_reducible apply keeps_nvmStoreCal | with_reducible apply keeps_nvmFProgram | with_reducible apply keeps_nvmFLoad | with_reducible apply keeps_fieldResetAsk | with_reducible apply keeps_discover | with_reducible apply keeps_alignStart | split)

theorem keeps_keepHeld {a_ : State} (s : State) (m : SMap Word) (h : Keeps a_ s) : Keeps a_ (s.keepHeld m) :=
  h.regs rfl rfl rfl rfl rfl rfl (fun w => w)

theorem keeps_bar0Put {a_ : State} (s : State) (k : ℕ) (v : Word) (wr : State → ℕ → Word → State) (h_s : Keeps a_ s) (h_wr : ∀ x0 x1 x2, Keeps a_ x0 → Keeps a_ (wr x0 x1 x2)) : Keeps a_ (State.bar0Put s k v wr) := by
  unfold State.bar0Put
  repeat' (first | with_reducible assumption | (with_reducible intro _; intros) | (extract_lets +onlyGivenNames x_; clear_value x_) | apply h_wr | with_reducible apply keeps_keepHeld | with_reducible apply keeps_foldl)

theorem keeps_raccWrite {a_ : State} (s : State) (o : ℕ) (v : Word) (wr : State → ℕ → Word → State) (h_s : Keeps a_ s) (h_wr : ∀ x0 x1 x2, Keeps a_ x0 → Keeps a_ (wr x0 x1 x2)) : Keeps a_ (State.raccWrite s o v wr) := by
  unfold State.raccWrite
  repeat' (first | with_reducible assumption | (with_reducible intro _; intros) | with_reducible apply keeps_strobe | with_reducible apply keeps_commitGo | with_reducible apply keeps_bar0Put | with_reducible apply keeps_regWriteBase | with_reducible apply Keeps.ite)

theorem keeps_raccRead {a_ : State} (s : State) (o : ℕ) (h_s : Keeps a_ s) : Keeps a_ (State.raccRead s o).2 := by
  unfold State.raccRead
  repeat' (first | with_reducible assumption | (extract_lets +onlyGivenNames x_; refine Keeps.cut x_.2.2 ?_ (fun hx_ => ?_); (on_goal 1 => (unfold x_; clear x_)); (on_goal 2 => clear_value x_)) | with_reducible apply keeps_readThrough | with_reducible apply keeps_keepLatch | with_reducible apply Keeps.ite | with_reducible apply Keeps.ite_snd)

theorem keeps_raccAsk {a_ : State} (s : State) (p : Fin 4) (crate : ℕ) (dev : ℕ) (own : Bool) (m : NetMsg) (h_s : Keeps a_ s) : Keeps a_ (State.raccAsk s p crate dev own m) := by
  unfold State.raccAsk
  repeat' (first | with_reducible assumption | with_reducible apply keeps_modPort | with_reducible apply keeps_netSend)

theorem keeps_raccDone {a_ : State} (s : State) (st : Status) (h_s : Keeps a_ s) : Keeps a_ (State.raccDone s st) := by
  unfold State.raccDone
  repeat' (first | with_reducible assumption | with_reducible apply keeps_set)

theorem keeps_raccGo {a_ : State} (s : State) (h_s : Keeps a_ s) : Keeps a_ (State.raccGo s) := by
  unfold State.raccGo
  repeat' (first | with_reducible assumption | (with_reducible intro _; intros) | (extract_lets +onlyGivenNames x_; refine Keeps.cut x_.2 ?_ (fun hx_ => ?_); (on_goal 1 => (unfold x_; clear x_)); (on_goal 2 => clear_value x_)) | (extract_lets +onlyGivenNames x_; clear_value x_) | with_reducible apply keeps_raccDone | with_reducible apply keeps_raccWrite | with_reducible apply keeps_regWriteBase | with_reducible apply keeps_raccRead | with_reducible apply keeps_putK | with_reducible apply keeps_modNet | with_reducible apply keeps_set | with_reducible apply keeps_raccAsk | with_reducible apply Keeps.ite)

theorem keeps_raccTgtWrite {a_ : State} (s : State) (v : Word) (h_s : Keeps a_ s) : Keeps a_ (State.raccTgtWrite s v) := by
  unfold State.raccTgtWrite
  repeat' (first | with_reducible assumption | (with_reducible intro _; intros) | with_reducible apply keeps_strobe | with_reducible apply keeps_raccGo | with_reducible apply keeps_plainWrite)

theorem keeps_regWrite {a_ : State} (s : State) (k : ℕ) (v : Word) (h_s : Keeps a_ s) : Keeps a_ (State.regWrite s k v) := by
  unfold State.regWrite
  repeat' (first | with_reducible assumption | with_reducible apply keeps_raccTgtWrite | with_reducible apply keeps_regWriteBase | with_reducible apply Keeps.ite)

theorem keeps_hostWriteReg {a_ : State} (s : State) (off : ℕ) (v : Word) (h_s : Keeps a_ s) : Keeps a_ (State.hostWriteReg s off v) := by
  unfold State.hostWriteReg
  repeat' (first | with_reducible assumption | (with_reducible intro _; intros) | with_reducible apply keeps_bar0Put | with_reducible apply keeps_regWrite | with_reducible apply keeps_toField | with_reducible apply Keeps.ite)

theorem keeps_execTlRaccGo {a_ : State} (v : Word) (s : State) (h_s : Keeps a_ s) : KeepsOut a_ (execTlRaccGo v s) := by
  unfold execTlRaccGo
  repeat' (first | with_reducible apply KeepsOut.next | with_reducible apply KeepsOut.fault | with_reducible assumption | (with_reducible intro _; intros) | with_reducible apply keeps_toField | with_reducible apply keeps_raccTgtWrite)

theorem keeps_ringErr {a_ : State} (s : State) (n : Fin 16) (st : Status) (ring : ℕ) (field : ℕ) (h_s : Keeps a_ s) : Keeps a_ (State.ringErr s n st ring field) := by
  unfold State.ringErr
  repeat' (first | with_reducible assumption | with_reducible apply keeps_set)

theorem keeps_dbBad {a_ : State} (s : State) (n : Fin 16) (h_s : Keeps a_ s) : Keeps a_ (State.dbBad s n) := by
  unfold State.dbBad
  repeat' (first | with_reducible assumption | with_reducible apply keeps_count)

theorem keeps_dbTail {a_ : State} (s : State) (n : Fin 16) (idx : ℕ) (h_s : Keeps a_ s) : Keeps a_ (State.dbTail s n idx) := by
  unfold State.dbTail
  repeat' (first | with_reducible assumption | with_reducible apply keeps_modHost | with_reducible apply keeps_dbBad | with_reducible apply Keeps.ite)

theorem keeps_dbGo {a_ : State} (s : State) (n : Fin 16) (tag : ℕ) (h_s : Keeps a_ s) : Keeps a_ (State.dbGo s n tag) := by
  unfold State.dbGo
  repeat' (first | with_reducible assumption | (with_reducible intro _; intros) | (extract_lets +onlyGivenNames x_; refine Keeps.cut x_ ?_ (fun hx_ => ?_); (on_goal 1 => (unfold x_; clear x_)); (on_goal 2 => clear_value x_)) | with_reducible apply keeps_cross | with_reducible apply keeps_modHost | with_reducible apply keeps_count | with_reducible apply Keeps.ite | split)

theorem keeps_ringGoesOn {a_ : State} (s : State) (n : Fin 16) (r : Fin 4) (h_s : Keeps a_ s) : Keeps a_ (State.ringGoesOn s n r) := by
  unfold State.ringGoesOn
  repeat' (first | with_reducible assumption | with_reducible apply keeps_flushWaiting | with_reducible apply keeps_forwardAll | with_reducible apply Keeps.ite)

theorem keeps_dbHead {a_ : State} (s : State) (n : Fin 16) (r : Fin 4) (idx : ℕ) (rearm : Bool) (h_s : Keeps a_ s) : Keeps a_ (State.dbHead s n r idx rearm) := by
  unfold State.dbHead
  repeat' (first | with_reducible assumption | (extract_lets +onlyGivenNames x_; refine Keeps.cut x_ ?_ (fun hx_ => ?_); (on_goal 1 => (unfold x_; clear x_)); (on_goal 2 => clear_value x_)) | (extract_lets +onlyGivenNames x_; clear_value x_) | with_reducible apply keeps_dbBad | with_reducible apply keeps_modRing | with_reducible apply keeps_raiseRing | with_reducible apply keeps_ringGoesOn | with_reducible apply Keeps.ite)

theorem keeps_dbDataHead {a_ : State} (s : State) (n : Fin 16) (head : ℕ) (lap : Bool) (h_s : Keeps a_ s) : Keeps a_ (State.dbDataHead s n head lap) := by
  unfold State.dbDataHead
  repeat' (first | with_reducible assumption | with_reducible apply keeps_forwardAll | with_reducible apply keeps_modHost)

theorem keeps_ringCtl {a_ : State} (s : State) (n : Fin 16) (r : Fin 4) (v : Word) (h_s : Keeps a_ s) : Keeps a_ (State.ringCtl s n r v) := by
  unfold State.ringCtl
  repeat' (first | with_reducible assumption | (extract_lets +onlyGivenNames x_; refine Keeps.cut x_ ?_ (fun hx_ => ?_); (on_goal 1 => (unfold x_; clear x_)); (on_goal 2 => clear_value x_)) | (extract_lets +onlyGivenNames x_; clear_value x_) | with_reducible apply keeps_ringErr | with_reducible apply keeps_plainWrite | with_reducible apply keeps_modRing | with_reducible apply keeps_modHost | with_reducible apply keeps_ringGoesOn | with_reducible apply Keeps.ite | split)

theorem keeps_dataCfg {a_ : State} (s : State) (n : Fin 16) (v : Word) (h_s : Keeps a_ s) : Keeps a_ (State.dataCfg s n v) := by
  unfold State.dataCfg
  repeat' (first | with_reducible assumption | (extract_lets +onlyGivenNames x_; refine Keeps.cut x_ ?_ (fun hx_ => ?_); (on_goal 1 => (unfold x_; clear x_)); (on_goal 2 => clear_value x_)) | (extract_lets +onlyGivenNames x_; refine Keeps.cut x_.2 ?_ (fun hx_ => ?_); (on_goal 1 => (unfold x_; clear x_)); (on_goal 2 => clear_value x_)) | (extract_lets +onlyGivenNames x_; clear_value x_) | with_reducible apply keeps_fresh | with_reducible apply keeps_ringErr | with_reducible apply keeps_plainWrite | with_reducible apply keeps_forwardAll | with_reducible apply keeps_modHost | with_reducible apply Keeps.ite | with_reducible apply Keeps.ite_snd | split)

theorem keeps_msixWrite {a_ : State} (s : State) (n : Fin 16) (d : ℕ) (k : ℕ) (v : Word) (h_s : Keeps a_ s) : Keeps a_ (State.msixWrite s n d k v) := by
  unfold State.msixWrite
  repeat' (first | with_reducible assumption | (extract_lets +onlyGivenNames x_; refine Keeps.cut x_ ?_ (fun hx_ => ?_); (on_goal 1 => (unfold x_; clear x_)); (on_goal 2 => clear_value x_)) | (extract_lets +onlyGivenNames x_; clear_value x_) | with_reducible apply keeps_plainWrite | with_reducible apply keeps_sendVec | with_reducible apply keeps_putK | with_reducible apply Keeps.ite)

theorem keeps_pagePut {a_ : State} (s : State) (k : ℕ) (v : Word) (h_s : Keeps a_ s) : Keeps a_ (State.pagePut s k v) := by
  unfold State.pagePut
  repeat' (first | with_reducible assumption | (extract_lets +onlyGivenNames x_; clear_value x_) | with_reducible apply keeps_dbTail | with_reducible apply keeps_dbGo | with_reducible apply keeps_dbHead | with_reducible apply keeps_dbDataHead | with_reducible apply keeps_plainWrite | with_reducible apply keeps_ringCtl | with_reducible apply keeps_dataCfg | with_reducible apply keeps_msixWrite | with_reducible apply Keeps.ite | split)

theorem keeps_pageWrite {a_ : State} (s : State) (n : Fin 16) (off : ℕ) (v : Word) (h_s : Keeps a_ s) : Keeps a_ (State.pageWrite s n off v) := by
  unfold State.pageWrite
  repeat' (first | with_reducible assumption | (with_reducible intro _; intros) | with_reducible apply keeps_bar0Put | with_reducible apply keeps_pagePut)

theorem keeps_pageReset {a_ : State} (s : State) (n : Fin 16) (h : Keeps a_ s) : Keeps a_ (s.pageReset n) :=
  h.regs rfl rfl rfl rfl rfl rfl (fun w => ⟨smWf_filter resetVal _ _ w.1, w.2.1, w.2.2.1, smWf_filter (fun _ => 0) _ _ w.2.2.2⟩)

theorem keeps_functionReset {a_ : State} (s : State) (n : Fin 16) (h_s : Keeps a_ s) : Keeps a_ (State.functionReset s n) := by
  unfold State.functionReset
  repeat' (first | with_reducible assumption | with_reducible apply keeps_pageReset | with_reducible apply keeps_teardown | with_reducible apply Keeps.ite)

theorem keeps_execDbCmdTail {a_ : State} (k : Fin 16) (idx : Fin 65536) (s : State) (h_s : Keeps a_ s) : KeepsOut a_ (execDbCmdTail k idx s) := by
  unfold execDbCmdTail
  repeat' (first | with_reducible apply KeepsOut.next | with_reducible apply KeepsOut.fault | with_reducible assumption | with_reducible apply keeps_dbTail)

theorem keeps_execDbGo {a_ : State} (k : Fin 16) (tag : Fin 65536) (s : State) (h_s : Keeps a_ s) : KeepsOut a_ (execDbGo k tag s) := by
  unfold execDbGo
  repeat' (first | with_reducible apply KeepsOut.next | with_reducible apply KeepsOut.fault | with_reducible assumption | with_reducible apply keeps_dbGo)

theorem keeps_execDbHead {a_ : State} (k : Fin 16) (r : Fin 3) (idx : Fin 65536) (rearm : Bool) (s : State) (h_s : Keeps a_ s) : KeepsOut a_ (execDbHead k r idx rearm s) := by
  unfold execDbHead
  repeat' (first | with_reducible apply KeepsOut.next | with_reducible apply KeepsOut.fault | with_reducible assumption | with_reducible apply keeps_dbHead)

theorem keeps_execDbDataHead {a_ : State} (k : Fin 16) (head : Fin 1073741824) (lap : Bool) (s : State) (h_s : Keeps a_ s) : KeepsOut a_ (execDbDataHead k head lap s) := by
  unfold execDbDataHead
  repeat' (first | with_reducible apply KeepsOut.next | with_reducible apply KeepsOut.fault | with_reducible assumption | with_reducible apply keeps_dbDataHead)

theorem keeps_execRingEnable {a_ : State} (k : Fin 16) (r : Fin 4) (v : Word) (s : State) (h_s : Keeps a_ s) : KeepsOut a_ (execRingEnable k r v s) := by
  unfold execRingEnable
  repeat' (first | with_reducible apply KeepsOut.next | with_reducible apply KeepsOut.fault | with_reducible assumption | with_reducible apply keeps_ringCtl)

theorem keeps_execRingDisable {a_ : State} (k : Fin 16) (r : Fin 4) (v : Word) (s : State) (h_s : Keeps a_ s) : KeepsOut a_ (execRingDisable k r v s) := by
  unfold execRingDisable
  repeat' (first | with_reducible apply KeepsOut.next | with_reducible apply KeepsOut.fault | with_reducible assumption | with_reducible apply keeps_ringCtl)

theorem keeps_execDataAreaEnable {a_ : State} (k : Fin 16) (v : Word) (s : State) (h_s : Keeps a_ s) : KeepsOut a_ (execDataAreaEnable k v s) := by
  unfold execDataAreaEnable
  repeat' (first | with_reducible apply KeepsOut.next | with_reducible apply KeepsOut.fault | with_reducible assumption | with_reducible apply keeps_dataCfg)

theorem keeps_execInterruptModTime {a_ : State} (k : Fin 16) (r : Fin 3) (s : State) (h_s : Keeps a_ s) : KeepsOut a_ (execInterruptModTime k r s) := by
  unfold execInterruptModTime
  repeat' (first | with_reducible apply KeepsOut.next | with_reducible apply KeepsOut.fault | with_reducible assumption | with_reducible apply keeps_raiseRing | with_reducible apply Keeps.ite)

theorem keeps_execFunctionLevelReset {a_ : State} (k : Fin 16) (s : State) (h_s : Keeps a_ s) : KeepsOut a_ (execFunctionLevelReset k s) := by
  unfold execFunctionLevelReset
  repeat' (first | with_reducible apply KeepsOut.next | with_reducible apply KeepsOut.fault | with_reducible assumption | with_reducible apply keeps_functionReset)

theorem keeps_execD3hotEntry {a_ : State} (k : Fin 16) (s : State) (h_s : Keeps a_ s) : KeepsOut a_ (execD3hotEntry k s) := by
  unfold execD3hotEntry
  repeat' (first | with_reducible apply KeepsOut.next | with_reducible apply KeepsOut.fault | with_reducible assumption | with_reducible apply keeps_functionReset)

theorem keeps_execVfEnableClear {a_ : State} (s : State) (h_s : Keeps a_ s) : KeepsOut a_ (execVfEnableClear s) := by
  unfold execVfEnableClear
  repeat' (first | with_reducible apply KeepsOut.next | with_reducible apply KeepsOut.fault | with_reducible assumption | (with_reducible intro _; intros) | with_reducible apply keeps_overSess | with_reducible apply keeps_functionReset | with_reducible apply Keeps.ite)

theorem keeps_badAccess {a_ : State} (s : State) (off : ℕ) (write : Bool) (be : ℕ) (h_s : Keeps a_ s) : Keeps a_ (State.badAccess s off write be) := by
  unfold State.badAccess
  repeat' (first | with_reducible assumption | (extract_lets +onlyGivenNames x_; refine Keeps.cut x_ ?_ (fun hx_ => ?_); (on_goal 1 => (unfold x_; clear x_)); (on_goal 2 => clear_value x_)) | with_reducible apply keeps_count | with_reducible apply keeps_raise | with_reducible apply keeps_set | with_reducible apply keeps_reply | with_reducible apply Keeps.ite)

theorem keeps_accessWrite {a_ : State} (s : State) (page : Option (Fin 16)) (off : ℕ) (v : Word) (h_s : Keeps a_ s) : Keeps a_ (State.accessWrite s page off v) := by
  unfold State.accessWrite
  repeat' (first | with_reducible assumption | with_reducible apply keeps_hostWriteReg | with_reducible apply keeps_badAccess | with_reducible apply keeps_pageWrite | with_reducible apply Keeps.ite | split)

theorem keeps_accessRead {a_ : State} (s : State) (page : Option (Fin 16)) (off : ℕ) (h_s : Keeps a_ s) : Keeps a_ (State.accessRead s page off) := by
  unfold State.accessRead
  repeat' (first | with_reducible assumption | with_reducible apply keeps_hostRead | with_reducible apply keeps_badAccess | with_reducible apply keeps_bar0Read | with_reducible apply keeps_reply | with_reducible apply Keeps.ite | split)

theorem keeps_execBar0Write {a_ : State} (page : Option (Fin 16)) (off : Fin 1048576) (v : Word) (s : State) (h_s : Keeps a_ s) : KeepsOut a_ (execBar0Write page off v s) := by
  unfold execBar0Write
  repeat' (first | with_reducible apply KeepsOut.next | with_reducible apply KeepsOut.fault | with_reducible assumption | with_reducible apply keeps_accessWrite)

theorem keeps_execBar0BadSizeAccess {a_ : State} (at_ : Place) (write : Bool) (be : Fin 16) (s : State) (h_s : Keeps a_ s) : KeepsOut a_ (execBar0BadSizeAccess at_ write be s) := by
  unfold execBar0BadSizeAccess
  repeat' (first | with_reducible apply KeepsOut.next | with_reducible apply KeepsOut.fault | with_reducible assumption | with_reducible apply keeps_badAccess | with_reducible apply keeps_reply | with_reducible apply Keeps.ite | with_reducible apply KeepsOut.ite | split)

theorem keeps_execPairLoRead {a_ : State} (page : Option (Fin 16)) (off : Fin 1048576) (s : State) (h_s : Keeps a_ s) : KeepsOut a_ (execPairLoRead page off s) := by
  unfold execPairLoRead
  repeat' (first | with_reducible apply KeepsOut.next | with_reducible apply KeepsOut.fault | with_reducible assumption | with_reducible apply keeps_accessRead)

theorem keeps_execPairHiRead {a_ : State} (page : Option (Fin 16)) (off : Fin 1048576) (s : State) (h_s : Keeps a_ s) : KeepsOut a_ (execPairHiRead page off s) := by
  unfold execPairHiRead
  repeat' (first | with_reducible apply KeepsOut.next | with_reducible apply KeepsOut.fault | with_reducible assumption | with_reducible apply keeps_accessRead)

theorem keeps_execPairLoWrite {a_ : State} (page : Option (Fin 16)) (off : Fin 1048576) (v : Word) (s : State) (h_s : Keeps a_ s) : KeepsOut a_ (execPairLoWrite page off v s) := by
  unfold execPairLoWrite
  repeat' (first | with_reducible apply KeepsOut.next | with_reducible apply KeepsOut.fault | with_reducible assumption | with_reducible apply keeps_accessWrite)

theorem keeps_execPairHiWrite {a_ : State} (page : Option (Fin 16)) (off : Fin 1048576) (v : Word) (s : State) (h_s : Keeps a_ s) : KeepsOut a_ (execPairHiWrite page off v s) := by
  unfold execPairHiWrite
  repeat' (first | with_reducible apply KeepsOut.next | with_reducible apply KeepsOut.fault | with_reducible assumption | with_reducible apply keeps_accessWrite)

theorem keeps_execRcFieldRead {a_ : State} (page : Option (Fin 16)) (off : Fin 1048576) (s : State) (h_s : Keeps a_ s) : KeepsOut a_ (execRcFieldRead page off s) := by
  unfold execRcFieldRead
  repeat' (first | with_reducible apply KeepsOut.next | with_reducible apply KeepsOut.fault | with_reducible assumption | with_reducible apply keeps_accessRead)

theorem keeps_fetchDone {a_ : State} (s : State) (k : Fin 16) (b : List Byte) (h_s : Keeps a_ s) : Keeps a_ (State.fetchDone s k b) := by
  unfold State.fetchDone
  repeat' (first | with_reducible assumption | (with_reducible intro _; intros) | (extract_lets +onlyGivenNames x_; refine Keeps.cut x_ ?_ (fun hx_ => ?_); (on_goal 1 => (unfold x_; clear x_)); (on_goal 2 => clear_value x_)) | (extract_lets +onlyGivenNames x_; clear_value x_) | with_reducible apply keeps_modHost | with_reducible apply keeps_count | with_reducible apply keeps_modRing | with_reducible apply keeps_complete | with_reducible apply keeps_cross | with_reducible apply Keeps.ite)

theorem keeps_fetchFail {a_ : State} (s : State) (k : Fin 16) (bad : Bool) (h_s : Keeps a_ s) : Keeps a_ (State.fetchFail s k bad) := by
  unfold State.fetchFail
  repeat' (first | with_reducible assumption | (extract_lets +onlyGivenNames x_; clear_value x_) | with_reducible apply keeps_deliverCompletion | with_reducible apply keeps_modHost)

theorem keeps_begin_ {a_ : State} (s : State) (k : Fin 16) (c : Cmd) (h_s : Keeps a_ s) : Keeps a_ (State.begin_ s k c) := by
  unfold State.begin_
  repeat' (first | with_reducible assumption | (extract_lets +onlyGivenNames x_; clear_value x_) | with_reducible apply keeps_modHost)

theorem keeps_finish {a_ : State} (s : State) (k : Fin 16) (c : Cmd) (st : Status) (cond : ℕ) (d0 : ℕ) (d1 : ℕ) (h_s : Keeps a_ s) : Keeps a_ (State.finish s k c st cond d0 d1) := by
  unfold State.finish
  repeat' (first | with_reducible assumption | with_reducible apply keeps_complete)

theorem keeps_runCmd {a_ : State} (s : State) (k : Fin 16) (op : ℕ) (f : Cmd → State → State) (h_s : Keeps a_ s) (h_f : ∀ x0 x1, Keeps a_ x1 → Keeps a_ (f x0 x1)) : Keeps a_ (State.runCmd s k op f) := by
  unfold State.runCmd
  repeat' (first | with_reducible assumption | (with_reducible intro _; intros) | apply h_f | with_reducible apply keeps_begin_ | with_reducible apply Keeps.ite | split)

theorem keeps_writeList {a_ : State} (s : State) (l : List (ℕ × ℕ)) (h_s : Keeps a_ s) : Keeps a_ (State.writeList s l) := by
  unfold State.writeList
  repeat' (first | with_reducible assumption | (with_reducible intro _; intros) | (extract_lets +onlyGivenNames x_; clear_value x_) | with_reducible apply keeps_regWrite | with_reducible apply keeps_foldl | with_reducible apply keeps_foldl_snd)

theorem keeps_readList {a_ : State} (s : State) (k : Fin 16) (addr : ℕ) (inst : Option (ℕ × ℕ)) (offs : List ℕ) (h_s : Keeps a_ s) : Keeps a_ (State.readList s k addr inst offs) := by
  have g : ∀ (l : List Nat) (r : Nat × SMap Word × State), Keeps a_ r.2.2 → Keeps a_ (l.foldl (fun (a : Nat × SMap Word × State) o =>
      let r := a.2.2.readThrough a.2.1 (a.2.2.regKey o)
      (a.1 + 8, r.2.1, r.2.2.hostWrite k (a.1 + 4) (leBytes 4 r.1.toNat) inst)) r).2.2 := by
    intro l
    induction l with
    | nil => intro r h; exact h
    | cons x t ih => intro r h; exact ih _ (keeps_hostWrite _ _ _ _ _ (keeps_readThrough _ _ _ h))
  exact g offs (addr, [], s) h_s

theorem keeps_tablePut {a_ : State} (s : State) (ao : Bool) (u : ℕ) (i : ℕ) (v : ℕ) (h_s : Keeps a_ s) : Keeps a_ (State.tablePut s ao u i v).2 := by
  unfold State.tablePut
  repeat' (first | with_reducible assumption | (extract_lets +onlyGivenNames x_; clear_value x_) | with_reducible apply keeps_aoTblWrite | with_reducible apply keeps_modFw | with_reducible apply keeps_count | with_reducible apply Keeps.ite | with_reducible apply Keeps.ite_snd)

theorem keeps_ringCommit {a_ : State} (s : State) (k : Fin 16) (c : Cmd) (h_s : Keeps a_ s) : Keeps a_ (State.ringCommit s k c) := by
  unfold State.ringCommit
  repeat' (first | with_reducible assumption | (extract_lets +onlyGivenNames x_; clear_value x_) | with_reducible apply keeps_commitRefuse | with_reducible apply keeps_commitEnter)

theorem keeps_runFor {a_ : State} (s : State) (k : Fin 16) (c : Cmd) (h_s : Keeps a_ s) : Keeps a_ (State.runFor s k c) := by
  unfold State.runFor
  repeat' (first | with_reducible assumption | (extract_lets +onlyGivenNames x_; clear_value x_) | with_reducible apply keeps_modSess)

theorem keeps_runSequence {a_ : State} (s : State) (k : Fin 16) (op : ℕ) (fails : State → List Byte → Option Status) (go : Cmd → State → State) (h_s : Keeps a_ s) (h_go : ∀ x0 x1, Keeps a_ x1 → Keeps a_ (go x0 x1)) : Keeps a_ (State.runSequence s k op fails go) := by
  unfold State.runSequence
  repeat' (first | with_reducible assumption | (with_reducible intro _; intros) | (extract_lets +onlyGivenNames x_; refine Keeps.cut x_ ?_ (fun hx_ => ?_); (on_goal 1 => (unfold x_; clear x_)); (on_goal 2 => clear_value x_)) | apply h_go | with_reducible apply keeps_finish | with_reducible apply keeps_begin_ | with_reducible apply keeps_modHost | with_reducible apply keeps_runFor | with_reducible apply Keeps.ite | split)

theorem keeps_abortInst {a_ : State} (s : State) (k : Fin 16) (i : Inst) (h_s : Keeps a_ s) : Keeps a_ (State.abortInst s k i) := by
  unfold State.abortInst
  repeat' (first | with_reducible assumption | (extract_lets +onlyGivenNames x_; refine Keeps.cut x_ ?_ (fun hx_ => ?_); (on_goal 1 => (unfold x_; clear x_)); (on_goal 2 => clear_value x_)) | (extract_lets +onlyGivenNames x_; clear_value x_) | with_reducible apply keeps_abortSess | with_reducible apply keeps_modHost | with_reducible apply keeps_finish | with_reducible apply keeps_discardPends | with_reducible apply keeps_commitAbort | with_reducible apply keeps_reportCommit | with_reducible apply keeps_modCommit | with_reducible apply keeps_complete | with_reducible apply Keeps.ite | split)

theorem keeps_runAbort {a_ : State} (s : State) (k : Fin 16) (c : Cmd) (h_s : Keeps a_ s) : Keeps a_ (State.runAbort s k c) := by
  unfold State.runAbort
  repeat' (first | with_reducible assumption | (with_reducible intro _; intros) | (extract_lets +onlyGivenNames x_; refine Keeps.cut x_ ?_ (fun hx_ => ?_); (on_goal 1 => (unfold x_; clear x_)); (on_goal 2 => clear_value x_)) | (extract_lets +onlyGivenNames x_; clear_value x_) | with_reducible apply keeps_modHost | with_reducible apply keeps_finish | with_reducible apply keeps_abortInst | with_reducible apply keeps_foldl | with_reducible apply Keeps.ite)

theorem keeps_execDescriptorReadDone {a_ : State} (k : Fin 16) (bytes : List Byte) (s : State) (h_s : Keeps a_ s) : KeepsOut a_ (execDescriptorReadDone k bytes s) := by
  unfold execDescriptorReadDone
  repeat' (first | with_reducible apply KeepsOut.next | with_reducible apply KeepsOut.fault | with_reducible assumption | with_reducible apply keeps_fetchDone | with_reducible apply Keeps.ite)

theorem keeps_execDescriptorReadTimeout {a_ : State} (k : Fin 16) (bad : Bool) (s : State) (h_s : Keeps a_ s) : KeepsOut a_ (execDescriptorReadTimeout k bad s) := by
  unfold execDescriptorReadTimeout
  repeat' (first | with_reducible apply KeepsOut.next | with_reducible apply KeepsOut.fault | with_reducible assumption | with_reducible apply keeps_fetchFail | with_reducible apply Keeps.ite)

theorem keeps_execNop {a_ : State} (k : Fin 16) (s : State) (h_s : Keeps a_ s) : KeepsOut a_ (execNop k s) := by
  unfold execNop
  repeat' (first | with_reducible apply KeepsOut.next | with_reducible apply KeepsOut.fault | with_reducible assumption | (with_reducible intro _; intros) | with_reducible apply keeps_runCmd | with_reducible apply keeps_finish)

theorem keeps_execRegWrite {a_ : State} (k : Fin 16) (data : List Byte) (s : State) (h_s : Keeps a_ s) : KeepsOut a_ (execRegWrite k data s) := by
  unfold execRegWrite
  repeat' (first | with_reducible apply KeepsOut.next | with_reducible apply KeepsOut.fault | with_reducible assumption | (with_reducible intro _; intros) | (extract_lets +onlyGivenNames x_; clear_value x_) | with_reducible apply keeps_runCmd | with_reducible apply keeps_finish | with_reducible apply keeps_writeList | split)

theorem keeps_execRegRead {a_ : State} (k : Fin 16) (data : List Byte) (s : State) (h_s : Keeps a_ s) : KeepsOut a_ (execRegRead k data s) := by
  unfold execRegRead
  repeat' (first | with_reducible apply KeepsOut.next | with_reducible apply KeepsOut.fault | with_reducible assumption | (with_reducible intro _; intros) | (extract_lets +onlyGivenNames x_; clear_value x_) | with_reducible apply keeps_runCmd | with_reducible apply keeps_finish | with_reducible apply keeps_readList | split)

theorem keeps_execCommit {a_ : State} (k : Fin 16) (s : State) (h_s : Keeps a_ s) : KeepsOut a_ (execCommit k s) := by
  unfold execCommit
  repeat' (first | with_reducible apply KeepsOut.next | with_reducible apply KeepsOut.fault | with_reducible assumption | (with_reducible intro _; intros) | with_reducible apply keeps_runCmd | with_reducible apply keeps_ringCommit)

theorem keeps_execLoadImage {a_ : State} (k : Fin 16) (image : List Byte) (s : State) (h_s : Keeps a_ s) : KeepsOut a_ (execLoadImage k image s) := by
  unfold execLoadImage
  repeat' (first | with_reducible apply KeepsOut.next | with_reducible apply KeepsOut.fault | with_reducible assumption | (with_reducible intro _; intros) | (extract_lets +onlyGivenNames x_; clear_value x_) | with_reducible apply keeps_runCmd | with_reducible apply keeps_finish | with_reducible apply keeps_putK | with_reducible apply keeps_noteLoad | with_reducible apply keeps_runLoad | with_reducible apply Keeps.ite | with_reducible apply KeepsOut.ite | split)

theorem keeps_execWriteSegments {a_ : State} (k : Fin 16) (data : List Byte) (s : State) (h_s : Keeps a_ s) : KeepsOut a_ (execWriteSegments k data s) := by
  unfold execWriteSegments
  repeat' (first | with_reducible apply KeepsOut.next | with_reducible apply KeepsOut.fault | with_reducible assumption | (with_reducible intro _; intros) | (extract_lets +onlyGivenNames x_; clear_value x_) | with_reducible apply keeps_runCmd | with_reducible apply keeps_finish | with_reducible apply keeps_modSess | with_reducible apply keeps_foldl | split)

theorem keeps_execTableLoad {a_ : State} (k : Fin 16) (data : List Byte) (s : State) (h_s : Keeps a_ s) : KeepsOut a_ (execTableLoad k data s) := by
  unfold execTableLoad
  repeat' (first | with_reducible apply KeepsOut.next | with_reducible apply KeepsOut.fault | with_reducible assumption | (with_reducible intro _; intros) | (extract_lets +onlyGivenNames x_; refine Keeps.cut x_.2 ?_ (fun hx_ => ?_); (on_goal 1 => (unfold x_; clear x_)); (on_goal 2 => clear_value x_)) | (extract_lets +onlyGivenNames x_; clear_value x_) | with_reducible apply keeps_runCmd | with_reducible apply keeps_finish | with_reducible apply keeps_tablePut | with_reducible apply keeps_foldl | with_reducible apply keeps_foldl_fst | with_reducible apply keeps_foldl_snd | with_reducible apply Keeps.ite | with_reducible apply KeepsOut.ite | with_reducible apply Keeps.ite_snd | split)

theorem keeps_execDmaWrite {a_ : State} (k : Fin 16) (data : List Byte) (s : State) (h_s : Keeps a_ s) : KeepsOut a_ (execDmaWrite k data s) := by
  unfold execDmaWrite
  repeat' (first | with_reducible apply KeepsOut.next | with_reducible apply KeepsOut.fault | with_reducible assumption | (with_reducible intro _; intros) | (extract_lets +onlyGivenNames x_; clear_value x_) | with_reducible apply keeps_runCmd | with_reducible apply keeps_finish | with_reducible apply keeps_ddr | with_reducible apply keeps_hostMem | with_reducible apply keeps_nvmF | with_reducible apply keeps_nvmH | with_reducible apply Keeps.ite)

theorem keeps_execDmaRead {a_ : State} (k : Fin 16) (ecc : Fin 3) (s : State) (h_s : Keeps a_ s) : KeepsOut a_ (execDmaRead k ecc s) := by
  unfold execDmaRead
  repeat' (first | with_reducible apply KeepsOut.next | with_reducible apply KeepsOut.fault | with_reducible assumption | (with_reducible intro _; intros) | (extract_lets +onlyGivenNames x_; refine Keeps.cut x_.1 ?_ (fun hx_ => ?_); (on_goal 1 => (unfold x_; clear x_)); (on_goal 2 => clear_value x_)) | (extract_lets +onlyGivenNames x_; clear_value x_) | with_reducible apply keeps_runCmd | with_reducible apply keeps_finish | with_reducible apply keeps_ddrRead | with_reducible apply keeps_hostWrite | with_reducible apply Keeps.ite)

theorem keeps_execInvalidate {a_ : State} (k : Fin 16) (s : State) (h_s : Keeps a_ s) : KeepsOut a_ (execInvalidate k s) := by
  unfold execInvalidate
  repeat' (first | with_reducible apply KeepsOut.next | with_reducible apply KeepsOut.fault | with_reducible assumption | (with_reducible intro _; intros) | (extract_lets +onlyGivenNames x_; refine Keeps.cut x_ ?_ (fun hx_ => ?_); (on_goal 1 => (unfold x_; clear x_)); (on_goal 2 => clear_value x_)) | (extract_lets +onlyGivenNames x_; clear_value x_) | with_reducible apply keeps_runCmd | with_reducible apply keeps_invTlb | with_reducible apply keeps_invPages | with_reducible apply keeps_finish | with_reducible apply Keeps.ite)

theorem keeps_execStart {a_ : State} (k : Fin 16) (s : State) (h_s : Keeps a_ s) : KeepsOut a_ (execStart k s) := by
  unfold execStart
  repeat' (first | with_reducible apply KeepsOut.next | with_reducible apply KeepsOut.fault | with_reducible assumption | (with_reducible intro _; intros) | with_reducible apply keeps_runSequence | with_reducible apply keeps_seqBegin)

theorem keeps_execShot {a_ : State} (k : Fin 16) (s : State) (h_s : Keeps a_ s) : KeepsOut a_ (execShot k s) := by
  unfold execShot
  repeat' (first | with_reducible apply KeepsOut.next | with_reducible apply KeepsOut.fault | with_reducible assumption | (with_reducible intro _; intros) | with_reducible apply keeps_runSequence | with_reducible apply keeps_beginBurst)

theorem keeps_execAbort {a_ : State} (k : Fin 16) (s : State) (h_s : Keeps a_ s) : KeepsOut a_ (execAbort k s) := by
  unfold execAbort
  repeat' (first | with_reducible apply KeepsOut.next | with_reducible apply KeepsOut.fault | with_reducible assumption | with_reducible apply keeps_runAbort | with_reducible apply Keeps.ite | with_reducible apply KeepsOut.ite | split)

theorem keeps_execHostDataReadTimeout {a_ : State} (k : Fin 16) (bad : Bool) (s : State) (h_s : Keeps a_ s) : KeepsOut a_ (execHostDataReadTimeout k bad s) := by
  unfold execHostDataReadTimeout
  repeat' (first | with_reducible apply KeepsOut.next | with_reducible apply KeepsOut.fault | with_reducible assumption | (with_reducible intro _; intros) | with_reducible apply keeps_runCmd | with_reducible apply keeps_finish | with_reducible apply Keeps.ite | with_reducible apply KeepsOut.ite | split)

end Sys2Proof.Machine
end

