-- ==== Sys2Proof/Laws/KeepsClock.lean ====
section
/-! SUPPORT. What the operations of the machine keep: the Stile rows, the clock, the network rows, start-up and every command. -/

namespace Sys2Proof.Machine

theorem keeps_goodFrames {a_ : State} (s : State) (toHost : Bool) (n : ℕ) (h_s : Keeps a_ s) : Keeps a_ (State.goodFrames s toHost n) := by
  unfold State.goodFrames
  repeat' (first | with_reducible assumption | with_reducible apply keeps_modStile)

theorem keeps_frameInit {a_ : State} (s : State) (h_s : Keeps a_ s) : Keeps a_ (State.frameInit s) := by
  unfold State.frameInit
  repeat' (first | with_reducible assumption | with_reducible apply keeps_modStile)

theorem keeps_laneSpared {a_ : State} (s : State) (toHost : Bool) (lane : ℕ) (h_s : Keeps a_ s) : Keeps a_ (State.laneSpared s toHost lane) := by
  unfold State.laneSpared
  repeat' (first | with_reducible assumption | with_reducible apply keeps_raise | with_reducible apply keeps_set)

theorem keeps_laneDown {a_ : State} (s : State) (toHost : Bool) (lane : ℕ) (h_s : Keeps a_ s) : Keeps a_ (State.laneDown s toHost lane) := by
  unfold State.laneDown
  repeat' (first | with_reducible assumption | (extract_lets +onlyGivenNames x_; refine Keeps.cut x_ ?_ (fun hx_ => ?_); (on_goal 1 => (unfold x_; clear x_)); (on_goal 2 => clear_value x_)) | (extract_lets +onlyGivenNames x_; refine Keeps.cut x_.2 ?_ (fun hx_ => ?_); (on_goal 1 => (unfold x_; clear x_)); (on_goal 2 => clear_value x_)) | (extract_lets +onlyGivenNames x_; clear_value x_) | with_reducible apply keeps_takeInject | with_reducible apply keeps_detect | with_reducible apply keeps_modStile | with_reducible apply keeps_fieldLeave | with_reducible apply keeps_askReplay | with_reducible apply keeps_laneSpared | with_reducible apply Keeps.ite)

theorem keeps_lanesBack {a_ : State} (s : State) (h_s : Keeps a_ s) : Keeps a_ (State.lanesBack s) := by
  unfold State.lanesBack
  repeat' (first | with_reducible assumption | with_reducible apply keeps_modStile | with_reducible apply keeps_set)

theorem keeps_hostWasReset {a_ : State} (s : State) (h_s : Keeps a_ s) : Keeps a_ (State.hostWasReset s) := by
  unfold State.hostWasReset
  repeat' (first | with_reducible assumption | (with_reducible intro _; intros) | (extract_lets +onlyGivenNames x_; refine Keeps.cut x_ ?_ (fun hx_ => ?_); (on_goal 1 => (unfold x_; clear x_)); (on_goal 2 => clear_value x_)) | with_reducible apply keeps_modStile | with_reducible apply keeps_overSess | with_reducible apply keeps_teardown | with_reducible apply keeps_spiBegin | with_reducible apply Keeps.ite)

theorem keeps_stateMsg {a_ : State} (s : State) (v : ℕ) (h_s : Keeps a_ s) : Keeps a_ (State.stateMsg s v) := by
  unfold State.stateMsg
  repeat' (first | with_reducible assumption | with_reducible apply keeps_fieldComesUp | with_reducible apply keeps_set | with_reducible apply Keeps.ite)

theorem keeps_laneMsg {a_ : State} (s : State) (toHost : Bool) (lane : ℕ) (h_s : Keeps a_ s) : Keeps a_ (State.laneMsg s toHost lane) := by
  unfold State.laneMsg
  repeat' (first | with_reducible assumption | with_reducible apply keeps_laneSpared | with_reducible apply Keeps.ite)

theorem keeps_regWrMsg {a_ : State} (s : State) (off : ℕ) (v : Word) (h_s : Keeps a_ s) : Keeps a_ (State.regWrMsg s off v) := by
  unfold State.regWrMsg
  repeat' (first | with_reducible assumption | (with_reducible intro _; intros) | with_reducible apply keeps_bar0Put | with_reducible apply keeps_regWrite | with_reducible apply Keeps.ite)

theorem keeps_regRdMsg {a_ : State} (s : State) (off : ℕ) (h_s : Keeps a_ s) : Keeps a_ (State.regRdMsg s off) := by
  unfold State.regRdMsg
  repeat' (first | with_reducible assumption | (extract_lets +onlyGivenNames x_; refine Keeps.cut x_.2.2 ?_ (fun hx_ => ?_); (on_goal 1 => (unfold x_; clear x_)); (on_goal 2 => clear_value x_)) | with_reducible apply keeps_readThrough | with_reducible apply keeps_modStile | with_reducible apply keeps_keepLatch | with_reducible apply Keeps.ite)

theorem keeps_regRspMsg {a_ : State} (s : State) (v : Word) (h_s : Keeps a_ s) : Keeps a_ (State.regRspMsg s v) := by
  unfold State.regRspMsg
  repeat' (first | with_reducible assumption | with_reducible apply keeps_reply | with_reducible apply keeps_modStile)

theorem keeps_cmdMsg {a_ : State} (s : State) (k : Fin 16) (tag : ℕ) (epoch : ℕ) (bytes : List Byte) (h_s : Keeps a_ s) : Keeps a_ (State.cmdMsg s k tag epoch bytes) := by
  unfold State.cmdMsg
  repeat' (first | with_reducible assumption | (with_reducible intro _; intros) | (extract_lets +onlyGivenNames x_; clear_value x_) | with_reducible apply keeps_forInst | with_reducible apply keeps_modHost | with_reducible apply Keeps.ite)

theorem keeps_goMsg {a_ : State} (s : State) (k : Fin 16) (tag : ℕ) (epoch : ℕ) (h_s : Keeps a_ s) : Keeps a_ (State.goMsg s k tag epoch) := by
  unfold State.goMsg
  repeat' (first | with_reducible assumption | (with_reducible intro _; intros) | with_reducible apply keeps_forInst | with_reducible apply keeps_modHost | with_reducible apply Keeps.ite | split)

theorem keeps_creditMsg {a_ : State} (s : State) (k : Fin 16) (completion : ℕ) (capture : ℕ) (event : ℕ) (data : ℕ) (h_s : Keeps a_ s) : Keeps a_ (State.creditMsg s k completion capture event data) := by
  unfold State.creditMsg
  repeat' (first | with_reducible assumption | (extract_lets +onlyGivenNames x_; refine Keeps.cut x_ ?_ (fun hx_ => ?_); (on_goal 1 => (unfold x_; clear x_)); (on_goal 2 => clear_value x_)) | with_reducible apply keeps_modStile | with_reducible apply keeps_forwardAll | with_reducible apply keeps_flushWaiting)

theorem keeps_hostDataMsg {a_ : State} (s : State) (k : Fin 16) (inst : Option (Nat × Nat)) (h : Keeps a_ s) :
    Keeps a_ (s.hostDataMsg k inst) :=
  keeps_forInst _ _ _ _ (keeps_modStile _ _ h) (fun _ g => g)

theorem keeps_hostReadMsg {a_ : State} (s : State) (r : HostRead) (h_s : Keeps a_ s) : Keeps a_ (State.hostReadMsg s r) := by
  unfold State.hostReadMsg
  repeat' (first | with_reducible assumption | (with_reducible intro _; intros) | with_reducible apply keeps_forInst | with_reducible apply keeps_modStile)

theorem keeps_barRdMsg {a_ : State} (s : State) (off : ℕ) (h_s : Keeps a_ s) : Keeps a_ (State.barRdMsg s off) := by
  unfold State.barRdMsg
  repeat' (first | with_reducible assumption | with_reducible apply keeps_answer | with_reducible apply keeps_bar0Value)

theorem keeps_packetAct {a_ : State} (s : State) (p : Packet) (h_s : Keeps a_ s) : Keeps a_ (State.packetAct s p) := by
  unfold State.packetAct
  repeat' (first | with_reducible assumption | (with_reducible intro _; intros) | with_reducible apply keeps_count | with_reducible apply keeps_stateMsg | with_reducible apply keeps_laneMsg | with_reducible apply keeps_regWrMsg | with_reducible apply keeps_regRdMsg | with_reducible apply keeps_regRspMsg | with_reducible apply keeps_cmdMsg | with_reducible apply keeps_goMsg | with_reducible apply keeps_creditMsg | with_reducible apply keeps_hostReadMsg | with_reducible apply keeps_hostDataMsg | with_reducible apply keeps_deliverMsg | with_reducible apply keeps_fieldReset | with_reducible apply keeps_bar0Put | with_reducible apply keeps_regWrite | with_reducible apply keeps_barRdMsg | with_reducible apply keeps_reply | with_reducible apply keeps_commitGo | with_reducible apply Keeps.ite | split)

theorem keeps_headerAcks {a_ : State} (s : State) (toHost : Bool) (h_s : Keeps a_ s) : Keeps a_ (State.headerAcks s toHost) := by
  unfold State.headerAcks
  repeat' (first | with_reducible assumption | with_reducible apply keeps_modStile)

theorem keeps_accept {a_ : State} (s : State) (toHost : Bool) (e : Sent) (h_s : Keeps a_ s) : Keeps a_ (State.accept s toHost e) := by
  unfold State.accept
  repeat' (first | with_reducible assumption | (extract_lets +onlyGivenNames x_; refine Keeps.cut x_ ?_ (fun hx_ => ?_); (on_goal 1 => (unfold x_; clear x_)); (on_goal 2 => clear_value x_)) | with_reducible apply keeps_modStile | with_reducible apply keeps_goodFrames | with_reducible apply keeps_packetAct | with_reducible apply keeps_headerAcks)

theorem keeps_pump {a_ : State} (s : State) (toHost : Bool) (n : Nat) (h : Keeps a_ s) : Keeps a_ (s.pump toHost n) := by
  induction n generalizing s with
  | zero => exact h
  | succ n ih =>
    unfold State.pump
    split
    · exact h
    · split
      · exact ih _ (keeps_accept _ _ _ h)
      · exact h

theorem keeps_replayNow {a_ : State} (s : State) (toHost : Bool) (h_s : Keeps a_ s) : Keeps a_ (State.replayNow s toHost) := by
  unfold State.replayNow
  repeat' (first | with_reducible assumption | (extract_lets +onlyGivenNames x_; refine Keeps.cut x_ ?_ (fun hx_ => ?_); (on_goal 1 => (unfold x_; clear x_)); (on_goal 2 => clear_value x_)) | (extract_lets +onlyGivenNames x_; clear_value x_) | with_reducible apply keeps_modStile | with_reducible apply keeps_pump | with_reducible apply Keeps.ite)

theorem keeps_stileSend {a_ : State} (s : State) (toHost : Bool) (p : Packet) (h_s : Keeps a_ s) : Keeps a_ (State.stileSend s toHost p) := by
  unfold State.stileSend
  repeat' (first | with_reducible assumption | (with_reducible intro _; intros) | (extract_lets +onlyGivenNames x_; refine Keeps.cut x_ ?_ (fun hx_ => ?_); (on_goal 1 => (unfold x_; clear x_)); (on_goal 2 => clear_value x_)) | with_reducible apply keeps_keepSent | with_reducible apply keeps_replayNow | with_reducible apply keeps_headerAcks | with_reducible apply keeps_frameFail | with_reducible apply keeps_pump | with_reducible apply keeps_foldl | with_reducible apply Keeps.ite)

theorem keeps_frameSlot {a_ : State} (s : State) (toHost : Bool) (h : Keeps a_ s) : Keeps a_ (s.frameSlot toHost) := by
  unfold State.frameSlot
  exact keeps_modStile _ _ (Keeps.ite (keeps_cross _ _ _ id h (fun _ g => g)) h)

theorem keeps_slotTick {a_ : State} (s : State) (h_s : Keeps a_ s) : Keeps a_ (State.slotTick s) := by
  unfold State.slotTick
  repeat' (first | with_reducible assumption | with_reducible apply keeps_modStile | with_reducible apply keeps_frameSlot | with_reducible apply Keeps.ite)

theorem keeps_stileCycle {a_ : State} (s : State) (toHost : Bool) (h_s : Keeps a_ s) : Keeps a_ (State.stileCycle s toHost) := by
  unfold State.stileCycle
  repeat' (first | with_reducible assumption | with_reducible apply keeps_replayNow | with_reducible apply keeps_modStile | with_reducible apply keeps_pump | with_reducible apply Keeps.ite)

theorem keeps_stileEdge {a_ : State} (s : State) (h_s : Keeps a_ s) : Keeps a_ (State.stileEdge s) := by
  unfold State.stileEdge
  repeat' (first | with_reducible assumption | (extract_lets +onlyGivenNames x_; refine Keeps.cut x_ ?_ (fun hx_ => ?_); (on_goal 1 => (unfold x_; clear x_)); (on_goal 2 => clear_value x_)) | (extract_lets +onlyGivenNames x_; clear_value x_) | with_reducible apply keeps_slotTick | with_reducible apply keeps_modStile | with_reducible apply keeps_stileCycle | with_reducible apply Keeps.ite)

theorem keeps_execIdle {a_ : State} (toHost : Bool) (how : HeaderCase) (ndata : Fin 25) (s : State) (h_s : Keeps a_ s) : KeepsOut a_ (execIdle toHost how ndata s) := by
  unfold execIdle
  repeat' (first | with_reducible apply KeepsOut.next | with_reducible apply KeepsOut.fault | with_reducible assumption | with_reducible apply keeps_stileSend)

theorem keeps_execInit {a_ : State} (toHost : Bool) (hostReset : Bool) (s : State) (h_s : Keeps a_ s) : KeepsOut a_ (execInit toHost hostReset s) := by
  unfold execInit
  repeat' (first | with_reducible apply KeepsOut.next | with_reducible apply KeepsOut.fault | with_reducible assumption | (extract_lets +onlyGivenNames x_; refine KeepsOut.cut x_ ?_ (fun hx_ => ?_); (on_goal 1 => (unfold x_; clear x_)); (on_goal 2 => clear_value x_)) | (extract_lets +onlyGivenNames x_; clear_value x_) | with_reducible apply keeps_lanesBack | with_reducible apply keeps_frameInit | with_reducible apply keeps_set | with_reducible apply keeps_hostWasReset | with_reducible apply Keeps.ite | with_reducible apply KeepsOut.ite)

theorem keeps_execState {a_ : State} (v : Fin 256) (s : State) (h_s : Keeps a_ s) : KeepsOut a_ (execState v s) := by
  unfold execState
  repeat' (first | with_reducible apply KeepsOut.next | with_reducible apply KeepsOut.fault | with_reducible assumption | with_reducible apply keeps_stileSend)

theorem keeps_execLane {a_ : State} (toHost : Bool) (lane : Fin 8) (s : State) (h_s : Keeps a_ s) : KeepsOut a_ (execLane toHost lane s) := by
  unfold execLane
  repeat' (first | with_reducible apply KeepsOut.next | with_reducible apply KeepsOut.fault | with_reducible assumption | with_reducible apply keeps_stileSend)

theorem keeps_execRegWr {a_ : State} (off : Fin 1048576) (v : Word) (s : State) (h_s : Keeps a_ s) : KeepsOut a_ (execRegWr off v s) := by
  unfold execRegWr
  repeat' (first | with_reducible apply KeepsOut.next | with_reducible apply KeepsOut.fault | with_reducible assumption | with_reducible apply keeps_stileSend)

theorem keeps_execRegRd {a_ : State} (off : Fin 1048576) (s : State) (h_s : Keeps a_ s) : KeepsOut a_ (execRegRd off s) := by
  unfold execRegRd
  repeat' (first | with_reducible apply KeepsOut.next | with_reducible apply KeepsOut.fault | with_reducible assumption | with_reducible apply keeps_stileSend)

theorem keeps_execRegRsp {a_ : State} (v : Word) (s : State) (h_s : Keeps a_ s) : KeepsOut a_ (execRegRsp v s) := by
  unfold execRegRsp
  repeat' (first | with_reducible apply KeepsOut.next | with_reducible apply KeepsOut.fault | with_reducible assumption | with_reducible apply keeps_stileSend)

theorem keeps_execCmd {a_ : State} (k : Fin 16) (tag : Fin 65536) (epoch : Fin 16) (bytes : List Byte) (s : State) (h_s : Keeps a_ s) : KeepsOut a_ (execCmd k tag epoch bytes s) := by
  unfold execCmd
  repeat' (first | with_reducible apply KeepsOut.next | with_reducible apply KeepsOut.fault | with_reducible assumption | with_reducible apply keeps_stileSend)

theorem keeps_execGo {a_ : State} (k : Fin 16) (inst : Fin 65536 × Fin 16) (s : State) (h_s : Keeps a_ s) : KeepsOut a_ (execGo k inst s) := by
  unfold execGo
  repeat' (first | with_reducible apply KeepsOut.next | with_reducible apply KeepsOut.fault | with_reducible assumption | with_reducible apply keeps_stileSend)

theorem keeps_execCredit {a_ : State} (k : Fin 16) (completion : ℕ) (capture : ℕ) (event : ℕ) (data : ℕ) (s : State) (h_s : Keeps a_ s) : KeepsOut a_ (execCredit k completion capture event data s) := by
  unfold execCredit
  repeat' (first | with_reducible apply KeepsOut.next | with_reducible apply KeepsOut.fault | with_reducible assumption | with_reducible apply keeps_stileSend)

theorem keeps_execHostRdReq {a_ : State} (k : Fin 16) (inst : Option (Fin 65536 × Fin 16)) (r : HostRange) (s : State) (h_s : Keeps a_ s) : KeepsOut a_ (execHostRdReq k inst r s) := by
  unfold execHostRdReq
  repeat' (first | with_reducible apply KeepsOut.next | with_reducible apply KeepsOut.fault | with_reducible assumption | with_reducible apply keeps_stileSend)

theorem keeps_execHostRdData {a_ : State} (k : Fin 16) (inst : Option (Fin 65536 × Fin 16)) (data : List Byte) (s : State) (h_s : Keeps a_ s) : KeepsOut a_ (execHostRdData k inst data s) := by
  unfold execHostRdData
  repeat' (first | with_reducible apply KeepsOut.next | with_reducible apply KeepsOut.fault | with_reducible assumption | with_reducible apply keeps_stileSend)

theorem keeps_execHostWr {a_ : State} (k : Fin 16) (inst : Option (Fin 65536 × Fin 16)) (addr : ℕ) (data : List Byte) (s : State) (h_s : Keeps a_ s) : KeepsOut a_ (execHostWr k inst addr data s) := by
  unfold execHostWr
  repeat' (first | with_reducible apply KeepsOut.next | with_reducible apply KeepsOut.fault | with_reducible assumption | with_reducible apply keeps_stileSend)

theorem keeps_execRingPost {a_ : State} (k : Fin 16) (r : Fin 3) (inst : Option (Fin 65536 × Fin 16)) (entry : List Byte) (intr : Bool) (s : State) (h_s : Keeps a_ s) : KeepsOut a_ (execRingPost k r inst entry intr s) := by
  unfold execRingPost
  repeat' (first | with_reducible apply KeepsOut.next | with_reducible apply KeepsOut.fault | with_reducible assumption | with_reducible apply keeps_stileSend)

theorem keeps_execFieldReset {a_ : State} (s : State) (h_s : Keeps a_ s) : KeepsOut a_ (execFieldReset s) := by
  unfold execFieldReset
  repeat' (first | with_reducible apply KeepsOut.next | with_reducible apply KeepsOut.fault | with_reducible assumption | with_reducible apply keeps_stileSend)

theorem keeps_execStileFrameCrcFail {a_ : State} (toHost : Bool) (s : State) (h_s : Keeps a_ s) : KeepsOut a_ (execStileFrameCrcFail toHost s) := by
  unfold execStileFrameCrcFail
  repeat' (first | with_reducible apply KeepsOut.next | with_reducible apply KeepsOut.fault | with_reducible assumption | with_reducible apply keeps_frameFail)

theorem keeps_execStileLaneFail {a_ : State} (toHost : Bool) (lane : Fin 9) (s : State) (h_s : Keeps a_ s) : KeepsOut a_ (execStileLaneFail toHost lane s) := by
  unfold execStileLaneFail
  repeat' (first | with_reducible apply KeepsOut.next | with_reducible apply KeepsOut.fault | with_reducible assumption | with_reducible apply keeps_laneDown)

theorem keeps_execF2hSignalLoss {a_ : State} (s : State) (h_s : Keeps a_ s) : KeepsOut a_ (execF2hSignalLoss s) := by
  unfold execF2hSignalLoss
  repeat' (first | with_reducible apply KeepsOut.next | with_reducible apply KeepsOut.fault | with_reducible assumption | with_reducible apply keeps_fieldLeave)

theorem keeps_execLinkFaultInitRetry {a_ : State} (s : State) (h_s : Keeps a_ s) : KeepsOut a_ (execLinkFaultInitRetry s) := by
  unfold execLinkFaultInitRetry
  repeat' (first | with_reducible apply KeepsOut.next | with_reducible apply KeepsOut.fault | with_reducible assumption | with_reducible apply keeps_frameInit | with_reducible apply Keeps.ite)

theorem keeps_execFieldStileLoss {a_ : State} (s : State) (h_s : Keeps a_ s) : KeepsOut a_ (execFieldStileLoss s) := by
  unfold execFieldStileLoss
  repeat' (first | with_reducible apply KeepsOut.next | with_reducible apply KeepsOut.fault | with_reducible assumption | with_reducible apply keeps_modStile | with_reducible apply Keeps.ite)

theorem keeps_execOrphanTimeout {a_ : State} (s : State) (h_s : Keeps a_ s) : KeepsOut a_ (execOrphanTimeout s) := by
  unfold execOrphanTimeout
  repeat' (first | with_reducible apply KeepsOut.next | with_reducible apply KeepsOut.fault | with_reducible assumption | (with_reducible intro _; intros) | with_reducible apply keeps_overSess | with_reducible apply keeps_abortSess | with_reducible apply Keeps.ite)

theorem keeps_execStCtrlFieldReset {a_ : State} (s : State) (h_s : Keeps a_ s) : KeepsOut a_ (execStCtrlFieldReset s) := by
  unfold execStCtrlFieldReset
  repeat' (first | with_reducible apply KeepsOut.next | with_reducible apply KeepsOut.fault | with_reducible assumption | with_reducible apply keeps_fieldResetAsk)

theorem keeps_execStileSignalPresent {a_ : State} (s : State) (h_s : Keeps a_ s) : KeepsOut a_ (execStileSignalPresent s) := by
  unfold execStileSignalPresent
  repeat' (first | with_reducible apply KeepsOut.next | with_reducible apply KeepsOut.fault | with_reducible assumption | with_reducible apply keeps_set | with_reducible apply Keeps.ite)

theorem keeps_refEdge {a_ : State} (s : State) (h_s : Keeps a_ s) : Keeps a_ (State.refEdge s) := by
  unfold State.refEdge
  repeat' (first | with_reducible assumption | (extract_lets +onlyGivenNames x_; refine Keeps.cut x_ ?_ (fun hx_ => ?_); (on_goal 1 => (unfold x_; clear x_)); (on_goal 2 => clear_value x_)) | (extract_lets +onlyGivenNames x_; clear_value x_) | with_reducible apply keeps_modTb | with_reducible apply keeps_linkTick | with_reducible apply keeps_syncoutStart | with_reducible apply Keeps.ite)

theorem keeps_refReturn {a_ : State} (s : State) (h_s : Keeps a_ s) : Keeps a_ (State.refReturn s) := by
  unfold State.refReturn
  repeat' (first | with_reducible assumption | (extract_lets +onlyGivenNames x_; refine Keeps.cut x_.2 ?_ (fun hx_ => ?_); (on_goal 1 => (unfold x_; clear x_)); (on_goal 2 => clear_value x_)) | with_reducible apply keeps_fresh | with_reducible apply keeps_refEdge | with_reducible apply keeps_modTb | with_reducible apply keeps_set | with_reducible apply Keeps.ite)

theorem keeps_refTick {a_ : State} (s : State) (h_s : Keeps a_ s) : Keeps a_ (State.refTick s) := by
  unfold State.refTick
  repeat' (first | with_reducible assumption | with_reducible apply keeps_refReturn | with_reducible apply keeps_refEdge | with_reducible apply keeps_modTb | with_reducible apply Keeps.ite)

theorem keeps_flitTick {a_ : State} (s : State) (h_s : Keeps a_ s) : Keeps a_ (State.flitTick s) := by
  unfold State.flitTick
  repeat' (first | with_reducible assumption | (with_reducible intro _; intros) | (extract_lets +onlyGivenNames x_; refine Keeps.cut x_ ?_ (fun hx_ => ?_); (on_goal 1 => (unfold x_; clear x_)); (on_goal 2 => clear_value x_)) | (extract_lets +onlyGivenNames x_; clear_value x_) | with_reducible apply keeps_modNet | with_reducible apply keeps_calPortBoundary | with_reducible apply keeps_takePend | with_reducible apply keeps_sendFlit | with_reducible apply keeps_flitComes | with_reducible apply keeps_foldl | with_reducible apply Keeps.ite)

theorem keeps_refoutTick {a_ : State} (s : State) (h_s : Keeps a_ s) : Keeps a_ (State.refoutTick s) := by
  unfold State.refoutTick
  repeat' (first | with_reducible assumption | with_reducible apply keeps_modTb)

theorem keeps_sampleEdge {a_ : State} (s : State) (h_s : Keeps a_ s) : Keeps a_ (State.sampleEdge s) := by
  unfold State.sampleEdge
  repeat' (first | with_reducible assumption | (with_reducible intro _; intros) | with_reducible apply keeps_sampleLines | with_reducible apply keeps_sampleGates | with_reducible apply keeps_sampleEvents | with_reducible apply keeps_overTriggers | with_reducible apply keeps_sampleTrigger)

theorem keeps_rotateCycle {a_ : State} (s : State) (h_s : Keeps a_ s) : Keeps a_ (State.rotateCycle s) := by
  unfold State.rotateCycle
  repeat' (first | with_reducible assumption | (with_reducible intro _; intros) | (extract_lets +onlyGivenNames x_; refine Keeps.cut x_ ?_ (fun hx_ => ?_); (on_goal 1 => (unfold x_; clear x_)); (on_goal 2 => clear_value x_)) | with_reducible apply keeps_modHr | with_reducible apply keeps_overSlices | with_reducible apply keeps_modSlice)

theorem keeps_fireDue {a_ : State} (s : State) (a : DueAct) (h_s : Keeps a_ s) : Keeps a_ (State.fireDue s a) := by
  unfold State.fireDue
  repeat' (first | with_reducible assumption | (with_reducible intro _; intros) | with_reducible apply keeps_modHr | with_reducible apply keeps_modAo | with_reducible apply keeps_armNow | with_reducible apply keeps_modTrig | with_reducible apply keeps_calTrigBoundary | with_reducible apply keeps_hedgeCopy | with_reducible apply keeps_foldl | with_reducible apply Keeps.ite | split)

theorem keeps_eventEdge {a_ : State} (s : State) (h_s : Keeps a_ s) : Keeps a_ (State.eventEdge s) := by
  unfold State.eventEdge
  repeat' (first | with_reducible assumption | (with_reducible intro _; intros) | (extract_lets +onlyGivenNames x_; refine Keeps.cut x_ ?_ (fun hx_ => ?_); (on_goal 1 => (unfold x_; clear x_)); (on_goal 2 => clear_value x_)) | (extract_lets +onlyGivenNames x_; clear_value x_) | with_reducible apply keeps_mergeFresh | with_reducible apply keeps_prefetch | with_reducible apply keeps_restHedge | with_reducible apply keeps_restMeas | with_reducible apply keeps_restTrigs | with_reducible apply keeps_restJumps | with_reducible apply keeps_restFurrow | with_reducible apply keeps_restTears | with_reducible apply keeps_settleWaits | with_reducible apply keeps_restNet | with_reducible apply keeps_stileEdge | with_reducible apply keeps_fireDue | with_reducible apply keeps_sampleEdge | with_reducible apply keeps_sampleCells | with_reducible apply keeps_sampleJumps | with_reducible apply keeps_headrooms | with_reducible apply keeps_rotateCycle | with_reducible apply keeps_foldl | with_reducible apply keeps_mk)

theorem keeps_epochEdge {a_ : State} (s : State) (h_s : Keeps a_ s) : Keeps a_ (State.epochEdge s) := by
  unfold State.epochEdge
  repeat' (first | with_reducible assumption | (extract_lets +onlyGivenNames x_; refine Keeps.cut x_ ?_ (fun hx_ => ?_); (on_goal 1 => (unfold x_; clear x_)); (on_goal 2 => clear_value x_)) | with_reducible apply keeps_honourEpoch | with_reducible apply keeps_measBeforeLoad | with_reducible apply keeps_eventEdge | with_reducible apply Keeps.ite)

theorem keeps_epochAt {a_ : State} (s : State) (before : List SyncPulse) (p : SyncPulse) (after : List SyncPulse) (h_s : Keeps a_ s) : Keeps a_ (State.epochAt s before p after) := by
  unfold State.epochAt
  repeat' (first | with_reducible assumption | (extract_lets +onlyGivenNames x_; refine Keeps.cut x_ ?_ (fun hx_ => ?_); (on_goal 1 => (unfold x_; clear x_)); (on_goal 2 => clear_value x_)) | (extract_lets +onlyGivenNames x_; clear_value x_) | with_reducible apply keeps_count | with_reducible apply keeps_modTb | with_reducible apply keeps_takeSnap | with_reducible apply keeps_epochEdge | with_reducible apply Keeps.ite)

theorem keeps_epochDue {a_ : State} (s : State) (h_s : Keeps a_ s) : Keeps a_ (State.epochDue s) := by
  unfold State.epochDue
  repeat' (first | with_reducible assumption | with_reducible apply keeps_epochAt | split)

theorem keeps_epochsDue {a_ : State} (s : State) (h_s : Keeps a_ s) : Keeps a_ (State.epochsDue s) := by
  unfold State.epochsDue
  repeat' (first | with_reducible assumption | (with_reducible intro _; intros) | with_reducible apply keeps_epochDue | with_reducible apply keeps_foldl)

theorem keeps_restRef {a_ : State} (s : State) (h_s : Keeps a_ s) : Keeps a_ (State.restRef s) := by
  unfold State.restRef
  repeat' (first | with_reducible assumption | with_reducible apply keeps_syncoutDue | with_reducible apply keeps_epochsDue)

theorem keeps_tick {a_ : State} (s : State) (h_s : Keeps a_ s) : Keeps a_ (State.tick s) := by
  unfold State.tick
  repeat' (first | with_reducible assumption | (extract_lets +onlyGivenNames x_; refine Keeps.cut x_ ?_ (fun hx_ => ?_); (on_goal 1 => (unfold x_; clear x_)); (on_goal 2 => clear_value x_)) | with_reducible apply keeps_flitTick | with_reducible apply keeps_refoutTick | with_reducible apply keeps_refTick | with_reducible apply keeps_modTb | with_reducible apply keeps_restRef | with_reducible apply keeps_eventEdge | with_reducible apply keeps_mergeFresh | with_reducible apply Keeps.ite)

theorem keeps_execEpochInstant {a_ : State} (s : State) (h_s : Keeps a_ s) : KeepsOut a_ (execEpochInstant s) := by
  unfold execEpochInstant
  repeat' (first | with_reducible apply KeepsOut.next | with_reducible apply KeepsOut.fault | with_reducible assumption | with_reducible apply keeps_epochDue)

theorem keeps_execSyncPulse {a_ : State} (s : State) (h_s : Keeps a_ s) : KeepsOut a_ (execSyncPulse s) := by
  unfold execSyncPulse
  repeat' (first | with_reducible apply KeepsOut.next | with_reducible apply KeepsOut.fault | with_reducible assumption | with_reducible apply keeps_syncDetect | with_reducible apply keeps_epochsDue | with_reducible apply keeps_syncoutStart | with_reducible apply Keeps.ite)

theorem keeps_raccAnswer {a_ : State} (s : State) (crate : ℕ) (dev : ℕ) (value : ℕ) (st : Status) (h_s : Keeps a_ s) : Keeps a_ (State.raccAnswer s crate dev value st) := by
  unfold State.raccAnswer
  repeat' (first | with_reducible assumption | with_reducible apply keeps_netSend)

theorem keeps_raccOnward {a_ : State} (s : State) (p : Fin 4) (crate : ℕ) (dev : ℕ) (m : NetMsg) (h_s : Keeps a_ s) : Keeps a_ (State.raccOnward s p crate dev m) := by
  unfold State.raccOnward
  repeat' (first | with_reducible assumption | with_reducible apply keeps_raccAsk | with_reducible apply keeps_raccAnswer | with_reducible apply Keeps.ite)

theorem keeps_fabricAct {a_ : State} (s : State) (b : FabBody) (h_s : Keeps a_ s) : Keeps a_ (State.fabricAct s b) := by
  unfold State.fabricAct
  repeat' (first | with_reducible assumption | (with_reducible intro _; intros) | (extract_lets +onlyGivenNames x_; refine Keeps.cut x_.2 ?_ (fun hx_ => ?_); (on_goal 1 => (unfold x_; clear x_)); (on_goal 2 => clear_value x_)) | with_reducible apply keeps_fabSend | with_reducible apply keeps_modNet | with_reducible apply keeps_raccWrite | with_reducible apply keeps_regWrite | with_reducible apply keeps_raccRead | with_reducible apply Keeps.ite | with_reducible apply Keeps.ite_snd | split)

theorem keeps_execRaccWr {a_ : State} (via : Option (Fin 4)) (crate : Fin 16) (dev : Fin 32) (off : Fin 1048576) (v : Word) (s : State) (h_s : Keeps a_ s) : KeepsOut a_ (execRaccWr via crate dev off v s) := by
  unfold execRaccWr
  repeat' (first | with_reducible apply KeepsOut.next | with_reducible apply KeepsOut.fault | with_reducible assumption | (with_reducible intro _; intros) | with_reducible apply keeps_hear | with_reducible apply keeps_raccOnward | with_reducible apply keeps_raccAnswer | with_reducible apply keeps_raccWrite | with_reducible apply keeps_regWrite | split)

theorem keeps_execRaccRd {a_ : State} (via : Option (Fin 4)) (crate : Fin 16) (dev : Fin 32) (off : Fin 1048576) (s : State) (h_s : Keeps a_ s) : KeepsOut a_ (execRaccRd via crate dev off s) := by
  unfold execRaccRd
  repeat' (first | with_reducible apply KeepsOut.next | with_reducible apply KeepsOut.fault | with_reducible assumption | (with_reducible intro _; intros) | (extract_lets +onlyGivenNames x_; refine Keeps.cut x_.2 ?_ (fun hx_ => ?_); (on_goal 1 => (unfold x_; clear x_)); (on_goal 2 => clear_value x_)) | with_reducible apply keeps_hear | with_reducible apply keeps_raccOnward | with_reducible apply keeps_raccAnswer | with_reducible apply keeps_raccRead | split)

theorem keeps_execRaccRsp {a_ : State} (p : Fin 4) (value : Word) (ans : RaccAnswer) (s : State) (h_s : Keeps a_ s) : KeepsOut a_ (execRaccRsp p value ans s) := by
  unfold execRaccRsp
  repeat' (first | with_reducible apply KeepsOut.next | with_reducible apply KeepsOut.fault | with_reducible assumption | (with_reducible intro _; intros) | (extract_lets +onlyGivenNames x_; refine Keeps.cut x_ ?_ (fun hx_ => ?_); (on_goal 1 => (unfold x_; clear x_)); (on_goal 2 => clear_value x_)) | (extract_lets +onlyGivenNames x_; clear_value x_) | with_reducible apply keeps_hear | with_reducible apply keeps_modPort | with_reducible apply keeps_putK | with_reducible apply keeps_set | with_reducible apply keeps_netSend | with_reducible apply Keeps.ite | with_reducible apply KeepsOut.ite | split)

theorem keeps_execFabricMessage {a_ : State} (p : Fin 4) (node : Fin 65536) (body : FabBody) (s : State) (h_s : Keeps a_ s) : KeepsOut a_ (execFabricMessage p node body s) := by
  unfold execFabricMessage
  repeat' (first | with_reducible apply KeepsOut.next | with_reducible apply KeepsOut.fault | with_reducible assumption | with_reducible apply keeps_fabricAct | with_reducible apply keeps_fabSend | with_reducible apply Keeps.ite | with_reducible apply KeepsOut.ite)

theorem keeps_spiEnd {a_ : State} (s : State) (st : ℕ) (err : ℕ) (h_s : Keeps a_ s) : Keeps a_ (State.spiEnd s st err) := by
  unfold State.spiEnd
  repeat' (first | with_reducible assumption | with_reducible apply keeps_set)

theorem keeps_scriptPair {a_ : State} (s : State) (off : ℕ) (v : Word) (h_s : Keeps a_ s) : Keeps a_ (State.scriptPair s off v) := by
  unfold State.scriptPair
  repeat' (first | with_reducible assumption | (with_reducible intro _; intros) | with_reducible apply keeps_incSat | with_reducible apply keeps_bar0Put | with_reducible apply keeps_regWrite | with_reducible apply Keeps.ite)

theorem keeps_runScript {a_ : State} (s : State) (bytes : List Byte) (n : ℕ) (h_s : Keeps a_ s) : Keeps a_ (State.runScript s bytes n) := by
  unfold State.runScript
  repeat' (first | with_reducible assumption | (with_reducible intro _; intros) | with_reducible apply keeps_scriptPair | with_reducible apply keeps_foldl)

theorem keeps_bootCommit {a_ : State} (s : State) (h_s : Keeps a_ s) : Keeps a_ (State.bootCommit s) := by
  unfold State.bootCommit
  repeat' (first | with_reducible assumption | (extract_lets +onlyGivenNames x_; refine Keeps.cut x_ ?_ (fun hx_ => ?_); (on_goal 1 => (unfold x_; clear x_)); (on_goal 2 => clear_value x_)) | (extract_lets +onlyGivenNames x_; clear_value x_) | with_reducible apply keeps_candidate | with_reducible apply keeps_putK | with_reducible apply keeps_commitRefuse | with_reducible apply keeps_spiEnd | with_reducible apply keeps_set | with_reducible apply keeps_incWrap | with_reducible apply keeps_pinAll | with_reducible apply keeps_commitCopy | split)

theorem keeps_grantRegions {a_ : State} (s : State) (k : Fin 16) (mask : ℕ) (h_s : Keeps a_ s) : Keeps a_ (State.grantRegions s k mask) := by
  unfold State.grantRegions
  repeat' (first | with_reducible assumption | with_reducible apply keeps_putBoth)

theorem keeps_spiDone {a_ : State} (s : State) (header : List Byte) (image : List Byte) (script : List Byte) (h_s : Keeps a_ s) : Keeps a_ (State.spiDone s header image script) := by
  unfold State.spiDone
  repeat' (first | with_reducible assumption | (extract_lets +onlyGivenNames x_; refine Keeps.cut x_ ?_ (fun hx_ => ?_); (on_goal 1 => (unfold x_; clear x_)); (on_goal 2 => clear_value x_)) | (extract_lets +onlyGivenNames x_; clear_value x_) | with_reducible apply keeps_spiEnd | with_reducible apply keeps_noteLoad | with_reducible apply keeps_runScript | with_reducible apply keeps_grantRegions | with_reducible apply keeps_runLoad | with_reducible apply keeps_bootCommit | with_reducible apply Keeps.ite | split)

theorem keeps_ddrDone {a_ : State} (s : State) (ok : Bool) (mib : ℕ) (h_s : Keeps a_ s) : Keeps a_ (State.ddrDone s ok mib) := by
  unfold State.ddrDone
  repeat' (first | with_reducible assumption | (extract_lets +onlyGivenNames x_; refine Keeps.cut x_ ?_ (fun hx_ => ?_); (on_goal 1 => (unfold x_; clear x_)); (on_goal 2 => clear_value x_)) | with_reducible apply keeps_set | with_reducible apply keeps_spiBegin | with_reducible apply Keeps.ite)

theorem keeps_execHostPowerOn {a_ : State} (s : State) (h_s : Keeps a_ s) : KeepsOut a_ (execHostPowerOn s) := by
  unfold execHostPowerOn
  repeat' (first | with_reducible apply KeepsOut.next | with_reducible apply KeepsOut.fault | with_reducible assumption | with_reducible apply keeps_modBoot | with_reducible apply keeps_hostReset)

theorem keeps_execHostConventionalReset {a_ : State} (s : State) (h_s : Keeps a_ s) : KeepsOut a_ (execHostConventionalReset s) := by
  unfold execHostConventionalReset
  repeat' (first | with_reducible apply KeepsOut.next | with_reducible apply KeepsOut.fault | with_reducible assumption | with_reducible apply keeps_hostReset)

theorem keeps_execFieldPowerOn {a_ : State} (s : State) (h_s : Keeps a_ s) : KeepsOut a_ (execFieldPowerOn s) := by
  unfold execFieldPowerOn
  repeat' (first | with_reducible apply KeepsOut.next | with_reducible apply KeepsOut.fault | with_reducible assumption | with_reducible apply keeps_modBoot | with_reducible apply keeps_fieldReset)

theorem keeps_execFresetN {a_ : State} (s : State) (h_s : Keeps a_ s) : KeepsOut a_ (execFresetN s) := by
  unfold execFresetN
  repeat' (first | with_reducible apply KeepsOut.next | with_reducible apply KeepsOut.fault | with_reducible assumption | with_reducible apply keeps_fieldReset)

theorem keeps_execFieldSupplyLoss {a_ : State} (s : State) (h_s : Keeps a_ s) : KeepsOut a_ (execFieldSupplyLoss s) := by
  unfold execFieldSupplyLoss
  repeat' (first | with_reducible apply KeepsOut.next | with_reducible apply KeepsOut.fault | with_reducible assumption | with_reducible apply keeps_modBoot | with_reducible apply keeps_loseTables | with_reducible apply keeps_fieldReset)

theorem keeps_execFieldBoot {a_ : State} (mvA : ℕ) (mvB : ℕ) (s : State) (h_s : Keeps a_ s) : KeepsOut a_ (execFieldBoot mvA mvB s) := by
  unfold execFieldBoot
  repeat' (first | with_reducible apply KeepsOut.next | with_reducible apply KeepsOut.fault | with_reducible assumption | with_reducible apply keeps_fieldBoot)

theorem keeps_execDdrTrainingDone {a_ : State} (ok : Bool) (mib : Fin 131072) (s : State) (h_s : Keeps a_ s) : KeepsOut a_ (execDdrTrainingDone ok mib s) := by
  unfold execDdrTrainingDone
  repeat' (first | with_reducible apply KeepsOut.next | with_reducible apply KeepsOut.fault | with_reducible assumption | with_reducible apply keeps_ddrDone | with_reducible apply Keeps.ite)

theorem keeps_execSpiNorBootDone {a_ : State} (header : List Byte) (image : List Byte) (script : List Byte) (s : State) (h_s : Keeps a_ s) : KeepsOut a_ (execSpiNorBootDone header image script s) := by
  unfold execSpiNorBootDone
  repeat' (first | with_reducible apply KeepsOut.next | with_reducible apply KeepsOut.fault | with_reducible assumption | with_reducible apply keeps_spiDone | with_reducible apply Keeps.ite)

theorem keeps_execTbc48Wrap {a_ : State} (s : State) (h_s : Keeps a_ s) : KeepsOut a_ (execTbc48Wrap s) := by
  unfold execTbc48Wrap
  repeat' (first | with_reducible apply KeepsOut.next | with_reducible apply KeepsOut.fault | with_reducible assumption | (with_reducible intro _; intros) | with_reducible apply keeps_overSess | with_reducible apply keeps_rollover | with_reducible apply keeps_tbEvent | with_reducible apply keeps_modTb)

theorem keeps_execTbcWrap {a_ : State} (s : State) (h_s : Keeps a_ s) : KeepsOut a_ (execTbcWrap s) := by
  unfold execTbcWrap
  repeat' (first | with_reducible apply KeepsOut.next | with_reducible apply KeepsOut.fault | with_reducible assumption | with_reducible apply keeps_tbEvent)

/-- What every command keeps. -/
theorem keeps_exec {a_ : State} (cmd : Instr) (s : State) (h : Keeps a_ s) : KeepsOut a_ (exec cmd s) := by
  cases cmd with
  | bar0Write page off v => exact keeps_execBar0Write _ _ _ _ h
  | bar0BadSizeAccess at_ write be => exact keeps_execBar0BadSizeAccess _ _ _ _ h
  | pairLoRead page off => exact keeps_execPairLoRead _ _ _ h
  | pairHiRead page off => exact keeps_execPairHiRead _ _ _ h
  | pairLoWrite page off v => exact keeps_execPairLoWrite _ _ _ _ h
  | pairHiWrite page off v => exact keeps_execPairHiWrite _ _ _ _ h
  | rcFieldRead page off => exact keeps_execRcFieldRead _ _ _ h
  | sysCommitGo scope target => exact keeps_execSysCommitGo _ _ _ h
  | commitPinningDone pages failed => exact keeps_execCommitPinningDone _ _ _ h
  | handshakeWatchdog u => exact keeps_execHandshakeWatchdog _ _ h
  | refLost word => exact keeps_execRefLost _ _ h
  | rangeWindowEnd present throughout count word => exact keeps_execRangeWindowEnd _ _ _ _ _ h
  | refQualified phase => exact keeps_execRefQualified _ _ h
  | pllLockDeclared phase => exact keeps_execPllLockDeclared _ _ h
  | lockTrip word => exact keeps_execLockTrip _ _ h
  | lockTripCompare diffPpm => exact keeps_execLockTripCompare _ _ h
  | recoverDone => exact keeps_execRecoverDone _ h
  | holdLimitExceeded => exact keeps_execHoldLimitExceeded _ h
  | syncPulse => exact keeps_execSyncPulse _ h
  | epochInstant => exact keeps_execEpochInstant _ h
  | tbc48Wrap => exact keeps_execTbc48Wrap _ h
  | tbcWrap => exact keeps_execTbcWrap _ h
  | relock => exact keeps_execRelock _ h
  | emit => exact keeps_execEmit _ h
  | syncoutPeriodic => exact keeps_execSyncoutPeriodic _ h
  | slicePeriodStart n t balls => exact keeps_execSlicePeriodStart _ _ _ _ h
  | unitStartFromIdle u => exact keeps_execUnitStartFromIdle _ _ h
  | aoSampleSlotStart o => exact keeps_execAoSampleSlotStart _ _ h
  | reflexAssert c => exact keeps_execReflexAssert _ _ h
  | reflexDeassert c => exact keeps_execReflexDeassert _ _ h
  | modeChangeHizEnd n l => exact keeps_execModeChangeHizEnd _ _ _ h
  | supplyBank m => exact keeps_execSupplyBank _ _ h
  | spareForce n l => exact keeps_execSpareForce _ _ _ h
  | spareRestore n l err => exact keeps_execSpareRestore _ _ _ _ h
  | spareTg8Connected n => exact keeps_execSpareTg8Connected _ _ h
  | spareTrimsSettled n => exact keeps_execSpareTrimsSettled _ _ h
  | spareLoopbackCheck n pass => exact keeps_execSpareLoopbackCheck _ _ _ h
  | spareTakeover n => exact keeps_execSpareTakeover _ _ h
  | microwordComplete c => exact keeps_execMicrowordComplete _ _ h
  | conditionTrue c => exact keeps_execConditionTrue _ _ h
  | waitTimeout c => exact keeps_execWaitTimeout _ _ h
  | stallRelease c => exact keeps_execStallRelease _ _ h
  | csPatrol a => exact keeps_execCsPatrol _ _ h
  | halt c => exact keeps_execHalt _ _ h
  | resume c => exact keeps_execResume _ _ h
  | step c => exact keeps_execStep _ _ h
  | sequenceComplete k => exact keeps_execSequenceComplete _ _ h
  | coreDispatch c => exact keeps_execCoreDispatch _ _ h
  | cswAddrWrite v => exact keeps_execCswAddrWrite _ _ h
  | cswData0Read => exact keeps_execCswData0Read _ h
  | cswData5Read => exact keeps_execCswData5Read _ h
  | jumpRequest lines => exact keeps_execJumpRequest _ _ h
  | shadowStaged u which => exact keeps_execShadowStaged _ _ _ h
  | fwProgramLoaded g => exact keeps_execFwProgramLoaded _ _ h
  | fwScrDataWrite g v => exact keeps_execFwScrDataWrite _ _ _ h
  | pageTableWalkDone k page ecc => exact keeps_execPageTableWalkDone _ _ _ _ h
  | pageFillComplete k page err data => exact keeps_execPageFillComplete _ _ _ _ _ h
  | fillTimeout k page => exact keeps_execFillTimeout _ _ _ h
  | refillReadComplete u which count ecc => exact keeps_execRefillReadComplete _ _ _ _ _ h
  | vsInvTlb k => exact keeps_execVsInvTlb _ _ h
  | vsInvPages k => exact keeps_execVsInvPages _ _ h
  | triggerArm u => exact keeps_execTriggerArm _ _ h
  | triggerStop u => exact keeps_execTriggerStop _ _ h
  | triggerForce u => exact keeps_execTriggerForce _ _ h
  | armEvent u => exact keeps_execArmEvent _ _ h
  | triggerFire u => exact keeps_execTriggerFire _ _ h
  | preTriggerFull u => exact keeps_execPreTriggerFull _ _ h
  | postTriggerEnd u => exact keeps_execPostTriggerEnd _ _ h
  | failUnitTimeout k => exact keeps_execFailUnitTimeout _ _ h
  | gleanerWriteDone k r src => exact keeps_execGleanerWriteDone _ _ _ _ h
  | maskWindowJudge m => exact keeps_execMaskWindowJudge _ _ h
  | strayJudge m => exact keeps_execStrayJudge _ _ h
  | stampEdge i t v => exact keeps_execStampEdge _ _ _ _ h
  | stampLineFlush k => exact keeps_execStampLineFlush _ _ h
  | muGateOpen u => exact keeps_execMuGateOpen _ _ h
  | muGateClose u => exact keeps_execMuGateClose _ _ h
  | aoSlewMove o => exact keeps_execAoSlewMove _ _ h
  | aoDetectorSet o open_ => exact keeps_execAoDetectorSet _ _ _ h
  | aoDetectorClear o open_ => exact keeps_execAoDetectorClear _ _ _ h
  | aoMonUpdate o forceV loadI => exact keeps_execAoMonUpdate _ _ _ _ h
  | aoRangeEnable o => exact keeps_execAoRangeEnable _ _ h
  | aoTblDataWrite o v => exact keeps_execAoTblDataWrite _ _ _ h
  | hrSwSet mask clr => exact keeps_execHrSwSet _ _ _ h
  | hrSwClr mask => exact keeps_execHrSwClr _ _ h
  | hrSwPulse mask => exact keeps_execHrSwPulse _ _ h
  | eventEdgeSampled ev acts rose => exact keeps_execEventEdgeSampled _ _ _ _ h
  | ringHoldoffEnd k ev => exact keeps_execRingHoldoffEnd _ _ _ h
  | sedgeFilterSettle c => exact keeps_execSedgeFilterSettle _ _ h
  | cgOnEdge g => exact keeps_execCgOnEdge _ _ h
  | cgOffEdge g => exact keeps_execCgOffEdge _ _ h
  | calCmd u => exact keeps_execCalCmd _ _ h
  | calIntervalExpiry u => exact keeps_execCalIntervalExpiry _ _ h
  | tempReading t => exact keeps_execTempReading _ _ h
  | calRunStart => exact keeps_execCalRunStart _ h
  | calAttemptEnd m quals => exact keeps_execCalAttemptEnd _ _ _ h
  | teardown k => exact keeps_execTeardown _ _ h
  | teardownScrub k => exact keeps_execTeardownScrub _ _ h
  | teardownDone k => exact keeps_execTeardownDone _ _ h
  | sessionAbort k => exact keeps_execSessionAbort _ _ h
  | shotStart k => exact keeps_execShotStart _ _ h
  | shotTriggerTimeout k => exact keeps_execShotTriggerTimeout _ _ h
  | shotSequenceStart k => exact keeps_execShotSequenceStart _ _ h
  | shotTallyClose k => exact keeps_execShotTallyClose _ _ h
  | nop k => exact keeps_execNop _ _ h
  | regWrite k data => exact keeps_execRegWrite _ _ _ h
  | regRead k data => exact keeps_execRegRead _ _ _ h
  | commit k => exact keeps_execCommit _ _ h
  | loadImage k image => exact keeps_execLoadImage _ _ _ h
  | writeSegments k data => exact keeps_execWriteSegments _ _ _ h
  | tableLoad k data => exact keeps_execTableLoad _ _ _ h
  | dmaWrite k data => exact keeps_execDmaWrite _ _ _ h
  | dmaRead k ecc => exact keeps_execDmaRead _ _ _ h
  | invalidate k => exact keeps_execInvalidate _ _ h
  | start k => exact keeps_execStart _ _ h
  | shot k => exact keeps_execShot _ _ h
  | abort k => exact keeps_execAbort _ _ h
  | dbCmdTail k idx => exact keeps_execDbCmdTail _ _ _ h
  | descriptorReadDone k bytes => exact keeps_execDescriptorReadDone _ _ _ h
  | descriptorReadTimeout k bad => exact keeps_execDescriptorReadTimeout _ _ _ h
  | dbGo k tag => exact keeps_execDbGo _ _ _ h
  | dbHead k r idx rearm => exact keeps_execDbHead _ _ _ _ _ h
  | dbDataHead k head lap => exact keeps_execDbDataHead _ _ _ _ h
  | ringEnable k r v => exact keeps_execRingEnable _ _ _ _ h
  | ringDisable k r v => exact keeps_execRingDisable _ _ _ _ h
  | dataAreaEnable k v => exact keeps_execDataAreaEnable _ _ _ h
  | forwardPieceTimer k r => exact keeps_execForwardPieceTimer _ _ _ h
  | interruptModTime k r => exact keeps_execInterruptModTime _ _ _ h
  | functionLevelReset k => exact keeps_execFunctionLevelReset _ _ h
  | d3hotEntry k => exact keeps_execD3hotEntry _ _ h
  | vfEnableClear => exact keeps_execVfEnableClear _ h
  | idle toHost how ndata => exact keeps_execIdle _ _ _ _ h
  | init toHost hostReset => exact keeps_execInit _ _ _ h
  | state v => exact keeps_execState _ _ h
  | lane toHost lane => exact keeps_execLane _ _ _ h
  | regWr off v => exact keeps_execRegWr _ _ _ h
  | regRd off => exact keeps_execRegRd _ _ h
  | regRsp v => exact keeps_execRegRsp _ _ h
  | cmd k tag epoch bytes => exact keeps_execCmd _ _ _ _ _ h
  | go k inst => exact keeps_execGo _ _ _ h
  | credit k completion capture event data => exact keeps_execCredit _ _ _ _ _ _ h
  | hostRdReq k inst r => exact keeps_execHostRdReq _ _ _ _ h
  | hostRdData k inst data => exact keeps_execHostRdData _ _ _ _ h
  | hostWr k inst addr data => exact keeps_execHostWr _ _ _ _ _ h
  | ringPost k r inst entry intr => exact keeps_execRingPost _ _ _ _ _ _ h
  | fieldReset => exact keeps_execFieldReset _ h
  | stileFrameCrcFail toHost => exact keeps_execStileFrameCrcFail _ _ h
  | stileLaneFail toHost lane => exact keeps_execStileLaneFail _ _ _ h
  | f2hSignalLoss => exact keeps_execF2hSignalLoss _ h
  | linkFaultInitRetry => exact keeps_execLinkFaultInitRetry _ h
  | fieldStileLoss => exact keeps_execFieldStileLoss _ h
  | orphanTimeout => exact keeps_execOrphanTimeout _ h
  | stCtrlFieldReset => exact keeps_execStCtrlFieldReset _ h
  | discover p hop => exact keeps_execDiscover _ _ _ h
  | report path role serial => exact keeps_execReport _ _ _ _ h
  | assign dev crate cluster via => exact keeps_execAssign _ _ _ _ _ h
  | align p t1 t2 t3 t4 asked up => exact keeps_execAlign _ _ _ _ _ _ _ _ h
  | epoch p offset ago => exact keeps_execEpoch _ _ _ _ h
  | raccWr via crate dev off v => exact keeps_execRaccWr _ _ _ _ _ _ h
  | raccRd via crate dev off => exact keeps_execRaccRd _ _ _ _ _ h
  | raccRsp p value ans => exact keeps_execRaccRsp _ _ _ _ h
  | evcfg crate cluster scope => exact keeps_execEvcfg _ _ _ _ h
  | eventRecord p cycle line level => exact keeps_execEventRecord _ _ _ _ _ h
  | crateEventRelease => exact keeps_execCrateEventRelease _ h
  | crateEventApply => exact keeps_execCrateEventApply _ h
  | tlFlitCrcFail f => exact keeps_execTlFlitCrcFail _ _ h
  | tlTrainingDone p lanes => exact keeps_execTlTrainingDone _ _ _ h
  | tlLaneFail p lane => exact keeps_execTlLaneFail _ _ _ h
  | tlDiscStart => exact keeps_execTlDiscStart _ h
  | discoveryDone depth => exact keeps_execDiscoveryDone _ _ h
  | tlAlignStart => exact keeps_execTlAlignStart _ h
  | alignExchangeTimer p => exact keeps_execAlignExchangeTimer _ _ h
  | alignSlewDone residual => exact keeps_execAlignSlewDone _ _ h
  | tlRaccGo v => exact keeps_execTlRaccGo _ _ h
  | raccTimeout => exact keeps_execRaccTimeout _ h
  | fabricMessage p node body => exact keeps_execFabricMessage _ _ _ _ h
  | ddrPatrolRead addr ecc => exact keeps_execDdrPatrolRead _ _ _ h
  | supply m => exact keeps_execSupply _ _ h
  | supplyAo => exact keeps_execSupplyAo _ h
  | tgSelfCheck n g err => exact keeps_execTgSelfCheck _ _ _ _ h
  | fltCoreOffline c => exact keeps_execFltCoreOffline _ _ h
  | fltCoreOnline c => exact keeps_execFltCoreOnline _ _ h
  | injectionArm n => exact keeps_execInjectionArm _ _ h
  | injectionCancel => exact keeps_execInjectionCancel _ h
  | injectionDurationEnd => exact keeps_execInjectionDurationEnd _ h
  | csStageSet k => exact keeps_execCsStageSet _ _ h
  | csStageClear k => exact keeps_execCsStageClear _ _ h
  | csSwapGo k => exact keeps_execCsSwapGo _ _ h
  | hostPowerOn => exact keeps_execHostPowerOn _ h
  | hostConventionalReset => exact keeps_execHostConventionalReset _ h
  | fieldPowerOn => exact keeps_execFieldPowerOn _ h
  | fresetN => exact keeps_execFresetN _ h
  | fieldSupplyLoss => exact keeps_execFieldSupplyLoss _ h
  | fieldBoot mvA mvB => exact keeps_execFieldBoot _ _ _ h
  | ddrTrainingDone ok mib => exact keeps_execDdrTrainingDone _ _ _ h
  | nvmFLoad => exact keeps_execNvmFLoad _ h
  | nvmFProgram => exact keeps_execNvmFProgram _ h
  | storeCal => exact keeps_execStoreCal _ h
  | nvmHLoad => exact keeps_execNvmHLoad _ h
  | nvmHProgram => exact keeps_execNvmHProgram _ h
  | nvmWriteDone host => exact keeps_execNvmWriteDone _ _ h
  | stileSignalPresent => exact keeps_execStileSignalPresent _ h
  | tlPeerSignal p => exact keeps_execTlPeerSignal _ _ h
  | phaseAccumulatorAdd o => exact keeps_execPhaseAccumulatorAdd _ _ h
  | sedgeFlipFlopCapture c => exact keeps_execSedgeFlipFlopCapture _ _ h
  | hostDataReadTimeout k bad => exact keeps_execHostDataReadTimeout _ _ _ h
  | spiNorBootDone header image script => exact keeps_execSpiNorBootDone _ _ _ _ h
  | supplyBankReturn m => exact keeps_execSupplyBankReturn _ _ h

end Sys2Proof.Machine
end

