-- ==== Sys2Proof/WellFormed.lean ====
section
/-! DEFINITION. What a well-formed command is: every operand in the range that its field of the spec has, and the unit that a command names. -/

namespace Sys2Proof

/-- Does a signed value fit a two's complement field of `n` bits? -/
def sized (n : Nat) (v : Int) : Bool := decide (-2 ^ (n - 1) ≤ v) && decide (v < 2 ^ (n - 1))

/-- Fields of a fabric message: node addresses of 16 bits, lines 0–7, register offsets of 20 bits, values of 32 bits (R450, R485). -/
def FabBody.wf : FabBody → Bool
  | .discover src => decide (src < 65536)
  | .node src => decide (src < 65536)
  | .event line _ => decide (line < 8)
  | .regWr offset value => decide (offset < 2 ^ 20) && decide (value < 2 ^ 32)
  | .regRd src offset => decide (src < 65536) && decide (offset < 2 ^ 20)
  | .regRsp value => decide (value < 2 ^ 32)

/-- A flit number has 16 bits (R434). -/
def FlitCase.wf : FlitCase → Bool
  | .nak num => decide (num < 65536)
  | _ => true

/-- FLAGS has five reserved bits, not all 0 in such a header; types from 0x0F on are not sent (R418, R419). -/
def HeaderCase.wf : HeaderCase → Bool
  | .idle => true
  | .reserved typ bits => decide (typ.val < 15) && decide (bits.val ≠ 0)
  | .unknown typ => decide (15 ≤ typ.val)

/-- The voltages at the balls in µV fit 32 bits. -/
def BallVolts.wf (v : BallVolts) : Bool := sized 32 v.p && sized 32 v.n

/-- Is every operand in its field's range? An operand that its type already bounds needs no check. -/
def Instr.wf : Instr → Bool
  | .bar0Write _ _ _ => true
  | .bar0BadSizeAccess _ _ _ => true
  | .pairLoRead _ _ => true
  | .pairHiRead _ _ => true
  | .pairLoWrite _ _ _ => true
  | .pairHiWrite _ _ _ => true
  | .rcFieldRead _ _ => true
  | .sysCommitGo _ _ => true
  | .commitPinningDone _ _ => true
  | .handshakeWatchdog _ => true
  | .refLost _ => true
  | .rangeWindowEnd _ _ _ _ => true
  | .refQualified _ => true
  | .pllLockDeclared _ => true
  | .lockTrip _ => true
  | .lockTripCompare _ => true
  | .recoverDone => true
  | .holdLimitExceeded => true
  | .syncPulse => true
  | .epochInstant => true
  | .tbc48Wrap => true
  | .tbcWrap => true
  | .relock => true
  | .emit => true
  | .syncoutPeriodic => true
  | .slicePeriodStart _ t balls => decide (t < 2 ^ 64) && (decide (balls.length ≤ 8) && balls.all (fun v => v.wf))
  | .unitStartFromIdle _ => true
  | .aoSampleSlotStart _ => true
  | .reflexAssert _ => true
  | .reflexDeassert _ => true
  | .modeChangeHizEnd _ _ => true
  | .supplyBank m => decide (m.mv < 65536)
  | .spareForce _ _ => true
  | .spareRestore _ _ _ => true
  | .spareTg8Connected _ => true
  | .spareTrimsSettled _ => true
  | .spareLoopbackCheck _ _ => true
  | .spareTakeover _ => true
  | .microwordComplete _ => true
  | .conditionTrue _ => true
  | .waitTimeout _ => true
  | .stallRelease _ => true
  | .csPatrol _ => true
  | .halt _ => true
  | .resume _ => true
  | .step _ => true
  | .sequenceComplete _ => true
  | .coreDispatch _ => true
  | .cswAddrWrite _ => true
  | .cswData0Read => true
  | .cswData5Read => true
  | .jumpRequest lines => decide (lines < 65536)
  | .shadowStaged _ _ => true
  | .fwProgramLoaded _ => true
  | .fwScrDataWrite _ _ => true
  | .pageTableWalkDone _ page ecc => decide (page < 2 ^ 32) && decide (ecc < 3)
  | .pageFillComplete _ page err data => decide (page < 2 ^ 32) && (err || decide (data.length = 65536))
  | .fillTimeout _ page => decide (page < 2 ^ 32)
  | .refillReadComplete _ _ _ ecc => decide (ecc < 3)
  | .vsInvTlb _ => true
  | .vsInvPages _ => true
  | .triggerArm _ => true
  | .triggerStop _ => true
  | .triggerForce _ => true
  | .armEvent _ => true
  | .triggerFire _ => true
  | .preTriggerFull _ => true
  | .postTriggerEnd _ => true
  | .failUnitTimeout _ => true
  | .gleanerWriteDone _ _ _ => true
  | .maskWindowJudge _ => true
  | .strayJudge _ => true
  | .stampEdge _ t v => decide (t < 2 ^ 64) && v.wf
  | .stampLineFlush _ => true
  | .muGateOpen _ => true
  | .muGateClose _ => true
  | .aoSlewMove _ => true
  | .aoDetectorSet _ _ => true
  | .aoDetectorClear _ _ => true
  | .aoMonUpdate _ forceV loadI => sized 16 forceV && sized 16 loadI
  | .aoRangeEnable _ => true
  | .aoTblDataWrite _ _ => true
  | .hrSwSet mask clr => decide (mask < 256) && decide (clr < 256)
  | .hrSwClr mask => decide (mask < 256)
  | .hrSwPulse mask => decide (mask < 256)
  | .eventEdgeSampled _ _ _ => true
  | .ringHoldoffEnd _ _ => true
  | .sedgeFilterSettle _ => true
  | .cgOnEdge _ => true
  | .cgOffEdge _ => true
  | .calCmd _ => true
  | .calIntervalExpiry _ => true
  | .tempReading _ => true
  | .calRunStart => true
  | .calAttemptEnd _ quals => quals.all (fun q => decide (q < 65536))
  | .teardown _ => true
  | .teardownScrub _ => true
  | .teardownDone _ => true
  | .sessionAbort _ => true
  | .shotStart _ => true
  | .shotTriggerTimeout _ => true
  | .shotSequenceStart _ => true
  | .shotTallyClose _ => true
  | .nop _ => true
  | .regWrite _ _ => true
  | .regRead _ _ => true
  | .commit _ => true
  | .loadImage _ _ => true
  | .writeSegments _ _ => true
  | .tableLoad _ _ => true
  | .dmaWrite _ _ => true
  | .dmaRead _ _ => true
  | .invalidate _ => true
  | .start _ => true
  | .shot _ => true
  | .abort _ => true
  | .dbCmdTail _ _ => true
  | .descriptorReadDone _ bytes => decide (bytes.length = 64)
  | .descriptorReadTimeout _ _ => true
  | .dbGo _ _ => true
  | .dbHead _ _ _ _ => true
  | .dbDataHead _ _ _ => true
  | .ringEnable _ _ _ => true
  | .ringDisable _ _ _ => true
  | .dataAreaEnable _ _ => true
  | .forwardPieceTimer _ _ => true
  | .interruptModTime _ _ => true
  | .functionLevelReset _ => true
  | .d3hotEntry _ => true
  | .vfEnableClear => true
  | .idle _ how ndata => how.wf && (how != .idle || ndata.val == 0)
  | .init _ _ => true
  | .state _ => true
  | .lane _ _ => true
  | .regWr _ _ => true
  | .regRd _ => true
  | .regRsp _ => true
  | .cmd _ _ _ bytes => decide (bytes.length = 64)
  | .go _ _ => true
  | .credit _ completion capture event data => decide (completion < 65536) && (decide (capture < 65536) && (decide (event < 65536) && decide (data ≤ 2 ^ 30)))
  | .hostRdReq _ _ r => decide (r.addr < 2 ^ 64) && (decide (0 < r.len) && decide (r.len < 2 ^ 32))
  | .hostRdData _ _ data => decide (0 < data.length) && decide (data.length ≤ 768)
  | .hostWr _ _ addr data => decide (addr < 2 ^ 64) && (decide (0 < data.length) && decide (data.length ≤ 768))
  | .ringPost _ _ _ entry _ => decide (0 < entry.length) && decide (entry.length ≤ 64)
  | .fieldReset => true
  | .stileFrameCrcFail _ => true
  | .stileLaneFail _ _ => true
  | .f2hSignalLoss => true
  | .linkFaultInitRetry => true
  | .fieldStileLoss => true
  | .orphanTimeout => true
  | .stCtrlFieldReset => true
  | .discover _ hop => decide (hop < 256)
  | .report path role serial => decide (path ≠ []) && (path.all (fun q => decide (q < 4)) && (decide (role < 3) && decide (serial < 2 ^ 64)))
  | .assign _ _ _ _ => true
  | .align _ _ _ _ _ _ _ => true
  | .epoch _ offset ago => decide (offset < 2 ^ 32) && decide (ago < 2 ^ 32)
  | .raccWr _ _ _ _ _ => true
  | .raccRd _ _ _ _ => true
  | .raccRsp _ _ _ => true
  | .evcfg _ _ _ => true
  | .eventRecord _ _ _ _ => true
  | .crateEventRelease => true
  | .crateEventApply => true
  | .tlFlitCrcFail f => f.how.wf
  | .tlTrainingDone _ _ => true
  | .tlLaneFail _ _ => true
  | .tlDiscStart => true
  | .discoveryDone _ => true
  | .tlAlignStart => true
  | .alignExchangeTimer _ => true
  | .alignSlewDone _ => true
  | .tlRaccGo _ => true
  | .raccTimeout => true
  | .fabricMessage _ _ body => body.wf
  | .ddrPatrolRead _ _ => true
  | .supply m => decide (m.dev.natAbs ≤ 1000)
  | .supplyAo => true
  | .tgSelfCheck _ _ _ => true
  | .fltCoreOffline _ => true
  | .fltCoreOnline _ => true
  | .injectionArm _ => true
  | .injectionCancel => true
  | .injectionDurationEnd => true
  | .csStageSet _ => true
  | .csStageClear _ => true
  | .csSwapGo _ => true
  | .hostPowerOn => true
  | .hostConventionalReset => true
  | .fieldPowerOn => true
  | .fresetN => true
  | .fieldSupplyLoss => true
  | .fieldBoot mvA mvB => decide (mvA < 65536) && decide (mvB < 65536)
  | .ddrTrainingDone _ _ => true
  | .nvmFLoad => true
  | .nvmFProgram => true
  | .storeCal => true
  | .nvmHLoad => true
  | .nvmHProgram => true
  | .nvmWriteDone _ => true
  | .stileSignalPresent => true
  | .tlPeerSignal _ => true
  | .phaseAccumulatorAdd _ => true
  | .sedgeFlipFlopCapture _ => true
  | .hostDataReadTimeout _ _ => true
  | .spiNorBootDone header _ _ => decide (header.length = 32)
  | .supplyBankReturn m => decide (m.mv < 65536)

/-- The kinds of unit that a command may name. -/
inductive UnitKind where
  | device
  | session
  | slice
  | output
  | core
  | cell
  | generator
  | group
  | port
  | input
  | maskTest
  | trigger
  | measure
  | player
  | calUnit
  | event
  deriving DecidableEq, Repr

/-- How many units of a kind the device has (R1–R6, R146, R240, R269, R283, R314, R328, R330, R340, R354, R433). -/
def UnitKind.count : UnitKind → Nat
  | .device => 1
  | .session => 16
  | .slice => 12
  | .output => 16
  | .core => 4
  | .cell => 64
  | .generator => 4
  | .group => 16
  | .port => 4
  | .input => 112
  | .maskTest => 16
  | .trigger => 8
  | .measure => 16
  | .player => 28
  | .calUnit => 36
  | .event => 256

/-- The unit that a command names; the device where it names none. -/
def Instr.unit : Instr → UnitKind × Nat
  | .bar0Write _ _ _ => (.device, 0)
  | .bar0BadSizeAccess _ _ _ => (.device, 0)
  | .pairLoRead _ _ => (.device, 0)
  | .pairHiRead _ _ => (.device, 0)
  | .pairLoWrite _ _ _ => (.device, 0)
  | .pairHiWrite _ _ _ => (.device, 0)
  | .rcFieldRead _ _ => (.device, 0)
  | .sysCommitGo _ _ => (.device, 0)
  | .commitPinningDone _ _ => (.device, 0)
  | .handshakeWatchdog _ => (.device, 0)
  | .refLost _ => (.device, 0)
  | .rangeWindowEnd _ _ _ _ => (.device, 0)
  | .refQualified _ => (.device, 0)
  | .pllLockDeclared _ => (.device, 0)
  | .lockTrip _ => (.device, 0)
  | .lockTripCompare _ => (.device, 0)
  | .recoverDone => (.device, 0)
  | .holdLimitExceeded => (.device, 0)
  | .syncPulse => (.device, 0)
  | .epochInstant => (.device, 0)
  | .tbc48Wrap => (.device, 0)
  | .tbcWrap => (.device, 0)
  | .relock => (.device, 0)
  | .emit => (.device, 0)
  | .syncoutPeriodic => (.device, 0)
  | .slicePeriodStart n _ _ => (.slice, n)
  | .unitStartFromIdle u => (.player, u)
  | .aoSampleSlotStart o => (.output, o)
  | .reflexAssert c => (.cell, c)
  | .reflexDeassert c => (.cell, c)
  | .modeChangeHizEnd n _ => (.slice, n)
  | .supplyBank _ => (.device, 0)
  | .spareForce n _ => (.slice, n)
  | .spareRestore n _ _ => (.slice, n)
  | .spareTg8Connected n => (.slice, n)
  | .spareTrimsSettled n => (.slice, n)
  | .spareLoopbackCheck n _ => (.slice, n)
  | .spareTakeover n => (.slice, n)
  | .microwordComplete c => (.core, c)
  | .conditionTrue c => (.core, c)
  | .waitTimeout c => (.core, c)
  | .stallRelease c => (.core, c)
  | .csPatrol _ => (.device, 0)
  | .halt c => (.core, c)
  | .resume c => (.core, c)
  | .step c => (.core, c)
  | .sequenceComplete k => (.session, k)
  | .coreDispatch c => (.core, c)
  | .cswAddrWrite _ => (.device, 0)
  | .cswData0Read => (.device, 0)
  | .cswData5Read => (.device, 0)
  | .jumpRequest _ => (.device, 0)
  | .shadowStaged u _ => (.player, u)
  | .fwProgramLoaded g => (.generator, g)
  | .fwScrDataWrite g _ => (.generator, g)
  | .pageTableWalkDone k _ _ => (.session, k)
  | .pageFillComplete k _ _ _ => (.session, k)
  | .fillTimeout k _ => (.session, k)
  | .refillReadComplete u _ _ _ => (.player, u)
  | .vsInvTlb k => (.session, k)
  | .vsInvPages k => (.session, k)
  | .triggerArm u => (.trigger, u)
  | .triggerStop u => (.trigger, u)
  | .triggerForce u => (.trigger, u)
  | .armEvent u => (.trigger, u)
  | .triggerFire u => (.trigger, u)
  | .preTriggerFull u => (.trigger, u)
  | .postTriggerEnd u => (.trigger, u)
  | .failUnitTimeout k => (.session, k)
  | .gleanerWriteDone k _ _ => (.session, k)
  | .maskWindowJudge m => (.maskTest, m)
  | .strayJudge m => (.maskTest, m)
  | .stampEdge i _ _ => (.input, i)
  | .stampLineFlush k => (.session, k)
  | .muGateOpen u => (.measure, u)
  | .muGateClose u => (.measure, u)
  | .aoSlewMove o => (.output, o)
  | .aoDetectorSet o _ => (.output, o)
  | .aoDetectorClear o _ => (.output, o)
  | .aoMonUpdate o _ _ => (.output, o)
  | .aoRangeEnable o => (.output, o)
  | .aoTblDataWrite o _ => (.output, o)
  | .hrSwSet _ _ => (.device, 0)
  | .hrSwClr _ => (.device, 0)
  | .hrSwPulse _ => (.device, 0)
  | .eventEdgeSampled ev _ _ => (.event, ev)
  | .ringHoldoffEnd k _ => (.session, k)
  | .sedgeFilterSettle c => (.cell, c)
  | .cgOnEdge g => (.group, g)
  | .cgOffEdge g => (.group, g)
  | .calCmd _ => (.device, 0)
  | .calIntervalExpiry u => (.calUnit, u)
  | .tempReading _ => (.device, 0)
  | .calRunStart => (.device, 0)
  | .calAttemptEnd _ _ => (.device, 0)
  | .teardown k => (.session, k)
  | .teardownScrub k => (.session, k)
  | .teardownDone k => (.session, k)
  | .sessionAbort k => (.session, k)
  | .shotStart k => (.session, k)
  | .shotTriggerTimeout k => (.session, k)
  | .shotSequenceStart k => (.session, k)
  | .shotTallyClose k => (.session, k)
  | .nop k => (.session, k)
  | .regWrite k _ => (.session, k)
  | .regRead k _ => (.session, k)
  | .commit k => (.session, k)
  | .loadImage k _ => (.session, k)
  | .writeSegments k _ => (.session, k)
  | .tableLoad k _ => (.session, k)
  | .dmaWrite k _ => (.session, k)
  | .dmaRead k _ => (.session, k)
  | .invalidate k => (.session, k)
  | .start k => (.session, k)
  | .shot k => (.session, k)
  | .abort k => (.session, k)
  | .dbCmdTail k _ => (.session, k)
  | .descriptorReadDone k _ => (.session, k)
  | .descriptorReadTimeout k _ => (.session, k)
  | .dbGo k _ => (.session, k)
  | .dbHead k _ _ _ => (.session, k)
  | .dbDataHead k _ _ => (.session, k)
  | .ringEnable k _ _ => (.session, k)
  | .ringDisable k _ _ => (.session, k)
  | .dataAreaEnable k _ => (.session, k)
  | .forwardPieceTimer k _ => (.session, k)
  | .interruptModTime k _ => (.session, k)
  | .functionLevelReset k => (.session, k)
  | .d3hotEntry k => (.session, k)
  | .vfEnableClear => (.device, 0)
  | .idle _ _ _ => (.device, 0)
  | .init _ _ => (.device, 0)
  | .state _ => (.device, 0)
  | .lane _ _ => (.device, 0)
  | .regWr _ _ => (.device, 0)
  | .regRd _ => (.device, 0)
  | .regRsp _ => (.device, 0)
  | .cmd k _ _ _ => (.session, k)
  | .go k _ => (.session, k)
  | .credit k _ _ _ _ => (.session, k)
  | .hostRdReq k _ _ => (.session, k)
  | .hostRdData k _ _ => (.session, k)
  | .hostWr k _ _ _ => (.session, k)
  | .ringPost k _ _ _ _ => (.session, k)
  | .fieldReset => (.device, 0)
  | .stileFrameCrcFail _ => (.device, 0)
  | .stileLaneFail _ _ => (.device, 0)
  | .f2hSignalLoss => (.device, 0)
  | .linkFaultInitRetry => (.device, 0)
  | .fieldStileLoss => (.device, 0)
  | .orphanTimeout => (.device, 0)
  | .stCtrlFieldReset => (.device, 0)
  | .discover p _ => (.port, p)
  | .report _ _ _ => (.device, 0)
  | .assign _ _ _ _ => (.device, 0)
  | .align p _ _ _ _ _ _ => (.port, p)
  | .epoch p _ _ => (.port, p)
  | .raccWr _ _ _ _ _ => (.device, 0)
  | .raccRd _ _ _ _ => (.device, 0)
  | .raccRsp p _ _ => (.port, p)
  | .evcfg _ _ _ => (.device, 0)
  | .eventRecord p _ _ _ => (.port, p)
  | .crateEventRelease => (.device, 0)
  | .crateEventApply => (.device, 0)
  | .tlFlitCrcFail f => (.port, f.port)
  | .tlTrainingDone p _ => (.port, p)
  | .tlLaneFail p _ => (.port, p)
  | .tlDiscStart => (.device, 0)
  | .discoveryDone _ => (.device, 0)
  | .tlAlignStart => (.device, 0)
  | .alignExchangeTimer p => (.port, p)
  | .alignSlewDone _ => (.device, 0)
  | .tlRaccGo _ => (.device, 0)
  | .raccTimeout => (.device, 0)
  | .fabricMessage p _ _ => (.port, p)
  | .ddrPatrolRead _ _ => (.device, 0)
  | .supply _ => (.device, 0)
  | .supplyAo => (.device, 0)
  | .tgSelfCheck n _ _ => (.slice, n)
  | .fltCoreOffline c => (.core, c)
  | .fltCoreOnline c => (.core, c)
  | .injectionArm _ => (.device, 0)
  | .injectionCancel => (.device, 0)
  | .injectionDurationEnd => (.device, 0)
  | .csStageSet k => (.session, k)
  | .csStageClear k => (.session, k)
  | .csSwapGo k => (.session, k)
  | .hostPowerOn => (.device, 0)
  | .hostConventionalReset => (.device, 0)
  | .fieldPowerOn => (.device, 0)
  | .fresetN => (.device, 0)
  | .fieldSupplyLoss => (.device, 0)
  | .fieldBoot _ _ => (.device, 0)
  | .ddrTrainingDone _ _ => (.device, 0)
  | .nvmFLoad => (.device, 0)
  | .nvmFProgram => (.device, 0)
  | .storeCal => (.device, 0)
  | .nvmHLoad => (.device, 0)
  | .nvmHProgram => (.device, 0)
  | .nvmWriteDone _ => (.device, 0)
  | .stileSignalPresent => (.device, 0)
  | .tlPeerSignal p => (.port, p)
  | .phaseAccumulatorAdd o => (.output, o)
  | .sedgeFlipFlopCapture c => (.cell, c)
  | .hostDataReadTimeout k _ => (.session, k)
  | .spiNorBootDone _ _ _ => (.device, 0)
  | .supplyBankReturn _ => (.device, 0)

end Sys2Proof
end

