-- ==== Sys2Proof/Laws/PerInstr.lean ====
section
/-! SUPPORT. Facts about commands as syntax, one lemma per constructor: a command names a unit that the device has. -/

namespace Sys2Proof.Laws.Unit

/-- The unit that a command names is one of those the device has. -/
def Statement (c : Instr) : Prop := c.unit.2 < c.unit.1.count

theorem bar0Write (page : Option (Fin 16)) (off : Fin 1048576) (v : Word) : Statement (.bar0Write page off v) := Nat.zero_lt_one
theorem bar0BadSizeAccess (at_ : Place) (write : Bool) (be : Fin 16) : Statement (.bar0BadSizeAccess at_ write be) := Nat.zero_lt_one
theorem pairLoRead (page : Option (Fin 16)) (off : Fin 1048576) : Statement (.pairLoRead page off) := Nat.zero_lt_one
theorem pairHiRead (page : Option (Fin 16)) (off : Fin 1048576) : Statement (.pairHiRead page off) := Nat.zero_lt_one
theorem pairLoWrite (page : Option (Fin 16)) (off : Fin 1048576) (v : Word) : Statement (.pairLoWrite page off v) := Nat.zero_lt_one
theorem pairHiWrite (page : Option (Fin 16)) (off : Fin 1048576) (v : Word) : Statement (.pairHiWrite page off v) := Nat.zero_lt_one
theorem rcFieldRead (page : Option (Fin 16)) (off : Fin 1048576) : Statement (.rcFieldRead page off) := Nat.zero_lt_one
theorem sysCommitGo (scope : Fin 16) (target : Fin 256) : Statement (.sysCommitGo scope target) := Nat.zero_lt_one
theorem commitPinningDone (pages : List (Nat × List Byte)) (failed : List (Nat × Nat)) :
    Statement (.commitPinningDone pages failed) := Nat.zero_lt_one
theorem handshakeWatchdog (u : Fin 8) : Statement (.handshakeWatchdog u) := Nat.zero_lt_one
theorem refLost (word : Nat) : Statement (.refLost word) := Nat.zero_lt_one
theorem rangeWindowEnd (present : Bool) (throughout : Bool) (count : Nat) (word : Nat) :
    Statement (.rangeWindowEnd present throughout count word) := Nat.zero_lt_one
theorem refQualified (phase : Int) : Statement (.refQualified phase) := Nat.zero_lt_one
theorem pllLockDeclared (phase : Int) : Statement (.pllLockDeclared phase) := Nat.zero_lt_one
theorem lockTrip (word : Nat) : Statement (.lockTrip word) := Nat.zero_lt_one
theorem lockTripCompare (diffPpm : Nat) : Statement (.lockTripCompare diffPpm) := Nat.zero_lt_one
theorem recoverDone : Statement Instr.recoverDone := Nat.zero_lt_one
theorem holdLimitExceeded : Statement Instr.holdLimitExceeded := Nat.zero_lt_one
theorem syncPulse : Statement Instr.syncPulse := Nat.zero_lt_one
theorem epochInstant : Statement Instr.epochInstant := Nat.zero_lt_one
theorem tbc48Wrap : Statement Instr.tbc48Wrap := Nat.zero_lt_one
theorem tbcWrap : Statement Instr.tbcWrap := Nat.zero_lt_one
theorem relock : Statement Instr.relock := Nat.zero_lt_one
theorem emit : Statement Instr.emit := Nat.zero_lt_one
theorem syncoutPeriodic : Statement Instr.syncoutPeriodic := Nat.zero_lt_one
theorem slicePeriodStart (n : Fin 12) (t : Nat) (balls : List BallVolts) : Statement (.slicePeriodStart n t balls) := n.isLt
theorem unitStartFromIdle (u : Fin 28) : Statement (.unitStartFromIdle u) := u.isLt
theorem aoSampleSlotStart (o : Fin 16) : Statement (.aoSampleSlotStart o) := o.isLt
theorem reflexAssert (c : Fin 64) : Statement (.reflexAssert c) := c.isLt
theorem reflexDeassert (c : Fin 64) : Statement (.reflexDeassert c) := c.isLt
theorem modeChangeHizEnd (n : Fin 12) (l : Fin 8) : Statement (.modeChangeHizEnd n l) := n.isLt
theorem supplyBank (m : BankReading) : Statement (.supplyBank m) := Nat.zero_lt_one
theorem spareForce (n : Fin 12) (l : Fin 8) : Statement (.spareForce n l) := n.isLt
theorem spareRestore (n : Fin 12) (l : Fin 8) (err : Int) : Statement (.spareRestore n l err) := n.isLt
theorem spareTg8Connected (n : Fin 12) : Statement (.spareTg8Connected n) := n.isLt
theorem spareTrimsSettled (n : Fin 12) : Statement (.spareTrimsSettled n) := n.isLt
theorem spareLoopbackCheck (n : Fin 12) (pass : Bool) : Statement (.spareLoopbackCheck n pass) := n.isLt
theorem spareTakeover (n : Fin 12) : Statement (.spareTakeover n) := n.isLt
theorem microwordComplete (c : Fin 4) : Statement (.microwordComplete c) := c.isLt
theorem conditionTrue (c : Fin 4) : Statement (.conditionTrue c) := c.isLt
theorem waitTimeout (c : Fin 4) : Statement (.waitTimeout c) := c.isLt
theorem stallRelease (c : Fin 4) : Statement (.stallRelease c) := c.isLt
theorem csPatrol (a : Fin 16384) : Statement (.csPatrol a) := Nat.zero_lt_one
theorem halt (c : Fin 4) : Statement (.halt c) := c.isLt
theorem resume (c : Fin 4) : Statement (.resume c) := c.isLt
theorem step (c : Fin 4) : Statement (.step c) := c.isLt
theorem sequenceComplete (k : Fin 16) : Statement (.sequenceComplete k) := k.isLt
theorem coreDispatch (c : Fin 4) : Statement (.coreDispatch c) := c.isLt
theorem cswAddrWrite (v : Word) : Statement (.cswAddrWrite v) := Nat.zero_lt_one
theorem cswData0Read : Statement Instr.cswData0Read := Nat.zero_lt_one
theorem cswData5Read : Statement Instr.cswData5Read := Nat.zero_lt_one
theorem jumpRequest (lines : Nat) : Statement (.jumpRequest lines) := Nat.zero_lt_one
theorem shadowStaged (u : Fin 28) (which : Bool) : Statement (.shadowStaged u which) := u.isLt
theorem fwProgramLoaded (g : Fin 4) : Statement (.fwProgramLoaded g) := g.isLt
theorem fwScrDataWrite (g : Fin 4) (v : Word) : Statement (.fwScrDataWrite g v) := g.isLt
theorem pageTableWalkDone (k : Fin 16) (page : Nat) (ecc : Nat) : Statement (.pageTableWalkDone k page ecc) := k.isLt
theorem pageFillComplete (k : Fin 16) (page : Nat) (err : Bool) (data : List Byte) : Statement (.pageFillComplete k page err data) := k.isLt
theorem fillTimeout (k : Fin 16) (page : Nat) : Statement (.fillTimeout k page) := k.isLt
theorem refillReadComplete (u : Fin 28) (which : Fin 3) (count : Nat) (ecc : Nat) : Statement (.refillReadComplete u which count ecc) := u.isLt
theorem vsInvTlb (k : Fin 16) : Statement (.vsInvTlb k) := k.isLt
theorem vsInvPages (k : Fin 16) : Statement (.vsInvPages k) := k.isLt
theorem triggerArm (u : Fin 8) : Statement (.triggerArm u) := u.isLt
theorem triggerStop (u : Fin 8) : Statement (.triggerStop u) := u.isLt
theorem triggerForce (u : Fin 8) : Statement (.triggerForce u) := u.isLt
theorem armEvent (u : Fin 8) : Statement (.armEvent u) := u.isLt
theorem triggerFire (u : Fin 8) : Statement (.triggerFire u) := u.isLt
theorem preTriggerFull (u : Fin 8) : Statement (.preTriggerFull u) := u.isLt
theorem postTriggerEnd (u : Fin 8) : Statement (.postTriggerEnd u) := u.isLt
theorem failUnitTimeout (k : Fin 16) : Statement (.failUnitTimeout k) := k.isLt
theorem gleanerWriteDone (k : Fin 16) (r : Fin 3) (src : Fin 128) : Statement (.gleanerWriteDone k r src) := k.isLt
theorem maskWindowJudge (m : Fin 16) : Statement (.maskWindowJudge m) := m.isLt
theorem strayJudge (m : Fin 16) : Statement (.strayJudge m) := m.isLt
theorem stampEdge (i : Fin 112) (t : Nat) (v : BallVolts) : Statement (.stampEdge i t v) := i.isLt
theorem stampLineFlush (k : Fin 16) : Statement (.stampLineFlush k) := k.isLt
theorem muGateOpen (u : Fin 16) : Statement (.muGateOpen u) := u.isLt
theorem muGateClose (u : Fin 16) : Statement (.muGateClose u) := u.isLt
theorem aoSlewMove (o : Fin 16) : Statement (.aoSlewMove o) := o.isLt
theorem aoDetectorSet (o : Fin 16) (open_ : Bool) : Statement (.aoDetectorSet o open_) := o.isLt
theorem aoDetectorClear (o : Fin 16) (open_ : Bool) : Statement (.aoDetectorClear o open_) := o.isLt
theorem aoMonUpdate (o : Fin 16) (forceV : Int) (loadI : Int) : Statement (.aoMonUpdate o forceV loadI) := o.isLt
theorem aoRangeEnable (o : Fin 16) : Statement (.aoRangeEnable o) := o.isLt
theorem aoTblDataWrite (o : Fin 16) (v : Word) : Statement (.aoTblDataWrite o v) := o.isLt
theorem hrSwSet (mask : Nat) (clr : Nat) : Statement (.hrSwSet mask clr) := Nat.zero_lt_one
theorem hrSwClr (mask : Nat) : Statement (.hrSwClr mask) := Nat.zero_lt_one
theorem hrSwPulse (mask : Nat) : Statement (.hrSwPulse mask) := Nat.zero_lt_one
theorem eventEdgeSampled (ev : Fin 256) (acts : Nat) (rose : Bool) : Statement (.eventEdgeSampled ev acts rose) := ev.isLt
theorem ringHoldoffEnd (k : Fin 16) (ev : Fin 256) : Statement (.ringHoldoffEnd k ev) := k.isLt
theorem sedgeFilterSettle (c : Fin 64) : Statement (.sedgeFilterSettle c) := c.isLt
theorem cgOnEdge (g : Fin 16) : Statement (.cgOnEdge g) := g.isLt
theorem cgOffEdge (g : Fin 16) : Statement (.cgOffEdge g) := g.isLt
theorem calCmd (u : Fin 64) : Statement (.calCmd u) := Nat.zero_lt_one
theorem calIntervalExpiry (u : Fin 36) : Statement (.calIntervalExpiry u) := u.isLt
theorem tempReading (t : Int) : Statement (.tempReading t) := Nat.zero_lt_one
theorem calRunStart : Statement Instr.calRunStart := Nat.zero_lt_one
theorem calAttemptEnd (m : TrimSets) (quals : List Nat) : Statement (.calAttemptEnd m quals) := Nat.zero_lt_one
theorem teardown (k : Fin 16) : Statement (.teardown k) := k.isLt
theorem teardownScrub (k : Fin 16) : Statement (.teardownScrub k) := k.isLt
theorem teardownDone (k : Fin 16) : Statement (.teardownDone k) := k.isLt
theorem sessionAbort (k : Fin 16) : Statement (.sessionAbort k) := k.isLt
theorem shotStart (k : Fin 16) : Statement (.shotStart k) := k.isLt
theorem shotTriggerTimeout (k : Fin 16) : Statement (.shotTriggerTimeout k) := k.isLt
theorem shotSequenceStart (k : Fin 16) : Statement (.shotSequenceStart k) := k.isLt
theorem shotTallyClose (k : Fin 16) : Statement (.shotTallyClose k) := k.isLt
theorem nop (k : Fin 16) : Statement (.nop k) := k.isLt
theorem regWrite (k : Fin 16) (data : List Byte) : Statement (.regWrite k data) := k.isLt
theorem regRead (k : Fin 16) (data : List Byte) : Statement (.regRead k data) := k.isLt
theorem commit (k : Fin 16) : Statement (.commit k) := k.isLt
theorem loadImage (k : Fin 16) (image : List Byte) : Statement (.loadImage k image) := k.isLt
theorem writeSegments (k : Fin 16) (data : List Byte) : Statement (.writeSegments k data) := k.isLt
theorem tableLoad (k : Fin 16) (data : List Byte) : Statement (.tableLoad k data) := k.isLt
theorem dmaWrite (k : Fin 16) (data : List Byte) : Statement (.dmaWrite k data) := k.isLt
theorem dmaRead (k : Fin 16) (ecc : Fin 3) : Statement (.dmaRead k ecc) := k.isLt
theorem invalidate (k : Fin 16) : Statement (.invalidate k) := k.isLt
theorem start (k : Fin 16) : Statement (.start k) := k.isLt
theorem shot (k : Fin 16) : Statement (.shot k) := k.isLt
theorem abort (k : Fin 16) : Statement (.abort k) := k.isLt
theorem dbCmdTail (k : Fin 16) (idx : Fin 65536) : Statement (.dbCmdTail k idx) := k.isLt
theorem descriptorReadDone (k : Fin 16) (bytes : List Byte) : Statement (.descriptorReadDone k bytes) := k.isLt
theorem descriptorReadTimeout (k : Fin 16) (bad : Bool) : Statement (.descriptorReadTimeout k bad) := k.isLt
theorem dbGo (k : Fin 16) (tag : Fin 65536) : Statement (.dbGo k tag) := k.isLt
theorem dbHead (k : Fin 16) (r : Fin 3) (idx : Fin 65536) (rearm : Bool) : Statement (.dbHead k r idx rearm) := k.isLt
theorem dbDataHead (k : Fin 16) (head : Fin 1073741824) (lap : Bool) : Statement (.dbDataHead k head lap) := k.isLt
theorem ringEnable (k : Fin 16) (r : Fin 4) (v : Word) : Statement (.ringEnable k r v) := k.isLt
theorem ringDisable (k : Fin 16) (r : Fin 4) (v : Word) : Statement (.ringDisable k r v) := k.isLt
theorem dataAreaEnable (k : Fin 16) (v : Word) : Statement (.dataAreaEnable k v) := k.isLt
theorem forwardPieceTimer (k : Fin 16) (r : Fin 3) : Statement (.forwardPieceTimer k r) := k.isLt
theorem interruptModTime (k : Fin 16) (r : Fin 3) : Statement (.interruptModTime k r) := k.isLt
theorem functionLevelReset (k : Fin 16) : Statement (.functionLevelReset k) := k.isLt
theorem d3hotEntry (k : Fin 16) : Statement (.d3hotEntry k) := k.isLt
theorem vfEnableClear : Statement Instr.vfEnableClear := Nat.zero_lt_one
theorem idle (toHost : Bool) (how : HeaderCase) (ndata : Fin 25) : Statement (.idle toHost how ndata) := Nat.zero_lt_one
theorem init (toHost : Bool) (hostReset : Bool) : Statement (.init toHost hostReset) := Nat.zero_lt_one
theorem state (v : Fin 256) : Statement (.state v) := Nat.zero_lt_one
theorem lane (toHost : Bool) (lane : Fin 8) : Statement (.lane toHost lane) := Nat.zero_lt_one
theorem regWr (off : Fin 1048576) (v : Word) : Statement (.regWr off v) := Nat.zero_lt_one
theorem regRd (off : Fin 1048576) : Statement (.regRd off) := Nat.zero_lt_one
theorem regRsp (v : Word) : Statement (.regRsp v) := Nat.zero_lt_one
theorem cmd (k : Fin 16) (tag : Fin 65536) (epoch : Fin 16) (bytes : List Byte) : Statement (.cmd k tag epoch bytes) := k.isLt
theorem go (k : Fin 16) (inst : Fin 65536 × Fin 16) : Statement (.go k inst) := k.isLt
theorem credit (k : Fin 16) (completion : Nat) (capture : Nat) (event : Nat) (data : Nat) :
    Statement (.credit k completion capture event data) := k.isLt
theorem hostRdReq (k : Fin 16) (inst : Option (Fin 65536 × Fin 16)) (r : HostRange) : Statement (.hostRdReq k inst r) := k.isLt
theorem hostRdData (k : Fin 16) (inst : Option (Fin 65536 × Fin 16)) (data : List Byte) : Statement (.hostRdData k inst data) := k.isLt
theorem hostWr (k : Fin 16) (inst : Option (Fin 65536 × Fin 16)) (addr : Nat) (data : List Byte) : Statement (.hostWr k inst addr data) := k.isLt
theorem ringPost (k : Fin 16) (r : Fin 3) (inst : Option (Fin 65536 × Fin 16)) (entry : List Byte) (intr : Bool) :
    Statement (.ringPost k r inst entry intr) := k.isLt
theorem fieldReset : Statement Instr.fieldReset := Nat.zero_lt_one
theorem stileFrameCrcFail (toHost : Bool) : Statement (.stileFrameCrcFail toHost) := Nat.zero_lt_one
theorem stileLaneFail (toHost : Bool) (lane : Fin 9) : Statement (.stileLaneFail toHost lane) := Nat.zero_lt_one
theorem f2hSignalLoss : Statement Instr.f2hSignalLoss := Nat.zero_lt_one
theorem linkFaultInitRetry : Statement Instr.linkFaultInitRetry := Nat.zero_lt_one
theorem fieldStileLoss : Statement Instr.fieldStileLoss := Nat.zero_lt_one
theorem orphanTimeout : Statement Instr.orphanTimeout := Nat.zero_lt_one
theorem stCtrlFieldReset : Statement Instr.stCtrlFieldReset := Nat.zero_lt_one
theorem discover (p : Fin 4) (hop : Nat) : Statement (.discover p hop) := p.isLt
theorem report (path : List Nat) (role : Nat) (serial : Nat) : Statement (.report path role serial) := Nat.zero_lt_one
theorem assign (dev : Fin 32) (crate : Fin 16) (cluster : Fin 8) (via : Option (Fin 4)) :
    Statement (.assign dev crate cluster via) := Nat.zero_lt_one
theorem align (p : Fin 4) (t1 : Option Int) (t2 : Option Int) (t3 : Option Int) (t4 : Option Int) (asked : Bool) (up : Bool) :
    Statement (.align p t1 t2 t3 t4 asked up) := p.isLt
theorem epoch (p : Fin 4) (offset : Nat) (ago : Nat) : Statement (.epoch p offset ago) := p.isLt
theorem raccWr (via : Option (Fin 4)) (crate : Fin 16) (dev : Fin 32) (off : Fin 1048576) (v : Word) :
    Statement (.raccWr via crate dev off v) := Nat.zero_lt_one
theorem raccRd (via : Option (Fin 4)) (crate : Fin 16) (dev : Fin 32) (off : Fin 1048576) : Statement (.raccRd via crate dev off) := Nat.zero_lt_one
theorem raccRsp (p : Fin 4) (value : Word) (ans : RaccAnswer) : Statement (.raccRsp p value ans) := p.isLt
theorem evcfg (crate : Fin 65536) (cluster : Fin 65536) (scope : Fin 256) : Statement (.evcfg crate cluster scope) := Nat.zero_lt_one
theorem eventRecord (p : Fin 4) (cycle : Fin 65536) (line : Fin 8) (level : Bool) : Statement (.eventRecord p cycle line level) := p.isLt
theorem crateEventRelease : Statement Instr.crateEventRelease := Nat.zero_lt_one
theorem crateEventApply : Statement Instr.crateEventApply := Nat.zero_lt_one
theorem tlFlitCrcFail (f : FlitFail) : Statement (.tlFlitCrcFail f) := f.port.isLt
theorem tlTrainingDone (p : Fin 4) (lanes : Fin 3) : Statement (.tlTrainingDone p lanes) := p.isLt
theorem tlLaneFail (p : Fin 4) (lane : Fin 2) : Statement (.tlLaneFail p lane) := p.isLt
theorem tlDiscStart : Statement Instr.tlDiscStart := Nat.zero_lt_one
theorem discoveryDone (depth : Fin 9) : Statement (.discoveryDone depth) := Nat.zero_lt_one
theorem tlAlignStart : Statement Instr.tlAlignStart := Nat.zero_lt_one
theorem alignExchangeTimer (p : Fin 4) : Statement (.alignExchangeTimer p) := p.isLt
theorem alignSlewDone (residual : Int) : Statement (.alignSlewDone residual) := Nat.zero_lt_one
theorem tlRaccGo (v : Word) : Statement (.tlRaccGo v) := Nat.zero_lt_one
theorem raccTimeout : Statement Instr.raccTimeout := Nat.zero_lt_one
theorem fabricMessage (p : Fin 4) (node : Fin 65536) (body : FabBody) : Statement (.fabricMessage p node body) := p.isLt
theorem ddrPatrolRead (addr : Nat) (ecc : Fin 3) : Statement (.ddrPatrolRead addr ecc) := Nat.zero_lt_one
theorem supply (m : RailReading) : Statement (.supply m) := Nat.zero_lt_one
theorem supplyAo : Statement Instr.supplyAo := Nat.zero_lt_one
theorem tgSelfCheck (n : Fin 12) (g : Fin 9) (err : Int) : Statement (.tgSelfCheck n g err) := n.isLt
theorem fltCoreOffline (c : Fin 4) : Statement (.fltCoreOffline c) := c.isLt
theorem fltCoreOnline (c : Fin 4) : Statement (.fltCoreOnline c) := c.isLt
theorem injectionArm (n : Fin 65536) : Statement (.injectionArm n) := Nat.zero_lt_one
theorem injectionCancel : Statement Instr.injectionCancel := Nat.zero_lt_one
theorem injectionDurationEnd : Statement Instr.injectionDurationEnd := Nat.zero_lt_one
theorem csStageSet (k : Fin 16) : Statement (.csStageSet k) := k.isLt
theorem csStageClear (k : Fin 16) : Statement (.csStageClear k) := k.isLt
theorem csSwapGo (k : Fin 16) : Statement (.csSwapGo k) := k.isLt
theorem hostPowerOn : Statement Instr.hostPowerOn := Nat.zero_lt_one
theorem hostConventionalReset : Statement Instr.hostConventionalReset := Nat.zero_lt_one
theorem fieldPowerOn : Statement Instr.fieldPowerOn := Nat.zero_lt_one
theorem fresetN : Statement Instr.fresetN := Nat.zero_lt_one
theorem fieldSupplyLoss : Statement Instr.fieldSupplyLoss := Nat.zero_lt_one
theorem fieldBoot (mvA : Nat) (mvB : Nat) : Statement (.fieldBoot mvA mvB) := Nat.zero_lt_one
theorem ddrTrainingDone (ok : Bool) (mib : Fin 131072) : Statement (.ddrTrainingDone ok mib) := Nat.zero_lt_one
theorem nvmFLoad : Statement Instr.nvmFLoad := Nat.zero_lt_one
theorem nvmFProgram : Statement Instr.nvmFProgram := Nat.zero_lt_one
theorem storeCal : Statement Instr.storeCal := Nat.zero_lt_one
theorem nvmHLoad : Statement Instr.nvmHLoad := Nat.zero_lt_one
theorem nvmHProgram : Statement Instr.nvmHProgram := Nat.zero_lt_one
theorem nvmWriteDone (host : Bool) : Statement (.nvmWriteDone host) := Nat.zero_lt_one
theorem stileSignalPresent : Statement Instr.stileSignalPresent := Nat.zero_lt_one
theorem tlPeerSignal (p : Fin 4) : Statement (.tlPeerSignal p) := p.isLt
theorem phaseAccumulatorAdd (o : Fin 16) : Statement (.phaseAccumulatorAdd o) := o.isLt
theorem sedgeFlipFlopCapture (c : Fin 64) : Statement (.sedgeFlipFlopCapture c) := c.isLt
theorem hostDataReadTimeout (k : Fin 16) (bad : Bool) : Statement (.hostDataReadTimeout k bad) := k.isLt
theorem spiNorBootDone (header : List Byte) (image : List Byte) (script : List Byte) :
    Statement (.spiNorBootDone header image script) := Nat.zero_lt_one
theorem supplyBankReturn (m : BankReading) : Statement (.supplyBankReturn m) := Nat.zero_lt_one

end Sys2Proof.Laws.Unit
end

