-- ==== Sys2Proof/Tests/Slice0.lean ====
section
/-! SUPPORT. The author's own tests: ill-formed commands that the checks refuse, a few worked examples of the spec, and for every statement a state
and operands that meet its hypotheses. -/

open Sys2Proof Sys2Proof.Machine

namespace Sys2Proof.Tests

/-- The machine with both sides up and the time base locked. -/
def upState : State :=
  let s := (State.reset.set F.ST_STATUS_FIELD [] 3).set F.TB_STATUS_STATE [] 2
  s.modStile (fun x => { x with fieldRuns := true, nvmRead := true })

/-- `upState` with ring `r` of session `k` enabled: 16 entries from bus address 4096 × (r + 1). -/
def withRing (k : Fin 16) (r : Fin 4) (s : State) : State :=
  ((s.set F.RING_ENTRIES_ENTRIES [k, r] 16).set F.RING_BASE_LO_BASE [k, r] (4096 * (r + 1))).set F.RING_CTL_ENABLE [k, r] 1

/-- A 64-byte descriptor: opcode, flags, PARAM, ADDR and the first 16 bytes of BODY. -/
def desc (op flags param addr b0 b1 : Nat) : List Byte :=
  leBytes 1 op ++ (leBytes 1 flags ++ (leBytes 2 7 ++ (leBytes 4 param ++ (leBytes 8 addr ++ (leBytes 8 b0 ++ (leBytes 8 b1 ++ leBytes 32 0))))))

/-- `upState` with session 1's command and completion rings enabled and one command, tag 7 at epoch 3, at the head of its queue. -/
def cmdState (b : List Byte) : State :=
  (withRing 1 0 (withRing 1 1 upState)).modHost 1 (fun h => { h with
    queue := [⟨7, 3, b⟩], live := [⟨7, 3, cmdOp b, false, false, false, 0, 0⟩], opcodes := [(115, cmdOp b)], epochs := [(7, 3)] })

/-- Set a field of the active copy. -/
def setAct (s : State) (f : Fld) (ix : List Nat) (v : Nat) : State :=
  s.putActive (f.reg.key ix) (BitVec.ofNat 32 (putBits (s.activeK (f.reg.key ix)).toNat f.lsb f.width v))

/-- Session 1 owns slice 0, Furrow generator 0, trigger unit 0, output 0, measurement unit 0, mask test 0 and TRIG0. -/
def owned (s : State) : State :=
  setAct (setAct (setAct (setAct (setAct (setAct (setAct s F.RM_OWN_UNITS_SLICES [1] 1) F.RM_OWN_UNITS_FW [1] 1) F.RM_OWN_UNITS_TG [1] 1)
    F.RM_OWN_IO_AO [1] 1) F.RM_OWN_IO_TRIGIN [1] 1) F.RM_OWN_MEAS_MU [1] 1) F.RM_OWN_MEAS_MT [1] 1

/-- Session 1 has 2 MiB of field memory from physical address 1 MiB. -/
def withView (s : State) : State := setAct (setAct s F.RM_MEM_BASE_BASE [1] 1) F.RM_MEM_SIZE_SIZE [1] 2

/-- An image without sections: header fields, then its CRC. -/
def tinyImage : List Byte :=
  let h := leBytes 4 0x53434E4B ++ (leBytes 2 1 ++ (leBytes 2 64 ++ (leBytes 4 0 ++ leBytes 4 64)))
  h ++ (leBytes 4 (crc32 (h ++ leBytes 48 0)) ++ leBytes 44 0)

/-- A SHOT descriptor: entry 5, three shots, a result block of 256 bytes at 0x8000. -/
def shotDesc : List Byte :=
  leBytes 1 0x0B ++ (leBytes 15 0x70000 ++ (leBytes 8 5 ++ (leBytes 8 3 ++ (leBytes 16 0 ++ (leBytes 8 0x8000 ++ leBytes 8 256)))))

/-- `upState` with core 0 in a state, for session 1, at the word `w` of address 9, in a region that session 1 owns. -/
def coreState (st : CoreSt) (w : Nat) : State :=
  let s := (setAct upState F.RM_OWN_CS_REGIONS [1] 1).modCore 0 (fun r => { r with st := st, sess := 1, ctx := { resetCtx with pc := 9 } })
  { s with cs := ⟨[(9, ⟨1, w, Vector.replicate 3 .clean⟩)], none⟩ }

/-- A microword: NEXT, MODE, and further bits. -/
def mword (next mode more : Nat) : Nat := next + mode * 2 ^ 14 + more

/-- Session 1's Gleaner region `r`: 16 units of 64 bytes from view address 0. -/
def withRegion (r : Fin 3) (s : State) : State := setAct s F.GL_RGN_SIZE_SIZE [1, r] 16

/-- A capture of slice-less samples with its block at view address 64. -/
def capture0 : Capture := ⟨0, 0, 5, 0, 0, 0, 0, 0, 2, 0, false, 0, some 64, false, false⟩

/-- A stored segment of eight vectors or samples, two loops, with no shadow. -/
def seg0 : Seg := ⟨3, 0, 0, true, false, 0, 0, 0, 0, 0, 8, 2, 0, none, none, 0, 0, 1, 0⟩

/-- `seg0` in play from tick 0, three vectors started, its slot ending at tick 20480. -/
def play0 : Play := { newPlay seg0 0 with next := 3, slotEnd := 20480 }

/-- Session 1's sequence runs. -/
def withSeq (s : State) : State := s.modSess 1 (fun x => { x with seq := some ⟨5, false, false, 0, false, none, false, 0, 0⟩ })

/-- A boot header: session 1, no commit, image at 4096, no script. -/
def bootHeader : List Byte :=
  let h := leBytes 4 0x54424E4B ++ (leBytes 2 1 ++ (leBytes 1 1 ++ (leBytes 1 0 ++ (leBytes 4 4096 ++ (leBytes 4 8192 ++ leBytes 4 0)))))
  h ++ (leBytes 4 (crc32 (h ++ leBytes 12 0)) ++ leBytes 8 0)

/-- `upState` in a role of the Tabolyar, with TL0 and TL1 up. -/
def treeState (role : Nat) : State :=
  setAct (setAct (((upState.set F.TL_ROLE_ROLE [] role).set F.TL_PORT_STAT_STATE [0] 2).set F.TL_PORT_STAT_STATE [1] 2) F.TL_PORT_CFG_MODE [0] 1)
    F.TL_PORT_CFG_MODE [1] 1

/-- `treeState` of a numbered device. -/
def numberedState (role : Nat) : State := (treeState role).set F.TL_ROLE_NUMBERED [] 1

/-- A staging buffer of the field NVM: MAGIC and VERSION, every other byte 0. -/
def nvmStage : List Host.Cell := [(0, 0x4B), (1, 0x4E), (2, 0x4E), (3, 0x56), (4, 1)]

end Sys2Proof.Tests

namespace Sys2Proof.Tests

set_option Elab.async false

/-! ### Every check of `Instr.wf` and `FabBody.wf` refuses an ill-formed command -/

theorem test_wf_period_tick : (Instr.slicePeriodStart 0 (2 ^ 64) []).wf = false := by decide +kernel
theorem test_wf_period_balls : (Instr.slicePeriodStart 0 0 (List.replicate 9 ⟨0, 0⟩)).wf = false := by decide +kernel
theorem test_wf_period_volts : (Instr.slicePeriodStart 0 0 [⟨0, 2 ^ 31⟩]).wf = false := by decide +kernel
theorem test_wf_bank_voltage : (Instr.supplyBank ⟨false, 65536⟩).wf = false := by decide +kernel
theorem test_wf_bank_return : (Instr.supplyBankReturn ⟨true, 65536⟩).wf = false := by decide +kernel
theorem test_wf_jump_request : (Instr.jumpRequest 65536).wf = false := by decide +kernel
theorem test_wf_walk_page : (Instr.pageTableWalkDone 0 (2 ^ 32) 0).wf = false := by decide +kernel
theorem test_wf_walk_ecc : (Instr.pageTableWalkDone 0 0 3).wf = false := by decide +kernel
theorem test_wf_fill_page : (Instr.pageFillComplete 0 (2 ^ 32) true []).wf = false := by decide +kernel
theorem test_wf_fill_data : (Instr.pageFillComplete 0 0 false []).wf = false := by decide +kernel
theorem test_wf_fill_timeout : (Instr.fillTimeout 0 (2 ^ 32)).wf = false := by decide +kernel
theorem test_wf_refill_ecc : (Instr.refillReadComplete 0 0 0 3).wf = false := by decide +kernel
theorem test_wf_stamp : (Instr.stampEdge 0 (2 ^ 64) ⟨0, 0⟩).wf = false := by decide +kernel
theorem test_wf_stamp_p : (Instr.stampEdge 0 0 ⟨2 ^ 31, 0⟩).wf = false := by decide +kernel
theorem test_wf_stamp_n : (Instr.stampEdge 0 0 ⟨0, -2 ^ 31 - 1⟩).wf = false := by decide +kernel
theorem test_wf_monitor_force : (Instr.aoMonUpdate 0 32768 0).wf = false := by decide +kernel
theorem test_wf_monitor_load : (Instr.aoMonUpdate 0 0 (-32769)).wf = false := by decide +kernel
theorem test_wf_sw_set : (Instr.hrSwSet 256 0).wf = false := by decide +kernel
theorem test_wf_sw_set_clear : (Instr.hrSwSet 0 256).wf = false := by decide +kernel
theorem test_wf_sw_clear : (Instr.hrSwClr 256).wf = false := by decide +kernel
theorem test_wf_sw_pulse : (Instr.hrSwPulse 256).wf = false := by decide +kernel
theorem test_wf_calibration_quality : (Instr.calAttemptEnd ⟨[], []⟩ [65536]).wf = false := by decide +kernel
theorem test_wf_descriptor : (Instr.descriptorReadDone 0 []).wf = false := by decide +kernel
theorem test_wf_cmd : (Instr.cmd 0 0 0 []).wf = false := by decide +kernel
theorem test_wf_credit_completion : (Instr.credit 0 65536 0 0 0).wf = false := by decide +kernel
theorem test_wf_credit_capture : (Instr.credit 0 0 65536 0 0).wf = false := by decide +kernel
theorem test_wf_credit_event : (Instr.credit 0 0 0 65536 0).wf = false := by decide +kernel
theorem test_wf_credit_data : (Instr.credit 0 0 0 0 (2 ^ 30 + 1)).wf = false := by decide +kernel
theorem test_wf_host_read_address : (Instr.hostRdReq 0 none ⟨2 ^ 64, 1⟩).wf = false := by decide +kernel
theorem test_wf_host_read_none : (Instr.hostRdReq 0 none ⟨0, 0⟩).wf = false := by decide +kernel
theorem test_wf_host_read_length : (Instr.hostRdReq 0 none ⟨0, 2 ^ 32⟩).wf = false := by decide +kernel
theorem test_wf_host_data_none : (Instr.hostRdData 0 none []).wf = false := by decide +kernel
theorem test_wf_host_data_length : (Instr.hostRdData 0 none (List.replicate 769 0)).wf = false := by decide +kernel
theorem test_wf_host_write_address : (Instr.hostWr 0 none (2 ^ 64) [0]).wf = false := by decide +kernel
theorem test_wf_host_write_none : (Instr.hostWr 0 none 0 []).wf = false := by decide +kernel
theorem test_wf_host_write_length : (Instr.hostWr 0 none 0 (List.replicate 769 0)).wf = false := by decide +kernel
theorem test_wf_ring_post_none : (Instr.ringPost 0 0 none [] false).wf = false := by decide +kernel
theorem test_wf_ring_post_length : (Instr.ringPost 0 0 none (List.replicate 65 0) false).wf = false := by decide +kernel
theorem test_wf_discover : (Instr.discover 0 256).wf = false := by decide +kernel
theorem test_wf_report_path : (Instr.report [] 0 0).wf = false := by decide +kernel
theorem test_wf_report_port : (Instr.report [4] 0 0).wf = false := by decide +kernel
theorem test_wf_report_role : (Instr.report [0] 3 0).wf = false := by decide +kernel
theorem test_wf_report_serial : (Instr.report [0] 0 (2 ^ 64)).wf = false := by decide +kernel
theorem test_wf_epoch : (Instr.epoch 0 (2 ^ 32) 0).wf = false := by decide +kernel
theorem test_wf_epoch_ago : (Instr.epoch 0 0 (2 ^ 32)).wf = false := by decide +kernel
theorem test_wf_flit : (Instr.tlFlitCrcFail ⟨0, .nak 65536⟩).wf = false := by decide +kernel
theorem test_wf_supply : (Instr.supply ⟨0, 1001⟩).wf = false := by decide +kernel
theorem test_wf_supply_low : (Instr.supply ⟨2, -1001⟩).wf = false := by decide +kernel
theorem test_wf_field_boot_a : (Instr.fieldBoot 65536 0).wf = false := by decide +kernel
theorem test_wf_field_boot_b : (Instr.fieldBoot 0 65536).wf = false := by decide +kernel
theorem test_wf_boot_header : (Instr.spiNorBootDone [] [] []).wf = false := by decide +kernel
theorem test_wf_fabric_discover : (Instr.fabricMessage 0 0 (.discover 65536)).wf = false := by decide +kernel
theorem test_wf_fabric_node : (Instr.fabricMessage 0 0 (.node 65536)).wf = false := by decide +kernel
theorem test_wf_fabric_event : (Instr.fabricMessage 0 0 (.event 8 true)).wf = false := by decide +kernel
theorem test_wf_fabric_write_offset : (Instr.fabricMessage 0 0 (.regWr (2 ^ 20) 0)).wf = false := by decide +kernel
theorem test_wf_fabric_write_value : (Instr.fabricMessage 0 0 (.regWr 0 (2 ^ 32))).wf = false := by decide +kernel
theorem test_wf_fabric_read_node : (Instr.fabricMessage 0 0 (.regRd 65536 0)).wf = false := by decide +kernel
theorem test_wf_fabric_read_offset : (Instr.fabricMessage 0 0 (.regRd 0 (2 ^ 20))).wf = false := by decide +kernel
theorem test_wf_fabric_response : (Instr.fabricMessage 0 0 (.regRsp (2 ^ 32))).wf = false := by decide +kernel

/-! ### Worked examples of the spec -/

/-- No row of the table gives bits (spec/opcode_table.json). -/
theorem test_no_word_decodes : decodeTableWord 32 0x40 = none := rfl

/-- Chapter 0: the block of SL11 starts at 0x3_6000; EP_WALL_HDRM stands 0x100 into it. -/
theorem test_slice_block : Reg.key .EP_WALL_HDRM [11] = 0x36100 := by decide +kernel

/-- Chapter 3: an RZ lane with T_DATA = 0 and T_RET = 200 returns at 246, and counts a widened pulse. -/
theorem test_rz_return_is_widened : levelEdges ⟨1, false, 0, 0, 200, 0, 0⟩ true = ([(0, 1, true), (246, 2, false)], 0, 1) := by decide +kernel

/-- Chapter 3: an SBC lane with T_ON = 0, T_DATA = 512 and T_RET = 1,536 plays D1 as 0, 1, 0. -/
theorem test_sbc_levels :
    levelEdges ⟨3, false, 0, 512, 1536, 0, 0⟩ true = ([(0, 0, false), (512, 1, true), (1536, 2, false)], 0, 0) := by decide +kernel

/-- Chapter 4: CH_LVL = 0x00C8_0F38 on a CML lane judges at −100 mV and +100 mV. -/
theorem test_signed_thresholds :
    ((setAct State.reset F.CH_LANE_CFG_MODE [0, 0] 0).putActive (Reg.key .CH_LVL [0, 0]) 0x00C80F38).laneThs 0 0 = (-100000, 100000) := by decide +kernel

/-- Chapter 11: in the ±10 V span code 0xA_0000 is 2.5 V. -/
theorem test_code_value : codeValue 3 0xA0000 = 2500000 * 2 ^ 20 := by decide +kernel

/-- Chapter 17: the exchange 1,000,000, 1,078,843, 2,000,000, 2,078,443 gives a latency of 78,643 ticks and an offset of 200. -/
theorem test_align_exchange :
    (State.alignOffset 1000000 1078843 2000000 2078443, State.alignLatency 1000000 1078843 2000000 2078443) = (200, 78643) := by decide +kernel

/-- R415: the CRC of the payload 0, 1, … 31, computed by hand from the polynomial; CRC-16 with 0x8BB7 from 0 of the digits 1 to 9 is 0xD0DB. -/
theorem test_frame_crc : crc16 ((List.range 32).map (BitVec.ofNat 8)) = 9116 ∧
    ((List.range 9).map (fun i => BitVec.ofNat 8 (49 + i))).foldl (fun c (b : Byte) =>
      (List.range 8).foldl (fun c i => crc16Bit c (bitOf b.toNat (7 - i))) c) 0 = 0xD0DB := by decide +kernel

/-- R434: CRC-32 of IEEE 802.3 of the digits 1 to 9 is 0xCBF43926. -/
theorem test_flit_crc : crc32 ((List.range 9).map (fun i => BitVec.ofNat 8 (49 + i))) = 0xCBF43926 := by decide +kernel

/-- Chapter 8: vector 100,000 on SL5 with a plane stride of 0x100 pages lies at 0x1_0506_1A80. -/
theorem test_plane_address :
    (setAct State.reset F.VS_PLANE_STRIDE [1] 0x100).vecVa (.slice 5) { seg0 with va := 0x100000000 } 100000 = 0x105061A80 := by decide +kernel

/-- Chapter 17: at H = 3 and the reset MARGIN, D is 838 event cycles. -/
theorem test_event_delay : State.reset.delayOf 3 = 838 := by decide +kernel

/-- R68: an idle step of a powered field side is one MCLK period of 1,024 ticks. -/
theorem test_idle_step : (match step (State.reset.set F.TB_STATUS_REF_PRESENT [] 1) with | .next t => t.tb.tbc | _ => 0) = 1024 := by decide +kernel

/-- R23, R15: a write of HR_DV_CFG0 reads back its shadow copy. -/
theorem test_write_changes_shadow :
    (match step { upState with pending := [.bar0Write none 0x60040 5] } with | .next t => t.shadowK 0x60040 | _ => 0) = 5 := by decide +kernel

/-- R358: a patrol of memory that is not installed stops. -/
theorem test_patrol_stops :
    (match exec (.ddrPatrolRead 64 0) State.reset with | .fault (.noSuchAddress a) => a | _ => 0) = 64 := by decide +kernel

/-! ### Witnesses: states and operands that meet the hypotheses of the statements -/

/-- The reset state takes a step, to one MCLK edge. -/
theorem witness_CanonicalFormIsKept : ∃ s t : State, s.canonical ∧ step s = .next t := 
  ⟨State.reset, State.reset.tick, by unfold State.canonical State.memsWf State.regsWf; decide +kernel, rfl⟩

/-- A field reset by ST_CTRL in state INIT, the second form of the clause of `TheStileFailsAndReturns`. -/
theorem witness_strobed_field_reset : ∃ s : State, s.get F.ST_STATUS_FIELD ≠ 3 ∧
    (s.get F.ST_STATUS_FIELD ≠ 0 ∧ s.stile.clear false = true) ∧ s.commit = ⟨none, [], []⟩ :=
  ⟨upState.set F.ST_STATUS_FIELD [] 2, by decide +kernel⟩
theorem witness_IdleStepIsOneClockEdge :
    (∃ (s : State), (s.pending = []) ∧ (s.boot.fieldOn = false)) ∧
    (∃ (s : State), (s.pending = []) ∧ (s.boot.fieldOn = true) ∧ (s.get F.TB_STATUS_REF_PRESENT = 1) ∧ (s.tb.refPhase + 1 < s.refDivide) ∧ (s.tb.pulses = []) ∧ (s.get F.TB_EPOCH_CTRL_SYNCOUT_MODE ≠ 3) ∧ (∀ p : Fin 4, s.portUp p = false ∧ s.calState (32 + p) ≠ 4) ∧ (s.commit.pends = []) ∧ ((s.tb.tbc.toNat + 1024) % 2048 ≠ 0)) :=
  ⟨⟨{ State.reset with boot := { resetBoot with fieldOn := false } }, by decide +kernel⟩,
   ⟨State.reset.set F.TB_STATUS_REF_PRESENT [] 1, by decide +kernel⟩⟩

theorem witness_TheReferenceIsLost : ∃ (s : State), (crosses s) :=
  ⟨upState.set F.TB_STATUS_STATE [] 5, by decide +kernel⟩

theorem witness_TheTimeBaseMovesThroughItsStates :
    (∃ (s : State), (s.get F.TB_STATUS_REF_PRESENT = 1) ∧ (s.get F.TB_STATUS_REF_IN_RANGE = 1) ∧ (s.tb.qualified = false) ∧ (s.get F.TB_STATUS_STATE = 0)) ∧
    (∃ (s : State), (s.get F.TB_STATUS_STATE = 1)) ∧
    (∃ (s : State), (s.get F.TB_STATUS_STATE = 4)) ∧
    (∃ (s : State), (s.get F.TB_STATUS_STATE = 3)) :=
  ⟨⟨((upState.set F.TB_STATUS_STATE [] 0).set F.TB_STATUS_REF_PRESENT [] 1).set F.TB_STATUS_REF_IN_RANGE [] 1, by decide +kernel⟩,
   ⟨upState.set F.TB_STATUS_STATE [] 1, by decide +kernel⟩,
   ⟨upState.set F.TB_STATUS_STATE [] 4, by decide +kernel⟩,
   ⟨upState.set F.TB_STATUS_STATE [] 3, by decide +kernel⟩⟩

theorem witness_AnArmedEpochLoadsTheCounter :
    (∃ (s : State), (s.get F.TB_EPOCH_CTRL_SRC = 0) ∧ (s.get F.TB_EPOCH_CTRL_LAG ≠ 0) ∧ (s.get F.TB_EPOCH_CTRL_SYNCOUT_MODE = 0) ∧ (s.get F.TB_STATUS_STATE = 2) ∧ (s.tb.armEff = true) ∧ (s.tb.pulses = [])) ∧
    (∃ (rest : List SyncPulse) (s : State), (s.tb.pulses = ⟨true, true, false, 0⟩ :: rest) ∧ (∀ q ∈ rest, q.behind = false) ∧ (s.get F.TB_STATUS_STATE = 2) ∧ (s.deviceRuns = false) ∧ (s.now % 2048 = 0)) :=
  ⟨⟨upState.modTb (fun t => { t with armEff := true }), by decide +kernel⟩,
   ⟨[], (upState.set F.TB_EPOCH_LO_VALUE [] 77).modTb (fun t => { t with pulses := [⟨true, true, false, 0⟩], tbc := 0x123456800 }), by decide +kernel⟩⟩

theorem witness_SyncoutPulsesAndTheWrap :
    (∃ (s : State), (s.get F.TB_EPOCH_CTRL_SYNCOUT_MODE = 2) ∧ (crosses s)) ∧
    (∃ (s : State), (s.get F.TB_EPOCH_CTRL_SYNCOUT_MODE = 3) ∧ (s.get F.TB_SYNC_PERIOD_PERIOD ≠ 0) ∧ (s.get F.TL_ROLE_ROLE = 0) ∧ (s.tb.periodLeft = some 0)) ∧
    (∃ (s : State), (s.get F.TB_EPOCH_CTRL_SYNCOUT_MODE = 3) ∧ (s.get F.TB_SYNC_PERIOD_PERIOD ≠ 0) ∧ (s.get F.TL_ROLE_ROLE = 0) ∧ (s.tb.periodLeft ≠ some 0)) :=
  ⟨⟨upState.set F.TB_EPOCH_CTRL_SYNCOUT_MODE [] 2, by decide +kernel⟩,
   ⟨(((upState.set F.TL_ROLE_ROLE [] 0).set F.TB_EPOCH_CTRL_SYNCOUT_MODE [] 3).set F.TB_SYNC_PERIOD_PERIOD [] 9).modTb (fun t => { t with periodLeft := some 0 }), by decide +kernel⟩,
   ⟨(((upState.set F.TL_ROLE_ROLE [] 0).set F.TB_EPOCH_CTRL_SYNCOUT_MODE [] 3).set F.TB_SYNC_PERIOD_PERIOD [] 9).modTb (fun t => { t with periodLeft := some 4 }), by decide +kernel⟩⟩

theorem witness_AWriteFollowsTheAccessCodes : ∃ (off : Fin 1048576) (r : Reg) (ix : List Nat) (s : State), (off.val % 4 = 0) ∧ (keyOnHost off = true ∨ crosses s) ∧ (regAt (s.regKey off) = some (r, ix)) ∧ (r.row.pair = .no) ∧ (r.acts = false) :=
  ⟨0x20404, .CH_BANK_STATUS, [0], upState, by decide +kernel⟩

theorem witness_AReadClearsTheRcFields : ∃ (off : Fin 1048576) (r : Reg) (ix : List Nat) (s : State), (off.val % 4 = 0) ∧ (keyOnHost off = true ∨ crosses s) ∧ (regAt (s.regKey off) = some (r, ix)) ∧ (r.row.pair = .no) ∧ (r.readActs = false) ∧ (s.regKey off ≠ 0x4C) ∧ (∀ p ∈ s.regs.pairLatch, p.1 ≠ s.regKey off) :=
  ⟨0x20184, .EP_EDGE_CNT1, [0, 0], (upState.putK 0x20184 9).putFresh 0x20184 2, by decide +kernel⟩

theorem witness_AReadShowsTheViewedCopy : ∃ (off : Fin 1048576) (r : Reg) (ix : List Nat) (f : FieldRow) (s : State), (off.val % 4 = 0) ∧ (keyOnHost off = true ∨ crosses s) ∧ (regAt (s.regKey off) = some (r, ix)) ∧ (f ∈ r.row.fields) ∧ (f.acc = .rws) ∧ (∀ p ∈ s.regs.pairLatch, p.1 ≠ s.regKey off) :=
  ⟨0x20400, .CH_SLICE_CFG, [0], ⟨0, 1, .rws, 0⟩, (upState.putShadow 0x20400 5).putActive 0x20400 2, by decide +kernel⟩

theorem witness_ACounterIsReadWhole :
    (∃ (s : State), (crosses s)) ∧
    (∃ (hi : Word) (s : State), (crosses s) ∧ (s.regs.pairLatch.find? (fun p => p.1 == 0x401C) = some (0x401C, hi))) :=
  ⟨⟨upState.modTb (fun t => { t with tbc := 0x123456789A }), by decide +kernel⟩,
   ⟨0x77, { upState with regs := { upState.regs with pairLatch := [(0x401C, 0x77)] } }, by decide +kernel⟩⟩

theorem witness_APairIsWrittenTogether :
    (∃ (s : State), (crosses s)) ∧
    (∃ (lo : Word) (s : State), (crosses s) ∧ (s.regs.pairHeld.find? (fun p => p.1 == 0x4020) = some (0x4020, lo))) :=
  ⟨⟨upState, by decide +kernel⟩,
   ⟨0x12345678, { upState with regs := { upState.regs with pairHeld := [(0x4020, 0x12345678)] } }, by decide +kernel⟩⟩

theorem witness_ABadSizeAccessIsLogged :
    (∃ (s : State), (s.tot F.HI_ACC_LOG_VALID = 0)) ∧
    (∃ (s : State), (s.tot F.HI_ACC_LOG_VALID ≠ 0)) :=
  ⟨⟨upState, by decide +kernel⟩,
   ⟨upState.raise F.HI_ACC_LOG_VALID, by decide +kernel⟩⟩

theorem witness_AGoReleasesTheHeldCommand :
    (∃ (k : Fin 16) (c : Cmd) (rest : List Cmd) (s : State), (s.host[k].held = true) ∧ (s.host[k].queue = c :: rest) ∧ (c.tag < 65536) ∧ (s.linked = false ∨ crosses s)) ∧
    (∃ (k : Fin 16) (s : State), (s.host[k].held = false) ∧ (s.host[k].goLatch = none)) :=
  ⟨⟨1, ⟨7, 3, desc 0x0A 4 0 0 0 0⟩, [], (cmdState (desc 0x0A 4 0 0 0 0)).modHost 1 (fun h => { h with held := true }), by decide +kernel⟩,
   ⟨1, upState, by decide +kernel⟩⟩

theorem witness_TheDoorbellsMoveTheIndices :
    (∃ (k : Fin 16) (idx : Fin 65536) (s : State), (idx.val < s.ringEntries k 0)) ∧
    (∃ (k : Fin 16) (idx : Fin 65536) (s : State), (s.ringEntries k 0 ≤ idx.val)) ∧
    (∃ (k : Fin 16) (idx : Fin 65536) (s : State), (s.ringEntries k 3 ≤ idx.val)) ∧
    (∃ (k : Fin 16) (idx : Fin 65536) (s : State), (idx.val < s.ringEntries k 3) ∧ ((idx + s.ringEntries k 3 - s.host[k].rings[3].rd) % s.ringEntries k 3 ≤ s.host[k].rings[3].used)) ∧
    (∃ (k : Fin 16) (idx : Fin 65536) (s : State), (idx.val < s.ringEntries k 3) ∧ (s.host[k].rings[3].used < (idx + s.ringEntries k 3 - s.host[k].rings[3].rd) % s.ringEntries k 3)) ∧
    (∃ (k : Fin 16) (s : State), (s.anyFwd k = false)) :=
  ⟨⟨1, 15, cmdState [], by decide +kernel⟩,
   ⟨1, 16, cmdState [], by decide +kernel⟩,
   ⟨1, 16, (withRing 1 3 upState).modRing 1 3 (fun g => { g with wr := 4, used := 4 }), by decide +kernel⟩,
   ⟨1, 3, (withRing 1 3 upState).modRing 1 3 (fun g => { g with wr := 4, used := 4 }), by decide +kernel⟩,
   ⟨1, 5, (withRing 1 3 upState).modRing 1 3 (fun g => { g with wr := 4, used := 4 }), by decide +kernel⟩,
   ⟨1, (withRing 1 3 upState).modRing 1 3 (fun g => { g with wr := 4, used := 4 }), by decide +kernel⟩⟩

theorem witness_RingsAreEnabledAndDisabled :
    (∃ (k : Fin 16) (s : State), (s.ringOn k 3 = false) ∧ (goodRingSize (s.ringEntries k 3)) ∧ (s.ringBase k 3 % 4096 = 0)) ∧
    (∃ (k : Fin 16) (s : State), (s.ringOn k 3 = false) ∧ (¬ goodRingSize (s.ringEntries k 3))) ∧
    (∃ (k : Fin 16) (s : State), (s.ringOn k 3 = true)) ∧
    (∃ (k : Fin 16) (s : State), (s.ringOn k 1 = true) ∧ (s.ringOn k 0 = true)) :=
  ⟨⟨1, (withRing 1 3 upState).set F.RING_CTL_ENABLE [1, 3] 0, by decide +kernel⟩,
   ⟨1, ((withRing 1 3 upState).set F.RING_CTL_ENABLE [1, 3] 0).set F.RING_ENTRIES_ENTRIES [1, 3] 24, by decide +kernel⟩,
   ⟨1, withRing 1 3 upState, by decide +kernel⟩,
   ⟨1, cmdState [], by decide +kernel⟩⟩

theorem witness_TheDataAreaIsEnabled : ∃ (k : Fin 16) (v : Word) (s : State), (s.anyFwd k = false) ∧ (v.toNat % 8 ≠ 0) ∧ (bitsOf v.toNat 8 8 ≠ 0) ∧ (s.ringOn k 2 = true) ∧ (s.get F.DATA_SIZE_SIZE [k] ≠ 0) ∧ (s.pair F.DATA_BASE_LO_BASE F.DATA_BASE_HI_BASE [k] % 4096 = 0) ∧ (s.rgnSize k 0 = 0) ∧ (s.rgnSize k 1 = 0) ∧ (s.rgnSize k 2 = 0) :=
  ⟨1, 0x401, (withRing 1 2 upState).set F.DATA_SIZE_SIZE [1] 64, by decide +kernel⟩

theorem witness_ModerationRaisesTheVector : ∃ (k : Fin 16) (s : State), (s.get F.RING_CTL_MOD_TIME [k, 1] ≠ 0) ∧ (s.host[k].rings[1].armed = true) ∧ (s.host[k].rings[1].since ≠ 0) :=
  ⟨1, ((withRing 1 1 upState).set F.RING_CTL_MOD_TIME [1, 1] 5).modRing 1 1 (fun g => { g with armed := true, since := 2, used := 2 }), by decide +kernel⟩

theorem witness_AFunctionResetClearsItsPage : ∃ (s : State), (s.stile.fieldRuns = false ∨ s.commit = ⟨none, [], []⟩) :=
  ⟨(cmdState []).modStile (fun x => { x with fieldRuns := false }), by decide +kernel⟩

theorem witness_NopAndInvalidations :
    (∃ (k : Fin 16) (c : Cmd) (rest : List Cmd) (s : State), (headReady k c rest s) ∧ (cmdOp c.bytes = 0)) ∧
    (∃ (k : Fin 16) (c : Cmd) (rest : List Cmd) (s : State), (headReady k c rest s) ∧ (cmdOp c.bytes = 9)) ∧
    (∃ (s : State), (crosses s)) :=
  ⟨⟨1, ⟨7, 3, desc 0 1 0 0 0 0⟩, [], cmdState (desc 0 1 0 0 0 0), by decide +kernel⟩,
   ⟨1, ⟨7, 3, desc 9 0 3 0 0 0⟩, [], (cmdState (desc 9 0 3 0 0 0)).modSess 1 (fun x => { x with xlates := [⟨1, 0, 0⟩], pages := [⟨5, some 0, 0, true, false⟩], held := [(1, 2), (3, 5)] }), by decide +kernel⟩,
   ⟨(cmdState (desc 9 0 3 0 0 0)).modSess 1 (fun x => { x with xlates := [⟨1, 0, 0⟩], pages := [⟨5, some 0, 0, true, false⟩], held := [(1, 2), (3, 5)] }), by decide +kernel⟩⟩

theorem witness_DmaMovesBytes :
    (∃ (k : Fin 16) (c : Cmd) (rest : List Cmd) (s : State), (headReady k c rest s) ∧ (cmdOp c.bytes = 7) ∧ (cmdParam c.bytes ≠ 0) ∧ (cmdParam c.bytes % 64 = 0) ∧ (fieldAt c.bytes 0x10 8 % 64 = 0) ∧ (s.inView k (fieldAt c.bytes 0x10 8) (cmdParam c.bytes) = true)) ∧
    (∃ (k : Fin 16) (c : Cmd) (rest : List Cmd) (s : State), (headReady k c rest s) ∧ (cmdOp c.bytes = 8) ∧ (cmdParam c.bytes ≠ 0) ∧ (cmdParam c.bytes % 64 = 0) ∧ (fieldAt c.bytes 0x10 8 % 64 = 0) ∧ (s.inView k (fieldAt c.bytes 0x10 8) (cmdParam c.bytes) = true) ∧ (s.injOn 1 0 = false) ∧ (s.injOn 1 1 = false) ∧ (s.injOn 2 0 = false) ∧ (s.injOn 2 1 = false) ∧ (cmdAddr c.bytes + cmdParam c.bytes ≤ entryAt k s ∨ entryAt k s + 32 ≤ cmdAddr c.bytes)) :=
  ⟨⟨1, ⟨7, 3, desc 7 0 64 0x9000 0x1000 0⟩, [], withView (cmdState (desc 7 0 64 0x9000 0x1000 0)), by decide +kernel⟩,
   ⟨1, ⟨7, 3, desc 8 0 64 0x9000 0x1000 0⟩, [], { withView (cmdState (desc 8 0 64 0x9000 0x1000 0)) with ddr := [(0x101003, 9)] }, by decide +kernel⟩⟩

theorem witness_TablesAreLoaded :
    (∃ (k : Fin 16) (c : Cmd) (rest : List Cmd) (data : List Byte) (s : State), (headReady k c rest s) ∧ (cmdOp c.bytes = 5) ∧ (bitsOf (cmdParam c.bytes) 0 12 + bitsOf (cmdParam c.bytes) 16 13 ≤ 4096) ∧ (data.length = 32 * bitsOf (cmdParam c.bytes) 16 13) ∧ (∀ i, i < bitsOf (cmdParam c.bytes) 16 13 → State.segReserved ((data.drop (32 * i)).take 32) = false)) ∧
    (∃ (k : Fin 16) (c : Cmd) (rest : List Cmd) (data : List Byte) (g : Fin 4) (s : State), (headReady k c rest s) ∧ (cmdOp c.bytes = 6) ∧ (bitOf (cmdParam c.bytes) 24 = false) ∧ (bitsOf (cmdParam c.bytes) 16 4 = g.val) ∧ (s.ownsFw k g = true) ∧ (s.fwState g ≤ 1) ∧ (data.length = 4 * fieldAt c.bytes 0x10 4) ∧ (cmdParam c.bytes % 65536 + fieldAt c.bytes 0x10 4 ≤ 65536)) ∧
    (∃ (k : Fin 16) (c : Cmd) (rest : List Cmd) (g : Fin 4) (s : State), (headReady k c rest s) ∧ (cmdOp c.bytes = 6) ∧ (bitOf (cmdParam c.bytes) 24 = false) ∧ (bitsOf (cmdParam c.bytes) 16 4 = g.val) ∧ (s.ownsFw k g = true) ∧ (1 < s.fwState g) ∧ (fieldAt c.bytes 0x10 4 ≠ 0) ∧ (cmdParam c.bytes % 65536 + fieldAt c.bytes 0x10 4 ≤ 65536)) :=
  ⟨⟨1, ⟨7, 3, desc 5 0 0x20005 0x9000 0 0⟩, [], desc 1 0 0 0 0 0, cmdState (desc 5 0 0x20005 0x9000 0 0), by decide +kernel⟩,
   ⟨1, ⟨7, 3, desc 6 0 5 0x9000 2 0⟩, [], [1, 2, 3, 4, 5, 6, 7, 8], 0, owned (cmdState (desc 6 0 5 0x9000 2 0)), by decide +kernel⟩,
   ⟨1, ⟨7, 3, desc 6 0 5 0x9000 2 0⟩, [], 0, (owned (cmdState (desc 6 0 5 0x9000 2 0))).modFw 0 (fun f => { f with faulted := true }), by decide +kernel⟩⟩

theorem witness_ASessionReachesItsRegisters :
    (∃ (k : Fin 16) (c : Cmd) (rest : List Cmd) (data : List Byte) (r : Reg) (ix : List Nat) (s : State), (headReady k c rest s) ∧ (cmdOp c.bytes = 1) ∧ (cmdParam c.bytes = 1) ∧ (fieldAt data 0 4 % 4 = 0) ∧ (fieldAt data 0 4 < 2 ^ 20) ∧ (regAt (s.regKey (fieldAt data 0 4)) = some (r, ix)) ∧ (s.ownsReg k r ix = true) ∧ (r.row.pair = .no) ∧ (r.acts = false)) ∧
    (∃ (k : Fin 16) (c : Cmd) (rest : List Cmd) (data : List Byte) (r : Reg) (ix : List Nat) (s : State), (headReady k c rest s) ∧ (cmdOp c.bytes = 2) ∧ (cmdParam c.bytes = 1) ∧ (fieldAt data 0 4 % 4 = 0) ∧ (fieldAt data 0 4 < 2 ^ 20) ∧ (regAt (s.regKey (fieldAt data 0 4)) = some (r, ix)) ∧ (s.ownsReg k r ix = true) ∧ (r.row.pair = .no) ∧ (r.readActs = false) ∧ (∀ f ∈ r.row.fields, f.acc ≠ .rc) ∧ (cmdAddr c.bytes + 8 ≤ entryAt k s ∨ entryAt k s + 32 ≤ cmdAddr c.bytes)) :=
  ⟨⟨1, ⟨7, 3, desc 1 0 1 0x9000 0 0⟩, [], leBytes 8 0x0012300400040148, .VS_PF, [1], cmdState (desc 1 0 1 0x9000 0 0), by decide +kernel⟩,
   ⟨1, ⟨7, 3, desc 2 0 1 0x9000 0 0⟩, [], leBytes 8 0x0012300400040148, .VS_PF, [1], cmdState (desc 2 0 1 0x9000 0 0), by decide +kernel⟩⟩

theorem witness_DescriptorsAreFetched :
    (∃ (k : Fin 16) (b : List Byte) (s : State), (b.length = 64) ∧ (s.mayFetch k = true) ∧ (descriptorBad b = false) ∧ (crosses s) ∧ (s.instLive k (fieldAt b 2 2) ((smGet 0 s.host[k].epochs (fieldAt b 2 2) + 1) % 16) = false) ∧ (s.inFlight k (fieldAt b 2 2) ((smGet 0 s.host[k].epochs (fieldAt b 2 2) + 1) % 16) = false)) ∧
    (∃ (k : Fin 16) (b : List Byte) (s : State), (b.length = 64) ∧ (s.mayFetch k = true) ∧ (s.host[k].stalled = false) ∧ (s.instLive k (fieldAt b 2 2) ((smGet 0 s.host[k].epochs (fieldAt b 2 2) + 1) % 16) = true)) ∧
    (∃ (k : Fin 16) (s : State), (s.mayFetch k = true) ∧ (s.ringRoom k 1 = true) ∧ (s.host[k].waiting = [])) ∧
    (∃ (k : Fin 16) (c : Cmd) (rest : List Cmd) (s : State), (headReady k c rest s) ∧ (usesAddr (cmdOp c.bytes) = true)) :=
  ⟨⟨1, desc 0 1 0 0 0 0, (withRing 1 0 (withRing 1 1 upState)).modHost 1 (fun h => { h with tail := 3 }), by decide +kernel⟩,
   ⟨1, desc 0 1 0 0 0 0, (withRing 1 0 (withRing 1 1 upState)).modHost 1 (fun h => { h with tail := 3, live := [⟨7, 1, 0, false, false, false, 0, 0⟩] }), by decide +kernel⟩,
   ⟨1, (withRing 1 0 (withRing 1 1 upState)).modHost 1 (fun h => { h with tail := 3 }), by decide +kernel⟩,
   ⟨1, ⟨7, 3, desc 1 0 1 0x9000 0 0⟩, [], cmdState (desc 1 0 1 0x9000 0 0), by decide +kernel⟩⟩

theorem witness_ACommitMakesShadowsActive :
    (∃ (u : Fin 8) (s : State), (crosses s) ∧ (s.get F.SYS_COMMIT_STATUS_BUSY = 0) ∧ (s.commit.pin = none) ∧ (s.commit.wait = []) ∧ (s.injOn 15 7 = false) ∧ (s.tgBusy u = false) ∧ (commitPasses ⟨5, u, true⟩ s)) ∧
    (∃ (k : Fin 16) (c : Cmd) (rest : List Cmd) (u : Fin 8) (s : State), (headReady k c rest s) ∧ (cmdOp c.bytes = 3) ∧ (cmdParam c.bytes = 5 + 256 * u) ∧ (s.ownsTg k u = true) ∧ (s.commit.pin = none) ∧ (s.commit.wait = []) ∧ (s.injOn 15 7 = false) ∧ (s.tgBusy u = false) ∧ (commitPasses ⟨5, u, decide (k = 0)⟩ (s.begin_ k c))) :=
  ⟨⟨0, (owned upState).putShadow (Reg.key .TG_PRE [0]) 5, by decide +kernel, by decide +kernel, by decide +kernel, by decide +kernel, by decide +kernel, by decide +kernel, (commitFirst_of_flat (loopFails_of_flat _ (by decide +kernel)) (by decide +kernel)).trans (by decide +kernel)⟩,
   ⟨1, ⟨7, 3, desc 3 0 5 0 0 0⟩, [], 0, (owned (cmdState (desc 3 0 5 0 0 0))).putShadow (Reg.key .TG_PRE [0]) 5, by decide +kernel, by decide +kernel, by decide +kernel, by decide +kernel, by decide +kernel, by decide +kernel, by decide +kernel, by decide +kernel, (commitFirst_of_flat (loopFails_of_flat _ (by decide +kernel)) (by decide +kernel)).trans (by decide +kernel)⟩⟩

theorem witness_ARefusedCommitChangesNothing : ∃ (scope : Fin 16) (target : Fin 256) (x : CFail) (s : State), (crosses s) ∧ (s.get F.SYS_COMMIT_STATUS_BUSY = 0) ∧ (s.commit.pin = none) ∧ (s.commit.wait = []) ∧ (s.injOn 15 7 = false) ∧ (State.commitFirst s (s.candidate (s.commitVals ⟨scope, target, true⟩) (s.commitSegs ⟨scope, target, true⟩)) ⟨scope, target, true⟩ (s.commitVals ⟨scope, target, true⟩) false = some x) :=
  ⟨5, 0, ⟨.commitRange, 119, 0, 294940, 16, 0, 0⟩, (owned upState).putShadow (Reg.key .TG_CAP [0]) 1, by decide +kernel, by decide +kernel, by decide +kernel, by decide +kernel, by decide +kernel, (commitFirst_of_flat (loopFails_of_flat _ (by decide +kernel)) (by decide +kernel)).trans (by decide +kernel)⟩

theorem witness_TheEngineIsReleased :
    (∃ (k : Fin 16) (tbl : SMap Nat) (pf : Bool) (vals : List (Nat × Word)) (ring : Option (Nat × Nat × Nat)) (s : State), (s.commit.pin = some ⟨1, k, pf, vals, [(k.val, tbl)], ring⟩) ∧ (s.commit.wait = [])) ∧
    (∃ (k : Fin 16) (tbl : SMap Nat) (pf : Bool) (s : State), (s.commit.pin = some ⟨1, k, pf, [], [(k.val, tbl)], none⟩) ∧ (s.commit.wait = []) ∧ (ownsNoUnit k s)) ∧
    (∃ (s : State), (s.commit.pin = none)) ∧
    (∃ (j : PinJob) (s : State), (s.commit.pin = some j) ∧ (j.ring = none) ∧ (s.commit.wait = []) ∧ (s.injOn 0x0F 7 = false) ∧ (s.due.all (fun d => d.act != DueAct.hedgeCopy) = true)) ∧
    (∃ (u : Fin 8), (4 ≤ u.val) ∧ (u.val ≤ 6)) :=
  ⟨⟨1, [(3, 77)], true, [], none, upState.modCommit (fun e => { e with pin := some ⟨1, 1, true, [], [(1, [(3, 77)])], none⟩ }), by decide +kernel⟩,
   ⟨1, [(3, 77)], true, upState.modCommit (fun e => { e with pin := some ⟨1, 1, true, [], [(1, [(3, 77)])], none⟩ }), by decide +kernel⟩,
   ⟨upState, by decide +kernel⟩,
   ⟨⟨1, 1, true, [], [(1, [(3, 77)])], none⟩, upState.modCommit (fun e => { e with pin := some ⟨1, 1, true, [], [(1, [(3, 77)])], none⟩ }), by decide +kernel⟩,
   ⟨5, by decide +kernel⟩⟩

theorem witness_AnImageIsLoaded : ∃ (k : Fin 16) (c : Cmd) (rest : List Cmd) (img : List Byte) (s : State), (headReady k c rest s) ∧ (cmdOp c.bytes = 4) ∧ (cmdParam c.bytes ≠ 0) ∧ (img.length = cmdParam c.bytes) ∧ ((s.begin_ k c).imageErr k img (cmdParam c.bytes) false = none) ∧ (s.get F.NVM_BOOT_STAT_BOOT_BUSY = 0) :=
  ⟨1, ⟨7, 3, desc 4 0 64 0x9000 0 0⟩, [], tinyImage, cmdState (desc 4 0 64 0x9000 0 0), by decide +kernel⟩

theorem witness_SequencesBeginAndAreAborted :
    (∃ (k : Fin 16) (c : Cmd) (rest : List Cmd) (a : Nat) (s : State), (headReady k c rest s) ∧ (cmdOp c.bytes = 0x0A) ∧ (cmdHold c.bytes = false) ∧ (s.tripBlocks = false) ∧ (s.entryAddr k (cmdParam c.bytes % 256) = some a) ∧ (s.sess[k].seq = none) ∧ (s.sess[k].burst = none)) ∧
    (∃ (k : Fin 16) (c : Cmd) (rest : List Cmd) (s : State), (headReady k c rest s) ∧ (cmdOp c.bytes = 0x0B) ∧ (cmdHold c.bytes = false) ∧ (s.tripBlocks = false) ∧ (s.shotFail k c.bytes = none) ∧ (s.sess[k].seq = none) ∧ (s.sess[k].burst = none) ∧ (fieldAt c.bytes 0x18 8 ≠ 0)) ∧
    (∃ (k : Fin 16) (c : Cmd) (d : Cmd) (x : Bool) (s : State), (s.host[k].queue = [c, d]) ∧ (cmdOp c.bytes = 0) ∧ (cmdOp d.bytes = 0x0C) ∧ (s.host[k].live = [⟨c.tag, c.epoch, 0, x, false, false, 0, 0⟩, ⟨d.tag, d.epoch, 0x0C, x, false, false, 0, 1⟩]) ∧ (cmdParam d.bytes = c.tag + 65536 * c.epoch) ∧ (c.tag ≠ d.tag) ∧ (c.tag < 65536) ∧ (d.tag < 65536) ∧ (c.epoch < 16) ∧ (d.epoch < 16) ∧ (s.host[k].held = false) ∧ (s.host[k].waiting = []) ∧ (s.sess[k].hasTag = false) ∧ (crosses s) ∧ (s.ringOn k 1 = true) ∧ (s.host[k].rings[1].used + 1 < s.ringEntries k 1) ∧ (s.host[k].rings[1].wr + 1 < s.ringEntries k 1)) ∧
    (∃ (k : Fin 16) (d : Cmd) (s : State), (s.host[k].queue.find? (fun c => cmdOp c.bytes == 0x0C) = some d) ∧ (crosses s) ∧ (s.ringRoom k 1 = true) ∧ (s.host[k].waiting = []) ∧ (s.instLive k d.tag d.epoch = true) ∧ (s.instEnded k d.tag d.epoch = false) ∧ (d.tag < 65536) ∧ (d.epoch < 16) ∧ (∀ i ∈ s.host[k].live, i.tag ≠ cmdParam d.bytes % 65536)) ∧
    (∃ (k : Fin 16) (d : Cmd) (q : SeqRun) (s : State), (s.host[k].queue.find? (fun c => cmdOp c.bytes == 0x0C) = some d) ∧ (crosses s) ∧ (s.ringRoom k 1 = true) ∧ (s.host[k].waiting = []) ∧ (cmdParam d.bytes = s.sess[k].tag + 65536 * s.sess[k].epoch) ∧ (s.sess[k].tag < 65536) ∧ (s.sess[k].epoch < 16) ∧ (d.tag ≠ s.sess[k].tag) ∧ (s.sess[k].hasTag = true) ∧ (s.instLive k s.sess[k].tag s.sess[k].epoch = true) ∧ (s.instEnded k s.sess[k].tag s.sess[k].epoch = false) ∧ (s.sess[k].seq = some q) ∧ (q.ended = false) ∧ (s.inSpan k = false)) :=
  ⟨⟨1, ⟨7, 3, desc 0x0A 0 5 0 0 0⟩, [], 9, (owned (cmdState (desc 0x0A 0 5 0 0 0))).modSess 1 (fun x => { x with entries := [(5, some 9)] }), by decide +kernel⟩,
   ⟨1, ⟨7, 3, shotDesc⟩, [], (owned (cmdState shotDesc)).modSess 1 (fun x => { x with entries := [(5, some 9)] }), by decide +kernel⟩,
   ⟨1, ⟨7, 3, desc 0 0 0 0 0 0⟩, ⟨8, 2, desc 0x0C 0 0x30007 0 0 0⟩, true, (cmdState (desc 0 0 0 0 0 0)).modHost 1 (fun h => { h with queue := [⟨7, 3, desc 0 0 0 0 0 0⟩, ⟨8, 2, desc 0x0C 0 0x30007 0 0 0⟩], live := [⟨7, 3, 0, true, false, false, 0, 0⟩, ⟨8, 2, 12, true, false, false, 0, 1⟩] }), by decide +kernel⟩,
   ⟨1, ⟨8, 2, desc 0x0C 0 0x100009 0 0 0⟩, (cmdState []).modHost 1 (fun h => { h with queue := [⟨7, 3, desc 0 0 0 0 0 0⟩, ⟨8, 2, desc 0x0C 0 0x100009 0 0 0⟩], live := [⟨7, 3, 0, true, false, false, 0, 0⟩, ⟨8, 2, 12, true, false, false, 0, 1⟩] }), by decide +kernel⟩,
   ⟨1, ⟨8, 2, desc 0x0C 0 0x30007 0 0 0⟩, ⟨5, false, false, 0, false, none, false, 0, 0⟩, (withSeq ((owned (cmdState [])).modHost 1 (fun h => { h with queue := [⟨8, 2, desc 0x0C 0 0x30007 0 0 0⟩], live := [⟨7, 3, 10, true, true, false, 0, 0⟩, ⟨8, 2, 12, true, false, false, 0, 1⟩] }))).modSess 1 (fun x => { x with hasTag := true, tag := 7, epoch := 3, waitSince := some 5 }), by decide +kernel⟩⟩

theorem witness_SequencesRunAndComplete :
    (∃ (c : Fin 4) (k : Fin 16) (x : Ctx) (s : State), (s.cores[c].st = .idle) ∧ (s.coreIn c = true) ∧ (s.nextFor c = some k) ∧ (s.sess[k].saved = some x)) ∧
    (∃ (k : Fin 16) (q : SeqRun) (s : State), (s.sess[k].seq = some q) ∧ (q.ended = true) ∧ (q.shot = false) ∧ (s.unitsQuiet k = true) ∧ (s.sess[k].burst = none) ∧ (s.sess[k].swapWait = false) ∧ (s.usedDegraded k = false) ∧ (∀ u : Fin 8, s.ownsTg k u = false) ∧ (s.gleaners[k].failUnit = none) ∧ (s.gleaners[k].line = []) ∧ (s.anyFwd k = false) ∧ (canPost k s) ∧ (q.cond < 65536) ∧ (q.flagsF < 256) ∧ (s.sess[k].cond < 65536) ∧ (bitOf (q.cond ||| s.sess[k].cond) Cond.underrun = false) ∧ (bitOf (q.cond ||| s.sess[k].cond) Cond.wallUnderrun = false) ∧ (q.under = false) ∧ (∀ b, b ∈ [Cond.fault, Cond.aborted, Cond.maskStop, Cond.timeout, Cond.degraded] → bitOf q.cond b = false)) ∧
    (∃ (k : Fin 16) (q : SeqRun) (s : State), (s.sess[k].seq = some q) ∧ (q.ended = true) ∧ (s.unitsQuiet k = true)) ∧
    (∃ (k : Fin 16) (q : SeqRun) (s : State), (s.sess[k].seq = some q) ∧ (q.ended = false ∨ s.unitsQuiet k = false)) :=
  ⟨⟨0, 1, { resetCtx with pc := 9 }, upState.modSess 1 (fun y => { y with saved := some { resetCtx with pc := 9 }, waitSince := some 0 }), by decide +kernel⟩,
   ⟨1, ⟨5, false, true, 256, false, none, false, 0, 3⟩, (cmdState (desc 0x0A 0 5 0 0 0)).modSess 1 (fun y => { y with seq := some ⟨5, false, true, 256, false, none, false, 0, 3⟩, hasTag := true, tag := 7, epoch := 3 }), by decide +kernel⟩,
   ⟨1, ⟨5, false, true, 256, false, none, false, 0, 3⟩, (owned (cmdState (desc 0x0A 0 5 0 0 0))).modSess 1 (fun y => { y with seq := some ⟨5, false, true, 256, false, none, false, 0, 3⟩, hasTag := true, tag := 7, epoch := 3 }), by decide +kernel⟩,
   ⟨1, ⟨5, false, false, 0, false, none, false, 0, 0⟩, withSeq upState, by decide +kernel⟩⟩

theorem witness_AShotRunsThroughItsPhases :
    (∃ (k : Fin 16) (b : Burst) (s : State), (s.sess[k].burst = some b) ∧ (s.shotMayStart k b s.edgeNow = true) ∧ (b.onTrigger = false ∨ b.trigTo ≠ 0)) ∧
    (∃ (k : Fin 16) (b : Burst) (s : State), (s.sess[k].burst = some b) ∧ (s.shotMayStart k b s.edgeNow = false)) ∧
    (∃ (k : Fin 16) (b : Burst) (s : State), (s.sess[k].burst = some b) ∧ (s.shotMayStart k b s.edgeNow = true) ∧ (b.tgMask = 0) ∧ (b.onTrigger = false) ∧ (b.deadFrom = none)) ∧
    (∃ (k : Fin 16) (b : Burst) (a : Nat) (s : State), (s.sess[k].burst = some b) ∧ (b.phase = 2) ∧ (b.onTrigger = false ∨ b.leadAt.isSome = true) ∧ (s.sess[k].seq = none) ∧ (s.entryAddr k b.entry = some a)) ∧
    (∃ (k : Fin 16) (b : Burst) (s : State), (s.sess[k].burst = some b) ∧ (b.phase = 2) ∧ (b.onTrigger = true) ∧ (b.leadAt = none)) ∧
    (∃ (k : Fin 16) (b : Burst) (s : State), (s.sess[k].burst = some b) ∧ (b.phase = 5) ∧ (State.tallyEnd b ≤ s.now) ∧ (State.burstGoes b = true) ∧ (bitOf b.flags 3 = false) ∧ (s.injOn 3 0x31 = false) ∧ (s.injOn 4 0x31 = false)) ∧
    (∃ (k : Fin 16) (b : Burst) (s : State), (s.sess[k].burst = some b) ∧ (b.phase = 5) ∧ (State.tallyEnd b ≤ s.now) ∧ (State.burstGoes b = false) ∧ (s.injOn 4 0x31 = false)) ∧
    (∃ (k : Fin 16) (b : Burst) (s : State), (s.sess[k].burst = some b) ∧ (b.phase ≠ 5 ∨ s.now < State.tallyEnd b)) ∧
    (∃ (k : Fin 16) (b : Burst) (s : State), (s.sess[k].burst = some b) ∧ (b.onTrigger = true) ∧ (b.leadAt = none) ∧ (b.phase = 2) ∧ (b.trigTo ≠ 2 ^ 32 - 1) ∧ (b.sTick + b.trigTo * ticksPerUs ≤ s.now)) ∧
    (∃ (k : Fin 16) (b : Burst) (s : State), (s.sess[k].burst = some b) ∧ (b.onTrigger = false ∨ b.leadAt.isSome = true ∨ b.phase ≠ 2 ∨ b.trigTo = 2 ^ 32 - 1 ∨ s.now < b.sTick + b.trigTo * ticksPerUs)) :=
  ⟨⟨1, State.burstOf shotDesc, upState.modSess 1 (fun y => { y with burst := some (State.burstOf shotDesc) }), by decide +kernel⟩,
   ⟨1, { State.burstOf shotDesc with phase := 4 }, upState.modSess 1 (fun y => { y with burst := some { State.burstOf shotDesc with phase := 4 } }), by decide +kernel⟩,
   ⟨1, State.burstOf shotDesc, upState.modSess 1 (fun y => { y with burst := some (State.burstOf shotDesc) }), by decide +kernel⟩,
   ⟨1, { State.burstOf shotDesc with phase := 2 }, 9, upState.modSess 1 (fun y => { y with burst := some { State.burstOf shotDesc with phase := 2 }, entries := [(5, some 9)] }), by decide +kernel⟩,
   ⟨1, { State.burstOf shotDesc with phase := 2, onTrigger := true }, upState.modSess 1 (fun y => { y with burst := some { State.burstOf shotDesc with phase := 2, onTrigger := true }, entries := [(5, some 9)] }), by decide +kernel⟩,
   ⟨1, { State.burstOf shotDesc with phase := 5, done := some 4 }, (upState.modTb (fun t => { t with tbc := 600000 })).modSess 1 (fun y => { y with burst := some { State.burstOf shotDesc with phase := 5, done := some 4 }, entries := [(5, some 9)] }), by decide +kernel⟩,
   ⟨1, { State.burstOf shotDesc with phase := 5, done := some 4, shots := 3 }, (upState.modTb (fun t => { t with tbc := 600000 })).modSess 1 (fun y => { y with hasTag := true, burst := some { State.burstOf shotDesc with phase := 5, done := some 4, shots := 3 } }), by decide +kernel⟩,
   ⟨1, State.burstOf shotDesc, upState.modSess 1 (fun y => { y with burst := some (State.burstOf shotDesc) }), by decide +kernel⟩,
   ⟨1, { State.burstOf shotDesc with phase := 2, onTrigger := true }, upState.modSess 1 (fun y => { y with burst := some { State.burstOf shotDesc with phase := 2, onTrigger := true }, entries := [(5, some 9)] }), by decide +kernel⟩,
   ⟨1, State.burstOf shotDesc, upState.modSess 1 (fun y => { y with burst := some (State.burstOf shotDesc) }), by decide +kernel⟩⟩

theorem witness_ATeardownReturnsTheUnits :
    (∃ (k : Fin 16) (r : Reg) (s : State), (crosses s) ∧ (s.sess[k].seq = none) ∧ (s.sess[k].burst = none) ∧ (s.commit.pends = []) ∧ (ownsNoUnit k s) ∧ (s.host[k].held = false) ∧ (r ∈ State.ownRegs)) ∧
    (∃ (k : Fin 16) (s : State), (crosses s) ∧ (s.sess[k].seq = none) ∧ (s.sess[k].burst = none) ∧ (s.commit.pends = []) ∧ (ownsNoUnit k s) ∧ (s.host[k].held = false)) ∧
    (∃ (k : Fin 16) (s : State), (s.sess[k].tearWait = false)) ∧
    (∃ (k : Fin 16) (q : SeqRun) (s : State), (crosses s) ∧ (s.sess[k].seq = some q) ∧ (s.sess[k].onCore = false) ∧ (q.ended = false) ∧ (ownsNoUnit k s) ∧ (s.commit.pends = [])) ∧
    (∃ (k : Fin 16) (s : State), (crosses s) ∧ (s.inSpan k = false)) ∧
    (∃ (k : Fin 16) (c : Fin 4) (s : State), (crosses s) ∧ (s.coreOf k = some c) ∧ (s.inSpan k = true)) ∧
    (∃ (k : Fin 16) (q : SeqRun) (s : State), (crosses s) ∧ (s.sess[k].seq = some q) ∧ (s.inSpan k = false) ∧ (q.ended = false)) ∧
    (∃ (k : Fin 16) (b : Burst) (s : State), (crosses s) ∧ (s.sess[k].seq = none) ∧ (s.sess[k].burst = some b) ∧ (b.phase = 0 ∨ b.phase = 6)) :=
  ⟨⟨1, .RM_MEM_SIZE, (withView upState).modSess 1 (fun y => { y with entries := [(5, some 9)] }), by decide +kernel⟩,
   ⟨1, { (withView upState) with ddr := [(5, 9), (0x100005, 7)] }, by decide +kernel⟩,
   ⟨1, (withView upState).modSess 1 (fun y => { y with entries := [(5, some 9)] }), by decide +kernel⟩,
   ⟨1, ⟨5, false, false, 256, false, none, false, 0, 3⟩, upState.modSess 1 (fun y => { y with seq := some ⟨5, false, false, 256, false, none, false, 0, 3⟩, waitSince := some 0 }), by decide +kernel⟩,
   ⟨1, withSeq (owned (withView upState)), by decide +kernel⟩,
   ⟨1, 0, (withSeq ((coreState .running (mword 33 1 0)).modCore 0 (fun r => { r with span := some ⟨9, 0, resetCtx, []⟩ }))).modSess 1 (fun x => { x with onCore := true, core := 0 }), by decide +kernel⟩,
   ⟨1, ⟨5, false, false, 0, false, none, false, 0, 0⟩, (withSeq (owned upState)).modSess 1 (fun x => { x with waitSince := some 5 }), by decide +kernel⟩,
   ⟨1, { State.burstOf shotDesc with phase := 6, shots := 1 }, (owned upState).modSess 1 (fun x => { x with hasTag := true, burst := some { State.burstOf shotDesc with phase := 6, shots := 1 } }), by decide +kernel⟩⟩

theorem witness_AMicrowordRuns :
    (∃ (c : Fin 4) (w : Nat) (s : State), (s.cores[c].st = .running) ∧ (fetches c w s) ∧ (plainWord w) ∧ (nothingWaits c s) ∧ (mwWait w = false ∨ (started c w s).wordCond c w = true)) ∧
    (∃ (c : Fin 4) (w : Nat) (s : State), (s.cores[c].st = .running) ∧ (fetches c w s) ∧ (plainWord w) ∧ (nothingWaits c s) ∧ (mwWait w = true) ∧ ((started c w s).wordCond c w = false) ∧ (mwToEn w = false ∨ mwToCount w ≠ 0)) ∧
    (∃ (c : Fin 4) (w : Nat) (s : State), (s.cores[c].st = .waiting) ∧ (fetches c w s) ∧ (plainWord w) ∧ (nothingWaits c s) ∧ (s.wordCond c w = true)) ∧
    (∃ (c : Fin 4) (w : Nat) (s : State), (s.cores[c].st = .waiting) ∧ (fetches c w s) ∧ (plainWord w) ∧ (nothingWaits c s) ∧ (s.wordCond c w = false)) ∧
    (∃ (c : Fin 4) (w : Nat) (s : State), (s.cores[c].st = .waiting) ∧ (fetches c w s) ∧ (plainWord w) ∧ (nothingWaits c s) ∧ (s.waitOver c w = true) ∧ (s.wordCond c w = false) ∧ (mwToAct w = true)) ∧
    (∃ (c : Fin 4) (w : Nat) (s : State), (s.cores[c].st = .waiting) ∧ (fetches c w s) ∧ (plainWord w) ∧ (nothingWaits c s) ∧ (s.waitOver c w = true) ∧ (s.wordCond c w = false) ∧ (mwToAct w = false) ∧ (s.sess[s.coreSess c].seq.isSome = true)) ∧
    (∃ (c : Fin 4) (w : Nat) (s : State), (s.cores[c].st = .waiting) ∧ (fetches c w s) ∧ (plainWord w) ∧ (nothingWaits c s) ∧ (s.waitOver c w = false)) :=
  ⟨⟨0, mword 33 1 (2 ^ 105), coreState .running (mword 33 1 (2 ^ 105)), by decide +kernel⟩,
   ⟨0, mword 33 1 (2 ^ 24 + 5 * 2 ^ 17), coreState .running (mword 33 1 (2 ^ 24 + 5 * 2 ^ 17)), by decide +kernel⟩,
   ⟨0, mword 33 1 (2 ^ 24), coreState .waiting (mword 33 1 (2 ^ 24)), by decide +kernel⟩,
   ⟨0, mword 33 1 (2 ^ 24 + 5 * 2 ^ 17), coreState .waiting (mword 33 1 (2 ^ 24 + 5 * 2 ^ 17)), by decide +kernel⟩,
   ⟨0, mword 33 1 (2 ^ 24 + 2 ^ 25 + 2 ^ 26 + 5 * 2 ^ 17), coreState .waiting (mword 33 1 (2 ^ 24 + 2 ^ 25 + 2 ^ 26 + 5 * 2 ^ 17)), by decide +kernel⟩,
   ⟨0, mword 33 1 (2 ^ 24 + 2 ^ 25 + 5 * 2 ^ 17), withSeq (coreState .waiting (mword 33 1 (2 ^ 24 + 2 ^ 25 + 5 * 2 ^ 17))), by decide +kernel⟩,
   ⟨0, mword 33 1 (2 ^ 24 + 2 ^ 25 + 2 ^ 26 + 2 ^ 31 + 5 * 2 ^ 17), coreState .waiting (mword 33 1 (2 ^ 24 + 2 ^ 25 + 2 ^ 26 + 2 ^ 31 + 5 * 2 ^ 17)), by decide +kernel⟩⟩

theorem witness_AStalledIssueIsReleased : ∃ (c : Fin 4) (w : Nat) (n : Fin 12) (s : State), (s.cores[c].st = .stalled) ∧ (fetches c w s) ∧ (nothingWaits c s) ∧ (mwIssue w = true) ∧ (mwSlices w = 2 ^ n.val) ∧ (mwOutputs w = 0) ∧ ((s.segEntry (s.coreSess c) (mwSeg w)).kind = 1) ∧ ((s.segEntry (s.coreSess c) (mwSeg w)).loops ≠ 0) ∧ (s.slices[n].feed.queue.length < 256) ∧ (mwTsSw w = false) ∧ (mwFwOp w = 0) ∧ (mwEmit w = 0) ∧ (mwAtomic w = false) ∧ (mwEnd w = false) ∧ (mwShotBnd w = false) ∧ (mwMode w ≠ 3) ∧ (mwMode w ≠ 4) :=
  ⟨0, mword 33 1 (2 ^ 90 + 2 ^ 50 + 3 * 2 ^ 78), 0, (coreState .stalled (mword 33 1 (2 ^ 90 + 2 ^ 50 + 3 * 2 ^ 78))).modSess 1 (fun x => { x with segActive := [(3, 1 + 64 * 2 ^ 32 + 2 ^ 64)] }), by decide +kernel⟩

theorem witness_ACoreHaltsAndSteps :
    (∃ (c : Fin 4) (s : State), (crosses s) ∧ (s.cores[c].st = .running ∨ s.cores[c].st = .waiting ∨ s.cores[c].st = .stalled) ∧ (s.cores[c].span = none)) ∧
    (∃ (c : Fin 4) (s : State), (crosses s) ∧ (s.cores[c].st = .running ∨ s.cores[c].st = .waiting ∨ s.cores[c].st = .stalled) ∧ (s.cores[c].span ≠ none)) ∧
    (∃ (c : Fin 4) (s : State), (crosses s) ∧ (s.cores[c].st = .halted)) ∧
    (∃ (c : Fin 4) (w : Nat) (s : State), (crosses s) ∧ (s.cores[c].st = .halted) ∧ (fetches c w s) ∧ (plainWord w) ∧ (s.cores[c].abortReq = false) ∧ (s.cores[c].haltReq = false) ∧ (mwWait w = false)) :=
  ⟨⟨0, coreState .running (mword 33 1 (2 ^ 105)), by decide +kernel⟩,
   ⟨0, (coreState .running (mword 33 1 (2 ^ 105))).modCore 0 (fun r => { r with span := some ⟨9, 0, resetCtx, []⟩ }), by decide +kernel⟩,
   ⟨0, coreState .halted (mword 33 1 (2 ^ 105)), by decide +kernel⟩,
   ⟨0, mword 33 1 (2 ^ 105), coreState .halted (mword 33 1 (2 ^ 105)), by decide +kernel⟩⟩

theorem witness_TheControlStoreIsPatrolledAndShown :
    (∃ (a : Fin 16384) (s : State), (s.csWord a = none)) ∧
    (∃ (a : Fin 16384) (x : CsWord) (s : State), (s.csWord a = some x)) ∧
    (∃ (s : State), (crosses s)) ∧
    (∃ (s : State), (crosses s)) :=
  ⟨⟨9, upState, by decide +kernel⟩,
   ⟨9, ⟨1, 77, #v[.clean, .single, .double]⟩, { upState with cs := ⟨[(9, ⟨1, 77, #v[.clean, .single, .double]⟩)], none⟩ }, by decide +kernel⟩,
   ⟨{ upState with cs := ⟨[(9, ⟨1, 77, #v[.clean, .single, .clean]⟩)], none⟩ }, by decide +kernel⟩,
   ⟨{ upState.set F.CSW_ADDR_AUTOINC [] 1 with cs := ⟨[], some (5, none)⟩ }, by decide +kernel⟩⟩

theorem witness_AProgramIsLoaded :
    (∃ (g : Fin 4) (k : Fin 16) (w : Nat) (s : State), (s.fws[g].loading = true) ∧ (s.fws[g].pc < 16384) ∧ (s.ownerFw g = some k) ∧ (s.ownsRegion k (s.fws[g].pc / 1024) = true) ∧ (s.csWord s.fws[g].pc = some ⟨2, w, Vector.replicate 3 .clean⟩) ∧ (fFlow w = 7)) ∧
    (∃ (g : Fin 4) (s : State), (s.fws[g].loading = true) ∧ (s.fws[g].pc < 16384) ∧ (s.csWord s.fws[g].pc = none)) :=
  ⟨⟨0, 1, 7 * 2 ^ 16, { (setAct (owned upState) F.RM_OWN_CS_REGIONS [1] 1).modFw 0 (fun f => { f with loading := true, pc := 9 }) with cs := ⟨[(9, ⟨2, 7 * 2 ^ 16, Vector.replicate 3 .clean⟩)], none⟩ }, by decide +kernel⟩,
   ⟨0, upState.modFw 0 (fun f => { f with loading := true, pc := 9 }), by decide +kernel⟩⟩

theorem witness_TableEntriesAreWritten :
    (∃ (g : Fin 4) (s : State), (crosses s) ∧ (s.fwState g ≤ 1) ∧ (s.get F.FW_SCR_ADDR_AUTOINC [g] = 1)) ∧
    (∃ (g : Fin 4) (s : State), (crosses s) ∧ (1 < s.fwState g) ∧ (s.get F.FW_SCR_ADDR_AUTOINC [g] = 0)) ∧
    (∃ (o : Fin 16) (s : State), (crosses s) ∧ (s.act F.AO_CFG_SRC [o] ≠ 2) ∧ (s.get F.AO_TBL_ADDR_AUTOINC [o] = 0)) :=
  ⟨⟨0, ((upState.set F.FW_SCR_ADDR_AUTOINC [0] 1).set F.FW_SCR_ADDR_INDEX [0] 6).modFw 0 (fun f => { f with table := [(5, 1), (6, 2), (7, 3)] }), by decide +kernel⟩,
   ⟨0, upState.modFw 0 (fun f => { f with faulted := true }), by decide +kernel⟩,
   ⟨0, upState, by decide +kernel⟩⟩

theorem witness_TriggersAreArmedForcedAndStopped :
    (∃ (u : Fin 8) (s : State), (crosses s) ∧ (s.tgState u = 0)) ∧
    (∃ (u : Fin 8) (s : State), (crosses s) ∧ (s.tgState u ≠ 0)) ∧
    (∃ (u : Fin 8) (s : State), (s.tgState u = 0) ∧ (s.trigs[u].armSeen = true)) ∧
    (∃ (s : State), (crosses s)) ∧
    (∃ (u : Fin 8) (s : State), (crosses s) ∧ (s.tgState u = 1 ∨ s.tgState u = 2) ∧ (s.trigs[u].cap = none) ∧ (s.trigs[u].block = none)) :=
  ⟨⟨0, upState, by decide +kernel⟩,
   ⟨0, upState.set F.TG_STATUS_STATE [0] 1, by decide +kernel⟩,
   ⟨0, upState.modTrig 0 (fun g => { g with armSeen := true }), by decide +kernel⟩,
   ⟨upState, by decide +kernel⟩,
   ⟨0, upState.set F.TG_STATUS_STATE [0] 2, by decide +kernel⟩⟩

theorem witness_ACaptureTakesItsCourse :
    (∃ (u : Fin 8) (d : Nat) (s : State), (s.tgState u = 1) ∧ (s.dueEdge u = some d) ∧ (d ≤ s.edgeNow) ∧ (s.trigs[u].cap = none) ∧ (s.trigs[u].held = false) ∧ (s.leads u = none)) ∧
    (∃ (u : Fin 8) (k : Fin 16) (s : State), (s.trigs[u].fires = true) ∧ (s.tgState u = 2) ∧ (s.ownerTg u = some k) ∧ (s.leads u = none) ∧ (s.trigs[u].block.isSome = true) ∧ (s.tgPost u ≠ 0)) ∧
    (∃ (u : Fin 8) (s : State), (s.trigs[u].fires = true) ∧ (s.tgState u = 1) ∧ (∀ d, s.dueEdge u = some d → s.edgeNow < d) ∧ (s.leads u = none)) ∧
    (∃ (u : Fin 8) (k : Fin 16) (c : Capture) (a : Nat) (d : Nat) (s : State), (s.tgState u = 3) ∧ (s.trigs[u].rearm = 0) ∧ (s.leads u = none) ∧ (s.ownerTg u = some k) ∧ (s.trigs[u].cap = some c) ∧ (c.block = some a) ∧ (s.dueEdge u = some d) ∧ (d ≤ s.edgeNow) ∧ (s.trigs[u].fires = false) ∧ (s.trigs[u].tail = none) ∧ (s.sess[k].seq = none)) :=
  ⟨⟨0, 0, (owned upState).set F.TG_STATUS_STATE [0] 1, by decide +kernel⟩,
   ⟨0, 1, ((setAct (owned upState) F.TG_POST_SLOTS [0] 4).set F.TG_STATUS_STATE [0] 2).modTrig 0 (fun g => { g with fires := true, block := some 64, shot := 5, ignored := 2 }), by decide +kernel⟩,
   ⟨0, ((owned upState).set F.TG_STATUS_STATE [0] 1).modTrig 0 (fun g => { g with fires := true, fillAt := 4096 }), by decide +kernel⟩,
   ⟨0, 1, capture0, 64, 8192, ((((setAct (owned upState) F.TG_POST_SLOTS [0] 4).set F.TG_STATUS_STATE [0] 3).modTrig 0 (fun g => { g with cap := some capture0, block := some 64 })).modGl 1 (fun g => { g with blocks := [⟨0, 64, 3, false, none⟩] })).modTb (fun t => { t with tbc := 10240 }), by decide +kernel⟩⟩

theorem witness_OpenUnitsAreWritten :
    (∃ (k : Fin 16) (a : List Byte) (s : State), (s.gleaners[k].failUnit = some a) ∧ (a.length = 32) ∧ (s.anyFwd k = false) ∧ ((s.wptr k 0).ptr + 1 < s.rgnSize k 0) ∧ (s.rgnRoom k 0 (s.wptr k 0) 1 = true)) ∧
    (∃ (k : Fin 16) (s : State), (s.gleaners[k].line ≠ []) ∧ (s.gleaners[k].line.length ≤ 8) ∧ (s.anyFwd k = false) ∧ ((s.wptr k 2).ptr + 1 < s.rgnSize k 2) ∧ (s.rgnRoom k 2 (s.wptr k 2) 1 = true)) :=
  ⟨⟨1, leBytes 32 0x1234567890, (withRegion 0 (withView upState)).modGl 1 (fun g => { g with failUnit := some (leBytes 32 0x1234567890) }), by decide +kernel⟩,
   ⟨1, (withRegion 2 (withView upState)).modGl 1 (fun g => { g with line := [5, 6] }), by decide +kernel⟩⟩

theorem witness_CapturesReachMemory :
    (∃ (k : Fin 16) (n : Fin 12) (x : CapWord) (s : State), (s.slices[n].caps = [x]) ∧ (s.anyFwd k = false)) ∧
    (∃ (k : Fin 16) (b : CapBlock) (h : List Byte) (s : State), (s.gleaners[k].blocks = [b]) ∧ (b.header = some h) ∧ (h.length = 64) ∧ (s.anyFwd k = false) ∧ (b.endPtr < 2 ^ 30) ∧ (s.wordsWait k b.addr (s.rgnBase k 1 + 64 * (if b.endPtr = 0 then s.rgnSize k 1 else b.endPtr)) = false)) :=
  ⟨⟨1, 2, ⟨1, 68, 0x123, none⟩, (withView upState).modSlice 2 (fun x => { x with caps := [⟨1, 68, 0x123, none⟩] }), by decide +kernel⟩,
   ⟨1, ⟨0, 64, 3, false, some (leBytes 64 5)⟩, leBytes 64 5, (withRegion 1 (withView upState)).modGl 1 (fun g => { g with blocks := [⟨0, 64, 3, false, some (leBytes 64 5)⟩] }), by decide +kernel⟩⟩

theorem witness_APieceIsForwarded : ∃ (k : Fin 16) (n : Nat) (i : Option (Nat × Nat)) (s : State), ((State.runsTo n s.gleaners[k].runs[0]).headD ⟨n, none⟩ = ⟨n, i⟩) ∧ (s.fwdOn k 0 = true) ∧ (s.fieldUp = true) ∧ (s.rgnWrap k 0 = false) ∧ (0 < n) ∧ (n < s.get F.DATA_CFG_CHUNK [k] * 64) ∧ ((s.wptr k 0).ptr < s.rgnSize k 0) ∧ ((s.wptr k 0).lap = (s.get F.GL_RGN_RPTR_LAP [k, 0] == 1)) ∧ ((s.wptr k 0).ptr = s.get F.GL_RGN_RPTR_PTR [k, 0] + n) ∧ (s.host[k].dataWr + n < s.areaUnits k) ∧ (s.areaUsed k + n ≤ s.areaUnits k) ∧ (s.ringRoom k 2 = true) ∧ (s.sess[k].hasTag = false) ∧ (s.flt.inj = none) ∧ (s.pair F.DATA_BASE_LO_BASE F.DATA_BASE_HI_BASE [k] + 64 * s.areaUnits k ≤ s.ringBase k 2 + 64 * s.host[k].rings[2].wr) :=
  ⟨1, 2, none, { (((((withRing 1 2 (withRegion 0 (withView upState))).set F.DATA_CFG_FWD_FAIL [1] 1).set F.DATA_CFG_CHUNK [1] 4).set F.DATA_SIZE_SIZE [1] 1).set F.GL_RGN_WPTR_PTR [1, 0] 3).set F.GL_RGN_RPTR_PTR [1, 0] 1 with ddr := [(0x100041, 7)] }, by decide +kernel⟩

theorem witness_EdgesAreStamped :
    (∃ (i : Fin 112) (k : Fin 16) (s : State), (i.val = 96 + k.val) ∧ (s.act F.TM_IN_CFG_STAMP_EN [i] = 0)) ∧
    (∃ (i : Fin 112) (n : Fin 12) (l : Fin 8) (s : State), (i.val = 8 * n.val + l.val) ∧ (s.act F.TM_IN_CFG_STAMP_EN [i] = 0)) ∧
    (∃ (i : Fin 112) (tk : Nat) (vp : Int) (vn : Int) (s : State), (s.act F.TM_IN_CFG_STAMP_EN [i] = 0 ∨ (∀ d, (s.crossInput i (s.tickOf tk) vp vn).2 = some d → State.counts (s.act F.TM_IN_CFG_EDGE [i]) d = false))) ∧
    (∃ (i : Fin 112) (tk : Nat) (vp : Int) (vn : Int) (x : Int) (d : Bool) (s : State), (s.act F.TM_IN_CFG_STAMP_EN [i] ≠ 0) ∧ ((s.crossInput i (s.tickOf tk) vp vn).2 = some d) ∧ (State.counts (s.act F.TM_IN_CFG_EDGE [i]) d = true) ∧ (s.inputs[i].last = some x) ∧ ((s.tickOf tk : Int) < x + 656)) ∧
    (∃ (i : Fin 112) (tk : Nat) (vp : Int) (vn : Int) (d : Bool) (s : State), (s.act F.TM_IN_CFG_STAMP_EN [i] ≠ 0) ∧ ((s.crossInput i (s.tickOf tk) vp vn).2 = some d) ∧ (State.counts (s.act F.TM_IN_CFG_EDGE [i]) d = true) ∧ (State.spaced s.inputs[i] (s.tickOf tk) = true) ∧ (s.inputs[i].fifo.length < 512)) ∧
    (∃ (i : Fin 112) (tk : Nat) (vp : Int) (vn : Int) (d : Bool) (s : State), (s.act F.TM_IN_CFG_STAMP_EN [i] ≠ 0) ∧ ((s.crossInput i (s.tickOf tk) vp vn).2 = some d) ∧ (State.counts (s.act F.TM_IN_CFG_EDGE [i]) d = true) ∧ (State.spaced s.inputs[i] (s.tickOf tk) = true) ∧ (512 ≤ s.inputs[i].fifo.length)) ∧
    (∃ (n : Fin 12) (l : Fin 8) (tk : Nat) (balls : List BallVolts) (v : BallVolts) (s : State), (s.slices[n].feed.play = none) ∧ (s.slices[n].feed.waitAt = none) ∧ (balls[l.val]? = some v) ∧ (s.act F.CH_LVL_HYST [n, l] = 0) ∧ (settled s.slices[n].lanes[l] (s.tickOf tk)) ∧ (s.laneCross n l = (s.laneVolts n l (s.tickOf tk) v.p v.n).laneCross n l)) :=
  ⟨⟨98, 2, upState, by decide +kernel⟩,
   ⟨3, 0, 3, upState, by decide +kernel⟩,
   ⟨98, 5000, 950000, 0, upState, by decide +kernel⟩,
   ⟨98, 5000, 950000, 0, 4900, true, (setAct upState F.TM_IN_CFG_STAMP_EN [98] 1).modInput 98 (fun y => { y with last := some 4900 }), by decide +kernel⟩,
   ⟨98, 5000, 950000, 0, true, setAct (setAct (setAct upState F.TM_IN_CFG_STAMP_EN [98] 1) F.TM_MU_CFG_EN [3] 1) F.TM_MU_CFG_IN_A [3] 98, by decide +kernel⟩,
   ⟨98, 5000, 950000, 0, true, (setAct upState F.TM_IN_CFG_STAMP_EN [98] 1).modInput 98 (fun y => { y with fifo := List.replicate 512 ⟨5, true, 0, false, false, true, none⟩ }), by decide +kernel⟩,
   ⟨4, 0, 5000, [⟨50000, 0⟩], ⟨50000, 0⟩, upState.putActive (Reg.key .CH_LVL [4, 0]) 0x00C80F38, by decide +kernel⟩⟩

theorem witness_EdgesAreMeasured :
    (∃ (u : Fin 16) (s : State), (s.act F.TM_MU_GATE_ALWAYS [u] = 0) ∧ (s.meas[u].gate = none) ∧ (s.meas[u].gateIn = true)) ∧
    (∃ (u : Fin 16) (k : Fin 16) (g : Nat) (a : Stamp) (b : Stamp) (s : State), (s.act F.TM_MU_GATE_ALWAYS [u] = 0) ∧ (s.meas[u].gate = some g) ∧ (s.meas[u].gateIn = false) ∧ (s.meas[u].queue = []) ∧ (s.act F.TM_MU_CFG_EN [u] = 1) ∧ (s.act F.TM_MU_CFG_MODE [u] = 4) ∧ (s.meas[u].a = some a) ∧ (s.meas[u].lastA = some b) ∧ (2 ≤ s.meas[u].edges) ∧ (s.meas[u].edges < 2 ^ 32) ∧ (a.t < b.t) ∧ (b.t < a.t + 2 ^ 48) ∧ (s.ownerMu u = some k) ∧ (s.rgnSize k 2 ≠ 0) ∧ (s.sess[k].burst = none) ∧ (s.meas[u].stale = false) ∧ (s.meas[u].lossy = []) ∧ (s.meas[u].quality < 4)) ∧
    (∃ (u : Fin 16) (g : Nat) (s : State), (s.act F.TM_MU_GATE_ALWAYS [u] = 0) ∧ (s.meas[u].gate = some g) ∧ (s.meas[u].gateIn = false) ∧ (s.meas[u].queue = []) ∧ (s.muOn u = true) ∧ (s.act F.TM_MU_CFG_MODE [u] ≠ 4) ∧ (s.meas[u].n = 0)) ∧
    (∃ (m : Fin 16) (b : Stamp) (a : Stamp) (rest : List MaskWin) (s : State), (s.masks[m].wins = ⟨b, some a, [], false⟩ :: rest) ∧ (s.winHi m ⟨b, some a, [], false⟩ < s.now) ∧ (b.stale = false) ∧ (a.stale = false) ∧ (∀ k : Fin 16, s.sess[k].burst = none)) ∧
    (∃ (m : Fin 16) (k : Fin 16) (b : Stamp) (rest : List MaskWin) (s : State), (s.masks[m].wins = ⟨b, none, [], false⟩ :: rest) ∧ (s.winHi m ⟨b, none, [], false⟩ < s.now) ∧ (s.ownerMt m = some k) ∧ (s.act F.GL_MT_CFG_STOP [m] = 0)) ∧
    (∃ (m : Fin 16) (w : MaskWin) (rest : List MaskWin) (s : State), (s.masks[m].wins = w :: rest) ∧ ((s.now : Int) ≤ s.winHi m w)) ∧
    (∃ (m : Fin 16) (k : Fin 16) (x : Stamp) (rest : List Stamp) (s : State), (s.masks[m].loose = x :: rest) ∧ (s.strayDue m x = true) ∧ (s.ownerMt m = some k) ∧ (s.act F.GL_MT_CFG_STOP [m] = 0) ∧ (s.act F.GL_MT_CFG_STRAY_EN [m] = 1)) ∧
    (∃ (m : Fin 16) (x : Stamp) (rest : List Stamp) (s : State), (s.masks[m].loose = x :: rest) ∧ (s.strayDue m x = false)) ∧
    (∃ (m : Fin 16) (x : Stamp) (rest : List Stamp) (s : State), (s.masks[m].loose = x :: rest) ∧ (s.strayDue m x = true) ∧ (s.act F.GL_MT_CFG_STRAY_EN [m] ≠ 1)) ∧
    (∃ (s : State), (∀ k : Fin 16, s.rgnSize k 2 = 0)) :=
  ⟨⟨0, upState.modMeas 0 (fun y => { y with gateIn := true }), by decide +kernel⟩,
   ⟨0, 1, 100, ⟨5000, true, 1, false, false, true, none⟩, ⟨9000, true, 0, false, false, true, none⟩, (setAct (setAct (withRegion 2 (owned upState)) F.TM_MU_CFG_EN [0] 1) F.TM_MU_CFG_MODE [0] 4).modMeas 0 (fun y => { y with gate := some 100, a := some ⟨5000, true, 1, false, false, true, none⟩, lastA := some ⟨9000, true, 0, false, false, true, none⟩, edges := 5, quality := 1 }), by decide +kernel⟩,
   ⟨0, 100, (setAct (owned upState) F.TM_MU_CFG_EN [0] 1).modMeas 0 (fun y => { y with gate := some 100, a := some ⟨5000, true, 1, false, false, true, none⟩ }), by decide +kernel⟩,
   ⟨0, ⟨9000, true, 0, false, false, true, none⟩, ⟨5000, true, 1, false, false, true, none⟩, [], (owned { upState with tb := { upState.tb with tbc := 0x100000 } }).modMask 0 (fun y => { y with wins := [⟨⟨9000, true, 0, false, false, true, none⟩, some ⟨5000, true, 1, false, false, true, none⟩, [], false⟩] }), by decide +kernel⟩,
   ⟨0, 1, ⟨9000, true, 2, true, false, true, none⟩, [], (owned { upState with tb := { upState.tb with tbc := 0x100000 } }).modMask 0 (fun y => { y with wins := [⟨⟨9000, true, 2, true, false, true, none⟩, none, [], false⟩] }), by decide +kernel⟩,
   ⟨0, ⟨⟨9000, true, 0, false, false, true, none⟩, some ⟨5000, true, 1, false, false, true, none⟩, [], false⟩, [], (owned ({ upState with tb := { upState.tb with tbc := 9000 } })).modMask 0 (fun y => { y with wins := [⟨⟨9000, true, 0, false, false, true, none⟩, some ⟨5000, true, 1, false, false, true, none⟩, [], false⟩] }), by decide +kernel⟩,
   ⟨0, 1, ⟨5000, true, 1, true, false, true, none⟩, [], (setAct (owned { upState with tb := { upState.tb with tbc := 0x100000 } }) F.GL_MT_CFG_STRAY_EN [0] 1).modMask 0 (fun y => { y with loose := [⟨5000, true, 1, true, false, true, none⟩] }), by decide +kernel⟩,
   ⟨0, ⟨5000, true, 1, true, false, true, none⟩, [], (owned { upState with tb := { upState.tb with tbc := 5000 } }).modMask 0 (fun y => { y with loose := [⟨5000, true, 1, true, false, true, none⟩] }), by decide +kernel⟩,
   ⟨0, ⟨5000, true, 1, true, false, true, none⟩, [], (owned { upState with tb := { upState.tb with tbc := 0x100000 } }).modMask 0 (fun y => { y with loose := [⟨5000, true, 1, true, false, true, none⟩] }), by decide +kernel⟩,
   ⟨{ upState with tb := { upState.tb with tbc := 0x7000000000000 } }, by decide +kernel⟩⟩

theorem witness_EventsAreRouted :
    (∃ (st : Nat) (clr : Nat) (s : State), (st < 256) ∧ (clr < 256) ∧ (crosses s)) ∧
    (∃ (clr : Nat) (s : State), (0 < clr) ∧ (crosses s)) ∧
    (∃ (mask : Nat) (s : State), (0 < mask) ∧ (mask < 256) ∧ (crosses s)) ∧
    (∃ (ev : Fin 256) (x : EvSample) (s : State), (s.hr.samples.find? (fun y => y.ev == ev.val) = some x) ∧ (x.sampled = true) ∧ (∀ k : Fin 16, s.act F.HR_RING_EN_EN [k, ev.val / 32] = 0)) ∧
    (∃ (ev : Fin 256) (acts : Nat) (rose : Bool) (s : State), (s.hr.samples.any (fun y => y.ev == ev.val && y.acts == acts && y.rose == rose) = false)) ∧
    (∃ (ev : Fin 256) (x : EvSample) (k : Fin 16) (left : Nat) (s : State), (s.hr.samples.find? (fun y => y.ev == ev.val) = some x) ∧ (x.sampled = true) ∧ (s.ringTakes k ev = true) ∧ (∀ j : Fin 16, j ≠ k → s.ringTakes j ev = false) ∧ (s.hr.holdoffs = [⟨k, ev, 0, 0, none, 0, left⟩]) ∧ (State.risesFor x k = true)) ∧
    (∃ (k : Fin 16) (ev : Fin 256) (n : Nat) (f : Nat) (q : Nat) (left : Nat) (i : Option (Nat × Nat)) (s : State), (s.hr.samples.find? (fun y => y.ev == ev.val) = none) ∧ (s.hr.holdoffs = [⟨k, ev, n, f, i, q, left⟩]) ∧ (left ≠ 0)) ∧
    (∃ (k : Fin 16) (ev : Fin 256) (n : Nat) (f : Nat) (q : Nat) (left : Nat) (i : Option (Nat × Nat)) (s : State), (s.hr.samples.find? (fun y => y.ev == ev.val) = none) ∧ (s.hr.holdoffs = [⟨k, ev, n, f, i, q, left⟩]) ∧ (left = 0) ∧ (n = 0)) ∧
    (∃ (k : Fin 16) (ev : Fin 256) (n : Nat) (f : Nat) (q : Nat) (s : State), (s.hr.samples.find? (fun y => y.ev == ev.val) = none) ∧ (s.hr.holdoffs = [⟨k, ev, n, f, none, q, 0⟩]) ∧ (0 < n) ∧ (q < 4) ∧ (n < 2 ^ 32) ∧ (f < 2 ^ 48) ∧ (s.act F.HR_RING_CFG_HOLDOFF [k] ≠ 0) ∧ (crosses s) ∧ (s.ringRoom k 3 = true) ∧ (s.host[k].evDropped = 0)) ∧
    (∃ (c : Fin 64) (s : State), (s.act F.HR_SC_CFG_FILT [c] ≠ 0)) ∧
    (∃ (c : Fin 64) (d : Bool) (s : State), (s.act F.HR_SC_CFG_FF [c] = 1) ∧ (s.act F.HR_SC_CFG_EDGE [c] < 4) ∧ (d = (if s.act F.HR_SC_CFG_FILT [c] = 0 then s.cellLut c else s.hr.cells[c].filt))) ∧
    (∃ (g : Fin 16) (s : State), (s.hr.cgOn.contains g.val = true) ∧ (s.hr.cgOff.contains g.val = false) ∧ (s.hr.cgs[g] = false)) ∧
    (∃ (g : Fin 16) (s : State), (s.hr.cgOff.contains g.val = true) ∧ (s.hr.cgs[g] = true) ∧ (s.hr.cgOn.contains g.val = true)) ∧
    (∃ (g : Fin 16) (s : State), (s.hr.cgOff.contains g.val = true) ∧ (s.hr.cgs[g] = true)) :=
  ⟨⟨0x1F, 0x11, ((upState.set F.HR_ECNT_SEL_EN [3] 1).set F.HR_ECNT_SEL_EV [3] 17).modHr (fun r => { r with samples := [⟨17, 3, true, true, 0, []⟩] }), by decide +kernel⟩,
   ⟨0x11, ((upState.set F.HR_ECNT_SEL_EN [3] 1).set F.HR_ECNT_SEL_EV [3] 17).modHr (fun r => { r with samples := [⟨17, 3, true, true, 0, []⟩] }), by decide +kernel⟩,
   ⟨0x42, ((upState.set F.HR_ECNT_SEL_EN [3] 1).set F.HR_ECNT_SEL_EV [3] 17).modHr (fun r => { r with samples := [⟨17, 3, true, true, 0, []⟩] }), by decide +kernel⟩,
   ⟨17, ⟨17, 3, true, true, 0, []⟩, ((upState.set F.HR_ECNT_SEL_EN [3] 1).set F.HR_ECNT_SEL_EV [3] 17).modHr (fun r => { r with samples := [⟨17, 3, true, true, 0, []⟩] }), by decide +kernel⟩,
   ⟨17, 3, false, upState, by decide +kernel⟩,
   ⟨17, ⟨17, 3, true, true, 0, []⟩, 1, 5, (setAct (withRing 1 3 upState) F.HR_RING_EN_EN [1, 0] 0x20000).modHr (fun r => { r with samples := [⟨17, 3, true, true, 0, []⟩], holdoffs := [⟨1, 17, 0, 0, none, 0, 5⟩] }), by decide +kernel⟩,
   ⟨1, 17, 4, 77, 0, 3, none, upState.modHr (fun r => { r with holdoffs := [⟨1, 17, 4, 77, none, 0, 3⟩] }), by decide +kernel⟩,
   ⟨1, 17, 0, 77, 0, 0, none, upState.modHr (fun r => { r with holdoffs := [⟨1, 17, 0, 77, none, 0, 0⟩] }), by decide +kernel⟩,
   ⟨1, 17, 4, 77, 0, (setAct (withRing 1 3 upState) F.HR_RING_CFG_HOLDOFF [1] 9).modHr (fun r => { r with holdoffs := [⟨1, 17, 4, 77, none, 0, 0⟩] }), by decide +kernel⟩,
   ⟨5, setAct upState F.HR_SC_CFG_FILT [5] 3, by decide +kernel⟩,
   ⟨5, true, setAct (setAct (setAct upState F.HR_SC_CFG_FF [5] 1) F.HR_SC_CFG_EDGE [5] 1) F.HR_SC_CFG_LUT [5] 1, by decide +kernel⟩,
   ⟨2, upState.modHr (fun r => { r with cgs := r.cgs.set 2 false, cgOn := [2] }), by decide +kernel⟩,
   ⟨2, upState.modHr (fun r => { r with cgs := r.cgs.set 2 true, cgOn := [2], cgOff := [2] }), by decide +kernel⟩,
   ⟨2, upState.modHr (fun r => { r with cgs := r.cgs.set 2 true, cgOff := [2] }), by decide +kernel⟩⟩

theorem witness_UnitsPlayTheirSegments :
    (∃ (n : Fin 12) (p : Play) (v : Nat) (rest : List Nat) (s : State), (s.slices[n].feed.play = some p) ∧ (s.unitHalted (.slice n) = false) ∧ (p.seg.kind ≠ 2) ∧ (p.phase = 1) ∧ (p.wallSlip = false) ∧ (p.pend = none) ∧ (p.next < p.seg.length) ∧ (p.pass < p.seg.loops) ∧ (s.slices[n].feed.pins = []) ∧ (s.slices[n].feed.buf = v :: rest) ∧ (s.flt.inj = none) ∧ (s.slices[n].feed.waitAt = none) ∧ (s.slices[n].feed.reqs = []) ∧ (s.gangWaits n p.seg p.segStart p.slotEnd false = false) ∧ (s.commit.pends = []) ∧ (∀ k : Fin 16, s.sess[k].burst = none)) ∧
    (∃ (n : Fin 12) (d : Seg) (tk : Nat) (v : Nat) (rest : List Nat) (s : State), (s.slices[n].feed.play = none) ∧ (s.slices[n].feed.startAt = some tk) ∧ (s.slices[n].feed.queue = [.seg d]) ∧ (s.slices[n].feed.pins = []) ∧ (s.slices[n].feed.buf = v :: rest) ∧ (d.kind ≠ 2) ∧ (0 < d.length) ∧ (0 < d.loops) ∧ (d.shA = none) ∧ (d.shB = none) ∧ (s.commit.pends = []) ∧ (s.flt.inj = none) ∧ (s.calState n ≠ 4) ∧ (s.slices[n].feed.reqs = []) ∧ (∀ l, l < 8 → s.laneBankOff n l = false) ∧ (∀ k : Fin 16, s.sess[k].burst = none) ∧ (∀ m : Fin 12, m ≠ n → s.slices[m].feed.play = none ∧ s.slices[m].feed.startAt = none)) ∧
    (∃ (o : Fin 16) (p : Play) (v : Nat) (rest : List Nat) (s : State), (s.aos[o].feed.play = some p) ∧ (s.unitHalted (.out o) = false) ∧ (p.phase = 1) ∧ (p.wallSlip = false) ∧ (p.pend = none) ∧ (p.next < p.seg.length) ∧ (p.pass < p.seg.loops) ∧ (s.aos[o].feed.buf = v :: rest) ∧ (s.flt.inj = none) ∧ (s.aos[o].feed.waitAt = none) ∧ (s.aos[o].feed.reqs = [])) ∧
    (∃ (o : Fin 16) (p : Play) (e : AoSlot) (old : List AoSlot) (s : State), (s.aos[o].feed.play = some p) ∧ (s.unitHalted (.out o) = false) ∧ (p.phase = 1) ∧ (p.wallSlip = false) ∧ (p.pend = none) ∧ (p.next = p.seg.length) ∧ (p.pass + 1 = p.seg.loops) ∧ (p.seg.endAct = 2) ∧ (s.aos[o].slots = e :: old) ∧ (s.aos[o].feed.waitAt = none) ∧ (s.aos[o].feed.reqs = [])) ∧
    (∃ (o : Fin 16) (d : Seg) (tk : Nat) (v : Nat) (rest : List Nat) (s : State), (s.aos[o].feed.play = none) ∧ (s.aos[o].feed.startAt = some tk) ∧ (s.get F.AO_STATUS_RANGE_CHG [o] = 0) ∧ (s.aos[o].feed.queue = [.seg d]) ∧ (s.aos[o].feed.buf = v :: rest) ∧ (0 < d.length) ∧ (0 < d.loops) ∧ (s.commit.pends = []) ∧ (s.flt.inj = none) ∧ (d.shA = none) ∧ (d.shB = none) ∧ (s.aos[o].feed.reqs = [])) :=
  ⟨⟨2, play0, 0x234, [7], ((withSeq upState).modSlice 2 (fun x => { x with feed := { x.feed with play := some play0, buf := [0x234, 7], sess := 1 } })), by decide +kernel⟩,
   ⟨2, seg0, 8192, 0x234, [7], (upState.modSlice 2 (fun x => { x with feed := { x.feed with queue := [.seg seg0], startAt := some 8192, buf := [0x234, 7], sess := 1 } })), by decide +kernel⟩,
   ⟨1, play0, 0x234, [7], ((withSeq upState).modAo 1 (fun x => { x with feed := { x.feed with play := some play0, buf := [0x234, 7], sess := 1 } })), by decide +kernel⟩,
   ⟨1, { play0 with next := 8, pass := 1, seg := { seg0 with endAct := 2 } }, ⟨4096, 0x234, 0, false⟩, [], ((withSeq upState).modAo 1 (fun x => { x with slots := [⟨4096, 0x234, 0, false⟩], feed := { x.feed with play := some { play0 with next := 8, pass := 1, seg := { seg0 with endAct := 2 } }, sess := 1 } })), by decide +kernel⟩,
   ⟨1, seg0, 8192, 0x234, [7], (upState.modAo 1 (fun x => { x with feed := { x.feed with queue := [.seg seg0], startAt := some 8192, buf := [0x234, 7], sess := 1 } })), by decide +kernel⟩⟩

theorem witness_BallsFollowTheirRanks :
    (∃ (b : Bool) (mv : Nat) (s : State), (s.bankInRange b mv = false)) ∧
    (∃ (b : Bool) (mv : Nat) (s : State), (s.bankInRange b mv = true)) ∧
    (∃ (n : Fin 12) (s : State), (crosses s) ∧ (s.get F.CH_SPARE_STATUS_BUSY [n] = 0) ∧ (s.get F.CH_SPARE_STATUS_IN_USE [n] = 0) ∧ (s.get F.FLT_SC_STAT_TG8_BAD [n] = 0) ∧ (s.cal.run = none)) ∧
    (∃ (n : Fin 12) (s : State), (crosses s) ∧ (s.get F.CH_SPARE_STATUS_BUSY [n] = 0) ∧ (s.get F.CH_SPARE_STATUS_IN_USE [n] = 1 ∨ s.get F.FLT_SC_STAT_TG8_BAD [n] = 1)) ∧
    (∃ (n : Fin 12) (l : Fin 8) (err : Int) (s : State), (crosses s) ∧ (s.get F.CH_SPARE_STATUS_BUSY [n] = 0) ∧ (s.get F.CH_SPARE_STATUS_IN_USE [n] = 1) ∧ (s.get F.CH_SPARE_STATUS_LANE [n] = l) ∧ (s.sliceBusy n = false) ∧ (s.flt.inj = none) ∧ (err.natAbs ≤ s.get F.FLT_SC_CFG_TOL) ∧ (s.cal.run = none)) ∧
    (∃ (n : Fin 12) (w : SpareSwap) (s : State), (s.slices[n].swap = some w) ∧ (w.stage = 1)) ∧
    (∃ (n : Fin 12) (w : SpareSwap) (s : State), (s.slices[n].swap = some w) ∧ (w.stage = 2)) ∧
    (∃ (n : Fin 12) (w : SpareSwap) (s : State), (s.slices[n].swap = some w) ∧ (w.stage = 3)) ∧
    (∃ (n : Fin 12) (w : SpareSwap) (s : State), (s.slices[n].swap = some w) ∧ (w.stage = 4)) ∧
    (∃ (n : Fin 12) (err : Int) (s : State), (s.get F.FLT_SC_CFG_PERIOD ≠ 0) ∧ (s.sliceStale n = false) ∧ (s.flt.inj = none) ∧ (err.natAbs ≤ s.get F.FLT_SC_CFG_TOL)) ∧
    (∃ (n : Fin 12) (l : Fin 8) (err : Int) (s : State), (s.get F.FLT_SC_CFG_PERIOD ≠ 0) ∧ (s.sliceStale n = false) ∧ (s.flt.inj = none) ∧ (s.get F.FLT_SC_CFG_TOL < err.natAbs) ∧ (s.flt.scFails[n][Fin.ofNat 9 l.val] = 2) ∧ (s.slices[n].swap = none) ∧ (s.get F.CH_SPARE_STATUS_BUSY [n] = 0) ∧ (s.get F.CH_SPARE_STATUS_IN_USE [n] = 0) ∧ (s.get F.FLT_SC_STAT_TG8_BAD [n] = 0) ∧ (s.cal.run = none)) :=
  ⟨⟨true, 100, upState, by decide +kernel⟩,
   ⟨true, 1200, upState, by decide +kernel⟩,
   ⟨2, upState, by decide +kernel⟩,
   ⟨2, upState.set F.CH_SPARE_STATUS_IN_USE [2] 1, by decide +kernel⟩,
   ⟨2, 3, 9, (upState.set F.CH_SPARE_STATUS_IN_USE [2] 1).set F.CH_SPARE_STATUS_LANE [2] 3, by decide +kernel⟩,
   ⟨2, ⟨3, false, 1, 0⟩, upState.modSlice 2 (fun x => { x with swap := some ⟨3, false, 1, 0⟩ }), by decide +kernel⟩,
   ⟨2, ⟨3, false, 2, 0⟩, upState.modSlice 2 (fun x => { x with swap := some ⟨3, false, 2, 0⟩ }), by decide +kernel⟩,
   ⟨2, ⟨3, false, 3, 0⟩, upState.modSlice 2 (fun x => { x with swap := some ⟨3, false, 3, 0⟩ }), by decide +kernel⟩,
   ⟨2, ⟨3, false, 4, 0⟩, (upState.modSlice 2 (fun x => { x with swap := some ⟨3, false, 4, 0⟩ })).modLane 2 3 (fun x => { x with held := true }), by decide +kernel⟩,
   ⟨2, 9, ((upState.set F.FLT_SC_CFG_PERIOD [] 1).set F.FLT_SC_CFG_TOL [] 10).set F.FLT_SC_STAT_TG8_BAD [2] 1, by decide +kernel⟩,
   ⟨2, 3, -300, ((upState.set F.FLT_SC_CFG_PERIOD [] 1).set F.FLT_SC_CFG_TOL [] 10).modFlt (fun f => { f with scFails := f.scFails.set 2 ((f.scFails[2]).set 3 2) }), by decide +kernel⟩⟩

theorem witness_OutputsMoveAndCalibrate :
    (∃ (o : Fin 16) (s : State), (s.aos[o].accAt = some s.edgeNow)) ∧
    (∃ (o : Fin 16) (s : State), (s.act F.AO_CFG_SRC [o] = 0) ∧ (s.aos[o].accAt ≠ some s.edgeNow)) ∧
    (∃ (o : Fin 16) (s : State), (s.act F.AO_CFG_SRC [o] = 1) ∧ (s.aos[o].phoff = s.act F.AO_NCO_PHOFF [o]) ∧ (s.aos[o].accAt ≠ some s.edgeNow)) ∧
    (∃ (o : Fin 16) (s : State), (s.act F.AO_CFG_SRC [o] = 2) ∧ (s.aos[o].phoff = s.act F.AO_NCO_PHOFF [o]) ∧ (s.act F.AO_NCO_TINTERP [o] = 0) ∧ (s.act F.AO_NCO_TBITS [o] ≤ 14) ∧ (s.flt.inj = none) ∧ (s.aos[o].accAt ≠ some s.edgeNow)) ∧
    (∃ (o : Fin 16) (s : State), (s.aoLimited o = false ∨ s.slewDue o = false)) ∧
    (∃ (o : Fin 16) (s : State), (s.aoLimited o = true) ∧ (s.slewDue o = true)) ∧
    (∃ (o : Fin 16) (s : State), (s.get F.AO_STATUS_COMPLIANCE [o] = 0) ∧ (s.get F.AO_STATUS_RANGE_CHG [o] = 0) ∧ (s.act F.AO_CFG_SUPV_ACT [o] = 0) ∧ (s.flt.inj = none)) ∧
    (∃ (o : Fin 16) (s : State), (4 ≤ s.act F.AO_CFG_SPAN [o]) ∧ (s.get F.AO_STATUS_COMPLIANCE [o] = 1) ∧ (s.get F.AO_STATUS_OPEN_LOAD [o] = 0) ∧ (s.get F.AO_STATUS_RANGE_CHG [o] = 0) ∧ (s.act F.AO_CFG_SUPV_ACT [o] = 0) ∧ (s.flt.inj = none) ∧ (1000000 * 2 ^ 20 ≤ codeValue (s.act F.AO_CFG_SPAN [o]) (s.aoTarget o))) ∧
    (∃ (v : Int) (i : Int), (-32768 ≤ v) ∧ (v < 32768) ∧ (-32768 ≤ i) ∧ (i < 32768)) ∧
    (∃ (o : Fin 16) (s : State), (s.get F.AO_STATUS_RANGE_CHG [o] = 1) ∧ (3276800 ≤ (s.now : Int) - s.aos[o].rangeAt) ∧ (s.aos[o].feed.queue = [])) ∧
    (∃ (s : State), (s.flt.inj = none) ∧ (∀ o : Fin 16, s.ownerAo o = none) ∧ (s.cal.run = none)) ∧
    (∃ (u : Fin 36) (s : State), (crosses s) ∧ (State.calCode u = true) ∧ (s.calState u < 2) ∧ (s.cal.due = [])) ∧
    (∃ (u : Fin 36) (s : State), (State.calCode u = true) ∧ (s.calState u < 2) ∧ (s.cal.due = []) ∧ (s.get F.CAL_CFG_AUTO_EN = 1) ∧ (s.get F.CAL_INTERVAL_SECONDS ≠ 0) ∧ (s.cal.units[u].start + s.get F.CAL_INTERVAL_SECONDS * 1638400000000 ≤ (s.now : Int))) ∧
    (∃ (u : Fin 36) (c : Nat) (s : State), (s.cal.run = none) ∧ (s.cal.due = [(c, u.val)]) ∧ (s.calBlocked u = false) ∧ (u.val < 16)) ∧
    (∃ (u : Fin 36) (a : List Int) (b : List Int) (s : State), (s.cal.run = some u) ∧ (32 ≤ u.val) ∧ (s.cal.units[u].heldCause = none) ∧ (State.calAgree u a b = true) ∧ (s.portUp (Fin.ofNat 4 u) = false)) ∧
    (∃ (n : Fin 12) (a : List Int) (b : List Int) (s : State), (s.cal.run = some (Fin.ofNat 36 n.val)) ∧ (s.slices[n].feed.play ≠ none) ∧ (State.calAgree n a b = true)) ∧
    (∃ (u : Fin 36) (a : List Int) (b : List Int) (s : State), (s.cal.run = some u) ∧ (s.cal.fails < 3) ∧ (State.calAgree u a b = false)) ∧
    (∃ (u : Fin 36) (a : List Int) (b : List Int) (s : State), (s.cal.run = some u) ∧ (s.cal.fails = 3) ∧ (u.val < 16) ∧ (s.cal.units[u].heldCause = none) ∧ (State.calAgree u a b = false)) :=
  ⟨⟨1, upState.modAo 1 (fun x => { x with accAt := some 0 }), by decide +kernel⟩,
   ⟨1, setAct (setAct upState F.AO_FTW_LO_FTW [1] 77) F.AO_FTW_HI_FTW [1] 3, by decide +kernel⟩,
   ⟨1, setAct (setAct (setAct upState F.AO_FTW_LO_FTW [1] 77) F.AO_CFG_SRC [1] 1) F.AO_OFFSET_OFFSET [1] 500000, by decide +kernel⟩,
   ⟨1, (setAct (setAct (setAct upState F.AO_FTW_HI_FTW [1] 0x300) F.AO_CFG_SRC [1] 2) F.AO_NCO_TBITS [1] 8).modAo 1 (fun x => { x with table := [(3, 0x700123)] }), by decide +kernel⟩,
   ⟨1, upState, by decide +kernel⟩,
   ⟨1, (setAct (setAct upState F.AO_SLEW_EN [1] 1) F.AO_SLEW_STEP [1] 10).modAo 1 (fun x => { x with value := 5 }), by decide +kernel⟩,
   ⟨1, upState, by decide +kernel⟩,
   ⟨1, ((setAct upState F.AO_CFG_SPAN [1] 4).set F.AO_STATUS_COMPLIANCE [1] 1).modAo 1 (fun x => { x with committed := true, heldVal := some 1000000 }), by decide +kernel⟩,
   ⟨-5, 77, by decide +kernel⟩,
   ⟨1, (upState.set F.AO_STATUS_RANGE_CHG [1] 1).modAo 1 (fun x => { x with rangeAt := -4000000 }), by decide +kernel⟩,
   ⟨upState, by decide +kernel⟩,
   ⟨33, upState, by decide +kernel⟩,
   ⟨33, ((upState.set F.CAL_CFG_AUTO_EN [] 1).set F.CAL_INTERVAL_SECONDS [] 10).modCal (fun c => { c with units := c.units.set 33 { c.units[33] with start := -20000000000000 } }), by decide +kernel⟩,
   ⟨2, 4, upState.modCal (fun c => { c with due := [(4, 2)] }), by decide +kernel⟩,
   ⟨33, [3, 4], [4, 4], upState.modCal (fun c => { c with run := some 33 }), by decide +kernel⟩,
   ⟨2, [3, 4], [5, 4], (upState.modCal (fun c => { c with run := some 2 })).modSlice 2 (fun x => { x with feed := { x.feed with play := some play0 } }), by decide +kernel⟩,
   ⟨33, [0], [500], upState.modCal (fun c => { c with run := some 33 }), by decide +kernel⟩,
   ⟨2, [0], [500], upState.modCal (fun c => { c with run := some 2, fails := 3 }), by decide +kernel⟩⟩

theorem witness_PatternsArePaged :
    (∃ (lines : Nat) (v : Nat) (e : Nat) (s : State), (v = lines &&& s.hr.jlRise) ∧ (e = s.hr.jlAt)) ∧
    (∃ (u : Fin 28) (which : Bool) (p : Play) (d : Seg) (s : State), ((s.feed (State.playUnit u)).play = some p) ∧ (p.wallSlip = false) ∧ (State.isStaged p which = false) ∧ (p.desc which = some d) ∧ (s.flt.inj = none) ∧ (d.kind ≠ 2) ∧ (64 ≤ presentFrom (s.feed (State.playUnit u)) d (if which then p.bufB else p.bufA) 0)) ∧
    (∃ (k : Fin 16) (page : Nat) (s : State), (s.sess[k].walks.contains page = false) ∧ (s.inWindow k page = false)) ∧
    (∃ (k : Fin 16) (page : Nat) (x : Nat) (b : Nat) (s : State), (s.sess[k].walks.contains page = true ∨ s.inWindow k page = true) ∧ (s.viewSize k ≠ 0) ∧ (s.flt.inj = none) ∧ (x < 2 ^ 17) ∧ (b < 2 ^ 48) ∧ (s.viewQuad k (s.walkL1 k page) = 1 + 2 ^ 19 * x) ∧ (s.inView k (x * 2 ^ 19 + 8 * (page % 65536)) 8 = true) ∧ (s.viewQuad k (x * 2 ^ 19 + 8 * (page % 65536)) = 1 + 2 ^ 16 * b) ∧ (s.inView k (b * 65536) 65536 = true)) ∧
    (∃ (k : Fin 16) (page : Nat) (s : State), (s.sess[k].walks.contains page = true ∨ s.inWindow k page = true) ∧ (s.viewSize k = 0)) ∧
    (∃ (k : Fin 16) (page : Nat) (s : State), (s.sess[k].walks.contains page = true ∨ s.inWindow k page = true) ∧ (s.viewSize k ≠ 0) ∧ (s.flt.inj = none) ∧ (bitOf (s.viewQuad k (s.walkL1 k page)) 0 = false)) ∧
    (∃ (k : Fin 16) (page : Nat) (s : State), (s.sess[k].walks.contains page = true ∨ s.inWindow k page = true) ∧ (s.viewSize k ≠ 0) ∧ (s.flt.inj = none)) ∧
    (∃ (k : Fin 16) (page : Nat) (i : Nat) (bus : Nat) (late : Bool) (data : List Byte) (s : State), (s.sess[k].pages = [⟨page, some i, bus, false, late⟩]) ∧ (data.length ≤ 65536)) ∧
    (∃ (k : Fin 16) (page : Nat) (bus : Nat) (slot : Option Nat) (late : Bool) (s : State), (s.sess[k].pages = [⟨page, slot, bus, false, late⟩])) ∧
    (∃ (k : Fin 16) (page : Nat) (bus : Nat) (slot : Option Nat) (s : State), (s.sess[k].pages = [⟨page, slot, bus, false, false⟩])) ∧
    (∃ (u : Fin 28) (k : Fin 16) (d : Seg) (x : Nat) (s : State), ((s.feed (State.playUnit u)).sess = k) ∧ ((s.feed (State.playUnit u)).play = none) ∧ ((s.feed (State.playUnit u)).queue = [.seg d]) ∧ ((s.feed (State.playUnit u)).pins = []) ∧ ((s.feed (State.playUnit u)).buf = []) ∧ (d.kind ≠ 2) ∧ (0 < d.length) ∧ (s.vecData k (s.vecVa (State.playUnit u) d 0) = some x) ∧ (s.flt.inj = none)) ∧
    (∃ (u : Fin 28) (k : Fin 16) (d : Seg) (a : Nat) (s : State), ((s.feed (State.playUnit u)).sess = k) ∧ ((s.feed (State.playUnit u)).play = none) ∧ ((s.feed (State.playUnit u)).queue = [.seg d]) ∧ ((s.feed (State.playUnit u)).pins = []) ∧ ((s.feed (State.playUnit u)).buf = []) ∧ (d.kind ≠ 2) ∧ (0 < d.length) ∧ (s.pageData k (s.vecVa (State.playUnit u) d 0) = some a) ∧ (s.flt.inj = none)) :=
  ⟨⟨0x22, 0x22, 100, (upState.modSlice 2 (fun x => { x with feed := { x.feed with play := some { play0 with seg := { seg0 with jsrcA := 3, jsrcB := 5 } } } })).modHr (fun r => { r with jlRise := 0x32, jlAt := 100 }), by decide +kernel⟩,
   ⟨2, false, { play0 with bufA := List.replicate 64 7, descA := some { seg0 with idx := 4, length := 80 } }, { seg0 with idx := 4, length := 80 }, upState.modSlice 2 (fun x => { x with feed := { x.feed with play := some { play0 with bufA := List.replicate 64 7, descA := some { seg0 with idx := 4, length := 80 } } } }), by decide +kernel⟩,
   ⟨1, 3, upState, by decide +kernel⟩,
   ⟨1, 3, 1, 2, { (withView upState).modSess 1 (fun x => { x with walks := [3] }) with ddr := memPuts (memPuts [] 0x100000 (leBytes 8 (1 + 2 ^ 19))) 0x180018 (leBytes 8 (1 + 2 ^ 17)) }, by decide +kernel⟩,
   ⟨1, 3, upState.modSess 1 (fun x => { x with walks := [3] }), by decide +kernel⟩,
   ⟨1, 3, (withView upState).modSess 1 (fun x => { x with walks := [3] }), by decide +kernel⟩,
   ⟨1, 3, (withView upState).modSess 1 (fun x => { x with walks := [3] }), by decide +kernel⟩,
   ⟨1, 3, 1, 77, false, [1, 2, 3, 4], (withView upState).modSess 1 (fun x => { x with pages := [⟨3, some 1, 77, false, false⟩] }), by decide +kernel⟩,
   ⟨1, 3, 77, some 1, false, (withView upState).modSess 1 (fun x => { x with pages := [⟨3, some 1, 77, false, false⟩] }), by decide +kernel⟩,
   ⟨1, 3, 77, some 1, (withView upState).modSess 1 (fun x => { x with pages := [⟨3, some 1, 77, false, false⟩] }), by decide +kernel⟩,
   ⟨0, 1, seg0, 0x1234, { ((withView upState).modSess 1 (fun x => { x with xlates := [⟨0, 0, 65536⟩] })).modSlice 0 (fun x => { x with feed := { x.feed with queue := [.seg seg0], sess := 1 } }) with ddr := memPuts [] 0x110000 (leBytes 4 0x1234) }, by decide +kernel⟩,
   ⟨0, 1, seg0, 65536, ((withView upState).modSess 1 (fun x => { x with xlates := [⟨0, 0, 65536⟩] })).modSlice 0 (fun x => { x with feed := { x.feed with queue := [.seg seg0], sess := 1 } }), by decide +kernel⟩⟩

theorem witness_TheStileCarriesMessages :
    (∃ (toHost : Bool) (s : State), (stileReady toHost s)) ∧
    (∃ (s : State), (stileReady true s) ∧ (s.get F.ST_STATUS_FIELD = 2) ∧ (s.stile.out = [])) ∧
    (∃ (toHost : Bool) (lane : Fin 8) (s : State), (stileReady toHost s) ∧ (s.get (if toHost then F.ST_STATUS_H2F_SPARE else F.ST_STATUS_F2H_SPARE) ≠ lane)) ∧
    (∃ (off : Fin 1048576) (s : State), (stileReady false s) ∧ (off.val % 4 = 0) ∧ (keyOnHost off = false) ∧ (crosses s)) ∧
    (∃ (s : State), (stileReady true s)) ∧
    (∃ (k : Fin 16) (tag : Fin 65536) (epoch : Fin 16) (bytes : List Byte) (s : State), (stileReady false s) ∧ (bytes.length = 64) ∧ (s.host[k].live = [⟨tag, epoch, cmdOp bytes, false, false, false, 0, 0⟩]) ∧ (s.host[k].queue = [])) ∧
    (∃ (k : Fin 16) (c : Cmd) (rest : List Cmd) (s : State), (stileReady false s) ∧ (s.host[k].held = true) ∧ (s.host[k].queue = c :: rest) ∧ (c.tag < 65536) ∧ (c.epoch < 16) ∧ (s.instLive k c.tag c.epoch = true)) ∧
    (∃ (k : Fin 16) (s : State), (stileReady false s) ∧ (s.host[k].waiting = []) ∧ (s.anyFwd k = false)) ∧
    (∃ (addr : Nat) (s : State), (stileReady true s) ∧ (addr < 2 ^ 64)) ∧
    (∃ (k : Fin 16) (tag : Fin 65536) (epoch : Fin 16) (addr : Nat) (s : State), (stileReady true s) ∧ (addr < 2 ^ 64) ∧ (s.instLive k tag epoch = true)) ∧
    (∃ (k : Fin 16) (tag : Fin 65536) (epoch : Fin 16) (addr : Nat) (s : State), (stileReady true s) ∧ (addr < 2 ^ 64) ∧ (s.instLive k tag epoch = false) ∧ ((s.host[k].stalePosted.contains (tag.val, epoch.val)) = true)) ∧
    (∃ (k : Fin 16) (addr : Nat) (len : Nat) (rest : List HostRead) (s : State), (stileReady false s) ∧ (s.stile.hostReads = ⟨k, none, addr, len⟩ :: rest)) ∧
    (∃ (k : Fin 16) (entry : List Byte) (s : State), (stileReady true s) ∧ (entry.length = 64) ∧ (s.ringRoom k 2 = true) ∧ (bitOf (fieldAt entry 63 1) 7 = false)) ∧
    (∃ (b : List Byte), (b.length = 32)) ∧
    (∃ (b : List Byte) (spared : Fin 8) (l : Fin 8), (b.length = 32) ∧ (l ≠ spared)) ∧
    (∃ (h : Header), (h.typ < 256) ∧ (h.reserved < 32) ∧ (h.tag < 65536) ∧ (h.session < 16) ∧ (h.epoch < 16) ∧ (h.ndata < 256) ∧ (h.ack < 65536) ∧ (h.addr < 2 ^ 64) ∧ (h.inline_.length = 16)) :=
  ⟨⟨true, upState, by decide +kernel⟩,
   ⟨upState.set F.ST_STATUS_FIELD [] 2, by decide +kernel⟩,
   ⟨true, 3, upState, by decide +kernel⟩,
   ⟨0x60000, upState, by decide +kernel⟩,
   ⟨upState, by decide +kernel⟩,
   ⟨1, 7, 3, desc 0 0 0 0 0 0, upState.modHost 1 (fun h => { h with live := [⟨7, 3, cmdOp (desc 0 0 0 0 0 0), false, false, false, 0, 0⟩] }), by decide +kernel⟩,
   ⟨1, ⟨7, 3, desc 0 4 0 0 0 0⟩, [], upState.modHost 1 (fun h => { h with held := true, live := [⟨7, 3, 0, false, false, false, 0, 0⟩], queue := [⟨7, 3, desc 0 4 0 0 0 0⟩] }), by decide +kernel⟩,
   ⟨1, upState, by decide +kernel⟩,
   ⟨5000, upState, by decide +kernel⟩,
   ⟨1, 7, 3, 5000, upState.modHost 1 (fun h => { h with live := [⟨7, 3, 0, false, false, false, 0, 0⟩] }), by decide +kernel⟩,
   ⟨1, 7, 3, 5000, upState.modHost 1 (fun h => { h with stalePosted := [(7, 3)] }), by decide +kernel⟩,
   ⟨1, 5000, 64, [], upState.modStile (fun x => { x with hostReads := [⟨1, none, 5000, 64⟩] }), by decide +kernel⟩,
   ⟨1, desc 1 2 3 4 5 6, withRing 1 2 upState, by decide +kernel⟩,
   ⟨leBytes 32 0x123456789ABCDEF, by decide +kernel⟩,
   ⟨leBytes 32 0x123456789ABCDEF, 2, 5, by decide +kernel⟩,
   ⟨⟨0x0C, true, false, false, 0, 7, 1, 3, 2, 77, 5000, leBytes 16 9⟩, by decide +kernel⟩⟩

theorem witness_TheStileFailsAndReturns :
    (∃ (s : State), (s.get F.ST_STATUS_FIELD = 1 ∨ s.get F.ST_STATUS_FIELD = 4)) ∧
    (∃ (s : State), (s.stile.fieldRuns = true) ∧ (s.linked = false) ∧ (∀ k : Fin 16, s.inSpan k = false)) ∧
    (∃ (s : State), (s.stile.failsH < 7) ∧ (s.flt.inj = none)) ∧
    (∃ (s : State), (s.stile.nakH = true) ∧ (s.stile.replayF = none)) ∧
    (∃ (k : Fin 16) (addr : Nat) (len : Nat) (num : Nat) (from_ : Nat) (s : State), (s.stile.nakH = true) ∧ (s.stile.replayF = some from_) ∧ (s.flt.inj = none) ∧ (s.stile.sentF = [⟨num, 1, .hostRdReq ⟨k, none, addr, len⟩, false⟩])) ∧
    (∃ (s : State), (s.stile.failsF = 7) ∧ (s.flt.inj = none) ∧ (s.get F.ST_STATUS_FIELD ≠ 3)) ∧
    (∃ (lane : Fin 9) (s : State), (lane.val < 8) ∧ (s.get F.ST_STATUS_F2H_SPARE = 15) ∧ (s.stile.deadF2H = false) ∧ (s.flt.inj = none)) ∧
    (∃ (lane : Fin 9) (s : State), (lane.val < 8) ∧ (s.get F.ST_STATUS_H2F_SPARE ≠ 15) ∧ (s.get F.ST_STATUS_H2F_SPARE ≠ lane.val) ∧ (s.flt.inj = none) ∧ (s.get F.ST_STATUS_FIELD ≠ 3)) ∧
    (∃ (k : Fin 16) (i : Inst) (s : State), (s.get F.ST_STATUS_FIELD = 3) ∧ (s.host[k].live = [i]) ∧ (s.host[k].waiting = []) ∧ (s.ringRoom k 1 = true) ∧ (i.tag < 65536) ∧ (i.epoch < 16) ∧ (i.ended = false) ∧ (i.worstQ < 4) ∧ (∀ j : Fin 16, j ≠ k → s.host[j].live = [])) ∧
    (∃ (s : State), (s.get F.ST_STATUS_FIELD = 4)) ∧
    (∃ (s : State), (s.stile.fieldRuns = true)) ∧
    (∃ (k : Fin 16) (q : SeqRun) (s : State), (s.stile.lost = true) ∧ (s.get F.ST_F_CFG_ORPHAN_ACT = 1) ∧ (s.sess[k].seq = some q) ∧ (s.sess[k].onCore = false) ∧ (q.ended = false) ∧ (ownsNoUnit k s) ∧ (s.commit.pends = []) ∧ (∀ j : Fin 16, j ≠ k → s.sess[j].seq = none ∧ s.sess[j].burst = none)) ∧
    (∃ (strobe : Bool) (s : State), (s.get F.ST_STATUS_FIELD ≠ 3) ∧ (if strobe then s.get F.ST_STATUS_FIELD ≠ 0 ∧ s.stile.clear false = true else stileReady false s) ∧ (s.commit = ⟨none, [], []⟩)) ∧
    (∃ (s : State), (s.get F.ST_STATUS_FIELD = 0)) ∧
    (∃ (c : Fin 4) (k : Fin 16) (u : Fin 8) (n : Fin 12) (x : Fin 64) (v : Word) (m : Nat) (e : Int) (r : Instr) (s : State), (s.linked = false) ∧ (r ∈ [.relock, .emit, .halt c, .resume c, .step c, .cswAddrWrite v, .spareForce n u, .spareRestore n u e, .fwScrDataWrite c v, .vsInvTlb k, .vsInvPages k, .triggerArm u, .triggerStop u, .triggerForce u, .aoTblDataWrite k v, .hrSwSet m m, .hrSwClr m, .hrSwPulse m, .calCmd x, .teardown k, .teardownScrub k, .sessionAbort k, .tlDiscStart, .tlAlignStart, .tlRaccGo v, .fltCoreOffline c, .fltCoreOnline c, .injectionArm (Fin.ofNat 65536 m), .injectionCancel, .csStageSet k, .csStageClear k, .csSwapGo k, .nvmFLoad, .nvmFProgram, .storeCal, .sysCommitGo k (Fin.ofNat 256 m), .bar0Write none 0x4000 v])) ∧
    (∃ (r : Instr) (s : State), (s.linked = false) ∧ (r ∈ [.cswData0Read, .cswData5Read, .rcFieldRead none 0x4000])) :=
  ⟨⟨upState.set F.ST_STATUS_FIELD [] 1, by decide +kernel⟩,
   ⟨withSeq (upState.set F.ST_STATUS_FIELD [] 2), by decide +kernel⟩,
   ⟨upState, by decide +kernel⟩,
   ⟨upState.modStile (fun x => { x with nakH := true }), by decide +kernel⟩,
   ⟨1, 5000, 64, 4, 4, upState.modStile (fun x => { x with nakH := true, replayF := some 4, rxH := 4, txF := 5, sentF := [⟨4, 1, .hostRdReq ⟨1, none, 5000, 64⟩, false⟩] }), by decide +kernel⟩,
   ⟨(upState.set F.ST_STATUS_FIELD [] 2).modStile (fun x => { x with failsF := 7 }), by decide +kernel⟩,
   ⟨3, upState, by decide +kernel⟩,
   ⟨3, (upState.set F.ST_STATUS_FIELD [] 2).set F.ST_STATUS_H2F_SPARE [] 5, by decide +kernel⟩,
   ⟨1, ⟨7, 3, 5, false, true, false, 0, 0⟩, (withRing 1 1 upState).modHost 1 (fun h => { h with live := [⟨7, 3, 5, false, true, false, 0, 0⟩] }), by decide +kernel⟩,
   ⟨upState.set F.ST_STATUS_FIELD [] 4, by decide +kernel⟩,
   ⟨upState, by decide +kernel⟩,
   ⟨1, ⟨5, false, false, 0, false, none, false, 0, 0⟩, ((upState.set F.ST_F_CFG_ORPHAN_ACT [] 1).modStile (fun x => { x with lost := true })).modSess 1 (fun x => { x with seq := some ⟨5, false, false, 0, false, none, false, 0, 0⟩ }), by decide +kernel⟩,
   ⟨false, { upState.set F.ST_STATUS_FIELD [] 2 with ddr := [(5, 6)] }, by decide +kernel⟩,
   ⟨State.reset, by decide +kernel⟩,
   ⟨1, 1, 2, 4, 5, 77, 9, -4, .teardown 1, upState.set F.ST_STATUS_FIELD [] 2, by decide +kernel⟩,
   ⟨.cswData0Read, upState.set F.ST_STATUS_FIELD [] 2, by decide +kernel⟩⟩

theorem witness_TheTreeIsNumbered :
    (∃ (p : Fin 4) (path : List Nat) (n : Nat) (m : Nat) (x : Option Int) (y : Option Int) (b : Bool) (c : Bool) (w : Word) (ans : RaccAnswer) (cycle : Fin 65536) (line : Fin 8) (r : Instr) (s : State), (s.hears p = false) ∧ (r ∈ [.discover p n, .report (p.val :: path) n m, .align p x y x y b c, .epoch p n m, .raccRsp p w ans, .eventRecord p cycle line b, .tlFlitCrcFail ⟨p, .nak n⟩, .tlFlitCrcFail ⟨p, .badType⟩])) ∧
    (∃ (via : Option (Fin 4)) (dev : Fin 32) (crate : Fin 16) (cluster : Fin 8) (off : Fin 1048576) (v : Word) (d : Fin 65536) (e : Fin 65536) (scope : Fin 256) (r : Instr) (s : State), (s.hears 0 = false) ∧ (r ∈ [.assign dev crate cluster via, .evcfg d e scope, .raccWr via crate dev off v, .raccRd via crate dev off])) ∧
    (∃ (s : State), (s.hears 0 = true) ∧ (s.portUp 0 = true)) ∧
    (∃ (p : Fin 4) (s : State), (s.hears p = true) ∧ (p ≠ 0)) ∧
    (∃ (p : Fin 4) (role : Nat) (s : State), (s.hears p = true) ∧ (s.role = 2) ∧ (s.net.discovering = true) ∧ (role < 4)) ∧
    (∃ (p : Fin 4) (s : State), (s.hears p = true) ∧ (s.role = 0) ∧ (s.net.discovering = false) ∧ (s.portUp 0 = true)) ∧
    (∃ (s : State), (s.hears 0 = true) ∧ (s.role = 0)) ∧
    (∃ (s : State), (s.hears 0 = true) ∧ (s.role = 1) ∧ (s.portUp 0 = true)) ∧
    (∃ (p : Fin 4) (s : State), (s.hears 0 = true) ∧ (s.portUp p = true)) ∧
    (∃ (s : State), (s.hears 0 = true) ∧ (s.role = 0) ∧ (∀ p : Fin 4, bitOf s.net.reported p = true → bitOf s.net.assigned p = true)) ∧
    (∃ (p : Fin 4) (s : State), (s.hears 0 = true) ∧ (s.role = 0) ∧ (p ≠ 0) ∧ (s.portUp p = true) ∧ (bitOf s.net.reported p = true) ∧ (bitOf s.net.assigned p = false)) ∧
    (∃ (s : State), (s.role = 2) ∧ (crosses s)) ∧
    (∃ (p : Fin 4) (serial : Nat) (s : State), (s.role = 2) ∧ (s.net.discovering = true) ∧ (s.net.reports = [⟨[p.val], 0, serial⟩]) ∧ (s.portUp p = true)) ∧
    (∃ (s : State), (s.hears 0 = true) ∧ (s.portUp 0 = true) ∧ (s.get F.TL_ROLE_NUMBERED = 0)) ∧
    (∃ (off : Fin 1048576) (r : Reg) (ix : List Nat) (s : State), (s.hears 0 = true) ∧ (s.portUp 0 = true) ∧ (s.get F.TL_ROLE_NUMBERED = 1) ∧ (off.val % 4 = 0) ∧ (keyOnHost off = false) ∧ (regAt (s.regKey off) = some (r, ix)) ∧ (r.row.pair = .no) ∧ (r.acts = false)) ∧
    (∃ (off : Fin 1048576) (r : Reg) (ix : List Nat) (s : State), (s.hears 0 = true) ∧ (s.portUp 0 = true) ∧ (s.get F.TL_ROLE_NUMBERED = 1) ∧ (off.val % 4 = 0) ∧ (keyOnHost off = false) ∧ (regAt (s.regKey off) = some (r, ix)) ∧ (r.row.pair = .no) ∧ (r.readActs = false) ∧ (s.regs.pairLatch = [])) ∧
    (∃ (p : Fin 4) (s : State), (s.hears 0 = true) ∧ (s.portUp p = true)) ∧
    (∃ (p : Fin 4) (s : State), (s.hears 0 = true) ∧ (s.portUp 0 = true) ∧ (s.portUp p = false)) ∧
    (∃ (p : Fin 4) (ans : RaccAnswer) (rest : List RaccAsk) (s : State), (s.hears p = true) ∧ (s.net.ports[p].asks = ⟨ans.crate, ans.device, true, true⟩ :: rest) ∧ (s.get F.TL_RACC_TGT_WRITE = 0)) ∧
    (∃ (p : Fin 4) (ans : RaccAnswer) (live : Bool) (rest : List RaccAsk) (s : State), (s.hears p = true) ∧ (s.portUp 0 = true) ∧ (s.net.ports[p].asks = ⟨ans.crate, ans.device, false, live⟩ :: rest)) ∧
    (∃ (p : Fin 4) (s : State), (s.hears p = true) ∧ (s.net.ports[p].asks = [])) ∧
    (∃ (v : Word) (p : Fin 4) (serial : Nat) (s : State), (crosses s) ∧ (s.get F.TL_RACC_STAT_BUSY = 0) ∧ (s.net.discovering = false) ∧ (s.get F.TL_ROLE_NUMBERED = 1) ∧ (s.role = 1 ∨ (s.role = 2 ∧ bitsOf v.toNat 8 4 = s.get F.TL_ROLE_CRATE)) ∧ (s.net.reports = [⟨[p.val], 0, serial⟩]) ∧ (bitsOf v.toNat 0 5 = 1) ∧ (State.raccBad (s.get F.TL_RACC_OFS_OFFSET) = false) ∧ (s.portUp p = true)) ∧
    (∃ (v : Word) (s : State), (crosses s) ∧ (s.get F.TL_RACC_STAT_BUSY = 0) ∧ (s.get F.TL_ROLE_NUMBERED = 1) ∧ (s.role = 1 ∨ (s.role = 2 ∧ bitsOf v.toNat 8 4 = s.get F.TL_ROLE_CRATE)) ∧ (bitsOf v.toNat 0 5 = 0) ∧ (bitsOf v.toNat 16 1 = 0) ∧ (s.get F.TL_RACC_OFS_OFFSET = 0x44)) ∧
    (∃ (s : State), (s.get F.TL_RACC_STAT_BUSY = 0 ∨ (s.now : Int) - s.net.raccAt < 81920000)) ∧
    (∃ (s : State), (s.get F.TL_RACC_STAT_BUSY = 1) ∧ (81920000 ≤ (s.now : Int) - s.net.raccAt)) ∧
    (∃ (p : Fin 4) (node : Fin 65536) (line : Nat) (s : State), (s.fabricOn = true) ∧ (s.act F.TL_PORT_CFG_MODE [p] = 2) ∧ (node.val = s.act F.TL_FAB_CFG_NODE) ∧ (line < 8) ∧ (bitOf (s.act F.TL_EV_CFG_CEV_EN) line = true)) ∧
    (∃ (p : Fin 4) (q : Fin 4) (node : Fin 65536) (s : State), (s.fabricOn = true) ∧ (s.act F.TL_PORT_CFG_MODE [p] = 2) ∧ (node.val ≠ s.act F.TL_FAB_CFG_NODE) ∧ (s.route node = some q.val) ∧ (s.portUp q = true) ∧ (s.act F.TL_PORT_CFG_MODE [q] = 2)) :=
  ⟨⟨1, [2], 3, 4, none, some 5, true, false, 9, ⟨2, 3, 0⟩, 9, 3, .eventRecord 1 9 3 true, (treeState 0).set F.TL_PORT_STAT_STATE [1] 4, by decide +kernel⟩,
   ⟨none, 3, 2, 5, 0x7800C, 0x80010001, 5, 6, 6, .evcfg 5 6 6, treeState 2, by decide +kernel⟩,
   ⟨treeState 0, by decide +kernel⟩,
   ⟨1, treeState 0, by decide +kernel⟩,
   ⟨1, 0, (treeState 2).modNet (fun n => { n with discovering := true }), by decide +kernel⟩,
   ⟨1, treeState 0, by decide +kernel⟩,
   ⟨treeState 0, by decide +kernel⟩,
   ⟨treeState 1, by decide +kernel⟩,
   ⟨1, treeState 0, by decide +kernel⟩,
   ⟨treeState 0, by decide +kernel⟩,
   ⟨1, (treeState 0).modNet (fun n => { n with reported := 2 }), by decide +kernel⟩,
   ⟨numberedState 2, by decide +kernel⟩,
   ⟨1, 77, ((treeState 2).set F.TL_CLUSTER_CLUSTER [] 5).modNet (fun n => { n with discovering := true, reports := [⟨[1], 0, 77⟩] }), by decide +kernel⟩,
   ⟨treeState 0, by decide +kernel⟩,
   ⟨0x7800C, .TL_CLUSTER, [], numberedState 0, by decide +kernel⟩,
   ⟨0x7800C, .TL_CLUSTER, [], numberedState 0, by decide +kernel⟩,
   ⟨1, numberedState 0, by decide +kernel⟩,
   ⟨2, numberedState 0, by decide +kernel⟩,
   ⟨1, ⟨2, 3, 0⟩, [⟨0, 5, true, true⟩], ((numberedState 1).set F.TL_RACC_STAT_BUSY [] 1).modPort 1 (fun x => { x with asks := [⟨2, 3, true, true⟩, ⟨0, 5, true, true⟩] }), by decide +kernel⟩,
   ⟨1, ⟨2, 3, 0⟩, true, [⟨0, 5, true, true⟩], (numberedState 1).modPort 1 (fun x => { x with asks := [⟨2, 3, false, true⟩, ⟨0, 5, true, true⟩] }), by decide +kernel⟩,
   ⟨1, numberedState 1, by decide +kernel⟩,
   ⟨0x80010001, 1, 77, ((numberedState 2).set F.TL_RACC_OFS_OFFSET [] 0x4004).modNet (fun n => { n with reports := [⟨[1], 0, 77⟩] }), by decide +kernel⟩,
   ⟨0x80000000, ((numberedState 1).set F.TL_RACC_OFS_OFFSET [] 0x44), by decide +kernel⟩,
   ⟨upState, by decide +kernel⟩,
   ⟨(upState.set F.TL_RACC_STAT_BUSY [] 1).modNet (fun n => { n with raccAt := -90000000 }), by decide +kernel⟩,
   ⟨1, 0, 3, setAct (setAct upState F.TL_PORT_CFG_MODE [1] 2) F.TL_EV_CFG_CEV_EN [] 8, by decide +kernel⟩,
   ⟨1, 2, 0x100, (((setAct (setAct upState F.TL_PORT_CFG_MODE [1] 2) F.TL_PORT_CFG_MODE [2] 2).set F.TL_ROUTE_VALID [0] 1).set F.TL_ROUTE_PORT [0] 2).set F.TL_PORT_STAT_STATE [2] 2, by decide +kernel⟩⟩

theorem witness_TheLinksCarryEvents :
    (∃ (f : WireFlit), (f.flit.recs.length ≤ 8) ∧ (f.flit.msg.length ≤ 92) ∧ (f.flit.seq < 65536) ∧ (f.ack < 65536)) ∧
    (∃ (f : WireFlit) (i : Fin 8) (r : CrateRec), (f.flit.recs.length ≤ 8) ∧ (f.flit.msg.length ≤ 92) ∧ (f.flit.seq < 65536) ∧ (f.ack < 65536) ∧ (f.flit.recs[i.val]? = some r)) ∧
    (∃ (a : Int) (b : Int) (c : Int) (x : Option Int) (s : State), (s.hears 0 = true) ∧ (s.net.ports[(0 : Fin 4)].stamps = ⟨some a, some b, some c, x⟩)) ∧
    (∃ (s : State), (s.hears 0 = true) ∧ (s.portUp 0 = true)) ∧
    (∃ (p : Fin 4) (a : Int) (s : State), (s.hears p = true) ∧ (p ≠ 0) ∧ (s.portUp p = true) ∧ (s.net.ports[p].stamps.t1 = some a)) ∧
    (∃ (p : Fin 4) (s : State), (s.hears p = true) ∧ (p ≠ 0 ∨ s.get F.TL_ROLE_NUMBERED = 0)) ∧
    (∃ (offset : Nat) (ago : Nat) (per : Nat) (since : Nat) (edges : Nat) (s : State), (s.hears 0 = true) ∧ (per = s.refDivide * 1024) ∧ (since = s.tb.refPhase * 1024) ∧ (edges = (2 * (offset + s.hopLatency 0 + ago) + 3 * per - 2 * since) / (2 * per)) ∧ (s.get F.TL_ROLE_NUMBERED = 1)) ∧
    (∃ (p : Fin 4) (s : State), (s.hears p = true) ∧ (s.get F.TL_ROLE_NUMBERED = 0)) ∧
    (∃ (line : Fin 8) (s : State), (s.hears 0 = true) ∧ (s.get F.TL_ROLE_NUMBERED = 1) ∧ (s.merges line = false) ∧ (s.downPorts = [])) ∧
    (∃ (p : Fin 4) (cycle : Fin 65536) (line : Fin 8) (s : State), (s.hears p = true) ∧ (p ≠ 0) ∧ (s.get F.TL_ROLE_NUMBERED = 1) ∧ (s.merges line = true) ∧ (s.cycleAge cycle ≤ s.lineUp line)) ∧
    (∃ (r : CrateRec) (s : State), (s.net.held = [r]) ∧ (State.cycleCome s.cycleNow ((r.cycle + s.lineUp r.line) % 65536) = false)) ∧
    (∃ (r : CrateRec) (s : State), (s.net.held = [r]) ∧ (State.cycleCome s.cycleNow ((r.cycle + s.lineUp r.line) % 65536) = true) ∧ (r.line < 8) ∧ (r.src < 5) ∧ (r.level = true) ∧ (s.net.contrib = Vector.replicate 5 0) ∧ (s.net.merged = 0) ∧ (s.downPorts = [])) ∧
    (∃ (due : Nat) (r : CrateRec) (s : State), (s.net.applies = [(due, r)]) ∧ (State.cycleCome s.cycleNow due = false)) ∧
    (∃ (due : Nat) (r : CrateRec) (s : State), (s.net.applies = [(due, r)]) ∧ (State.cycleCome s.cycleNow due = true) ∧ (bitOf s.net.applied r.line = false)) ∧
    (∃ (p : Fin 4) (s : State), (s.net.ports[p].fails < 7)) ∧
    (∃ (p : Fin 4) (s : State), (s.net.ports[p].fails = 7) ∧ (s.portUp p = true)) ∧
    (∃ (p : Fin 4) (num : Nat) (k : Nat) (s : State), (s.hears p = true) ∧ (num < 65536) ∧ (k < 7) ∧ (s.net.ports[p].naks = (if k = 0 then none else some (num, k))) ∧ (∃ f ∈ s.net.ports[p].kept, f.seq = num)) ∧
    (∃ (p : Fin 4) (num : Nat) (s : State), (s.hears p = true) ∧ (num < 65536) ∧ (s.net.ports[p].naks = some (num, 7)) ∧ (s.portUp p = true)) ∧
    (∃ (p : Fin 4) (s : State), (s.hears p = true)) ∧
    (∃ (p : Fin 4) (k : Nat) (s : State), (s.net.ports[p].await = some k)) ∧
    (∃ (p : Fin 4) (s : State), (s.portState p = 1)) ∧
    (∃ (p : Fin 4) (s : State), (s.portState p = 1) ∧ (s.act F.TL_PORT_CFG_DEGRADE_EN [p] = 1)) ∧
    (∃ (p : Fin 4) (s : State), (s.flt.inj = none) ∧ (s.portUp p = true)) ∧
    (∃ (p : Fin 4) (s : State), (s.flt.inj = none) ∧ (s.portUp p = false)) ∧
    (∃ (s : State), (s.isRoot = true) ∧ (crosses s)) ∧
    (∃ (s : State), (s.isRoot = false) ∧ (crosses s)) ∧
    (∃ (p : Fin 4) (s : State), (s.portUp p = true) ∧ (s.isDown p = true)) ∧
    (∃ (residual : Int) (s : State), (s.slews = true) ∧ (residual.natAbs ≤ 1) ∧ ((signedOf (s.get F.TL_ALIGN_STAT_OFFSET) 16 - residual).natAbs * 1000000 ≤ ((s.now : Int) - s.net.slewFrom).toNat)) ∧
    (∃ (p : Fin 4) (s : State), (s.portUsed p = true) ∧ (s.portUp p = false) ∧ (s.portState p ≠ 4)) ∧
    (∃ (p : Fin 4) (s : State), (s.portUsed p = false ∨ s.portUp p = true ∨ s.portState p = 4)) :=
  ⟨⟨⟨⟨7, [⟨5, 3, true, 1⟩], [1, 2, 3]⟩, 9, true, false, false⟩, by decide +kernel⟩,
   ⟨⟨⟨7, [⟨5, 3, true, 1⟩], [1, 2, 3]⟩, 9, true, false, false⟩, 0, ⟨5, 3, true, 1⟩, by decide +kernel⟩,
   ⟨100, 1150, 1200, none, (treeState 0).modPort 0 (fun x => { x with stamps := ⟨some 100, some 1150, some 1200, none⟩ }), by decide +kernel⟩,
   ⟨treeState 0, by decide +kernel⟩,
   ⟨1, 100, (treeState 0).modPort 1 (fun x => { x with stamps := ⟨some 100, none, none, none⟩ }), by decide +kernel⟩,
   ⟨1, treeState 0, by decide +kernel⟩,
   ⟨9, 0, 163840, 0, 1, numberedState 0, by decide +kernel⟩,
   ⟨1, treeState 0, by decide +kernel⟩,
   ⟨3, (numberedState 0).set F.TL_PORT_STAT_STATE [1] 0, by decide +kernel⟩,
   ⟨1, 0, 3, numberedState 2, by decide +kernel⟩,
   ⟨⟨5, 3, true, 1⟩, (upState.set F.TL_ROLE_ROLE [] 2).modNet (fun n => { n with held := [⟨5, 3, true, 1⟩] }), by decide +kernel⟩,
   ⟨⟨5, 3, true, 1⟩, ((upState.modTb (fun t => { t with tbc := 0x100000 })).set F.TL_ROLE_ROLE [] 2).modNet (fun n => { n with held := [⟨5, 3, true, 1⟩] }), by decide +kernel⟩,
   ⟨9, ⟨5, 3, true, 1⟩, upState.modNet (fun n => { n with applies := [(9, ⟨5, 3, true, 1⟩)] }), by decide +kernel⟩,
   ⟨9, ⟨5, 3, true, 1⟩, (upState.modTb (fun t => { t with tbc := 0x100000 })).modNet (fun n => { n with applies := [(9, ⟨5, 3, true, 1⟩)] }), by decide +kernel⟩,
   ⟨1, treeState 0, by decide +kernel⟩,
   ⟨1, (treeState 0).modPort 1 (fun x => { x with fails := 7 }), by decide +kernel⟩,
   ⟨1, 40, 3, (treeState 0).modPort 1 (fun x => { x with naks := some (40, 3), kept := [⟨40, [], []⟩] }), by decide +kernel⟩,
   ⟨1, 40, (treeState 0).modPort 1 (fun x => { x with naks := some (40, 7) }), by decide +kernel⟩,
   ⟨1, treeState 0, by decide +kernel⟩,
   ⟨1, 3, (treeState 0).modPort 1 (fun x => { x with await := some 3 }), by decide +kernel⟩,
   ⟨1, upState.set F.TL_PORT_STAT_STATE [1] 1, by decide +kernel⟩,
   ⟨1, setAct (upState.set F.TL_PORT_STAT_STATE [1] 1) F.TL_PORT_CFG_DEGRADE_EN [1] 1, by decide +kernel⟩,
   ⟨1, treeState 0, by decide +kernel⟩,
   ⟨1, upState, by decide +kernel⟩,
   ⟨treeState 2, by decide +kernel⟩,
   ⟨treeState 0, by decide +kernel⟩,
   ⟨1, treeState 0, by decide +kernel⟩,
   ⟨-1, ((upState.set F.TL_ALIGN_STAT_STATE [] 2).set F.TL_ALIGN_STAT_OFFSET [] 7).modNet (fun n => { n with slewFrom := -9000000 }), by decide +kernel⟩,
   ⟨1, (treeState 0).set F.TL_PORT_STAT_STATE [1] 0, by decide +kernel⟩,
   ⟨1, treeState 0, by decide +kernel⟩⟩

theorem witness_FaultsAreDetected :
    (∃ (b : Bool) (mv : Nat) (s : State), (s.bankUsed b = false ∨ (s.injOn 0x14 (if b then 4 else 3) = false ∧ s.bankInRange b mv = true))) ∧
    (∃ (b : Bool) (mv : Nat) (s : State), (s.bankUsed b = true) ∧ (s.injOn 0x14 (if b then 4 else 3) = true ∨ s.bankInRange b mv = false) ∧ (∀ (k : Fin 16) (n : Fin 12), (s.ownsSlice k n && s.seOnBank b n) = false)) ∧
    (∃ (a : Nat) (s : State), (a < s.get F.RM_MEM_INST_MIB * 2 ^ 20) ∧ (s.flt.inj = none)) ∧
    (∃ (a : Nat) (s : State), (a < s.get F.RM_MEM_INST_MIB * 2 ^ 20) ∧ (s.flt.inj = none) ∧ (a < 2 ^ 36)) ∧
    (∃ (a : Nat) (s : State), (s.get F.RM_MEM_INST_MIB * 2 ^ 20 ≤ a)) ∧
    (∃ (r : Fin 3) (dev : Int) (s : State), (r ≠ 2) ∧ (s.railOut 0x12 r dev = false)) ∧
    (∃ (r : Fin 3) (dev : Int) (s : State), (r ≠ 2) ∧ (s.railOut 0x12 r dev = true)) ∧
    (∃ (x : Int) (s : State), (-2048 ≤ x) ∧ (x < s.get F.FLT_TEMP_CFG_WARN - 20) ∧ (x < s.get F.FLT_TEMP_CFG_TRIP - 50) ∧ (x < 2048) ∧ (s.flt.inj = none) ∧ (s.get F.CAL_CFG_AUTO_EN = 0)) ∧
    (∃ (x : Int) (s : State), (s.get F.FLT_TEMP_CFG_WARN ≤ x) ∧ (x < s.get F.FLT_TEMP_CFG_TRIP - 50) ∧ (x < 2048) ∧ (s.flt.inj = none) ∧ (s.flt.warnArmed = true) ∧ (s.get F.CAL_CFG_AUTO_EN = 0)) ∧
    (∃ (x : Int) (s : State), (s.get F.FLT_TEMP_CFG_TRIP ≤ x) ∧ (s.flt.inj = none) ∧ (s.flt.tripArmed = true)) ∧
    (∃ (c : Fin 4) (s : State), (s.get F.FLT_CORE_STATE [c] = 0) ∧ (s.dedicatedCount + 1 ≤ s.otherCores c) ∧ (s.cores[c].st = .idle) ∧ (crosses s)) ∧
    (∃ (c : Fin 4) (s : State), (s.get F.FLT_CORE_STATE [c] = 0) ∧ (s.dedicatedCount + 1 ≤ s.otherCores c) ∧ (s.cores[c].st ≠ .idle) ∧ (crosses s)) ∧
    (∃ (c : Fin 4) (s : State), (s.get F.FLT_CORE_STATE [c] = 0) ∧ (s.otherCores c < s.dedicatedCount + 1) ∧ (crosses s)) ∧
    (∃ (s : State), (crosses s)) ∧
    (∃ (n : Fin 65536) (s : State), (s.get F.FLT_INJ_CTRL_BUSY = 0) ∧ (n ≠ 0) ∧ (injUnit (s.get F.FLT_INJ_SEL_DET) (s.get F.FLT_INJ_SEL_UNIT) = true) ∧ (crosses s)) ∧
    (∃ (n : Fin 65536) (s : State), (s.get F.FLT_INJ_CTRL_BUSY = 0) ∧ (n ≠ 0) ∧ (injUnit (s.get F.FLT_INJ_SEL_DET) (s.get F.FLT_INJ_SEL_UNIT) = false) ∧ (crosses s)) ∧
    (∃ (i : Inject) (s : State), (s.flt.inj = some i) ∧ (i.det ≠ 0x12) ∧ (i.det ≠ 0x13) ∧ (crosses s)) ∧
    (∃ (i : Inject) (s : State), (s.flt.inj = some i) ∧ (injTimed i.det = false ∨ (s.now : Int) - s.flt.injAt < 1638400 * i.left)) ∧
    (∃ (i : Inject) (s : State), (s.flt.inj = some i) ∧ (injTimed i.det = true) ∧ ((1638400 * i.left : Int) ≤ s.now - s.flt.injAt) ∧ (i.unit_ < 5)) ∧
    (∃ (k : Fin 16) (s : State), (s.sess[k].staged = none) ∧ (crosses s)) ∧
    (∃ (s : State), (crosses s)) ∧
    (∃ (k : Fin 16) (e : SMap (Option Nat)) (s : State), (s.sess[k].staged = some e) ∧ (s.sess[k].seq = none) ∧ (s.sess[k].burst = none) ∧ (crosses s)) ∧
    (∃ (k : Fin 16) (s : State), (s.sess[k].staged ≠ none) ∧ (s.sess[k].seq ≠ none) ∧ (crosses s)) :=
  ⟨⟨true, 1800, upState, by decide +kernel⟩,
   ⟨true, 100, setAct upState F.CH_SLICE_CFG_BANK [2] 1, by decide +kernel⟩,
   ⟨4096, upState.set F.RM_MEM_INST_MIB [] 16, by decide +kernel⟩,
   ⟨4096, upState.set F.RM_MEM_INST_MIB [] 16, by decide +kernel⟩,
   ⟨33554432, upState.set F.RM_MEM_INST_MIB [] 16, by decide +kernel⟩,
   ⟨1, 0, upState, by decide +kernel⟩,
   ⟨1, -71, upState, by decide +kernel⟩,
   ⟨-10, upState.set F.CAL_CFG_AUTO_EN [] 0, by decide +kernel⟩,
   ⟨1020, (upState.set F.CAL_CFG_AUTO_EN [] 0).modFlt (fun f => { f with warnArmed := true }), by decide +kernel⟩,
   ⟨1300, upState.modFlt (fun f => { f with tripArmed := true }), by decide +kernel⟩,
   ⟨1, upState, by decide +kernel⟩,
   ⟨1, upState.modCore 1 (fun c => { c with st := .running }), by decide +kernel⟩,
   ⟨1, ((upState.set F.FLT_CORE_STATE [0] 2).set F.FLT_CORE_STATE [2] 2).set F.FLT_CORE_STATE [3] 2, by decide +kernel⟩,
   ⟨upState.set F.FLT_CORE_STATE [1] 2, by decide +kernel⟩,
   ⟨5, (upState.set F.FLT_INJ_SEL_DET [] 3).set F.FLT_INJ_SEL_UNIT [] 2, by decide +kernel⟩,
   ⟨5, (upState.set F.FLT_INJ_SEL_DET [] 3).set F.FLT_INJ_SEL_UNIT [] 15, by decide +kernel⟩,
   ⟨⟨1, 0, false, 5⟩, (upState.set F.FLT_INJ_CTRL_BUSY [] 1).modFlt (fun f => { f with inj := some ⟨1, 0, false, 5⟩ }), by decide +kernel⟩,
   ⟨⟨1, 0, false, 5⟩, (upState.set F.FLT_INJ_CTRL_BUSY [] 1).modFlt (fun f => { f with inj := some ⟨1, 0, false, 5⟩ }), by decide +kernel⟩,
   ⟨⟨0x12, 1, false, 5⟩, (upState.set F.FLT_INJ_CTRL_BUSY [] 1).modFlt (fun f => { f with inj := some ⟨0x12, 1, false, 5⟩, injAt := -9000000 }), by decide +kernel⟩,
   ⟨1, upState, by decide +kernel⟩,
   ⟨upState, by decide +kernel⟩,
   ⟨1, [(5, some 9)], upState.modSess 1 (fun x => { x with staged := some [(5, some 9)] }), by decide +kernel⟩,
   ⟨1, (withSeq upState).modSess 1 (fun x => { x with staged := some [(5, some 9)] }), by decide +kernel⟩⟩

theorem witness_TheNvmsAreWritten :
    (∃ (s : State), (s.get F.NVM_F_STAT_BUSY = 0) ∧ (crosses s)) ∧
    (∃ (b : List Byte) (s : State), (s.get F.NVM_F_STAT_BUSY = 0) ∧ (b = nvmSeal (memBytes s.boot.stageF 0 4096) (satAdd 32 (s.get F.NVM_F_COUNT_WRITE_COUNT) 1)) ∧ (cfgErr b = none) ∧ (crosses s)) ∧
    (∃ (b : List Byte) (o : Nat) (s : State), (s.get F.NVM_F_STAT_BUSY = 0) ∧ (b = nvmSeal (memBytes s.boot.stageF 0 4096) (satAdd 32 (s.get F.NVM_F_COUNT_WRITE_COUNT) 1)) ∧ (cfgErr b = some o) ∧ (crosses s)) ∧
    (∃ (c : Bool) (s : State), (s.boot.writeCfg = some c)) ∧
    (∃ (c : Bool) (us : List CalRecord) (s : State), (s.boot.writeCfg = none) ∧ (s.boot.writeCal = some (c, us))) ∧
    (∃ (s : State), (s.get F.NVM_H_STAT_BUSY = 0)) ∧
    (∃ (s : State), (s.get F.NVM_H_STAT_BUSY = 0) ∧ (hostBytesOk (memBytes s.boot.stageH 0 256) = false)) ∧
    (∃ (s : State), (s.get F.NVM_H_STAT_BUSY = 0) ∧ (hostBytesOk (memBytes s.boot.stageH 0 256) = true)) ∧
    (∃ (c : Bool) (s : State), (s.boot.writeH = some c)) :=
  ⟨⟨upState.modBoot (fun x => { x with stageF := nvmStage }), by decide +kernel⟩,
   ⟨_, upState.modBoot (fun x => { x with stageF := nvmStage }), by decide +kernel, rfl, by decide +kernel⟩,
   ⟨_, 0x11, upState.modBoot (fun x => { x with stageF := memPut nvmStage 17 7 }), by decide +kernel, rfl, by decide +kernel⟩,
   ⟨true, upState.modBoot (fun x => { x with writeCfg := some true }), by decide +kernel⟩,
   ⟨true, [⟨33, [(1, 5)]⟩], upState.modBoot (fun x => { x with writeCal := some (true, [⟨33, [(1, 5)]⟩]) }), by decide +kernel⟩,
   ⟨upState.modBoot (fun x => { x with stageF := nvmStage }), by decide +kernel⟩,
   ⟨upState, by decide +kernel⟩,
   ⟨upState.modBoot (fun x => { x with stageH := memPut (memPuts [] 0 (nvmBlank nvmMagicH 256)) 0x14 0x84 }), by decide +kernel⟩,
   ⟨true, upState.modBoot (fun x => { x with writeH := some true }), by decide +kernel⟩⟩

theorem witness_TheDiesResetAndBoot :
    (∃ (s : State), ((s.commit.pin.bind (fun (j : PinJob) => j.ring)) = none)) ∧
    (∃ (s : State), (s.get F.ST_STATUS_FIELD ≠ 3) ∧ (s.commit = ⟨none, [], []⟩)) ∧
    (∃ (s : State), (s.stile.fieldRuns = false) ∧ (s.boot.fieldOn = true)) ∧
    (∃ (s : State), (s.stile.fieldRuns = true) ∧ (s.boot.boot = 0)) ∧
    (∃ (s : State), (s.stile.fieldRuns = true) ∧ (s.boot.boot ≠ 0)) ∧
    (∃ (header : List Byte) (s : State), (s.get F.NVM_BOOT_STAT_SPI_STATE = 1) ∧ (bootHeaderBad (padTo 32 header) = true)) ∧
    (∃ (header : List Byte) (image : List Byte) (s : State), (s.get F.NVM_BOOT_STAT_SPI_STATE = 1) ∧ (header.length = 32) ∧ (bootHeaderBad header = false) ∧ (fieldAt header 16 4 = 0) ∧ (fieldAt header 7 1 = 0) ∧ (fieldAt header 8 4 + fieldAt image 12 4 ≤ 2 ^ 24) ∧ (fieldAt header 12 4 ≤ 2 ^ 24) ∧ (image.length = fieldAt image 12 4) ∧ (s.imageErr (Fin.ofNat 16 (fieldAt header 6 1)) image (fieldAt image 12 4) true = none)) :=
  ⟨⟨{ upState with ddr := [(5, 6)] }, by decide +kernel⟩,
   ⟨{ upState.set F.ST_STATUS_FIELD [] 2 with ddr := [(5, 6)] }, by decide +kernel⟩,
   ⟨{ State.reset with boot := { State.reset.boot with fieldOn := true } }, by decide +kernel⟩,
   ⟨{ upState with ddr := [(5, 6)] }, by decide +kernel⟩,
   ⟨upState.modBoot (fun x => { x with boot := 1 }), by decide +kernel⟩,
   ⟨leBytes 32 0, upState.set F.NVM_BOOT_STAT_SPI_STATE [] 1, by decide +kernel⟩,
   ⟨bootHeader, tinyImage, upState.set F.NVM_BOOT_STAT_SPI_STATE [] 1, by decide +kernel⟩⟩

theorem witness_EveryCommandCompletes :
    (∃ (c : Instr) (s : State), (∀ (a : Nat) (ecc : Fin 3), c = .ddrPatrolRead a ecc → a < s.get F.RM_MEM_INST_MIB * 2 ^ 20)) ∧
    (∃ (a : Nat) (s : State), (s.get F.RM_MEM_INST_MIB * 2 ^ 20 ≤ a)) :=
  ⟨⟨.emit, upState, by intro _ _ h; cases h⟩,
   ⟨0, State.reset, by decide +kernel⟩⟩

end Sys2Proof.Tests
end

section
/-! Fields of setup registers: a word made of its fields reads each as it was put together, and what masked writes leave in a field (R12–R16). -/

namespace Sys2Proof.Machine

/-! ### Bits -/

theorem testBit_bitsOf (v l w i : Nat) : (bitsOf v l w).testBit i = (decide (i < w) && v.testBit (l + i)) := by
  simp [bitsOf, Nat.testBit_mod_two_pow, Nat.testBit_div_two_pow, Nat.add_comm]

/-- A field is its bits. -/
theorem bitsOf_eq_iff (u v l w : Nat) : bitsOf u l w = bitsOf v l w ↔ ∀ i < w, u.testBit (l + i) = v.testBit (l + i) := by
  constructor
  · intro h i hi
    simpa [testBit_bitsOf, hi] using congrArg (·.testBit i) h
  · intro h
    refine Nat.eq_of_testBit_eq (fun i => ?_)
    rw [testBit_bitsOf, testBit_bitsOf]
    by_cases hi : i < w
    · rw [h i hi]
    · simp [hi]

/-- A field within 32 bits survives the cut to a word. -/
theorem bitsOf_word (n l w : Nat) (h : l + w ≤ 32) : bitsOf (BitVec.ofNat 32 n).toNat l w = bitsOf n l w := by
  rw [bitsOf_eq_iff, BitVec.toNat_ofNat]
  intro i hi
  rw [Nat.testBit_mod_two_pow, decide_eq_true (show l + i < 32 by omega), Bool.true_and]

theorem testBit_of_ones {m l w : Nat} (h : bitsOf m l w = 2 ^ w - 1) {i : Nat} (hi : i < w) : m.testBit (l + i) = true := by
  have hb := testBit_bitsOf m l w i
  rw [h, Nat.testBit_two_pow_sub_one] at hb
  simpa [hi] using hb.symm

theorem testBit_of_zeros {m l w : Nat} (h : bitsOf m l w = 0) {i : Nat} (hi : i < w) : m.testBit (l + i) = false := by
  have hb := testBit_bitsOf m l w i
  rw [h, Nat.zero_testBit] at hb
  simpa [hi] using hb.symm

theorem bitsOf_and_zeros {m l w : Nat} (v : Nat) (h : bitsOf m l w = 0) : bitsOf (v &&& m) l w = 0 := by
  refine Nat.eq_of_testBit_eq (fun i => ?_)
  rw [testBit_bitsOf, Nat.zero_testBit]
  by_cases hi : i < w
  · rw [Nat.testBit_and, testBit_of_zeros h hi, Bool.and_false, Bool.and_false]
  · simp [hi]

/-! ### Words made of fields -/

/-- The fields of a register lie in ascending order and apart. -/
theorem Reg.fields_apart (r : Reg) : r.row.fields.Pairwise (fun f g => f.lsb + f.width ≤ g.lsb) := by
  cases r <;> decide

/-- A register's fields lie within its 32 bits, and a reset value within its field. -/
theorem Reg.fields_fit (r : Reg) : ∀ f ∈ r.row.fields, f.lsb + f.width ≤ 32 ∧ f.reset < 2 ^ f.width := by
  cases r <;> decide

/-- Fields put together from values. -/
def fieldSum (l : List FieldRow) (v : FieldRow → Nat) : Nat := (l.map (fun f => v f * 2 ^ f.lsb)).sum

theorem fieldSum_dvd (l : List FieldRow) (v : FieldRow → Nat) (n : Nat) (h : ∀ f ∈ l, n ≤ f.lsb) : 2 ^ n ∣ fieldSum l v := by
  refine List.dvd_sum (fun x hx => ?_)
  obtain ⟨f, hf, rfl⟩ := List.mem_map.mp hx
  exact Dvd.dvd.mul_left (Nat.pow_dvd_pow 2 (h f hf)) _

/-- Fields that lie apart read as they were put together. -/
theorem bitsOf_fieldSum (l : List FieldRow) (v : FieldRow → Nat) (ha : l.Pairwise (fun f g => f.lsb + f.width ≤ g.lsb))
    (hv : ∀ f ∈ l, v f < 2 ^ f.width) : ∀ f ∈ l, bitsOf (fieldSum l v) f.lsb f.width = v f := by
  induction l with
  | nil => simp
  | cons g t ih =>
    obtain ⟨hg, ht⟩ := List.pairwise_cons.mp ha
    obtain ⟨q, hq⟩ := fieldSum_dvd t v (g.lsb + g.width) hg
    have hsum : fieldSum (g :: t) v = v g * 2 ^ g.lsb + fieldSum t v := by simp [fieldSum]
    have hvg : v g < 2 ^ g.width := hv g (by simp)
    intro f hf
    rcases List.mem_cons.mp hf with rfl | hf
    · rw [hsum, hq, show v f * 2 ^ f.lsb + 2 ^ (f.lsb + f.width) * q = 2 ^ f.lsb * (v f + 2 ^ f.width * q) by rw [Nat.pow_add]; ring, bitsOf,
        Nat.mul_div_cancel_left _ (by positivity), Nat.add_mul_mod_self_left, Nat.mod_eq_of_lt hvg]
    · rw [← ih ht (fun x hx => hv x (by simp [hx])) f hf]
      obtain ⟨c, hc⟩ := Nat.exists_eq_add_of_le (hg f hf)
      have hlow : v g * 2 ^ g.lsb < 2 ^ (g.lsb + g.width) := by
        rw [Nat.pow_add, Nat.mul_comm]
        exact Nat.mul_lt_mul_of_pos_left hvg (by positivity)
      simp only [bitsOf]
      rw [hsum, hc, Nat.pow_add 2 (g.lsb + g.width) c, ← Nat.div_div_eq_div_mul, ← Nat.div_div_eq_div_mul, hq,
        Nat.add_mul_div_left _ _ (by positivity), Nat.div_eq_of_lt hlow, Nat.zero_add, Nat.mul_div_cancel_left _ (by positivity)]

/-- The mask of some access codes holds a field of those codes whole and nothing of another. -/
theorem bitsOf_accMask (r : Reg) (p : Acc → Bool) (f : FieldRow) (hf : f ∈ r.row.fields) :
    bitsOf (accMask r p) f.lsb f.width = if p f.acc then 2 ^ f.width - 1 else 0 := by
  have hsum : accMask r p = fieldSum r.row.fields (fun g => if p g.acc then 2 ^ g.width - 1 else 0) := by
    simp only [accMask, fieldSum, ite_mul, Nat.zero_mul]
  rw [hsum]
  refine bitsOf_fieldSum _ _ r.fields_apart (fun g _ => ?_) f hf
  have : 0 < 2 ^ g.width := by positivity
  split <;> omega

theorem testBit_mixBits (old new mask i : Nat) (h : i < 32) :
    (mixBits old new mask).testBit i = if mask.testBit i then new.testBit i else old.testBit i := by
  have h32 : (0xFFFFFFFF : Nat).testBit i = true := by
    rw [show (0xFFFFFFFF : Nat) = 2 ^ 32 - 1 from rfl, Nat.testBit_two_pow_sub_one, decide_eq_true h]
  cases hm : mask.testBit i <;> simp [mixBits, hm, h32]

/-- A field that a mask holds whole takes the new value. -/
theorem bitsOf_mixBits_ones {mask l w : Nat} (old new : Nat) (hm : bitsOf mask l w = 2 ^ w - 1) (h : l + w ≤ 32) :
    bitsOf (mixBits old new mask) l w = bitsOf new l w := by
  rw [bitsOf_eq_iff]
  intro i hi
  rw [testBit_mixBits _ _ _ _ (by omega), testBit_of_ones hm hi, if_pos rfl]

/-- A field outside a mask stays. -/
theorem bitsOf_mixBits_zeros {mask l w : Nat} (old new : Nat) (hm : bitsOf mask l w = 0) (h : l + w ≤ 32) :
    bitsOf (mixBits old new mask) l w = bitsOf old l w := by
  rw [bitsOf_eq_iff]
  intro i hi
  rw [testBit_mixBits _ _ _ _ (by omega), testBit_of_zeros hm hi, if_neg Bool.false_ne_true]

/-- Under an empty mask a word stays. -/
theorem mixBits_zero (old : Word) (new : Nat) : BitVec.ofNat 32 (mixBits old.toNat new 0) = old := by
  refine BitVec.eq_of_toNat_eq ?_
  simp only [mixBits, Nat.xor_zero, Nat.and_zero, Nat.or_zero]
  rw [show (0xFFFFFFFF : Nat) = 2 ^ 32 - 1 from rfl, Nat.and_two_pow_sub_one_eq_mod, BitVec.toNat_ofNat, Nat.mod_mod,
    Nat.mod_eq_of_lt old.isLt]

end Sys2Proof.Machine
end

section
/-! Writes of a setup register by the access codes alone, and reads of one that change nothing but its RC fields (R12–R16, R37). -/

namespace Sys2Proof.Machine

theorem regsSame_mono {ks ls : List Nat} {s t : State} (h : regsSame ks s t) (hl : ∀ k ∈ ks, k ∈ ls) : regsSame ls s t :=
  fun k hk => h k (fun hm => hk (hl k hm))

theorem key_ge_base (r : Reg) (ix : List Nat) : r.row.base ≤ r.key ix := Nat.le_add_right _ _

/-- A register of the map holds in each field a part of 32 bits. -/
theorem fieldSame_word {r : Reg} {f : FieldRow} (hf : f ∈ r.row.fields) (n : Nat) :
    bitsOf (BitVec.ofNat 32 n).toNat f.lsb f.width = bitsOf n f.lsb f.width :=
  bitsOf_word n _ _ (r.fields_fit f hf).1

namespace State

/-! ### Writes by the access codes -/

section PlainWrite

variable {s : State} {k : Nat} {r : Reg} {ix : List Nat} (v : Word)

/-- The main copy that a write leaves: RW fields taken from it, W1C fields cleared by it. -/
def writtenMain (r : Reg) (old v : Word) : Nat :=
  mixBits (mixBits old.toNat v.toNat (accMask r (· == .rw))) 0 (v.toNat &&& accMask r (· == .w1c))

/-- A write puts a main copy and a shadow copy. -/
theorem plainWrite_eq (h : regAt k = some (r, ix)) :
    s.plainWrite k v = if accMask r (· == .rws) &&& heldMask r ix = 0 then s.putK k (BitVec.ofNat 32 (writtenMain r (s.getK k) v))
      else (s.putK k (BitVec.ofNat 32 (writtenMain r (s.getK k) v))).putShadow k
        (BitVec.ofNat 32 (mixBits (s.shadowK k).toNat v.toNat (accMask r (· == .rws) &&& heldMask r ix))) := by
  simp only [plainWrite, h]
  rfl

theorem plainWrite_getK (h : regAt k = some (r, ix)) : (s.plainWrite k v).getK k = BitVec.ofNat 32 (writtenMain r (s.getK k) v) := by
  rw [plainWrite_eq v h]
  split <;> simp

theorem plainWrite_shadowK (h : regAt k = some (r, ix)) :
    (s.plainWrite k v).shadowK k =
      BitVec.ofNat 32 (mixBits (s.shadowK k).toNat v.toNat (accMask r (· == .rws) &&& heldMask r ix)) := by
  rw [plainWrite_eq v h]
  split
  · next h0 => rw [h0, mixBits_zero, shadowK_putK]
  · rw [shadowK_putShadow_self]

/-- A write by the access codes changes the register file alone, in its main and shadow copies. -/
theorem plainWrite_frame (s : State) (k : Nat) (v : Word) :
    ∃ main shadow, s.plainWrite k v = { s with regs := { s.regs with main := main, shadow := shadow } } := by
  cases h : regAt k with
  | none => exact ⟨s.regs.main, s.regs.shadow, by simp only [plainWrite, h]⟩
  | some p =>
    rw [plainWrite_eq v h]
    split
    · exact ⟨_, s.regs.shadow, rfl⟩
    · exact ⟨_, _, rfl⟩

@[simp] theorem plainWrite_activeK (s : State) (k j : Nat) (v : Word) : (s.plainWrite k v).activeK j = s.activeK j := by
  obtain ⟨_, _, e⟩ := plainWrite_frame s k v
  rw [e]; rfl

@[simp] theorem plainWrite_freshK (s : State) (k j : Nat) (v : Word) : (s.plainWrite k v).freshK j = s.freshK j := by
  obtain ⟨_, _, e⟩ := plainWrite_frame s k v
  rw [e]; rfl

theorem regsSame_plainWrite {ks : List Nat} {s t : State} (k : Nat) (v : Word) (hk : k ∈ ks) (hs : regsSame ks s t) :
    regsSame ks s (t.plainWrite k v) := by
  cases h : regAt k with
  | none => simpa only [plainWrite, h] using hs
  | some p =>
    rw [plainWrite_eq v h]
    split
    · exact regsSame_putK _ _ hk hs
    · exact regsSame_putShadow _ _ hk (regsSame_putK _ _ hk hs)

/-- RW fields take the value (R15). -/
theorem plainWrite_rw (h : regAt k = some (r, ix)) {f : FieldRow} (hf : f ∈ r.row.fields) (ha : f.acc = .rw) :
    fieldSame f ((s.plainWrite k v).getK k) v := by
  have hw1c : bitsOf (accMask r (· == .w1c)) f.lsb f.width = 0 := by simp [bitsOf_accMask r _ f hf, ha]
  have hrw : bitsOf (accMask r (· == .rw)) f.lsb f.width = 2 ^ f.width - 1 := by simp [bitsOf_accMask r _ f hf, ha]
  obtain ⟨hfit, -⟩ := r.fields_fit f hf
  rw [fieldSame, plainWrite_getK v h, fieldSame_word hf, writtenMain, bitsOf_mixBits_zeros _ _ (bitsOf_and_zeros _ hw1c) hfit,
    bitsOf_mixBits_ones _ _ hrw hfit]

/-- W1C fields clear where the value is 1 (R16). -/
theorem plainWrite_w1c (h : regAt k = some (r, ix)) {f : FieldRow} (hf : f ∈ r.row.fields) (ha : f.acc = .w1c) :
    fieldSame f ((s.plainWrite k v).getK k) (s.getK k &&& ~~~v) := by
  have hw1c : bitsOf (accMask r (· == .w1c)) f.lsb f.width = 2 ^ f.width - 1 := by simp [bitsOf_accMask r _ f hf, ha]
  have hrw : bitsOf (accMask r (· == .rw)) f.lsb f.width = 0 := by simp [bitsOf_accMask r _ f hf, ha]
  obtain ⟨hfit, -⟩ := r.fields_fit f hf
  rw [fieldSame, plainWrite_getK v h, fieldSame_word hf, bitsOf_eq_iff]
  intro i hi
  have h32 : f.lsb + i < 32 := by omega
  rw [writtenMain, testBit_mixBits _ _ _ _ h32, testBit_mixBits _ _ _ _ h32, Nat.testBit_and, testBit_of_ones hw1c hi,
    testBit_of_zeros hrw hi, BitVec.testBit_toNat, BitVec.testBit_toNat, BitVec.testBit_toNat, BitVec.getLsbD_and, BitVec.getLsbD_not]
  cases v.getLsbD (f.lsb + i) <;> simp [h32]

/-- RO, RC and WO fields ignore it, and RWS fields have no main copy (R15, R37). -/
theorem plainWrite_other (h : regAt k = some (r, ix)) {f : FieldRow} (hf : f ∈ r.row.fields) (h1 : f.acc ≠ .rw) (h2 : f.acc ≠ .w1c) :
    fieldSame f ((s.plainWrite k v).getK k) (s.getK k) := by
  have hw1c : bitsOf (accMask r (· == .w1c)) f.lsb f.width = 0 := by simp [bitsOf_accMask r _ f hf, h2]
  have hrw : bitsOf (accMask r (· == .rw)) f.lsb f.width = 0 := by simp [bitsOf_accMask r _ f hf, h1]
  obtain ⟨hfit, -⟩ := r.fields_fit f hf
  rw [fieldSame, plainWrite_getK v h, fieldSame_word hf, writtenMain, bitsOf_mixBits_zeros _ _ (bitsOf_and_zeros _ hw1c) hfit,
    bitsOf_mixBits_zeros _ _ hrw hfit]

/-- RWS fields take the value in the shadow copy (R37). -/
theorem plainWrite_rws (h : regAt k = some (r, ix)) {f : FieldRow} (hf : f ∈ r.row.fields) (ha : f.acc = .rws) (hr : r ≠ .FW_INIT) :
    fieldSame f ((s.plainWrite k v).shadowK k) v := by
  have hrws : bitsOf (accMask r (· == .rws)) f.lsb f.width = 2 ^ f.width - 1 := by simp [bitsOf_accMask r _ f hf, ha]
  obtain ⟨hfit, -⟩ := r.fields_fit f hf
  rw [fieldSame, plainWrite_shadowK v h, fieldSame_word hf, bitsOf_eq_iff]
  intro i hi
  have h32 : f.lsb + i < 32 := by omega
  rw [testBit_mixBits _ _ _ _ h32, heldMask, if_neg hr, Nat.testBit_and, testBit_of_ones hrws hi, Nat.testBit_two_pow_sub_one,
    decide_eq_true h32]
  rfl

/-- FW_INIT takes as many bits as its runtime register has (R189, R212). -/
theorem plainWrite_fwInit (h : regAt k = some (.FW_INIT, ix)) :
    bitsOf ((s.plainWrite k v).shadowK k).toNat 0 (fwWidth (ix.getD 1 0)) = bitsOf v.toNat 0 (fwWidth (ix.getD 1 0)) := by
  have hw : fwWidth (ix.getD 1 0) ≤ 32 := by unfold fwWidth; split_ifs <;> omega
  have hall : accMask .FW_INIT (· == .rws) = 2 ^ 32 - 1 := by decide
  rw [plainWrite_shadowK v h, bitsOf_word _ _ _ (by omega), hall, heldMask, if_pos rfl]
  refine bitsOf_mixBits_ones _ _ ?_ (by omega)
  rw [Nat.and_comm, Nat.and_two_pow_sub_one_eq_mod]
  simp only [bitsOf, Nat.pow_zero, Nat.div_one]
  have hp : 2 ^ fwWidth (ix.getD 1 0) ≤ 2 ^ 32 := Nat.pow_le_pow_right (by omega) hw
  have h0 : 0 < 2 ^ fwWidth (ix.getD 1 0) := by positivity
  rw [Nat.mod_eq_of_lt (by omega), Nat.mod_eq_of_lt (by omega)]

/-- The write of a register without a strobe is a write by its access codes. -/
theorem regWrite_of_not_acts (h : regAt k = some (r, ix)) (ha : r.acts = false) : s.regWrite k v = s.plainWrite k v := by
  have hk : k ≠ Reg.key .TL_RACC_TGT [] := by
    rintro rfl
    have hr : regAt (Reg.key .TL_RACC_TGT []) = some (.TL_RACC_TGT, []) := by decide +kernel
    rw [hr] at h
    cases h
    exact absurd ha (by decide)
  simp only [regWrite, if_neg hk, regWriteBase, h]
  split
  case h_30 => rfl
  all_goals exact absurd ha (by decide)

end PlainWrite

end State

end Sys2Proof.Machine
end

section
/-! Accesses over a clear Stile (R420, R421, R426), and reads of a setup register (R13, R16, R37). -/

namespace Sys2Proof.Machine.State

/-! ### The Stile -/

/-- The machine once `n` frames have crossed to the field side. -/
abbrev down (n : Nat) (s : State) : State := { s with stile := framesDown n s.stile }

/-- The machine once `n` frames have crossed to the host side. -/
abbrev up (n : Nat) (s : State) : State := { s with stile := framesUp n s.stile }

/-! ### Frames of a message without data -/

@[simp] theorem frames_barWr (off : Nat) (v : Word) : (Packet.barWr off v).frames = 1 := by simp [Packet.frames, Packet.data, dataMessages, dataFrames]
@[simp] theorem frames_barRd (off : Nat) : (Packet.barRd off).frames = 1 := by simp [Packet.frames, Packet.data, dataMessages, dataFrames]
@[simp] theorem frames_barRsp (v : Word) : (Packet.barRsp v).frames = 1 := by simp [Packet.frames, Packet.data, dataMessages, dataFrames]
@[simp] theorem frames_commitGo (scope target : Nat) : (Packet.commitGo scope target).frames = 1 := by simp [Packet.frames, Packet.data, dataMessages, dataFrames]

/-- Both directions are clear of replays. -/
theorem clear_of_crosses {s : State} (h : crosses s) (toHost : Bool) : s.stile.clear toHost = true := by
  obtain ⟨hup, -⟩ := h
  simp only [fieldUp, Bool.and_eq_true] at hup
  obtain ⟨-, htrue, hfalse⟩ := hup
  cases toHost
  · exact hfalse
  · exact htrue

theorem linked_of_crosses {s : State} (h : crosses s) : s.linked = true := by
  obtain ⟨hup, -⟩ := h
  simp only [fieldUp, Bool.and_eq_true] at hup
  exact hup.1

/-- Where no replay is awaited and no injection armed, a message acts once its frames have passed. -/
theorem cross_of_clear {s : State} (toHost : Bool) (p : Packet) (act : State → State) (hc : s.stile.clear toHost = true)
    (h7 : s.injOn 7 toHost.toNat = false) (h9 : s.injOn 9 toHost.toNat = false) : s.cross toHost p act = act (s.passFrames toHost p) := by
  simp [cross, hc, h7, h9]

theorem cross_down_of_crosses {s : State} (h : crosses s) (p : Packet) (act : State → State) :
    s.cross false p act = act (s.down p.frames) := by
  obtain ⟨-, h70, -, h90, -⟩ := id h
  exact cross_of_clear false p act (clear_of_crosses h false) h70 h90

theorem cross_up_of_crosses {s : State} (h : crosses s) (p : Packet) (act : State → State) :
    s.cross true p act = act (s.up p.frames) := by
  obtain ⟨-, -, h71, -, h91⟩ := id h
  exact cross_of_clear true p act (clear_of_crosses h true) h71 h91

theorem toField_of_crosses {s : State} (h : crosses s) (p : Packet) (act : State → State) :
    s.toField p act = act (s.down p.frames) := by
  rw [toField, if_pos (linked_of_crosses h), cross_down_of_crosses h]

theorem sendMsg_of_crosses {s : State} (h : crosses s) (n : Fin 16) (m : Msg) :
    s.sendMsg n m = (s.up (Packet.msg n m).frames).deliverMsg n m := by
  rw [sendMsg, if_pos (linked_of_crosses h), cross_up_of_crosses h]

theorem readField_of_crosses {s : State} (h : crosses s) (p : Packet) (act : State → Word × State) :
    s.readField p act = answer (act (s.down p.frames)) := by
  rw [readField, if_pos (linked_of_crosses h), cross_down_of_crosses h]

/-! ### What a register shows does not hang on the Stile's frame numbers, nor on what waits in the sessions' queues -/

theorem playAhead_stile (s : State) (x : Stile) (o : Fin 16) (per : Nat) (p : Play) (buf : List Nat) :
    ({ s with stile := x } : State).playAhead o per p buf = s.playAhead o per p buf := by
  induction buf generalizing p with
  | nil => rfl
  | cons v buf ih => simp only [playAhead, ih]; rfl

theorem playAhead_host (s : State) (x : Vector HostSess 16) (o : Fin 16) (per : Nat) (p : Play) (buf : List Nat) :
    ({ s with host := x } : State).playAhead o per p buf = s.playAhead o per p buf := by
  induction buf generalizing p with
  | nil => rfl
  | cons v buf ih => simp only [playAhead, ih]; rfl

theorem aoTarget_stile (s : State) (x : Stile) (o : Fin 16) : ({ s with stile := x } : State).aoTarget o = s.aoTarget o := by
  simp only [aoTarget, aoSource, aoResample, aoAhead, playAhead_stile]; rfl

theorem aoTarget_host (s : State) (x : Vector HostSess 16) (o : Fin 16) : ({ s with host := x } : State).aoTarget o = s.aoTarget o := by
  simp only [aoTarget, aoSource, aoResample, aoAhead, playAhead_host]; rfl

theorem liveFields_down (s : State) (n : Nat) (r : Reg) (ix : List Nat) : (s.down n).liveFields r ix = s.liveFields r ix := by
  cases r
  case AO_STATUS => simp only [liveFields, aoValue, aoTarget_stile]; rfl
  all_goals rfl

theorem liveFields_host (s : State) (x : Vector HostSess 16) (r : Reg) (ix : List Nat) (hr : r.row.own ≠ .page) :
    ({ s with host := x } : State).liveFields r ix = s.liveFields r ix := by
  cases r
  case AO_STATUS => simp only [liveFields, aoValue, aoTarget_host]; rfl
  case RING_STAT => exact absurd rfl hr
  case RING_HELD => exact absurd rfl hr
  all_goals rfl

theorem regValue_down (s : State) (n k : Nat) : (s.down n).regValue k = s.regValue k := by
  simp only [regValue, liveFields_down]; rfl

theorem regValue_host {s : State} {k : Nat} {r : Reg} {ix : List Nat} (x : Vector HostSess 16) (h : regAt k = some (r, ix))
    (hr : r.row.own ≠ .page) : ({ s with host := x } : State).regValue k = s.regValue k := by
  simp only [regValue, h, liveFields_host s x r ix hr]; rfl

/-! ### What a read changes -/

/-- The fields of a list that are RC, each at its reset value. -/
def clearedFields (l : List FieldRow) (v : Nat) : Nat := l.foldl (fun v f => if f.acc = .rc then putBits v f.lsb f.width f.reset else v) v

theorem clearRc_eq {s : State} {k : Nat} {r : Reg} {ix : List Nat} (h : regAt k = some (r, ix)) :
    s.clearRc k = s.putK k (BitVec.ofNat 32 (clearedFields r.row.fields (s.getK k).toNat)) := by
  simp only [clearRc, h]
  rfl

/-- A field below every cleared one stays. -/
theorem bitsOf_clearedFields_below (l : List FieldRow) (lsb w : Nat) (hl : ∀ f ∈ l, lsb + w ≤ f.lsb) (v : Nat) :
    bitsOf (clearedFields l v) lsb w = bitsOf v lsb w := by
  induction l generalizing v with
  | nil => rfl
  | cons f t ih =>
    rw [clearedFields, List.foldl_cons, ← clearedFields, ih (fun g hg => hl g (by simp [hg]))]
    split
    · exact bitsOf_putBits_below _ _ _ _ _ _ (hl f (by simp))
    · rfl

theorem bitsOf_clearedFields (l : List FieldRow) (ha : l.Pairwise (fun f g => f.lsb + f.width ≤ g.lsb)) (v : Nat) :
    ∀ f ∈ l, bitsOf (clearedFields l v) f.lsb f.width = if f.acc = .rc then f.reset % 2 ^ f.width else bitsOf v f.lsb f.width := by
  induction l generalizing v with
  | nil => simp
  | cons g t ih =>
    obtain ⟨hg, ht⟩ := List.pairwise_cons.mp ha
    intro f hf
    rw [clearedFields, List.foldl_cons, ← clearedFields]
    rcases List.mem_cons.mp hf with rfl | hf
    · rw [bitsOf_clearedFields_below t _ _ hg]
      split
      · exact bitsOf_putBits_self _ _ _ _
      · rfl
    · rw [ih ht _ f hf]
      have habove : bitsOf (if g.acc = .rc then putBits v g.lsb g.width g.reset else v) f.lsb f.width = bitsOf v f.lsb f.width := by
        split
        · exact bitsOf_putBits_above _ _ _ _ _ _ (hg f hf)
        · rfl
      rw [habove]

section ClearRc

variable {s : State} {k : Nat} {r : Reg} {ix : List Nat}

/-- The read's clearing puts each RC field at its reset value (R16). -/
theorem clearRc_rc (h : regAt k = some (r, ix)) {f : FieldRow} (hf : f ∈ r.row.fields) (ha : f.acc = .rc) :
    bitsOf ((s.clearRc k).getK k).toNat f.lsb f.width = f.reset := by
  obtain ⟨-, hreset⟩ := r.fields_fit f hf
  rw [clearRc_eq h, getK_putK_self, fieldSame_word hf, bitsOf_clearedFields _ r.fields_apart _ f hf, if_pos ha, Nat.mod_eq_of_lt hreset]

/-- It leaves every other field. -/
theorem clearRc_other (h : regAt k = some (r, ix)) {f : FieldRow} (hf : f ∈ r.row.fields) (ha : f.acc ≠ .rc) :
    fieldSame f ((s.clearRc k).getK k) (s.getK k) := by
  rw [fieldSame, clearRc_eq h, getK_putK_self, fieldSame_word hf, bitsOf_clearedFields _ r.fields_apart _ f hf, if_neg ha]

theorem regsSame_clearRc {ks : List Nat} {t : State} (k : Nat) (hk : k ∈ ks) (hs : regsSame ks s t) : regsSame ks s (t.clearRc k) := by
  cases h : regAt k with
  | none => simpa only [clearRc, h] using hs
  | some p => rw [clearRc_eq h]; exact regsSame_putK _ _ hk hs

/-- Clearing changes the main copy of the registers alone. -/
theorem clearRc_frame (s : State) (k : Nat) : ∃ main, s.clearRc k = { s with regs := { s.regs with main := main } } := by
  cases h : regAt k with
  | none => exact ⟨s.regs.main, by simp only [clearRc, h]⟩
  | some p => exact ⟨_, clearRc_eq h⟩

theorem clearedFields_of_no_rc (l : List FieldRow) (hl : ∀ f ∈ l, f.acc ≠ .rc) (v : Nat) : clearedFields l v = v := by
  induction l with
  | nil => rfl
  | cons f t ih =>
    rw [clearedFields, List.foldl_cons, if_neg (hl f (by simp)), ← clearedFields, ih (fun g hg => hl g (by simp [hg]))]

/-- The read of a register without RC fields changes no register. -/
theorem regsSame_clearRc_of_no_rc {ks : List Nat} {t : State} (h : regAt k = some (r, ix)) (hl : ∀ f ∈ r.row.fields, f.acc ≠ .rc)
    (hs : regsSame ks s t) : regsSame ks s (t.clearRc k) := by
  refine regsSame_trans hs (fun j _ => ⟨?_, ?_⟩)
  · rw [clearRc_eq h, clearedFields_of_no_rc _ hl, BitVec.ofNat_toNat, BitVec.setWidth_eq]
    by_cases hj : j = k
    · rw [hj, getK_putK_self]
    · rw [getK_putK_ne _ _ _ _ hj]
  · rw [clearRc_eq h]
    exact ⟨rfl, rfl, rfl⟩

/-- A register whose read does no more than clear its RC fields shows its value and clears them. -/
theorem readLive_of_not_readActs (h : regAt k = some (r, ix)) (ha : r.readActs = false) : s.readLive k = s.regValue k := by
  rw [readLive, h]
  split
  · next heq => cases heq; exact absurd ha (by decide)
  · rfl

theorem readEffect_of_not_readActs (h : regAt k = some (r, ix)) (ha : r.readActs = false) : s.readEffect k = s.clearRc k := by
  rw [readEffect, h]
  split
  case h_6 => rfl
  case h_7 heq => cases heq
  all_goals next heq => cases heq; exact absurd ha (by decide)

/-- A read of a register that is no low half and for which no latch stands. -/
theorem readThrough_plain (lat : SMap Word) (h : regAt k = some (r, ix)) (hp : r.row.pair = .no) (ha : r.readActs = false)
    (hl : ∀ p ∈ lat, p.1 ≠ k) : s.readThrough lat k = (s.regValue k, lat, s.clearRc k) := by
  have hno : latchGet lat k = none := by simpa [latchGet] using hl
  rw [readThrough, pairOf, h]
  simp only [hp, hno, readLive_of_not_readActs h ha, readEffect_of_not_readActs h ha]

end ClearRc

end Sys2Proof.Machine.State
end

section
/-! BAR0 accesses: what one does over a clear Stile, and the statements about them (R12–R16, R37, R426). -/

namespace Sys2Proof.Machine

namespace State

/-! ### Accesses as commands -/

/-- An offset below the slices names its register itself (R96). -/
theorem regKey_of_lt {s : State} {off : Nat} (h : off < 0x20000) : s.regKey off = off := by
  rw [regKey, if_neg (by omega)]

theorem exec_bar0Write (s : State) (off : Fin 1048576) (v : Word) (h : off.val % 4 = 0) :
    exec (.bar0Write none off v) s = .next (s.hostWriteReg off v) := by
  simp only [exec, execBar0Write, accessWrite, if_pos h]

theorem exec_pairLoWrite (s : State) (off : Fin 1048576) (v : Word) (h : off.val % 4 = 0) :
    exec (.pairLoWrite none off v) s = .next (s.hostWriteReg off v) := by
  simp only [exec, execPairLoWrite, accessWrite, if_pos h]

theorem exec_pairHiWrite (s : State) (off : Fin 1048576) (v : Word) (h : off.val % 4 = 0) :
    exec (.pairHiWrite none off v) s = .next (s.hostWriteReg off v) := by
  simp only [exec, execPairHiWrite, accessWrite, if_pos h]

theorem exec_rcFieldRead (s : State) (off : Fin 1048576) (h : off.val % 4 = 0) :
    exec (.rcFieldRead none off) s = .next (s.hostRead off) := by
  simp only [exec, execRcFieldRead, accessRead, if_pos h]

theorem exec_pairLoRead (s : State) (off : Fin 1048576) (h : off.val % 4 = 0) :
    exec (.pairLoRead none off) s = .next (s.hostRead off) := by
  simp only [exec, execPairLoRead, accessRead, if_pos h]

theorem exec_pairHiRead (s : State) (off : Fin 1048576) (h : off.val % 4 = 0) :
    exec (.pairHiRead none off) s = .next (s.hostRead off) := by
  simp only [exec, execPairHiRead, accessRead, if_pos h]

/-! ### The value and the effect of an access in its own die -/

section Access

variable {s : State} {k : Nat} {r : Reg} {ix : List Nat}

/-- A BAR0 write of a register without a strobe, which is no half of a pair. -/
theorem bar0Put_plain (v : Word) (h : regAt k = some (r, ix)) (hp : r.row.pair = .no) (ha : r.acts = false) :
    s.bar0Put k v regWrite = s.plainWrite k v := by
  have hthrough : writeThrough s.regs.pairHeld k v = (s.regs.pairHeld, [(k, v)]) := by
    simp only [writeThrough, pairOf, h, hp]
  rw [bar0Put, hthrough]
  exact regWrite_of_not_acts v h ha

/-- A write of a low half is held (R13). -/
theorem bar0Put_lo (v : Word) (h : regAt k = some (r, ix)) (hp : r.row.pair = .lo) :
    s.bar0Put k v regWrite = s.keepHeld (latchPut s.regs.pairHeld k v) := by
  have hthrough : writeThrough s.regs.pairHeld k v = (latchPut s.regs.pairHeld k v, []) := by
    simp only [writeThrough, pairOf, h, hp]
  rw [bar0Put, hthrough]
  rfl

/-- A write of a high half brings the held low half into effect with it (R13). -/
theorem bar0Put_hi {r' : Reg} {ix' : List Nat} {lo : Word} (v : Word) (h : regAt k = some (r, ix)) (hp : r.row.pair = .hi)
    (ha : r.acts = false) (h' : regAt (pairLo k) = some (r', ix')) (ha' : r'.acts = false)
    (hl : latchGet s.regs.pairHeld (pairLo k) = some lo) :
    s.bar0Put k v regWrite = ((s.keepHeld (smErase (pairLo k) s.regs.pairHeld)).plainWrite (pairLo k) lo).plainWrite k v := by
  have hthrough : writeThrough s.regs.pairHeld k v = (smErase (pairLo k) s.regs.pairHeld, [(pairLo k, lo), (k, v)]) := by
    simp only [writeThrough, pairOf, h, hp, hl]
  rw [bar0Put, hthrough, ← regWrite_of_not_acts v h ha, ← regWrite_of_not_acts lo h' ha']
  rfl

/-- A BAR0 read shows that the link is up, and goes through BAR0's latches. -/
theorem bar0Value_eq (hk : k ≠ 0x4C) {v : Word} {lat : SMap Word} {t : State}
    (h : (linkSeen s).readThrough s.regs.pairLatch k = (v, lat, t)) : s.bar0Value k = (v, t.keepLatch lat) := by
  simp only [bar0Value, if_neg hk]
  rw [show s.modBoot (fun b => { b with linkUp := true }) = linkSeen s from rfl, h]

/-- The read of a register that is no half of a pair, with no latch of R13 standing. -/
theorem bar0Value_plain (h : regAt k = some (r, ix)) (hp : r.row.pair = .no) (ha : r.readActs = false) (hk : k ≠ 0x4C)
    (hl : ∀ p ∈ s.regs.pairLatch, p.1 ≠ k) : s.bar0Value k = ((linkSeen s).regValue k, (linkSeen s).clearRc k) := by
  rw [bar0Value_eq hk (readThrough_plain _ h hp ha hl)]
  obtain ⟨_, e⟩ := clearRc_frame (linkSeen s) k
  rw [e]
  rfl

/-- A read of a low half latches the high half of the same instant (R13). -/
theorem bar0Value_lo {r' : Reg} {ix' : List Nat} (h : regAt k = some (r, ix)) (hp : r.row.pair = .lo) (ha : r.readActs = false)
    (hk : k ≠ 0x4C) (h' : regAt (pairHi k) = some (r', ix')) (ha' : r'.readActs = false) :
    s.bar0Value k = ((linkSeen s).regValue k,
      ((linkSeen s).clearRc k).keepLatch (latchPut s.regs.pairLatch (pairHi k) ((linkSeen s).regValue (pairHi k)))) := by
  refine bar0Value_eq hk ?_
  rw [readThrough, pairOf, h]
  simp only [hp, readLive_of_not_readActs h ha, readLive_of_not_readActs h' ha', readEffect_of_not_readActs h ha]

/-- A read of a high half answers what is latched for it, once (R13). -/
theorem bar0Value_hi {v : Word} (h : regAt k = some (r, ix)) (hp : r.row.pair = .hi) (ha : r.readActs = false) (hk : k ≠ 0x4C)
    (hl : latchGet s.regs.pairLatch k = some v) :
    s.bar0Value k = (v, ((linkSeen s).clearRc k).keepLatch (smErase k s.regs.pairLatch)) := by
  refine bar0Value_eq hk ?_
  rw [readThrough, pairOf, h]
  simp only [hp, hl, readEffect_of_not_readActs h ha]

end Access

/-! ### The way of an access -/

/-- A BAR0 write takes effect on the H-die, or over a clear Stile on the F-die. -/
theorem hostWriteReg_eq {s : State} {off : Nat} (v : Word) (h : keyOnHost off = true ∨ crosses s) :
    s.hostWriteReg off v = (if keyOnHost off then s else s.down 1).bar0Put (s.regKey off) v regWrite := by
  rw [hostWriteReg]
  by_cases hoff : keyOnHost off = true
  · rw [if_pos hoff, if_pos hoff]
  · rw [if_neg hoff, if_neg hoff, toField_of_crosses (h.resolve_left hoff), frames_barWr]
    rfl

/-- A read of an F-die register over a clear Stile: the frame of the request crosses, and then that of the answer. -/
theorem hostRead_of_crosses {s : State} {off : Nat} (hoff : keyOnHost off = false) (h : crosses s) {v : Word} {t : State}
    (hv : (s.down 1).bar0Value (s.regKey off) = (v, t)) (ht : t.stile = (s.down 1).stile) (hf : t.flt = s.flt) :
    s.hostRead off = (t.up 1).reply v := by
  have hreq : s.hostRead off = answer ((s.down 1).bar0Value (s.regKey off)) := by
    rw [hostRead, hoff, if_neg Bool.false_ne_true, readField_of_crosses h, frames_barRd]
    rfl
  obtain ⟨-, -, h71, -, h91⟩ := id h
  have hc : t.stile.clear true = true := by rw [ht]; exact clear_of_crosses h true
  have h7 : t.injOn 7 1 = false := by rw [injOn, hf]; exact h71
  have h9 : t.injOn 9 1 = false := by rw [injOn, hf]; exact h91
  rw [hreq, hv, answer, cross_of_clear true _ _ hc h7 h9]
  exact congrArg (fun n => (t.up n).reply v) (frames_barRsp v)

/-- The same read, where all that it changes beside the link flag is main copies and latches. -/
theorem hostRead_of_clearRc {s : State} {off : Nat} (hoff : keyOnHost off = false) (h : crosses s) {v : Word} {k : Nat} {lat : SMap Word}
    (hv : (s.down 1).bar0Value (s.regKey off) = (v, ((linkSeen (s.down 1)).clearRc k).keepLatch lat)) :
    s.hostRead off = ((((linkSeen (s.down 1)).clearRc k).keepLatch lat).up 1).reply v := by
  obtain ⟨_, e⟩ := clearRc_frame (linkSeen (s.down 1)) k
  refine hostRead_of_crosses hoff h hv ?_ ?_ <;> rw [e] <;> rfl

end State

open State

/-- Settles O8: the access is a write by the access codes alone, whose effect on each field is the mask of its code. -/
theorem aWriteFollowsTheAccessCodes : Obligations.AWriteFollowsTheAccessCodes := by
  unfold Obligations.AWriteFollowsTheAccessCodes
  intro off v r ix s halign hcross hreg hpair hacts
  generalize hs' : (if keyOnHost off then s else s.down 1) = s'
  have hsame : s' = { s with stile := s'.stile } := by rw [← hs']; split <;> rfl
  have hstile : s'.stile = if keyOnHost off then s.stile else framesDown 1 s.stile := by rw [← hs']; split <;> rfl
  have hw : s.hostWriteReg off v = s'.plainWrite (s.regKey off) v := by
    rw [hostWriteReg_eq v hcross, hs', bar0Put_plain v hreg hpair hacts]
  have hget (j : Nat) : s'.getK j = s.getK j := by rw [hsame]; rfl
  refine ⟨s'.plainWrite (s.regKey off) v, ?_, ?_, ?_, ?_, ?_, ?_, fun f hf => ⟨?_, ?_, ?_, ?_⟩⟩
  · rw [exec_bar0Write s off v halign, hw]
  · obtain ⟨_, _, e⟩ := plainWrite_frame s' (s.regKey off) v
    rw [e, hsame, ← hstile]
  · exact regsSame_plainWrite _ _ (by simp) (regsSame_other (regsSame_refl _ s) (by rw [hsame]))
  · rw [plainWrite_activeK, hsame]; rfl
  · rw [plainWrite_freshK, hsame]; rfl
  · rintro rfl
    exact plainWrite_fwInit v hreg
  · exact plainWrite_rw v hreg hf
  · rw [← hget]
    exact plainWrite_w1c v hreg hf
  · exact plainWrite_rws v hreg hf
  · rw [← hget]
    intro ha
    exact plainWrite_other v hreg hf (by rcases ha with ha | ha | ha <;> simp [ha]) (by rcases ha with ha | ha | ha <;> simp [ha])

/-- Settles O9: over the Stile the F-die forms the same value, since no register shows the Stile's frame numbers. -/
theorem aReadClearsTheRcFields : Obligations.AReadClearsTheRcFields := by
  unfold Obligations.AReadClearsTheRcFields
  intro off r ix s halign hcross hreg hpair hacts h4c hlatch
  have hread : s.hostRead off = { (linkSeen s).clearRc (s.regKey off) with
      lastRead := (linkSeen s).regValue (s.regKey off)
      stile := if keyOnHost off then s.stile else framesUp 1 (framesDown 1 s.stile) } := by
    cases hoff : keyOnHost off
    · have hv := bar0Value_plain (s := s.down 1) hreg hpair hacts h4c hlatch
      have hsame : (linkSeen (s.down 1)).regValue (s.regKey off) = (linkSeen s).regValue (s.regKey off) := regValue_down (linkSeen s) 1 _
      rw [clearRc_eq hreg] at hv
      rw [hostRead_of_crosses hoff (hcross.resolve_left (by simp [hoff])) hv rfl rfl, hsame, clearRc_eq hreg]
      rfl
    · rw [hostRead, hoff, if_pos rfl, bar0Read, bar0Value_plain hreg hpair hacts h4c hlatch, clearRc_eq hreg]
      rfl
  refine ⟨s.hostRead off, exec_rcFieldRead s off halign, ?_⟩
  rw [hread]
  obtain ⟨main, e⟩ := clearRc_frame (linkSeen s) (s.regKey off)
  refine ⟨rfl, ?_, ?_, ?_, ?_, ?_, fun f hf => ⟨?_, ?_⟩⟩
  · rw [e]
  · exact regsSame_other (regsSame_clearRc (t := linkSeen s) (s.regKey off) (by simp) (regsSame_other (regsSame_refl _ s) rfl)) rfl
  · rw [e]; rfl
  · rw [e]; rfl
  · rw [e]; rfl
  · exact clearRc_rc (s := linkSeen s) hreg hf
  · exact clearRc_other (s := linkSeen s) hreg hf

/-! ### Register pairs (R13) -/

namespace State

theorem find?_smInsert {α : Type} (k : Nat) (v : α) (m : SMap α) (h : ∀ p ∈ m, p.1 ≠ k) :
    (smInsert k v m).find? (fun p => p.1 == k) = some (k, v) := by
  induction m with
  | nil => simp [smInsert]
  | cons p t ih =>
    obtain ⟨j, w⟩ := p
    have hj : j ≠ k := h (j, w) (by simp)
    rw [smInsert]
    split
    · simp
    · rw [List.find?_cons_of_neg (by simpa using hj), ih (fun q hq => h q (by simp [hq]))]

/-- A latch is found as it was put. -/
theorem find?_latchPut (m : SMap Word) (k : Nat) (v : Word) : (latchPut m k v).find? (fun p => p.1 == k) = some (k, v) :=
  find?_smInsert k v _ (by intro p hp; simp [smErase] at hp; exact hp.2)

theorem latchGet_of_find? {m : SMap Word} {k : Nat} {v : Word} (h : m.find? (fun p => p.1 == k) = some (k, v)) : latchGet m k = some v := by
  rw [latchGet, h]; rfl

theorem regAt_tbcLo : regAt 0x4018 = some (.TB_TBC_LO, []) := by decide +kernel
theorem regAt_tbcHi : regAt 0x401C = some (.TB_TBC_HI, []) := by decide +kernel
theorem regAt_epochLo : regAt 0x4020 = some (.TB_EPOCH_LO, []) := by decide +kernel
theorem regAt_epochHi : regAt 0x4024 = some (.TB_EPOCH_HI, []) := by decide +kernel

/-- A field of all 32 bits that shows a value replaces what the register holds. -/
theorem putBits_whole (v x : Nat) : BitVec.ofNat 32 (putBits v 0 32 x) = BitVec.ofNat 32 x := by
  refine BitVec.eq_of_toNat_eq ?_
  simp only [BitVec.toNat_ofNat, putBits]
  omega

/-- The laps that the count of ticks adds to TBC are multiples of 2^64 (R69, log 72). -/
theorem regValue_tbcLo (s : State) : (s.regValue 0x4018).toNat = s.tb.tbc.toNat % 2 ^ 32 := by
  have hv : s.regValue 0x4018 = BitVec.ofNat 32 (s.now % 2 ^ 32) := by
    simp only [regValue, regAt_tbcLo]
    exact putBits_whole _ _
  rw [hv, BitVec.toNat_ofNat, now]
  omega

theorem regValue_tbcHi (s : State) : s.regValue 0x401C = BitVec.ofNat 32 (s.tb.tbc.toNat / 2 ^ 32) := by
  have hv : s.regValue 0x401C = BitVec.ofNat 32 (s.now / 2 ^ 32 % 2 ^ 32) := by
    simp only [regValue, regAt_tbcHi]
    exact putBits_whole _ _
  have hlt := s.tb.tbc.isLt
  refine hv.trans (BitVec.eq_of_toNat_eq ?_)
  simp only [BitVec.toNat_ofNat, now]
  omega

end State

/-- Settles O11: the low half latches the high half's value of the same state, and the high half's read answers what is latched. -/
theorem aCounterIsReadWhole : Obligations.ACounterIsReadWhole := by
  unfold Obligations.ACounterIsReadWhole
  refine ⟨fun s hcross => ?_, fun hi s hcross hlatch => ?_⟩
  · have hpair : pairHi 0x4018 = 0x401C := by decide
    have hv := bar0Value_lo (s := s.down 1) regAt_tbcLo rfl rfl (by decide) (hpair ▸ regAt_tbcHi) rfl
    rw [hpair] at hv
    have hread := hostRead_of_clearRc (off := 0x4018) (by decide +kernel) hcross ((congrArg (s.down 1).bar0Value (regKey_of_lt (by decide))).trans hv)
    refine ⟨_, (exec_pairLoRead s 0x4018 (by decide)).trans (congrArg _ hread), ?_⟩
    obtain ⟨main, e⟩ := clearRc_frame (linkSeen (s.down 1)) 0x4018
    refine ⟨regValue_tbcLo _, ?_, ?_, ?_⟩
    · rw [regValue_tbcHi]
      exact find?_latchPut _ _ _
    · rw [e]; rfl
    · exact regsSame_clearRc_of_no_rc (ks := []) regAt_tbcLo (by decide) (regsSame_refl [] (linkSeen (s.down 1)))
  · have hv := bar0Value_hi (s := s.down 1) regAt_tbcHi rfl rfl (by decide) (latchGet_of_find? hlatch)
    have hread := hostRead_of_clearRc (off := 0x401C) (by decide +kernel) hcross
      ((congrArg (s.down 1).bar0Value (regKey_of_lt (by decide))).trans hv)
    refine ⟨_, (exec_pairHiRead s 0x401C (by decide)).trans (congrArg _ hread), rfl, rfl, ?_, ?_⟩
    · obtain ⟨main, e⟩ := clearRc_frame (linkSeen (s.down 1)) 0x401C
      rw [e]; rfl
    · exact regsSame_clearRc_of_no_rc (ks := []) regAt_tbcHi (by decide) (regsSame_refl [] (linkSeen (s.down 1)))

/-- Settles O12: the held low half is written with the high half. -/
theorem aPairIsWrittenTogether : Obligations.APairIsWrittenTogether := by
  unfold Obligations.APairIsWrittenTogether
  refine ⟨fun v s hcross => ?_, fun lo hi s hcross hheld => ?_⟩
  · have hw : s.hostWriteReg 0x4020 v = (s.down 1).keepHeld (latchPut s.regs.pairHeld 0x4020 v) := by
      rw [hostWriteReg_eq v (Or.inr hcross), if_neg (by decide +kernel), regKey_of_lt (by decide), bar0Put_lo v regAt_epochLo rfl]
    exact ⟨_, (exec_pairLoWrite s 0x4020 v (by decide)).trans (congrArg _ hw), find?_latchPut _ _ _, rfl⟩
  · have hpair : pairLo 0x4024 = 0x4020 := by decide
    have hput := bar0Put_hi (s := s.down 1) hi regAt_epochHi rfl rfl (hpair ▸ regAt_epochLo) rfl (hpair ▸ latchGet_of_find? hheld)
    rw [hpair] at hput
    have hw := hostWriteReg_eq (off := 0x4024) hi (Or.inr hcross)
    rw [if_neg (by decide +kernel), regKey_of_lt (by decide), hput] at hw
    refine ⟨_, (exec_pairHiWrite s 0x4024 hi (by decide)).trans (congrArg _ hw), ?_⟩
    generalize hs' : (s.down 1).keepHeld (smErase 0x4020 (s.down 1).regs.pairHeld) = s'
    obtain ⟨_, _, elo⟩ := plainWrite_frame s' 0x4020 lo
    obtain ⟨_, _, ehi⟩ := plainWrite_frame (s'.plainWrite 0x4020 lo) 0x4024 hi
    refine ⟨?_, ?_, ?_, ?_, ?_⟩
    · have hlo := plainWrite_rw (s := s') lo regAt_epochLo (f := ⟨11, 21, .rw, 0⟩) (by decide) rfl
      obtain ⟨hkept, -⟩ := regsSame_plainWrite (ks := [0x4024]) 0x4024 hi (by simp) (regsSame_refl _ (s'.plainWrite 0x4020 lo)) 0x4020 (by decide)
      rw [← hkept] at hlo
      have hlt := lo.isLt
      refine hlo.trans ?_
      simp only [bitsOf]
      omega
    · have hhi := plainWrite_rw (s := s'.plainWrite 0x4020 lo) hi regAt_epochHi (f := ⟨0, 32, .rw, 0⟩) (by decide) rfl
      have hlt := hi.isLt
      refine hhi.trans ?_
      simp only [bitsOf]
      omega
    · rw [ehi, elo, ← hs']; rfl
    · rw [ehi, elo, ← hs']; rfl
    · refine regsSame_plainWrite _ _ (by simp) (regsSame_plainWrite _ _ (by simp) ?_)
      rw [← hs']
      exact fun _ _ => ⟨rfl, rfl, rfl, rfl⟩

end Sys2Proof.Machine
end

section
/-! A commit that a check refuses (R38, R40, R46, R489), and the state after reset (R471, R472). -/

namespace Sys2Proof.Machine

namespace State

/-! ### The checks of a commit do not hang on the Stile -/

theorem candidate_stile (s : State) (x : Stile) (vals : List (Nat × Word)) (segs : List (Nat × SMap Nat)) :
    ({ s with stile := x } : State).candidate vals segs = { s.candidate vals segs with stile := x } := by
  have hvals (s : State) : vals.foldl (fun s p => s.putActive p.1 p.2) ({ s with stile := x } : State) =
      { vals.foldl (fun s p => s.putActive p.1 p.2) s with stile := x } := by
    induction vals generalizing s with
    | nil => rfl
    | cons p t ih => exact ih (s.putActive p.1 p.2)
  have hsegs (s : State) : segs.foldl (fun s p => s.modSess (Fin.ofNat 16 p.1) (fun x => { x with segActive := p.2 }))
      ({ s with stile := x } : State) =
      { segs.foldl (fun s p => s.modSess (Fin.ofNat 16 p.1) (fun x => { x with segActive := p.2 })) s with stile := x } := by
    induction segs generalizing s with
    | nil => rfl
    | cons p t ih => exact ih (s.modSess (Fin.ofNat 16 p.1) (fun x => { x with segActive := p.2 }))
  rw [candidate, hvals]
  exact hsegs _

theorem commitFirst_stile (s c : State) (x : Stile) (v : Scope) (vals : List (Nat × Word)) (boot : Bool) :
    commitFirst { s with stile := x } { c with stile := x } v vals boot = commitFirst s c v vals boot := (rfl)

/-! ### The report of a refused commit -/

/-- `t` is `s` with other main copies of registers. -/
def MainOnly (s t : State) : Prop := ∃ main, t = { s with regs := { s.regs with main := main } }

theorem MainOnly.refl (s : State) : MainOnly s s := ⟨s.regs.main, rfl⟩

theorem MainOnly.set {s t : State} (h : MainOnly s t) (f : Fld) (ix : List Nat) (v : Nat) : MainOnly s (t.set f ix v) := by
  obtain ⟨_, rfl⟩ := h
  exact ⟨_, rfl⟩

section Refuse

variable (s : State) (x : CFail)

/-- The report of a commit written to SYS_COMMIT changes main copies of registers alone. -/
theorem commitRefuse_mainOnly : MainOnly s (s.commitRefuse none x) := by
  simp only [commitRefuse, incWrap]
  repeat refine MainOnly.set ?_ _ _ _
  exact MainOnly.refl s

theorem commitRefuse_seq : (s.commitRefuse none x).get F.SYS_COMMIT_INFO_SEQ = (s.get F.SYS_COMMIT_INFO_SEQ + 1) % 65536 := by
  simp (disch := decide) only [commitRefuse, incWrap, get_set_key, get_set_self]
  exact Nat.mod_mod _ _

theorem commitRefuse_status : (s.commitRefuse none x).get F.SYS_COMMIT_STATUS_STATUS = x.st.code := by
  simp (disch := decide) only [commitRefuse, get_set_field, get_set_self]
  cases x.st <;> rfl

theorem commitRefuse_fieldId : (s.commitRefuse none x).get F.SYS_COMMIT_STATUS_FIELD_ID = x.id % 65536 := by
  simp (disch := decide) only [commitRefuse, get_set_self]
  rfl

theorem commitRefuse_offset : (s.commitRefuse none x).get F.SYS_COMMIT_WHERE_OFFSET = x.off % 2 ^ 20 := by
  simp (disch := decide) only [commitRefuse, get_set_key, get_set_field, get_set_self]
  rfl

theorem commitRefuse_ts : (s.commitRefuse none x).get F.SYS_COMMIT_WHERE_TS = x.ts % 32 := by
  simp (disch := decide) only [commitRefuse, get_set_key, get_set_field, get_set_self]
  rfl

theorem commitRefuse_srcRing : (s.commitRefuse none x).get F.SYS_COMMIT_WHERE_SRC_RING = 0 := by
  simp (disch := decide) only [commitRefuse, get_set_key, get_set_field, get_set_self]
  rfl

end Refuse

/-- A commit that reaches a free engine with no injection armed, and that a check fails, is refused (R40). -/
theorem commitGo_of_fails {s : State} {scope target : Nat} {x : CFail} (hbusy : s.get F.SYS_COMMIT_STATUS_BUSY = 0)
    (hpin : s.commit.pin = none) (hwait : s.commit.wait = []) (hinj : s.injOn 15 7 = false)
    (hfail : commitFirst s (s.candidate (s.commitVals ⟨scope, target, true⟩) (s.commitSegs ⟨scope, target, true⟩)) ⟨scope, target, true⟩
      (s.commitVals ⟨scope, target, true⟩) false = some x) : s.commitGo scope target = s.commitRefuse none x := by
  have hmay : s.sourceMay ⟨scope, target, true⟩ none = true := rfl
  simp only [commitGo, hbusy, commitEnter, hpin, hwait, commitStart, hinj, hmay, hfail]
  simp

end State

open State

/-- Settles O26: the engine judges the commit as it stood when it was written, since no check hangs on the frame that brings it. -/
theorem aRefusedCommitChangesNothing : Obligations.ARefusedCommitChangesNothing := by
  unfold Obligations.ARefusedCommitChangesNothing
  intro scope target x s hcross hbusy hpin hwait hinj hfail
  have hgo : (s.down 1).commitGo scope target = (s.down 1).commitRefuse none x := by
    refine commitGo_of_fails hbusy hpin hwait hinj ?_
    rw [candidate_stile]
    exact (commitFirst_stile _ _ _ _ _ _).trans hfail
  refine ⟨(s.down 1).commitRefuse none x, ?_, ?_, commitRefuse_seq _ _, commitRefuse_status _ _, commitRefuse_fieldId _ _,
    commitRefuse_offset _ _, commitRefuse_ts _ _, commitRefuse_srcRing _ _, ?_⟩
  · rw [exec, execSysCommitGo, toField_of_crosses hcross, frames_commitGo, hgo]
  all_goals obtain ⟨_, e⟩ := commitRefuse_mainOnly (s.down 1) x
  · rw [e]; exact fun k => ⟨rfl, rfl⟩
  · rw [e]

/-- Refutes O58: TL_ROLE shows the strap after reset, 3 in this model (log 1), while the map's reset value of the register is 0. -/
theorem not_resetLeavesTheMachineIdle : ¬ Obligations.ResetLeavesTheMachineIdle := by
  unfold Obligations.ResetLeavesTheMachineIdle
  rintro ⟨hregs, -⟩
  obtain ⟨hmain, -⟩ := hregs 0x78000
  exact absurd hmain (by decide +kernel)

end Sys2Proof.Machine
end

section
/-! Bytes of host memory, and the completions of a session's commands (R390, R391, R397, R401, R402, R410). -/

namespace Sys2Proof.Machine

/-! ### Fields of byte lists -/

theorem fieldAt_succ (l : List Byte) (off n : Nat) : fieldAt l off (n + 1) = (l.getD off 0).toNat + 256 * fieldAt l (off + 1) n := by
  unfold fieldAt
  by_cases h : off < l.length
  · rw [List.drop_eq_getElem_cons h, List.take_succ_cons, leVal, List.getD_eq_getElem _ _ h]
  · rw [List.drop_eq_nil_of_le (by omega), List.drop_eq_nil_of_le (by omega), List.getD_eq_default _ _ (by omega)]
    simp [leVal]

/-- A field hangs on its own bytes alone. -/
theorem fieldAt_congr {l l' : List Byte} {n off : Nat} (h : ∀ i < n, l.getD (off + i) 0 = l'.getD (off + i) 0) :
    fieldAt l off n = fieldAt l' off n := by
  induction n generalizing off with
  | zero => simp [fieldAt, leVal]
  | succ n ih =>
    have h0 : l.getD off 0 = l'.getD off 0 := h 0 (by omega)
    rw [fieldAt_succ, fieldAt_succ, h0, ih (fun i hi => by simpa [Nat.add_assoc, Nat.add_comm 1] using h (i + 1) (by omega))]

theorem fieldAt_padTo (l : List Byte) {m off n : Nat} (h : off + n ≤ m) : fieldAt (padTo m l) off n = fieldAt l off n := by
  refine fieldAt_congr (fun i hi => ?_)
  simp only [padTo, List.getD_eq_getElem?_getD, List.getElem?_append, List.length_take, List.getElem?_take, List.getElem?_replicate]
  by_cases hl : off + i < l.length
  · rw [if_pos (by omega), if_pos (by omega)]
  · rw [if_neg (by omega), List.getElem?_eq_none (by omega)]
    split <;> rfl

@[simp] theorem length_leBytes (n v : Nat) : (leBytes n v).length = n := by
  induction n generalizing v with
  | zero => rfl
  | succ n ih => simp [leBytes, ih]

theorem leVal_leBytes (n v : Nat) : leVal (leBytes n v) = v % 256 ^ n := by
  induction n generalizing v with
  | zero => simp [leBytes, leVal, Nat.mod_one]
  | succ n ih => rw [leBytes, leVal, ih, BitVec.toNat_ofNat, Nat.pow_succ' (m := 256), Nat.mod_mul]

/-- The first of the values that a structure is made of. -/
theorem fieldAt_head (n v : Nat) (t : List Byte) : fieldAt (leBytes n v ++ t) 0 n = v % 256 ^ n := by
  rw [fieldAt, List.drop_zero, List.take_left' (length_leBytes n v), leVal_leBytes]

/-- A field behind the first value. -/
theorem fieldAt_skip {n off : Nat} (v m : Nat) (t : List Byte) (h : n ≤ off) : fieldAt (leBytes n v ++ t) off m = fieldAt t (off - n) m := by
  rw [fieldAt, fieldAt, List.drop_append, length_leBytes, List.drop_eq_nil_of_le (by rwa [length_leBytes]), List.nil_append]

/-! ### Bytes of a memory -/

@[simp] theorem length_memBytes (m : List Host.Cell) (a n : Nat) : (memBytes m a n).length = n := by
  induction n generalizing a with
  | zero => rfl
  | succ n ih => simp [memBytes, ih]

theorem getElem_memBytes (m : List Host.Cell) (a n i : Nat) (h : i < (memBytes m a n).length) : (memBytes m a n)[i] = memByte m (a + i) := by
  induction n generalizing a i with
  | zero => simp [memBytes] at h
  | succ n ih =>
    cases i with
    | zero => rfl
    | succ i =>
      simp only [memBytes, List.getElem_cons_succ]
      rw [ih, Nat.add_right_comm, Nat.add_assoc]

/-- What has been stored reads back. -/
theorem memBytes_puts (m : List Host.Cell) (a : Nat) (bs : List Byte) {n : Nat} (h : bs.length = n) : memBytes (memPuts m a bs) a n = bs := by
  refine List.ext_getElem (by simp [h]) (fun i _ hi => ?_)
  rw [getElem_memBytes, memByte_puts_in _ _ _ _ hi]

theorem memBytes_congr {m m' : List Host.Cell} {a n : Nat} (h : ∀ i < n, memByte m (a + i) = memByte m' (a + i)) :
    memBytes m a n = memBytes m' a n := by
  refine List.ext_getElem (by simp) (fun i hi _ => ?_)
  rw [getElem_memBytes, getElem_memBytes, h i (by simpa using hi)]

/-! ### Completion entries (R397) -/

/-- The completion entry as it stands in the ring, with its PHASE bit. -/
theorem withPhase_completionBytes (tag opcode status cond f e d0 d1 tbc : Nat) (p : Bool) :
    withPhase (completionBytes tag opcode status cond f e d0 d1 tbc) p =
      leBytes 2 tag ++ (leBytes 1 opcode ++ (leBytes 1 status ++ (leBytes 2 cond ++ (leBytes 1 f ++ (leBytes 1 e ++
        (leBytes 8 d0 ++ (leBytes 8 d1 ++ (leBytes 6 tbc ++ leBytes 2 (2 ^ 15 * p.toNat))))))))) := by
  have hlast (l : List Byte) : withPhase (l ++ leBytes 2 0) p = l ++ leBytes 2 (2 ^ 15 * p.toNat) := by
    have htwo : leBytes 2 0 = [0] ++ [0] := rfl
    rw [withPhase, htwo, ← List.append_assoc, List.dropLast_concat, List.getLast?_concat, List.append_assoc]
    cases p <;> rfl
  simp only [completionBytes, ← List.append_assoc]
  exact hlast _

/-- The fields of a completion entry (R397). -/
theorem completionBytes_fields (tag opcode status cond f e d0 d1 tbc : Nat) (p : Bool) :
    let b := withPhase (completionBytes tag opcode status cond f e d0 d1 tbc) p
    b.length = 32 ∧ fieldAt b 0 2 = tag % 256 ^ 2 ∧ fieldAt b 2 1 = opcode % 256 ^ 1 ∧ fieldAt b 3 1 = status % 256 ^ 1 ∧
      fieldAt b 4 2 = cond % 256 ^ 2 ∧ fieldAt b 7 1 = e % 256 ^ 1 ∧ fieldAt b 8 8 = d0 % 256 ^ 8 ∧ fieldAt b 16 8 = d1 % 256 ^ 8 ∧
      fieldAt b 24 6 = tbc % 256 ^ 6 ∧ fieldAt b 30 2 = 2 ^ 15 * p.toNat := by
  have hlast : fieldAt (leBytes 2 (2 ^ 15 * p.toNat)) 0 2 = 2 ^ 15 * p.toNat := by cases p <;> rfl
  intro b
  simp only [b, withPhase_completionBytes]
  refine ⟨by simp, fieldAt_head _ _ _, ?_, ?_, ?_, ?_, ?_, ?_, ?_, ?_⟩ <;>
    simp (disch := decide) only [fieldAt_skip, fieldAt_head, hlast, Nat.reduceSub]

end Sys2Proof.Machine
end

section
/-! Completions: what posting one does to the machine (R391, R397, R398, R401, R402, R410). -/

namespace Sys2Proof.Machine

/-- COND with the flag of the status itself (R398). -/
def Status.flagged (st : Status) (cond : Nat) : Nat :=
  match st with
  | .fault => withBit cond Cond.fault
  | .aborted => withBit cond Cond.aborted
  | .maskStop => withBit cond Cond.maskStop
  | .timeout => withBit cond Cond.timeout
  | .degraded => withBit cond Cond.degraded
  | _ => cond

namespace State

/-- The pending bits of a function's vectors. -/
abbrev pbaKeys (n : Fin 16) : List Nat := [Reg.key .MSIX_PBA [n, 0], Reg.key .MSIX_PBA [n, 1]]

/-! ### Vectors and ring entries -/

/-- A vector is sent, or is held pending, or nothing happens. -/
theorem raiseVec_frame (s : State) (n : Fin 16) {v : Nat} (hv : v < 64) :
    ∃ main irqs, s.raiseVec n v = { s with regs := { s.regs with main := main }, irqs := irqs } ∧ regsSame (pbaKeys n) s (s.raiseVec n v) := by
  rw [raiseVec]
  split
  · exact ⟨s.regs.main, s.irqs, rfl, regsSame_refl _ _⟩
  split
  · have hkey : Reg.key .MSIX_PBA [n, v / 32] ∈ pbaKeys n := by
      have : v / 32 = 0 ∨ v / 32 = 1 := by omega
      rcases this with h | h <;> simp [h]
    exact ⟨_, s.irqs, rfl, regsSame_putK _ _ hkey (regsSame_refl _ _)⟩
  · exact ⟨s.regs.main, _, rfl, regsSame_other (regsSame_refl _ s) rfl⟩

theorem modHost_modHost (s : State) (n : Fin 16) (f g : HostSess → HostSess) :
    (s.modHost n f).modHost n g = s.modHost n (fun h => g (f h)) := by
  simp [modHost]

/-- A ring of a session replaced. -/
def setRing (s : State) (n : Fin 16) (r : Fin 4) (g : Ring) : State := s.modHost n (fun h => { h with rings := h.rings.set r g })

theorem modRing_eq_setRing (s : State) (n : Fin 16) (r : Fin 4) (f : Ring → Ring) : s.modRing n r f = s.setRing n r (f s.host[n].rings[r]) := by
  simp [modRing, modHost, setRing]

@[simp] theorem setRing_setRing (s : State) (n : Fin 16) (r : Fin 4) (g g' : Ring) : (s.setRing n r g).setRing n r g' = s.setRing n r g' := by
  simp [setRing, modHost_modHost]

@[simp] theorem setRing_ring (s : State) (n : Fin 16) (r : Fin 4) (g : Ring) : (s.setRing n r g).host[n].rings[r] = g := by
  rw [setRing, modHost_self]
  exact Vector.getElem_set_self _

/-- A vector that a ring raises moves no entry of it. -/
theorem raiseRing_frame (s : State) (n : Fin 16) (r : Fin 4) :
    ∃ main irqs ring, ring.used = s.host[n].rings[r].used ∧
      s.raiseRing n r = { s.setRing n r ring with regs := { s.regs with main := main }, irqs := irqs } ∧
      regsSame (pbaKeys n) s (s.raiseRing n r) := by
  have hv : s.get F.RING_CTL_VEC [n, r] < 64 := Nat.mod_lt _ (by decide)
  obtain ⟨main, irqs, e, hsame⟩ := raiseVec_frame s n hv
  refine ⟨main, irqs, { s.host[n].rings[r] with armed := false, since := 0 }, rfl, ?_, regsSame_other hsame rfl⟩
  rw [raiseRing, modRing_eq_setRing, e]
  rfl

/-- A ring after an entry has been written: its write index and PHASE move. -/
def entered (g : Ring) (entries : Nat) : Ring :=
  { g with wr := if g.wr + 1 = entries then 0 else g.wr + 1, phase := if g.wr + 1 = entries then !g.phase else g.phase
           used := g.used + 1, since := g.since + 1 }

/-- The machine with an entry in a ring, before the ring's vector is judged. -/
def enter (s : State) (n : Fin 16) (r : Fin 4) (bytes : List Byte) : State :=
  { s.setRing n r (entered s.host[n].rings[r] (s.ringEntries n r)) with
    hostMem := memPuts s.hostMem (s.ringBase n r + s.host[n].rings[r].wr * entrySize r) (withPhase bytes s.host[n].rings[r].phase) }

/-- Either the entry's ring raises its vector, or it does not. -/
theorem putEntry_cases (s : State) (n : Fin 16) (r : Fin 4) (bytes : List Byte) (intr : Bool) :
    s.putEntry n r bytes intr = s.enter n r bytes ∨ s.putEntry n r bytes intr = (s.enter n r bytes).raiseRing n r := by
  have h : ∃ raises : Bool, s.putEntry n r bytes intr = if raises then (s.enter n r bytes).raiseRing n r else s.enter n r bytes := ⟨_, rfl⟩
  obtain ⟨raises, e⟩ := h
  cases raises
  · exact Or.inl e
  · exact Or.inr e

/-- A ring's entry is written at its write index; the ring's own indices move, and its vector may be raised (R391, R410). -/
theorem putEntry_frame (s : State) (n : Fin 16) (r : Fin 4) (bytes : List Byte) (intr : Bool) :
    ∃ main irqs ring, ring.used = s.host[n].rings[r].used + 1 ∧
      s.putEntry n r bytes intr = { s.setRing n r ring with
        regs := { s.regs with main := main }, irqs := irqs
        hostMem := memPuts s.hostMem (s.ringBase n r + s.host[n].rings[r].wr * entrySize r) (withPhase bytes s.host[n].rings[r].phase) } ∧
      regsSame (pbaKeys n) s (s.putEntry n r bytes intr) := by
  have henter : regsSame (pbaKeys n) s (s.enter n r bytes) := regsSame_other (regsSame_refl _ s) rfl
  rcases putEntry_cases s n r bytes intr with e | e
  · exact ⟨s.regs.main, s.irqs, entered s.host[n].rings[r] (s.ringEntries n r), rfl, e, e ▸ henter⟩
  · obtain ⟨main, irqs, ring, hused, eraise, hsame⟩ := raiseRing_frame (s.enter n r bytes) n r
    refine ⟨main, irqs, ring, ?_, ?_, e ▸ regsSame_trans henter hsame⟩
    · have hring : (s.enter n r bytes).host[n].rings[r] = entered s.host[n].rings[r] (s.ringEntries n r) := setRing_ring s n r _
      rw [hused, hring]
      rfl
    · have hset : (s.enter n r bytes).setRing n r ring = { s.setRing n r ring with hostMem := (s.enter n r bytes).hostMem } :=
        congrArg (fun t : State => { t with hostMem := (s.enter n r bytes).hostMem }) (setRing_setRing s n r _ ring)
      rw [e, eraise, hset]
      rfl

/-! ### Completions -/

/-- A completion that finds room is written at once, and its command is live no longer (R401). -/
theorem deliverCompletion_of_room {s : State} {n : Fin 16} (w : Waiting) (hroom : s.ringRoom n 1 = true) (hwait : s.host[n].waiting = []) :
    s.deliverCompletion n w =
      (s.modHost n (fun h => { h with live := h.live.filter (fun i => w.inst != some (i.tag, i.epoch)) })).putEntry n 1 w.entry w.intr := by
  have hwaits : (s.modHost n (fun h => { h with waiting := h.waiting ++ [w] })).host[n].waiting = [w] := by
    rw [modHost_self, hwait, List.nil_append]
  have hroom' : (s.modHost n (fun h => { h with waiting := h.waiting ++ [w] })).ringRoom n 1 = true := by
    rw [← hroom, ringRoom, ringRoom, modHost_self]
    rfl
  have hhost : (s.modHost n (fun h => { h with waiting := h.waiting ++ [w] })).modHost n
      (fun h => { h with waiting := [], live := h.live.filter (fun i => w.inst != some (i.tag, i.epoch)) }) =
      s.modHost n (fun h => { h with live := h.live.filter (fun i => w.inst != some (i.tag, i.epoch)) }) := by
    rw [modHost_modHost, modHost, modHost, ← hwait]
  rw [deliverCompletion]
  simp only [hwaits, List.length_singleton, flushWaiting, hroom', if_true, hhost]

/-- The completion entry that a command's completion forms, as it stands in the ring (R397). -/
def completionEntry (s : State) (n : Fin 16) (tag epoch op : Nat) (st : Status) (cond f q d0 d1 : Nat) : List Byte :=
  completionBytes tag op st.code (st.flagged cond) f (epoch + 16 * worseQ q (s.instWorst n tag epoch)) d0 d1 s.now48

/-- The live commands once the completion of one has been formed and posted. -/
def dropInst (tag epoch : Nat) (live : List Inst) : List Inst :=
  (live.map (fun i => if i.tag = tag ∧ i.epoch = epoch then { i with ended := true } else i)).filter (fun i => some (tag, epoch) != some (i.tag, i.epoch))

/-- The machine as a completion's entry is about to be written: its frames have crossed, and the command is live no longer. -/
def released (s : State) (n : Fin 16) (tag epoch : Nat) : State := (s.up 3).modHost n (fun h => { h with live := dropInst tag epoch h.live })

theorem instLive_stile (s : State) (x : Stile) (n : Fin 16) (tag epoch : Nat) :
    ({ s with stile := x } : State).instLive n tag epoch = s.instLive n tag epoch := (rfl)

theorem ringRoom_stile (s : State) (x : Stile) (n : Fin 16) (r : Fin 4) : ({ s with stile := x } : State).ringRoom n r = s.ringRoom n r := (rfl)

theorem modHost_stile_comm (s : State) (x : Stile) (n : Fin 16) (f : HostSess → HostSess) :
    ({ s with stile := x } : State).modHost n f = { s.modHost n f with stile := x } := (rfl)

/-- A change of a session's host side that leaves its rings leaves their room. -/
theorem ringRoom_modHost (s : State) (n : Fin 16) (r : Fin 4) (f : HostSess → HostSess) (h : (f s.host[n]).rings = s.host[n].rings) :
    (s.modHost n f).ringRoom n r = s.ringRoom n r := by
  rw [ringRoom, ringRoom, modHost_self, h]
  rfl

theorem instLive_endInst (s : State) (n : Fin 16) (tag epoch : Nat) : (s.endInst n tag epoch).instLive n tag epoch = s.instLive n tag epoch := by
  simp only [instLive, endInst, modHost_self, List.any_map]
  refine congrArg s.host[n].live.any (funext fun i => ?_)
  simp only [Function.comp_apply]
  split <;> rfl

theorem frames_ringPost (k : Nat) (bytes : List Byte) (intr : Bool) (i : Option (Nat × Nat)) :
    (Packet.msg k (.ringPost 1 bytes intr i)).frames = 3 := by
  have hlen : (padTo 64 bytes).length = 64 := by simp [padTo]; omega
  simp [Packet.frames, Packet.data, hlen, dataMessages, dataFrames]

section Complete

variable {s : State} {n : Fin 16} {tag epoch : Nat}

/-- The completion of a command that has none yet is a message to its completion ring (R397). -/
theorem complete_eq_sendRing (op : Nat) (st : Status) (cond f q d0 d1 : Nat) (hended : s.instEnded n tag epoch = false) :
    s.complete n tag epoch op st cond f q d0 d1 =
      (s.endInst n tag epoch).sendRing n tag epoch (s.completionEntry n tag epoch op st cond f q d0 d1) (s.instIntr n tag epoch) := by
  unfold complete
  rw [hended, if_neg Bool.false_ne_true]
  cases st <;> rfl

/-- A live command whose ring has room is completed at once over a clear Stile (R397, R401). -/
theorem complete_eq (op : Nat) (st : Status) (cond f q d0 d1 : Nat) (hcross : crosses s) (hroom : s.ringRoom n 1 = true)
    (hwait : s.host[n].waiting = []) (hlive : s.instLive n tag epoch = true) (hended : s.instEnded n tag epoch = false) :
    s.complete n tag epoch op st cond f q d0 d1 =
      (s.released n tag epoch).putEntry n 1 (s.completionEntry n tag epoch op st cond f q d0 d1) (s.instIntr n tag epoch) := by
  have hlive' : ((s.endInst n tag epoch).up 3).instLive n tag epoch = true := by rw [up, instLive_stile, instLive_endInst, hlive]
  have hroom' : ((s.endInst n tag epoch).up 3).ringRoom n 1 = true := by rw [up, ringRoom_stile, endInst, ringRoom_modHost _ _ _ _ rfl, hroom]
  have hwait' : ((s.endInst n tag epoch).up 3).host[n].waiting = [] := by
    rw [← hwait, endInst, up, modHost_self]
  have hend : crosses (s.endInst n tag epoch) := hcross
  rw [complete_eq_sendRing op st cond f q d0 d1 hended, sendRing, sendMsg_of_crosses hend, frames_ringPost]
  simp only [deliverMsg, forInst, hlive', if_true]
  rw [deliverCompletion_of_room _ hroom' hwait']
  refine congrArg (fun t : State => t.putEntry n 1 _ _) ?_
  rw [up, endInst, ← modHost_stile_comm, modHost_modHost]
  rfl

/-- A session's host side after a completion of a command: the command is live no longer, and the completion ring is `ring`. -/
def sideAfter (tag epoch : Nat) (ring : Ring) (h : HostSess) : HostSess :=
  { h with live := dropInst tag epoch h.live, rings := h.rings.set 1 ring }

theorem released_host (s : State) (n : Fin 16) (tag epoch : Nat) :
    (s.released n tag epoch).host[n] = { s.host[n] with live := dropInst tag epoch s.host[n].live } := modHost_self _ _ _

theorem instLive_dropInst (tag epoch : Nat) (live : List Inst) : (dropInst tag epoch live).any (fun i => i.tag == tag && i.epoch == epoch) = false := by
  refine List.any_eq_false.mpr (fun i hi => ?_)
  obtain ⟨-, hne⟩ := List.mem_filter.mp hi
  simp only [bne_iff_ne, ne_eq, Option.some.injEq, Prod.mk.injEq] at hne
  simp only [Bool.and_eq_true, beq_iff_eq]
  rintro ⟨rfl, rfl⟩
  exact hne ⟨rfl, rfl⟩

/-- What a completion changes: its entry stands in the ring, the command has left the live ones, and vectors may have been raised. -/
theorem complete_frame (op : Nat) (st : Status) (cond f q d0 d1 : Nat) (hcross : crosses s) (hroom : s.ringRoom n 1 = true)
    (hwait : s.host[n].waiting = []) (hlive : s.instLive n tag epoch = true) (hended : s.instEnded n tag epoch = false) :
    ∃ main irqs ring, ring.used = s.host[n].rings[1].used + 1 ∧
      s.complete n tag epoch op st cond f q d0 d1 = { s with
        regs := { s.regs with main := main }, irqs := irqs, host := (s.modHost n (sideAfter tag epoch ring)).host, stile := framesUp 3 s.stile
        hostMem := memPuts s.hostMem (entryAt n s) (withPhase (s.completionEntry n tag epoch op st cond f q d0 d1) s.host[n].rings[1].phase) } ∧
      regsSame (pbaKeys n) s (s.complete n tag epoch op st cond f q d0 d1) := by
  obtain ⟨main, irqs, ring, hused, e, hregs⟩ := putEntry_frame (s.released n tag epoch) n 1 (s.completionEntry n tag epoch op st cond f q d0 d1)
    (s.instIntr n tag epoch)
  rw [released_host] at hused e
  have haddr : s.ringBase n 1 + s.host[n].rings[1].wr * entrySize 1 = entryAt n s := congrArg (s.ringBase n 1 + ·) (Nat.mul_comm _ _)
  rw [complete_eq op st cond f q d0 d1 hcross hroom hwait hlive hended]
  refine ⟨main, irqs, ring, hused, ?_, regsSame_trans (fun _ _ => ⟨rfl, rfl, rfl, rfl⟩) hregs⟩
  rw [e, ← haddr, setRing, released, modHost_modHost]
  rfl

end Complete

end State

end Sys2Proof.Machine
end

section
/-! Commands of a session's queue: how one begins and completes at once (R392, R397, R401). -/

namespace Sys2Proof.Machine

namespace State

/-! ### The command begins -/

section Begin

variable (s : State) (k : Fin 16) (c : Cmd)

/-- The live commands once `c` has begun under the quality `q`. -/
def markBegun (c : Cmd) (q : Nat) (i : Inst) : Inst := if i.tag = c.tag ∧ i.epoch = c.epoch then { i with began := true, worstQ := q } else i

theorem begin_host : (s.begin_ k c).host[k] = { s.host[k] with queue := s.host[k].queue.drop 1, live := s.host[k].live.map (markBegun c s.quality) } :=
  modHost_self _ _ _

theorem markBegun_tag (q : Nat) (i : Inst) : (markBegun c q i).tag = i.tag := by rw [markBegun]; split <;> rfl
theorem markBegun_epoch (q : Nat) (i : Inst) : (markBegun c q i).epoch = i.epoch := by rw [markBegun]; split <;> rfl
theorem markBegun_ended (q : Nat) (i : Inst) : (markBegun c q i).ended = i.ended := by rw [markBegun]; split <;> rfl

@[simp] theorem instLive_begin (tag epoch : Nat) : (s.begin_ k c).instLive k tag epoch = s.instLive k tag epoch := by
  simp only [instLive, begin_host, List.any_map, Function.comp_def, markBegun_tag, markBegun_epoch]

@[simp] theorem instEnded_begin (tag epoch : Nat) : (s.begin_ k c).instEnded k tag epoch = s.instEnded k tag epoch := by
  simp only [instEnded, begin_host, List.any_map, Function.comp_def, markBegun_tag, markBegun_epoch, markBegun_ended]

/-- A command that begins has met the present quality of the time base alone (R397). -/
theorem instWorst_begin (h : s.instLive k c.tag c.epoch = true) : (s.begin_ k c).instWorst k c.tag c.epoch = s.quality := by
  obtain ⟨i, hfind⟩ := Option.isSome_iff_exists.mp
    ((List.find?_isSome (p := fun i : Inst => i.tag == c.tag && i.epoch == c.epoch)).mpr (List.any_eq_true.mp h))
  have hi := List.find?_some hfind
  simp only [Bool.and_eq_true, beq_iff_eq] at hi
  simp only [instWorst, begin_host, List.find?_map, Function.comp_def, markBegun_tag, markBegun_epoch, hfind, Option.map_some, Option.getD_some]
  rw [markBegun, if_pos hi]

end Begin

/-- The command at the head of a session that is ready runs. -/
theorem runCmd_of_headReady {s : State} {k : Fin 16} {c : Cmd} {rest : List Cmd} {op : Nat} (f : Cmd → State → State)
    (h : headReady k c rest s) (hop : cmdOp c.bytes = op) : s.runCmd k op f = f c (s.begin_ k c) := by
  obtain ⟨hqueue, hcross, hheld, hmid, hmay, -⟩ := h
  have hturn : s.turn k op = some c := by simp only [turn, hqueue, hop, linked_of_crosses hcross, hheld, hmid, and_self, if_true]
  simp only [runCmd, hturn, hmay, if_true]

/-! ### The command completes at once -/

/-- The keys are of no register that a completion, the Stile or the time base's quality is read from. -/
def Aside (ks : List Nat) : Prop := ∀ j ∈ ks, j < 2 ^ 28 ∧ j ≠ Reg.key .ST_STATUS [] ∧ j ≠ Reg.key .TB_STATUS []

/-- The machine `s'` as the command `c` has done its work: beside its beginning, nothing has changed that its completion rests on. -/
structure Worked (k : Fin 16) (c : Cmd) (ks : List Nat) (s s' : State) : Prop where
  host : s'.host = (s.begin_ k c).host
  tb : s'.tb = s.tb
  cross : crosses s'
  regs : regsSame ks s s'
  aside : Aside ks

theorem quality_lt (s : State) : s.quality < 4 := by
  unfold quality qualityCode
  split <;> decide

section Worked

variable {k : Fin 16} {c : Cmd} {rest : List Cmd} {ks : List Nat} {s s' : State}

theorem get_of_regsSame (h : regsSame ks s s') (f : Fld) (ix : List Nat) (hf : f.reg.key ix ∉ ks) : s'.get f ix = s.get f ix := by
  obtain ⟨hget, -⟩ := h _ hf
  rw [get, get, hget]

/-- A register from the host side's own registers up reads as before. -/
theorem Worked.get_ring (h : Worked k c ks s s') (f : Fld) (ix : List Nat) (hf : 2 ^ 28 ≤ f.reg.row.base) : s'.get f ix = s.get f ix := by
  refine get_of_regsSame h.regs f ix (fun hmem => ?_)
  obtain ⟨hlt, -⟩ := h.aside _ hmem
  have hge := key_ge_base f.reg ix
  omega

theorem Worked.quality (h : Worked k c ks s s') : s'.quality = s.quality := by
  have hget : s'.get F.TB_STATUS_STATE = s.get F.TB_STATUS_STATE := get_of_regsSame h.regs _ _ (fun hmem => (h.aside _ hmem).2.2 rfl)
  rw [State.quality, State.quality, hget]

theorem Worked.session (h : Worked k c ks s s') : s'.host[k] = { s.host[k] with
    queue := s.host[k].queue.drop 1, live := s.host[k].live.map (markBegun c s.quality) } := by
  rw [h.host, begin_host]

theorem Worked.rings (h : Worked k c ks s s') : s'.host[k].rings = s.host[k].rings := by rw [h.session]

theorem Worked.entryAt (h : Worked k c ks s s') : entryAt k s' = entryAt k s := by
  simp only [Machine.entryAt, ringBase, pair, h.rings, h.get_ring F.RING_BASE_LO_BASE _ (by decide), h.get_ring F.RING_BASE_HI_BASE _ (by decide)]

theorem Worked.ringRoom (h : Worked k c ks s s') : s'.ringRoom k 1 = s.ringRoom k 1 := by
  have hon : s'.ringOn k 1 = s.ringOn k 1 := by rw [ringOn, ringOn, h.get_ring F.RING_CTL_ENABLE _ (by decide)]
  have hentries : s'.ringEntries k 1 = s.ringEntries k 1 := h.get_ring F.RING_ENTRIES_ENTRIES _ (by decide)
  rw [State.ringRoom, State.ringRoom, hon, hentries, h.rings]

theorem Worked.instLive (h : Worked k c ks s s') (tag epoch : Nat) : s'.instLive k tag epoch = s.instLive k tag epoch := by
  rw [← instLive_begin s k c, State.instLive, h.host]
  rfl

theorem Worked.instEnded (h : Worked k c ks s s') (tag epoch : Nat) : s'.instEnded k tag epoch = s.instEnded k tag epoch := by
  rw [← instEnded_begin s k c, State.instEnded, h.host]
  rfl

theorem Worked.instWorst (h : Worked k c ks s s') (hlive : s.instLive k c.tag c.epoch = true) : s'.instWorst k c.tag c.epoch = s.quality := by
  rw [← instWorst_begin s k c hlive, State.instWorst, h.host]
  rfl

theorem Worked.now48 (h : Worked k c ks s s') : s'.now48 = s.now48 := by
  rw [State.now48, State.now48, now, now, h.tb]

/-- The entry that completes the command `c` in the machine `s`. -/
def entryFor (s : State) (k : Fin 16) (c : Cmd) (st : Status) (cond d0 d1 : Nat) : List Byte :=
  withPhase (completionBytes c.tag (cmdOp c.bytes) st.code (st.flagged cond) 0 (c.epoch + 16 * s.quality) d0 d1 s.now48) s.host[k].rings[1].phase

/-- The fields of that entry (R397). -/
theorem entryFor_fields (s : State) (k : Fin 16) (st : Status) {cond d0 d1 : Nat} (htag : c.tag < 65536) (hepoch : c.epoch < 16)
    (hop : cmdOp c.bytes < 256) (hcond : st.flagged cond < 65536) (hd0 : d0 < 2 ^ 64) (hd1 : d1 < 2 ^ 64) :
    let b := s.entryFor k c st cond d0 d1
    b.length = 32 ∧ fieldAt b 0 2 = c.tag ∧ fieldAt b 2 1 = cmdOp c.bytes ∧ fieldAt b 3 1 = st.code ∧ fieldAt b 4 2 = st.flagged cond ∧
      fieldAt b 7 1 = c.epoch + 16 * s.quality ∧ fieldAt b 8 8 = d0 ∧ fieldAt b 16 8 = d1 ∧ fieldAt b 24 6 = s.now48 ∧
      fieldAt b 30 2 = 2 ^ 15 * s.host[k].rings[1].phase.toNat := by
  obtain ⟨hlen, b0, b2, b3, b4, b7, b8, b16, b24, b30⟩ := completionBytes_fields c.tag (cmdOp c.bytes) st.code (st.flagged cond) 0
    (c.epoch + 16 * s.quality) d0 d1 s.now48 s.host[k].rings[1].phase
  have hcode : st.code < 256 := by cases st <;> decide
  have hbyte : c.epoch + 16 * s.quality < 256 := by
    have hlt := s.quality_lt
    omega
  exact ⟨hlen, b0.trans (Nat.mod_eq_of_lt htag), b2.trans (Nat.mod_eq_of_lt hop), b3.trans (Nat.mod_eq_of_lt hcode), b4.trans (Nat.mod_eq_of_lt hcond),
    b7.trans (Nat.mod_eq_of_lt hbyte), b8.trans (Nat.mod_eq_of_lt hd0), b16.trans (Nat.mod_eq_of_lt hd1), b24.trans (Nat.mod_mod _ _), b30⟩

/-- A command that completes at once: its entry is the next of the completion ring, and nothing else of host memory and of the machine changes but
the session's indices, and the vectors. -/
theorem Worked.finish_eq (h : Worked k c ks s s') (hready : headReady k c rest s) (st : Status) (cond d0 d1 : Nat) :
    ∃ main irqs ring, ring.used = s.host[k].rings[1].used + 1 ∧
      s'.finish k c st cond d0 d1 = { s' with
        regs := { s'.regs with main := main }, irqs := irqs, host := (s'.modHost k (sideAfter c.tag c.epoch ring)).host
        stile := framesUp 3 s'.stile, hostMem := memPuts s'.hostMem (Machine.entryAt k s) (s.entryFor k c st cond d0 d1) } ∧
      regsSame (pbaKeys k) s' (s'.finish k c st cond d0 d1) := by
  obtain ⟨-, -, -, -, hmay, hlive, hended, -⟩ := hready
  obtain ⟨⟨hroom, hwait⟩, -⟩ : (s.ringRoom k 1 = true ∧ s.host[k].waiting.isEmpty = true) ∧ _ := by
    simpa only [mayBegin, Bool.and_eq_true] using hmay
  have hwait' : s'.host[k].waiting = [] := by rw [h.session]; exact List.isEmpty_iff.mp hwait
  obtain ⟨main, irqs, ring, hused, e, hregs⟩ := complete_frame (s := s') (cmdOp c.bytes) st cond 0 s'.quality d0 d1 h.cross (h.ringRoom.trans hroom)
    hwait' ((h.instLive _ _).trans hlive) ((h.instEnded _ _).trans hended)
  rw [completionEntry, h.rings, h.entryAt, h.quality, h.instWorst hlive, worseQ, Nat.max_self, h.now48] at e
  rw [h.rings] at hused
  exact ⟨main, irqs, ring, hused, by rw [State.finish, h.quality]; exact e, hregs⟩

/-- The completion of a command that completes at once (R397), and what it leaves alone. -/
theorem Worked.finish (h : Worked k c ks s s') (hready : headReady k c rest s) (st : Status) (cond d0 d1 : Nat) (hop : cmdOp c.bytes < 256)
    (hcond : st.flagged cond < 65536) (hd0 : d0 < 2 ^ 64) (hd1 : d1 < 2 ^ 64) :
    let t := s'.finish k c st cond d0 d1
    completed k c st (st.flagged cond) d0 d1 s t ∧ ringFrame k rest ks s t ∧ bytesKept s'.hostMem t.hostMem (Machine.entryAt k s) 32 ∧
      regsSame (pbaKeys k) s' t ∧ t = { s' with regs := t.regs, host := t.host, hostMem := t.hostMem, irqs := t.irqs, stile := framesUp 3 s'.stile } := by
  obtain ⟨main, irqs, ring, hused, e, hregs⟩ := h.finish_eq hready st cond d0 d1
  obtain ⟨hqueue, -, -, -, -, -, -, htag, hepoch⟩ := hready
  intro t
  have ht : t = _ := e
  have hhost : t.host = (s'.modHost k (sideAfter c.tag c.epoch ring)).host := by rw [ht]
  have hmem : t.hostMem = memPuts s'.hostMem (Machine.entryAt k s) (s.entryFor k c st cond d0 d1) := by rw [ht]
  have hsession : t.host[k] = sideAfter c.tag c.epoch ring s'.host[k] := by rw [hhost, modHost_self]
  obtain ⟨hlen, b0, b2, b3, b4, b7, b8, b16, b24, b30⟩ := entryFor_fields s k st htag hepoch hop hcond hd0 hd1
  have hfield (off m : Nat) : entryField k s t off m = fieldAt (s.entryFor k c st cond d0 d1) off m := by
    rw [entryField, hmem, memBytes_puts _ _ _ hlen]
  refine ⟨⟨(hfield _ _).trans b0, (hfield _ _).trans b2, (hfield _ _).trans b3, (hfield _ _).trans b4, (hfield _ _).trans b7, (hfield _ _).trans b8,
    (hfield _ _).trans b16, (hfield _ _).trans b24, (hfield _ _).trans b30, ?_, ?_⟩, ⟨?_, ?_, ?_⟩, ?_, hregs, ?_⟩
  · rw [State.instLive, hsession]
    exact instLive_dropInst _ _ _
  · rw [hsession, ← hused]
    exact congrArg Ring.used (Vector.getElem_set_self _)
  · rw [hsession, sideAfter, h.session, hqueue]
    rfl
  · intro j hj
    rw [hhost, modHost_ne _ _ _ _ (Ne.symm hj), h.host]
    exact modHost_ne _ _ _ _ (Ne.symm hj)
  · exact regsSame_trans (regsSame_mono h.regs (by simp +contextual)) (regsSame_mono hregs (by simp +contextual))
  · rw [hmem]
    exact fun b hb => memByte_puts_out _ _ _ _ (by rwa [hlen])
  · rw [ht]

end Worked

end State

end Sys2Proof.Machine
end

section
/-! REG_WRITE and REG_READ of one register (R394, R395). -/

namespace Sys2Proof.Machine

namespace State

/-! ### Registers that a session owns -/

theorem own_of_ownsReg {s : State} {k : Fin 16} {r : Reg} {ix : List Nat} (h : s.ownsReg k r ix = true) : r.row.own ≠ .device ∧ r.row.own ≠ .page := by
  constructor <;> (intro hown; simp [ownsReg, hown] at h)

/-- The registers of the timing sets lie 2^20 apart (R96). -/
theorem regKey_lt {s : State} {off : Nat} (h : off < 2 ^ 20) : s.regKey off < 2 ^ 28 := by
  have hset (n : Nat) : s.get F.EP_TS_SEL_TS [n] < 2 ^ 5 := Nat.mod_lt _ (by decide)
  unfold regKey
  simp only
  split
  · split
    · have hn := hset ((off - 0x20000) / 0x2000)
      omega
    · omega
  · omega

/-- A register of the map that a session owns is neither of the Stile's nor of the time base's. -/
theorem aside_of_owned {s : State} {k : Fin 16} {off : Nat} {r : Reg} {ix : List Nat} (hoff : off < 2 ^ 20)
    (hreg : regAt (s.regKey off) = some (r, ix)) (hown : s.ownsReg k r ix = true) : Aside [s.regKey off] := by
  obtain ⟨hdevice, -⟩ := own_of_ownsReg hown
  have hstile : regAt (Reg.key .ST_STATUS []) = some (.ST_STATUS, []) := by decide +kernel
  have htime : regAt (Reg.key .TB_STATUS []) = some (.TB_STATUS, []) := by decide +kernel
  intro j hj
  obtain rfl := List.mem_singleton.mp hj
  refine ⟨regKey_lt hoff, fun hkey => ?_, fun hkey => ?_⟩
  · rw [hkey, hstile] at hreg
    cases hreg
    exact hdevice rfl
  · rw [hkey, htime] at hreg
    cases hreg
    exact hdevice rfl

/-! ### The list of one pair -/

section OnePair

variable {s : State} {k : Fin 16} {r : Reg} {ix : List Nat} {data : List Byte}

theorem listPairs_one (data : List Byte) : listPairs (padTo (8 * 1) data) 1 = [(fieldAt data 0 4, fieldAt data 4 4)] := by
  simp only [listPairs, List.range_one, List.map_cons, List.map_nil, Nat.mul_zero, Nat.zero_add]
  rw [fieldAt_padTo _ (by decide), fieldAt_padTo _ (by decide)]

/-- A pair that names a register of the session is not refused. -/
theorem pairsFail_one {off : Nat} (halign : off % 4 = 0) (hoff : off < 2 ^ 20) (hreg : regAt (s.regKey off) = some (r, ix))
    (hown : s.ownsReg k r ix = true) : s.pairsFail k [off] = none := by
  have hpair : s.pairReg off = some (r, ix) := by rw [pairReg, if_pos ⟨halign, hoff⟩, hreg]
  simp [pairsFail, hpair, hown]

/-- The write of a pair that names a plain register. -/
theorem writeList_one {off : Nat} (v : Nat) (hreg : regAt (s.regKey off) = some (r, ix)) (hp : r.row.pair = .no) (ha : r.acts = false) :
    s.writeList [(off, v)] = s.plainWrite (s.regKey off) (BitVec.ofNat 32 v) := by
  have hthrough : writeThrough [] (s.regKey off) (BitVec.ofNat 32 v) = ([], [(s.regKey off, BitVec.ofNat 32 v)]) := by
    simp only [writeThrough, pairOf, hreg, hp]
  rw [← regWrite_of_not_acts _ hreg ha, writeList, List.foldl_cons]
  simp only [hthrough, List.foldl_cons, List.foldl_nil]

/-- The read of a pair that names a plain register goes to the pair's second word. -/
theorem readList_one {off : Nat} (addr : Nat) (inst : Option (Nat × Nat)) (hreg : regAt (s.regKey off) = some (r, ix)) (hp : r.row.pair = .no)
    (ha : r.readActs = false) :
    s.readList k addr inst [off] = (s.clearRc (s.regKey off)).hostWrite k (addr + 4) (leBytes 4 (s.regValue (s.regKey off)).toNat) inst := by
  rw [readList, List.foldl_cons]
  simp only [readThrough_plain [] hreg hp ha (by simp), List.foldl_nil]

end OnePair

/-! ### Writes of host memory -/

theorem frames_hostWr {n : Nat} {a : Nat} {bs : List Byte} {inst : Option (Nat × Nat)} (h : bs.length = 4) :
    (Packet.msg n (.hostWr a bs inst)).frames = 2 := by
  simp [Packet.frames, Packet.data, h, dataMessages, dataFrames]

/-- Four bytes for a live command reach host memory over a clear Stile. -/
theorem hostWrite_of_crosses {s : State} {n : Fin 16} {a tag epoch : Nat} {bs : List Byte} (h : crosses s) (hlen : bs.length = 4)
    (hlive : s.instLive n tag epoch = true) :
    s.hostWrite n a bs (some (tag, epoch)) = { s with stile := framesUp 2 s.stile, hostMem := memPuts s.hostMem a bs } := by
  have hlive' : (s.up 2).instLive n tag epoch = true := (instLive_stile s _ n tag epoch).trans hlive
  rw [hostWrite, sendMsg_of_crosses h, frames_hostWr hlen]
  simp only [deliverMsg, forInst, hlive', if_true]

/-- What crosses the Stile still crosses it where its link, its replays and the injections are as they were. -/
theorem crosses_of_same {s s' : State} {ks : List Nat} (h : crosses s) (hregs : regsSame ks s s') (hks : Aside ks)
    (hclear : s'.stile.clear = s.stile.clear) (hlost : s'.stile.lost = s.stile.lost) (hflt : s'.flt = s.flt) : crosses s' := by
  have hfield : s'.get F.ST_STATUS_FIELD = s.get F.ST_STATUS_FIELD := get_of_regsSame hregs _ _ (fun hmem => (hks _ hmem).2.1 rfl)
  simpa only [crosses, fieldUp, linked, injOn, hfield, hclear, hlost, hflt] using h

section Access

variable {s : State} {k : Fin 16} {c : Cmd} {rest : List Cmd} {data : List Byte} {r : Reg} {ix : List Nat}

/-- The register that the only pair of a list names. -/
abbrev pairKey (s : State) (data : List Byte) : Nat := s.regKey (fieldAt data 0 4)

theorem exec_regWrite_one (hready : headReady k c rest s) (hop : cmdOp c.bytes = 1) (hparam : cmdParam c.bytes = 1)
    (halign : fieldAt data 0 4 % 4 = 0) (hoff : fieldAt data 0 4 < 2 ^ 20) (hreg : regAt (s.pairKey data) = some (r, ix))
    (hown : s.ownsReg k r ix = true) (hp : r.row.pair = .no) (ha : r.acts = false) :
    exec (.regWrite k data) s =
      .next (((s.begin_ k c).plainWrite (s.pairKey data) (BitVec.ofNat 32 (fieldAt data 4 4))).finish k c .ok 0 0 0) := by
  have hfail : (s.begin_ k c).pairsFail k [fieldAt data 0 4] = none := pairsFail_one halign hoff hreg hown
  have hwrite := writeList_one (s := s.begin_ k c) (fieldAt data 4 4) hreg hp ha
  simp only [exec, execRegWrite, runCmd_of_headReady _ hready hop, hparam, listPairs_one, List.map_cons, List.map_nil, hfail, hwrite]
  rfl

theorem exec_regRead_one (hready : headReady k c rest s) (hop : cmdOp c.bytes = 2) (hparam : cmdParam c.bytes = 1)
    (halign : fieldAt data 0 4 % 4 = 0) (hoff : fieldAt data 0 4 < 2 ^ 20) (hreg : regAt (s.pairKey data) = some (r, ix))
    (hown : s.ownsReg k r ix = true) (hp : r.row.pair = .no) (ha : r.readActs = false) :
    exec (.regRead k data) s = .next ((((s.begin_ k c).clearRc (s.pairKey data)).hostWrite k (cmdAddr c.bytes + 4)
      (leBytes 4 (s.regValue (s.pairKey data)).toNat) (some (c.tag, c.epoch))).finish k c .ok 0 0 0) := by
  obtain ⟨-, hpage⟩ := own_of_ownsReg hown
  have hfail : (s.begin_ k c).pairsFail k [fieldAt data 0 4] = none := pairsFail_one halign hoff hreg hown
  have hread := readList_one (s := s.begin_ k c) (k := k) (cmdAddr c.bytes) (some (c.tag, c.epoch)) hreg hp ha
  have hvalue : (s.begin_ k c).regValue (s.pairKey data) = s.regValue (s.pairKey data) := regValue_host _ hreg hpage
  rw [show (s.begin_ k c).regKey (fieldAt data 0 4) = s.pairKey data from rfl, hvalue] at hread
  simp only [exec, execRegRead, runCmd_of_headReady _ hready hop, hparam, listPairs_one, List.map_cons, List.map_nil, hfail, hread]

/-- A plain write of a register of the session leaves the machine fit for the command's completion. -/
theorem worked_plainWrite {off : Nat} (v : Word) (hcross : crosses s) (hoff : off < 2 ^ 20) (hreg : regAt (s.regKey off) = some (r, ix))
    (hown : s.ownsReg k r ix = true) : Worked k c [s.regKey off] s ((s.begin_ k c).plainWrite (s.regKey off) v) := by
  have haside := aside_of_owned hoff hreg hown
  have hregs : regsSame [s.regKey off] s ((s.begin_ k c).plainWrite (s.regKey off) v) :=
    regsSame_plainWrite _ _ (by simp) (regsSame_other (regsSame_refl _ s) rfl)
  obtain ⟨_, _, e⟩ := plainWrite_frame (s.begin_ k c) (s.regKey off) v
  have hhost : ((s.begin_ k c).plainWrite (s.regKey off) v).host = (s.begin_ k c).host := by rw [e]
  refine ⟨hhost, ?_, crosses_of_same hcross hregs haside ?_ ?_ ?_, hregs, haside⟩ <;> (rw [e]; rfl)

/-- So does the read of a register without RC fields, with its value on the way to host memory. -/
theorem worked_hostWrite {key : Nat} {bs : List Byte} {a : Nat} (hcross : crosses s) (hlive : s.instLive k c.tag c.epoch = true)
    (hlen : bs.length = 4) (hreg : regAt key = some (r, ix)) (hrc : ∀ f ∈ r.row.fields, f.acc ≠ .rc) :
    let s' := ((s.begin_ k c).clearRc key).hostWrite k a bs (some (c.tag, c.epoch))
    Worked k c [] s s' ∧ s'.hostMem = memPuts s.hostMem a bs ∧
      s' = { s with regs := s'.regs, host := s'.host, hostMem := s'.hostMem, stile := framesUp 2 s.stile } := by
  intro s'
  have haside : Aside [] := by simp [Aside]
  have hclear : regsSame [] s ((s.begin_ k c).clearRc key) := regsSame_clearRc_of_no_rc hreg hrc (regsSame_other (regsSame_refl _ s) rfl)
  obtain ⟨main, e⟩ := clearRc_frame (s.begin_ k c) key
  have hcross' : crosses ((s.begin_ k c).clearRc key) := by
    refine crosses_of_same hcross hclear haside ?_ ?_ ?_ <;> (rw [e]; rfl)
  have hlive' : ((s.begin_ k c).clearRc key).instLive k c.tag c.epoch = true := by
    rw [e, ← hlive, ← instLive_begin s k c]
    rfl
  have hs' : s' = _ := hostWrite_of_crosses (a := a) hcross' hlen hlive'
  have hregs : regsSame [] s s' := regsSame_other hclear (by rw [hs'])
  refine ⟨⟨?_, ?_, ?_, hregs, haside⟩, ?_, ?_⟩
  · rw [hs', e]
  · rw [hs', e]; rfl
  · refine crosses_of_same hcross hregs haside ?_ ?_ ?_ <;> (rw [hs', e]; rfl)
  · rw [hs', e]; rfl
  · rw [hs', e]; rfl

end Access

end State

open State

/-- Settles O23: the command is a plain access of the register between its beginning and its completion. -/
theorem aSessionReachesItsRegisters : Obligations.ASessionReachesItsRegisters := by
  unfold Obligations.ASessionReachesItsRegisters
  refine ⟨fun k c rest data r ix s hready hop hparam halign hoff hreg hown hpair hacts => ?_,
    fun k c rest data r ix s hready hop hparam halign hoff hreg hown hpair hacts hrc hapart => ?_⟩
  · obtain ⟨-, hcross, -⟩ := id hready
    have hworked := worked_plainWrite (c := c) (BitVec.ofNat 32 (fieldAt data 4 4)) hcross hoff hreg hown
    obtain ⟨main, shadow, e⟩ := plainWrite_frame (s.begin_ k c) (s.pairKey data) (BitVec.ofNat 32 (fieldAt data 4 4))
    obtain ⟨hdone, hring, hkept, hregs, ht⟩ := hworked.finish hready .ok 0 0 0 (by omega) (by decide) (by decide) (by decide)
    have hlow : s.pairKey data < 2 ^ 28 := regKey_lt hoff
    have hpba : s.pairKey data ∉ pbaKeys k := by
      have h0 : 2 ^ 28 ≤ Reg.MSIX_PBA.row.base := by decide
      have h1 := key_ge_base .MSIX_PBA [k, 0]
      have h2 := key_ge_base .MSIX_PBA [k, 1]
      simp only [List.mem_cons, List.not_mem_nil, or_false, not_or]
      omega
    obtain ⟨hget, hshadow, hactive, -⟩ := hregs _ hpba
    refine ⟨_, exec_regWrite_one hready hop hparam halign hoff hreg hown hpair hacts, hdone, hring, ?_, fun f hf => ?_, ?_, ?_⟩
    · rw [e] at hkept ⊢
      exact hkept
    · obtain ⟨hfit, -⟩ := r.fields_fit f hf
      refine ⟨fun ha => ?_, fun ha hr => ?_⟩
      · rw [hget]
        exact (plainWrite_rw _ hreg hf ha).trans (bitsOf_word _ _ _ hfit)
      · rw [hshadow]
        exact (plainWrite_rws _ hreg hf ha hr).trans (bitsOf_word _ _ _ hfit)
    · rw [hactive, plainWrite_activeK]
      rfl
    · refine ht.trans ?_
      rw [e]
      rfl
  · obtain ⟨-, hcross, -, -, -, hlive, -⟩ := id hready
    obtain ⟨hworked, hmem, hs'⟩ := worked_hostWrite (a := cmdAddr c.bytes + 4) (bs := leBytes 4 (s.regValue (s.pairKey data)).toNat) hcross hlive
      (length_leBytes _ _) hreg hrc
    obtain ⟨hdone, hring, hkept, -, ht⟩ := hworked.finish hready .ok 0 0 0 (by omega) (by decide) (by decide) (by decide)
    refine ⟨_, exec_regRead_one hready hop hparam halign hoff hreg hown hpair hacts, hdone, hring, ?_, fun a ha hentry => ?_, ?_⟩
    · have hbytes := memBytes_puts s.hostMem (cmdAddr c.bytes + 4) _ (length_leBytes 4 (s.regValue (s.pairKey data)).toNat)
      have hlt := (s.regValue (s.pairKey data)).isLt
      rw [memBytes_congr (fun i hi => hkept (cmdAddr c.bytes + 4 + i) (by omega)), hmem, hbytes, fieldAt, List.drop_zero,
        List.take_of_length_le (length_leBytes _ _).le, leVal_leBytes]
      exact Nat.mod_eq_of_lt hlt
    · rw [hkept a hentry, hmem]
      exact memByte_puts_out _ _ _ _ (by rw [length_leBytes]; omega)
    · refine ht.trans ?_
      rw [hs']

end Sys2Proof.Machine
end

section
/-! Reads of RWS fields: what a read-only field shows stands beside them, and no latch of R13 is in the way (R13, R37). -/

namespace Sys2Proof.Machine

namespace State

/-! ### Fields that show a state held elsewhere -/

/-- A place within a register where a field of the map lies that is not RWS. -/
def beside (r : Reg) (l w : Nat) : Bool := r.row.fields.any (fun g => g.lsb == l && g.width == w && g.acc != .rws)

/-- What a register shows of a state held elsewhere stands in fields of its own that are not RWS. -/
theorem liveFields_beside (s : State) (r : Reg) (ix : List Nat) : ∀ p ∈ s.liveFields r ix, beside r p.1.lsb p.1.width = true := by
  refine List.all_eq_true.mp ?_
  cases r
  case EP_SEG_STATUS | AO_SEG_STATUS => simp only [liveFields, segStatus]; split <;> rfl
  case HI_LINK | RING_HELD => simp only [liveFields]; split <;> rfl
  all_goals rfl

/-- Two fields share no bit. -/
def Apart (f g : FieldRow) : Prop := f.lsb + f.width ≤ g.lsb ∨ g.lsb + g.width ≤ f.lsb

/-- An RWS field lies apart from every field that is not RWS. -/
theorem apart_of_beside {r : Reg} {f : FieldRow} (hf : f ∈ r.row.fields) (ha : f.acc = .rws) {l w : Nat} (h : beside r l w = true) :
    f.lsb + f.width ≤ l ∨ l + w ≤ f.lsb := by
  obtain ⟨g, hg, hp⟩ := List.any_eq_true.mp h
  simp only [Bool.and_eq_true, beq_iff_eq, bne_iff_ne] at hp
  obtain ⟨⟨rfl, rfl⟩, hacc⟩ := hp
  have hne : f ≠ g := fun e => hacc (e ▸ ha)
  have : Std.Symm Apart := ⟨fun _ _ h => h.symm⟩
  exact (r.fields_apart.imp (S := Apart) Or.inl).forall hf hg hne

/-- Fields put over a word leave a field that lies apart from them. -/
theorem bitsOf_putAll (l : List (Fld × Nat)) (v lsb w : Nat) (h : ∀ p ∈ l, lsb + w ≤ p.1.lsb ∨ p.1.lsb + p.1.width ≤ lsb) :
    bitsOf (l.foldl (fun v (p : Fld × Nat) => putBits v p.1.lsb p.1.width p.2) v) lsb w = bitsOf v lsb w := by
  induction l generalizing v with
  | nil => rfl
  | cons p t ih =>
    rw [List.foldl_cons, ih _ (fun q hq => h q (by simp [hq]))]
    rcases h p (by simp) with hb | ha
    · exact bitsOf_putBits_below _ _ _ _ _ _ hb
    · exact bitsOf_putBits_above _ _ _ _ _ _ ha

/-! ### The value and the effect of the read -/

section ReadRws

variable {s : State} {k : Nat} {r : Reg} {ix : List Nat} {f : FieldRow}

/-- The copy that VIEW selects (R37). -/
def viewedK (s : State) (k : Nat) : Word := if s.get F.SYS_COMMIT_INFO_VIEW = 1 then s.activeK k else s.shadowK k

/-- A register's value holds in an RWS field the copy that VIEW selects (R37). -/
theorem regValue_rws (h : regAt k = some (r, ix)) (hf : f ∈ r.row.fields) (ha : f.acc = .rws) : fieldSame f (s.regValue k) (s.viewedK k) := by
  have hsum : (r.row.fields.map (s.fieldShown k)).sum = fieldSum r.row.fields (fun g => s.fieldShown k g / 2 ^ g.lsb) :=
    congrArg List.sum (List.map_congr_left (fun g _ => (Nat.div_mul_cancel (Nat.dvd_mul_left _ _)).symm))
  have hshown (g : FieldRow) : s.fieldShown k g / 2 ^ g.lsb < 2 ^ g.width := by
    rw [fieldShown, Nat.mul_div_cancel _ (by positivity)]
    exact Nat.mod_lt _ (by positivity)
  rw [fieldSame, regValue, h]
  simp only
  rw [fieldSame_word hf, bitsOf_putAll _ _ _ _ (fun p hp => apart_of_beside hf ha (liveFields_beside s r ix p hp)), hsum,
    bitsOf_fieldSum _ _ r.fields_apart (fun g _ => hshown g) f hf, fieldShown, Nat.mul_div_cancel _ (by positivity), ha]
  rfl

/-- No register with an RWS field has a read that acts. -/
theorem not_readActs_of_rws (hf : f ∈ r.row.fields) (ha : f.acc = .rws) : r.readActs = false := by
  have hall : (∀ f ∈ r.row.fields, f.acc ≠ .rws) ∨ r.readActs = false := by cases r <;> decide
  exact hall.resolve_left (fun h => h f hf ha)

/-- SYS_COMMIT_WHERE, whose read latches the two registers behind it (R489), has no RWS field. -/
theorem ne_commitWhere_of_rws (h : regAt k = some (r, ix)) (hf : f ∈ r.row.fields) (ha : f.acc = .rws) : k ≠ 0x4C := by
  rintro rfl
  have hwhere : regAt 0x4C = some (.SYS_COMMIT_WHERE, []) := by decide +kernel
  rw [hwhere] at h
  cases h
  exact absurd ha ((by decide : ∀ f ∈ Reg.SYS_COMMIT_WHERE.row.fields, f.acc ≠ .rws) f hf)

/-- Where no latch stands for a register, BAR0 reads its value, whichever half of a pair it is. -/
theorem bar0Value_unlatched (h : regAt k = some (r, ix)) (ha : r.readActs = false) (hk : k ≠ 0x4C) (hl : ∀ p ∈ s.regs.pairLatch, p.1 ≠ k) :
    ∃ lat, s.bar0Value k = ((linkSeen s).regValue k, ((linkSeen s).clearRc k).keepLatch lat) := by
  have hno : latchGet s.regs.pairLatch k = none := by simpa [latchGet] using hl
  have hread : ∃ lat, (linkSeen s).readThrough s.regs.pairLatch k = ((linkSeen s).regValue k, lat, (linkSeen s).clearRc k) := by
    rw [readThrough, readLive_of_not_readActs h ha, readEffect_of_not_readActs h ha]
    split
    · exact ⟨_, rfl⟩
    · rw [hno]
      exact ⟨_, rfl⟩
  obtain ⟨lat, hlat⟩ := hread
  exact ⟨lat, bar0Value_eq hk hlat⟩

end ReadRws

end State

open State

/-- Settles O10: the F-die forms the same value behind the Stile, and neither a read-only field nor a latch stands in an RWS field's place. -/
theorem aReadShowsTheViewedCopy : Obligations.AReadShowsTheViewedCopy := by
  unfold Obligations.AReadShowsTheViewedCopy
  intro off r ix f s halign hcross hreg hf hacc hlatch
  have hshown : fieldSame f (s.hostRead off).lastRead (s.viewedK (s.regKey off)) := by
    have hact := not_readActs_of_rws hf hacc
    have hk := ne_commitWhere_of_rws hreg hf hacc
    cases hoff : keyOnHost off
    · obtain ⟨lat, hv⟩ := bar0Value_unlatched (s := s.down 1) hreg hact hk hlatch
      rw [hostRead_of_clearRc hoff (hcross.resolve_left (by simp [hoff])) hv]
      exact regValue_rws (s := linkSeen (s.down 1)) hreg hf hacc
    · obtain ⟨lat, hv⟩ := bar0Value_unlatched (s := s) hreg hact hk hlatch
      rw [hostRead, hoff, if_pos rfl, bar0Read, hv]
      exact regValue_rws (s := linkSeen s) hreg hf hacc
  refine ⟨s.hostRead off, exec_rcFieldRead s off halign, fun hview => ?_, fun hview => ?_⟩
  · rwa [viewedK, if_neg (by omega)] at hshown
  · rwa [viewedK, if_pos hview] at hshown

end Sys2Proof.Machine
end

section
/-! A commit of one trigger unit that passes its checks: its values, its copy step and its report (R38, R41, R42, R46, R399). -/

namespace Sys2Proof.Machine

/-! ### The registers of the trigger units -/

theorem find?_of_regAt {k : Nat} {r : Reg} {ix : List Nat} (h : regAt k = some (r, ix)) : r.find? k = some ix := by
  obtain ⟨r', -, hr'⟩ := List.exists_of_findSome?_eq_some h
  simp only [Option.map_eq_some_iff, Prod.mk.injEq] at hr'
  obtain ⟨_, hfind, rfl, rfl⟩ := hr'
  exact hfind

/-- A key lies within the span of its row's first index. -/
theorem Reg.find?_range {r : Reg} {k stride count : Nat} {ix : List Nat} {rest : List (Nat × Nat)} (hd : r.row.dims = (stride, count) :: rest)
    (hs : 0 < stride) (h : r.find? k = some ix) : r.row.base ≤ k ∧ k < r.row.base + stride * count := by
  rw [Reg.find?, hd] at h
  split at h
  · cases h
  · rw [rowIndex] at h
    split at h
    · next hlt =>
      have : k - r.row.base < stride * count := Nat.mul_comm count stride ▸ (Nat.div_lt_iff_lt_mul hs).mp hlt
      omega
    · cases h

/-- The registers that a commit of a trigger unit may cover lie in the units' own blocks (R486). -/
theorem key_of_trigger {k : Nat} {r : Reg} {ix : List Nat} (h : regAt k = some (r, ix)) (hs : r.row.scope = some 5) : 0x48000 ≤ k ∧ k < 0x48220 := by
  have hrow : r.row.scope = some 5 → r.row.dims = [(0x40, 8)] ∧ 0x48000 ≤ r.row.base ∧ r.row.base ≤ 0x48020 := by cases r <;> decide
  obtain ⟨hdims, hlo, hhi⟩ := hrow hs
  obtain ⟨hge, hlt⟩ := Reg.find?_range hdims (by decide) (find?_of_regAt h)
  omega

namespace State

/-- No block acts on a change of a trigger unit's register. -/
theorem activeChanged_of_trigger (s0 s : State) {k : Nat} {r : Reg} {ix : List Nat} (h : regAt k = some (r, ix)) (hs : r.row.scope = some 5) :
    activeChanged s0 s k = s := by
  simp only [activeChanged, h]
  split
  case h_21 => rfl
  all_goals next heq => cases heq; exact absurd hs (by decide)


/-! ### Many writes of active copies -/

theorem smGet_of_not_mem {α : Type} (d : α) (m : SMap α) (k : Nat) (h : ∀ p ∈ m, p.1 ≠ k) : smGet d m k = d := by
  induction m with
  | nil => rfl
  | cons p t ih =>
    obtain ⟨j, w⟩ := p
    rw [smGet, if_neg (Ne.symm (h (j, w) (by simp))), ih (fun q hq => h q (by simp [hq]))]

/-- Active copies put one after another change the active copies alone. -/
theorem putActives_frame (vals : List (Nat × Word)) (s : State) :
    ∃ active, vals.foldl (fun s p => s.putActive p.1 p.2) s = { s with regs := { s.regs with active := active } } := by
  induction vals generalizing s with
  | nil => exact ⟨s.regs.active, rfl⟩
  | cons p t ih =>
    obtain ⟨active, e⟩ := ih (s.putActive p.1 p.2)
    exact ⟨active, e⟩

theorem putActives_aos (vals : List (Nat × Word)) (s : State) (aos : Vector Ao 16) :
    vals.foldl (fun s p => s.putActive p.1 p.2) ({ s with aos := aos } : State) = { vals.foldl (fun s p => s.putActive p.1 p.2) s with aos := aos } := by
  induction vals generalizing s with
  | nil => rfl
  | cons p t ih => exact ih (s.putActive p.1 p.2)

theorem activeK_putActives (keys : List Nat) (g : Nat → Word) (s : State) (j : Nat) :
    ((keys.map (fun k => (k, g k))).foldl (fun s p => s.putActive p.1 p.2) s).activeK j = if j ∈ keys then g j else s.activeK j := by
  induction keys generalizing s with
  | nil => simp
  | cons k t ih =>
    rw [List.map_cons, List.foldl_cons, ih]
    by_cases ht : j ∈ t
    · simp [ht]
    by_cases hk : j = k
    · subst hk; simp [ht]
    · simp [ht, hk, activeK_putActive_ne _ _ _ _ hk]

/-! ### The values of a commit -/

section Values

variable (s : State) (v : Scope)

/-- Keys whose shadow and active copies differ, of the registers that a commit covers. -/
def commitKeys : List Nat :=
  (s.regs.shadow.map (·.1) ++ (s.regs.active.map (·.1)).filter (fun k => !s.regs.shadow.any (fun p => p.1 == k))).filter (fun k =>
    s.shadowK k != s.activeK k && (match regAt k with
      | some (r, ix) => s.covers v r ix
      | none => false))

theorem commitVals_eq : s.commitVals v = (s.commitKeys v).map (fun k => (k, s.shadowK k)) := (rfl)

/-- A key is of a commit's values where its copies differ and the commit covers its register (R39, R41). -/
theorem mem_commitKeys (k : Nat) :
    k ∈ s.commitKeys v ↔ s.shadowK k ≠ s.activeK k ∧ ∃ r ix, regAt k = some (r, ix) ∧ s.covers v r ix = true := by
  have hlisted : s.shadowK k ≠ s.activeK k → k ∈ s.regs.shadow.map (·.1) ++
      (s.regs.active.map (·.1)).filter (fun k => !s.regs.shadow.any (fun p => p.1 == k)) := by
    intro hne
    by_cases hshadow : k ∈ s.regs.shadow.map (·.1)
    · exact List.mem_append_left _ hshadow
    · by_cases hactive : k ∈ s.regs.active.map (·.1)
      · refine List.mem_append_right _ (List.mem_filter.mpr ⟨hactive, ?_⟩)
        simpa using fun j w hmem hj => hshadow (List.mem_map.mpr ⟨(j, w), hmem, hj⟩)
      · refine absurd ?_ hne
        rw [shadowK, activeK, smGet_of_not_mem _ _ _ (fun p hp e => hshadow (List.mem_map.mpr ⟨p, hp, e⟩)),
          smGet_of_not_mem _ _ _ (fun p hp e => hactive (List.mem_map.mpr ⟨p, hp, e⟩))]
  have hcovers : (match regAt k with
      | some (r, ix) => s.covers v r ix
      | none => false) = true ↔ ∃ r ix, regAt k = some (r, ix) ∧ s.covers v r ix = true := by
    cases h : regAt k with
    | none => simp
    | some p => obtain ⟨r, ix⟩ := p; simp
  rw [commitKeys, List.mem_filter, Bool.and_eq_true, bne_iff_ne, hcovers]
  exact ⟨fun h => h.2, fun h => ⟨hlisted h.1, h⟩⟩

/-- Every value of a commit differs from the active copy that it replaces. -/
theorem commitVals_changed : (s.commitVals v).filter (fun p => s.activeK p.1 != p.2) = s.commitVals v := by
  refine List.filter_eq_self.mpr (fun p hp => ?_)
  rw [commitVals_eq] at hp
  obtain ⟨k, hk, rfl⟩ := List.mem_map.mp hp
  obtain ⟨hne, -⟩ := (s.mem_commitKeys v k).mp hk
  exact bne_iff_ne.mpr (Ne.symm hne)

/-- With its values put, every register that the commit covers shows its shadow copy, and every other as before (R41). -/
theorem commitsTo_putActives : commitsTo v s ((s.commitVals v).foldl (fun s p => s.putActive p.1 p.2) s) := by
  intro k
  rw [commitVals_eq, activeK_putActives]
  have hmem := s.mem_commitKeys v k
  cases hreg : regAt k with
  | none =>
    rw [if_neg (fun h => by obtain ⟨-, r, ix, hr, -⟩ := hmem.mp h; rw [hreg] at hr; cases hr)]
  | some p =>
    obtain ⟨r, ix⟩ := p
    simp only [hreg, Option.some.injEq, Prod.mk.injEq] at hmem
    by_cases hk : k ∈ s.commitKeys v
    · obtain ⟨-, r', ix', ⟨rfl, rfl⟩, hcov⟩ := hmem.mp hk
      simp [hk, hcov]
    · rw [if_neg hk]
      by_cases hcov : s.covers v r ix = true
      · simp only [hcov, if_true]
        by_contra hne
        exact hk (hmem.mpr ⟨Ne.symm hne, r, ix, ⟨rfl, rfl⟩, hcov⟩)
      · simp [hcov]

/-- What a commit makes active does not hang on what is neither a register copy nor ownership. -/
theorem commitsTo_congr {s' t t' : State} (hshadow : s'.shadowK = s.shadowK) (hactive : s'.activeK = s.activeK) (hcov : s'.covers v = s.covers v)
    (ht : t'.activeK = t.activeK) (h : commitsTo v s' t) : commitsTo v s t' := by
  simp only [commitsTo, hshadow, hactive, hcov, ← ht] at h
  exact h

theorem MainOnly.copies {s t : State} (h : MainOnly s t) : t.shadowK = s.shadowK ∧ t.activeK = s.activeK ∧ t.freshK = s.freshK := by
  obtain ⟨_, rfl⟩ := h
  exact ⟨rfl, rfl, rfl⟩

theorem activeK_aos (s : State) (aos : Vector Ao 16) : ({ s with aos := aos } : State).activeK = s.activeK := (rfl)

end Values

/-! ### The copy step -/

theorem overOutputs_aoCatch (s : State) : ∃ aos, s.overOutputs (fun o s => s.aoCatch o) = { s with aos := aos } := by
  have h (l : List (Fin 16)) (s : State) : ∃ aos, l.foldl (fun s o => s.aoCatch o) s = { s with aos := aos } := by
    induction l generalizing s with
    | nil => exact ⟨s.aos, rfl⟩
    | cons o t ih =>
      obtain ⟨aos, e⟩ := ih (s.aoCatch o)
      exact ⟨aos, e⟩
  exact h _ s

theorem foldl_id {α β : Type} (l : List β) (f : α → β → α) (a : α) (h : ∀ x ∈ l, f a x = a) : l.foldl f a = a := by
  induction l with
  | nil => rfl
  | cons x t ih => rw [List.foldl_cons, h x (by simp), ih (fun y hy => h y (by simp [hy]))]

/-- Measurement units judge nothing before a commit that brings them no value. -/
theorem muBefore_of_none (s : State) (vals : List (Nat × Word)) (h : ∀ r ∈ [Reg.TM_MU_CFG, .TM_MU_GATE, .TM_MU_AVG], ∀ u : Fin 16, ∀ p ∈ vals, p.1 ≠ r.key [u]) :
    s.muBefore vals = s := by
  have hfind (r : Reg) (hr : r ∈ [Reg.TM_MU_CFG, .TM_MU_GATE, .TM_MU_AVG]) (u : Fin 16) : vals.find? (fun p => p.1 == r.key [u]) = none := by
    rw [List.find?_eq_none]
    exact fun p hp => by simpa using h r hr u p hp
  refine foldl_id _ _ _ (fun u _ => ?_)
  simp only [hfind .TM_MU_CFG (by simp), hfind .TM_MU_GATE (by simp), hfind .TM_MU_AVG (by simp), Option.map_none, Option.isSome_none,
    Bool.or_self, Bool.false_eq_true, if_false, Option.getD_none, Bool.and_false]
  split <;> rfl

section Trigger

variable (s : State) (u : Fin 8) (byPf : Bool)

theorem trigger_of_mem {k : Nat} (h : k ∈ s.commitKeys ⟨5, u, byPf⟩) : ∃ r ix, regAt k = some (r, ix) ∧ r.row.scope = some 5 := by
  obtain ⟨-, r, ix, hreg, hcov⟩ := (s.mem_commitKeys _ k).mp h
  refine ⟨r, ix, hreg, ?_⟩
  simp only [covers] at hcov
  split at hcov
  · cases hcov
  · next c hc =>
    simp at hcov
    rw [hc, hcov.1]

/-- The values of a commit of a trigger unit are of no measurement unit. -/
theorem trigger_not_meas {k : Nat} (h : k ∈ s.commitKeys ⟨5, u, byPf⟩) : ∀ r ∈ [Reg.TM_MU_CFG, .TM_MU_GATE, .TM_MU_AVG], ∀ n : Fin 16, k ≠ r.key [n] := by
  obtain ⟨r', ix, hreg, hscope⟩ := s.trigger_of_mem u byPf h
  obtain ⟨-, hlt⟩ := key_of_trigger hreg hscope
  intro r hr n
  have hbase : 0x48220 ≤ r.row.base := by simp only [List.mem_cons, List.not_mem_nil, or_false] at hr; rcases hr with rfl | rfl | rfl <;> decide
  have := key_ge_base r [n]
  omega

/-- A commit of a trigger unit puts its values, once the outputs' present values are fixed; no block acts on them (R41, R42). -/
theorem commitCopy_trigger : ∃ aos, s.commitCopy ⟨5, u, byPf⟩ (s.commitVals ⟨5, u, byPf⟩) [] =
    { (s.commitVals ⟨5, u, byPf⟩).foldl (fun s p => s.putActive p.1 p.2) s with aos := aos } := by
  obtain ⟨aos, hcatch⟩ := s.overOutputs_aoCatch
  have hmem (p : Nat × Word) (hp : p ∈ s.commitVals ⟨5, u, byPf⟩) : p.1 ∈ s.commitKeys ⟨5, u, byPf⟩ := by
    rw [commitVals_eq] at hp
    obtain ⟨k, hk, rfl⟩ := List.mem_map.mp hp
    exact hk
  have hmu : ({ s with aos := aos } : State).muBefore (s.commitVals ⟨5, u, byPf⟩) = { s with aos := aos } :=
    muBefore_of_none _ _ (fun r hr n p hp => s.trigger_not_meas u byPf (hmem p hp) r hr n)
  have hcopy : s.copyVals (s.commitVals ⟨5, u, byPf⟩) = (s.commitVals ⟨5, u, byPf⟩).foldl (fun s p => s.putActive p.1 p.2) { s with aos := aos } := by
    simp only [copyVals, commitVals_changed, hcatch, hmu]
    refine foldl_id _ _ _ (fun p hp => ?_)
    obtain ⟨r, ix, hreg, hscope⟩ := s.trigger_of_mem u byPf (hmem p hp)
    exact activeChanged_of_trigger _ _ hreg hscope
  have hslices : s.covSlice ⟨5, u, byPf⟩ = fun _ => false := rfl
  have houts : s.covAo ⟨5, u, byPf⟩ = fun _ => false := rfl
  refine ⟨aos, ?_⟩
  simp only [commitCopy, hcopy, putActives_aos, unitsCommitted, hslices, houts, List.foldl_nil]
  rfl

end Trigger

/-! ### The commit reaches the engine -/

/-- A commit of an idle trigger unit that reaches a free engine with no injection armed, and that no check fails, is copied at once (R38, R41, R42). -/
theorem commitEnter_of_passes {s : State} {u : Fin 8} {byPf : Bool} {ring : Option (Nat × Nat × Nat)} (hpin : s.commit.pin = none)
    (hwait : s.commit.wait = []) (hinj : s.injOn 15 7 = false) (hmay : s.sourceMay ⟨5, u, byPf⟩ ring = true) (hidle : s.tgBusy u = false)
    (hpass : commitPasses ⟨5, u, byPf⟩ s) :
    s.commitEnter ⟨5, u, byPf, ring⟩ = (s.commitCopy ⟨5, u, byPf⟩ (s.commitVals ⟨5, u, byPf⟩) []).reportCommit ring .ok := by
  have hbusy : s.unitBusy 5 u = false := hidle
  simp only [commitEnter, hpin, hwait, commitStart, hinj, hmay, hpass, hbusy]
  simp

/-- The report of a commit written to SYS_COMMIT (R46). -/
theorem reportCommit_none (s : State) (st : Status) : MainOnly s (s.reportCommit none st) ∧
    (s.reportCommit none st).get F.SYS_COMMIT_INFO_SEQ = (s.get F.SYS_COMMIT_INFO_SEQ + 1) % 65536 ∧
    (s.reportCommit none st).get F.SYS_COMMIT_STATUS_STATUS = st.code ∧ (s.reportCommit none st).get F.SYS_COMMIT_STATUS_FIELD_ID = 0 := by
  refine ⟨((((MainOnly.refl s).set _ _ _).set _ _ _).set _ _ _), ?_, ?_, ?_⟩
  all_goals simp (disch := decide) only [reportCommit, incWrap, get_set_key, get_set_field, get_set_self]
  · exact Nat.mod_mod _ _
  · cases st <;> rfl
  · rfl

/-! ### COMMIT of a trigger unit -/

section RingCommit

variable {s : State} {k : Fin 16} {c : Cmd} {rest : List Cmd} {u : Fin 8}

theorem not_mem_pbaKeys (k : Fin 16) {j : Nat} (h : j < 2 ^ 28) : j ∉ pbaKeys k := by
  have hbase : 2 ^ 28 ≤ Reg.MSIX_PBA.row.base := by decide
  have h0 := key_ge_base .MSIX_PBA [k, 0]
  have h1 := key_ge_base .MSIX_PBA [k, 1]
  simp only [List.mem_cons, List.not_mem_nil, or_false, not_or]
  omega

/-- The machine as a COMMIT of a trigger unit reports: its values are copied, and SEQ counts it. -/
def committed (s : State) (k : Fin 16) (c : Cmd) (u : Fin 8) : State :=
  ((s.begin_ k c).commitCopy ⟨5, u, decide (k = 0)⟩ ((s.begin_ k c).commitVals ⟨5, u, decide (k = 0)⟩) []).incWrap F.SYS_COMMIT_INFO_SEQ []

/-- What the copy and the count change. -/
theorem committed_frame (s : State) (k : Fin 16) (c : Cmd) (u : Fin 8) : ∃ main active aos,
    s.committed k c u = { s.begin_ k c with regs := { s.regs with main := main, active := active }, aos := aos } := by
  obtain ⟨aos, e⟩ := (s.begin_ k c).commitCopy_trigger u (decide (k = 0))
  obtain ⟨active, e'⟩ := putActives_frame ((s.begin_ k c).commitVals ⟨5, u, decide (k = 0)⟩) (s.begin_ k c)
  rw [committed, e, e']
  exact ⟨_, active, aos, rfl⟩

theorem committed_seq (s : State) (k : Fin 16) (c : Cmd) (u : Fin 8) :
    (s.committed k c u).get F.SYS_COMMIT_INFO_SEQ = (s.get F.SYS_COMMIT_INFO_SEQ + 1) % 65536 := by
  obtain ⟨aos, e⟩ := (s.begin_ k c).commitCopy_trigger u (decide (k = 0))
  obtain ⟨active, e'⟩ := putActives_frame ((s.begin_ k c).commitVals ⟨5, u, decide (k = 0)⟩) (s.begin_ k c)
  rw [committed, e, e', incWrap, get_set_self _ _ _ _ (by decide)]
  exact Nat.mod_mod _ _

theorem committed_commitsTo (s : State) (k : Fin 16) (c : Cmd) (u : Fin 8) : commitsTo ⟨5, u, decide (k = 0)⟩ s (s.committed k c u) := by
  obtain ⟨aos, e⟩ := (s.begin_ k c).commitCopy_trigger u (decide (k = 0))
  rw [committed, e]
  refine commitsTo_congr s _ rfl rfl rfl ?_ ((s.begin_ k c).commitsTo_putActives ⟨5, u, decide (k = 0)⟩)
  exact ((MainOnly.refl _).set _ _ _).copies.2.1.trans (activeK_aos _ _)

/-- The keys that the commit changes. -/
def committedKeys (s : State) (k : Fin 16) (c : Cmd) (u : Fin 8) : List Nat :=
  Reg.key .SYS_COMMIT_INFO [] :: (s.begin_ k c).commitKeys ⟨5, u, decide (k = 0)⟩

theorem aside_committedKeys (s : State) (k : Fin 16) (c : Cmd) (u : Fin 8) : Aside (s.committedKeys k c u) := by
  intro j hj
  rcases List.mem_cons.mp hj with rfl | hj
  · decide
  · obtain ⟨r, ix, hreg, hscope⟩ := (s.begin_ k c).trigger_of_mem u _ hj
    obtain ⟨hlo, hhi⟩ := key_of_trigger hreg hscope
    have hstile : Reg.key .ST_STATUS [] < 0x48000 := by decide
    have htime : Reg.key .TB_STATUS [] < 0x48000 := by decide
    exact ⟨by omega, by omega, by omega⟩

theorem regsSame_committed (s : State) (k : Fin 16) (c : Cmd) (u : Fin 8) : regsSame (s.committedKeys k c u) s (s.committed k c u) := by
  obtain ⟨aos, e⟩ := (s.begin_ k c).commitCopy_trigger u (decide (k = 0))
  obtain ⟨active, e'⟩ := putActives_frame ((s.begin_ k c).commitVals ⟨5, u, decide (k = 0)⟩) (s.begin_ k c)
  intro j hj
  simp only [committedKeys, List.mem_cons, not_or] at hj
  obtain ⟨hinfo, hkeys⟩ := hj
  have hactive := activeK_putActives ((s.begin_ k c).commitKeys ⟨5, u, decide (k = 0)⟩) (s.begin_ k c).shadowK (s.begin_ k c) j
  rw [if_neg hkeys, ← commitVals_eq] at hactive
  obtain ⟨hshadow', hactive', hfresh'⟩ := ((MainOnly.refl ((s.begin_ k c).commitCopy ⟨5, u, decide (k = 0)⟩
    ((s.begin_ k c).commitVals ⟨5, u, decide (k = 0)⟩) [])).set F.SYS_COMMIT_INFO_SEQ [] _).copies
  refine ⟨(getK_set_ne _ _ _ _ _ hinfo).trans ?_, (congrFun hshadow' j).trans ?_, (congrFun hactive' j).trans ?_, (congrFun hfresh' j).trans ?_⟩
  · rw [e, e']; rfl
  · rw [e, e']; rfl
  · rw [e]; exact hactive
  · rw [e, e']; rfl

/-- Nothing that the completion rests on has changed. -/
theorem worked_committed (s : State) (hcross : crosses s) (k : Fin 16) (c : Cmd) (u : Fin 8) : Worked k c (s.committedKeys k c u) s (s.committed k c u) := by
  obtain ⟨main, active, aos, e⟩ := s.committed_frame k c u
  have hregs := s.regsSame_committed k c u
  have haside := s.aside_committedKeys k c u
  refine ⟨?_, ?_, crosses_of_same hcross hregs haside ?_ ?_ ?_, hregs, haside⟩ <;> rw [e] <;> rfl

/-- COMMIT of an idle trigger unit of the session (R38, R42, R395, R399). -/
theorem exec_commit_trigger (hready : headReady k c rest s) (hop : cmdOp c.bytes = 3) (hparam : cmdParam c.bytes = 5 + 256 * u)
    (hown : s.ownsTg k u = true) (hpin : s.commit.pin = none) (hwait : s.commit.wait = []) (hinj : s.injOn 15 7 = false) (hidle : s.tgBusy u = false)
    (hpass : commitPasses ⟨5, u, decide (k = 0)⟩ (s.begin_ k c)) :
    exec (.commit k) s = .next ((s.committed k c u).finish k c .ok 0 0 ((s.get F.SYS_COMMIT_INFO_SEQ + 1) % 65536)) := by
  have hscope : bitsOf (cmdParam c.bytes) 0 4 = 5 := by rw [hparam, bitsOf]; omega
  have htarget : bitsOf (cmdParam c.bytes) 8 8 = u := by rw [hparam, bitsOf]; omega
  have hmay : (s.begin_ k c).sourceMay ⟨5, u, decide (k = 0)⟩ (some (k.val, c.tag, c.epoch)) = true := by
    have hown' : (s.begin_ k c).ownsTg k u = true := hown
    simp [sourceMay, mayCommit, hown']
  have henter := commitEnter_of_passes (s := s.begin_ k c) (ring := some (k.val, c.tag, c.epoch)) hpin hwait hinj hmay hidle hpass
  simp only [exec, execCommit, runCmd_of_headReady _ hready hop, ringCommit, hscope, htarget, henter, reportCommit, dif_pos k.isLt]
  rw [← committed_seq s k c u, finish, hop]
  rfl

end RingCommit

end State

open State

/-- Settles O25: a trigger unit's values are put at once, since no block acts on a change of them, and the copy's report is the last thing written. -/
theorem aCommitMakesShadowsActive : Obligations.ACommitMakesShadowsActive := by
  unfold Obligations.ACommitMakesShadowsActive
  refine ⟨fun u s hcross hbusy hpin hwait hinj hidle hpass => ?_,
    fun k c rest u s hready hop hparam hown hpin hwait hinj hidle hpass => ?_⟩
  · have htarget : (Fin.ofNat 256 u.val).val = u := Nat.mod_eq_of_lt (by omega)
    have hpass' : commitPasses ⟨5, u, true⟩ (s.down 1) := by
      rw [commitPasses, candidate_stile]
      exact (commitFirst_stile _ _ _ _ _ _).trans hpass
    have hgo : (s.down 1).commitGo 5 u = ((s.down 1).commitCopy ⟨5, u, true⟩ ((s.down 1).commitVals ⟨5, u, true⟩) []).reportCommit none .ok := by
      have hbusy' : (s.down 1).get F.SYS_COMMIT_STATUS_BUSY = 0 := hbusy
      rw [commitGo, hbusy', if_neg (by decide)]
      exact commitEnter_of_passes hpin hwait hinj rfl hidle hpass'
    obtain ⟨aos, hcopy⟩ := (s.down 1).commitCopy_trigger u true
    obtain ⟨active, hput⟩ := putActives_frame ((s.down 1).commitVals ⟨5, u, true⟩) (s.down 1)
    have hto := (s.down 1).commitsTo_putActives ⟨5, u, true⟩
    obtain ⟨hmainOnly, hseq, hstatus, hfield⟩ := reportCommit_none ((s.down 1).commitCopy ⟨5, u, true⟩ ((s.down 1).commitVals ⟨5, u, true⟩) []) .ok
    obtain ⟨hshadow, hactive, -⟩ := hmainOnly.copies
    obtain ⟨main, hmain⟩ := hmainOnly
    refine ⟨_, (by rw [exec, execSysCommitGo, toField_of_crosses hcross, frames_commitGo, htarget]; exact congrArg _ hgo), ?_, ?_, ?_, hstatus, hfield, ?_⟩
    · exact commitsTo_congr s _ rfl rfl rfl (hactive.trans (by rw [hcopy, activeK_aos])) hto
    · exact congrFun (hshadow.trans (by rw [hcopy, hput]; rfl))
    · rw [hseq, hcopy, hput]; rfl
    · rw [hmain, hcopy, hput]
  · obtain ⟨-, hcross, -⟩ := id hready
    have hworked := s.worked_committed hcross k c u
    obtain ⟨main, irqs, ring, -, e, -⟩ := hworked.finish_eq hready .ok 0 0 ((s.get F.SYS_COMMIT_INFO_SEQ + 1) % 65536)
    obtain ⟨hdone, ⟨hqueue, hothers, -⟩, hkept, hregs, -⟩ := hworked.finish hready .ok 0 0
      ((s.get F.SYS_COMMIT_INFO_SEQ + 1) % 65536) (by omega) (by decide) (by decide) (by omega)
    obtain ⟨_, _, aos, e'⟩ := s.committed_frame k c u
    refine ⟨_, exec_commit_trigger hready hop hparam hown hpin hwait hinj hidle hpass, ?_, ?_, ?_, hdone, hqueue, hothers, ?_, ?_⟩
    · exact commitsTo_congr s _ rfl rfl rfl (by rw [e]; rfl) (s.committed_commitsTo k c u)
    · exact congrFun ((by rw [e]; rfl : _ = (s.committed k c u).shadowK).trans (by rw [e']; rfl))
    · exact (get_of_regsSame hregs _ _ (not_mem_pbaKeys k (by decide))).trans (committed_seq s k c u)
    · rw [e'] at hkept ⊢
      exact hkept
    · rw [e, e']
      rfl

end Sys2Proof.Machine
end

section
/-! The end of a commit's pinning (R232, R327), and the deferred copy of a Hedgerow commit. -/

namespace Sys2Proof.Machine

namespace State

/-- The field side as it resets, with a session's commit pinning its loop bodies and a copy of R327 deferred. -/
def pinningState : State := { reset with commit := ⟨some ⟨1, 0, true, [], [(0, [])], none⟩, [], []⟩, due := [⟨1, .hedgeCopy⟩] }

/-- The actions deferred in the machine that a command leaves. -/
def dueAfter : Host.Outcome State Fault Refusal → Option (List Due)
  | .next t => some t.due
  | _ => none

theorem dueAfter_pinningDone : dueAfter (exec (.commitPinningDone [] []) pinningState) = some [] := by decide +kernel

end State

open State

/-- Refutes O27: freeing the engine drops a deferred copy of R327 (`engineFree`), so where one is deferred while a session's commit pins, the state's
deferred actions change too, which the second clause denies. The fourth clause asks that none be deferred; the second does not. -/
theorem not_theEngineIsReleased : ¬ Obligations.TheEngineIsReleased := by
  unfold Obligations.TheEngineIsReleased
  rintro ⟨-, hframe, -⟩
  obtain ⟨t, hexec, -, ht, -⟩ := hframe 0 [] true [] [] pinningState rfl rfl (by decide +kernel)
  have hdue := dueAfter_pinningDone
  rw [hexec, ht] at hdue
  exact absurd (Option.some.inj hdue) (List.cons_ne_nil _ _)

end Sys2Proof.Machine
end

section
/-! Messages over a clear Stile: a message is accepted in its direction's numbering and acts at once (R416, R418–R421). -/

namespace Sys2Proof.Machine

namespace State

/-- The machine once a message has been sent and accepted, before it acts. -/
abbrev taken (toHost : Bool) (p : Packet) (s : State) : State := { s with stile := framesIn toHost p.frames p s.stile }

/-- A message as its transmitter keeps it. -/
def kept (s : State) (toHost : Bool) (p : Packet) : Sent := ⟨if toHost then s.stile.txF else s.stile.txH, p.frames, p, false⟩

theorem sent_keepSent (s : State) (toHost : Bool) (p : Packet) : (s.keepSent toHost p).stile.sent toHost = s.stile.sent toHost ++ [s.kept toHost p] := by
  cases toHost <;> rfl

theorem nak_keepSent (s : State) (toHost : Bool) (p : Packet) : (s.keepSent toHost p).stile.nak toHost = s.stile.nak toHost := by
  cases toHost <;> rfl

/-- The only message kept is accepted when it can be. -/
theorem pump_one {s : State} {toHost : Bool} {e : Sent} (hsent : s.stile.sent toHost = [e]) (hnak : s.stile.nak toHost = false) (hgot : e.got = false) :
    s.pump toHost (s.stile.sent toHost).length = s.accept toHost e := by
  simp [hsent, pump, hnak, nextSent, hgot]

/-- Where nothing sent is unacknowledged, no replay is awaited and no injection armed, a message is accepted as it is sent (R420). -/
theorem stileSend_of_ready {toHost : Bool} {s : State} (p : Packet) (h : stileReady toHost s) :
    s.stileSend toHost p = (s.taken toHost p).packetAct p := by
  obtain ⟨hsent, hnak, hreplay, hinj⟩ := h
  have hnow : s.replayNow toHost = s := by
    cases toHost <;> simp_all [replayNow]
  have hkept : (s.keepSent toHost p).stile.sent toHost = [s.kept toHost p] := by rw [sent_keepSent, hsent, List.nil_append]
  have hclear : (s.keepSent toHost p).stile.nak toHost = false := (nak_keepSent s toHost p).trans hnak
  have hnone (det u : Nat) : (s.keepSent toHost p).injOn det u = false := by
    rw [injOn, show (s.keepSent toHost p).flt.inj = none from hinj]
  have htaken : (s.keepSent toHost p).accept toHost (s.kept toHost p) = (s.taken toHost p).packetAct p := by
    refine congrArg (fun t : State => t.packetAct p) ?_
    cases toHost
    · have hsent' : s.stile.sentH = [] := hsent
      simp only [keepSent, modStile, goodFrames, headerAcks, hsent']
      rfl
    · have hsent' : s.stile.sentF = [] := hsent
      simp only [keepSent, modStile, goodFrames, headerAcks, hsent']
      rfl
  simp only [stileSend, hnow, hclear, hnone, Bool.false_eq_true, if_false]
  rw [pump_one hkept hclear rfl, htaken]

/-! ### The numbers that a message carries -/

theorem sessOf_val (k : Fin 16) : sessOf k.val = k := Fin.ext (Nat.mod_eq_of_lt k.isLt)

end State

/-! ### Messages that say nothing, or are discarded (R419, R422) -/

/-- Frames of a message that no data follows. -/
theorem frames_of_no_data {p : Packet} (hp : ∀ toHost h, p ≠ .bad toHost h) (hd : p.data = []) : p.frames = 1 := by
  cases p
  case bad toHost h => exact absurd rfl (hp toHost h)
  all_goals simp [Packet.frames, hd, dataMessages, dataFrames]

/-- A count that reads as the sum of what stood there and what it adds, where that is within its width (R17). -/
theorem counted_count (s : State) (f : Fld) (ix : List Nat) (n : Nat) (h : f.lsb + f.width ≤ 32) : counted f ix n s (s.count f ix n) := by
  have hlt : satAdd f.width (bitsOf (s.freshK (f.reg.key ix)).toNat f.lsb f.width) n < 2 ^ f.width := by
    have : 0 < 2 ^ f.width := by positivity
    unfold satAdd
    omega
  exact (State.freshK_count_self s f ix n h).trans (Nat.mod_eq_of_lt hlt)

end Sys2Proof.Machine
end

section
/-! What a register access over the Stile does at the F-die does not hang on the Stile or on the link's state (R23, R416, R421). -/

namespace Sys2Proof.Machine

namespace State

/-- The machine with another Stile, and with the PCI Express link seen up or not. -/
def relinked (s : State) (x : Stile) (up : Bool) : State := { s with stile := x, boot := { s.boot with linkUp := up } }

section Relinked

variable (s : State) (x : Stile) (up : Bool)

theorem playAhead_relinked (o : Fin 16) (per : Nat) (p : Play) (buf : List Nat) : (s.relinked x up).playAhead o per p buf = s.playAhead o per p buf := by
  induction buf generalizing p with
  | nil => rfl
  | cons v buf ih => simp only [playAhead, ih]; rfl

theorem aoTarget_relinked (o : Fin 16) : (s.relinked x up).aoTarget o = s.aoTarget o := by
  simp only [aoTarget, aoSource, aoResample, aoAhead, playAhead_relinked]; rfl

/-- What a register but HI_LINK shows of a state held elsewhere is the same where the NVM has been read or has not. -/
theorem liveFields_relinked {r : Reg} (ix : List Nat) (hx : x.nvmRead = s.stile.nvmRead) (hr : r ≠ .HI_LINK) :
    (s.relinked x up).liveFields r ix = s.liveFields r ix := by
  cases r
  case AO_STATUS => simp only [liveFields, aoValue, aoTarget_relinked]; rfl
  case CH_BANK_STATUS => rw [liveFields, liveFields, ← hx]; rfl
  case HI_LINK => exact absurd rfl hr
  all_goals rfl

variable {k : Nat} (hx : x.nvmRead = s.stile.nvmRead) (hk : ∀ ix, regAt k ≠ some (.HI_LINK, ix))
include hx hk

theorem regValue_relinked : (s.relinked x up).regValue k = s.regValue k := by
  cases h : regAt k with
  | none => simp only [regValue, h]
  | some p =>
    obtain ⟨r, ix⟩ := p
    have hr : r ≠ .HI_LINK := fun e => hk ix (h.trans (by rw [e]))
    simp only [regValue, h, liveFields_relinked s x up ix hx hr]
    rfl

theorem readLive_relinked : (s.relinked x up).readLive k = s.readLive k := by
  simp only [readLive, regValue_relinked s x up hx hk]
  rfl

omit hx hk in
/-- What a read changes hangs on the registers and the control store alone. -/
theorem readEffect_relinked : (s.relinked x up).readEffect k = (s.readEffect k).relinked x up := by
  cases h : regAt k with
  | none => simp only [readEffect, h]
  | some p =>
    obtain ⟨r, ix⟩ := p
    by_cases hact : r.readActs = true
    · cases r
      case CSW_DATA | FW_SCR_DATA | AO_TBL_DATA | NVM_F_DATA | NVM_H_DATA =>
        simp only [readEffect, h, fwScrStep, aoTblStep, nvmStep, Bool.false_eq_true, if_true, if_false, apply_ite (fun t : State => t.relinked x up)]
        rfl
      all_goals exact absurd hact (by decide)
    · rw [readEffect_of_not_readActs h (by simpa using hact), readEffect_of_not_readActs h (by simpa using hact), clearRc_eq h, clearRc_eq h]
      rfl

omit hx hk in
/-- It changes main copies of registers and what the control store's window has latched. -/
theorem readEffect_frame (k : Nat) : ∃ main cs, s.readEffect k = { s with regs := { s.regs with main := main }, cs := cs } := by
  cases h : regAt k with
  | none => exact ⟨s.regs.main, s.cs, by simp only [readEffect, h]⟩
  | some p =>
    obtain ⟨r, ix⟩ := p
    by_cases hact : r.readActs = true
    · cases r
      case CSW_DATA =>
        simp only [readEffect, h]
        split_ifs
        · exact ⟨s.regs.main, _, rfl⟩
        · exact ⟨_, s.cs, rfl⟩
        · exact ⟨s.regs.main, s.cs, rfl⟩
      case FW_SCR_DATA | AO_TBL_DATA | NVM_F_DATA | NVM_H_DATA =>
        simp only [readEffect, h, fwScrStep, aoTblStep, nvmStep, Bool.false_eq_true, if_true, if_false]
        split_ifs
        · exact ⟨_, s.cs, rfl⟩
        · exact ⟨s.regs.main, s.cs, rfl⟩
      all_goals exact absurd hact (by decide)
    · rw [readEffect_of_not_readActs h (by simpa using hact), clearRc_eq h]
      exact ⟨_, s.cs, rfl⟩

/-- A read of a register of the F-die finds the same value, takes the same latches and has the same effect (R13, R16). -/
theorem readThrough_relinked (lat : SMap Word) (hhi : ∀ ix, regAt (pairHi k) ≠ some (.HI_LINK, ix)) :
    (s.relinked x up).readThrough lat k =
      ((s.readThrough lat k).1, (s.readThrough lat k).2.1, (s.readThrough lat k).2.2.relinked x up) := by
  simp only [readThrough, readEffect_relinked, readLive_relinked s x up hx hk, readLive_relinked s x up hx hhi]
  cases pairOf k
  case lo => rfl
  all_goals cases latchGet lat k <;> rfl

end Relinked

/-! ### Registers of the F-die -/

/-- HI_LINK stands at one key, on the H-die. -/
theorem key_of_hiLink {k : Nat} {ix : List Nat} (h : regAt k = some (.HI_LINK, ix)) : k = 0x1000 := by
  have hfind := find?_of_regAt h
  have hdims : Reg.HI_LINK.row.dims = [] := rfl
  have hbase : Reg.HI_LINK.row.base = 0x1000 := rfl
  rw [Reg.find?, hdims, hbase, rowIndex] at hfind
  split_ifs at hfind
  omega

theorem regKey_ge (s : State) {off : Nat} (h : keyOnHost off = false) (hoff : off < 2 ^ 20) : 0x2100 ≤ s.regKey off := by
  have hge : 0x2100 ≤ off := by
    by_contra hlt
    simp [keyOnHost] at h
    omega
  unfold regKey
  simp only
  split_ifs <;> omega

/-- Neither a register of the F-die nor its pair's high half is HI_LINK. -/
theorem ne_hiLink_of_field (s : State) {off : Nat} (h : keyOnHost off = false) (hoff : off < 2 ^ 20) :
    (∀ ix, regAt (s.regKey off) ≠ some (.HI_LINK, ix)) ∧ ∀ ix, regAt (pairHi (s.regKey off)) ≠ some (.HI_LINK, ix) := by
  have hge := s.regKey_ge h hoff
  refine ⟨fun ix hreg => ?_, fun ix hreg => ?_⟩
  · have := key_of_hiLink hreg
    omega
  · have := key_of_hiLink hreg
    unfold pairHi at this
    split at this <;> omega

end State
end Sys2Proof.Machine
end

section
/-! The Stile's messages one by one: link, lanes and registers (R23, R419, R422, R423, R425). -/

namespace Sys2Proof.Machine

namespace State

/-- A message without data takes one frame, and acts once that has passed. -/
theorem stileSend_one {toHost : Bool} {s : State} {p : Packet} (hready : stileReady toHost s) (hbad : ∀ b h, p ≠ .bad b h) (hdata : p.data = []) :
    s.stileSend toHost p = ({ s with stile := framesIn toHost 1 p s.stile } : State).packetAct p := by
  rw [stileSend_of_ready _ hready, taken, frames_of_no_data hbad hdata]

section Link

variable {toHost : Bool} {s : State}

/-- An idle header does nothing but acknowledge (R419). -/
theorem exec_idle (n : Fin 25) (hready : stileReady toHost s) :
    exec (.idle toHost .idle n) s = .next { s with stile := framesIn toHost 1 .idle s.stile } := by
  rw [exec, execIdle, stileSend_one hready (by intros; nofun) rfl]
  rfl

/-- A discarded header and its data frames are received, and counted (R419, R422). -/
theorem stileSend_bad (h : Header) (hready : stileReady toHost s) :
    let t := s.stileSend toHost (.bad toHost h)
    counted (if toHost then F.ST_CNT_BAD_MSG else F.ST_F_CNT_BAD_MSG) [] 1 s t ∧
      t = { s with regs := t.regs, stile := framesIn toHost (1 + h.ndata) (.bad toHost h) s.stile } ∧
      regsSame [Reg.key .ST_CNT [], Reg.key .ST_F_CNT []] s t := by
  have hsame : regsSame [Reg.key .ST_CNT [], Reg.key .ST_F_CNT []] s (s.taken toHost (.bad toHost h)) := regsSame_other (regsSame_refl _ s) rfl
  rw [stileSend_of_ready _ hready]
  refine ⟨?_, rfl, ?_⟩
  · exact counted_count (s.taken toHost (.bad toHost h)) _ [] 1 (by cases toHost <;> decide)
  · exact regsSame_count _ _ _ (by cases toHost <;> decide) hsame

/-- STATE UP brings FIELD up, the field side having read its NVM (R425). -/
theorem exec_state_up (hready : stileReady true s) (hfield : s.get F.ST_STATUS_FIELD = 2) (hout : s.stile.out = []) :
    ∃ t, exec (.state 3) s = .next t ∧ t.get F.ST_STATUS_FIELD = 3 ∧ raised F.ST_EVENTS_FIELD_UP [] t ∧
      t = { s with regs := t.regs, stile := { framesIn true 1 (.state 3) s.stile with lost := false } } ∧
      regsSame [Reg.key .ST_STATUS [], Reg.key .ST_EVENTS []] s t := by
  have hcome (x : Stile) (hx : x.out = []) : ({ s with stile := x } : State).fieldComesUp =
      { (s.set F.ST_STATUS_FIELD [] 3).raise F.ST_EVENTS_FIELD_UP with stile := { x with lost := false } } := by
    have hget : ({ s with stile := x } : State).get F.ST_STATUS_FIELD = 2 := hfield
    rw [fieldComesUp, hget, if_neg (by decide)]
    have hout' : ({ x with lost := false, out := [] } : Stile) = { x with lost := false } := by rw [← hx]
    exact (congrArg (List.foldl _ _) hx).trans
      (congrArg (fun y => ({ (s.set F.ST_STATUS_FIELD [] 3).raise F.ST_EVENTS_FIELD_UP with stile := y } : State)) hout')
  have hexec : exec (.state 3) s = .next (State.packetAct { s with stile := framesIn true 1 (.state 3) s.stile } (.state 3)) := by
    rw [exec, execState, stileSend_one hready (by intros; nofun) rfl]
    rfl
  refine ⟨_, hexec.trans (congrArg _ (hcome _ hout)), ?_, ?_, rfl, ?_⟩
  · exact get_set_self s F.ST_STATUS_FIELD [] 3 (by decide)
  · exact freshK_raise_self (s.set F.ST_STATUS_FIELD [] 3) F.ST_EVENTS_FIELD_UP [] (by decide)
  · exact regsSame_other (regsSame_raise _ _ (by decide) (regsSame_set F.ST_STATUS_FIELD [] 3 (by decide) (regsSame_refl _ s))) rfl

/-- LANE moves the lane that the receiver of the opposite direction names onto the spare (R423). -/
theorem exec_lane (lane : Fin 8) (hready : stileReady toHost s)
    (hne : s.get (if toHost then F.ST_STATUS_H2F_SPARE else F.ST_STATUS_F2H_SPARE) ≠ lane) :
    ∃ t, exec (.lane toHost lane) s = .next t ∧ t.get (if toHost then F.ST_STATUS_H2F_SPARE else F.ST_STATUS_F2H_SPARE) = lane ∧
      raised (if toHost then F.ST_EVENTS_SPARE_H2F else F.ST_EVENTS_SPARE_F2H) [] t ∧
      t = { s with regs := t.regs, stile := framesIn toHost 1 (.lane toHost lane) s.stile } ∧
      regsSame [Reg.key .ST_STATUS [], Reg.key .ST_EVENTS []] s t := by
  generalize hx : framesIn toHost 1 (.lane toHost lane) s.stile = x
  have hlane : ({ s with stile := x } : State).laneMsg toHost lane = ({ s with stile := x } : State).laneSpared (!toHost) lane := by
    refine if_neg ?_
    cases toHost <;> exact hne
  have hexec : exec (.lane toHost lane) s = .next (State.packetAct { s with stile := x } (.lane toHost lane)) := by
    rw [exec, execLane, stileSend_one hready (by intros; nofun) rfl, hx]
  refine ⟨_, hexec.trans (congrArg _ hlane), ?_, ?_, rfl, ?_⟩
  · have hlt : lane.val % 2 ^ 4 = lane := Nat.mod_eq_of_lt (by omega)
    cases toHost <;> exact (get_set_self ({ s with stile := x } : State) _ [] lane (by decide)).trans hlt
  · cases toHost <;> exact freshK_raise_self _ _ [] (by decide)
  · have hsame : regsSame [Reg.key .ST_STATUS [], Reg.key .ST_EVENTS []] s { s with stile := x } := regsSame_other (regsSame_refl _ s) rfl
    cases toHost <;> exact regsSame_raise _ _ (by decide) (regsSame_set _ _ _ (by decide) hsame)

end Link

/-! ### Registers -/

section Registers

variable {s : State} {off : Fin 1048576}

theorem readThrough_state (s : State) (lat : SMap Word) (k : Nat) : (s.readThrough lat k).2.2 = s.readEffect k := by
  rw [readThrough]
  cases pairOf k
  case lo => rfl
  all_goals cases latchGet lat k <;> rfl

/-- REG_WR does at the F-die what the BAR0 write does that crosses at once (R23). -/
theorem exec_regWr (v : Word) (hready : stileReady false s) (halign : off.val % 4 = 0) (hoff : keyOnHost off = false) :
    exec (.regWr off v) s = .next (State.bar0Put { s with stile := framesIn false 1 (.regWr off v) s.stile } (s.regKey off) v State.regWrite) := by
  rw [exec, execRegWr, stileSend_one hready (by intros; nofun) rfl]
  exact congrArg _ (if_pos ⟨halign, hoff⟩)

/-- REG_RD makes its read through BAR0's latches, and the value read joins the answers. -/
theorem regRdMsg_eq {s t : State} {off : Nat} {v : Word} {lat : SMap Word} (halign : off % 4 = 0) (hoff : keyOnHost off = false)
    (h : s.readThrough s.regs.pairLatch (s.regKey off) = (v, lat, t)) :
    s.regRdMsg off = (t.keepLatch lat).modStile (fun x => { x with replies := x.replies ++ [v] }) := by
  rw [regRdMsg, if_pos ⟨halign, hoff⟩, h]

/-- REG_RD finds at the F-die what the BAR0 read finds, and its answer waits in its turn (R23). -/
theorem exec_regRd (hready : stileReady false s) (halign : off.val % 4 = 0) (hoff : keyOnHost off = false) (hcross : crosses s) :
    ∃ t, exec (.regRd off) s = .next t ∧ ∃ u, exec (.rcFieldRead none off) s = .next u ∧
      t = { u with
        lastRead := s.lastRead, boot := t.boot,
        stile := { framesIn false 1 (.regRd off) s.stile with replies := s.stile.replies ++ [u.lastRead] } } := by
  obtain ⟨hk, hhi⟩ := s.ne_hiLink_of_field hoff off.isLt
  have hne : s.regKey off ≠ 0x4C := fun e => absurd (s.regKey_ge hoff off.isLt) (by omega)
  have hread (x : Stile) (up : Bool) (hx : x.nvmRead = s.stile.nvmRead) := s.readThrough_relinked x up hx hk s.regs.pairLatch hhi
  generalize s.readThrough s.regs.pairLatch (s.regKey off) = r, readThrough_state s s.regs.pairLatch (s.regKey off) = hr at hread
  obtain ⟨v, lat, e⟩ := r
  obtain ⟨main, cs, he⟩ := s.readEffect_frame (s.regKey off)
  obtain rfl : e = { s with regs := { s.regs with main := main }, cs := cs } := hr.trans he
  have hmsg := hread (framesIn false 1 (.regRd off) s.stile) s.boot.linkUp rfl
  have hbar := bar0Value_eq (s := s.down 1) hne (hread (framesDown 1 s.stile) true rfl)
  have hexec : exec (.regRd off) s = .next (State.regRdMsg { s with stile := framesIn false 1 (.regRd off) s.stile } off) := by
    rw [exec, execRegRd, stileSend_one hready (by intros; nofun) rfl]
    rfl
  have hmsg' := regRdMsg_eq (s := { s with stile := framesIn false 1 (.regRd off) s.stile }) halign hoff hmsg
  exact ⟨_, hexec.trans (congrArg _ hmsg'), _, (exec_rcFieldRead s off halign).trans (congrArg _ (hostRead_of_crosses hoff hcross hbar rfl rfl)), rfl⟩

/-- REG_RSP completes the host's read with the value that it carries (R419). -/
theorem exec_regRsp (v : Word) (hready : stileReady true s) : exec (.regRsp v) s =
    .next { s with lastRead := v, stile := { framesIn true 1 (.regRsp v) s.stile with replies := s.stile.replies.drop 1 } } := by
  rw [exec, execRegRsp, stileSend_one hready (by intros; nofun) rfl]
  rfl

end Registers

end State
end Sys2Proof.Machine
end

section
/-! The Stile's messages one by one: commands, GO and CREDIT (R402, R405, R408, R419). -/

namespace Sys2Proof.Machine

/-! ### Bytes -/

theorem padTo_of_length {n : Nat} {bs : List Byte} (h : bs.length = n) : padTo n bs = bs := by
  rw [padTo, h, Nat.sub_self, List.replicate_zero, List.append_nil, List.take_of_length_le h.le]

/-- A message of 64 bytes takes its header frame and two data frames (R418). -/
theorem frames_of_64 {p : Packet} (hp : ∀ toHost h, p ≠ .bad toHost h) (hd : p.data.length = 64) : p.frames = 3 := by
  cases p
  case bad toHost h => exact absurd rfl (hp toHost h)
  all_goals simp [Packet.frames, hd, dataMessages, dataFrames]

namespace State

variable {s : State} {k : Fin 16}

/-- CMD's descriptor joins the queue of its session, where its instance has not begun and no command of it waits (R402). -/
theorem exec_cmd {tag : Fin 65536} {epoch : Fin 16} {bytes : List Byte} (hready : stileReady false s) (hbytes : bytes.length = 64)
    (hlive : s.host[k].live = [⟨tag, epoch, cmdOp bytes, false, false, false, 0, 0⟩]) (hqueue : s.host[k].queue = []) :
    exec (.cmd k tag epoch bytes) s = .next { s with
      stile := framesIn false 3 (.cmd k tag epoch bytes) s.stile, host := s.host.set k { s.host[k] with queue := [⟨tag, epoch, bytes⟩] } } := by
  have hframes : Packet.frames (.cmd k tag epoch bytes) = 3 :=
    frames_of_64 (by intros; nofun) (by rw [Packet.data, padTo_of_length hbytes, hbytes])
  have hinst : s.instLive k tag epoch = true := by
    rw [instLive, hlive]
    simp
  have hmsg (x : Stile) : ({ s with stile := x } : State).cmdMsg k tag epoch bytes =
      { s with stile := x, host := s.host.set k { s.host[k] with queue := [⟨tag, epoch, bytes⟩] } } := by
    have hinst' : ({ s with stile := x } : State).instLive k tag epoch = true := hinst
    simp only [cmdMsg, forInst, hinst', if_true, hlive, hqueue, List.any_nil, List.any_cons, Bool.or_false, Bool.and_false, Bool.false_eq_true,
      if_false, padTo_of_length hbytes, List.nil_append, modHost]
  rw [exec, execCmd, stileSend_of_ready _ hready, taken, hframes]
  show Host.Outcome.next (cmdMsg _ (sessOf k) _ _ _) = _
  rw [sessOf_val, hmsg]

/-- Releasing a command clears its HOLD flag. -/
theorem not_hold_of_released (bytes : List Byte) :
    bitOf (fieldAt (bytes.take 1 ++ (BitVec.ofNat 8 (putBits (fieldAt bytes 1 1) 2 1 0) :: bytes.drop 2)) 1 1) 2 = false := by
  cases bytes with
  | nil => rfl
  | cons b t =>
    generalize fieldAt (b :: t) 1 1 = v
    have hbit : bitOf (putBits v 2 1 0 % 256) 2 = false := by
      simp only [bitOf, putBits, beq_eq_false_iff_ne]
      omega
    exact hbit

/-- GO releases the command that its session holds, and it stays the head of the queue (R405). -/
theorem exec_go {c : Cmd} {rest : List Cmd} (hready : stileReady false s) (hheld : s.host[k].held = true) (hqueue : s.host[k].queue = c :: rest)
    (htag : c.tag < 65536) (hepoch : c.epoch < 16) (hinst : s.instLive k c.tag c.epoch = true) :
    ∃ t, exec (.go k (Fin.ofNat 65536 c.tag, Fin.ofNat 16 c.epoch)) s = .next t ∧ t.host[k].held = false ∧ t.host[k].queue.tail = rest ∧
      t.host[k].queue.head?.map (fun (x : Cmd) => (x.tag, x.epoch, bitOf (fieldAt x.bytes 1 1) 2)) = some (c.tag, c.epoch, false) ∧
      (∀ j : Fin 16, j ≠ k → t.host[j] = s.host[j]) ∧ t = { s with host := t.host, stile := framesIn false 1 (.go k c.tag c.epoch) s.stile } := by
  have hmsg (x : Stile) : ({ s with stile := x } : State).goMsg k c.tag c.epoch = ({ s with stile := x } : State).modHost k releaseHead := by
    have hinst' : ({ s with stile := x } : State).instLive k c.tag c.epoch = true := hinst
    simp only [goMsg, forInst, hinst', heldCmd, hheld, hqueue, if_true, List.head?_cons, and_self]
  have hexec : exec (.go k (Fin.ofNat 65536 c.tag, Fin.ofNat 16 c.epoch)) s =
      .next (State.goMsg { s with stile := framesIn false 1 (.go k c.tag c.epoch) s.stile } (sessOf k) c.tag c.epoch) := by
    rw [exec, execGo, stileSend_one hready (by intros; nofun) rfl, Fin.val_ofNat, Fin.val_ofNat, Nat.mod_eq_of_lt htag, Nat.mod_eq_of_lt hepoch]
    rfl
  rw [sessOf_val, hmsg] at hexec
  have hrel : releaseHead s.host[k] = { s.host[k] with held := false, queue :=
    { c with bytes := c.bytes.take 1 ++ (BitVec.ofNat 8 (putBits (fieldAt c.bytes 1 1) 2 1 0) :: c.bytes.drop 2) } :: rest } := by
      rw [releaseHead, hqueue]
  have hself : (({ s with stile := framesIn false 1 (.go k c.tag c.epoch) s.stile } : State).modHost k releaseHead).host[k] = _ :=
    (modHost_self _ k releaseHead).trans hrel
  refine ⟨_, hexec, ?_, ?_, ?_, fun j hj => modHost_ne _ k j _ hj.symm, rfl⟩
  · rw [hself]
  · rw [hself]
    rfl
  · rw [hself]
    simp only [List.head?_cons, Option.map_some, not_hold_of_released]

theorem forwardAll_off (small : Bool) (h : s.anyFwd k = false) : s.forwardAll k small = s := by
  simp only [anyFwd, Bool.or_eq_false_iff] at h
  obtain ⟨⟨h0, h1⟩, h2⟩ := h
  have hoff (r : Fin 3) (n : Nat) (h : s.fwdOn k r = false) : s.forward k r small (n + 1) = s := by
    rw [forward, h]
    rfl
  simp only [forwardAll, List.foldl_cons, List.foldl_nil]
  rw [hoff 0 _ h0, hoff 1 _ h1, hoff 2 _ h2]

/-- CREDIT reports room; where no completion waits and nothing is forwarded, it does no more (R400, R408). -/
theorem exec_credit {completion capture event data : Nat} (hready : stileReady false s) (hwait : s.host[k].waiting = []) (hfwd : s.anyFwd k = false) :
    ∃ t, exec (.credit k completion capture event data) s = .next t ∧
      t.stile.credit = s.stile.credit.filter (fun (p : Nat × Nat × Nat × Nat × Nat) => p.1 != k.val) ++ [(k.val, completion, capture, event, data)] ∧
      t = { s with stile := { framesIn false 1 (.credit k completion capture event data) s.stile with credit := t.stile.credit } } := by
  have hmsg (x : Stile) : ({ s with stile := x } : State).creditMsg k completion capture event data =
      { s with stile := { x with
        credit := x.credit.filter (fun (p : Nat × Nat × Nat × Nat × Nat) => p.1 != k.val) ++ [(k.val, completion, capture, event, data)] } } := by
    have hwait' : (({ s with stile := x } : State).modStile (fun x => { x with
        credit := x.credit.filter (fun (p : Nat × Nat × Nat × Nat × Nat) => p.1 != k.val) ++ [(k.val, completion, capture, event, data)] })).host[k].waiting = [] := hwait
    simp only [creditMsg, hwait', List.length_nil, flushWaiting]
    exact forwardAll_off false hfwd
  have hexec : exec (.credit k completion capture event data) s =
      .next (State.creditMsg { s with stile := framesIn false 1 (.credit k completion capture event data) s.stile } (sessOf k) completion capture event data) := by
    rw [exec, execCredit, stileSend_one hready (by intros; nofun) rfl]
    rfl
  rw [sessOf_val, hmsg] at hexec
  exact ⟨_, hexec, rfl, rfl⟩

end State
end Sys2Proof.Machine
end

section
/-! The Stile's messages one by one: reads and writes of host memory, and ring entries (R391, R402, R419). -/

namespace Sys2Proof.Machine

/-! ### Ring entries -/

/-- A message takes its header frames and its data frames (R416). -/
theorem frames_of_data {p : Packet} (hp : ∀ toHost h, p ≠ .bad toHost h) : p.frames = framesOf p.data.length := by
  cases p
  case bad toHost h => exact absurd rfl (hp toHost h)
  all_goals rfl

theorem fieldAt_last {init : List Byte} {n : Nat} (b : Byte) (h : init.length = n) : fieldAt (init ++ [b]) n 1 = b.toNat := by
  rw [fieldAt, List.drop_left' h]
  rfl

theorem withPhase_append (init : List Byte) (b : Byte) (p : Bool) :
    withPhase (init ++ [b]) p = init ++ [BitVec.ofNat 8 (putBits b.toNat 7 1 p.toNat)] := by
  rw [withPhase, List.dropLast_concat, List.getLast?_concat, Option.getD_some]

/-- The entry's last byte carries PHASE in its top bit, and no other byte changes (R391). -/
theorem fields_withPhase {entry : List Byte} {n : Nat} (hlen : entry.length = n + 1) (p : Bool) (hbit : bitOf (fieldAt entry n 1) 7 = false) :
    fieldAt (withPhase entry p) 0 n = fieldAt entry 0 n ∧ fieldAt (withPhase entry p) n 1 = fieldAt entry n 1 + 128 * p.toNat ∧
      (withPhase entry p).length = n + 1 := by
  obtain rfl | ⟨init, b, rfl⟩ := List.eq_nil_or_concat entry
  · exact absurd hlen (Nat.succ_ne_zero n).symm
  have hinit : init.length = n := by simpa using hlen
  rw [List.concat_eq_append] at *
  rw [fieldAt_last b hinit] at hbit
  refine ⟨?_, ?_, by simp [withPhase_append, hinit]⟩
  · rw [withPhase_append, fieldAt, fieldAt, List.drop_zero, List.drop_zero, List.take_left' hinit, List.take_left' hinit]
  · rw [withPhase_append, fieldAt_last b hinit, fieldAt_last _ hinit, BitVec.toNat_ofNat]
    have hlt := b.isLt
    generalize b.toNat = v at hbit hlt
    simp only [bitOf, beq_eq_false_iff_ne] at hbit
    cases p <;> simp only [putBits, Bool.toNat_true, Bool.toNat_false] <;> omega

namespace State

variable {s : State} {k : Fin 16}

/-! ### Host memory -/

section Outstanding

variable {inst : Option (Nat × Nat)} {addr len : Nat}

/-- A read of host memory is outstanding, where its instance is live. -/
theorem hostReadMsg_live (hinst : ∀ p ∈ inst, s.instLive k p.1 p.2 = true) :
    s.hostReadMsg ⟨k, inst, addr, len⟩ = s.modStile (fun x => { x with hostReads := x.hostReads ++ [⟨k, inst, addr, len⟩] }) := by
  rw [hostReadMsg, sessOf_val]
  cases inst with
  | none => rfl
  | some p => exact if_pos (hinst p rfl)

/-- A message for an instance that is not live is discarded and counted; where its STALE completion has been posted, that is all (R402). -/
theorem forInst_stale {tag epoch : Nat} (act : State → State) (hinst : s.instLive k tag epoch = false)
    (hposted : s.host[k].stalePosted.contains (tag, epoch) = true) : s.forInst k (some (tag, epoch)) act = s.count F.DB_CNT1_STALE [k] := by
  have hdead : ¬ s.instLive k tag epoch = true := by rw [hinst]; exact Bool.false_ne_true
  rw [← count_host s F.DB_CNT1_STALE [k] 1] at hposted
  exact (if_neg hdead).trans (if_pos hposted)

end Outstanding

theorem stileSend_hostRdReq (hready : stileReady true s) (r : HostRead) :
    s.stileSend true (.hostRdReq r) = State.hostReadMsg { s with stile := framesIn true 1 (.hostRdReq r) s.stile } r := by
  rw [stileSend_one hready (by intros; nofun) rfl]
  rfl

/-- HOST_RD_REQ asks the H-die for host memory (R402, R419). -/
theorem exec_hostRdReq {addr : Nat} (inst : Option (Fin 65536 × Fin 16)) (len : Nat) (hready : stileReady true s) (haddr : addr < 2 ^ 64) :
    exec (.hostRdReq k inst ⟨addr, len⟩) s = .next (State.hostReadMsg
      { s with stile := framesIn true 1 (.hostRdReq ⟨k, inst.map (fun p => (p.1.val, p.2.val)), addr, len⟩) s.stile }
      ⟨k, inst.map (fun p => (p.1.val, p.2.val)), addr, len⟩) := by
  rw [exec, execHostRdReq, Nat.mod_eq_of_lt haddr, stileSend_hostRdReq hready]

/-- It is outstanding from then on, where it acts for no instance or for one that is live (R402). -/
theorem exec_hostRdReq_live {addr len : Nat} {inst : Option (Fin 65536 × Fin 16)} (hready : stileReady true s) (haddr : addr < 2 ^ 64)
    (hinst : ∀ p ∈ inst.map (fun p => (p.1.val, p.2.val)), s.instLive k p.1 p.2 = true) :
    exec (.hostRdReq k inst ⟨addr, len⟩) s =
      .next { s with stile := { framesIn true 1 (.hostRdReq ⟨k, inst.map (fun p => (p.1.val, p.2.val)), addr, len⟩) s.stile with
        hostReads := s.stile.hostReads ++ [⟨k, inst.map (fun p => (p.1.val, p.2.val)), addr, len⟩] } } := by
  exact (exec_hostRdReq inst len hready haddr).trans (congrArg _ (hostReadMsg_live (s := { s with stile := _ }) hinst))

/-- For an instance that is not live it is discarded (R402). -/
theorem exec_hostRdReq_stale {tag : Fin 65536} {epoch : Fin 16} {addr len : Nat} (hready : stileReady true s) (haddr : addr < 2 ^ 64)
    (hinst : s.instLive k tag epoch = false) (hposted : s.host[k].stalePosted.contains (tag.val, epoch.val) = true) :
    ∃ t, exec (.hostRdReq k (some (tag, epoch)) ⟨addr, len⟩) s = .next t ∧ counted F.DB_CNT1_STALE [k] 1 s t ∧
      t = { s with regs := t.regs, stile := framesIn true 1 (.hostRdReq ⟨k, some (tag.val, epoch.val), addr, len⟩) s.stile } ∧
      regsSame [Reg.key .DB_CNT1 [k]] s t := by
  have hexec := exec_hostRdReq (k := k) (some (tag, epoch)) len hready haddr
  rw [Option.map_some] at hexec
  generalize framesIn true 1 (.hostRdReq ⟨k, some (tag.val, epoch.val), addr, len⟩) s.stile = x at hexec ⊢
  rw [hostReadMsg, sessOf_val, forInst_stale _ (by exact hinst) (by exact hposted)] at hexec
  refine ⟨_, hexec, ?_, rfl, ?_⟩
  · exact counted_count ({ s with stile := x } : State) F.DB_CNT1_STALE [k] 1 (by decide)
  · exact regsSame_count _ _ _ (List.mem_singleton_self _) (regsSame_other (regsSame_refl _ s) rfl)

/-- HOST_RD_DATA brings the data of its session's oldest outstanding read (R402, R419). -/
theorem exec_hostRdData {addr len : Nat} {rest : List HostRead} (data : List Byte) (hready : stileReady false s)
    (hreads : s.stile.hostReads = ⟨k, none, addr, len⟩ :: rest) :
    exec (.hostRdData k none data) s =
      .next { s with stile := { framesIn false (framesOf data.length) (.hostRdData k none data) s.stile with hostReads := rest } } := by
  have hmsg (x : Stile) (hx : x.hostReads = ⟨k, none, addr, len⟩ :: rest) :
      ({ s with stile := x } : State).hostDataMsg k none = { s with stile := { x with hostReads := rest } } := by
    simp [hostDataMsg, forInst, modStile, hx]
  have hexec : exec (.hostRdData k none data) s =
      .next (State.hostDataMsg { s with stile := framesIn false (framesOf data.length) (.hostRdData k none data) s.stile } (sessOf k) none) := by
    rw [exec, execHostRdData, stileSend_of_ready _ hready, taken, frames_of_data (by intros; nofun)]
    rfl
  rw [hexec, sessOf_val]
  exact congrArg _ (hmsg _ hreads)

/-- HOST_WR writes its bytes to host memory (R419). -/
theorem exec_hostWr {addr : Nat} (data : List Byte) (hready : stileReady true s) (haddr : addr < 2 ^ 64) :
    ∃ t, exec (.hostWr k none addr data) s = .next t ∧ memBytes t.hostMem addr data.length = data ∧ bytesKept s.hostMem t.hostMem addr data.length ∧
      t = { s with hostMem := t.hostMem, stile := framesIn true (framesOf data.length) (.msg k (.hostWr addr data none)) s.stile } := by
  have hexec : exec (.hostWr k none addr data) s = .next { s with
      hostMem := memPuts s.hostMem addr data
      stile := framesIn true (framesOf data.length) (.msg k (.hostWr addr data none)) s.stile } := by
    rw [exec, execHostWr, Nat.mod_eq_of_lt haddr, stileSend_of_ready _ hready, taken, frames_of_data (by intros; nofun)]
    rfl
  exact ⟨_, hexec, memBytes_puts _ _ _ rfl, fun b hb => memByte_puts_out _ _ _ _ hb, rfl⟩

/-- RING_POST writes its entry at the ring's write index, with the lap's PHASE (R391). -/
theorem exec_ringPost {entry : List Byte} (hready : stileReady true s) (hlen : entry.length = 64) (hroom : s.ringRoom k 2 = true)
    (hbit : bitOf (fieldAt entry 63 1) 7 = false) :
    ∃ t, exec (.ringPost k 1 none entry false) s = .next t ∧
      fieldAt (memBytes t.hostMem (s.ringBase k 2 + 64 * s.host[k].rings[2].wr) 64) 0 63 = fieldAt entry 0 63 ∧
      fieldAt (memBytes t.hostMem (s.ringBase k 2 + 64 * s.host[k].rings[2].wr) 64) 63 1 =
        fieldAt entry 63 1 + 128 * s.host[k].rings[2].phase.toNat ∧
      bytesKept s.hostMem t.hostMem (s.ringBase k 2 + 64 * s.host[k].rings[2].wr) 64 ∧
      t.host[k].rings[2].used = s.host[k].rings[2].used + 1 ∧ (∀ j : Fin 16, j ≠ k → t.host[j] = s.host[j]) ∧
      t = { s with regs := t.regs, host := t.host, hostMem := t.hostMem, irqs := t.irqs, stile := framesIn true 3 (.msg k (.ringPost 2 entry false none)) s.stile } ∧
      regsSame [Reg.key .MSIX_PBA [k, 0], Reg.key .MSIX_PBA [k, 1]] s t := by
  generalize hx : framesIn true 3 (.msg k (.ringPost 2 entry false none)) s.stile = x
  have hframes : Packet.frames (.msg k (.ringPost 2 entry false none)) = 3 :=
    frames_of_64 (by intros; nofun) (by rw [Packet.data, padTo_of_length hlen, hlen])
  have hexec : exec (.ringPost k 1 none entry false) s = .next (State.putEntry { s with stile := x } k 2 entry false) := by
    have hsend : s.stileSend true (.msg k (.ringPost 2 entry false none)) = State.deliverMsg { s with stile := x } k (.ringPost 2 entry false none) := by
      rw [stileSend_of_ready _ hready, taken, hframes, hx]
      exact congrArg (fun n => State.deliverMsg { s with stile := x } n (.ringPost 2 entry false none)) (sessOf_val k)
    have hpad : padTo (entrySize (Fin.ofNat 4 ((1 : Fin 3) + 1))) entry = entry := padTo_of_length hlen
    rw [exec, execRingPost, hpad]
    exact congrArg _ (hsend.trans (if_pos hroom))
  obtain ⟨main, irqs, ring, hused, hput, hsame⟩ := putEntry_frame { s with stile := x } k 2 entry false
  obtain ⟨hfront, hlast, hsize⟩ := fields_withPhase (n := 63) hlen s.host[k].rings[2].phase hbit
  have hmem : (State.putEntry { s with stile := x } k 2 entry false).hostMem =
      memPuts s.hostMem (s.ringBase k 2 + 64 * s.host[k].rings[2].wr) (withPhase entry s.host[k].rings[2].phase) := by
    rw [hput, Nat.mul_comm]
    rfl
  have hback := memBytes_puts s.hostMem (s.ringBase k 2 + 64 * s.host[k].rings[2].wr) _ hsize
  have hhost : (State.putEntry { s with stile := x } k 2 entry false).host = (s.setRing k 2 ring).host := by
    rw [hput]
    rfl
  refine ⟨_, hexec, ?_, ?_, ?_, ?_, ?_, ?_, regsSame_trans (regsSame_other (regsSame_refl _ s) rfl) hsame⟩
  · rw [hmem, hback, hfront]
  · rw [hmem, hback, hlast]
  · rw [hmem]
    exact fun b hb => memByte_puts_out _ _ _ _ (by rwa [hsize])
  · rw [hhost]
    exact (congrArg Ring.used (setRing_ring s k 2 ring)).trans hused
  · intro j hj
    rw [hhost]
    exact modHost_ne s k j _ hj.symm
  · rw [hput]
    rfl

end State
end Sys2Proof.Machine
end

section
/-! Frames of the Stile: the CRC, the lanes and the header's 32 bytes (R415, R418, R423). -/

namespace Sys2Proof.Machine

/-! ### Bytes of a value -/

theorem leVal_lt (bs : List Byte) : leVal bs < 256 ^ bs.length := by
  induction bs with
  | nil => simp [leVal]
  | cons b t ih =>
    have hb : b.toNat < 256 := b.isLt
    rw [leVal, List.length_cons, Nat.pow_succ]
    omega

/-- Bytes are those of their value, whatever stands above it. -/
theorem leBytes_leVal_add (bs : List Byte) (x : Nat) : leBytes bs.length (leVal bs + 256 ^ bs.length * x) = bs := by
  induction bs generalizing x with
  | nil => rfl
  | cons b t ih =>
    have hb : b.toNat < 256 := b.isLt
    have hval : leVal (b :: t) + 256 ^ (t.length + 1) * x = b.toNat + 256 * (leVal t + 256 ^ t.length * x) := by
      rw [leVal, Nat.pow_succ]
      ring
    have hhead : BitVec.ofNat 8 (b.toNat + 256 * (leVal t + 256 ^ t.length * x)) = b := by
      refine BitVec.eq_of_toNat_eq ?_
      rw [BitVec.toNat_ofNat, Nat.add_mul_mod_self_left, Nat.mod_eq_of_lt hb]
    rw [List.length_cons, hval, leBytes, hhead, Nat.add_mul_div_left _ _ (by decide), Nat.div_eq_of_lt hb, Nat.zero_add, ih]

/-! ### Frames (R415) -/

theorem crc16Bit_lt (c : Nat) (b : Bool) : crc16Bit c b < 2 ^ 16 := by
  have hmod : c * 2 % 65536 < 2 ^ 16 := Nat.mod_lt _ (by decide)
  unfold crc16Bit
  split
  · exact Nat.xor_lt_two_pow hmod (by decide)
  · exact hmod

theorem crc16_lt (bs : List Byte) : crc16 bs < 2 ^ 16 := by
  refine List.foldlRecOn (motive := (· < 2 ^ 16)) bs _ (by decide) (fun c hc b _ => ?_)
  exact List.foldlRecOn (motive := (· < 2 ^ 16)) (List.range 8) _ hc (fun c _ i _ => crc16Bit_lt c _)

/-- A number is the sum of its base-4 digits. -/
theorem sum_pairs (c n : Nat) : ((List.range n).map (fun k => bitsOf c (2 * k) 2 * 4 ^ k)).sum = c % 4 ^ n := by
  induction n with
  | zero => simp [Nat.mod_one]
  | succ n ih =>
    rw [List.range_succ, List.map_append, List.sum_append, ih, Nat.mod_pow_succ, List.map_singleton, List.sum_singleton, Nat.mul_comm (4 ^ n)]
    rw [bitsOf, Nat.pow_mul]
    rfl

/-- A list is its pieces of `m` entries in turn. -/
theorem flatMap_pieces {α : Type} (l : List α) (m n : Nat) : (List.range n).flatMap (fun k => (l.drop (m * k)).take m) = l.take (m * n) := by
  induction n with
  | zero => simp
  | succ n ih => rw [List.range_succ, List.flatMap_append, ih, Nat.mul_succ, List.take_add, List.flatMap_singleton]

/-- A lane carries four bytes of the payload, and two bits of the CRC above them. -/
theorem lane_frameOf (b : List Byte) (k : Fin 8) :
    (frameOf b).lane k = leVal ((b.drop (4 * k)).take 4) + 2 ^ 32 * bitsOf (crc16 b) (2 * k) 2 := rfl

section Lanes

variable {b : List Byte} (hlen : b.length = 32)
include hlen

theorem length_laneBytes (k : Fin 8) : ((b.drop (4 * k)).take 4).length = 4 := by
  simp only [List.length_take, List.length_drop]
  omega

theorem lane_lt (k : Fin 8) : (frameOf b).lane k < 2 ^ 34 := by
  have hval := leVal_lt ((b.drop (4 * k)).take 4)
  have hcrc : bitsOf (crc16 b) (2 * k) 2 < 4 := Nat.mod_lt _ (by decide)
  rw [length_laneBytes hlen] at hval
  rw [lane_frameOf]
  omega

theorem leBytes_lane (k : Fin 8) : leBytes 4 ((frameOf b).lane k) = (b.drop (4 * k)).take 4 := by
  have h := leBytes_leVal_add ((b.drop (4 * k)).take 4) (bitsOf (crc16 b) (2 * k) 2)
  rwa [length_laneBytes hlen] at h

theorem crcBits_lane (k : Fin 8) : bitsOf ((frameOf b).lane k) 32 2 = bitsOf (crc16 b) (2 * k) 2 := by
  have hval := leVal_lt ((b.drop (4 * k)).take 4)
  rw [length_laneBytes hlen, show 256 ^ 4 = 2 ^ 32 from rfl] at hval
  rw [lane_frameOf, bitsOf, Nat.add_mul_div_left _ _ (by decide), Nat.div_eq_of_lt hval, Nat.zero_add]
  exact Nat.mod_mod _ _

/-- The eight lanes of a frame carry the frame (R415). -/
theorem frameFrom_lanes : frameFrom (fun k => (frameOf b).lane k) = frameOf b := by
  have hbytes : (List.finRange 8).flatMap (fun k => leBytes 4 ((frameOf b).lane k)) = b := by
    simp only [leBytes_lane hlen]
    exact (flatMap_pieces b 4 8).trans (List.take_of_length_le hlen.le)
  have hcrc : ((List.finRange 8).map (fun k => bitsOf ((frameOf b).lane k) 32 2 * 4 ^ k.val)).sum = crc16 b := by
    simp only [crcBits_lane hlen]
    exact (sum_pairs (crc16 b) 8).trans (Nat.mod_eq_of_lt (crc16_lt b))
  rw [frameFrom, hbytes, hcrc]
  rfl

end Lanes

theorem frameOf_good (b : List Byte) : (frameOf b).good = true := beq_self_eq_true _

/-! ### Lanes (R414, R423) -/

section OnLane

variable (f : Frame)

theorem onLane_spared (spared : Fin 8) : f.onLane spared spared.castSucc = none := if_pos rfl

/-- The spare lane stands in for the one that has been spared. -/
theorem onLane_spare (spared : Fin 8) : f.onLane spared 8 = some (f.lane spared) := by
  have h : ((8 : Fin 9) : Nat) ≠ spared := fun e => absurd spared.isLt (by rw [← e]; decide)
  rw [Frame.onLane, if_neg h, dif_neg (by decide), dif_pos spared.isLt]

theorem onLane_of_ne {spared : Nat} {l : Fin 8} (h : l.val ≠ spared) : f.onLane spared l.castSucc = some (f.lane l) := by
  exact (if_neg h).trans (dif_pos l.isLt)

end OnLane

/-! ### Headers (R418) -/

/-- What stands behind the first value. -/
theorem drop_leBytes {n off : Nat} (v : Nat) (t : List Byte) (h : n ≤ off) : (leBytes n v ++ t).drop off = t.drop (off - n) := by
  rw [List.drop_append, length_leBytes, List.drop_eq_nil_of_le (by rwa [length_leBytes]), List.nil_append]

/-- The bits of FLAGS stand in one byte. -/
theorem flags_lt (nak notag hostReset : Bool) {r : Nat} (h : r < 32) : nak.toNat + 2 * notag.toNat + 4 * hostReset.toNat + 8 * r < 256 := by
  have := nak.toNat_le
  have := notag.toNat_le
  have := hostReset.toNat_le
  omega

theorem flags_bits (nak notag hostReset : Bool) (r : Nat) :
    bitOf (nak.toNat + 2 * notag.toNat + 4 * hostReset.toNat + 8 * r) 0 = nak ∧
    bitOf (nak.toNat + 2 * notag.toNat + 4 * hostReset.toNat + 8 * r) 1 = notag ∧
    bitOf (nak.toNat + 2 * notag.toNat + 4 * hostReset.toNat + 8 * r) 2 = hostReset ∧
    (nak.toNat + 2 * notag.toNat + 4 * hostReset.toNat + 8 * r) / 8 = r := by
  have hbit (x i : Nat) (b : Bool) (h : x / 2 ^ i % 2 = b.toNat) : bitOf x i = b := by
    rw [bitOf, h]
    cases b <;> rfl
  have := nak.toNat_le
  have := notag.toNat_le
  have := hostReset.toNat_le
  exact ⟨hbit _ 0 _ (by omega), hbit _ 1 _ (by omega), hbit _ 2 _ (by omega), by omega⟩

/-- The 32 bytes of a header spell it. -/
theorem headerOf_bytes {h : Header} (htyp : h.typ < 256) (hres : h.reserved < 32) (htag : h.tag < 65536) (hsess : h.session < 16) (hepoch : h.epoch < 16)
    (hdata : h.ndata < 256) (hack : h.ack < 65536) (haddr : h.addr < 2 ^ 64) (hinl : h.inline_.length = 16) :
    h.bytes.length = 32 ∧ headerOf h.bytes = h := by
  refine ⟨by simp [Header.bytes, padTo_of_length hinl, hinl], ?_⟩
  obtain ⟨typ, nak, notag, hostReset, reserved, tag, session, epoch, ndata, ack, addr, inl⟩ := h
  have hflags := flags_lt nak notag hostReset hres
  obtain ⟨hnak, hnotag, hreset, hrest⟩ := flags_bits nak notag hostReset reserved
  dsimp only at htyp hres htag hsess hepoch hdata hack haddr hinl
  simp (disch := omega) only [headerOf, Header.bytes, fieldAt_skip, drop_leBytes, Nat.reduceSub, fieldAt_head, padTo_of_length hinl, Nat.reducePow,
    Nat.mod_eq_of_lt, hnak, hnotag, hreset, hrest, List.drop_zero, Nat.add_mul_mod_self_left, Nat.add_mul_div_left, Nat.div_eq_of_lt, Nat.zero_add]

end Sys2Proof.Machine
end

section
/-! The messages of the Stile have their effects (R23, R391, R402, R405, R408, R414–R416, R418–R423, R425). -/

namespace Sys2Proof.Machine

open State

/-- A register write over a clear Stile does at the F-die the same, whether REG_WR brings it or BAR0. -/
theorem exec_bar0Write_field {s : State} {off : Fin 1048576} (v : Word) (halign : off.val % 4 = 0) (hoff : keyOnHost off = false) (hcross : crosses s) :
    exec (.bar0Write none off v) s = .next (State.bar0Put { s with stile := framesDown 1 s.stile } (s.regKey off) v State.regWrite) := by
  have hdown : (if keyOnHost off then s else s.down 1) = s.down 1 := if_neg (by rw [hoff]; exact Bool.false_ne_true)
  rw [exec_bar0Write s off v halign, hostWriteReg_eq v (Or.inr hcross), hdown]

/-- Settles O51: over a clear direction a message is accepted as it is sent (`stileSend_of_ready`), so each of its rows is the message's own act; frames and
headers are read back from the bits that they are made of. -/
theorem theStileCarriesMessages : Obligations.TheStileCarriesMessages := by
  unfold Obligations.TheStileCarriesMessages
  refine ⟨?_, ?_, ?_, ?_, ?_, ?_, ?_, ?_, ?_, ?_, ?_, ?_, ?_, ?_, ?_, ?_, ?_, ?_, ?_⟩
  · exact fun toHost n s hready => exec_idle n hready
  · exact fun toHost typ bits n s hready => ⟨_, rfl, stileSend_bad (badHeader typ bits n) hready⟩
  · exact fun toHost typ n s hready => ⟨_, rfl, stileSend_bad (badHeader typ 0 n) hready⟩
  · exact fun s => exec_state_up
  · exact fun toHost lane s => exec_lane lane
  · exact fun off v s hready halign hoff hcross => ⟨exec_regWr v hready halign hoff, exec_bar0Write_field v halign hoff hcross⟩
  · exact fun off s => exec_regRd
  · exact fun v s => exec_regRsp v
  · exact fun k tag epoch bytes s => exec_cmd
  · exact fun k c rest s => exec_go
  · exact fun k completion capture event data s => exec_credit
  · exact fun k addr len s hready haddr => exec_hostRdReq_live hready haddr nofun
  · exact fun k tag epoch addr len s hready haddr =>
      ⟨fun hinst => exec_hostRdReq_live hready haddr (by simpa using hinst), exec_hostRdReq_stale hready haddr⟩
  · exact fun k addr len rest data s => exec_hostRdData data
  · exact fun k addr data s => exec_hostWr data
  · exact fun k entry s => exec_ringPost
  · exact fun b hlen => ⟨frameOf_good b, frameFrom_lanes hlen, fun k => ⟨lane_lt hlen k, rfl⟩⟩
  · exact fun b spared _ => ⟨onLane_spared _ spared, onLane_spare _ spared, fun l hl => onLane_of_ne _ (fun e => hl (Fin.ext e)),
      fun l => onLane_of_ne _ (by omega), rfl⟩
  · exact fun h htyp hres htag hsess hepoch hdata hack haddr hinl => headerOf_bytes htyp hres htag hsess hepoch hdata hack haddr hinl

end Sys2Proof.Machine
end

section
/-! What the operations of the time base do: its events, its states, the holdover and the loss of REFIN (R55, R61, R64–R67, R76). -/

namespace Sys2Proof.Machine

/-! ### Bits of a word -/

theorem bitOf_iff (v i : Nat) : bitOf v i = true ↔ bitsOf v i 1 = 1 := by simp [bitOf, bitsOf]

/-- A bit set is a field of one bit that takes 1. -/
theorem withBit_eq_putBits (v i : Nat) : withBit v i = putBits v i 1 1 := by
  have hlow : v / 2 ^ i * 2 ^ i + v % 2 ^ i = v := by rw [Nat.mul_comm]; exact Nat.div_add_mod _ _
  have hhigh : v / 2 ^ (i + 1) = v / 2 ^ i / 2 := by rw [Nat.pow_succ, Nat.div_div_eq_div_mul]
  have hdiv := Nat.div_add_mod (v / 2 ^ i) 2
  unfold withBit putBits bitOf
  rw [hhigh, Nat.pow_succ, show 1 % 2 ^ 1 = 1 from rfl]
  generalize v / 2 ^ i = q at *
  generalize 2 ^ i = p at *
  rcases Nat.mod_two_eq_zero_or_one q with h | h
  · simp only [h, Nat.reduceBEq, Bool.false_eq_true, if_false]
    rw [show q = 2 * (q / 2) by omega] at hlow
    linarith
  · simp only [h, beq_self_eq_true, if_true]
    rw [show q = 2 * (q / 2) + 1 by omega] at hlow
    linarith

namespace State

/-- A W1C field that was set stays set as another field of its register, or it itself, is set. -/
theorem freshK_raise_bit {s : State} {f : Fld} {i k : Nat} (hf : f.lsb < 32) (hw : f.width = 1) (h : bitOf (s.freshK k).toNat i = true) :
    bitOf ((s.raise f []).freshK k).toNat i = true := by
  by_cases hk : k = f.reg.key []
  · subst hk
    rw [bitOf_iff] at h ⊢
    have hself := freshK_raise_self s f [] (by omega)
    rw [hw] at hself
    rcases Nat.lt_trichotomy i f.lsb with hlt | rfl | hgt
    · rw [raise, freshK_putFresh_self, putBits_bits _ _ _ _ (by omega), bitsOf_putBits_below _ _ _ _ _ _ (by omega), h]
    · exact hself
    · rw [raise, freshK_putFresh_self, putBits_bits _ _ _ _ (by omega), bitsOf_putBits_above _ _ _ _ _ _ (by omega), h]
  · rw [freshK_raise_ne _ _ _ _ hk, h]

/-! ### Events (R76) -/

/-- The field of TB_EVENTS of an event. -/
def eventFld (bit : Nat) : Fld := ⟨.TB_EVENTS, bit, 1⟩

/-- An event sets its bit of TB_EVENTS, and its Hedgerow pulse waits for the next event-clock edge (R318). -/
theorem tbEvent_eq (s : State) (bit : Nat) : s.tbEvent bit = (s.raise (eventFld bit)).defer 1 (.tbPulse bit) := by
  rw [tbEvent, withBit_eq_putBits]
  rfl

/-- The event `bit` of the time base stands in TB_EVENTS among what this event cycle added. -/
def EventSet (bit : Nat) (t : State) : Prop := bitOf (t.freshK (Reg.key .TB_EVENTS [])).toNat bit = true

theorem eventSet_tbEvent (s : State) {bit : Nat} (h : bit < 32) : EventSet bit (s.tbEvent bit) := by
  rw [EventSet, bitOf_iff, tbEvent_eq]
  exact freshK_raise_self s (eventFld bit) [] h

/-- An event leaves those set that were. -/
theorem EventSet.tbEvent {s : State} {b c : Nat} (h : EventSet b s) (hc : c < 32) : EventSet b (s.tbEvent c) := by
  rw [EventSet, tbEvent_eq, defer_freshK]
  exact freshK_raise_bit hc rfl h

@[simp] theorem tbEvent_get (s : State) (bit : Nat) (f : Fld) (ix : List Nat) : (s.tbEvent bit).get f ix = s.get f ix := (rfl)
@[simp] theorem tbEvent_act (s : State) (bit : Nat) (f : Fld) (ix : List Nat) : (s.tbEvent bit).act f ix = s.act f ix := (rfl)
@[simp] theorem tbEvent_tb (s : State) (bit : Nat) : (s.tbEvent bit).tb = s.tb := (rfl)

theorem regsSame_tbEvent {ks : List Nat} {s t : State} (bit : Nat) (hk : Reg.key .TB_EVENTS [] ∈ ks) (h : regsSame ks s t) :
    regsSame ks s (t.tbEvent bit) := by
  rw [tbEvent_eq]
  exact regsSame_other (regsSame_raise (eventFld bit) [] hk h) rfl

/-! ### What the time base's operations may change -/

/-- `t` is `s` but for registers, the time base, what waits for an event-clock edge, and the quality met by sessions, instances and trigger units. -/
def TbOnly (s t : State) : Prop :=
  ∃ regs tb sess host trigs due, t = { s with regs := regs, tb := tb, sess := sess, host := host, trigs := trigs, due := due }

theorem TbOnly.refl (s : State) : TbOnly s s := ⟨_, _, _, _, _, _, rfl⟩

theorem TbOnly.trans {s t u : State} (h : TbOnly s t) (g : TbOnly t u) : TbOnly s u := by
  obtain ⟨_, _, _, _, _, _, rfl⟩ := h
  obtain ⟨_, _, _, _, _, _, rfl⟩ := g
  exact ⟨_, _, _, _, _, _, rfl⟩

theorem TbOnly.memSame {s t : State} (h : TbOnly s t) : memSame s t := by
  obtain ⟨_, _, _, _, _, _, rfl⟩ := h
  exact memSame_refl s

/-- Such an update leaves the memories as an earlier state had them. -/
theorem TbOnly.memSame_of {s t u : State} (h : TbOnly t u) (g : Machine.memSame s t) : Machine.memSame s u := by
  obtain ⟨_, _, _, _, _, _, rfl⟩ := h
  exact memSame_other g rfl rfl rfl rfl

theorem TbOnly.slices {s t : State} (h : TbOnly s t) : t.slices = s.slices := by
  obtain ⟨_, _, _, _, _, _, rfl⟩ := h
  rfl

theorem TbOnly.stile {s t : State} (h : TbOnly s t) : t.stile = s.stile := by
  obtain ⟨_, _, _, _, _, _, rfl⟩ := h
  rfl

theorem TbOnly.aos {s t : State} (h : TbOnly s t) : t.aos = s.aos := by
  obtain ⟨_, _, _, _, _, _, rfl⟩ := h
  rfl

theorem tbOnly_set (s : State) (f : Fld) (ix : List Nat) (v : Nat) : TbOnly s (s.set f ix v) := ⟨_, _, _, _, _, _, rfl⟩

theorem tbOnly_modTb (s : State) (f : TimeBase → TimeBase) : TbOnly s (s.modTb f) := ⟨_, _, _, _, _, _, rfl⟩

theorem tbOnly_tbEvent (s : State) (bit : Nat) : TbOnly s (s.tbEvent bit) := ⟨_, _, _, _, _, _, rfl⟩

/-! ### States (R61) -/

/-- Entering a state writes its code; the phase error last shown stays, and what is in hand meets the state's quality. -/
theorem tbEnter_eq (s : State) (st : Nat) : ∃ tb sess host trigs,
    s.tbEnter st = { s.set F.TB_STATUS_STATE [] st with tb := tb, sess := sess, host := host, trigs := trigs } ∧
    ∃ pulses, tb = { s.tb with phase := s.phaseNow, phaseAt := s.now, pulses := pulses } := by
  unfold tbEnter
  dsimp only
  split
  · exact ⟨_, _, _, _, rfl, s.tb.pulses, rfl⟩
  · exact ⟨_, _, _, _, rfl, _, rfl⟩

theorem tbOnly_tbEnter (s : State) (st : Nat) : TbOnly s (s.tbEnter st) := by
  obtain ⟨_, _, _, _, e, -⟩ := tbEnter_eq s st
  rw [e]
  exact ⟨_, _, _, _, _, _, rfl⟩

@[simp] theorem tbEnter_regs (s : State) (st : Nat) : (s.tbEnter st).regs = (s.set F.TB_STATUS_STATE [] st).regs := by
  obtain ⟨_, _, _, _, e, -⟩ := tbEnter_eq s st
  rw [e]

/-- What entering a state leaves of the time base: its phase error and the pulses in hand apart, everything. -/
theorem tbEnter_tb (s : State) (st : Nat) :
    ∃ phase phaseAt pulses, (s.tbEnter st).tb = { s.tb with phase := phase, phaseAt := phaseAt, pulses := pulses } := by
  obtain ⟨_, _, _, _, e, pulses, htb⟩ := tbEnter_eq s st
  rw [e, htb]
  exact ⟨_, _, _, rfl⟩

/-- Registers that are equal read equal. -/
theorem get_of_regs {s t : State} (h : s.regs = t.regs) (f : Fld) (ix : List Nat) : s.get f ix = t.get f ix := by
  rw [get, get, getK, getK, h]

theorem freshK_of_regs {s t : State} (h : s.regs = t.regs) (k : Nat) : s.freshK k = t.freshK k := by rw [freshK, freshK, h]

theorem tbEnter_get (s : State) (st : Nat) (f : Fld) (ix : List Nat) : (s.tbEnter st).get f ix = (s.set F.TB_STATUS_STATE [] st).get f ix :=
  get_of_regs (tbEnter_regs s st) f ix

theorem tbEnter_state (s : State) {st : Nat} (h : st < 8) : (s.tbEnter st).get F.TB_STATUS_STATE = st := by
  rw [tbEnter_get, get_set_self _ _ _ _ (by decide)]
  exact Nat.mod_eq_of_lt h

theorem regsSame_tbEnter {ks : List Nat} {s t : State} (st : Nat) (hk : Reg.key .TB_STATUS [] ∈ ks) (h : regsSame ks s t) :
    regsSame ks s (t.tbEnter st) :=
  regsSame_other (regsSame_set F.TB_STATUS_STATE [] st hk h) (tbEnter_regs t st)

/-! ### The holdover and the loss of REFIN (R55, R64, R67) -/

/-- HOLDOVER as it is entered, before HOLD_LIMIT is judged. -/
def heldOver (s : State) (word : Nat) : State :=
  (((s.tbEnter 3).modTb (fun t => { t with heldWord := word, holdStart := some s.now })).set F.TB_HOLD_LAST_HOLD [] 0).tbEvent 3

/-- A HOLD_LIMIT of 0 puts the epoch in doubt on every holdover (R67). -/
theorem enterHoldover_eq (s : State) (word : Nat) : s.enterHoldover word =
    if (s.heldOver word).get F.TB_HOLD_HOLD_LIMIT = 0 then (s.heldOver word).set F.TB_STATUS_EPOCH_SUSPECT [] 1 else s.heldOver word := (rfl)

theorem heldOver_get (s : State) (word : Nat) (f : Fld) (ix : List Nat) :
    (s.heldOver word).get f ix = ((s.set F.TB_STATUS_STATE [] 3).set F.TB_HOLD_LAST_HOLD [] 0).get f ix := by
  have hregs : ((s.tbEnter 3).set F.TB_HOLD_LAST_HOLD [] 0).regs = ((s.set F.TB_STATUS_STATE [] 3).set F.TB_HOLD_LAST_HOLD [] 0).regs := by
    rw [set, putK, getK, tbEnter_regs]
    rfl
  exact get_of_regs (s := (s.tbEnter 3).set F.TB_HOLD_LAST_HOLD [] 0) hregs f ix

theorem heldOver_limit (s : State) (word : Nat) : (s.heldOver word).get F.TB_HOLD_HOLD_LIMIT = s.get F.TB_HOLD_HOLD_LIMIT := by
  simp (disch := decide) only [heldOver_get, get_set_field, get_set_key]

/-- What a holdover shows in TB_STATUS and TB_HOLD. -/
theorem enterHoldover_state (s : State) (word : Nat) : (s.enterHoldover word).get F.TB_STATUS_STATE = 3 := by
  rw [enterHoldover_eq]
  split <;> simp (disch := decide) only [heldOver_get, get_set_field, get_set_self] <;> rfl

theorem enterHoldover_suspect (s : State) (word : Nat) : (s.enterHoldover word).get F.TB_STATUS_EPOCH_SUSPECT =
    if s.get F.TB_HOLD_HOLD_LIMIT = 0 then 1 else s.get F.TB_STATUS_EPOCH_SUSPECT := by
  rw [enterHoldover_eq, heldOver_limit]
  split
  · rw [get_set_self _ _ _ _ (by decide)]
    rfl
  · simp (disch := decide) only [heldOver_get, get_set_field]

theorem enterHoldover_hold (s : State) (word : Nat) : (s.enterHoldover word).get F.TB_HOLD_LAST_HOLD = 0 ∧
    (s.enterHoldover word).get F.TB_HOLD_HOLD_LIMIT = s.get F.TB_HOLD_HOLD_LIMIT := by
  rw [enterHoldover_eq]
  split <;> simp (disch := decide) only [heldOver_get, get_set_field, get_set_key, get_set_self] <;> simp

/-- Fields of TB_STATUS that a holdover leaves. -/
theorem enterHoldover_ref (s : State) (word : Nat) : (s.enterHoldover word).get F.TB_STATUS_REF_PRESENT = s.get F.TB_STATUS_REF_PRESENT ∧
    (s.enterHoldover word).get F.TB_STATUS_REF_IN_RANGE = s.get F.TB_STATUS_REF_IN_RANGE := by
  rw [enterHoldover_eq]
  split <;> simp (disch := decide) only [heldOver_get, get_set_field, and_self]

theorem enterHoldover_tb (s : State) (word : Nat) : ∃ phase phaseAt pulses, (s.enterHoldover word).tb =
    { s.tb with phase := phase, phaseAt := phaseAt, pulses := pulses, heldWord := word, holdStart := some s.now } := by
  obtain ⟨phase, phaseAt, pulses, htb⟩ := tbEnter_tb s 3
  have hheld : (s.heldOver word).tb =
      { s.tb with phase := phase, phaseAt := phaseAt, pulses := pulses, heldWord := word, holdStart := some s.now } := by
    rw [heldOver, tbEvent_tb, set_tb, modTb_tb, htb]
  refine ⟨phase, phaseAt, pulses, ?_⟩
  rw [enterHoldover_eq, ← hheld]
  split
  · exact set_tb _ _ _ _
  · rfl

theorem enterHoldover_events {s : State} {b : Nat} (word : Nat) (h : b = 3 ∨ EventSet b s) : EventSet b (s.enterHoldover word) := by
  have hset : EventSet b (s.heldOver word) := by
    rcases h with rfl | h
    · exact eventSet_tbEvent _ (by decide)
    · refine EventSet.tbEvent ?_ (by decide)
      rw [EventSet] at h ⊢
      rw [← h, freshK_set, modTb_freshK, freshK_of_regs (tbEnter_regs s 3), freshK_set]
  rw [EventSet] at hset ⊢
  rw [enterHoldover_eq]
  split
  · rw [freshK_set, hset]
  · exact hset

theorem tbOnly_enterHoldover (s : State) (word : Nat) : TbOnly s (s.enterHoldover word) := by
  have hheld : TbOnly s (s.heldOver word) :=
    (((tbOnly_tbEnter s 3).trans (tbOnly_modTb _ _)).trans (tbOnly_set _ _ _ _)).trans (tbOnly_tbEvent _ _)
  rw [enterHoldover_eq]
  split
  · exact hheld.trans (tbOnly_set _ _ _ _)
  · exact hheld

/-- The registers that a loss of REFIN may change: TB_STATUS, TB_HOLD, TB_EVENTS, and the count of detector 0x0E. -/
abbrev lossKeys : List Nat := [Reg.key .TB_STATUS [], Reg.key .TB_HOLD [], Reg.key .TB_EVENTS [], Reg.key .FLT_CNT [13]]

theorem regsSame_enterHoldover {s t : State} (word : Nat) (h : regsSame lossKeys s t) : regsSame lossKeys s (t.enterHoldover word) := by
  have hmod := regsSame_other (regsSame_tbEnter 3 (by simp) h) (modTb_regs _ (fun tb => { tb with heldWord := word, holdStart := some t.now }))
  have hheld : regsSame lossKeys s (t.heldOver word) :=
    regsSame_tbEvent 3 (by simp) (regsSame_set F.TB_HOLD_LAST_HOLD [] 0 (by simp [F.TB_HOLD_LAST_HOLD]) hmod)
  rw [enterHoldover_eq]
  split
  · exact regsSame_set F.TB_STATUS_EPOCH_SUSPECT [] 1 (by simp [F.TB_STATUS_EPOCH_SUSPECT]) hheld
  · exact hheld

/-- REFIN's qualification ends: the event and the detector's count (R55, R57, R455). -/
def unqualified (s : State) : State := ((s.modTb (fun t => { t with qualified := false })).tbEvent 0).count F.FLT_CNT_COUNT [13]

@[simp] theorem unqualified_get (s : State) (f : Fld) (ix : List Nat) : s.unqualified.get f ix = s.get f ix := by
  rw [unqualified, get_count, tbEvent_get, modTb_get]

@[simp] theorem unqualified_tb (s : State) : s.unqualified.tb = { s.tb with qualified := false } := by
  rw [unqualified, count_tb, tbEvent_tb, modTb_tb]

theorem unqualified_now (s : State) : s.unqualified.now = s.now := by rw [now, unqualified_tb, now]

theorem unqualified_events (s : State) : EventSet 0 s.unqualified := by
  rw [EventSet, unqualified, freshK_count_ne _ _ _ _ _ (by decide)]
  exact eventSet_tbEvent _ (by decide)

theorem tbOnly_unqualified (s : State) : TbOnly s s.unqualified := ⟨_, _, _, _, _, _, rfl⟩

theorem regsSame_unqualified {s t : State} (h : regsSame lossKeys s t) : regsSame lossKeys s t.unqualified :=
  regsSame_count F.FLT_CNT_COUNT [13] 1 (by simp [F.FLT_CNT_COUNT]) (regsSame_tbEvent 0 (by simp) (regsSame_other h (modTb_regs t _)))

/-- A loss of REFIN that the PLL follows enters HOLDOVER (R61). -/
theorem loseRef_of_following {s : State} (word : Nat) (h : s.get F.TB_STATUS_STATE = 2 ∨ s.get F.TB_STATUS_STATE = 4) :
    s.loseRef word = s.unqualified.enterHoldover word := by
  have hdetect : ((s.modTb (fun t => { t with qualified := false })).tbEvent 0).detect 0x0E 0 .policy false none = s.unqualified := by
    rw [detect, if_neg (by simp)]
    rfl
  have hstate : s.unqualified.tbState = s.get F.TB_STATUS_STATE := unqualified_get _ _ _
  unfold loseRef
  simp only [hdetect, hstate]
  rcases h with h | h <;> simp only [h]


/-- `t` is `s` after the loss of a REFIN that its PLL followed: the event, and HOLDOVER with the averaged word (R55, R61, R64, R67). -/
structure LostTo (word : Nat) (s t : State) : Prop where
  state : t.get F.TB_STATUS_STATE = 3
  ref : t.get F.TB_STATUS_REF_PRESENT = s.get F.TB_STATUS_REF_PRESENT ∧ t.get F.TB_STATUS_REF_IN_RANGE = s.get F.TB_STATUS_REF_IN_RANGE
  hold : t.get F.TB_HOLD_LAST_HOLD = 0 ∧ t.get F.TB_HOLD_HOLD_LIMIT = s.get F.TB_HOLD_HOLD_LIMIT
  suspect : t.get F.TB_STATUS_EPOCH_SUSPECT = if s.get F.TB_HOLD_HOLD_LIMIT = 0 then 1 else s.get F.TB_STATUS_EPOCH_SUSPECT
  tb : ∃ phase phaseAt pulses, t.tb =
    { s.tb with qualified := false, phase := phase, phaseAt := phaseAt, pulses := pulses, heldWord := word, holdStart := some s.now }
  events : EventSet 0 t ∧ EventSet 3 t
  only : TbOnly s t
  regs : regsSame lossKeys s t

theorem lostTo_loseRef {s : State} (word : Nat) (h : s.get F.TB_STATUS_STATE = 2 ∨ s.get F.TB_STATUS_STATE = 4) : LostTo word s (s.loseRef word) := by
  have hgets (f : Fld) (ix : List Nat) : s.unqualified.get f ix = s.get f ix := unqualified_get s f ix
  rw [loseRef_of_following word h]
  exact {
    state := enterHoldover_state _ word
    ref := by simpa only [hgets] using enterHoldover_ref s.unqualified word
    hold := by simpa only [hgets] using enterHoldover_hold s.unqualified word
    suspect := by simpa only [hgets] using enterHoldover_suspect s.unqualified word
    tb := by simpa only [unqualified_tb, unqualified_now] using enterHoldover_tb s.unqualified word
    events := ⟨enterHoldover_events word (Or.inr (unqualified_events s)), enterHoldover_events word (Or.inl rfl)⟩
    only := (tbOnly_unqualified s).trans (tbOnly_enterHoldover _ _)
    regs := regsSame_enterHoldover word (regsSame_unqualified (regsSame_refl _ s)) }

/-- Leaving FAULT ends no holdover (R63). -/
theorem reacquire_of_fault {s : State} (h : s.get F.TB_STATUS_STATE = 5) : s.reacquire = s.tbEnter (if s.tb.qualified then 1 else 0) := by
  have hstate : s.tbState ≠ 3 := fun e => absurd (h.symm.trans e) (by decide)
  unfold reacquire
  simp only [if_neg hstate]

end State
end Sys2Proof.Machine
end

section
/-! Losing the reference, judging it, and the states that the time base moves through (R54–R57, R61–R67). -/

namespace Sys2Proof.Machine

open State

/-! ### The rows as commands -/

section Rows

variable {s : State}

theorem exec_refLost (word : Nat) : exec (.refLost word) s = .next (if s.get F.TB_STATUS_REF_PRESENT = 1 then
    ((s.set F.TB_STATUS_REF_PRESENT [] 0).set F.TB_STATUS_REF_IN_RANGE [] 0).loseRef word else s) := rfl

theorem exec_lockTrip (word : Nat) : exec (.lockTrip word) s =
    .next (if s.get F.TB_STATUS_STATE = 2 ∨ s.get F.TB_STATUS_STATE = 4 then s.modTb (fun t => { t with trip := some word }) else s) := rfl

theorem exec_lockTripCompare_none {ppm : Nat} (h : s.tb.trip = none) : exec (.lockTripCompare ppm) s = .next s := by
  rw [exec, execLockTripCompare, h]

/-- The machine as the comparison finds REFIN out of range. -/
def outOfRange (s : State) : State := (s.modTb (fun t => { t with trip := none })).set F.TB_STATUS_REF_IN_RANGE [] 0

/-- A comparison above 200 ppm loses the reference (R56). -/
theorem exec_lockTripCompare_far {ppm word : Nat} (h : s.tb.trip = some word) (hstate : s.get F.TB_STATUS_STATE = 2) (hppm : 200 < ppm) :
    exec (.lockTripCompare ppm) s = .next ((outOfRange s).loseRef word) := by
  have htb : (s.modTb (fun t => { t with trip := none })).tbState = 2 := hstate
  rw [exec, execLockTripCompare, h]
  simp only [htb, hppm, true_or, if_true]
  rfl

theorem exec_lockTripCompare_next (ppm : Nat) (s : State) : ∃ t, exec (.lockTripCompare ppm) s = .next t := by
  rw [exec, execLockTripCompare]
  cases s.tb.trip with
  | none => exact ⟨s, rfl⟩
  | some w =>
    dsimp only
    split
    · split
      · exact ⟨_, rfl⟩
      · exact ⟨_, rfl⟩
    · exact ⟨_, rfl⟩

theorem exec_relock (h : crosses s) : exec .relock s = .next (s.down 1).relock := by
  rw [exec, execRelock, hostStrobe, toField_of_crosses h, frames_barWr]

end Rows

/-! ### The reference is lost -/

section ReferenceLost

variable {s : State} (word : Nat)

/-- REFIN shown absent and out of range. -/
def refAbsent (s : State) : State := (s.set F.TB_STATUS_REF_PRESENT [] 0).set F.TB_STATUS_REF_IN_RANGE [] 0

theorem refAbsent_limit : (refAbsent s).get F.TB_HOLD_HOLD_LIMIT = s.get F.TB_HOLD_HOLD_LIMIT := by
  simp (disch := decide) only [refAbsent, get_set_key]

theorem refAbsent_status : (refAbsent s).get F.TB_STATUS_STATE = s.get F.TB_STATUS_STATE ∧
    (refAbsent s).get F.TB_STATUS_EPOCH_SUSPECT = s.get F.TB_STATUS_EPOCH_SUSPECT ∧
    (refAbsent s).get F.TB_STATUS_REF_PRESENT = 0 ∧ (refAbsent s).get F.TB_STATUS_REF_IN_RANGE = 0 := by
  simp (disch := decide) only [refAbsent, get_set_field, get_set_self, Nat.zero_mod, and_self]

theorem refAbsent_tb : (refAbsent s).tb = s.tb := by rw [refAbsent, set_tb, set_tb]

theorem regsSame_refAbsent : regsSame lossKeys s (refAbsent s) :=
  regsSame_set F.TB_STATUS_REF_IN_RANGE [] 0 (by simp [F.TB_STATUS_REF_IN_RANGE])
    (regsSame_set F.TB_STATUS_REF_PRESENT [] 0 (by simp [F.TB_STATUS_REF_PRESENT]) (regsSame_refl _ s))

theorem tbOnly_refAbsent : TbOnly s (refAbsent s) := (tbOnly_set _ _ _ _).trans (tbOnly_set _ _ _ _)

/-- The comparison's own writes leave the rest of TB_STATUS. -/
theorem outOfRange_status : (outOfRange s).get F.TB_STATUS_STATE = s.get F.TB_STATUS_STATE ∧ (outOfRange s).get F.TB_STATUS_REF_IN_RANGE = 0 := by
  simp (disch := decide) only [outOfRange, get_set_field, get_set_self, modTb_get, Nat.zero_mod, and_self]

theorem outOfRange_tb : (outOfRange s).tb = { s.tb with trip := none } := by rw [outOfRange, set_tb, modTb_tb]

theorem regsSame_outOfRange : regsSame lossKeys s (outOfRange s) :=
  regsSame_set F.TB_STATUS_REF_IN_RANGE [] 0 (by simp [F.TB_STATUS_REF_IN_RANGE]) (regsSame_other (regsSame_refl _ s) rfl)

theorem tbOnly_outOfRange : TbOnly s (outOfRange s) := (tbOnly_modTb _ _).trans (tbOnly_set _ _ _ _)

end ReferenceLost

/-- RELOCK in FAULT (R63). -/
theorem relock_of_fault {s : State} (h : s.get F.TB_STATUS_STATE = 5) : s.relock = s.tbEnter (if s.tb.qualified then 1 else 0) :=
  (if_pos h).trans (reacquire_of_fault h)

/-- Settles O3: a REFIN that the PLL followed is lost as `LostTo` says, by its presence detector and by the comparison alike; RELOCK enters a state as
`tbEnter` does. -/
theorem theReferenceIsLost : Obligations.TheReferenceIsLost := by
  unfold Obligations.TheReferenceIsLost
  refine ⟨fun word s => ?_, fun word s => ?_, fun ppm s => ?_, fun s hcross => ?_⟩
  · refine ⟨_, exec_refLost word, fun h => if_neg h, fun hp hst => ?_⟩
    obtain ⟨hstate, hsuspect, hpresent, hrange⟩ := refAbsent_status (s := s)
    rw [if_pos hp]
    rw [← hstate] at hst
    obtain ⟨h3, ⟨hp', hr'⟩, ⟨hlast, hlim⟩, hsus, ⟨_, _, _, htb⟩, ⟨he0, he3⟩, honly, hregs⟩ := lostTo_loseRef word hst
    rw [refAbsent_tb, now, refAbsent_tb] at htb
    rw [refAbsent_limit, hsuspect] at hsus
    have hall := tbOnly_refAbsent.trans honly
    refine ⟨h3, hp'.trans hpresent, hr'.trans hrange, congrArg (·.qualified) htb, congrArg (·.heldWord) htb, congrArg (·.holdStart) htb,
      congrArg (·.tbc) htb, hlast, hlim.trans refAbsent_limit, hsus, he0, he3, hall.memSame, hall.slices, hall.aos,
      regsSame_trans regsSame_refAbsent hregs⟩
  · exact ⟨_, exec_lockTrip word, fun h => if_pos h, fun h2 h4 => if_neg (not_or.mpr ⟨h2, h4⟩)⟩
  · obtain ⟨t, ht⟩ := exec_lockTripCompare_next ppm s
    refine ⟨t, ht, fun hnone => ?_, fun word hsome hst hppm => ?_⟩
    · rw [exec_lockTripCompare_none hnone] at ht
      exact (Host.Outcome.next.inj ht).symm
    · rw [exec_lockTripCompare_far hsome hst hppm] at ht
      obtain rfl := Host.Outcome.next.inj ht
      obtain ⟨hstate, hrange⟩ := outOfRange_status (s := s)
      obtain ⟨h3, ⟨-, hr'⟩, -, -, ⟨_, _, _, htb⟩, -, honly, hregs⟩ := lostTo_loseRef word (Or.inl (hstate.trans hst))
      rw [outOfRange_tb] at htb
      exact ⟨h3, hr'.trans hrange, congrArg (·.trip) htb, congrArg (·.heldWord) htb, congrArg (·.qualified) htb,
        (tbOnly_outOfRange.trans honly).memSame, regsSame_trans regsSame_outOfRange hregs⟩
  · refine ⟨_, exec_relock hcross, ?_⟩
    by_cases h5 : s.get F.TB_STATUS_STATE = 5
    · obtain ⟨_, _, _, htb⟩ := tbEnter_tb (s.down 1) (if s.tb.qualified then 1 else 0)
      have honly := tbOnly_tbEnter (s.down 1) (if s.tb.qualified then 1 else 0)
      rw [relock_of_fault (s := s.down 1) h5]
      refine ⟨congrArg (·.qualified) htb, honly.stile, fun h => absurd h5 h, fun _ => ⟨tbEnter_state _ ?_, honly.memSame, ?_⟩⟩
      · split <;> decide
      · exact regsSame_tbEnter _ (by simp) (regsSame_other (regsSame_refl _ s) rfl)
    · have hstay : (s.down 1).relock = s.down 1 := if_neg h5
      rw [hstay]
      exact ⟨rfl, rfl, fun _ => rfl, fun h => absurd h h5⟩

/-- Settles O4: the window's end writes REF_PRESENT and REF_IN_RANGE; a REFIN that was not in range has nothing to lose. -/
theorem aWindowJudgesTheReference : Obligations.AWindowJudgesTheReference := by
  unfold Obligations.AWindowJudgesTheReference
  intro present throughout count word s
  refine ⟨_, rfl, fun hwas => ?_⟩
  rw [if_neg (by simp [hwas])]
  refine ⟨?_, fun hfreq => ?_, rfl, ?_⟩
  · simp (disch := decide) only [get_set_field, get_set_self]
    exact Nat.mod_eq_of_lt (Bool.toNat_lt _)
  · have hcount : s.countInRange count = decide (98000 ≤ count ∧ count ≤ 102000) := by
      rw [countInRange, hfreq]
      simp [nearCount]
    simp (disch := decide) only [get_set_self, hcount]
    exact Nat.mod_eq_of_lt (Bool.toNat_lt _)
  · exact regsSame_set F.TB_STATUS_REF_IN_RANGE [] _ (by simp [F.TB_STATUS_REF_IN_RANGE])
      (regsSame_set F.TB_STATUS_REF_PRESENT [] _ (by simp [F.TB_STATUS_REF_PRESENT]) (regsSame_other (regsSame_refl _ s) rfl))

/-! ### The phase error that TB_PHASE shows (R66) -/

theorem signedOf_patternOf {x : Int} (hlo : -32768 ≤ x) (hhi : x < 32768) : signedOf (patternOf x 16) 16 = x := by
  simp only [signedOf, patternOf, bitOf, beq_iff_eq]
  split <;> omega

theorem phaseField_shown (t : State) : bitsOf (t.regValue (Reg.key .TB_PHASE [])).toNat F.TB_PHASE_PHASE_ERR.lsb 16 = phaseField t.phaseNow := by
  have hreg : regAt (Reg.key .TB_PHASE []) = some (.TB_PHASE, []) := by decide +kernel
  have hlt : phaseField t.phaseNow < 2 ^ 16 := by
    unfold phaseField patternOf
    omega
  rw [regValue, hreg]
  simp only [liveFields, List.foldl_cons, List.foldl_nil]
  rw [bitsOf_word _ _ _ (by decide)]
  exact (bitsOf_putBits_self _ _ _ _).trans (Nat.mod_eq_of_lt hlt)

/-- The machine as it enters LOCKED with a phase error just measured and an event. -/
def lockedWith (e : Int) (bit : Nat) (s : State) : State := ((s.tbEnter 2).setPhase e).tbEvent bit

section Locked

variable (s : State) (e : Int) {bit : Nat}

theorem lockedWith_state : (lockedWith e bit s).get F.TB_STATUS_STATE = 2 := by
  rw [lockedWith, tbEvent_get, setPhase, modTb_get]
  exact tbEnter_state s (by decide)

/-- LOCKED shows the phase error as it was measured at its entry. -/
theorem lockedWith_phase : (lockedWith e bit s).phaseNow = e := by
  have hstate : (lockedWith e bit s).tbState = 2 := lockedWith_state s e
  have hat : (lockedWith e bit s).tb.phaseAt = (lockedWith e bit s).now := by
    rw [lockedWith, now, tbEvent_tb, setPhase, modTb_tb]
    rfl
  rw [phaseNow, hstate, hat, Nat.sub_self]
  rfl

theorem tbOnly_lockedWith : TbOnly s (lockedWith e bit s) := ((tbOnly_tbEnter s 2).trans (tbOnly_modTb _ _)).trans (tbOnly_tbEvent _ _)

theorem regsSame_lockedWith : regsSame [Reg.key .TB_STATUS [], Reg.key .TB_EVENTS []] s (lockedWith e bit s) :=
  regsSame_tbEvent bit (by simp) (regsSame_other (regsSame_tbEnter 2 (by simp) (regsSame_refl _ s)) (modTb_regs _ _))

end Locked

/-- REFIN's qualification as REF_QUALIFIED shows it (R57). -/
def qualifiedNow (s : State) : State := (s.modTb (fun t => { t with qualified := true })).tbEvent 1

theorem exec_refQualified_noref {s : State} (phase : Int) (hp : s.get F.TB_STATUS_REF_PRESENT = 1) (hr : s.get F.TB_STATUS_REF_IN_RANGE = 1)
    (hq : s.tb.qualified = false) (hst : s.get F.TB_STATUS_STATE = 0) : exec (.refQualified phase) s =
      .next (((qualifiedNow s).set F.TB_STATUS_REF_NOMINAL [] (qualifiedNow s).pickNominal.toNat).tbEnter 1) := by
  have hstate : ((s.modTb (fun t => { t with qualified := true })).tbEvent 1).tbState = 0 := by rw [tbState, tbEvent_get, modTb_get, hst]
  rw [exec, execRefQualified, if_pos ⟨hp, hr, hq⟩]
  simp only [hstate]
  rfl

theorem exec_pllLockDeclared {s : State} (phase : Int) (h : s.get F.TB_STATUS_STATE = 1) :
    exec (.pllLockDeclared phase) s = .next (lockedWith phase 2 s) := congrArg Host.Outcome.next (if_pos h)

theorem exec_recoverDone {s : State} (h : s.get F.TB_STATUS_STATE = 4) : exec .recoverDone s = .next (lockedWith 0 4 s) :=
  congrArg Host.Outcome.next (if_pos h)

theorem exec_holdLimitExceeded {s : State} (h : s.get F.TB_STATUS_STATE = 3) :
    exec .holdLimitExceeded s = .next (s.set F.TB_STATUS_EPOCH_SUSPECT [] 1) := congrArg Host.Outcome.next (if_pos h)

/-- Settles O5: LOCKED is entered with the phase error just measured (`lockedWith`), and shows it while no time has passed. -/
theorem theTimeBaseMovesThroughItsStates : Obligations.TheTimeBaseMovesThroughItsStates := by
  unfold Obligations.TheTimeBaseMovesThroughItsStates
  refine ⟨fun phase s hp hr hq hst => ?_, fun phase s hst => ?_, fun s hst => ?_, fun s hst => ?_⟩
  · refine ⟨_, exec_refQualified_noref phase hp hr hq hst, tbEnter_state _ (by decide), ?_, ?_, ?_, ?_⟩
    · obtain ⟨_, _, _, htb⟩ := tbEnter_tb ((qualifiedNow s).set F.TB_STATUS_REF_NOMINAL [] (qualifiedNow s).pickNominal.toNat) 1
      rw [htb, set_tb, qualifiedNow, tbEvent_tb, modTb_tb]
    · rw [freshK_of_regs (tbEnter_regs _ 1), freshK_set, freshK_set]
      exact eventSet_tbEvent _ (by decide)
    · exact (((tbOnly_modTb s _).trans (tbOnly_tbEvent _ 1)).trans (tbOnly_set _ _ _ _)).trans (tbOnly_tbEnter _ 1) |>.memSame
    · exact regsSame_tbEnter 1 (by simp) (regsSame_set F.TB_STATUS_REF_NOMINAL [] _ (by simp [F.TB_STATUS_REF_NOMINAL])
        (regsSame_tbEvent 1 (by simp) (regsSame_other (regsSame_refl _ s) (modTb_regs s _))))
  · refine ⟨_, exec_pllLockDeclared phase hst, lockedWith_state s phase, ?_, eventSet_tbEvent _ (by decide), (tbOnly_lockedWith s phase).memSame,
      regsSame_lockedWith s phase⟩
    rw [phaseField_shown, lockedWith_phase, phaseField]
    exact signedOf_patternOf (by omega) (by omega)
  · refine ⟨_, exec_recoverDone hst, lockedWith_state s 0, ?_, eventSet_tbEvent _ (by decide), (tbOnly_lockedWith s 0).memSame,
      regsSame_lockedWith s 0⟩
    rw [phaseField_shown, lockedWith_phase]
    rfl
  · refine ⟨_, exec_holdLimitExceeded hst, ?_, ?_, rfl,
      regsSame_set F.TB_STATUS_EPOCH_SUSPECT [] 1 (by simp [F.TB_STATUS_EPOCH_SUSPECT]) (regsSame_refl _ s)⟩
    · rw [get_set_self _ _ _ _ (by decide)]
      rfl
    · simp (disch := decide) only [get_set_field, hst]

end Sys2Proof.Machine
end

section
/-! One MCLK edge, SYNCOUT, and the epochs of TBC (R58, R60, R68, R69, R71–R75). -/

namespace Sys2Proof.Machine

open State

/-! ### One MCLK edge (R58, R60, R68; log 2) -/

section Tick

variable {s : State}

theorem epochsDue_of_none (hp : s.tb.pulses = []) : s.epochsDue = s := by rw [epochsDue, hp, List.foldl_nil]

/-- Where no pulse is in hand and SYNCOUT is not periodic, no row of the last REFIN edge is left. -/
theorem restRef_of_quiet (hp : s.tb.pulses = []) (hm : s.get F.TB_EPOCH_CTRL_SYNCOUT_MODE ≠ 3) : s.restRef = s := by
  rw [restRef, epochsDue_of_none hp]
  exact if_neg (fun h => hm h.1)

/-- Between REFIN edges an MCLK edge is counted. -/
theorem refTick_between (hp : s.get F.TB_STATUS_REF_PRESENT = 1) (h : s.tb.refPhase + 1 < s.refDivide) :
    s.refTick = s.modTb (fun t => { t with refPhase := t.refPhase + 1 }) := by
  rw [refTick, if_neg (by omega), if_neg (by omega)]

theorem takePend_of_none (h : s.commit.pends = []) (scope unit_ : Nat) : s.takePend scope unit_ = s := by
  rw [takePend, h]
  rfl

/-- Where no port is up and no commit or port trims wait, a flit slot only advances, whatever the time base holds. -/
theorem flitTick_of_quiet (x : TimeBase) (hports : ∀ p : Fin 4, s.portUp p = false ∧ s.calState (32 + p) ≠ 4) (hpends : s.commit.pends = []) :
    ({ s with tb := x } : State).flitTick = { s with tb := x, net := { s.net with flitPhase := (s.net.flitPhase + 25) % 2048 } } := by
  rw [flitTick]
  refine foldl_id _ _ _ (fun p _ => ?_)
  obtain ⟨hup, hcal⟩ := hports p
  have hup' : (({ s with tb := x } : State).modNet (fun n => { n with flitPhase := (s.net.flitPhase + 25) % 2048 })).portUp p = false := hup
  simp only [hup', Bool.false_eq_true, if_false]
  rw [takePend_of_none (by exact hpends)]
  exact if_neg hcal

/-- TBC as an MCLK edge advances it (R68). -/
def advanced (s : State) : State :=
  s.modTb (fun t => { t with tbc := t.tbc + 1024, laps := t.laps + (t.tbc.toNat + 1024) / 2 ^ 64 })

/-- REFIN's divider hangs on the registers and on the count of the last range window. -/
theorem refDivide_congr {s t : State} (hregs : t.regs = s.regs) (hcount : t.tb.lastCount = s.tb.lastCount) : t.refDivide = s.refDivide := by
  rw [refDivide, refDivide, refFast, refFast, tbState, tbState, hcount, get_of_regs hregs, get_of_regs hregs]

theorem modTb_refDivide (s : State) (f : TimeBase → TimeBase) (h : (f s.tb).lastCount = s.tb.lastCount) : (s.modTb f).refDivide = s.refDivide :=
  refDivide_congr (modTb_regs s f) h

/-- The next of `n` phases, which follow one another round. -/
def nextPhase (n phase : Nat) : Nat := if n ≤ phase + 1 then 0 else phase + 1

theorem refoutTick_eq (s : State) : s.refoutTick = s.modTb (fun t => { t with refoutPhase := nextPhase s.refDivide t.refoutPhase }) := (rfl)

/-- The time base after an MCLK edge between REFIN edges. -/
def countedTb (s : State) : TimeBase :=
  { s.tb with
    tbc := s.tb.tbc + 1024, laps := s.tb.laps + (s.tb.tbc.toNat + 1024) / 2 ^ 64, refPhase := s.tb.refPhase + 1,
    refoutPhase := nextPhase s.refDivide s.tb.refoutPhase }

/-- What an MCLK edge between REFIN edges counts in the time base. -/
theorem refoutTick_refTick_advanced (s : State) (hp : s.get F.TB_STATUS_REF_PRESENT = 1) (h : s.tb.refPhase + 1 < s.refDivide) :
    (advanced s).refTick.refoutTick = { s with tb := countedTb s } := by
  have hdivide : (advanced s).refDivide = s.refDivide := modTb_refDivide s _ (by dsimp only)
  have hcount := refTick_between (s := advanced s) (by rw [advanced, modTb_get, hp]) (by rw [hdivide, advanced, modTb_tb]; exact h)
  have hcounted : ((advanced s).modTb (fun t => { t with refPhase := t.refPhase + 1 })).refDivide = s.refDivide :=
    (modTb_refDivide (advanced s) _ (by dsimp only)).trans hdivide
  rw [hcount, refoutTick_eq, hcounted]
  simp only [advanced, modTb, countedTb]

/-- The ticks of TBC within an event cycle, after the edge. -/
theorem countedTb_now_mod (s : State) (n : Net) : ({ s with tb := countedTb s, net := n } : State).now % 2048 = (s.tb.tbc.toNat + 1024) % 2048 := by
  have htbc : (s.tb.tbc + 1024).toNat = (s.tb.tbc.toNat + 1024) % 2 ^ 64 := BitVec.toNat_add _ _
  simp only [now, countedTb, htbc]
  omega

end Tick

/-- Settles O2: between the edges of REFIN, of the event clock and of flits, each part of `tick` but the counts is the identity. -/
theorem idleStepIsOneClockEdge : Obligations.IdleStepIsOneClockEdge := by
  unfold Obligations.IdleStepIsOneClockEdge
  intro s hidle
  have hstep : step s = .next s.tick := by rw [step, hidle]
  refine ⟨fun hoff => ?_, fun hon href hphase hpulses hmode hports hpends hedge => ?_⟩
  · rw [hstep, tick, if_neg (by simp [hoff])]
  · have hflit : (advanced s).refTick.refoutTick.flitTick =
        { s with tb := countedTb s, net := { s.net with flitPhase := (s.net.flitPhase + 25) % 2048 } } := by
      rw [refoutTick_refTick_advanced s href hphase]
      exact flitTick_of_quiet (countedTb s) hports hpends
    rw [hstep, tick, if_pos hon, restRef_of_quiet hpulses hmode]
    change Host.Outcome.next (if (advanced s).refTick.refoutTick.flitTick.now % 2048 = 0 then _ else (advanced s).refTick.refoutTick.flitTick) = _
    rw [hflit, countedTb_now_mod, if_neg hedge]
    rfl

/-! ### SYNCOUT and the wrap (R69, R75) -/

theorem exec_emit {s : State} (h : crosses s) : exec .emit s = .next (s.down 1).emit := by
  rw [exec, execEmit, hostStrobe, toField_of_crosses h, frames_barWr]

/-- A device with an upstream starts a pulse of its own alone (R75, R444). -/
theorem syncoutStart_of_upstream {s : State} (h : s.hasUpstream = true) : s.syncoutStart = s.modTb (fun t => { t with syncoutLeft := 2 }) := by
  have hup : (s.modTb (fun t => { t with syncoutLeft := 2 })).hasUpstream = true := h
  rw [syncoutStart, linkEpoch, if_pos hup]
  exact if_pos hup

/-- Settles O7: a device with an upstream sends no pulse of its own downstream (`syncoutStart_of_upstream`), and the wrap is an event of the time base. -/
theorem syncoutPulsesAndTheWrap : Obligations.SyncoutPulsesAndTheWrap := by
  unfold Obligations.SyncoutPulsesAndTheWrap
  refine ⟨fun s hmode hcross => ?_, fun s hmode hperiod hrole => ⟨fun hleft => ?_, fun hleft => ?_⟩, fun s => ?_⟩
  · rw [exec_emit hcross]
    exact congrArg Host.Outcome.next (if_pos (Or.inl hmode))
  · have hup : s.hasUpstream = true := by rw [hasUpstream, role, hrole]; rfl
    refine congrArg Host.Outcome.next ((if_pos ⟨hmode, hperiod, hleft⟩).trans ?_)
    rw [syncoutStart_of_upstream hup]
    rfl
  · exact congrArg Host.Outcome.next (if_neg (fun h => hleft h.2.2))
  · exact ⟨s.tbEvent 9, rfl, rfl, eventSet_tbEvent s (by decide), regsSame_tbEvent 9 (by simp) (regsSame_refl _ s)⟩

end Sys2Proof.Machine
end

section
/-! Epochs: a sync pulse and the load of TBC at its E (R71–R74). -/

namespace Sys2Proof.Machine

open State

/-! ### Measurement units of a device at rest (R72, R73, R283) -/

/-- `t` is `s` but for its measurement units. -/
def MeasOnly (s t : State) : Prop := ∃ meas, t = { s with meas := meas }

theorem MeasOnly.refl (s : State) : MeasOnly s s := ⟨s.meas, rfl⟩

theorem MeasOnly.trans {s t u : State} (h : MeasOnly s t) (g : MeasOnly t u) : MeasOnly s u := by
  obtain ⟨_, rfl⟩ := h
  obtain ⟨_, rfl⟩ := g
  exact ⟨_, rfl⟩

theorem measOnly_modMeas (s : State) (u : Fin 16) (f : Meas → Meas) : MeasOnly s (s.modMeas u f) := ⟨_, rfl⟩

/-- Whether a unit judges hangs on its setup and its owner, not on what the units hold. -/
theorem MeasOnly.muOn {s t : State} (h : MeasOnly s t) (u : Fin 16) : t.muOn u = s.muOn u := by
  obtain ⟨_, rfl⟩ := h
  rfl

theorem MeasOnly.get {s t : State} (h : MeasOnly s t) (f : Fld) (ix : List Nat) : t.get f ix = s.get f ix := by
  obtain ⟨_, rfl⟩ := h
  rfl

theorem MeasOnly.tb {s t : State} (h : MeasOnly s t) : t.tb = s.tb := by
  obtain ⟨_, rfl⟩ := h
  rfl

theorem MeasOnly.memSame {s t u : State} (h : MeasOnly t u) (g : Machine.memSame s t) : Machine.memSame s u := by
  obtain ⟨_, rfl⟩ := h
  exact memSame_other g rfl rfl rfl rfl

theorem MeasOnly.regsSame {ks : List Nat} {s t u : State} (h : MeasOnly t u) (g : Machine.regsSame ks s t) : Machine.regsSame ks s u := by
  obtain ⟨_, rfl⟩ := h
  exact regsSame_other g rfl

theorem measOnly_foldl {α : Type} {P : State → Prop} (f : State → α → State) (l : List α) (hP : ∀ s t, MeasOnly s t → P s → P t)
    (hf : ∀ s x, P s → MeasOnly s (f s x)) (s : State) (hs : P s) : MeasOnly s (l.foldl f s) := by
  induction l generalizing s with
  | nil => exact MeasOnly.refl s
  | cons x t ih => exact (hf s x hs).trans (ih _ (hP _ _ (hf s x hs) hs))

section AtRest

variable {s : State} {u : Fin 16}

/-- A device at rest has no unit that judges (R73). -/
theorem muOn_of_atRest (h : s.deviceRuns = false) (u : Fin 16) : s.muOn u = false := by
  simp only [deviceRuns, Bool.or_eq_false_iff, List.any_eq_false, List.mem_range] at h
  obtain ⟨-, hmeas⟩ := h
  have hu := hmeas u.val u.isLt
  rw [Bool.not_eq_true, Bool.and_comm] at hu
  exact hu

/-- What meets a unit that does not judge leaves everything but the units. -/
theorem measOnly_muMeets (h : s.muOn u = false) (q : MuIn) : MeasOnly s (s.muMeets u q) := by
  unfold muMeets
  split
  · exact measOnly_modMeas _ _ _
  · unfold muStamp
    split
    · exact MeasOnly.refl s
    · rw [h, Bool.false_and, if_neg Bool.false_ne_true]
      exact MeasOnly.refl s

theorem measOnly_muJudge (h : s.muOn u = false) (t : Nat) : MeasOnly s (s.muJudge u t) := by
  have hmod := measOnly_modMeas s u (fun y => { y with queue := s.meas[u].queue.filter (fun x => decide (t ≤ x.x.t)) })
  exact hmod.trans (measOnly_foldl _ _ (P := fun s => s.muOn u = false) (fun _ _ hm hs => (hm.muOn u).trans hs)
    (fun _ q hs => measOnly_muMeets hs q) _ ((hmod.muOn u).trans h))

theorem measOnly_muGate (h : s.muOn u = false) (t : Nat) : MeasOnly s (s.muGate u t) := by
  unfold muGate
  split
  · exact MeasOnly.refl s
  split
  · split
    · exact measOnly_modMeas _ _ _
    · exact MeasOnly.refl s
  · unfold muClose
    split
    · exact MeasOnly.refl s
    · have hjudge := measOnly_muJudge h t
      simp only [(hjudge.muOn u).trans h, Bool.false_eq_true, if_false]
      exact hjudge.trans (measOnly_modMeas _ _ _)

/-- Before a load of TBC a device at rest changes nothing but its measurement units. -/
theorem measOnly_measBeforeLoad (h : ∀ u, s.muOn u = false) : MeasOnly s s.measBeforeLoad := by
  unfold measBeforeLoad
  refine measOnly_foldl _ _ (P := fun s => ∀ u, s.muOn u = false) (fun _ _ hm hs u => (hm.muOn u).trans (hs u)) (fun t u ht => ?_) s h
  have hgate := measOnly_muGate (ht u) (t.now / 2048 * 2048)
  exact hgate.trans (measOnly_muJudge ((hgate.muOn u).trans (ht u)) (t.now + 1))

end AtRest

/-! ### The load (R72–R74) -/

section Load

variable (s : State)

/-- What TBC takes (R72). -/
def epochValue : Nat := s.pair F.TB_EPOCH_LO_VALUE F.TB_EPOCH_HI_VALUE [] * 2048 % 2 ^ 64

theorem epochValue_eq : epochValue s = 2 ^ 11 * s.get F.TB_EPOCH_LO_VALUE + 2 ^ 32 * s.get F.TB_EPOCH_HI_VALUE := by
  have hlo : s.get F.TB_EPOCH_LO_VALUE < 2 ^ 21 := Nat.mod_lt _ (by decide)
  have hhi : s.get F.TB_EPOCH_HI_VALUE < 2 ^ 32 := Nat.mod_lt _ (by decide)
  have hpair : s.pair F.TB_EPOCH_LO_VALUE F.TB_EPOCH_HI_VALUE [] = s.get F.TB_EPOCH_LO_VALUE + 2 ^ 21 * s.get F.TB_EPOCH_HI_VALUE := rfl
  rw [epochValue, hpair]
  omega

/-- The laps of TBC after the load (log 72). -/
def epochLaps : Nat := if epochValue s < s.tb.tbc.toNat then s.tb.laps + 1 else s.tb.laps

/-- The machine with TBC loaded, before its registers show it. -/
def loadedTbc : State :=
  (s.shiftTicks (epochValue s + 2 ^ 64 * epochLaps s - s.now)).modTb (fun t => { t with
    tbc := BitVec.ofNat 64 (epochValue s), laps := epochLaps s, armEff := false, armLast := false,
    streamHi := (epochValue s + 2 ^ 64 * epochLaps s) / 2 ^ 48 })

theorem honourEpoch_eq : s.honourEpoch =
    ((((loadedTbc s).set F.TB_EPOCH_CTRL_ARM [] 0).incWrap F.TB_STATUS_EPOCH_SEQ []).set F.TB_STATUS_EPOCH_SUSPECT [] 0).tbEvent 6 := (rfl)

@[simp] theorem loadedTbc_regs : (loadedTbc s).regs = s.regs := (rfl)

theorem loadedTbc_get (f : Fld) (ix : List Nat) : (loadedTbc s).get f ix = s.get f ix := get_of_regs (loadedTbc_regs s) f ix

theorem honourEpoch_tbc : s.honourEpoch.tb.tbc.toNat = 2 ^ 11 * s.get F.TB_EPOCH_LO_VALUE + 2 ^ 32 * s.get F.TB_EPOCH_HI_VALUE := by
  have htbc : s.honourEpoch.tb.tbc = BitVec.ofNat 64 (epochValue s) := by
    rw [honourEpoch_eq, tbEvent_tb, set_tb, incWrap_tb, set_tb, loadedTbc, modTb_tb]
  rw [htbc, BitVec.toNat_ofNat, Nat.mod_eq_of_lt (show epochValue s < 2 ^ 64 from Nat.mod_lt _ (by decide)), epochValue_eq]

theorem honourEpoch_pulses : s.honourEpoch.tb.pulses = s.tb.pulses := by
  rw [honourEpoch_eq, tbEvent_tb, set_tb, incWrap_tb, set_tb, loadedTbc, modTb_tb, shiftTicks]

/-- What an honoured epoch shows in the registers: ARM cleared, EPOCH_SEQ counted, EPOCH_SUSPECT cleared (R73, R74). -/
theorem honourEpoch_arm : s.honourEpoch.get F.TB_EPOCH_CTRL_ARM = 0 := by
  rw [honourEpoch_eq, incWrap]
  simp (disch := decide) only [tbEvent_get, get_set_key, get_set_self, Nat.zero_mod]

theorem honourEpoch_seq : s.honourEpoch.get F.TB_STATUS_EPOCH_SEQ = (s.get F.TB_STATUS_EPOCH_SEQ + 1) % 256 := by
  rw [honourEpoch_eq, incWrap]
  simp (disch := decide) only [tbEvent_get, get_set_field, get_set_self, loadedTbc_get, Nat.mod_mod]
  rfl

theorem honourEpoch_suspect : s.honourEpoch.get F.TB_STATUS_EPOCH_SUSPECT = 0 := by
  rw [honourEpoch_eq]
  simp (disch := decide) only [tbEvent_get, get_set_self, Nat.zero_mod]

theorem honourEpoch_event : EventSet 6 s.honourEpoch := by
  rw [honourEpoch_eq]
  exact eventSet_tbEvent _ (by decide)

/-- The registers that a load changes. -/
abbrev loadKeys : List Nat := [Reg.key .TB_STATUS [], Reg.key .TB_EPOCH_CTRL [], Reg.key .TB_EVENTS []]

theorem regsSame_honourEpoch : regsSame loadKeys s s.honourEpoch := by
  rw [honourEpoch_eq]
  exact regsSame_tbEvent 6 (by simp) (regsSame_set F.TB_STATUS_EPOCH_SUSPECT [] 0 (by simp [F.TB_STATUS_EPOCH_SUSPECT])
    (regsSame_incWrap F.TB_STATUS_EPOCH_SEQ [] (by simp [F.TB_STATUS_EPOCH_SEQ])
      (regsSame_set F.TB_EPOCH_CTRL_ARM [] 0 (by simp [F.TB_EPOCH_CTRL_ARM]) (regsSame_other (regsSame_refl _ s) (loadedTbc_regs s)))))

theorem tbOnly_honourEpoch : TbOnly (loadedTbc s) s.honourEpoch := by
  rw [honourEpoch_eq, incWrap]
  exact (((tbOnly_set _ _ _ _).trans (tbOnly_set _ _ _ _)).trans (tbOnly_set _ _ _ _)).trans (tbOnly_tbEvent _ _)

theorem memSame_honourEpoch {s t : State} (h : memSame s t) : memSame s t.honourEpoch := by
  have hshift : memSame s (loadedTbc t) := by
    refine memSame_other h ?_ ?_ ?_ ?_
    · rw [loadedTbc, modTb_ddr, shiftTicks]
    · rw [loadedTbc, modTb_hostMem, shiftTicks]
    · rw [loadedTbc, modTb_nvmF, shiftTicks]
    · rw [loadedTbc, modTb_nvmH, shiftTicks]
  exact (tbOnly_honourEpoch t).memSame_of hshift

end Load

/-! ### The edge E of an armed pulse -/

/-- The machine at E: the pulse is in hand no longer, and the snapshot holds TBC. -/
def atEpoch (rest : List SyncPulse) (s : State) : State := (s.modTb (fun t => { t with pulses := rest })).takeSnap

section AtEpoch

variable {rest : List SyncPulse} {s : State}

theorem atEpoch_tb : (atEpoch rest s).tb = { s.tb with pulses := rest } := by rw [atEpoch, takeSnap, set_tb, set_tb, modTb_tb]

theorem atEpoch_now : (atEpoch rest s).now = s.now := by rw [now, now, atEpoch_tb]

/-- The snapshot's registers hold TBC; no other field that lies apart from them changes. -/
theorem atEpoch_snap : (atEpoch rest s).get F.TB_SYNC_SNAP_LO_SNAP = s.tb.tbc.toNat % 2 ^ 32 ∧
    (atEpoch rest s).get F.TB_SYNC_SNAP_HI_SNAP = s.tb.tbc.toNat / 2 ^ 32 := by
  have hlt : s.tb.tbc.toNat < 2 ^ 64 := s.tb.tbc.isLt
  have hnow : (s.modTb (fun t => { t with pulses := rest })).now = s.tb.tbc.toNat + 2 ^ 64 * s.tb.laps := by rw [now, modTb_tb]
  simp (disch := decide) only [atEpoch, takeSnap, get_set_key, get_set_self, hnow]
  change _ % 2 ^ 32 % 2 ^ 32 = _ ∧ _ % 2 ^ 32 % 2 ^ 32 = _
  omega

theorem atEpoch_get (f : Fld) (ix : List Nat) (hlo : f.reg.key ix ≠ Reg.key .TB_SYNC_SNAP_LO [])
    (hhi : f.reg.key ix ≠ Reg.key .TB_SYNC_SNAP_HI []) : (atEpoch rest s).get f ix = s.get f ix := by
  rw [atEpoch, takeSnap, get_set_key _ _ _ _ _ _ hhi, get_set_key _ _ _ _ _ _ hlo, modTb_get]

theorem tbOnly_atEpoch : TbOnly s (atEpoch rest s) := ((tbOnly_modTb _ _).trans (tbOnly_set _ _ _ _)).trans (tbOnly_set _ _ _ _)

/-- The registers that an honoured epoch changes. -/
abbrev epochKeys : List Nat := [Reg.key .TB_STATUS [], Reg.key .TB_EPOCH_CTRL [], Reg.key .TB_SYNC_SNAP_LO [], Reg.key .TB_SYNC_SNAP_HI [],
  Reg.key .TB_EVENTS []]

theorem regsSame_atEpoch : regsSame epochKeys s (atEpoch rest s) :=
  regsSame_set F.TB_SYNC_SNAP_HI_SNAP [] _ (by simp [F.TB_SYNC_SNAP_HI_SNAP])
    (regsSame_set F.TB_SYNC_SNAP_LO_SNAP [] _ (by simp [F.TB_SYNC_SNAP_LO_SNAP]) (regsSame_other (regsSame_refl _ s) (modTb_regs s _)))

/-- Taking a snapshot starts nothing on the device. -/
theorem atEpoch_deviceRuns : (atEpoch rest s).deviceRuns = s.deviceRuns := by
  have hkey (u : Nat) : Reg.key .TB_SYNC_SNAP_HI [] < F.TG_STATUS_STATE.reg.key [u] :=
    lt_of_lt_of_le (by decide) (key_ge_base F.TG_STATUS_STATE.reg [u])
  have hsnap : Reg.key .TB_SYNC_SNAP_LO [] < Reg.key .TB_SYNC_SNAP_HI [] := by decide
  have htrig (u : Nat) : (atEpoch rest s).get F.TG_STATUS_STATE [u] = s.get F.TG_STATUS_STATE [u] :=
    atEpoch_get _ _ (Nat.ne_of_gt (hsnap.trans (hkey u))) (Nat.ne_of_gt (hkey u))
  have hsess : (atEpoch rest s).sess = s.sess := by rw [atEpoch, takeSnap, set_sess, set_sess, modTb_sess]
  have hact (f : Fld) (ix : List Nat) : (atEpoch rest s).act f ix = s.act f ix := by rw [atEpoch, takeSnap, act_set, act_set, modTb_act]
  simp only [deviceRuns, htrig, hsess, ownerMu, ownerOf, hact]

theorem modTb_of_eq {f : TimeBase → TimeBase} (h : f s.tb = s.tb) : s.modTb f = s := by rw [modTb, h]

theorem atEpoch_modTb : (atEpoch rest s).modTb (fun t => { t with pulses := rest }) = atEpoch rest s := modTb_of_eq (by rw [atEpoch_tb])

/-- The armed pulse whose E it is, the time base LOCKED and the device at rest: the epoch is honoured (R73). -/
theorem epochDue_of_armed (hpulses : s.tb.pulses = ⟨true, true, false, 0⟩ :: rest) (hbehind : ∀ q ∈ rest, q.behind = false)
    (hst : s.get F.TB_STATUS_STATE = 2) (hrun : s.deviceRuns = false) (hedge : s.now % 2048 = 0) :
    s.epochDue = (atEpoch rest s).measBeforeLoad.honourEpoch := by
  have hnone : rest.filter (fun q => q.behind) = [] := List.filter_eq_nil_iff.mpr (fun q hq => by simp [hbehind q hq])
  have hall : rest.filter (fun q => !q.behind) = rest := List.filter_eq_self.mpr (fun q hq => by simp [hbehind q hq])
  have hstate : (atEpoch rest s).tbState = 2 := (atEpoch_get F.TB_STATUS_STATE [] (by decide) (by decide)).trans hst
  have hdue : s.epochDue = s.epochAt [] ⟨true, true, false, 0⟩ rest := by
    simp [epochDue, hpulses, List.findIdx?_cons]
  have hstay : (s.modTb (fun t => { t with pulses := rest })).takeSnap = atEpoch rest s := rfl
  rw [hdue, epochAt]
  simp only [List.nil_append, hstay, hstate, hnone, hall, atEpoch_deviceRuns, hrun, atEpoch_modTb]
  simp only [Bool.false_eq_true, if_false, Bool.not_true, beq_self_eq_true, Bool.not_false, Bool.and_self, if_true, List.length_nil]
  rw [epochEdge, if_pos (by rw [atEpoch_now, hedge])]

end AtEpoch

/-! ### The edge S of a sync pulse (R71, R74) -/

/-- A sync pulse under SRC 0, a LAG and ARM, the time base LOCKED and nothing in hand, is one armed pulse in hand. -/
theorem syncDetect_of_armed {s : State} (hsrc : s.get F.TB_EPOCH_CTRL_SRC = 0) (hlag : s.get F.TB_EPOCH_CTRL_LAG ≠ 0)
    (hst : s.get F.TB_STATUS_STATE = 2) (harm : s.tb.armEff = true) (hp : s.tb.pulses = []) :
    s.syncDetect 0 = (s.tbEvent 7).modTb (fun t => { t with pulses := [⟨true, true, false, s.get F.TB_EPOCH_CTRL_LAG⟩] }) := by
  have hlag' : (s.get F.TB_EPOCH_CTRL_LAG != 0) = true := bne_iff_ne.mpr hlag
  simp [syncDetect, tbState, modTb, hsrc, hst, harm, hp, hlag']

/-- Where nothing is in hand, SYNC_PULSE detects a pulse, and outside mode 1 it starts none. -/
theorem exec_syncPulse {s : State} (hp : s.tb.pulses = []) (hmode : (s.syncDetect 0).get F.TB_EPOCH_CTRL_SYNCOUT_MODE ≠ 1) :
    exec .syncPulse s = .next (s.syncDetect 0) := by
  rw [exec, execSyncPulse, epochsDue_of_none hp]
  simp only [if_neg hmode]

/-- An epoch that is honoured loads TBC in the machine that its edge finds, but for the measurement units (R72, R73). -/
theorem exec_epochInstant {rest : List SyncPulse} {s : State} (hpulses : s.tb.pulses = ⟨true, true, false, 0⟩ :: rest)
    (hbehind : ∀ q ∈ rest, q.behind = false) (hst : s.get F.TB_STATUS_STATE = 2) (hrun : s.deviceRuns = false) (hedge : s.now % 2048 = 0) :
    ∃ t, MeasOnly (atEpoch rest s) t ∧ exec .epochInstant s = .next t.honourEpoch :=
  ⟨_, measOnly_measBeforeLoad (muOn_of_atRest (atEpoch_deviceRuns.trans hrun)),
    congrArg Host.Outcome.next (epochDue_of_armed hpulses hbehind hst hrun hedge)⟩

/-- Settles O6: at S the pulse joins those in hand as `syncDetect_of_armed` says; at E the load changes what `honourEpoch_eq` lists, and before it a device at
rest only its measurement units. -/
theorem anArmedEpochLoadsTheCounter : Obligations.AnArmedEpochLoadsTheCounter := by
  unfold Obligations.AnArmedEpochLoadsTheCounter
  refine ⟨fun s hsrc hlag hmode hst harm hpulses => ?_, fun rest s hpulses hbehind hst hrun hedge => ?_⟩
  · have hdetect := syncDetect_of_armed hsrc hlag hst harm hpulses
    have hexec := exec_syncPulse hpulses (by rw [hdetect, modTb_get, tbEvent_get, hmode]; decide)
    rw [hdetect] at hexec
    refine ⟨_, hexec, by rw [modTb_tb, tbEvent_tb], ?_, ((tbOnly_tbEvent s 7).trans (tbOnly_modTb _ _)).memSame,
      regsSame_other (regsSame_tbEvent 7 (by simp) (regsSame_refl _ s)) (modTb_regs _ _)⟩
    rw [modTb_freshK]
    exact eventSet_tbEvent s (by decide)
  · obtain ⟨t, hmeas, hexec⟩ := exec_epochInstant hpulses hbehind hst hrun hedge
    have hget (f : Fld) (hlo : f.reg.key [] ≠ Reg.key .TB_SYNC_SNAP_LO []) (hhi : f.reg.key [] ≠ Reg.key .TB_SYNC_SNAP_HI []) :
        t.get f = s.get f := (hmeas.get f []).trans (atEpoch_get f [] hlo hhi)
    have hload := regsSame_honourEpoch t
    obtain ⟨hlo, hhi⟩ := atEpoch_snap (rest := rest) (s := s)
    refine ⟨_, hexec, ?_, ?_, honourEpoch_arm t, ?_, honourEpoch_suspect t, ?_, ?_, honourEpoch_event t,
      memSame_honourEpoch (hmeas.memSame tbOnly_atEpoch.memSame), regsSame_trans (hmeas.regsSame regsSame_atEpoch) (regsSame_mono hload (by simp))⟩
    · rw [honourEpoch_tbc, hget _ (by decide) (by decide), hget _ (by decide) (by decide)]
    · rw [honourEpoch_pulses, hmeas.tb, atEpoch_tb]
    · rw [honourEpoch_seq, hget _ (by decide) (by decide)]
    · rw [get_of_regsSame hload F.TB_SYNC_SNAP_LO_SNAP [] (by decide), hmeas.get, hlo]
    · rw [get_of_regsSame hload F.TB_SYNC_SNAP_HI_SNAP [] (by decide), hmeas.get, hhi]

end Sys2Proof.Machine
end

section
/-! Measurement units: gates, and the results that their closing forms (R283, R287–R290). -/

namespace Sys2Proof.Machine

open State

namespace State

/-- A unit with nothing pending is the model's own clearing of it. -/
theorem muClear_eq_emptied : muClear = emptied := rfl

theorem muClear_muClear (m : Meas) : muClear (muClear m) = emptied m := rfl

theorem modMeas_modMeas (s : State) (u : Fin 16) (f g : Meas → Meas) : (s.modMeas u f).modMeas u g = s.modMeas u (fun m => g (f m)) := by
  simp [modMeas]

theorem modMeas_of_eq {s : State} {u : Fin 16} {f : Meas → Meas} (h : f s.meas[u] = s.meas[u]) : s.modMeas u f = s := by
  rw [modMeas, h]
  simp

/-! ### Registers set beside a unit's update -/

section SetMeas

variable (s : State) (g : Fld) (ix : List Nat) (v : Nat) (u : Fin 16) (f : Meas → Meas)

theorem set_modMeas_ownerMu (i : Nat) : ((s.set g ix v).modMeas u f).ownerMu i = s.ownerMu i := (rfl)

theorem set_modMeas_rgnSize (k r : Nat) : ((s.set g ix v).modMeas u f).rgnSize k r = s.rgnSize k r := (rfl)

theorem set_modMeas_tallying (k : Fin 16) : ((s.set g ix v).modMeas u f).tallying k = s.tallying k := (rfl)

end SetMeas

/-- Without a burst no judgement or result is tallied (R371). -/
theorem tallying_of_no_burst {s : State} {k : Fin 16} (h : s.sess[k].burst = none) : s.tallying k = false := by
  rw [tallying, h]

/-- The first entry of a result: its time, unit, mode and flags (R290). -/
def resultHead (tStart : Nat) (u : Fin 16) (mode : Nat) (coincident : Bool) (quality : Nat) (stale loss : Bool) : Nat :=
  tStart % 2 ^ 48 + u.val * 2 ^ 48 + mode * 2 ^ 52 + coincident.toNat * 2 ^ 55 + quality * 2 ^ 56 + stale.toNat * 2 ^ 58 + loss.toNat * 2 ^ 59 + 3 * 2 ^ 60

/-- The unit once a result with the entry `head` is formed: nothing is summed, and the losses of the inputs `ins` are told (R277, R289, R290). -/
def resulted (head : Nat) (value : Int) (cycles : Nat) (inst : Option (Nat × Nat)) (ins : List Nat) (m : Meas) : Meas :=
  { m with
    out := m.out ++ [((head, patternOf value 48 + 4 * 2 ^ 60, min cycles (2 ^ 32 - 1) + 5 * 2 ^ 60), inst)]
    n := 0, sum := 0, tStart := 0, coincident := false, quality := 0, stale := false, lossy := m.lossy.filter (fun i => !ins.contains i) }

/-- A result that is neither stale nor follows a loss, of a session without a burst, only counts and joins the unit's results (R289, R290). -/
theorem muResult_eq {s : State} {u k : Fin 16} (tStart value : Int) (cycles : Nat) (howner : s.ownerMu u = some k) (hrgn : s.rgnSize k 2 ≠ 0)
    (hburst : s.sess[k].burst = none) (hstale : s.meas[u].stale = false) (hlossy : s.meas[u].lossy = []) :
    s.muResult u tStart value cycles = (s.incSat F.TM_MU_RESULTS_RESULTS [u]).modMeas u (resulted
      (resultHead tStart.toNat u (s.act F.TM_MU_CFG_MODE [u]) s.meas[u].coincident s.meas[u].quality false false) value cycles (s.runInst k)
      (s.muInputs u)) := by
  have htally := tallying_of_no_burst hburst
  unfold muResult
  simp only [incSat, hlossy, hstale, List.any_nil, howner, Option.bind_some, set_modMeas_ownerMu]
  simp only [set_modMeas_rgnSize, if_neg hrgn, noteStale, Bool.false_eq_true, if_false, feedHists, set_modMeas_tallying, htally]
  rfl

/-! ### A gate opens and closes (R283, R287–R289) -/

section Gate

variable {s : State} {u : Fin 16}

theorem exec_muGateOpen (halways : s.act F.TM_MU_GATE_ALWAYS [u] = 0) (hgate : s.meas[u].gate = none) (hin : s.meas[u].gateIn = true) :
    exec (.muGateOpen u) s = .next (s.muOpen u (s.now / 2048 * 2048)) := by
  rw [exec, execMuGateOpen, if_pos hin, muGate, halways, if_neg (by decide), if_pos hin, hgate]
  rfl

/-- With nothing waiting at it a unit judges nothing. -/
theorem muJudge_of_no_queue (h : s.meas[u].queue = []) (t : Nat) : s.muJudge u t = s := by
  rw [muJudge, h, List.filter_nil, List.filter_nil, List.foldl_nil]
  exact modMeas_of_eq (by rw [← h])

theorem exec_muGateClose {g : Nat} (halways : s.act F.TM_MU_GATE_ALWAYS [u] = 0) (hgate : s.meas[u].gate = some g) (hin : s.meas[u].gateIn = false)
    (hqueue : s.meas[u].queue = []) (hon : s.muOn u = true) :
    exec (.muGateClose u) s = .next ((s.muEnd u g).modMeas u (fun y => { muClear y with gate := none })) := by
  rw [exec, execMuGateClose, hin, if_neg Bool.false_ne_true, muGate, halways, if_neg (by decide), hin, if_neg Bool.false_ne_true, muClose, hgate]
  simp only [muJudge_of_no_queue hqueue, hon, if_true]

/-- What an interval gate's close leaves of a unit without a sum: edges without a partner count (R287). -/
theorem muEnd_of_unpaired (g : Nat) (hmode : s.act F.TM_MU_CFG_MODE [u] ≠ 4) (hn : s.meas[u].n = 0) :
    s.muEnd u g = (s.incSat F.TM_MU_CNT0_UNPAIRED [u] (s.meas[u].a.isSome.toNat + s.meas[u].b.isSome.toNat)).modMeas u muClear := by
  unfold muEnd
  simp only [if_neg hmode, hn, lt_irrefl, if_false]

/-- A frequency gate's close with two edges or more gives their span and their number less one (R288). -/
theorem muEnd_of_freq (g : Nat) {a b : Stamp} (hmode : s.act F.TM_MU_CFG_MODE [u] = 4) (ha : s.meas[u].a = some a) (hb : s.meas[u].lastA = some b)
    (hedges : 2 ≤ s.meas[u].edges) :
    s.muEnd u g = (s.muResult u a.t ((b.t : Int) - a.t) (s.meas[u].edges - 1)).modMeas u muClear := by
  unfold muEnd
  simp only [if_pos hmode, ha, hb, if_pos hedges]

end Gate

end State

/-- A saturating count reads as counted. -/
theorem get_incSat_self (s : State) (f : Fld) (ix : List Nat) (n : Nat) (h : f.lsb + f.width ≤ 32) :
    (s.incSat f ix n).get f ix = satAdd f.width (s.get f ix) n := by
  have hlt : satAdd f.width (s.get f ix) n < 2 ^ f.width := by
    have := Nat.two_pow_pos f.width
    unfold satAdd
    omega
  rw [State.incSat, get_set_self _ _ _ _ h, Nat.mod_eq_of_lt hlt]

/-- A count and a unit's update, read off: the unit, the count, and what both leave. -/
theorem incSat_modMeas (s : State) (f : Fld) (ix : List Nat) (n : Nat) (u : Fin 16) (g : Meas → Meas) (h : f.lsb + f.width ≤ 32) :
    ((s.incSat f ix n).modMeas u g).meas = s.meas.set u (g s.meas[u]) ∧
      ((s.incSat f ix n).modMeas u g).get f ix = satAdd f.width (s.get f ix) n ∧
      (s.incSat f ix n).modMeas u g = { s with regs := ((s.incSat f ix n).modMeas u g).regs, meas := ((s.incSat f ix n).modMeas u g).meas } ∧
      regsSame [f.reg.key ix] s ((s.incSat f ix n).modMeas u g) :=
  ⟨rfl, ((measOnly_modMeas _ _ _).get _ _).trans (get_incSat_self s f ix n h), rfl,
    (measOnly_modMeas _ _ _).regsSame (regsSame_incSat _ _ _ (List.mem_singleton_self _) (regsSame_refl _ s))⟩

/-! ### What the gates' clauses state -/

theorem muGateOpen_opens (u : Fin 16) (s : State) (halways : s.act F.TM_MU_GATE_ALWAYS [u] = 0) (hgate : s.meas[u].gate = none)
    (hin : s.meas[u].gateIn = true) :
    exec (.muGateOpen u) s = .next { s with meas := s.meas.set u { emptied s.meas[u] with gate := some (s.now / 2048 * 2048) } } := by
  rw [exec_muGateOpen halways hgate hin, muOpen, modMeas, muClear_eq_emptied]

/-- A span that `w` bits hold is its own pattern. -/
theorem patternOf_sub {a b w : Nat} (hab : a < b) (hspan : b < a + 2 ^ w) : patternOf ((b : Int) - a) w = b - a := by
  have hcast : ((2 : Int) ^ w) = ((2 ^ w : Nat) : Int) := by push_cast; rfl
  rw [patternOf, ← Nat.cast_sub hab.le, hcast, ← Int.natCast_mod, Int.toNat_natCast, Nat.mod_eq_of_lt (by omega)]

/-- Flags that are clear add nothing to an entry. -/
theorem add_clear_flags (x p q y : Nat) : x + false.toNat * p + false.toNat * q + y = x + y := by
  rw [Bool.toNat_false, Nat.zero_mul, Nat.zero_mul]
  rfl

theorem muGateClose_freq (u k : Fin 16) (g : Nat) (a b : Stamp) (s : State) (halways : s.act F.TM_MU_GATE_ALWAYS [u] = 0) (hgate : s.meas[u].gate = some g)
    (hin : s.meas[u].gateIn = false) (hqueue : s.meas[u].queue = []) (hen : s.act F.TM_MU_CFG_EN [u] = 1) (hmode : s.act F.TM_MU_CFG_MODE [u] = 4)
    (ha : s.meas[u].a = some a) (hb : s.meas[u].lastA = some b) (hedges : 2 ≤ s.meas[u].edges) (hfew : s.meas[u].edges < 2 ^ 32) (hab : a.t < b.t)
    (hspan : b.t < a.t + 2 ^ 48) (howner : s.ownerMu u = some k) (hrgn : s.rgnSize k 2 ≠ 0) (hburst : s.sess[k].burst = none)
    (hstale : s.meas[u].stale = false) (hlossy : s.meas[u].lossy = []) :
    ∃ t, exec (.muGateClose u) s = .next t ∧
      t.meas = s.meas.set u { emptied s.meas[u] with
        gate := none,
        out := s.meas[u].out ++ [((a.t % 2 ^ 48 + u.val * 2 ^ 48 + 4 * 2 ^ 52 + s.meas[u].coincident.toNat * 2 ^ 55 + s.meas[u].quality * 2 ^ 56 + 3 * 2 ^ 60,
          b.t - a.t + 4 * 2 ^ 60, s.meas[u].edges - 1 + 5 * 2 ^ 60), s.runInst k)] } ∧
      t.get F.TM_MU_RESULTS_RESULTS [u] = satAdd F.TM_MU_RESULTS_RESULTS.width (s.get F.TM_MU_RESULTS_RESULTS [u]) 1 ∧
      t = { s with regs := t.regs, meas := t.meas } ∧ regsSame [Reg.key .TM_MU_RESULTS [u]] s t := by
  have hon : s.muOn u = true := by rw [muOn, hen, howner]; rfl
  have hcycles : min (s.meas[u].edges - 1) (2 ^ 32 - 1) = s.meas[u].edges - 1 := by omega
  refine ⟨_, (exec_muGateClose halways hgate hin hqueue hon).trans (by
    rw [muEnd_of_freq g hmode ha hb hedges, muResult_eq _ _ _ howner hrgn hburst hstale hlossy, modMeas_modMeas, modMeas_modMeas]), ?_⟩
  obtain ⟨hmeas, hrest⟩ := incSat_modMeas s F.TM_MU_RESULTS_RESULTS [u] 1 u (fun m => { muClear (muClear (resulted
    (resultHead (a.t : Int).toNat u (s.act F.TM_MU_CFG_MODE [u]) s.meas[u].coincident s.meas[u].quality false false) ((b.t : Int) - a.t)
      (s.meas[u].edges - 1) (s.runInst k) (s.muInputs u) m)) with gate := none }) (by decide)
  refine ⟨?_, hrest⟩
  rw [hmeas, muClear_eq_emptied, hmode, Int.toNat_natCast, resultHead, add_clear_flags]
  simp only [resulted, hlossy, List.filter_nil, patternOf_sub hab hspan, hcycles]

theorem muGateClose_unpaired (u : Fin 16) (g : Nat) (s : State) (halways : s.act F.TM_MU_GATE_ALWAYS [u] = 0) (hgate : s.meas[u].gate = some g)
    (hin : s.meas[u].gateIn = false) (hqueue : s.meas[u].queue = []) (hon : s.muOn u = true) (hmode : s.act F.TM_MU_CFG_MODE [u] ≠ 4)
    (hn : s.meas[u].n = 0) :
    ∃ t, exec (.muGateClose u) s = .next t ∧
      t.meas = s.meas.set u { emptied s.meas[u] with gate := none } ∧
      t.get F.TM_MU_CNT0_UNPAIRED [u] = satAdd F.TM_MU_CNT0_UNPAIRED.width (s.get F.TM_MU_CNT0_UNPAIRED [u])
        (s.meas[u].a.isSome.toNat + s.meas[u].b.isSome.toNat) ∧
      t = { s with regs := t.regs, meas := t.meas } ∧ regsSame [Reg.key .TM_MU_CNT0 [u]] s t := by
  refine ⟨_, (exec_muGateClose halways hgate hin hqueue hon).trans (by rw [muEnd_of_unpaired g hmode hn, modMeas_modMeas]), ?_⟩
  rw [← muClear_muClear]
  exact incSat_modMeas s F.TM_MU_CNT0_UNPAIRED [u] _ u _ (by decide)

end Sys2Proof.Machine
end

section
/-! Mask tests: windows and stray edges judged (R263–R266). -/

namespace Sys2Proof.Machine

open State

namespace State

/-! ### A test's update beside a count -/

section ModMask

variable (s : State) (m : Fin 16) (f : Mask → Mask) (g : Fld) (ix : List Nat) (n : Nat)

theorem incSat_modMask : (s.modMask m f).incSat g ix n = (s.incSat g ix n).modMask m f := (rfl)

theorem modMask_ownerMt : (s.modMask m f).ownerMt n = s.ownerMt n := (rfl)

theorem modMask_runInst (k : Fin 16) : (s.modMask m f).runInst k = s.runInst k := (rfl)

theorem incSat_modMask_frame :
    (s.incSat g ix n).modMask m f = { s with regs := ((s.incSat g ix n).modMask m f).regs, masks := ((s.incSat g ix n).modMask m f).masks } := (rfl)

theorem incSat_runInst (k : Fin 16) : (s.incSat g ix n).runInst k = s.runInst k := (rfl)

theorem incSat_act (h : Fld) (jx : List Nat) : (s.incSat g ix n).act h jx = s.act h jx := (rfl)

end ModMask

/-! ### Judgements outside a burst, and notes of a session (R371, R398) -/

/-- Outside a burst a judgement is not tallied (R371). -/
theorem tallyJudge_of_no_burst {s : State} {k : Fin 16} (h : s.sess[k].burst = none) (m : Fin 16) (viol stale : Bool) :
    s.tallyJudge k m viol stale = s := by
  rw [tallyJudge, tallying_of_no_burst h, if_neg Bool.false_ne_true, h]
  exact if_neg Bool.false_ne_true

/-- `t` is `s` but for what its sessions and cores note. -/
def NotesOnly (s t : State) : Prop := ∃ sess cores, t = { s with sess := sess, cores := cores }

theorem NotesOnly.refl (s : State) : NotesOnly s s := ⟨s.sess, s.cores, rfl⟩

theorem NotesOnly.trans {s t u : State} (h : NotesOnly s t) (g : NotesOnly t u) : NotesOnly s u := by
  obtain ⟨_, _, rfl⟩ := h
  obtain ⟨_, _, rfl⟩ := g
  exact ⟨_, _, rfl⟩

theorem NotesOnly.act {s t : State} (h : NotesOnly s t) (f : Fld) (ix : List Nat) : t.act f ix = s.act f ix := by
  obtain ⟨_, _, rfl⟩ := h
  rfl

theorem notesOnly_modSess (s : State) (k : Fin 16) (f : Sess → Sess) : NotesOnly s (s.modSess k f) := ⟨_, _, rfl⟩

theorem notesOnly_sticky (s : State) (k : Fin 16) (f : Ctx → Ctx) : NotesOnly s (s.sticky k f) := by
  unfold sticky
  split
  · exact ⟨_, _, rfl⟩
  · exact notesOnly_modSess _ _ _

theorem notesOnly_noteStale (s : State) (k : Fin 16) (b : Bool) : NotesOnly s (s.noteStale k b) := by
  unfold noteStale
  split
  · exact notesOnly_modSess _ _ _
  · exact NotesOnly.refl s

theorem notesOnly_tallyJudge (s : State) (k m : Fin 16) (viol stale : Bool) : NotesOnly s (s.tallyJudge k m viol stale) := by
  unfold tallyJudge
  split
  · exact (notesOnly_modSess _ _ _).trans (notesOnly_modSess _ _ _)
  split
  · exact notesOnly_modSess _ _ _
  · exact NotesOnly.refl s

/-! ### Violations (R264–R267) -/

/-- A session's records with one violation more (R266). -/
def violated (bytes : List Byte) (inst : Option (Nat × Nat)) (g : Gleaner) : Gleaner :=
  { g with violCount := sat32 g.violCount, viols := g.viols ++ [(bytes, inst)] }

/-- A violation of a test that stops nothing: its count, its record, and what the session and its core note of it (R264–R267). -/
theorem violation_notes {s : State} {m k : Fin 16} (howner : s.ownerMt m = some k) (hstop : s.act F.GL_MT_CFG_STOP [m] = 0) (tRef tA : Nat)
    (offset : Int) (cause q : Nat) (stale : Bool) :
    NotesOnly ((s.incSat F.GL_MT_VIOL_COUNT [m]).modGl k (violated (violBytes tRef tA offset m cause (stale.toNat + 2 * q)
      ((s.incSat F.GL_MT_VIOL_COUNT [m]).get F.GL_MT_VIOL_COUNT [m])) (s.runInst k))) (s.violation m tRef tA offset cause q stale) := by
  unfold violation
  rw [howner]
  dsimp only
  rw [incSat_runInst]
  have hnotes (t : State) : NotesOnly t ((((t.sticky k (fun x => { x with maskViol := true })).noteCond k Cond.maskViol).noteStale k stale).tallyJudge
      k m true stale) :=
    (((notesOnly_sticky _ _ _).trans (notesOnly_modSess _ _ _)).trans (notesOnly_noteStale _ _ _)).trans (notesOnly_tallyJudge _ _ _ _ _)
  split
  case isTrue h =>
    rw [(hnotes _).act, modGl_act, incSat_act, hstop] at h
    omega
  · exact hnotes _

end State

/-- A test's update, a count and a session's records, with notes of sessions and cores after them, read off. -/
theorem notesOnly_readOff {s t : State} {m k : Fin 16} {f : Mask → Mask} {g : Fld} {ix : List Nat} {rec : Gleaner → Gleaner}
    (h : NotesOnly (((s.modMask m f).incSat g ix).modGl k rec) t) (hw : g.lsb + g.width ≤ 32) :
    t.masks = s.masks.set m (f s.masks[m]) ∧ t.get g ix = satAdd g.width (s.get g ix) 1 ∧ t.gleaners = s.gleaners.set k (rec s.gleaners[k]) ∧
      t = { s with regs := t.regs, masks := t.masks, gleaners := t.gleaners, sess := t.sess, cores := t.cores } ∧ regsSame [g.reg.key ix] s t := by
  obtain ⟨_, _, rfl⟩ := h
  exact ⟨rfl, get_incSat_self s g ix 1 hw, rfl, rfl,
    regsSame_other (regsSame_incSat g ix 1 (List.mem_singleton_self _) (regsSame_refl _ s)) rfl⟩

/-- A test's violation after its own update, read off: its count, its record, and what is left alone (R264–R267). -/
theorem violation_readOff {s : State} {m k : Fin 16} (f : Mask → Mask) (howner : s.ownerMt m = some k) (hstop : s.act F.GL_MT_CFG_STOP [m] = 0)
    (tRef tA : Nat) (offset : Int) (cause q : Nat) (stale : Bool) :
    ∃ t, (s.modMask m f).violation m tRef tA offset cause q stale = t ∧ t.masks = s.masks.set m (f s.masks[m]) ∧
      t.get F.GL_MT_VIOL_COUNT [m] = satAdd F.GL_MT_VIOL_COUNT.width (s.get F.GL_MT_VIOL_COUNT [m]) 1 ∧
      t.gleaners = s.gleaners.set k { s.gleaners[k] with
        violCount := min (s.gleaners[k].violCount + 1) (2 ^ 32 - 1),
        viols := s.gleaners[k].viols ++
          [(violBytes tRef tA offset m cause (stale.toNat + 2 * q) (t.get F.GL_MT_VIOL_COUNT [m]), s.runInst k)] } ∧
      t = { s with regs := t.regs, masks := t.masks, gleaners := t.gleaners, sess := t.sess, cores := t.cores } ∧
      regsSame [Reg.key .GL_MT_VIOL [m]] s t := by
  obtain ⟨hmasks, hget, hgl, hframe, hregs⟩ := notesOnly_readOff (violation_notes (s := s.modMask m f)
    ((modMask_ownerMt s m f _).trans howner) ((modMask_act s m f _ _).trans hstop) tRef tA offset cause q stale) (by decide)
  refine ⟨_, rfl, hmasks, hget, ?_, hframe, hregs⟩
  rw [hgl, hget, get_incSat_self _ _ _ _ (by decide), modMask_get, modMask_runInst]
  rfl

theorem masks_set_self (s : State) (m : Fin 16) (y : Mask) : (s.masks.set m y)[m] = y := by simp

theorem masks_set_ne (s : State) {m j : Fin 16} (y : Mask) (h : j ≠ m) : (s.masks.set m y)[j] = s.masks[j] := by
  have hval : m.val ≠ j.val := fun e => h (Fin.ext e.symm)
  simp [hval]

section Window

variable {s : State} {m : Fin 16} {w : MaskWin} {rest : List MaskWin}

/-- What a test holds once its oldest window is judged (R263). -/
def afterWindow (s : State) (m : Fin 16) (w : MaskWin) (rest : List MaskWin) (y : Mask) : Mask :=
  { y with wins := rest, spare := y.spare ++ w.extra, lostAt := y.lostAt.filter (fun x => decide (s.winLo m w ≤ x)) }

theorem exec_maskWindowJudge (hwins : s.masks[m].wins = w :: rest) (hclosed : s.winHi m w < s.now) :
    exec (.maskWindowJudge m) s = .next ((s.modMask m (afterWindow s m w rest)).judgeWin m w) := by
  rw [exec, execMaskWindowJudge, hwins]
  exact if_pos hclosed

theorem exec_maskWindowJudge_open (hwins : s.masks[m].wins = w :: rest) (hopen : (s.now : Int) ≤ s.winHi m w) :
    exec (.maskWindowJudge m) s = .next s := by
  rw [exec, execMaskWindowJudge, hwins]
  exact if_neg (not_lt.mpr hopen)

/-- A window with one edge in it passes, and without a burst only its count tells (R264, R371). -/
theorem judgeWin_pass {a b : Stamp} (hb : b.stale = false) (ha : a.stale = false) (hburst : ∀ k : Fin 16, s.sess[k].burst = none) :
    s.judgeWin m ⟨b, some a, [], false⟩ = s.incSat F.GL_MT_PASS_COUNT [m] := by
  unfold judgeWin
  simp only [hb, ha, Bool.or_false, Bool.false_eq_true, if_false]
  split
  next k _ =>
    rw [tallyJudge_of_no_burst (show (s.incSat F.GL_MT_PASS_COUNT [m]).sess[k].burst = none by rw [incSat_sess]; exact hburst k)]
    rfl
  next => rfl

theorem judgeWin_empty {b : Stamp} : s.judgeWin m ⟨b, none, [], false⟩ = s.violation m b.t 0 0 1 b.quality b.stale := rfl

end Window

/-! ### What the windows' clauses state -/

theorem maskWindowJudge_passes (m : Fin 16) (b a : Stamp) (rest : List MaskWin) (s : State) (hwins : s.masks[m].wins = ⟨b, some a, [], false⟩ :: rest)
    (hclosed : s.winHi m ⟨b, some a, [], false⟩ < s.now) (hb : b.stale = false) (ha : a.stale = false)
    (hburst : ∀ k : Fin 16, s.sess[k].burst = none) :
    ∃ t, exec (.maskWindowJudge m) s = .next t ∧ t.masks[m].wins = rest ∧ t.masks[m].loose = s.masks[m].loose ∧
      t.get F.GL_MT_PASS_COUNT [m] = satAdd F.GL_MT_PASS_COUNT.width (s.get F.GL_MT_PASS_COUNT [m]) 1 ∧
      (∀ j : Fin 16, j ≠ m → t.masks[j] = s.masks[j]) ∧ t = { s with regs := t.regs, masks := t.masks } ∧
      regsSame [Reg.key .GL_MT_PASS [m]] s t := by
  refine ⟨(s.incSat F.GL_MT_PASS_COUNT [m]).modMask m (afterWindow s m ⟨b, some a, [], false⟩ rest), ?_, ?_, ?_, ?_, ?_,
    incSat_modMask_frame _ _ _ _ _ _, ?_⟩
  · rw [exec_maskWindowJudge hwins hclosed, judgeWin_pass hb ha (by rw [modMask_sess]; exact hburst), incSat_modMask]
  · rw [modMask_self]
    rfl
  · rw [modMask_self, incSat_masks]
    rfl
  · rw [modMask_get, get_incSat_self _ _ _ _ (by decide)]
  · intro j hj
    rw [modMask_ne _ _ _ _ hj.symm, incSat_masks]
  · exact regsSame_other (regsSame_incSat _ _ _ (List.mem_singleton_self _) (regsSame_refl _ s)) (modMask_regs _ _ _)

theorem maskWindowJudge_misses (m k : Fin 16) (b : Stamp) (rest : List MaskWin) (s : State) (hwins : s.masks[m].wins = ⟨b, none, [], false⟩ :: rest)
    (hclosed : s.winHi m ⟨b, none, [], false⟩ < s.now) (howner : s.ownerMt m = some k) (hstop : s.act F.GL_MT_CFG_STOP [m] = 0) :
    ∃ t, exec (.maskWindowJudge m) s = .next t ∧ t.masks[m].wins = rest ∧
      t.get F.GL_MT_VIOL_COUNT [m] = satAdd F.GL_MT_VIOL_COUNT.width (s.get F.GL_MT_VIOL_COUNT [m]) 1 ∧
      t.gleaners = s.gleaners.set k { s.gleaners[k] with
        violCount := min (s.gleaners[k].violCount + 1) (2 ^ 32 - 1),
        viols := s.gleaners[k].viols ++
          [(State.violBytes b.t 0 0 m 1 (b.stale.toNat + 2 * b.quality) (t.get F.GL_MT_VIOL_COUNT [m]), s.runInst k)] } ∧
      (∀ j : Fin 16, j ≠ m → t.masks[j] = s.masks[j]) ∧
      t = { s with regs := t.regs, masks := t.masks, gleaners := t.gleaners, sess := t.sess, cores := t.cores } ∧
      regsSame [Reg.key .GL_MT_VIOL [m]] s t := by
  obtain ⟨t, rfl, hmasks, hcount, hgl, hframe, hregs⟩ := violation_readOff (afterWindow s m ⟨b, none, [], false⟩ rest) howner hstop
    b.t 0 0 1 b.quality b.stale
  refine ⟨_, (exec_maskWindowJudge hwins hclosed).trans (by rw [judgeWin_empty]), ?_, hcount, hgl, ?_, hframe, hregs⟩
  · rw [hmasks, masks_set_self]
    rfl
  · intro j hj
    rw [hmasks, masks_set_ne _ _ hj]

theorem strayJudge_violates (m k : Fin 16) (x : Stamp) (rest : List Stamp) (s : State) (hloose : s.masks[m].loose = x :: rest)
    (hdue : s.strayDue m x = true) (howner : s.ownerMt m = some k) (hstop : s.act F.GL_MT_CFG_STOP [m] = 0)
    (hstray : s.act F.GL_MT_CFG_STRAY_EN [m] = 1) :
    ∃ t, exec (.strayJudge m) s = .next t ∧ t.masks = s.masks.set m { s.masks[m] with loose := rest } ∧
      t.get F.GL_MT_VIOL_COUNT [m] = satAdd F.GL_MT_VIOL_COUNT.width (s.get F.GL_MT_VIOL_COUNT [m]) 1 ∧
      t.gleaners = s.gleaners.set k { s.gleaners[k] with
        violCount := min (s.gleaners[k].violCount + 1) (2 ^ 32 - 1),
        viols := s.gleaners[k].viols ++
          [(State.violBytes 0 x.t 0 m 3 (x.stale.toNat + 2 * x.quality) (t.get F.GL_MT_VIOL_COUNT [m]), s.runInst k)] } ∧
      t = { s with regs := t.regs, masks := t.masks, gleaners := t.gleaners, sess := t.sess, cores := t.cores } ∧
      regsSame [Reg.key .GL_MT_VIOL [m]] s t := by
  obtain ⟨t, rfl, hrest⟩ := violation_readOff (fun y => { y with loose := rest }) howner hstop 0 x.t 0 3 x.quality x.stale
  refine ⟨_, ?_, hrest⟩
  rw [exec, execStrayJudge, hloose]
  dsimp only
  rw [if_pos hdue, modMask_act, if_pos hstray]

theorem strayJudge_uncounted (m : Fin 16) (x : Stamp) (rest : List Stamp) (s : State) (hloose : s.masks[m].loose = x :: rest) :
    (s.strayDue m x = false → exec (.strayJudge m) s = .next s) ∧
    (s.strayDue m x = true → s.act F.GL_MT_CFG_STRAY_EN [m] ≠ 1 →
      exec (.strayJudge m) s = .next { s with masks := s.masks.set m { s.masks[m] with loose := rest } }) := by
  refine ⟨fun hnot => ?_, fun hdue hstray => ?_⟩ <;> rw [exec, execStrayJudge, hloose] <;> dsimp only
  · rw [hnot, if_neg Bool.false_ne_true]
  · rw [if_pos hdue, modMask_act, if_neg hstray]
    rfl

end Sys2Proof.Machine
end

section
/-! The wrap of TBC[47:0] and the stamp streams (R69, R276, R280, R281). -/

namespace Sys2Proof.Machine

open State

/-- `t` differs from `s` in nothing that another session's stream, the time base, its events or a setting shows: what draining session `k`'s stream may
do (R276, R281). -/
structure StreamOf (k : Fin 16) (s t : State) : Prop where
  tb : t.tb = s.tb
  active : t.regs.active = s.regs.active
  events : t.freshK (Reg.key .TB_EVENTS []) = s.freshK (Reg.key .TB_EVENTS [])
  others : ∀ j : Fin 16, j ≠ k → t.gleaners[j] = s.gleaners[j]

namespace StreamOf

variable {k : Fin 16} {s t u : State}

theorem refl (s : State) : StreamOf k s s := ⟨rfl, rfl, rfl, fun _ _ => rfl⟩

theorem trans (h : StreamOf k s t) (g : StreamOf k t u) : StreamOf k s u :=
  ⟨g.tb.trans h.tb, g.active.trans h.active, g.events.trans h.events, fun j hj => (g.others j hj).trans (h.others j hj)⟩

theorem ite {c : Prop} [Decidable c] (h : StreamOf k s t) (g : StreamOf k s u) : StreamOf k s (if c then t else u) := by
  split
  · exact h
  · exact g

/-! ### One update at a time -/

/-- An update of neither the time base nor the settings nor a record of this cycle nor a stream. -/
theorem other (h : StreamOf k s t) (tb : u.tb = t.tb) (active : u.regs.active = t.regs.active) (fresh : u.regs.fresh = t.regs.fresh)
    (gleaners : u.gleaners = t.gleaners) : StreamOf k s u :=
  h.trans ⟨tb, active, by rw [freshK, freshK, fresh], fun j _ => by rw [gleaners]⟩

theorem set (h : StreamOf k s t) (f : Fld) (ix : List Nat) (v : Nat) : StreamOf k s (t.set f ix v) := h.other rfl rfl rfl rfl

theorem incSat (h : StreamOf k s t) (f : Fld) (ix : List Nat) (n : Nat) : StreamOf k s (t.incSat f ix n) := h.set f ix _

theorem modSess (h : StreamOf k s t) (n : Fin 16) (f : Sess → Sess) : StreamOf k s (t.modSess n f) := h.other rfl rfl rfl rfl

theorem modHost (h : StreamOf k s t) (n : Fin 16) (f : HostSess → HostSess) : StreamOf k s (t.modHost n f) := h.other rfl rfl rfl rfl

theorem modInput (h : StreamOf k s t) (i : Fin 112) (f : Input → Input) : StreamOf k s (t.modInput i f) := h.other rfl rfl rfl rfl

theorem modMeas (h : StreamOf k s t) (u : Fin 16) (f : Meas → Meas) : StreamOf k s (t.modMeas u f) := h.other rfl rfl rfl rfl

theorem modFlt (h : StreamOf k s t) (f : Faults → Faults) : StreamOf k s (t.modFlt f) := h.other rfl rfl rfl rfl

theorem drained (h : StreamOf k s t) (n : Nat) : StreamOf k s { t with drained := n } := h.other rfl rfl rfl rfl

theorem inputs (h : StreamOf k s t) (v : Vector Input 112) : StreamOf k s { t with inputs := v } := h.other rfl rfl rfl rfl

theorem modGl (h : StreamOf k s t) (f : Gleaner → Gleaner) : StreamOf k s (t.modGl k f) :=
  h.trans ⟨rfl, rfl, rfl, fun j hj => modGl_ne t k j f hj.symm⟩

/-- A record of this cycle past the time base's events. -/
theorem putFresh (h : StreamOf k s t) (j : Nat) (v : Word) (hj : Reg.key .TB_EVENTS [] ≠ j) : StreamOf k s (t.putFresh j v) :=
  h.trans ⟨rfl, rfl, freshK_putFresh_ne t j _ v hj, fun _ _ => rfl⟩

theorem count (h : StreamOf k s t) (f : Fld) (ix : List Nat) (n : Nat) (hf : Reg.key .TB_EVENTS [] < f.reg.row.base) :
    StreamOf k s (t.count f ix n) := h.putFresh _ _ (lt_of_lt_of_le hf (key_ge_base f.reg ix)).ne

theorem raise (h : StreamOf k s t) (f : Fld) (ix : List Nat) (hf : Reg.key .TB_EVENTS [] < f.reg.row.base) :
    StreamOf k s (t.raise f ix) := h.putFresh _ _ (lt_of_lt_of_le hf (key_ge_base f.reg ix)).ne

theorem foldl {α : Type} (f : State → α → State) (hf : ∀ s x, StreamOf k s (f s x)) (l : List α) (s : State) : StreamOf k s (l.foldl f s) := by
  induction l generalizing s with
  | nil => exact refl s
  | cons x t ih => exact (hf s x).trans (ih _)

end StreamOf

/-! ### What draining a stream does (R276–R281, R401, R402) -/

section Draining

variable {k : Fin 16}

theorem streamOf_detect (s : State) (det unit_ : Nat) (cls : Resp) (injected : Bool) (owner : Option (Fin 16)) :
    StreamOf k s (s.detect det unit_ cls injected owner) := by
  have hcount := (StreamOf.refl (k := k) s).count F.FLT_CNT_COUNT [det - 1] 1 (by decide)
  exact StreamOf.ite ((((((((hcount.set _ _ _).set _ _ _).set _ _ _).set _ _ _).set _ _ _).set _ _ _).set _ _ _).raise _ _ (by decide)) hcount

theorem streamOf_takeInject (s : State) (det unit_ : Nat) : StreamOf k s (s.takeInject det unit_).2 := by
  unfold takeInject
  split
  next =>
    split
    next =>
      split
      next => exact (((StreamOf.refl s).modFlt _).set _ _ _).raise _ _ (by decide)
      next => dsimp only; exact (StreamOf.refl s).modFlt _
    next => exact StreamOf.refl s
  next => exact StreamOf.refl s

theorem streamOf_sramCe (s : State) (code : Nat) (owner : Option (Fin 16)) : StreamOf k s (s.sramCe code owner) :=
  StreamOf.ite ((streamOf_takeInject s 3 code).trans (streamOf_detect _ _ _ _ _ _)) (streamOf_takeInject s 3 code)

theorem streamOf_putEntry (s : State) (n : Fin 16) (r : Fin 4) (bytes : List Byte) (intr : Bool) : StreamOf k s (s.putEntry n r bytes intr) := by
  obtain ⟨_, _, _, -, e, -⟩ := putEntry_frame s n r bytes intr
  rw [e]
  exact (StreamOf.refl s).other rfl rfl rfl rfl

theorem streamOf_flushWaiting (n : Fin 16) (fuel : Nat) (s : State) : StreamOf k s (s.flushWaiting n fuel) := by
  induction fuel generalizing s with
  | zero => exact StreamOf.refl s
  | succ fuel ih =>
    unfold State.flushWaiting
    split
    next => exact StreamOf.refl s
    next => exact StreamOf.ite ((((StreamOf.refl s).modHost _ _).trans (streamOf_putEntry _ _ _ _ _)).trans (ih _)) (StreamOf.refl s)

theorem streamOf_staleMsg (s : State) (n : Fin 16) (tag epoch : Nat) : StreamOf k s (s.staleMsg n tag epoch) := by
  have hcount := (StreamOf.refl (k := k) s).count F.DB_CNT1_STALE [n] 1 (by decide)
  exact StreamOf.ite hcount (((hcount.modHost _ _).modHost _ _).trans (streamOf_flushWaiting _ _ _))

theorem streamOf_forInst {s : State} {n : Fin 16} {inst : Option (Nat × Nat)} {act : State → State} (h : StreamOf k s (act s)) :
    StreamOf k s (s.forInst n inst act) := by
  unfold State.forInst
  split
  · exact StreamOf.ite h (streamOf_staleMsg _ _ _ _)
  · exact h

theorem streamOf_noteCond (s : State) (n : Fin 16) (bit : Nat) : StreamOf k s (s.noteCond n bit) := (StreamOf.refl s).modSess _ _

theorem streamOf_noteStale (s : State) (n : Fin 16) (b : Bool) : StreamOf k s (s.noteStale n b) :=
  StreamOf.ite (streamOf_noteCond _ _ _) (StreamOf.refl s)

theorem streamOf_writeView (s : State) (n a : Nat) (bs : List Byte) : StreamOf k s (s.writeView n a bs) := (StreamOf.refl s).other rfl rfl rfl rfl

theorem streamOf_setWptr (s : State) (r : Fin 3) (p : RgnAlloc) : StreamOf k s (s.setWptr k r p) :=
  (((StreamOf.refl s).modGl _).set _ _ _).set _ _ _

theorem streamOf_writeUnit (s : State) (r : Fin 3) (bs : List Byte) : StreamOf k s (s.writeUnit k r bs).1 := by
  unfold writeUnit
  dsimp only
  split
  · exact (streamOf_writeView s _ _ _).trans (streamOf_setWptr _ _ _)
  · exact StreamOf.refl s

theorem streamOf_lineLost (s : State) (l : List Nat) : StreamOf k s (s.lineLost l) := (StreamOf.refl s).inputs _

theorem streamOf_writeLine (s : State) : StreamOf k s (s.writeLine k) := by
  have hwritten (bs : List Byte) : StreamOf k s ((s.writeUnit k 2 bs).1.modGl k (fun g => { g with line := [] })) :=
    (streamOf_writeUnit s 2 bs).modGl _
  refine StreamOf.ite (StreamOf.refl s) (StreamOf.ite (StreamOf.ite ((hwritten _).incSat _ _ _) (hwritten _)) ?_)
  exact (((hwritten _).count F.TM_SESS_LOST_REGION_LOST [k] _ (by decide)).trans (streamOf_noteCond _ _ _)).trans (streamOf_lineLost _ _)

theorem streamOf_openLine (s : State) : StreamOf k s (s.openLine k) := StreamOf.ite ((streamOf_writeLine s).modGl _) (StreamOf.refl s)

theorem streamOf_addEntries (s : State) (es : List Nat) : StreamOf k s (s.addEntries k es) := by
  unfold addEntries
  split
  next => exact StreamOf.refl s
  next =>
    have hroom : StreamOf k s (if 8 < (s.openLine k).gleaners[k].line.length + es.length then (s.openLine k).writeLine k else s.openLine k) :=
      StreamOf.ite ((streamOf_openLine s).trans (streamOf_writeLine _)) (streamOf_openLine s)
    exact StreamOf.ite ((hroom.modGl _).trans (streamOf_writeLine _)) (hroom.modGl _)

theorem streamOf_drainStamp (s : State) (i : Fin 112) : StreamOf k s (s.drainStamp k i) := by
  unfold drainStamp
  split
  next => exact StreamOf.refl s
  next x t _ =>
    have htaken := (((StreamOf.refl (k := k) s).modInput i
      (fun y => { y with fifo := t, owed := s.inputs[i].owed || x.loss })).trans (streamOf_sramCe _ 0x32 (some k))).trans (streamOf_takeInject _ 4 0x32)
    refine StreamOf.ite ?_ (StreamOf.ite ?_ htaken)
    · exact ((htaken.trans (streamOf_detect _ _ _ _ _ _)).count F.TM_IN_CNT_LOST [i] 1 (by decide)).modInput _ _
    · exact htaken.trans (streamOf_forInst ((((StreamOf.refl _).modInput _ _).trans (streamOf_addEntries _ _)).trans (streamOf_noteStale _ _ _)))

theorem streamOf_drainResult (s : State) (u : Fin 16) : StreamOf k s (s.drainResult k u) := by
  unfold drainResult
  split
  next => exact StreamOf.refl s
  next => exact ((StreamOf.refl s).modMeas _ _).trans (streamOf_forInst (streamOf_addEntries _ _))

theorem streamOf_drainTurns (fuel : Nat) (s : State) : StreamOf k s (s.drainTurns k fuel) := by
  induction fuel generalizing s with
  | zero => exact StreamOf.refl s
  | succ fuel ih =>
    unfold drainTurns
    split
    next => exact StreamOf.refl s
    next => exact ((streamOf_drainStamp s _).drained _).trans (ih _)

theorem streamOf_drainAll (s : State) : StreamOf k s (s.drainAll k) :=
  (streamOf_drainTurns _ s).trans (StreamOf.foldl _
    (fun t _ => StreamOf.ite (StreamOf.foldl _ (fun t _ => streamOf_drainResult t _) _ t) (StreamOf.refl t)) _ _)

end Draining

/-! ### A stream goes on from a marker (R280) -/

section Rollover

variable (s : State) (k : Fin 16) (hi : Nat)

theorem rollover_of_no_region (h : s.rgnSize k 2 = 0) : s.rollover k hi = s := if_pos h

theorem rollover_of_region (h : s.rgnSize k 2 ≠ 0) :
    s.rollover k hi = (((s.drainAll k).openLine k).writeLine k).modGl k (fun g => { g with line := [hi % 65536 + 2 * 2 ^ 60] }) := if_neg h

theorem streamOf_rollover : StreamOf k s (s.rollover k hi) :=
  StreamOf.ite (StreamOf.refl s) ((((streamOf_drainAll s).trans (streamOf_openLine _)).trans (streamOf_writeLine _)).modGl _)

end Rollover

/-! ### No first marker is owed once the stream is open (R280) -/

section Opened

variable (s : State) (k : Fin 16)

/-- Does a session's stream still owe its first marker? -/
def owesMarker : Bool := s.gleaners[k].open_

variable {s k} in
theorem owesMarker_of_gleaners {t : State} (h : t.gleaners = s.gleaners) : owesMarker t k = owesMarker s k := by
  rw [owesMarker, owesMarker, h]

theorem owesMarker_modGl {f : Gleaner → Gleaner} (hf : ∀ g, (f g).open_ = g.open_) : owesMarker (s.modGl k f) k = owesMarker s k := by
  rw [owesMarker, modGl_self, hf, owesMarker]

theorem owesMarker_setWptr (r : Fin 3) (p : RgnAlloc) : owesMarker (s.setWptr k r p) k = owesMarker s k := by
  unfold setWptr
  refine (owesMarker_of_gleaners ((set_gleaners _ _ _ _).trans (set_gleaners _ _ _ _))).trans (owesMarker_modGl _ k ?_)
  exact fun _ => rfl

theorem writeView_gleaners (n a : Nat) (bs : List Byte) : (s.writeView n a bs).gleaners = s.gleaners := rfl

theorem lineLost_gleaners (l : List Nat) : (s.lineLost l).gleaners = s.gleaners := by rw [lineLost]

theorem noteLoss_gleaners : (s.noteLoss k).gleaners = s.gleaners := rfl

theorem owesMarker_writeUnit (r : Fin 3) (bs : List Byte) : owesMarker (s.writeUnit k r bs).1 k = owesMarker s k := by
  unfold writeUnit
  dsimp only
  split
  · exact (owesMarker_setWptr _ k r _).trans (owesMarker_of_gleaners (writeView_gleaners s _ _ _))
  · rfl

theorem owesMarker_writeLine : owesMarker (s.writeLine k) k = owesMarker s k := by
  have hwritten (bs : List Byte) : owesMarker ((s.writeUnit k 2 bs).1.modGl k (fun g => { g with line := [] })) k = owesMarker s k :=
    (owesMarker_modGl _ k (f := fun g => { g with line := [] }) (fun _ => rfl)).trans (owesMarker_writeUnit s k 2 bs)
  unfold writeLine
  dsimp only
  split
  · rfl
  split
  · split
    · exact (owesMarker_of_gleaners (incSat_gleaners _ _ _ _)).trans (hwritten _)
    · exact hwritten _
  · exact (owesMarker_of_gleaners ((lineLost_gleaners _ _).trans ((noteLoss_gleaners _ k).trans (count_gleaners _ _ _ _)))).trans (hwritten _)

theorem owesMarker_openLine : owesMarker (s.openLine k) k = false := by
  unfold openLine
  split
  · rw [owesMarker, modGl_self]
  next h => exact Bool.eq_false_iff.mpr h

theorem rollover_stream (hi : Nat) (h : s.rgnSize k 2 ≠ 0) :
    (s.rollover k hi).gleaners[k].line = [hi % 65536 + 2 * 2 ^ 60] ∧ (s.rollover k hi).gleaners[k].open_ = false := by
  rw [rollover_of_region s k hi h]
  refine ⟨by rw [modGl_self], ?_⟩
  exact (owesMarker_modGl _ k (f := fun g => { g with line := [hi % 65536 + 2 * 2 ^ 60] }) (fun _ => rfl)).trans
    ((owesMarker_writeLine _ k).trans (owesMarker_openLine _ k))

end Opened

/-! ### Every session's stream at the wrap -/

theorem now_of_tb {s t : State} (h : t.tb = s.tb) : t.now = s.now := by rw [now, now, h]

theorem rgnSize_of_active {s t : State} (h : t.regs.active = s.regs.active) (k r : Nat) : t.rgnSize k r = s.rgnSize k r := by
  rw [rgnSize, rgnSize, act, act, activeK, activeK, h]

/-- The marker's turn of one session. -/
def rollTurn (s : State) (k : Fin 16) : State := s.rollover k (s.now / 2 ^ 48)

/-- What the sessions of a list keep and hold once each has had its turn. -/
structure Rolled (l : List (Fin 16)) (s t : State) : Prop where
  tb : t.tb = s.tb
  events : t.freshK (Reg.key .TB_EVENTS []) = s.freshK (Reg.key .TB_EVENTS [])
  marked : ∀ k ∈ l, s.rgnSize k 2 ≠ 0 → t.gleaners[k].line = [s.now / 2 ^ 48 % 65536 + 2 * 2 ^ 60] ∧ t.gleaners[k].open_ = false
  kept : ∀ k : Fin 16, k ∉ l ∨ s.rgnSize k 2 = 0 → t.gleaners[k] = s.gleaners[k]

theorem rolled_foldl (l : List (Fin 16)) (hnodup : l.Nodup) (s : State) : Rolled l s (l.foldl rollTurn s) := by
  induction l generalizing s with
  | nil => exact ⟨rfl, rfl, by simp, fun _ _ => rfl⟩
  | cons x l ih =>
    obtain ⟨hx, hl⟩ := List.nodup_cons.mp hnodup
    have hturn : StreamOf x s (rollTurn s x) := streamOf_rollover s x _
    have hnow := now_of_tb hturn.tb
    obtain ⟨htb, hevents, hmarked, hkept⟩ := ih hl (rollTurn s x)
    simp only [rgnSize_of_active hturn.active, hnow] at hmarked hkept
    refine ⟨htb.trans hturn.tb, hevents.trans hturn.events, fun k hk hrgn => ?_, fun k hk => ?_⟩
    · rcases List.mem_cons.mp hk with rfl | hk
      · rw [List.foldl_cons, hkept k (Or.inl hx)]
        exact rollover_stream s k _ hrgn
      · exact hmarked k hk hrgn
    · have hlater : k ∉ l ∨ s.rgnSize k 2 = 0 := hk.imp_left (fun h hm => h (List.mem_cons_of_mem x hm))
      rw [List.foldl_cons, hkept k hlater]
      rcases eq_or_ne k x with rfl | hne
      · rw [rollTurn, rollover_of_no_region s k _ (hk.resolve_left (fun h => h List.mem_cons_self))]
      · exact hturn.others k hne

section Wrap

variable (s : State)

/-- The part's streams once every session has had its turn. -/
def rolledAll : State := (List.finRange 16).foldl rollTurn (s.tbEvent 8)

theorem rolled_rolledAll : Rolled (List.finRange 16) (s.tbEvent 8) (rolledAll s) := rolled_foldl _ (List.nodup_finRange 16) _

theorem rolledAll_tb : (rolledAll s).tb = s.tb := (rolled_rolledAll s).tb

theorem exec_tbc48Wrap : exec .tbc48Wrap s = .next { rolledAll s with tb := { s.tb with streamHi := s.now / 2 ^ 48 } } := by
  have hexec : exec .tbc48Wrap s = .next ((rolledAll s).modTb (fun x => { x with streamHi := (rolledAll s).now / 2 ^ 48 })) := rfl
  rw [hexec, modTb, rolledAll_tb, now_of_tb (rolledAll_tb s)]

theorem tbEvent_rgnSize (k r bit : Nat) : (s.tbEvent bit).rgnSize k r = s.rgnSize k r := tbEvent_act s bit _ _

end Wrap

/-! ### What the wrap's clauses state -/

theorem tbc48Wrap_without_streams (s : State) (h : ∀ k : Fin 16, s.rgnSize k 2 = 0) :
    exec .tbc48Wrap s = .next { s.tbEvent 8 with tb := { s.tb with streamHi := s.now / 2 ^ 48 } } := by
  have hnone : rolledAll s = s.tbEvent 8 :=
    foldl_id _ _ _ (fun k _ => rollover_of_no_region _ k _ ((tbEvent_rgnSize s k 2 8).trans (h k)))
  rw [exec_tbc48Wrap, hnone]

theorem tbc48Wrap_marks (s : State) :
    ∃ t, exec .tbc48Wrap s = .next t ∧ bitOf (t.freshK (Reg.key .TB_EVENTS [])).toNat 8 = true ∧ t.tb.streamHi = s.now / 2 ^ 48 ∧
      (∀ k : Fin 16, s.rgnSize k 2 ≠ 0 → t.gleaners[k].line = [s.now / 2 ^ 48 % 65536 + 2 * 2 ^ 60] ∧ t.gleaners[k].open_ = false) ∧
      (∀ k : Fin 16, s.rgnSize k 2 = 0 → t.gleaners[k] = s.gleaners[k]) := by
  obtain ⟨-, hevents, hmarked, hkept⟩ := rolled_rolledAll s
  have hevent : EventSet 8 (rolledAll s) := by
    rw [EventSet, hevents]
    exact eventSet_tbEvent s (by decide)
  simp only [tbEvent_rgnSize, now_of_tb (tbEvent_tb s 8)] at hmarked hkept
  exact ⟨_, exec_tbc48Wrap s, hevent, rfl, fun k hk => hmarked k (List.mem_finRange k) hk, fun k hk => hkept k (Or.inr hk)⟩

/-- Settles O45, clause by clause: the gates, the windows, the stray edges, and the streams at the wrap, session by session. -/
theorem edgesAreMeasured : Obligations.EdgesAreMeasured := by
  unfold Obligations.EdgesAreMeasured
  refine ⟨muGateOpen_opens, ?_, muGateClose_unpaired, maskWindowJudge_passes, maskWindowJudge_misses, ?_, strayJudge_violates, strayJudge_uncounted,
    tbc48Wrap_without_streams, tbc48Wrap_marks⟩
  · intro u k g a b s halways hgate hin hqueue hen hmode ha hb hedges hfew hab hspan howner hrgn hburst hstale hlossy _
    exact muGateClose_freq u k g a b s halways hgate hin hqueue hen hmode ha hb hedges hfew hab hspan howner hrgn hburst hstale hlossy
  · exact fun m w rest s hwins hopen => exec_maskWindowJudge_open hwins hopen

end Sys2Proof.Machine
end

section
/-! The start of an idle output whose sequence has been stopped: it discards its queue and plays nothing (R171, R235, R239). -/

namespace Sys2Proof.Machine

namespace State

/-! ### An idle unit and what its start calls for -/

theorem modFeed_feed (s : State) (u : PlayUnit) (f : Feed → Feed) : (s.modFeed u f).feed u = f (s.feed u) := by
  cases u with
  | slice n => exact congrArg Slice.feed (modSlice_self s n _)
  | out o => exact congrArg Ao.feed (modAo_self s o _)

theorem modFeed_sess (s : State) (u : PlayUnit) (f : Feed → Feed) : (s.modFeed u f).sess = s.sess := by
  cases u <;> rfl

theorem presentFrom_ne_zero (f : Feed) {d : Seg} {i v : Nat} {rest : List Nat} (hi : i < d.length) : presentFrom f d (v :: rest) i ≠ 0 := by
  simp only [presentFrom, List.length_cons]
  omega

theorem wantsVec_of_idle {s : State} {u : PlayUnit} {d : Seg} {t v : Nat} {rest : List Nat} (hplay : (s.feed u).play = none)
    (hstart : (s.feed u).startAt = some t) (hqueue : (s.feed u).queue = [.seg d]) (hbuf : (s.feed u).buf = v :: rest) (hlen : 0 < d.length) :
    s.wantsVec u t = false := by
  have hone := presentFrom_ne_zero (s.feed u) (v := v) (rest := rest) hlen
  simp [wantsVec, nextOf, resuming, hplay, hstart, hqueue, hbuf, popQueue, hone]

/-- The underrun of R239 is a missing vector's: where the next one is present a stop brings nothing but the stop. -/
theorem stopMeets_of_present {s : State} {u : PlayUnit} {t : Nat} (hvec : s.wantsVec u t = false) : s.stopMeets u t = s := by
  simp [stopMeets, hvec]

theorem playUnit_out (o : Fin 16) : playUnit (Fin.ofNat 28 (12 + o.val)) = .out o := by
  have hval : (Fin.ofNat 28 (12 + o.val)).val = 12 + o.val := Nat.mod_eq_of_lt (by omega)
  rw [playUnit, dif_neg (by omega)]
  exact congrArg PlayUnit.out (Fin.ext ((congrArg (· - 12) hval).trans (Nat.add_sub_cancel_left 12 o.val)))

/-! ### The start of a stopped output -/

theorem haltFeed_play (f : Feed) : (haltFeed f).play = f.play := by
  unfold haltFeed
  split <;> rfl

section StoppedOutput
variable {s : State} {o : Fin 16} {d : Seg} {t v : Nat} {rest : List Nat} (hplay : s.aos[o].feed.play = none)
  (hstart : s.aos[o].feed.startAt = some t) (hqueue : s.aos[o].feed.queue = [.seg d]) (hbuf : s.aos[o].feed.buf = v :: rest)
  (hlen : 0 < d.length) (hhalt : s.startHalted (.out o) = true)
include hplay hstart hqueue hbuf hlen hhalt

theorem outputStarts_of_startHalted :
    s.outputStarts o t = (s.modFeed (.out o) (fun f => { f with waitAt := none })).dropQueue (.out o) := by
  have hhalt' : (s.modFeed (.out o) (fun f => { f with waitAt := none })).startHalted (.out o) = true := by
    simpa only [startHalted, feedSess, modFeed_feed, modFeed_sess] using hhalt
  have hvec : (s.modFeed (.out o) (fun f => { f with waitAt := none })).wantsVec (.out o) t = false := by
    refine wantsVec_of_idle (d := d) (v := v) (rest := rest) ?_ ?_ ?_ ?_ hlen <;> rw [modFeed_feed] <;> assumption
  simp only [outputStarts, hhalt', if_true, stopMeets_of_present hvec]

theorem exec_unitStartFromIdle_of_startHalted (hwait : s.aos[o].feed.waitAt = none) (hrange : s.get F.AO_STATUS_RANGE_CHG [o] = 0) :
    ∃ t', exec (.unitStartFromIdle (Fin.ofNat 28 (12 + o.val))) s = .next t' ∧ t'.aos[o].feed.play = none := by
  refine ⟨s.outputStarts o t, ?_, ?_⟩
  · have hvec : s.wantsVec (.out o) t = false := wantsVec_of_idle hplay hstart hqueue hbuf hlen
    simp only [exec, execUnitStartFromIdle, playUnit_out, hplay, hstart, hwait, hrange, startWaits, hvec, Bool.and_false, Bool.false_eq_true,
      Option.isSome_none, zero_ne_one, if_false]
  · have hidle : ((s.outputStarts o t).feed (.out o)).play = none := by
      rw [outputStarts_of_startHalted hplay hstart hqueue hbuf hlen hhalt, dropQueue, modFeed_feed, modFeed_feed]
      exact (haltFeed_play _).trans hplay
    exact hidle

end StoppedOutput

/-! ### A stop in the event cycle of a start -/

/-- Eight samples, twice, for session 1. -/
def waitingSeg : Seg := ⟨3, 0, 0, false, false, 0, 0, 0, 0, 0, 8, 2, 0, none, none, 0, 0, 1, 0⟩

/-- Session 1 runs a sequence on slice 0 and output 1. The slice's next vector, due at tick 8192, has not come by the end of the event cycle of that
tick, in which the output is to start a segment whose first samples are in its buffer. -/
def waitingStart : State :=
  let s := (reset.putActive (Reg.key .RM_OWN_UNITS [1]) 1).putActive (Reg.key .RM_OWN_IO [1]) 2
  let s := (s.modTb (fun x => { x with tbc := 10240 })).modSess 1 (fun x => { x with seq := some ⟨5, false, false, 0, false, none, false, 0, 0⟩ })
  let s := s.modSlice 0 (fun x => { x with
    feed := { x.feed with play := some { newPlay waitingSeg 0 with next := 3, slotEnd := 8192 }, sess := 1 } })
  s.modAo 1 (fun x => { x with feed := { x.feed with queue := [.seg waitingSeg], startAt := some 8192, buf := [0x234, 7], sess := 1 } })

/-- What the slice's SLICE_PERIOD_START leaves of it: under STOP the sequence has stopped (R235), and the output has yet to come to its start in the same
event cycle (R239). Irreducible, so that the elaborator does not run it where two statements about it are compared. -/
@[irreducible] def stoppedStart : State := ((waitingStart.quietVolts 0 (waitingStart.tickOf 8192) []).sliceCatch 0).sliceRow 0

theorem exec_slicePeriodStart_waitingStart : exec (.slicePeriodStart 0 8192 []) waitingStart = .next stoppedStart := by
  unfold stoppedStart
  exact rfl

theorem stoppedStart_feed : stoppedStart.aos[(1 : Fin 16)].feed = waitingStart.aos[(1 : Fin 16)].feed := by decide +kernel

theorem stoppedStart_startHalted : stoppedStart.startHalted (.out 1) = true := by decide +kernel

end State

open State

/-- Refutes O47: the clause of an output's start does not ask that its sequence still run. Where an underrun of another unit has stopped the sequence in
the event cycle of the start, the output drops its queue and plays nothing (R235, R239), while the clause says that it plays the queued segment. -/
theorem not_unitsPlayTheirSegments : ¬ Obligations.UnitsPlayTheirSegments := by
  unfold Obligations.UnitsPlayTheirSegments
  rintro ⟨-, -, -, -, hclause⟩
  have hplay : stoppedStart.aos[(1 : Fin 16)].feed.play = none := by rw [stoppedStart_feed]; rfl
  have hstart : stoppedStart.aos[(1 : Fin 16)].feed.startAt = some 8192 := by rw [stoppedStart_feed]; rfl
  have hqueue : stoppedStart.aos[(1 : Fin 16)].feed.queue = [.seg waitingSeg] := by rw [stoppedStart_feed]; rfl
  have hbuf : stoppedStart.aos[(1 : Fin 16)].feed.buf = [0x234, 7] := by rw [stoppedStart_feed]; rfl
  have hreqs : stoppedStart.aos[(1 : Fin 16)].feed.reqs = [] := by rw [stoppedStart_feed]; rfl
  have hwait : stoppedStart.aos[(1 : Fin 16)].feed.waitAt = none := by rw [stoppedStart_feed]; rfl
  have hlen : 0 < waitingSeg.length := by decide
  have hrange : stoppedStart.get F.AO_STATUS_RANGE_CHG [(1 : Fin 16)] = 0 := by decide +kernel
  obtain ⟨t, hexec, hplays, -⟩ := hclause 1 waitingSeg 8192 0x234 [7] stoppedStart hplay hstart hrange hqueue hbuf hlen (by decide)
    (by decide +kernel) (by decide +kernel) rfl rfl hreqs
  obtain ⟨t', hexec', hidle⟩ :=
    exec_unitStartFromIdle_of_startHalted hplay hstart hqueue hbuf hlen stoppedStart_startHalted hwait hrange
  obtain rfl : t = t' := Host.Outcome.next.inj (hexec.symm.trans hexec')
  exact Option.some_ne_none _ (hplays.symm.trans hidle)

end Sys2Proof.Machine
end

section

-- One declaration at a time: the whole text's check stays within its memory.
set_option Elab.async false

/-! Steps taken for one unit after another, each of which leaves the other units alone. -/

namespace Sys2Proof.Machine

/-- A list of units without repetition is gone through: `R` holds on the way, `v` is what a unit holds, and `P` says what its own turn does to it. -/
theorem foldl_each {σ ι α : Type} {R : σ → Prop} {v : σ → ι → α} {P : ι → α → α → Prop} {f : σ → ι → σ} (hR : ∀ s i, R s → R (f s i))
    (hself : ∀ s i, R s → P i (v s i) (v (f s i) i)) (hne : ∀ s i j, R s → j ≠ i → v (f s i) j = v s j) (l : List ι) (s : σ) (hl : l.Nodup)
    (hs : R s) : R (l.foldl f s) ∧ (∀ i ∈ l, P i (v s i) (v (l.foldl f s) i)) ∧ ∀ j, j ∉ l → v (l.foldl f s) j = v s j := by
  induction l generalizing s with
  | nil => exact ⟨hs, fun i hi => absurd hi List.not_mem_nil, fun _ _ => rfl⟩
  | cons a l ih =>
    obtain ⟨ha, hl⟩ := List.nodup_cons.mp hl
    obtain ⟨hr, hin, hout⟩ := ih (f s a) hl (hR s a hs)
    refine ⟨hr, fun i hi => ?_, fun j hj => ?_⟩
    · rcases List.mem_cons.mp hi with rfl | hi
      · rw [List.foldl_cons, hout i ha]
        exact hself s i hs
      · rw [List.foldl_cons, ← hne s a i hs (fun e => ha (e ▸ hi))]
        exact hin i hi
    · obtain ⟨hja, hjl⟩ := not_or.mp (fun h => hj (List.mem_cons.mpr h))
      rw [List.foldl_cons, hout j hjl, hne s a j hs hja]

/-- The same for every unit of a kind. -/
theorem foldl_finRange {σ α : Type} {n : Nat} {R : σ → Prop} {v : σ → Fin n → α} {P : Fin n → α → α → Prop} {f : σ → Fin n → σ}
    (hR : ∀ s i, R s → R (f s i)) (hself : ∀ s i, R s → P i (v s i) (v (f s i) i)) (hne : ∀ s i j, R s → j ≠ i → v (f s i) j = v s j) (s : σ)
    (hs : R s) : R ((List.finRange n).foldl f s) ∧ ∀ i, P i (v s i) (v ((List.finRange n).foldl f s) i) :=
  have h := foldl_each hR hself hne (List.finRange n) s (List.nodup_finRange n) hs
  ⟨h.1, fun i => h.2.1 i (List.mem_finRange i)⟩

/-- What every step keeps, the fold keeps. -/
theorem foldl_keeps {σ ι : Type} {R : σ → Prop} {f : σ → ι → σ} (hR : ∀ s i, R s → R (f s i)) (l : List ι) (s : σ) (hs : R s) : R (l.foldl f s) := by
  induction l generalizing s with
  | nil => exact hs
  | cons a l ih => exact ih _ (hR s a hs)

end Sys2Proof.Machine
end

section

-- One declaration at a time: the whole text's check stays within its memory.
set_option Elab.async false

/-! The window comparator and the crossings of inputs (R99–R101, R108, R109, R314, R316, R332, R500). -/

namespace Sys2Proof.Machine

namespace State

/-! ### What rises with a crossing (R316, R332) -/

/-- What rises apart, `t` is `s`. -/
def RisesOnly (s t : State) : Prop :=
  ∃ stretch rose prodRose, t = { s with hr := { s.hr with stretch := stretch, rose := rose, prodRose := prodRose } }

theorem RisesOnly.trans {s t u : State} (h : RisesOnly s t) (g : RisesOnly t u) : RisesOnly s u := by
  obtain ⟨_, _, _, rfl⟩ := h
  obtain ⟨_, _, _, rfl⟩ := g
  exact ⟨_, _, _, rfl⟩

theorem risesOnly_stretchEdge (s : State) (ev : Nat) : RisesOnly s (s.stretchEdge ev) := by
  rw [stretchEdge]
  split
  · exact ⟨_, _, _, rfl⟩
  · exact ⟨_, _, _, rfl⟩

/-- A crossing's events are noted in the Hedgerow alone, whose levels stay. -/
theorem risesOnly_noteRises (s s' : State) : RisesOnly s' (s.noteRises s') := by
  rw [noteRises]
  generalize risen (s.levels 176) (s'.levels 176) = up
  generalize risen s.producers s'.producers = prod
  refine foldl_keeps (R := RisesOnly s') (fun u ev hu => ?_) (List.range 96) _ ⟨_, _, _, rfl⟩
  split
  · exact hu.trans (risesOnly_stretchEdge u ev)
  · exact hu

/-! ### The comparator at settled thresholds without hysteresis (R99, R106, R109) -/

section Comparator

variable {s : State} {n : Fin 12} {l : Fin 8} {t : Nat}

/-- Once settled, the thresholds are those in force. -/
theorem thsAt_of_settled (hset : settled s.slices[n].lanes[l] t) : s.thsAt n l t = s.laneThs n l := by
  rw [settled] at hset
  rw [thsAt]
  cases hold : s.slices[n].lanes[l].oldTh with
  | none => rfl
  | some o =>
    rw [hold] at hset
    have hle : o.at_ + 327680 ≤ t := of_decide_eq_true hset
    simp only [if_neg (show ¬ t < o.at_ by omega), if_neg (show ¬ t < o.at_ + 327680 by omega)]

/-- The comparator's sides at an input `v`. -/
theorem cmpMove_of_settled (hhyst : s.act F.CH_LVL_HYST [n, l] = 0) (hset : settled s.slices[n].lanes[l] t) (v : Int) :
    s.cmpMove n l t v = ⟨t, v, decide ((s.laneThs n l).1 ≤ v), decide ((s.laneThs n l).2 < v)⟩ := by
  have hlo : (decide ((s.laneThs n l).1 < v) || decide (v = (s.laneThs n l).1)) = decide ((s.laneThs n l).1 ≤ v) := by
    rw [← Bool.decide_or, decide_eq_decide]
    omega
  simp only [cmpMove, hhyst, thsAt_of_settled hset, sideOf, hystUv, List.getD_cons_zero, if_true, Bool.true_and, Bool.false_and, Bool.or_false, hlo]

/-- The band of an input between two thresholds: L, M or H. -/
def sortedBand (ths : Int × Int) (v : Int) : Nat := if ths.2 < v then 2 else if ths.1 ≤ v then 1 else 0

theorem bandCode_sides (ths : Int × Int) (v : Int) : bandCode (decide (ths.1 ≤ v)) (decide (ths.2 < v)) = sortedBand ths v := by
  rw [bandCode, sortedBand]
  by_cases hhi : ths.2 < v
  · simp only [hhi, decide_true, if_true]
  · by_cases hlo : ths.1 ≤ v
    · simp only [hhi, hlo, decide_true, decide_false, Bool.false_eq_true, if_false, if_true, Bool.toNat_true]
    · simp only [hhi, hlo, decide_false, Bool.false_eq_true, if_false, Bool.toNat_false]

/-- A lane whose one change lies at this tick, after its thresholds settled, shows that change's band. -/
theorem laneBand_of_trace {v : Int} {lo hi : Bool} (htrace : s.slices[n].lanes[l].trace = [⟨t, v, lo, hi⟩]) (hset : settled s.slices[n].lanes[l] t) :
    s.laneBand n l t = bandCode lo hi := by
  have hp : cmpAt s.slices[n].lanes[l] t = ⟨t, v, lo, hi⟩ := by
    rw [cmpAt, htrace, List.find?_cons_of_pos (by exact decide_eq_true (Nat.le_refl t)), Option.getD_some]
  have hres : resorts s.slices[n].lanes[l] ⟨t, v, lo, hi⟩ t = false := by
    rw [settled] at hset
    rw [resorts]
    cases hold : s.slices[n].lanes[l].oldTh with
    | none => rfl
    | some o =>
      rw [hold] at hset
      have hle : o.at_ + 327680 ≤ t := of_decide_eq_true hset
      simp only [Option.map_some, Option.getD_some, decide_eq_false (show ¬ t < o.at_ + 327680 by omega), Bool.and_false]
  simp only [laneBand, hp, hres, Bool.false_and, Bool.false_eq_true, if_false]

end Comparator

/-! ### A lane's balls take voltages (R99, R101) -/

section LaneVolts

variable (s : State) (n : Fin 12) (l : Fin 8) (t : Nat) (vp vn : Int)

/-- The lane whose balls have taken voltages. -/
def voltLane : Lane :=
  let p := s.cmpMove n l t (s.cmpInput n l vp vn)
  { s.slices[n].lanes[l] with
    vp := vp, vn := vn, trace := if s.slices[n].feed.play.isNone then [p] else tracePut p s.slices[n].lanes[l].trace }

theorem laneVolts_eq : s.laneVolts n l t vp vn =
    { s with slices := s.slices.set n { s.slices[n] with lanes := s.slices[n].lanes.set l (s.voltLane n l t vp vn) } } := rfl

theorem laneVolts_lane : (s.laneVolts n l t vp vn).slices[n].lanes[l] = s.voltLane n l t vp vn := by simp [laneVolts_eq]

theorem laneVolts_lane_ne {j : Fin 8} (h : j ≠ l) : (s.laneVolts n l t vp vn).slices[n].lanes[j] = s.slices[n].lanes[j] := by
  have hval : l.val ≠ j.val := fun e => h (Fin.ext e.symm)
  simp [laneVolts_eq, hval]

theorem laneVolts_slice_ne {m : Fin 12} (h : m ≠ n) : (s.laneVolts n l t vp vn).slices[m] = s.slices[m] := by
  have hval : n.val ≠ m.val := fun e => h (Fin.ext e.symm)
  simp [laneVolts_eq, hval]

/-- An idle slice's lane keeps one change: the present one. -/
theorem voltLane_trace (hplay : s.slices[n].feed.play = none) (hhyst : s.act F.CH_LVL_HYST [n, l] = 0) (hset : settled s.slices[n].lanes[l] t) :
    (s.voltLane n l t vp vn).trace =
      [⟨t, s.cmpInput n l vp vn, decide ((s.laneThs n l).1 ≤ s.cmpInput n l vp vn), decide ((s.laneThs n l).2 < s.cmpInput n l vp vn)⟩] := by
  simp only [voltLane, hplay, Option.isNone_none, if_true, cmpMove_of_settled hhyst hset]

/-- The band of a lane that holds what the voltages made of it. -/
theorem laneBand_of_voltLane {u : State} (hplay : s.slices[n].feed.play = none) (hhyst : s.act F.CH_LVL_HYST [n, l] = 0)
    (hset : settled s.slices[n].lanes[l] t) (hlane : u.slices[n].lanes[l] = s.voltLane n l t vp vn) :
    u.laneBand n l t = sortedBand (s.laneThs n l) (s.cmpInput n l vp vn) := by
  rw [laneBand_of_trace (by rw [hlane]; exact s.voltLane_trace n l t vp vn hplay hhyst hset) (by rw [hlane]; exact hset), bandCode_sides]

end LaneVolts

/-! ### Crossings (R99, R100, R314, R500) -/

/-- The level of a TRIG ball at `vp` µV, between its thresholds as it was (R500). -/
def trigLevel (vp : Int) (was : Bool) : Bool := if 930000 < vp then true else if vp < 870000 then false else was

theorem crossInput_of_trig {i : Fin 112} {k : Fin 16} (h : i.val = 96 + k.val) (s : State) (t : Nat) (vp vn : Int) :
    (s.crossInput i t vp vn).1 = if s.hr.trig[k] = trigLevel vp s.hr.trig[k] then s
      else s.noteRises (s.modHr (fun r => { r with trig := r.trig.set k (trigLevel vp s.hr.trig[k]) })) := by
  obtain ⟨k, hk⟩ := k
  obtain rfl : k = i.val - 96 := by simp only at h; omega
  rw [crossInput, dif_neg (by omega), trigLevel]
  refine (apply_ite Prod.fst _ _ _).trans ?_
  rfl

theorem crossInput_trig {i : Fin 112} {k : Fin 16} (h : i.val = 96 + k.val) (s : State) (t : Nat) (vp vn : Int) :
    ∃ hr, (s.crossInput i t vp vn).1 = { s with hr := hr } ∧ hr.trig = s.hr.trig.set k (trigLevel vp s.hr.trig[k]) := by
  rw [crossInput_of_trig h]
  by_cases heq : s.hr.trig[k] = trigLevel vp s.hr.trig[k]
  · rw [if_pos heq, ← heq]
    exact ⟨s.hr, rfl, (Vector.set_getElem_self _).symm⟩
  · rw [if_neg heq]
    obtain ⟨_, _, _, e⟩ := risesOnly_noteRises s (s.modHr (fun r => { r with trig := r.trig.set k (trigLevel vp s.hr.trig[k]) }))
    exact ⟨_, e, rfl⟩

theorem crossInput_lane {i : Fin 112} {n : Fin 12} {l : Fin 8} (h : i.val = 8 * n.val + l.val) (s : State) (t : Nat) (vp vn : Int) :
    ∃ hr, (s.crossInput i t vp vn).1 = { s.laneVolts n l t vp vn with hr := hr } := by
  have hn : (⟨i.val / 8, by omega⟩ : Fin 12) = n := Fin.ext (by simp only [h]; omega)
  have hl : (⟨i.val % 8, by omega⟩ : Fin 8) = l := Fin.ext (by simp only [h]; omega)
  rw [crossInput, dif_pos (by omega)]
  simp only [hn, hl]
  split
  · exact ⟨s.hr, rfl⟩
  · obtain ⟨_, _, _, e⟩ := risesOnly_noteRises s (s.laneVolts n l t vp vn)
    exact ⟨_, e⟩

/-- A crossing changes the lane's comparator and the Hedgerow, whichever input it is. -/
theorem crossInput_frame (s : State) (i : Fin 112) (t : Nat) (vp vn : Int) :
    ∃ slices hr, (s.crossInput i t vp vn).1 = { s with slices := slices, hr := hr } := by
  by_cases hi : i.val < 96
  · obtain ⟨hr, e⟩ := crossInput_lane (i := i) (n := ⟨i.val / 8, by omega⟩) (l := ⟨i.val % 8, by omega⟩) (Nat.div_add_mod _ _).symm s t vp vn
    exact ⟨_, hr, e⟩
  · obtain ⟨hr, e, -⟩ := crossInput_trig (i := i) (k := ⟨i.val - 96, by omega⟩) (by simp only; omega) s t vp vn
    exact ⟨s.slices, hr, e⟩

/-! ### Voltages that cross nothing (R99, log 56) -/

section QuietVolts

variable {s u : State} {n : Fin 12} {l : Fin 8} (t : Nat)

/-- What a lane's crossing and its voltages hang on: the registers, and the lane and the play of its slice. -/
theorem laneCross_congr (hregs : u.regs = s.regs) (hlane : u.slices[n].lanes[l] = s.slices[n].lanes[l]) : u.laneCross n l = s.laneCross n l := by
  rw [laneCross, laneCross, act, act, activeK, activeK, hregs, hlane]

theorem voltLane_congr (hregs : u.regs = s.regs) (hlane : u.slices[n].lanes[l] = s.slices[n].lanes[l])
    (hfeed : u.slices[n].feed = s.slices[n].feed) (vp vn : Int) : u.voltLane n l t vp vn = s.voltLane n l t vp vn := by
  unfold voltLane cmpMove thsAt laneThs cmpInput act activeK
  rw [hregs, hlane, hfeed]

/-- Slice `n`'s lanes apart, `u` is `s`. -/
def LanesOf (n : Fin 12) (s u : State) : Prop := ∃ lanes, u = { s with slices := s.slices.set n { s.slices[n] with lanes := lanes } }

theorem LanesOf.refl (n : Fin 12) (s : State) : LanesOf n s s := ⟨s.slices[n].lanes, by
  rw [show ({ s.slices[n] with lanes := s.slices[n].lanes } : Slice) = s.slices[n] from rfl, Fin.getElem_fin, Vector.set_getElem_self]⟩

theorem LanesOf.feed (h : LanesOf n s u) : u.slices[n].feed = s.slices[n].feed := by
  obtain ⟨_, rfl⟩ := h
  simp

theorem LanesOf.regs (h : LanesOf n s u) : u.regs = s.regs := by
  obtain ⟨_, rfl⟩ := h
  rfl

theorem LanesOf.slice_ne (h : LanesOf n s u) {m : Fin 12} (hm : m ≠ n) : u.slices[m] = s.slices[m] := by
  obtain ⟨_, rfl⟩ := h
  have hval : n.val ≠ m.val := fun e => hm (Fin.ext e.symm)
  simp [hval]

theorem LanesOf.laneVolts (h : LanesOf n s u) (j : Fin 8) (vp vn : Int) : LanesOf n s (u.laneVolts n j t vp vn) := by
  obtain ⟨lanes, rfl⟩ := h
  rw [laneVolts_eq]
  generalize voltLane _ n j t vp vn = x
  exact ⟨lanes.set j x, by simp⟩

variable (n) (balls : List BallVolts)

/-- The turn of one lane in `quietVolts`. -/
def quietStep (u : State) (j : Fin 8) : State :=
  match balls[j.val]? with
  | none => u
  | some w => if u.laneCross n j = (u.laneVolts n j t w.p w.n).laneCross n j then u.laneVolts n j t w.p w.n else u

theorem quietVolts_eq : s.quietVolts n t balls = (List.finRange 8).foldl (quietStep n t balls) s := rfl

theorem quietStep_cases (u : State) (j : Fin 8) : quietStep n t balls u j = u ∨ ∃ w : BallVolts, quietStep n t balls u j = u.laneVolts n j t w.p w.n := by
  rw [quietStep]
  split
  · exact Or.inl rfl
  · split
    · exact Or.inr ⟨_, rfl⟩
    · exact Or.inl rfl

variable {n balls}

/-- A lane whose voltages cross nothing takes them; the other lanes' turns leave it. -/
theorem quietVolts_lane {v : BallVolts} (hball : balls[l.val]? = some v)
    (hsame : s.laneCross n l = (s.laneVolts n l t v.p v.n).laneCross n l) :
    LanesOf n s (s.quietVolts n t balls) ∧ (s.quietVolts n t balls).slices[n].lanes[l] = s.voltLane n l t v.p v.n := by
  have key := foldl_finRange (R := LanesOf n s) (v := fun (u : State) (j : Fin 8) => u.slices[n].lanes[j])
    (P := fun j a b => j = l → a = s.slices[n].lanes[l] → b = s.voltLane n l t v.p v.n) (f := quietStep n t balls)
    (fun u j hu => by
      rcases quietStep_cases n t balls u j with e | ⟨w, e⟩
      · rw [e]
        exact hu
      · rw [e]
        exact hu.laneVolts t j w.p w.n)
    (fun u j hu hj hlane => by
      subst hj
      have hvolt := voltLane_congr t hu.regs hlane hu.feed v.p v.n
      have hcross : (u.laneVolts n j t v.p v.n).laneCross n j = (s.laneVolts n j t v.p v.n).laneCross n j :=
        laneCross_congr (by rw [laneVolts_eq, laneVolts_eq, hu.regs]) (by rw [laneVolts_lane, laneVolts_lane, hvolt])
      simp only [quietStep, hball, laneCross_congr hu.regs hlane, hcross, ← hsame, if_true]
      rw [laneVolts_lane, hvolt])
    (fun u i j _ hij => by
      rcases quietStep_cases n t balls u i with e | ⟨w, e⟩
      · rw [e]
      · rw [e]
        exact laneVolts_lane_ne _ _ _ _ _ _ hij)
    s (LanesOf.refl n s)
  exact ⟨key.1, key.2 l rfl rfl⟩

/-- An idle slice at which no boundary waits does nothing in a period's row but take the voltages. -/
theorem exec_slicePeriodStart_idle (tk : Nat) (balls : List BallVolts) (hplay : s.slices[n].feed.play = none)
    (hwait : s.slices[n].feed.waitAt = none) (h : LanesOf n s (s.quietVolts n (s.tickOf tk) balls)) :
    exec (.slicePeriodStart n tk balls) s = .next (s.quietVolts n (s.tickOf tk) balls) := by
  have hplay' := (congrArg Feed.play h.feed).trans hplay
  have hwait' := (congrArg Feed.waitAt h.feed).trans hwait
  rw [exec, execSlicePeriodStart]
  generalize s.quietVolts n (s.tickOf tk) balls = u at hplay' hwait'
  simp only [sliceCatch, sliceRow, sliceWaits, sliceSettle, sliceGo, hwait', hplay', Option.isNone_none, Bool.true_or, if_true,
    Bool.false_eq_true, if_false]

end QuietVolts

end State
end Sys2Proof.Machine
end

section

-- One declaration at a time: the whole text's check stays within its memory.
set_option Elab.async false

/-! Stamps of inputs: what a crossing's stamp or its loss does (R269–R277, R284). -/

namespace Sys2Proof.Machine

namespace State

/-! ### What waits at a measurement unit (R277, R284) -/

theorem mem_queueIn (q : MuIn) (l : List MuIn) : q ∈ queueIn q l := by
  induction l with
  | nil => exact List.mem_singleton.mpr rfl
  | cons h t ih =>
    rw [queueIn]
    split
    · exact List.mem_cons_self
    · exact List.mem_cons_of_mem _ ih

/-- What joins the queue of unit `u` with a stamp or a loss of input `i`. -/
def muJoins (s : State) (u : Fin 16) (i : Nat) (isLoss : Bool) (x : Stamp) (q : List MuIn) : List MuIn :=
  if isLoss then queueIn ⟨false, some i, x⟩ q
  else
    let q := if s.act F.TM_MU_CFG_IN_A [u] = i then queueIn ⟨false, none, x⟩ q else q
    if s.act F.TM_MU_CFG_IN_B [u] = i ∧ s.act F.TM_MU_CFG_MODE [u] < 2 then queueIn ⟨true, none, x⟩ q else q

theorem muJoins_of_not_measures {s : State} {u : Fin 16} {i : Nat} (h : ¬ measures u i s) (x : Stamp) (q : List MuIn) :
    s.muJoins u i false x q = q := by
  obtain ⟨ha, hb⟩ := not_or.mp h
  simp only [muJoins, Bool.false_eq_true, if_false, ha, hb]

theorem mem_muJoins {s : State} {u : Fin 16} {i : Nat} (h : measures u i s) (x : Stamp) (q : List MuIn) :
    ∃ p ∈ s.muJoins u i false x q, p.lost = none ∧ p.x = x := by
  simp only [muJoins, Bool.false_eq_true, if_false]
  by_cases hb : s.act F.TM_MU_CFG_IN_B [u] = i ∧ s.act F.TM_MU_CFG_MODE [u] < 2
  · simp only [if_pos hb]
    exact ⟨_, mem_queueIn _ _, rfl, rfl⟩
  · have ha := h.resolve_right hb
    simp only [if_neg hb, if_pos ha]
    exact ⟨_, mem_queueIn _ _, rfl, rfl⟩

theorem muQueue_eq (s : State) (u : Fin 16) (i : Nat) (isLoss : Bool) (x : Stamp) :
    s.muQueue u i isLoss x = s.modMeas u (fun y => { y with queue := s.muJoins u i isLoss x y.queue }) := by
  cases isLoss with
  | true => rfl
  | false =>
    simp only [muQueue, muJoins, Bool.false_eq_true, if_false]
    by_cases ha : s.act F.TM_MU_CFG_IN_A [u] = i
    · by_cases hb : s.act F.TM_MU_CFG_IN_B [u] = i ∧ s.act F.TM_MU_CFG_MODE [u] < 2
      · simp only [if_pos ha, modMeas_act, if_pos hb, modMeas_modMeas]
      · simp only [if_pos ha, modMeas_act, if_neg hb]
    · by_cases hb : s.act F.TM_MU_CFG_IN_B [u] = i ∧ s.act F.TM_MU_CFG_MODE [u] < 2
      · simp only [if_neg ha, if_pos hb]
      · simp only [if_neg ha, if_neg hb]
        exact (modMeas_of_eq rfl).symm

/-- A stamp or a loss goes to every unit's queue. -/
theorem foldl_muQueue (s : State) (i : Nat) (isLoss : Bool) (x : Stamp) :
    MeasOnly s ((List.finRange 16).foldl (fun s (u : Fin 16) => s.muQueue u i isLoss x) s) ∧
    ∀ u : Fin 16, ((List.finRange 16).foldl (fun s (u : Fin 16) => s.muQueue u i isLoss x) s).meas[u] =
      { s.meas[u] with queue := s.muJoins u i isLoss x s.meas[u].queue } :=
  foldl_finRange (R := MeasOnly s) (v := fun (t : State) (u : Fin 16) => t.meas[u])
    (P := fun u a b => b = { a with queue := s.muJoins u i isLoss x a.queue })
    (fun t u ht => by
      rw [muQueue_eq]
      exact MeasOnly.trans ht (measOnly_modMeas _ _ _))
    (fun t u ht => by
      rw [muQueue_eq, modMeas_self]
      obtain ⟨_, rfl⟩ := ht
      rfl)
    (fun t u j _ hj => by rw [muQueue_eq, modMeas_ne _ _ _ _ hj.symm])
    s (MeasOnly.refl s)

/-! ### Mask tests (R263) -/

/-- The mask tests apart, `t` is `s`. -/
def MasksOnly (s t : State) : Prop := ∃ masks, t = { s with masks := masks }

theorem MasksOnly.refl (s : State) : MasksOnly s s := ⟨s.masks, rfl⟩

theorem MasksOnly.trans {s t u : State} (h : MasksOnly s t) (g : MasksOnly t u) : MasksOnly s u := by
  obtain ⟨_, rfl⟩ := h
  obtain ⟨_, rfl⟩ := g
  exact ⟨_, rfl⟩

theorem masksOnly_modMask (s : State) (m : Fin 16) (f : Mask → Mask) : MasksOnly s (s.modMask m f) := ⟨_, rfl⟩

theorem masksOnly_maskLost (s : State) (m : Fin 16) (i t : Nat) : MasksOnly s (s.maskLost m i t) := by
  rw [maskLost]
  split
  · exact masksOnly_modMask _ _ _
  · exact MasksOnly.refl s

theorem masksOnly_maskA (s : State) (m : Fin 16) (x : Stamp) : MasksOnly s (s.maskA m x) := by
  unfold maskA
  dsimp only
  split
  · exact masksOnly_modMask _ _ _
  · split
    · exact masksOnly_modMask _ _ _
    · exact masksOnly_modMask _ _ _

theorem masksOnly_maskStamp (s : State) (m : Fin 16) (i : Nat) (x : Stamp) : MasksOnly s (s.maskStamp m i x) := by
  have ha (u : State) (hu : MasksOnly s u) {c : Prop} [Decidable c] : MasksOnly s (if c then u.maskA m x else u) := by
    split
    · exact hu.trans (masksOnly_maskA u m x)
    · exact hu
  unfold maskStamp
  dsimp only
  split
  · split
    · exact ha _ ⟨_, rfl⟩
    · exact ha _ (MasksOnly.refl s)
  · exact MasksOnly.refl s

theorem masksOnly_foldl (f : State → Fin 16 → State) (hf : ∀ s m, MasksOnly s (f s m)) (s : State) :
    MasksOnly s ((List.finRange 16).foldl f s) :=
  foldl_keeps (R := MasksOnly s) (fun t m ht => ht.trans (hf t m)) _ s (MasksOnly.refl s)

/-! ### A stamp is lost, or enters its FIFO (R270, R271, R274, R277) -/

/-- A loss marks the input, and waits at every measurement unit. -/
theorem stampLost_frame (s : State) (i : Fin 112) (t : Nat) : ∃ meas masks sess,
    s.stampLost i t = { s with inputs := s.inputs.set i { s.inputs[i] with lost := true }, meas := meas, masks := masks, sess := sess } ∧
    ∀ u : Fin 16, ∃ q ∈ meas[u].queue, q.lost = some i.val ∧ q.x.t = t := by
  unfold stampLost
  dsimp only
  obtain ⟨hm, hq⟩ := foldl_muQueue (s.modInput i (fun y => { y with lost := true })) i true ⟨t, false, 0, false, true, false, none⟩
  obtain ⟨meas, e⟩ := hm
  rw [e] at hq ⊢
  obtain ⟨masks, e'⟩ := masksOnly_foldl (fun s m => s.maskLost m i t) (fun s m => masksOnly_maskLost s m i t)
    { s.modInput i (fun y => { y with lost := true }) with meas := meas }
  rw [e']
  have hqueue (u : Fin 16) : ∃ q ∈ meas[u].queue, q.lost = some i.val ∧ q.x.t = t := by
    refine ⟨⟨false, some i.val, ⟨t, false, 0, false, true, false, none⟩⟩, ?_, rfl, rfl⟩
    have := hq u
    dsimp only at this
    rw [this]
    exact mem_queueIn _ _
  split
  · exact ⟨meas, masks, _, rfl, hqueue⟩
  · exact ⟨meas, masks, s.sess, rfl, hqueue⟩

/-- A stamp joins its input's FIFO with the loss before it, and waits at the units that take the input. -/
theorem takeStamp_frame (s : State) (i : Fin 112) (x : Stamp) : ∃ meas masks,
    s.takeStamp i x = { s with
      inputs := s.inputs.set i { s.inputs[i] with fifo := s.inputs[i].fifo ++ [{ x with loss := s.inputs[i].lost }], lost := false }
      meas := meas, masks := masks } ∧
    (∀ u : Fin 16, ¬ measures u i s → meas[u] = s.meas[u]) ∧ ∀ u : Fin 16, measures u i s → ∃ q ∈ meas[u].queue, q.lost = none ∧ q.x = x := by
  unfold takeStamp
  dsimp only
  obtain ⟨masks, e⟩ := masksOnly_foldl (fun s m => s.maskStamp m i x) (fun s m => masksOnly_maskStamp s m i x)
    (s.modInput i (fun y => { y with fifo := y.fifo ++ [{ x with loss := y.lost }], lost := false }))
  rw [e]
  obtain ⟨⟨meas, e'⟩, hq⟩ := foldl_muQueue
    { s.modInput i (fun y => { y with fifo := y.fifo ++ [{ x with loss := y.lost }], lost := false }) with masks := masks } i false x
  rw [e'] at hq ⊢
  refine ⟨meas, masks, rfl, fun u hu => ?_, fun u hu => ?_⟩
  · have hmeas : meas[u] = { s.meas[u] with queue := s.muJoins u i false x s.meas[u].queue } := hq u
    rw [hmeas, muJoins_of_not_measures hu]
  · have hmeas : meas[u] = { s.meas[u] with queue := s.muJoins u i false x s.meas[u].queue } := hq u
    rw [hmeas]
    exact mem_muJoins hu _ _

/-! ### STAMP_EDGE (R269–R277) -/

section StampEdge

variable {s : State} {i : Fin 112} {tk : Nat} {vp vn : Int} {d : Bool}

/-- The machine after the crossing, before any stamp. -/
def crossed (s : State) (i : Fin 112) (tk : Nat) (vp vn : Int) : State := (s.crossInput i (s.tickOf tk) vp vn).1

/-- The stamp that an edge of direction `d` gives. -/
def stampOf (s : State) (i : Fin 112) (tk : Nat) (d : Bool) : Stamp :=
  ⟨s.tickOf tk, d, s.quality, s.inputStale i, false, s.storesStamp i, (s.ownerInput i).bind (fun k => s.runInst k)⟩

/-- An input on whose edge the spacing of R271 is next counted. -/
def noteEdge (t : Nat) (y : Input) : Input := { y with last := some (t : Int), last2 := y.last }

/-- Nothing more happens than the crossing where none is to be stamped. -/
theorem exec_stampEdge_uncounted (h : s.act F.TM_IN_CFG_STAMP_EN [i] = 0 ∨
      ∀ d, (s.crossInput i (s.tickOf tk) vp vn).2 = some d → counts (s.act F.TM_IN_CFG_EDGE [i]) d = false) :
    exec (.stampEdge i tk ⟨vp, vn⟩) s = .next (s.crossed i tk vp vn) := by
  obtain ⟨slices, hr, e⟩ := crossInput_frame s i (s.tickOf tk) vp vn
  rw [exec, execStampEdge, crossed]
  simp only [e]
  cases hd : (s.crossInput i (s.tickOf tk) vp vn).2 with
  | none => rfl
  | some d =>
    refine if_pos ?_
    rcases h with h | h
    · exact Or.inl h
    · exact Or.inr (by
        have hc : counts (({ s with slices := slices, hr := hr } : State).act F.TM_IN_CFG_EDGE [i]) d = false := h d hd
        rw [hc]
        rfl)

/-- An edge that is to be stamped, by its spacing and by the room of its FIFO. -/
theorem exec_stampEdge_counted (hen : s.act F.TM_IN_CFG_STAMP_EN [i] ≠ 0) (hcross : (s.crossInput i (s.tickOf tk) vp vn).2 = some d)
    (hcount : counts (s.act F.TM_IN_CFG_EDGE [i]) d = true) :
    exec (.stampEdge i tk ⟨vp, vn⟩) s =
      if !spaced s.inputs[i] (s.tickOf tk) then .next (((s.crossed i tk vp vn).count F.TM_IN_CNT_TOO_CLOSE [i]).stampLost i (s.tickOf tk))
      else if 512 ≤ s.inputs[i].fifo.length then
        .next ((((s.crossed i tk vp vn).modInput i (noteEdge (s.tickOf tk))).count F.TM_IN_CNT_LOST [i]).stampLost i (s.tickOf tk))
      else .next (((s.crossed i tk vp vn).modInput i (noteEdge (s.tickOf tk))).takeStamp i (s.stampOf i tk d)) := by
  obtain ⟨slices, hr, e⟩ := crossInput_frame s i (s.tickOf tk) vp vn
  have hno : ¬ (({ s with slices := slices, hr := hr } : State).act F.TM_IN_CFG_STAMP_EN [i] = 0 ∨
      (!counts (({ s with slices := slices, hr := hr } : State).act F.TM_IN_CFG_EDGE [i]) d) = true) := by
    rintro (h | h)
    · exact hen h
    · exact absurd (hcount.symm.trans ((Bool.not_eq_true' _).mp h)) (by decide)
  have hfifo : (({ s with slices := slices, hr := hr } : State).modInput i (noteEdge (s.tickOf tk))).inputs[i].fifo = s.inputs[i].fifo := by
    rw [modInput_self]
    rfl
  rw [exec, execStampEdge, crossed]
  simp only [e, hcross]
  rw [if_neg hno]
  refine if_congr Iff.rfl rfl ?_
  change (if 512 ≤ (({ s with slices := slices, hr := hr } : State).modInput i (noteEdge (s.tickOf tk))).inputs[i].fifo.length then _ else _) = _
  rw [hfifo]
  rfl

end StampEdge

/-- The count of an edge that is lost and the loss itself: what changes, and what waits at the units. -/
theorem stampLost_counted (s : State) (f : Fld) (i : Fin 112) (t : Nat) (hreg : f.reg = .TM_IN_CNT) (hf : f.lsb + f.width ≤ 32) :
    ∃ regs meas masks sess, (s.count f [i]).stampLost i t = { s with
      regs := regs, inputs := s.inputs.set i { s.inputs[i] with lost := true }, meas := meas, masks := masks, sess := sess } ∧
    (∀ u : Fin 16, ∃ q ∈ meas[u].queue, q.lost = some i.val ∧ q.x.t = t) ∧ counted f [i] 1 s ((s.count f [i]).stampLost i t) ∧
    regsSame [Reg.key .TM_IN_CNT [i]] s ((s.count f [i]).stampLost i t) := by
  obtain ⟨meas, masks, sess, e, hq⟩ := stampLost_frame (s.count f [i]) i t
  rw [e]
  refine ⟨(s.count f [i]).regs, meas, masks, sess, rfl, hq, counted_count s f [i] 1 hf, ?_⟩
  exact regsSame_other (regsSame_count f [i] 1 (by rw [hreg]; exact List.mem_singleton.mpr rfl) (regsSame_refl _ s)) rfl

end State

/-- Settles O44: the crossing by `crossInput`, the comparator's band by `laneBand_of_voltLane`, and the stamp or its loss by `takeStamp_frame` and
`stampLost_frame`. -/
theorem edgesAreStamped : Obligations.EdgesAreStamped := by
  unfold Obligations.EdgesAreStamped
  refine ⟨fun i k tk vp vn s hi hen => ?_, fun i n l tk vp vn s hi hen => ?_, fun i tk vp vn s h => State.exec_stampEdge_uncounted h,
    fun i tk vp vn x d s hen hcross hcount hlast hnear => ?_, fun i tk vp vn d s hen hcross hcount hspaced hroom => ?_,
    fun i tk vp vn d s hen hcross hcount hspaced hfull => ?_, fun n l tk balls v s hplay hwait hball hhyst hset hsame => ?_⟩
  · obtain ⟨hr, e, htrig⟩ := State.crossInput_trig hi s (s.tickOf tk) vp vn
    refine ⟨_, State.exec_stampEdge_uncounted (Or.inl hen), ?_⟩
    rw [State.crossed, e]
    exact ⟨htrig, rfl⟩
  · obtain ⟨hr, e⟩ := State.crossInput_lane hi s (s.tickOf tk) vp vn
    refine ⟨_, State.exec_stampEdge_uncounted (Or.inl hen), ?_⟩
    rw [State.crossed, e]
    have hlane := s.laneVolts_lane n l (s.tickOf tk) vp vn
    refine ⟨rfl, fun m hm => s.laneVolts_slice_ne n l _ vp vn hm, fun j hj => s.laneVolts_lane_ne n l _ vp vn hj, ?_, fun hplay hhyst hset => ?_⟩
    · dsimp only
      rw [hlane]
      rfl
    · exact s.laneBand_of_voltLane n l (s.tickOf tk) vp vn (u := { s.laneVolts n l (s.tickOf tk) vp vn with hr := hr }) hplay hhyst hset hlane
  · obtain ⟨slices, hr, e⟩ := State.crossInput_frame s i (s.tickOf tk) vp vn
    have hclose : (!State.spaced s.inputs[i] (s.tickOf tk)) = true := by
      simp only [State.spaced, hlast, decide_eq_false (show ¬ x + 656 ≤ (s.tickOf tk : Int) by omega), Bool.false_and, Bool.not_false]
    obtain ⟨regs, meas, masks, sess, e', hq, hcnt, hregs⟩ := State.stampLost_counted { s with slices := slices, hr := hr } F.TM_IN_CNT_TOO_CLOSE i
      (s.tickOf tk) rfl (by decide)
    refine ⟨_, (State.exec_stampEdge_counted hen hcross hcount).trans (if_pos hclose), ?_⟩
    rw [State.crossed, e]
    rw [e'] at hcnt hregs ⊢
    exact ⟨hcnt, rfl, hq, rfl, hregs⟩
  · obtain ⟨slices, hr, e⟩ := State.crossInput_frame s i (s.tickOf tk) vp vn
    obtain ⟨meas, masks, e', hnone, hsome⟩ := State.takeStamp_frame
      (({ s with slices := slices, hr := hr } : State).modInput i (State.noteEdge (s.tickOf tk))) i (s.stampOf i tk d)
    refine ⟨_, (State.exec_stampEdge_counted hen hcross hcount).trans ((if_neg (by rw [hspaced]; decide)).trans (if_neg (by omega))), ?_⟩
    rw [State.crossed, e, e']
    refine ⟨?_, hnone, fun u hu => ?_, rfl⟩
    · dsimp only
      rw [State.modInput_self]
      simp [State.modInput, State.noteEdge, State.stampOf]
    · obtain ⟨q, hmem, hlost, hx⟩ := hsome u hu
      exact ⟨q, hmem, hlost, by rw [hx]; rfl, by rw [hx]; rfl⟩
  · obtain ⟨slices, hr, e⟩ := State.crossInput_frame s i (s.tickOf tk) vp vn
    obtain ⟨regs, meas, masks, sess, e', hq, hcnt, hregs⟩ := State.stampLost_counted
      (({ s with slices := slices, hr := hr } : State).modInput i (State.noteEdge (s.tickOf tk))) F.TM_IN_CNT_LOST i (s.tickOf tk) rfl (by decide)
    refine ⟨_, (State.exec_stampEdge_counted hen hcross hcount).trans ((if_neg (by rw [hspaced]; decide)).trans (if_pos hfull)), ?_⟩
    rw [State.crossed, e]
    rw [e'] at hcnt hregs ⊢
    refine ⟨hcnt, ?_, hq, rfl, hregs⟩
    dsimp only
    rw [State.modInput_self]
    simp [State.modInput, State.noteEdge]
  · obtain ⟨hlanes, hlane⟩ := State.quietVolts_lane (s.tickOf tk) hball hsame
    refine ⟨_, State.exec_slicePeriodStart_idle tk balls hplay hwait hlanes, ?_, fun m hm => hlanes.slice_ne hm, ?_, ?_⟩
    · obtain ⟨_, e⟩ := hlanes
      rw [e]
    · rw [hlane]
      rfl
    · exact s.laneBand_of_voltLane n l (s.tickOf tk) v.p v.n hplay hhyst hset hlane

end Sys2Proof.Machine
end

section

-- One declaration at a time: the whole text's check stays within its memory.
set_option Elab.async false

/-! The balls of the slices: reflexes, banks and what keeps a driver off (R104, R105, R113–R118). -/

namespace Sys2Proof.Machine

/-! ### Keys of the registers that slices and generators have -/

theorem key_laneCnt (n l : Nat) : Reg.key .CH_LANE_CNT [n, l] = 0x20514 + 0x2000 * n + 0x20 * l := by
  simp [Reg.key, Reg.row, RowOf.CH_LANE_CNT, Nat.add_assoc]

theorem key_edgeCnt (n l : Nat) : Reg.key .EP_EDGE_CNT0 [n, l] = 0x20180 + 0x2000 * n + 0x8 * l := by
  simp [Reg.key, Reg.row, RowOf.EP_EDGE_CNT0, Nat.add_assoc]

theorem key_bankStatus (n : Nat) : Reg.key .CH_BANK_STATUS [n] = 0x20404 + 0x2000 * n := by simp [Reg.key, Reg.row, RowOf.CH_BANK_STATUS]

theorem key_spareStatus (n : Nat) : Reg.key .CH_SPARE_STATUS [n] = 0x20444 + 0x2000 * n := by simp [Reg.key, Reg.row, RowOf.CH_SPARE_STATUS]

theorem key_spareCtrl (n : Nat) : Reg.key .CH_SPARE_CTRL [n] = 0x20440 + 0x2000 * n := by simp [Reg.key, Reg.row, RowOf.CH_SPARE_CTRL]

theorem key_scStat (n : Nat) : Reg.key .FLT_SC_STAT [n] = 0x80040 + 0x4 * n := by simp [Reg.key, Reg.row, RowOf.FLT_SC_STAT]

/-- Two lanes' counts lie apart. -/
theorem key_laneCnt_ne {n m : Fin 12} {l j : Fin 8} (h : (m, j) ≠ (n, l)) : Reg.key .CH_LANE_CNT [m, j] ≠ Reg.key .CH_LANE_CNT [n, l] := by
  rw [key_laneCnt, key_laneCnt]
  intro e
  have hn : m.val = n.val := by omega
  have hl : j.val = l.val := by omega
  exact h (Prod.ext (Fin.ext hn) (Fin.ext hl))

theorem key_laneCnt_ne_edgeCnt (n m : Fin 12) (l j : Fin 8) : Reg.key .CH_LANE_CNT [m, j] ≠ Reg.key .EP_EDGE_CNT0 [n, l] := by
  rw [key_laneCnt, key_edgeCnt]
  omega

/-! ### A lane that is driven outside its vector (R113, R115, R116) -/

theorem laneDrive_frame (l : Lane) (t : Nat) (v en : Bool) : ∃ level enable last driven edges,
    laneDrive l t v en = { l with level := level, enable := enable, lastChange := last, driven := driven, edges := edges } := by
  rw [laneDrive]
  split <;> exact ⟨_, _, _, _, _, rfl⟩

theorem laneEnable_laneDrive (l : Lane) (t : Nat) (v en : Bool) (u : Nat) : laneEnable (laneDrive l t v en) u = en := by
  rw [laneDrive]
  split <;> simp [laneEnable, laneSettle]

theorem laneLast_le {l : Lane} {t : Nat} (h : (l.lastChange.map (fun x => decide (x ≤ t))).getD true = true) :
    ((laneLast l t).map (fun x => decide (x ≤ t))).getD true = true := by
  refine foldl_keeps (R := fun p : Bool × Option Nat => (p.2.map (fun x => decide (x ≤ t))).getD true = true) (fun p e hp => ?_) l.edges
    (l.level, l.lastChange) h
  by_cases he : e.at_ ≤ t
  · rw [if_pos he]
    cases e.level with
    | none => exact hp
    | some v =>
      dsimp only
      split
      · exact hp
      · simpa using he
  · rwa [if_neg he]

theorem laneSpaced_le {l : Lane} {t : Nat} (h : (l.lastChange.map (fun x => decide (x ≤ t))).getD true = true) : laneSpaced l t ≤ t + 246 := by
  rw [laneSpaced]
  cases hl : l.lastChange with
  | none => exact Nat.le_add_right _ _
  | some p =>
    have hp : p ≤ t := by simpa [hl] using h
    exact Nat.max_le.mpr ⟨by omega, by omega⟩

/-- A driven lane has its level as soon as R115 lets it change. -/
theorem laneLevel_laneDrive {l : Lane} {t : Nat} (v en : Bool) (h : (l.lastChange.map (fun x => decide (x ≤ t))).getD true = true) :
    laneLevel (laneDrive l t v en) (t + 246) = v := by
  rw [laneDrive]
  split
  next hv => simpa [laneLevel, laneSettle] using hv
  next =>
    have hat : laneSpaced { laneSettle l t with enable := en, driven := (laneSettle l t).driven || (en && !(laneSettle l t).kept) } t ≤ t + 246 :=
      laneSpaced_le (laneLast_le h)
    rw [laneLevel, List.foldl_cons, if_pos hat]
    rfl

/-- The lane that a reflex forces to its alternate state `alt` at tick `t`; a rank above the reflex keeps the ball (R113, R118). -/
def forcedLane (l : Lane) (t alt : Nat) : Lane :=
  let m := { laneMask l with forced := true, unforce := false, vec := some (laneVec l) }
  if l.safe ≠ .none || l.held then m else laneDrive m t (altBall m t alt).1 (altBall m t alt).2

theorem forcedLane_marks (l : Lane) (t alt : Nat) :
    (forcedLane l t alt).forced = true ∧ (forcedLane l t alt).unforce = false ∧ (forcedLane l t alt).vec = some (laneVec l) := by
  rw [forcedLane]
  split
  · exact ⟨rfl, rfl, rfl⟩
  · obtain ⟨_, _, _, _, _, e⟩ := laneDrive_frame { laneMask l with forced := true, unforce := false, vec := some (laneVec l) } t _ _
    exact e ▸ ⟨rfl, rfl, rfl⟩

theorem forcedLane_of_free {l : Lane} (hs : l.safe = .none) (hh : l.held = false) (t alt : Nat) :
    forcedLane l t alt = laneDrive { laneMask l with forced := true, unforce := false, vec := some (laneVec l) } t
      (if alt < 2 then alt == 1 else laneLevel l t) (decide (alt < 2)) := by
  rw [forcedLane, if_neg (by simp [hs, hh])]
  match alt with
  | 0 => rfl
  | 1 => rfl
  | k + 2 => rfl

/-- The lane that a reflex gives back at tick `t` (R116): one that plays waits for its period boundary. -/
def unforcedLane (l : Lane) (plays : Bool) (t : Nat) : Lane :=
  if !l.forced then l
  else if plays then { l with unforce := true }
  else if l.held then { l with forced := false, unforce := false }
  else if l.safe ≠ .none then { l with forced := false, unforce := false, vec := none }
  else { laneReturn l t with forced := false, unforce := false }

theorem unforcedLane_marks {l : Lane} (h : l.forced = true) (plays : Bool) (t : Nat) :
    (unforcedLane l plays t).forced = plays ∧ (unforcedLane l plays t).unforce = plays := by
  rw [unforcedLane, h]
  cases plays
  · simp only [Bool.not_true, Bool.false_eq_true, if_false]
    split
    · exact ⟨rfl, rfl⟩
    · split <;> exact ⟨rfl, rfl⟩
  · exact ⟨rfl, rfl⟩

theorem laneEnable_laneReturn (l : Lane) (t : Nat) : laneEnable (laneReturn l t) t = laneEnable (trackLane l (laneVec l)) t := by
  have hlate : ∀ b : Bool, ((laneVec l).edges.filter (fun e => decide (t < e.at_))).foldl (fun v e => if e.at_ ≤ t then e.enable.getD v else v) b
      = b := fun b => by
    rw [List.foldl_filter]
    refine State.foldl_id _ _ b (fun e _ => ?_)
    by_cases he : t < e.at_ <;> simp [he]
  rw [laneEnable, laneReturn, List.foldl_append, hlate]
  exact laneEnable_laneDrive l t _ _ t

/-! ### What an action on the balls leaves unchanged -/

namespace State

/-- The lane of slice `n` with number `l`. -/
def lane (s : State) (n : Fin 12) (l : Fin 8) : Lane := s.slices[n].lanes[l]

/-- Outside the lanes and strobes of the slices, and the main copy and the counts of the registers `ks`, `t` is `s`. -/
structure BallsOnly (ks : List Nat) (s t : State) : Prop where
  frame : ∃ main fresh slices, t = { s with regs := { s.regs with main := main, fresh := fresh }, slices := slices }
  regs : regsSame ks s t
  slices : ∀ n : Fin 12, t.slices[n] = { s.slices[n] with lanes := t.slices[n].lanes, strobes := t.slices[n].strobes }

namespace BallsOnly

variable {ks : List Nat} {s t u : State}

theorem refl (ks : List Nat) (s : State) : BallsOnly ks s s := ⟨⟨_, _, _, rfl⟩, regsSame_refl _ _, fun _ => rfl⟩

theorem trans (h : BallsOnly ks s t) (g : BallsOnly ks t u) : BallsOnly ks s u := by
  refine ⟨?_, regsSame_trans h.regs g.regs, fun n => by rw [g.slices n, h.slices n]⟩
  obtain ⟨_, _, _, e⟩ := h.frame
  obtain ⟨_, _, _, e'⟩ := g.frame
  exact ⟨_, _, _, e'.trans (by rw [e])⟩

theorem act (h : BallsOnly ks s t) (f : Fld) (ix : List Nat) : t.act f ix = s.act f ix := by
  obtain ⟨_, _, _, e⟩ := h.frame
  exact e ▸ rfl

theorem now (h : BallsOnly ks s t) : t.now = s.now := by
  obtain ⟨_, _, _, e⟩ := h.frame
  exact e ▸ rfl

theorem feed (h : BallsOnly ks s t) (n : Fin 12) : t.slices[n].feed = s.slices[n].feed := by rw [h.slices n]

theorem committed (h : BallsOnly ks s t) (n : Fin 12) : t.slices[n].committed = s.slices[n].committed := by rw [h.slices n]

end BallsOnly

section

variable (ks : List Nat) (s : State) (n : Fin 12) (l : Fin 8)

theorem ballsOnly_count {ks : List Nat} (f : Fld) (ix : List Nat) (h : f.reg.key ix ∈ ks) : BallsOnly ks s (s.count f ix) :=
  ⟨⟨_, _, _, rfl⟩, regsSame_count f ix 1 h (regsSame_refl _ _), fun _ => rfl⟩

theorem ballsOnly_set {ks : List Nat} (f : Fld) (ix : List Nat) (v : Nat) (h : f.reg.key ix ∈ ks) : BallsOnly ks s (s.set f ix v) :=
  ⟨⟨_, _, _, rfl⟩, regsSame_set f ix v h (regsSame_refl _ _), fun _ => rfl⟩

/-- An update of a slice's lanes and strobes. -/
theorem ballsOnly_modSlice (f : Slice → Slice) (h : ∀ x, f x = { x with lanes := (f x).lanes, strobes := (f x).strobes }) :
    BallsOnly ks s (s.modSlice n f) := by
  refine ⟨⟨_, _, _, rfl⟩, regsSame_refl _ _, fun m => ?_⟩
  by_cases hm : n = m
  · subst hm
    rw [modSlice_self, ← h]
  · rw [modSlice_ne s n m f hm]

theorem ballsOnly_modLane (f : Lane → Lane) : BallsOnly ks s (s.modLane n l f) := s.ballsOnly_modSlice ks n _ (fun _ => rfl)

theorem ballsOnly_mapLanes (f : Fin 8 → Lane → Lane) : BallsOnly ks s (s.mapLanes n f) := s.ballsOnly_modSlice ks n _ (fun _ => rfl)

theorem ballsOnly_strobeSync : BallsOnly ks s (s.strobeSync n) := by
  rw [strobeSync, strobeAt]
  exact s.ballsOnly_modSlice ks n _ (fun _ => rfl)

/-! ### The lanes after each step -/

theorem modSlice_lane (f : Slice → Slice) (m : Fin 12) : (s.modSlice n f).slices[m].lanes = if m = n then (f s.slices[n]).lanes else s.slices[m].lanes := by
  by_cases hm : m = n
  · subst hm
    rw [modSlice_self, if_pos rfl]
  · rw [modSlice_ne s n m f (Ne.symm hm), if_neg hm]

theorem lane_modLane (f : Lane → Lane) : (s.modLane n l f).lane n l = f (s.lane n l) := by
  rw [lane, modLane, modSlice_self]
  exact Vector.getElem_set_self _

theorem lane_modLane_ne (f : Lane → Lane) {m : Fin 12} {j : Fin 8} (h : (m, j) ≠ (n, l)) : (s.modLane n l f).lane m j = s.lane m j := by
  rw [lane, modLane]
  by_cases hm : n = m
  · subst hm
    rw [modSlice_self]
    exact Vector.getElem_set_ne l.isLt j.isLt (fun e => h (Prod.ext rfl (Fin.ext e.symm)))
  · rw [modSlice_ne s n m _ hm, lane]

theorem lane_of_lanes {s t : State} {n : Fin 12} (h : t.slices[n].lanes = s.slices[n].lanes) (l : Fin 8) : t.lane n l = s.lane n l := by
  rw [lane, lane, h]

theorem modLane_now (f : Lane → Lane) : (s.modLane n l f).now = s.now := rfl

theorem count_now (f : Fld) (ix : List Nat) (k : Nat) : (s.count f ix k).now = s.now := rfl

theorem strobeSync_freshK (k : Nat) : (s.strobeSync n).freshK k = s.freshK k := by
  rw [strobeSync, strobeAt]
  rfl

theorem strobeSync_lanes (m : Fin 12) : (s.strobeSync n).slices[m].lanes = s.slices[m].lanes := by
  rw [strobeSync, strobeAt, modSlice_lane]
  split
  next h => rw [h]
  next => rfl

@[simp] theorem lane_strobeSync (m : Fin 12) (j : Fin 8) : (s.strobeSync n).lane m j = s.lane m j := lane_of_lanes (s.strobeSync_lanes n m) j

@[simp] theorem lane_count (f : Fld) (ix : List Nat) (k : Nat) : (s.count f ix k).lane n l = s.lane n l := rfl

@[simp] theorem lane_set (f : Fld) (ix : List Nat) (v : Nat) : (s.set f ix v).lane n l = s.lane n l := rfl

theorem lane_mapLanes (f : Fin 8 → Lane → Lane) : (s.mapLanes n f).lane n l = f l (s.lane n l) := by
  rw [lane, mapLanes, modSlice_self]
  exact Vector.getElem_ofFn _

end

/-- What every turn of a walk over the lanes of all slices does to its own lane holds after it, with what all of them keep. -/
theorem overBalls {α : Type} {R : State → Prop} {v : State → Fin 12 → Fin 8 → α} {P : Fin 12 → Fin 8 → α → α → Prop} {f : Fin 12 → Fin 8 → State → State}
    (hR : ∀ s n l, R s → R (f n l s)) (hself : ∀ s n l, R s → P n l (v s n l) (v (f n l s) n l))
    (hne : ∀ s n l m j, R s → (m, j) ≠ (n, l) → v (f n l s) m j = v s m j) (s : State) (hs : R s) :
    R (s.overSlices (fun n => overLanes (f n))) ∧ ∀ n l, P n l (v s n l) (v (s.overSlices (fun n => overLanes (f n))) n l) := by
  have hflat : s.overSlices (fun n => overLanes (f n)) = (List.finRange 12 ×ˢ List.finRange 8).foldl (fun s p => f p.1 p.2 s) s := by
    simp [SProd.sprod, List.product, List.foldl_flatMap, List.foldl_map, overSlices, overLanes]
  obtain ⟨hr, hin, -⟩ := foldl_each (R := R) (v := fun s (p : Fin 12 × Fin 8) => v s p.1 p.2) (P := fun p => P p.1 p.2) (f := fun s p => f p.1 p.2 s)
    (fun s p => hR s p.1 p.2) (fun s p => hself s p.1 p.2) (fun s p q => hne s p.1 p.2 q.1 q.2) (List.finRange 12 ×ˢ List.finRange 8) s
    ((List.nodup_finRange 12).product (List.nodup_finRange 8)) hs
  rw [hflat]
  exact ⟨hr, fun n l => hin (n, l) (List.pair_mem_product.mpr ⟨List.mem_finRange n, List.mem_finRange l⟩)⟩

end State

/-! ### Reflexes (R113, R115–R117) -/

namespace State

section Force

variable (s : State) (n : Fin 12) (l : Fin 8)

/-- The counts of a lane's forces and of its moved edges. -/
def forceKeys (n : Fin 12) (l : Fin 8) : List Nat := [Reg.key .CH_LANE_CNT [n, l], Reg.key .EP_EDGE_CNT0 [n, l]]

theorem ballsOnly_driveAlt {ks : List Nat} (h : Reg.key .EP_EDGE_CNT0 [n, l] ∈ ks) : BallsOnly ks s (s.driveAlt n l) := by
  rw [driveAlt]
  split
  · exact (s.ballsOnly_count F.EP_EDGE_CNT0_EDGE_WIDEN [n, l] h).trans (ballsOnly_modLane _ _ n l _)
  · exact ballsOnly_modLane _ _ n l _

theorem lane_driveAlt : (s.driveAlt n l).lane n l = laneDrive (s.lane n l) s.now (altBall (s.lane n l) s.now (s.act F.CH_REFLEX_ALT [n, l])).1
    (altBall (s.lane n l) s.now (s.act F.CH_REFLEX_ALT [n, l])).2 := by
  rw [driveAlt, lane_modLane, apply_ite (fun u => lane u n l), lane_count, ite_self, lane]

theorem lane_driveAlt_ne {m : Fin 12} {j : Fin 8} (h : (m, j) ≠ (n, l)) : (s.driveAlt n l).lane m j = s.lane m j := by
  rw [driveAlt, lane_modLane_ne _ n l _ h, apply_ite (fun u => lane u m j), lane_count, ite_self]

theorem driveAlt_freshK {k : Nat} (h : k ≠ Reg.key .EP_EDGE_CNT0 [n, l]) : (s.driveAlt n l).freshK k = s.freshK k := by
  rw [driveAlt, modLane_freshK]
  split
  · exact freshK_count_ne _ F.EP_EDGE_CNT0_EDGE_WIDEN _ _ _ h
  · rfl

theorem ballsOnly_forceLane : BallsOnly (forceKeys n l) s (s.forceLane n l) := by
  have hmark := (s.ballsOnly_count F.CH_LANE_CNT_REFLEX_CNT [n, l] (ks := forceKeys n l) List.mem_cons_self).trans
    (ballsOnly_modLane _ _ n l (fun x => { laneMask x with forced := true, unforce := false, vec := some (laneVec s.slices[n].lanes[l]) }))
  rw [forceLane]
  split
  · exact hmark
  · exact (hmark.trans (ballsOnly_driveAlt _ n l (List.mem_cons_of_mem _ List.mem_cons_self))).trans (ballsOnly_strobeSync _ _ n)

theorem lane_forceLane : (s.forceLane n l).lane n l = forcedLane (s.lane n l) s.now (s.act F.CH_REFLEX_ALT [n, l]) := by
  rw [forceLane, apply_ite (fun u => lane u n l), lane_strobeSync, lane_driveAlt, lane_modLane, lane_count, modLane_now, count_now, modLane_act, act_count]
  rfl

theorem lane_forceLane_ne {m : Fin 12} {j : Fin 8} (h : (m, j) ≠ (n, l)) : (s.forceLane n l).lane m j = s.lane m j := by
  rw [forceLane, apply_ite (fun u => lane u m j), lane_strobeSync, lane_driveAlt_ne _ n l h, lane_modLane_ne _ n l _ h, lane_count, ite_self]

theorem forceLane_freshK (m : Fin 12) (j : Fin 8) : (s.forceLane n l).freshK (Reg.key .CH_LANE_CNT [m, j]) =
    (s.count F.CH_LANE_CNT_REFLEX_CNT [n, l]).freshK (Reg.key .CH_LANE_CNT [m, j]) := by
  rw [forceLane]
  split
  · rw [modLane_freshK]
  · rw [strobeSync_freshK, driveAlt_freshK _ n l (key_laneCnt_ne_edgeCnt n m l j), modLane_freshK]

end Force

/-- The keys of every lane's counts. -/
def ballKeys : List Nat := (List.range 12).flatMap (fun n => (List.range 8).flatMap (fun l => [Reg.key .CH_LANE_CNT [n, l], Reg.key .EP_EDGE_CNT0 [n, l]]))

theorem forceKeys_subset (n : Fin 12) (l : Fin 8) : ∀ k ∈ forceKeys n l, k ∈ ballKeys := fun _ hk =>
  List.mem_flatMap.mpr ⟨n, List.mem_range.mpr n.isLt, List.mem_flatMap.mpr ⟨l, List.mem_range.mpr l.isLt, hk⟩⟩

theorem BallsOnly.mono {ks ls : List Nat} {s t : State} (h : BallsOnly ks s t) (hl : ∀ k ∈ ks, k ∈ ls) : BallsOnly ls s t :=
  ⟨h.frame, regsSame_mono h.regs hl, h.slices⟩

theorem BallsOnly.reflexOf {ks : List Nat} {s t : State} (h : BallsOnly ks s t) (n : Fin 12) (l : Fin 8) (c : Nat) : t.reflexOf n l c = s.reflexOf n l c := by
  rw [State.reflexOf, State.reflexOf, h.committed, h.act, h.act]

/-- A lane before and after REFLEX_ASSERT of cell `c`, with what its counts gained in the event cycle. -/
def Asserted (s : State) (c : Fin 64) (n : Fin 12) (l : Fin 8) (x y : Lane × Word) : Prop :=
  if s.reflexOf n l c && (!x.1.forced || x.1.unforce) then y.1 = forcedLane x.1 s.now (s.act F.CH_REFLEX_ALT [n, l]) ∧
    bitsOf y.2.toNat 0 16 = satAdd 16 (bitsOf x.2.toNat 0 16) 1
  else y = x

/-- A lane and what its counts gained in the event cycle. -/
def ballCount (s : State) (n : Fin 12) (l : Fin 8) : Lane × Word := (s.lane n l, s.freshK (Reg.key .CH_LANE_CNT [n, l]))

theorem exec_reflexAssert (c : Fin 64) (s : State) : ∃ t, exec (.reflexAssert c) s = .next t ∧ BallsOnly ballKeys s t ∧
    ∀ (n : Fin 12) (l : Fin 8), s.Asserted c n l (s.ballCount n l) (t.ballCount n l) := by
  refine ⟨_, rfl, overBalls (R := BallsOnly ballKeys s) (v := ballCount) (P := s.Asserted c)
    (f := fun n l u => if u.reflexOf n l c && (!(u.lane n l).forced || (u.lane n l).unforce) then u.forceLane n l else u)
    (fun u n l hu => ?_) (fun u n l hu => ?_) (fun u n l m j _ hne => ?_) s (BallsOnly.refl _ _)⟩
  · split
    · exact hu.trans ((u.ballsOnly_forceLane n l).mono (forceKeys_subset n l))
    · exact hu
  · rw [Asserted, hu.reflexOf n l c]
    by_cases h : s.reflexOf n l c && (!(u.lane n l).forced || (u.lane n l).unforce)
    · rw [if_pos h, ballCount, ballCount, if_pos h, lane_forceLane, hu.now, hu.act, forceLane_freshK]
      exact ⟨rfl, counted_count u F.CH_LANE_CNT_REFLEX_CNT [n, l] 1 (by decide)⟩
    · rw [if_neg h, ballCount, if_neg h]
  · split
    · rw [ballCount, lane_forceLane_ne u n l hne, forceLane_freshK, freshK_count_ne u F.CH_LANE_CNT_REFLEX_CNT [n, l] 1 _ (key_laneCnt_ne hne), ballCount]
    · rfl

end State

end Sys2Proof.Machine
end

section

-- One declaration at a time: the whole text's check stays within its memory.
set_option Elab.async false

/-! Reflexes force lanes and give them back (R113, R116, R117). -/

namespace Sys2Proof.Machine

namespace State

section Asserted

variable {s : State} {c : Fin 64} {n : Fin 12} {l : Fin 8} {x y : Lane × Word}

theorem Asserted.kept (h : s.Asserted c n l x y) (hold : s.reflexOf n l c = false ∨ (x.1.forced = true ∧ x.1.unforce = false)) : y = x := by
  rw [Asserted, if_neg] at h
  · exact h
  · rcases hold with hr | ⟨hf, hu⟩
    · simp [hr]
    · simp [hf, hu]

theorem Asserted.taken (h : s.Asserted c n l x y) (hr : s.reflexOf n l c = true) (hnew : x.1.forced = false ∨ x.1.unforce = true) :
    y.1 = forcedLane x.1 s.now (s.act F.CH_REFLEX_ALT [n, l]) ∧ bitsOf y.2.toNat 0 16 = satAdd 16 (bitsOf x.2.toNat 0 16) 1 := by
  rw [Asserted, if_pos] at h
  · exact h
  · rcases hnew with hf | hu
    · simp [hr, hf]
    · simp [hr, hu]

theorem Asserted.marks (h : s.Asserted c n l x y) (hr : s.reflexOf n l c = true) : y.1.forced = true ∧ y.1.unforce = false := by
  by_cases hold : x.1.forced = true ∧ x.1.unforce = false
  · rw [h.kept (.inr hold)]
    exact hold
  · have hnew : x.1.forced = false ∨ x.1.unforce = true := by
      simpa only [Bool.not_eq_true, Bool.not_eq_false] using not_and_or.mp hold
    rw [(h.taken hr hnew).1]
    obtain ⟨hforced, hunforce, -⟩ := forcedLane_marks x.1 s.now (s.act F.CH_REFLEX_ALT [n, l])
    exact ⟨hforced, hunforce⟩

end Asserted

section Unforce

variable (s : State) (n : Fin 12) (l : Fin 8)

theorem ballsOnly_unforceLane : BallsOnly [] s (s.unforceLane n l) ∧ (s.unforceLane n l).regs = s.regs := by
  rw [unforceLane]
  split
  · exact ⟨BallsOnly.refl _ _, rfl⟩
  split
  · exact ⟨ballsOnly_modLane _ _ n l _, rfl⟩
  split
  · exact ⟨ballsOnly_modLane _ _ n l _, rfl⟩
  split
  · exact ⟨ballsOnly_modLane _ _ n l _, rfl⟩
  · exact ⟨(ballsOnly_modLane _ _ n l _).trans (ballsOnly_strobeSync _ _ n), rfl⟩

theorem lane_unforceLane : (s.unforceLane n l).lane n l = unforcedLane (s.lane n l) s.slices[n].feed.play.isSome s.now := by
  simp only [unforceLane, apply_ite (fun u => lane u n l), lane_strobeSync, lane_modLane]
  rfl

theorem lane_unforceLane_ne {m : Fin 12} {j : Fin 8} (h : (m, j) ≠ (n, l)) : (s.unforceLane n l).lane m j = s.lane m j := by
  simp only [unforceLane, apply_ite (fun u => lane u m j), lane_strobeSync, lane_modLane_ne _ n l _ h, ite_self]

end Unforce

theorem exec_reflexDeassert (c : Fin 64) (s : State) : ∃ t, exec (.reflexDeassert c) s = .next t ∧ (BallsOnly [] s t ∧ t.regs = s.regs) ∧
    ∀ (n : Fin 12) (l : Fin 8), t.lane n l = if s.act F.CH_REFLEX_CELL [n, l] = c.val then
      unforcedLane (s.lane n l) s.slices[n].feed.play.isSome s.now else s.lane n l := by
  refine ⟨_, rfl, overBalls (R := fun u => BallsOnly [] s u ∧ u.regs = s.regs) (v := lane)
    (P := fun n l x y => y = if s.act F.CH_REFLEX_CELL [n, l] = c.val then unforcedLane x s.slices[n].feed.play.isSome s.now else x)
    (f := fun n l u => if u.act F.CH_REFLEX_CELL [n, l] == c.val then u.unforceLane n l else u)
    (fun u n l hu => ?_) (fun u n l hu => ?_) (fun u n l m j _ hne => ?_) s ⟨BallsOnly.refl _ _, rfl⟩⟩
  · obtain ⟨hballs, hregs⟩ := u.ballsOnly_unforceLane n l
    split
    · exact ⟨hu.1.trans hballs, hregs.trans hu.2⟩
    · exact hu
  · rw [apply_ite (fun v => lane v n l), lane_unforceLane, hu.1.act, hu.1.feed, hu.1.now]
    simp only [beq_iff_eq]
  · rw [apply_ite (fun v => lane v m j), lane_unforceLane_ne u n l hne, ite_self]

end State

end Sys2Proof.Machine
end

section

-- One declaration at a time: the whole text's check stays within its memory.
set_option Elab.async false

/-! The interval of a MODE change, and banks (R104, R105). -/

namespace Sys2Proof.Machine
/-! ### The bits of a field -/

theorem bitOf_eq_testBit (v i : Nat) : bitOf v i = v.testBit i := by rw [bitOf, Nat.testBit_eq_decide_div_mod_eq, beq_eq_decide]

theorem bitOf_putBits (v i x j : Nat) : bitOf (putBits v i 1 x) j = if j = i then x % 2 == 1 else bitOf v j := by
  change (bitsOf (putBits v i 1 x) j 1 == 1) = if j = i then x % 2 == 1 else (bitsOf v j 1 == 1)
  rcases Nat.lt_trichotomy j i with h | rfl | h
  · rw [bitsOf_putBits_below _ _ _ _ _ _ (by omega), if_neg (by omega)]
  · rw [bitsOf_putBits_self, if_pos rfl, pow_one]
  · rw [bitsOf_putBits_above _ _ _ _ _ _ (by omega), if_neg (by omega)]

namespace State

/-- A bit that a field takes; the others stay. -/
theorem bitOf_get_set (s : State) (f : Fld) (ix : List Nat) {i : Nat} (x j : Nat) (h : f.lsb + f.width ≤ 32) (hi : i < f.width) :
    bitOf ((s.set f ix (putBits (s.get f ix) i 1 x)).get f ix) j = if j = i then x % 2 == 1 else bitOf (s.get f ix) j := by
  rw [get_set_self _ _ _ _ h, bitOf_eq_testBit, Nat.testBit_mod_two_pow, ← bitOf_eq_testBit, bitOf_putBits]
  by_cases hj : j < f.width
  · rw [decide_eq_true hj, Bool.true_and]
  · rw [decide_eq_false hj, Bool.false_and, if_neg (by omega), bitOf_eq_testBit, State.get, testBit_bitsOf, decide_eq_false hj, Bool.false_and]

theorem bitOf_get_set_withBit (s : State) (f : Fld) (ix : List Nat) {i : Nat} (j : Nat) (h : f.lsb + f.width ≤ 32) (hi : i < f.width) :
    bitOf ((s.set f ix (withBit (s.get f ix) i)).get f ix) j = (decide (j = i) || bitOf (s.get f ix) j) := by
  rw [withBit_eq_putBits, s.bitOf_get_set f ix 1 j h hi]
  by_cases hj : j = i <;> simp [hj]

/-! ### A driver that is kept off, or no longer (R104, R105) -/

section Keep

variable (s : State) (n : Fin 12)

theorem ballsOnly_keepLanes : BallsOnly [] s (s.keepLanes n) := s.ballsOnly_mapLanes [] n _

theorem lane_keepLanes (l : Fin 8) : (s.keepLanes n).lane n l = laneKeep (s.lane n l) s.now (s.laneBankOff n l || (s.lane n l).hiz) :=
  s.lane_mapLanes n l (fun l x => laneKeep x s.now (s.laneBankOff n l || x.hiz))

end Keep

theorem laneKeep_kept (l : Lane) (t : Nat) (on : Bool) : (laneKeep l t on).kept = on := by
  rw [laneKeep]
  split
  next h => exact h
  next => rfl

theorem laneKeep_hiz (l : Lane) (t : Nat) (on : Bool) : (laneKeep l t on).hiz = l.hiz ∧ (laneKeep l t on).hizTo = l.hizTo := by
  rw [laneKeep]
  split <;> exact ⟨rfl, rfl⟩

theorem BallsOnly.slices_only {ks : List Nat} {s t : State} (h : BallsOnly ks s t) (hregs : t.regs = s.regs) : t = { s with slices := t.slices } := by
  obtain ⟨_, _, _, e⟩ := h.frame
  have hr : t = { s with regs := t.regs, slices := t.slices } := e ▸ rfl
  rw [hregs] at hr
  exact hr

theorem BallsOnly.regs_slices {ks : List Nat} {s t : State} (h : BallsOnly ks s t) : t = { s with regs := t.regs, slices := t.slices } := by
  obtain ⟨_, _, _, e⟩ := h.frame
  subst e
  rfl

/-- A lane after its high-impedance interval, which ends at tick `t` (R105). -/
def hizEnded (l : Lane) (t : Nat) : Lane := if l.hiz then { l with hiz := false, hizTo := t } else l

theorem hizEnded_marks (l : Lane) (t : Nat) : (hizEnded l t).hiz = false ∧ (l.hiz = true → (hizEnded l t).hizTo = t) := by
  rw [hizEnded]
  split
  next => exact ⟨rfl, fun _ => rfl⟩
  next h => exact ⟨Bool.eq_false_of_not_eq_true h, fun e => absurd e h⟩

theorem exec_modeChangeHizEnd (n : Fin 12) (l : Fin 8) (s : State) : ∃ t, exec (.modeChangeHizEnd n l) s = .next t ∧ BallsOnly [] s t ∧
    t.regs = s.regs ∧ (∀ m, m ≠ n → t.slices[m] = s.slices[m]) ∧ t.lane n l = laneKeep (hizEnded (s.lane n l) s.now) s.now (s.laneBankOff n l) ∧
    ∀ j, j ≠ l → t.lane n j = laneKeep (s.lane n j) s.now (s.laneBankOff n j || (s.lane n j).hiz) := by
  refine ⟨_, rfl, ((ballsOnly_modLane _ _ n l _).trans (ballsOnly_keepLanes _ n)).trans (ballsOnly_strobeSync _ _ n), rfl, fun m hm => ?_, ?_,
    fun j hj => ?_⟩
  · rw [strobeSync, strobeAt, modSlice_ne _ n m _ (Ne.symm hm), keepLanes, mapLanes, modSlice_ne _ n m _ (Ne.symm hm), modLane,
      modSlice_ne _ n m _ (Ne.symm hm)]
  · rw [lane_strobeSync, lane_keepLanes, lane_modLane]
    change laneKeep (hizEnded (s.lane n l) s.now) s.now (s.laneBankOff n l || (hizEnded (s.lane n l) s.now).hiz) = _
    rw [(hizEnded_marks (s.lane n l) s.now).1, Bool.or_false]
  · rw [lane_strobeSync, lane_keepLanes, lane_modLane_ne _ n l _ (fun e => hj (congrArg Prod.snd e))]
    rfl

/-! ### A bank that is back (R104) -/

/-- The bit of CH_BANK_STATUS that shows a bank: true VIOB. -/
def bankFld (b : Bool) : Fld := if b then F.CH_BANK_STATUS_VIOB_OK else F.CH_BANK_STATUS_VIOA_OK

theorem key_bankFld (b : Bool) (n : Nat) : (bankFld b).reg.key [n] = 0x20404 + 0x2000 * n := by
  cases b <;> exact key_bankStatus n

theorem key_bankFld_ne_supply (b : Bool) (n : Nat) : (bankFld b).reg.key [n] ≠ F.FLT_SUPPLY_OK.reg.key [] := by
  rw [key_bankFld]
  simp only [Reg.key, Reg.row, RowOf.FLT_SUPPLY, F.FLT_SUPPLY_OK, List.zip_nil_left, List.map_nil, List.sum_nil]
  omega

theorem get_set_bankFld (s : State) (b ok : Bool) (n : Nat) : (s.set (bankFld b) [n] ok.toNat).get (bankFld b) [n] = ok.toNat := by
  cases b <;> cases ok <;> exact get_set_self _ _ _ _ (by decide)

theorem get_set_bankFld_not (s : State) (b : Bool) (ix jx : List Nat) (v : Nat) : (s.set (bankFld b) ix v).get (bankFld !b) jx = s.get (bankFld !b) jx := by
  cases b <;> exact get_set_field _ _ _ _ _ _ (by decide) (by decide)

/-- The keys of every slice's CH_BANK_STATUS. -/
def bankKeys : List Nat := (List.range 12).map (fun n => Reg.key .CH_BANK_STATUS [n])

theorem mem_bankKeys {k n : Nat} (h : n < 12) (hk : k = Reg.key .CH_BANK_STATUS [n]) : k ∈ bankKeys :=
  List.mem_map.mpr ⟨n, List.mem_range.mpr h, hk.symm⟩

/-- The bank's bit is written in every slice. -/
def bankShown (s : State) (b ok : Bool) : State := (List.finRange 12).foldl (fun s (n : Fin 12) => s.set (bankFld b) [n] ok.toNat) s

theorem bankShown_get (s : State) (b ok : Bool) : (BallsOnly bankKeys s (s.bankShown b ok) ∧ (s.bankShown b ok).slices = s.slices ∧
    ∀ n : Nat, (s.bankShown b ok).get (bankFld !b) [n] = s.get (bankFld !b) [n]) ∧ ∀ n : Fin 12, (s.bankShown b ok).get (bankFld b) [n] = ok.toNat := by
  refine foldl_finRange (R := fun u => BallsOnly bankKeys s u ∧ u.slices = s.slices ∧ ∀ n : Nat, u.get (bankFld !b) [n] = s.get (bankFld !b) [n])
    (v := fun u (n : Fin 12) => u.get (bankFld b) [n]) (P := fun _ _ y => y = ok.toNat) (fun u n hu => ?_) (fun u n _ => u.get_set_bankFld b ok n)
    (fun u n m _ hm => get_set_key _ _ _ _ _ _ ?_) s ⟨BallsOnly.refl _ _, rfl, fun _ => rfl⟩
  · obtain ⟨hballs, hslices, hother⟩ := hu
    refine ⟨hballs.trans (u.ballsOnly_set _ _ _ (mem_bankKeys n.isLt (by cases b <;> rfl))), hslices, fun m => ?_⟩
    rw [get_set_bankFld_not, hother]
  · have hval : m.val ≠ n.val := fun e => hm (Fin.ext e)
    rw [key_bankFld, key_bankFld]
    omega

theorem laneBankOff_of_regs {s t : State} (h : t.regs = s.regs) (n l : Nat) : t.laneBankOff n l = s.laneBankOff n l := by
  unfold laneBankOff laneSe bankOk bankUsed bankFound sliceBank act get activeK getK
  rw [h]

/-- Every slice's drivers note it. -/
theorem keepAll (s : State) : (BallsOnly [] s (s.overSlices (fun n s => s.keepLanes n)) ∧ (s.overSlices (fun n s => s.keepLanes n)).regs = s.regs) ∧
    ∀ (n : Fin 12) (l : Fin 8), (s.overSlices (fun n s => s.keepLanes n)).lane n l =
      laneKeep (s.lane n l) s.now (s.laneBankOff n l || (s.lane n l).hiz) := by
  refine foldl_finRange (R := fun u => BallsOnly [] s u ∧ u.regs = s.regs) (v := fun u (n : Fin 12) (l : Fin 8) => u.lane n l)
    (P := fun n x y => ∀ l, y l = laneKeep (x l) s.now (s.laneBankOff n l || (x l).hiz)) (f := fun s n => s.keepLanes n) (fun u n hu => ?_)
    (fun u n hu l => ?_) (fun u n m _ hm => ?_) s ⟨BallsOnly.refl _ _, rfl⟩
  · exact ⟨hu.1.trans (u.ballsOnly_keepLanes n), hu.2⟩
  · change (u.keepLanes n).lane n l = laneKeep (u.lane n l) s.now (s.laneBankOff n l || (u.lane n l).hiz)
    rw [lane_keepLanes, hu.1.now, laneBankOff_of_regs hu.2]
  · funext l
    exact lane_of_lanes (by rw [keepLanes, mapLanes, modSlice_ne _ n m _ (Ne.symm hm)]) l

theorem syncAll (s : State) : BallsOnly [] s (s.overSlices (fun n s => s.strobeSync n)) ∧ (s.overSlices (fun n s => s.strobeSync n)).regs = s.regs ∧
    ∀ (n : Fin 12) (l : Fin 8), (s.overSlices (fun n s => s.strobeSync n)).lane n l = s.lane n l :=
  foldl_keeps (R := fun u => BallsOnly [] s u ∧ u.regs = s.regs ∧ ∀ (n : Fin 12) (l : Fin 8), u.lane n l = s.lane n l)
    (fun u n hu => ⟨hu.1.trans (u.ballsOnly_strobeSync [] n), hu.2.1, fun m l => by rw [lane_strobeSync, hu.2.2]⟩) (List.finRange 12) s
    ⟨BallsOnly.refl _ _, rfl, fun _ _ => rfl⟩

theorem setBank_eq (s : State) (b ok : Bool) : s.setBank b ok = (s.bankShown b ok).overSlices (fun n s => s.keepLanes n) := rfl

theorem lane_of_slices {s t : State} (h : t.slices = s.slices) (n : Fin 12) (l : Fin 8) : t.lane n l = s.lane n l := by rw [lane, lane, h]

theorem get_of_regs_eq {s t : State} (h : t.regs = s.regs) (f : Fld) (ix : List Nat) : t.get f ix = s.get f ix := by
  rw [get, get, getK, getK, h]

theorem setBank_spec (s : State) (b ok : Bool) : BallsOnly bankKeys s (s.setBank b ok) ∧
    (∀ n : Fin 12, (s.setBank b ok).get (bankFld b) [n] = ok.toNat ∧ (s.setBank b ok).get (bankFld !b) [n] = s.get (bankFld !b) [n]) ∧
    ∀ (n : Fin 12) (l : Fin 8), (s.setBank b ok).lane n l = laneKeep (s.lane n l) s.now ((s.setBank b ok).laneBankOff n l || (s.lane n l).hiz) := by
  obtain ⟨⟨hshown, hslices, hother⟩, hset⟩ := s.bankShown_get b ok
  obtain ⟨⟨hkeep, hregs⟩, hkept⟩ := (s.bankShown b ok).keepAll
  rw [setBank_eq]
  refine ⟨hshown.trans (hkeep.mono (fun _ h => absurd h List.not_mem_nil)), fun n => ⟨?_, ?_⟩, fun n l => ?_⟩
  · rw [get_of_regs_eq hregs, hset]
  · rw [get_of_regs_eq hregs, hother]
  · rw [hkept, hshown.now, lane_of_slices hslices, laneBankOff_of_regs hregs]

theorem laneBankOff_set {s : State} {f : Fld} {ix : List Nat} (hk : f.reg.key ix ≠ Reg.key .CH_BANK_STATUS [0]) (v n l : Nat) :
    (s.set f ix v).laneBankOff n l = s.laneBankOff n l := by
  have hfound : ∀ b, (s.set f ix v).bankFound b = s.bankFound b := fun b => by
    cases b <;> exact congrArg (· == 1) (get_set_key _ _ _ _ _ _ hk.symm)
  rw [laneBankOff, bankOk, hfound]
  rfl

/-- The bank's voltage is back in range (R104). -/
def bankBack (s : State) (b : Bool) (mv : Nat) : State :=
  (((s.bankVolts b mv).setBank b true).set F.FLT_SUPPLY_OK []
    (putBits (s.get F.FLT_SUPPLY_OK) (if b then 4 else 3) 1 1)).overSlices (fun n s => s.strobeSync n)

theorem exec_supplyBankReturn_in {s : State} {b : Bool} {mv : Nat} (h : s.bankInRange b mv = true) :
    exec (.supplyBankReturn ⟨b, mv⟩) s = .next (s.bankBack b mv) := congrArg Host.Outcome.next (if_pos h)

theorem exec_supplyBankReturn_out {s : State} {b : Bool} {mv : Nat} (h : s.bankInRange b mv = false) :
    exec (.supplyBankReturn ⟨b, mv⟩) s = .next (s.bankVolts b mv) := congrArg Host.Outcome.next (if_neg (by rw [Bool.not_eq_true]; exact h))

section BankBack

variable (s : State) (b : Bool) (mv : Nat)

theorem bankBack_regs : (s.bankBack b mv).regs =
    (((s.bankVolts b mv).setBank b true).set F.FLT_SUPPLY_OK [] (putBits (s.get F.FLT_SUPPLY_OK) (if b then 4 else 3) 1 1)).regs :=
  (syncAll _).2.1

theorem bankBack_balls : BallsOnly (Reg.key .FLT_SUPPLY [] :: bankKeys) (s.bankVolts b mv) (s.bankBack b mv) := by
  obtain ⟨hballs, -⟩ := (s.bankVolts b mv).setBank_spec b true
  exact ((hballs.mono (fun _ h => List.mem_cons_of_mem _ h)).trans (ballsOnly_set _ F.FLT_SUPPLY_OK [] _ List.mem_cons_self)).trans
    ((syncAll _).1.mono (fun _ h => absurd h List.not_mem_nil))

theorem setBank_supply (ok : Bool) : ((s.bankVolts b mv).setBank b ok).get F.FLT_SUPPLY_OK = s.get F.FLT_SUPPLY_OK := by
  obtain ⟨hballs, -⟩ := (s.bankVolts b mv).setBank_spec b ok
  rw [get, (hballs.regs (F.FLT_SUPPLY_OK.reg.key []) (by decide)).1]
  rfl

theorem bankBack_supply (j : Nat) :
    bitOf ((s.bankBack b mv).get F.FLT_SUPPLY_OK) j = if j = (if b then 4 else 3) then true else bitOf (s.get F.FLT_SUPPLY_OK) j := by
  have hbit := ((s.bankVolts b mv).setBank b true).bitOf_get_set F.FLT_SUPPLY_OK [] 1 j (i := if b then 4 else 3) (by decide) (by cases b <;> decide)
  rw [setBank_supply] at hbit
  rw [get_of_regs_eq (s.bankBack_regs b mv), hbit]
  rfl

theorem bankBack_banks (n : Fin 12) :
    (s.bankBack b mv).get (bankFld b) [n] = 1 ∧ (s.bankBack b mv).get (bankFld !b) [n] = s.get (bankFld !b) [n] := by
  obtain ⟨-, hbits, -⟩ := (s.bankVolts b mv).setBank_spec b true
  rw [get_of_regs_eq (s.bankBack_regs b mv), get_of_regs_eq (s.bankBack_regs b mv), get_set_key _ _ _ _ _ _ (key_bankFld_ne_supply _ n),
    get_set_key _ _ _ _ _ _ (key_bankFld_ne_supply _ n)]
  exact hbits n

theorem bankBack_lane (n : Fin 12) (l : Fin 8) :
    (s.bankBack b mv).lane n l = laneKeep (s.lane n l) s.now ((s.bankBack b mv).laneBankOff n l || (s.lane n l).hiz) := by
  obtain ⟨-, -, hlanes⟩ := (s.bankVolts b mv).setBank_spec b true
  rw [laneBankOff_of_regs (s.bankBack_regs b mv), laneBankOff_set (by decide)]
  rw [bankBack, (syncAll _).2.2, lane_set]
  exact hlanes n l

end BankBack

end State

end Sys2Proof.Machine
end

section

-- One declaration at a time: the whole text's check stays within its memory.
set_option Elab.async false

/-! Detections, and the spare generators (R121–R123, R454–R456, R462). -/

namespace Sys2Proof.Machine

namespace State

/-! ### What only the setup registers show -/

/-- Outside the main copy and the additions of the registers `ks`, `t` is `s`. -/
structure RegsOnly (ks : List Nat) (s t : State) : Prop where
  frame : ∃ main fresh, t = { s with regs := { s.regs with main := main, fresh := fresh } }
  regs : regsSame ks s t

namespace RegsOnly

variable {ks ls : List Nat} {s t u : State}

theorem refl (ks : List Nat) (s : State) : RegsOnly ks s s := ⟨⟨_, _, rfl⟩, regsSame_refl _ _⟩

theorem trans (h : RegsOnly ks s t) (g : RegsOnly ks t u) : RegsOnly ks s u := by
  refine ⟨?_, regsSame_trans h.regs g.regs⟩
  obtain ⟨_, _, e⟩ := h.frame
  obtain ⟨_, _, e'⟩ := g.frame
  exact ⟨_, _, e'.trans (by rw [e])⟩

theorem mono (h : RegsOnly ks s t) (hl : ∀ k ∈ ks, k ∈ ls) : RegsOnly ls s t := ⟨h.frame, regsSame_mono h.regs hl⟩

theorem set (h : RegsOnly ks s t) (f : Fld) (ix : List Nat) (v : Nat) (hk : f.reg.key ix ∈ ks) : RegsOnly ks s (t.set f ix v) :=
  h.trans ⟨⟨_, _, rfl⟩, regsSame_set f ix v hk (regsSame_refl _ _)⟩

theorem count (h : RegsOnly ks s t) (f : Fld) (ix : List Nat) (n : Nat) (hk : f.reg.key ix ∈ ks) : RegsOnly ks s (t.count f ix n) :=
  h.trans ⟨⟨_, _, rfl⟩, regsSame_count f ix n hk (regsSame_refl _ _)⟩

theorem raise (h : RegsOnly ks s t) (f : Fld) (ix : List Nat) (hk : f.reg.key ix ∈ ks) : RegsOnly ks s (t.raise f ix) :=
  h.trans ⟨⟨_, _, rfl⟩, regsSame_raise f ix hk (regsSame_refl _ _)⟩

theorem eq_regs (h : RegsOnly ks s t) : t = { s with regs := t.regs } := by
  obtain ⟨_, _, e⟩ := h.frame
  exact e ▸ rfl

theorem get (h : RegsOnly ks s t) {f : Fld} {ix : List Nat} (hk : f.reg.key ix ∉ ks) : t.get f ix = s.get f ix := by
  rw [State.get, State.get, (h.regs _ hk).1]

theorem act (h : RegsOnly ks s t) (f : Fld) (ix : List Nat) : t.act f ix = s.act f ix := by
  obtain ⟨_, _, e⟩ := h.frame
  exact e ▸ rfl

theorem now (h : RegsOnly ks s t) : t.now = s.now := by rw [h.eq_regs]; rfl

end RegsOnly

theorem BallsOnly.get {ks : List Nat} {s t : State} (h : BallsOnly ks s t) {f : Fld} {ix : List Nat} (hk : f.reg.key ix ∉ ks) : t.get f ix = s.get f ix := by
  rw [State.get, State.get, (h.regs _ hk).1]

theorem unforcedLane_of_free {l : Lane} {plays : Bool} {t : Nat} (hforced : l.forced = true) (hplays : plays = false) (hsafe : l.safe = .none)
    (hheld : l.held = false) : unforcedLane l plays t = { laneReturn l t with forced := false, unforce := false } := by
  rw [unforcedLane, hforced, hplays, hheld, hsafe]
  rfl

/-- A bank that is back keeps no driver off. -/
theorem bankBack_laneBankOff (s : State) {b : Bool} (mv : Nat) {n : Fin 12} {l : Nat} (h : s.sliceBank n = b) : (s.bankBack b mv).laneBankOff n l = false := by
  have hbank : (s.bankBack b mv).sliceBank n = b := by rw [sliceBank, (s.bankBack_balls b mv).act]; exact h
  have hfound : (s.bankBack b mv).bankFound b = true := by
    have h1 : (s.bankBack b mv).get (bankFld b) [0] = 1 := (s.bankBack_banks b mv 0).1
    exact congrArg (· == 1) h1
  rw [laneBankOff, hbank, bankOk, hfound, Bool.or_true, Bool.not_true, Bool.and_false]

/-! ### A detection counts, and may be the first (R454, R456) -/

/-- The registers that show the first detection. -/
def firstKeys : List Nat := [Reg.key .FLT_FIRST [], Reg.key .FLT_FIRST_TBC_LO [], Reg.key .FLT_FIRST_TBC_HI []]

theorem key_fltCnt (n : Nat) : Reg.key .FLT_CNT [n] = 0x80104 + 0x4 * n := by simp [Reg.key, Reg.row, RowOf.FLT_CNT]

theorem mem_firstKeys {k : Nat} : k ∈ firstKeys ↔ k = 0x80000 ∨ k = 0x80004 ∨ k = 0x80008 := by
  simp [firstKeys, Reg.key, Reg.row, RowOf.FLT_FIRST, RowOf.FLT_FIRST_TBC_LO, RowOf.FLT_FIRST_TBC_HI]

section Detect

variable (s : State) (det unit_ : Nat) (cls : Resp) (injected : Bool) (owner : Option (Fin 16))

theorem regsOnly_detect : RegsOnly (Reg.key .FLT_CNT [det - 1] :: firstKeys) s (s.detect det unit_ cls injected owner) := by
  have hcount := (RegsOnly.refl (Reg.key .FLT_CNT [det - 1] :: firstKeys) s).count F.FLT_CNT_COUNT [det - 1] 1 List.mem_cons_self
  have hfirst : ∀ r ix, Reg.key r ix ∈ firstKeys → Reg.key r ix ∈ Reg.key .FLT_CNT [det - 1] :: firstKeys := fun _ _ h => List.mem_cons_of_mem _ h
  rw [detect]
  split
  · exact (((((((hcount.set _ _ _ (hfirst _ _ (by decide))).set _ _ _ (hfirst _ _ (by decide))).set _ _ _ (hfirst _ _ (by decide))).set _ _ _
      (hfirst _ _ (by decide))).set _ _ _ (hfirst _ _ (by decide))).set _ _ _ (hfirst _ _ (by decide))).set _ _ _ (hfirst _ _ (by decide))).raise
      F.FLT_FIRST_VALID [] (hfirst _ _ (by decide))
  · exact hcount

theorem freshK_detect (n : Nat) : (s.detect det unit_ cls injected owner).freshK (Reg.key .FLT_CNT [n]) =
    (s.count F.FLT_CNT_COUNT [det - 1]).freshK (Reg.key .FLT_CNT [n]) := by
  have hne : Reg.key .FLT_CNT [n] ≠ Reg.key .FLT_FIRST [] := by
    rw [key_fltCnt]
    simp only [Reg.key, Reg.row, RowOf.FLT_FIRST, List.zip_nil_left, List.map_nil, List.sum_nil]
    omega
  rw [detect, apply_ite (fun u => freshK u _), freshK_raise_ne _ F.FLT_FIRST_VALID [] _ hne]
  simp only [freshK_set, ite_self]

theorem counted_detect : counted F.FLT_CNT_COUNT [det - 1] 1 s (s.detect det unit_ cls injected owner) := by
  have h := counted_count s F.FLT_CNT_COUNT [det - 1] 1 (by decide)
  rw [counted, show F.FLT_CNT_COUNT.reg = .FLT_CNT from rfl] at h ⊢
  rwa [freshK_detect]

end Detect

/-! ### A swap begins (R121, R123) -/

/-- The state as a swap for lane `l`, or with `restore` a restore, has begun: `u` holds the registers, `s` the slice before. -/
structure SwapBegun (n : Fin 12) (l : Fin 8) (restore : Bool) (s t : State) : Prop where
  frame : t = { s with regs := (s.set F.CH_SPARE_STATUS_BUSY [n] 1).regs, slices := t.slices }
  swap : t.slices[n].swap = some ⟨l, restore, 1, s.now⟩
  held : (t.lane n l).held = true
  lane_ne : ∀ i, i ≠ l → t.lane n i = s.lane n i
  slice_ne : ∀ m : Fin 12, m ≠ n → t.slices[m] = s.slices[m]

theorem modLane_slices_ne (s : State) (n : Fin 12) (l : Fin 8) (f : Lane → Lane) {m : Fin 12} (h : m ≠ n) : (s.modLane n l f).slices[m] = s.slices[m] := by
  rw [modLane, modSlice_ne s n m _ h.symm]

theorem strobeSync_slices_ne (s : State) {n m : Fin 12} (h : m ≠ n) : (s.strobeSync n).slices[m] = s.slices[m] := by
  rw [strobeSync, strobeAt, modSlice_ne s n m _ h.symm]

theorem holdLane_held (l : Lane) (t : Nat) : (holdLane l t).held = true := by
  rw [holdLane]
  split <;> rfl

theorem lane_modSlice_of_lanes (s : State) (n : Fin 12) (f : Slice → Slice) (h : ∀ x, (f x).lanes = x.lanes) (m : Fin 12) (l : Fin 8) :
    (s.modSlice n f).lane m l = s.lane m l := by
  refine lane_of_lanes ?_ l
  rw [modSlice_lane, h]
  split
  next e => rw [e]
  next => rfl

theorem calAbandon_idle {s : State} (h : s.cal.run = none) (u : Fin 36) : s.calAbandon u = s := by
  rw [calAbandon, h]
  exact if_neg (fun e => nomatch e)

theorem spareStart_spec {s : State} (h : s.cal.run = none) (n : Fin 12) (l : Fin 8) (restore : Bool) :
    SwapBegun n l restore s (s.spareStart n l restore) := by
  rw [spareStart, calAbandon_idle h]
  refine ⟨rfl, ?_, ?_, fun i hi => ?_, fun m hm => ?_⟩
  · rw [strobeSync, strobeAt, modSlice_self, modLane, modSlice_self, modSlice_self]
  · rw [lane_strobeSync, lane_modLane]
    exact holdLane_held _ _
  · rw [lane_strobeSync, lane_modLane_ne _ n l _ (fun e => hi (congrArg Prod.snd e)), 
      lane_modSlice_of_lanes _ n _ (by intro _; rfl), lane_set]
  · rw [strobeSync_slices_ne _ hm, modLane_slices_ne _ _ _ _ hm, modSlice_ne _ n m _ hm.symm, set_slices]

theorem SwapBegun.regsSame {n : Fin 12} {l : Fin 8} {restore : Bool} {s t : State} (h : SwapBegun n l restore s t) :
    regsSame [Reg.key .CH_SPARE_STATUS [n]] s t := by
  have hset := regsSame_set F.CH_SPARE_STATUS_BUSY [n] 1 List.mem_cons_self (regsSame_refl [Reg.key .CH_SPARE_STATUS [n]] s)
  exact regsSame_other hset (by rw [h.frame])

theorem SwapBegun.get {n : Fin 12} {l : Fin 8} {restore : Bool} {s t : State} (h : SwapBegun n l restore s t) (f : Fld) (ix : List Nat) :
    t.get f ix = (s.set F.CH_SPARE_STATUS_BUSY [n] 1).get f ix := get_of_regs_eq (by rw [h.frame]) f ix

theorem SwapBegun.busy {n : Fin 12} {l : Fin 8} {restore : Bool} {s t : State} (h : SwapBegun n l restore s t) :
    t.get F.CH_SPARE_STATUS_BUSY [n] = 1 := (h.get _ _).trans (get_set_self _ _ _ _ (by decide))

/-! ### FORCE and RESTORE (R123) -/

section Ctrl

variable {s : State} {n : Fin 12} {l : Fin 8}

theorem key_spareStatus_ne_ctrl (n : Nat) : Reg.key .CH_SPARE_STATUS [n] ≠ Reg.key .CH_SPARE_CTRL [n] := by
  rw [key_spareStatus, key_spareCtrl]
  omega

theorem key_scStat_ne_ctrl (n m : Fin 12) : Reg.key .FLT_SC_STAT [n] ≠ Reg.key .CH_SPARE_CTRL [m] := by
  rw [key_scStat, key_spareCtrl]
  omega

theorem get_status_setLane (s : State) (n l : Nat) (w lsb : Nat) :
    (s.set F.CH_SPARE_CTRL_LANE [n] l).get ⟨.CH_SPARE_STATUS, lsb, w⟩ [n] = s.get ⟨.CH_SPARE_STATUS, lsb, w⟩ [n] :=
  get_set_key _ _ _ _ _ _ (key_spareStatus_ne_ctrl n)

theorem spareBusy_setLane : (s.set F.CH_SPARE_CTRL_LANE [n] l).spareBusy n = s.spareBusy n := congrArg (· == 1) (s.get_status_setLane n l _ _)

theorem spareUsed_setLane : (s.set F.CH_SPARE_CTRL_LANE [n] l).spareUsed n = s.spareUsed n := congrArg (· == 1) (s.get_status_setLane n l _ _)

theorem tg8Bad_setLane : (s.set F.CH_SPARE_CTRL_LANE [n] l).tg8Bad n = s.tg8Bad n :=
  congrArg (· == 1) (get_set_key _ _ _ _ _ _ (key_scStat_ne_ctrl n n))

theorem spareBusy_of_get (h : s.get F.CH_SPARE_STATUS_BUSY [n] = 0) : s.spareBusy n = false := by rw [spareBusy, h]; rfl

theorem spareForce_starts (hbusy : s.get F.CH_SPARE_STATUS_BUSY [n] = 0) (hused : s.get F.CH_SPARE_STATUS_IN_USE [n] = 0)
    (hbad : s.get F.FLT_SC_STAT_TG8_BAD [n] = 0) : s.spareForce n l = (s.set F.CH_SPARE_CTRL_LANE [n] l).spareStart n l false := by
  rw [spareForce, spareBusy_setLane, spareUsed_setLane, tg8Bad_setLane, spareBusy_of_get hbusy, spareUsed, tg8Bad, hused, hbad]
  rfl

theorem spareForce_refused (hbusy : s.get F.CH_SPARE_STATUS_BUSY [n] = 0)
    (h : s.get F.CH_SPARE_STATUS_IN_USE [n] = 1 ∨ s.get F.FLT_SC_STAT_TG8_BAD [n] = 1) :
    s.spareForce n l = (s.set F.CH_SPARE_CTRL_LANE [n] l).raise F.CH_SPARE_STATUS_FORCE_REFUSED [n] := by
  have hserves : (s.spareUsed n || s.tg8Bad n) = true := by
    rcases h with h | h
    · rw [spareUsed, h]; rfl
    · rw [tg8Bad, h]; exact Bool.or_true _
  rw [spareForce, spareBusy_setLane, spareUsed_setLane, tg8Bad_setLane, spareBusy_of_get hbusy, hserves]
  rfl

theorem spareRestore_starts {err : Int} (hbusy : s.get F.CH_SPARE_STATUS_BUSY [n] = 0) (hused : s.get F.CH_SPARE_STATUS_IN_USE [n] = 1)
    (hlane : s.get F.CH_SPARE_STATUS_LANE [n] = l) (hidle : s.sliceBusy n = false) (hinj : s.flt.inj = none)
    (hpass : err.natAbs ≤ s.get F.FLT_SC_CFG_TOL) : s.spareRestore n l err = (s.set F.CH_SPARE_CTRL_LANE [n] l).spareStart n l true := by
  have hserves : (s.set F.CH_SPARE_CTRL_LANE [n] l).spareUsed n = true := by rw [spareUsed_setLane, spareUsed, hused]; rfl
  have hinj' : (s.set F.CH_SPARE_CTRL_LANE [n] l).takeInject 0x15 (16 * n + l) = (false, s.set F.CH_SPARE_CTRL_LANE [n] l) := by
    rw [takeInject, set_flt, hinj]
  have htol : (s.set F.CH_SPARE_CTRL_LANE [n] l).get F.FLT_SC_CFG_TOL = s.get F.FLT_SC_CFG_TOL := by
    refine get_set_key _ _ _ _ _ _ ?_
    rw [show F.CH_SPARE_CTRL_LANE.reg.key [n.val] = _ from key_spareCtrl n]
    simp only [Reg.key, Reg.row, RowOf.FLT_SC_CFG, F.FLT_SC_CFG_TOL, List.zip_nil_left, List.map_nil, List.sum_nil]
    omega
  rw [spareRestore, spareBusy_setLane, spareBusy_of_get hbusy]
  refine (if_neg (by decide)).trans ((if_pos ⟨hserves, (s.get_status_setLane n l _ _).trans hlane, hidle⟩).trans ?_)
  rw [hinj']
  exact if_pos (by rw [htol]; exact hpass)

theorem exec_spareForce_of_crosses (h : crosses s) : exec (.spareForce n l) s = .next ((s.down 1).spareForce n l) := by
  refine congrArg Host.Outcome.next ?_
  rw [toField_of_crosses h, frames_barWr]

theorem exec_spareRestore_of_crosses (h : crosses s) (err : Int) : exec (.spareRestore n l err) s = .next ((s.down 1).spareRestore n l err) := by
  refine congrArg Host.Outcome.next ?_
  rw [toField_of_crosses h, frames_barWr]

end Ctrl

theorem key_scStat_ne_status (n m : Fin 12) : Reg.key .FLT_SC_STAT [n] ≠ Reg.key .CH_SPARE_STATUS [m] := by
  rw [key_scStat, key_spareStatus]
  omega

/-- A swap that a write of CH_SPARE_CTRL begins. -/
theorem SwapBegun.frame_ctrl {s t : State} {n : Fin 12} {l : Fin 8} {restore : Bool}
    (h : SwapBegun n l restore ((s.down 1).set F.CH_SPARE_CTRL_LANE [n] l) t) :
    t = { s with regs := t.regs, slices := t.slices, stile := framesDown 1 s.stile } := by
  have hframe := h.frame
  rw [show (((s.down 1).set F.CH_SPARE_CTRL_LANE [n] l).set F.CH_SPARE_STATUS_BUSY [n] 1).regs = t.regs from (congrArg State.regs hframe).symm] at hframe
  exact hframe

theorem SwapBegun.regs_ctrl {s t : State} {n : Fin 12} {l : Fin 8} {restore : Bool}
    (h : SwapBegun n l restore ((s.down 1).set F.CH_SPARE_CTRL_LANE [n] l) t) :
    Machine.regsSame [Reg.key .CH_SPARE_STATUS [n], Reg.key .CH_SPARE_CTRL [n]] s t :=
  regsSame_trans (regsSame_set F.CH_SPARE_CTRL_LANE [n] l (by simp [F.CH_SPARE_CTRL_LANE]) (regsSame_refl _ _)) (regsSame_mono h.regsSame (by simp))

theorem SwapBegun.flt {s t : State} {n : Fin 12} {l : Fin 8} {restore : Bool} (h : SwapBegun n l restore s t) : t.flt = s.flt := by rw [h.frame]

theorem SwapBegun.freshK {s t : State} {n : Fin 12} {l : Fin 8} {restore : Bool} (h : SwapBegun n l restore s t) (k : Nat) : t.freshK k = s.freshK k := by
  have hregs : t.regs = (s.set F.CH_SPARE_STATUS_BUSY [n] 1).regs := by rw [h.frame]
  rw [State.freshK, hregs]
  rfl

/-! ### A swap's steps (R121) -/

theorem spareStep_of_stage {s : State} {n : Fin 12} {w : SpareSwap} {k : Nat} (h : s.slices[n].swap = some w) (hstage : w.stage = k) :
    s.spareStep n k = { s with slices := s.slices.set n { s.slices[n] with swap := some { w with stage := k + 1 } } } := by
  rw [spareStep, h]
  exact if_pos hstage

theorem exec_spareLoopbackCheck_pass {s : State} {n : Fin 12} {w : SpareSwap} (h : s.slices[n].swap = some w) (hstage : w.stage = 3) :
    exec (.spareLoopbackCheck n true) s = .next (s.spareStep n 3) := by
  change execSpareLoopbackCheck n true s = _
  rw [execSpareLoopbackCheck, h]
  exact if_pos hstage

/-! ### The generator takes over (R121 step 5, R123) -/

section Release

variable (s : State) (n : Fin 12) (l : Fin 8)

theorem laneDrive_held (x : Lane) (t : Nat) (v en : Bool) : (laneDrive x t v en).held = x.held := by
  obtain ⟨_, _, _, _, _, e⟩ := laneDrive_frame x t v en
  rw [e]

theorem ballsOnly_releaseLane : BallsOnly [Reg.key .EP_EDGE_CNT0 [n, l]] s (s.releaseLane n l) := by
  rw [releaseLane]
  split
  · exact ballsOnly_modLane _ _ n l _
  split
  · exact ((ballsOnly_modLane _ _ n l _).trans (ballsOnly_driveAlt _ n l List.mem_cons_self)).trans (ballsOnly_strobeSync _ _ n)
  · exact (ballsOnly_modLane _ _ n l _).trans (ballsOnly_strobeSync _ _ n)

theorem driveAlt_slices_ne {m : Fin 12} (h : m ≠ n) : (s.driveAlt n l).slices[m] = s.slices[m] := by
  rw [driveAlt, modLane_slices_ne _ _ _ _ h]
  split
  · simp only [count_slices]
  · rfl

theorem releaseLane_slices_ne {m : Fin 12} (h : m ≠ n) : (s.releaseLane n l).slices[m] = s.slices[m] := by
  rw [releaseLane]
  split
  · exact modLane_slices_ne _ _ _ _ h
  split
  · rw [strobeSync_slices_ne _ h, driveAlt_slices_ne _ n l h, modLane_slices_ne _ _ _ _ h]
  · rw [strobeSync_slices_ne _ h, modLane_slices_ne _ _ _ _ h]

theorem releaseLane_held : ((s.releaseLane n l).lane n l).held = false := by
  rw [releaseLane, apply_ite (fun u => (lane u n l).held), apply_ite (fun u => (lane u n l).held), lane_strobeSync, lane_strobeSync, lane_driveAlt,
    laneDrive_held, lane_modLane, lane_modLane, lane_modLane, ite_self, ite_self]

end Release

/-- The registers as the generator of swap `w` takes over at tick `t`. -/
def takenOver (s : State) (n : Fin 12) (w : SpareSwap) : State :=
  let s := ((s.modSlice n (fun x => { x with swap := none })).set F.CH_SPARE_STATUS_BUSY [n] 0).set F.CH_SPARE_STATUS_IN_USE [n] (!w.restore).toNat
  let s := (s.set F.CH_SPARE_STATUS_LANE [n] w.lane).set F.CH_SPARE_STATUS_LAST_GAP [n] (gapNs (s.now - w.start))
  let failed := s.get F.CH_SPARE_STATUS_FAILED [n]
  if w.restore ∧ bitOf failed w.lane then s.set F.CH_SPARE_STATUS_FAILED [n] (failed - 2 ^ w.lane.val) else s

section TakenOver

variable (s : State) (n : Fin 12) (w : SpareSwap)

/-- A write of the field FAILED, or none. -/
theorem get_set_failed (b : Prop) [Decidable b] (v lsb wd : Nat) (h : lsb + wd ≤ 8 ∨ 16 ≤ lsb) :
    (if b then s.set F.CH_SPARE_STATUS_FAILED [n] v else s).get ⟨.CH_SPARE_STATUS, lsb, wd⟩ [n] = s.get ⟨.CH_SPARE_STATUS, lsb, wd⟩ [n] := by
  split
  · exact get_set_field _ _ _ _ _ _ (by decide) h
  · rfl

theorem takenOver_status : (s.takenOver n w).get F.CH_SPARE_STATUS_BUSY [n] = 0 ∧
    (s.takenOver n w).get F.CH_SPARE_STATUS_IN_USE [n] = (!w.restore).toNat ∧ (s.takenOver n w).get F.CH_SPARE_STATUS_LANE [n] = w.lane ∧
    (s.takenOver n w).get F.CH_SPARE_STATUS_LAST_GAP [n] = min (10 * (s.now - w.start) / 16384) 65535 := by
  rw [takenOver]
  refine ⟨(get_set_failed _ _ _ _ _ _ (by decide)).trans ?_, (get_set_failed _ _ _ _ _ _ (by decide)).trans ?_,
    (get_set_failed _ _ _ _ _ _ (by decide)).trans ?_, (get_set_failed _ _ _ _ _ _ (by decide)).trans ?_⟩
  · rw [get_set_field _ F.CH_SPARE_STATUS_LAST_GAP _ _ _ _ (by decide) (by decide), get_set_field _ F.CH_SPARE_STATUS_LANE _ _ _ _ (by decide) (by decide),
      get_set_field _ F.CH_SPARE_STATUS_IN_USE _ _ _ _ (by decide) (by decide)]
    exact get_set_self _ F.CH_SPARE_STATUS_BUSY _ _ (by decide)
  · rw [get_set_field _ F.CH_SPARE_STATUS_LAST_GAP _ _ _ _ (by decide) (by decide), get_set_field _ F.CH_SPARE_STATUS_LANE _ _ _ _ (by decide) (by decide)]
    refine (get_set_self _ F.CH_SPARE_STATUS_IN_USE _ _ (by decide)).trans ?_
    cases w.restore <;> rfl
  · rw [get_set_field _ F.CH_SPARE_STATUS_LAST_GAP _ _ _ _ (by decide) (by decide)]
    exact (get_set_self _ F.CH_SPARE_STATUS_LANE _ _ (by decide)).trans (Nat.mod_eq_of_lt w.lane.isLt)
  · exact (get_set_self _ F.CH_SPARE_STATUS_LAST_GAP _ _ (by decide)).trans (Nat.mod_eq_of_lt (by change gapNs _ < 65536; rw [gapNs]; omega))

theorem takenOver_regsOnly : RegsOnly [Reg.key .CH_SPARE_STATUS [n]] (s.modSlice n (fun x => { x with swap := none })) (s.takenOver n w) := by
  have hset := ((((RegsOnly.refl [Reg.key .CH_SPARE_STATUS [n]] (s.modSlice n (fun x => { x with swap := none }))).set F.CH_SPARE_STATUS_BUSY [n] 0
    List.mem_cons_self).set F.CH_SPARE_STATUS_IN_USE [n] (!w.restore).toNat List.mem_cons_self).set F.CH_SPARE_STATUS_LANE [n] w.lane
    List.mem_cons_self).set F.CH_SPARE_STATUS_LAST_GAP [n] (gapNs (s.now - w.start)) List.mem_cons_self
  rw [takenOver]
  split
  · exact hset.set F.CH_SPARE_STATUS_FAILED [n] _ List.mem_cons_self
  · exact hset

end TakenOver

section Takeover

variable {s : State} {n : Fin 12} {w : SpareSwap}

/-- The generator has taken over the ball. -/
def takeover (s : State) (n : Fin 12) (w : SpareSwap) : State := ((s.takenOver n w).releaseLane n w.lane).defer 1 (.slPulse n 18)

theorem exec_spareTakeover_of_stage (h : s.slices[n].swap = some w) (hstage : w.stage = 4) :
    exec (.spareTakeover n) s = .next (s.takeover n w) := by
  change execSpareTakeover n s = _
  rw [execSpareTakeover, h]
  exact if_pos hstage

theorem takeover_get {f : Fld} (hf : f.reg = .CH_SPARE_STATUS) : (s.takeover n w).get f [n] = (s.takenOver n w).get f [n] := by
  rw [takeover, defer_get]
  refine (ballsOnly_releaseLane _ n w.lane).get ?_
  rw [List.mem_singleton, hf, key_spareStatus, key_edgeCnt]
  omega

theorem takeover_held : ((s.takeover n w).lane n w.lane).held = false := (s.takenOver n w).releaseLane_held n w.lane

theorem takeover_slice : (s.takeover n w).slices[n].swap = none ∧ ∀ m : Fin 12, m ≠ n → (s.takeover n w).slices[m] = s.slices[m] := by
  have hslices : (s.takenOver n w).slices = (s.modSlice n (fun x => { x with swap := none })).slices := by
    rw [(s.takenOver_regsOnly n w).eq_regs]
  have hswap : (s.takenOver n w).slices[n].swap = none := by simp only [hslices, modSlice_self]
  simp only [takeover, defer_slices]
  refine ⟨?_, fun m hm => ?_⟩
  · rw [(ballsOnly_releaseLane (s.takenOver n w) n w.lane).slices n]
    exact hswap
  · rw [releaseLane_slices_ne _ n w.lane hm]
    simp only [hslices, modSlice_ne s n m _ hm.symm]

theorem takeover_frame :
    s.takeover n w = { s with regs := (s.takeover n w).regs, slices := (s.takeover n w).slices, due := s.due ++ [⟨1, .slPulse n 18⟩] } := by
  obtain ⟨_, _, e⟩ := (s.takenOver_regsOnly n w).frame
  obtain ⟨_, _, _, e'⟩ := (ballsOnly_releaseLane (s.takenOver n w) n w.lane).frame
  rw [takeover, e', e]
  rfl

theorem takeover_regsSame : Machine.regsSame [Reg.key .CH_SPARE_STATUS [n], Reg.key .EP_EDGE_CNT0 [n, w.lane]] s (s.takeover n w) := by
  have hstart : Machine.regsSame [Reg.key .CH_SPARE_STATUS [n], Reg.key .EP_EDGE_CNT0 [n, w.lane]] s (s.modSlice n (fun x => { x with swap := none })) :=
    regsSame_refl _ _
  exact regsSame_other (regsSame_trans (regsSame_trans hstart ((s.takenOver_regsOnly n w).mono (by simp)).regs)
    ((ballsOnly_releaseLane _ n w.lane).mono (by simp)).regs) (by rw [takeover, defer_regs])

end Takeover

/-! ### The self-check of a generator (R462) -/

theorem bitOf_ite_sub_self (v i : Nat) : bitOf (if bitOf v i then v - 2 ^ i else v) i = false := by
  by_cases h : bitOf v i
  · rw [if_pos h]
    have hbit : v / 2 ^ i % 2 = 1 := by simpa [bitOf] using h
    have hdiv : (v - 2 ^ i) / 2 ^ i = v / 2 ^ i - 1 := by simpa using Nat.sub_mul_div v (2 ^ i) 1
    rw [bitOf, hdiv, beq_eq_false_iff_ne]
    omega
  · rw [if_neg h]
    exact Bool.eq_false_of_not_eq_true h

section SelfCheck

variable {s : State} {n : Fin 12} {g : Fin 9} {err : Int}

/-- The failed checks in a row of a generator. -/
def setFails (s : State) (n : Fin 12) (g : Fin 9) (c : Nat) : State :=
  s.modFlt (fun f => { f with scFails := f.scFails.set n (f.scFails[n].set g c) })

theorem setFails_get (s : State) (n : Fin 12) (g : Fin 9) (c : Nat) (f : Fld) (ix : List Nat) : (s.setFails n g c).get f ix = s.get f ix := rfl

theorem setFails_freshK (s : State) (n : Fin 12) (g : Fin 9) (c k : Nat) : (s.setFails n g c).freshK k = s.freshK k := rfl

theorem setFails_slices (s : State) (n : Fin 12) (g : Fin 9) (c : Nat) : (s.setFails n g c).slices = s.slices := rfl

theorem setFails_now (s : State) (n : Fin 12) (g : Fin 9) (c : Nat) : (s.setFails n g c).now = s.now := rfl

theorem setFails_cal (s : State) (n : Fin 12) (g : Fin 9) (c : Nat) : (s.setFails n g c).cal = s.cal := rfl

/-- The registers after a check that passes. -/
def checkPassed (s : State) (n : Fin 12) (g : Fin 9) : State :=
  let fl := s.get F.FLT_SC_STAT_FAILING [n]
  let s := s.set F.FLT_SC_STAT_FAILING [n] (if bitOf fl g then fl - 2 ^ g.val else fl)
  if g = 8 then s.set F.FLT_SC_STAT_TG8_BAD [n] 0 else s

/-- The registers after a check that fails by `e` ticks. -/
def checkFailed (s : State) (n : Fin 12) (g : Fin 9) (e : Int) : State :=
  (s.set F.FLT_SC_STAT_FAILING [n] (withBit (s.get F.FLT_SC_STAT_FAILING [n]) g)).set F.FLT_SC_STAT_LAST_ERR [n] (patternOf (max (-32767) (min 32767 e)) 16)

variable (hperiod : s.get F.FLT_SC_CFG_PERIOD ≠ 0) (hfresh : s.sliceStale n = false) (hinj : s.flt.inj = none)

include hperiod hfresh hinj

theorem exec_tgSelfCheck_pass (h : err.natAbs ≤ s.get F.FLT_SC_CFG_TOL) : exec (.tgSelfCheck n g err) s = .next ((s.checkPassed n g).setFails n g 0) := by
  have hinj' : s.takeInject 0x15 (16 * n + g) = (false, s) := by rw [takeInject, hinj]
  change execTgSelfCheck n g err s = _
  rw [execTgSelfCheck, if_neg (by simp [hperiod, hfresh]), hinj']
  exact if_neg (by simpa using h)

theorem exec_tgSelfCheck_third (h : s.get F.FLT_SC_CFG_TOL < err.natAbs) (hthird : s.flt.scFails[n][g] = 2) :
    exec (.tgSelfCheck n g err) s = .next (((s.checkFailed n g err).setFails n g 0).tgDetect n g false) := by
  have hinj' : s.takeInject 0x15 (16 * n + g) = (false, s) := by rw [takeInject, hinj]
  have hcount : (s.checkFailed n g err).flt.scFails[n][g] + 1 = 3 := by simp only [checkFailed, set_flt, hthird]
  change execTgSelfCheck n g err s = _
  rw [execTgSelfCheck, if_neg (by simp [hperiod, hfresh]), hinj']
  exact (if_pos h).trans (if_pos hcount)

end SelfCheck

theorem bitOf_mod (v w i : Nat) : bitOf (v % 2 ^ w) i = (decide (i < w) && bitOf v i) := by
  rw [bitOf_eq_testBit, Nat.testBit_mod_two_pow, ← bitOf_eq_testBit]

section Passed

variable (s : State) (n : Fin 12) (g : Fin 9)

theorem checkPassed_failing : bitOf ((s.checkPassed n g).get F.FLT_SC_STAT_FAILING [n]) g = false := by
  have hself : bitOf ((s.set F.FLT_SC_STAT_FAILING [n] (if bitOf (s.get F.FLT_SC_STAT_FAILING [n]) g then s.get F.FLT_SC_STAT_FAILING [n] - 2 ^ g.val
      else s.get F.FLT_SC_STAT_FAILING [n])).get F.FLT_SC_STAT_FAILING [n]) g = false := by
    rw [get_set_self _ _ _ _ (by decide), bitOf_mod, bitOf_ite_sub_self, Bool.and_false]
  rw [checkPassed]
  split
  · rw [get_set_field _ F.FLT_SC_STAT_TG8_BAD _ _ _ _ (by decide) (by decide)]
    exact hself
  · exact hself

theorem checkPassed_tg8Bad : (s.checkPassed n g).get F.FLT_SC_STAT_TG8_BAD [n] = if g = 8 then 0 else s.get F.FLT_SC_STAT_TG8_BAD [n] := by
  rw [checkPassed]
  split
  · exact get_set_self _ F.FLT_SC_STAT_TG8_BAD _ _ (by decide)
  · exact get_set_field _ F.FLT_SC_STAT_FAILING _ _ _ _ (by decide) (by decide)

theorem checkPassed_regsOnly : RegsOnly [Reg.key .FLT_SC_STAT [n]] s (s.checkPassed n g) := by
  have hset := (RegsOnly.refl [Reg.key .FLT_SC_STAT [n]] s).set F.FLT_SC_STAT_FAILING [n]
    (if bitOf (s.get F.FLT_SC_STAT_FAILING [n]) g then s.get F.FLT_SC_STAT_FAILING [n] - 2 ^ g.val else s.get F.FLT_SC_STAT_FAILING [n])
    List.mem_cons_self
  rw [checkPassed]
  split
  · exact hset.set F.FLT_SC_STAT_TG8_BAD [n] 0 List.mem_cons_self
  · exact hset

theorem checkFailed_regsOnly (e : Int) : RegsOnly [Reg.key .FLT_SC_STAT [n]] s (s.checkFailed n g e) :=
  ((RegsOnly.refl [Reg.key .FLT_SC_STAT [n]] s).set F.FLT_SC_STAT_FAILING [n] _ List.mem_cons_self).set F.FLT_SC_STAT_LAST_ERR [n] _ List.mem_cons_self

theorem checkFailed_failing (e : Int) : bitOf ((s.checkFailed n g e).get F.FLT_SC_STAT_FAILING [n]) g = true := by
  rw [checkFailed, get_set_field _ F.FLT_SC_STAT_LAST_ERR _ _ _ _ (by decide) (by decide), bitOf_get_set_withBit _ _ _ _ (by decide) g.isLt,
    decide_eq_true rfl, Bool.true_or]

theorem checkFailed_freshK (e : Int) (k : Nat) : (s.checkFailed n g e).freshK k = s.freshK k := by rw [checkFailed, freshK_set, freshK_set]

theorem checkFailed_tg8Bad (e : Int) : (s.checkFailed n g e).get F.FLT_SC_STAT_TG8_BAD [n] = s.get F.FLT_SC_STAT_TG8_BAD [n] := by
  rw [checkFailed, get_set_field _ F.FLT_SC_STAT_LAST_ERR _ _ _ _ (by decide) (by decide),
    get_set_field _ F.FLT_SC_STAT_FAILING _ _ _ _ (by decide) (by decide)]

end Passed

section Third

variable {s : State} {n : Fin 12} {l : Fin 8} {g : Fin 9}

/-- The detection of a generator that failed its third check, and its lane marked (R121, R454). -/
def markFailed (s : State) (n : Fin 12) (l : Fin 8) : State :=
  let u := s.detect 0x15 (16 * n + l) .repair false (s.ownerSlice n)
  u.set F.CH_SPARE_STATUS_FAILED [n] (withBit (u.get F.CH_SPARE_STATUS_FAILED [n]) l)

theorem tgDetect_swaps (hg : g.val = l.val) (hbusy : s.get F.CH_SPARE_STATUS_BUSY [n] = 0) (hused : s.get F.CH_SPARE_STATUS_IN_USE [n] = 0)
    (hbad : s.get F.FLT_SC_STAT_TG8_BAD [n] = 0) (hswap : s.slices[n].swap = none) :
    s.tgDetect n g false = (s.markFailed n l).spareStart n l false := by
  have hu : s.spareUsed n = false := by rw [spareUsed, hused]; rfl
  have hb : s.tg8Bad n = false := by rw [tg8Bad, hbad]; rfl
  have hs : s.spareServes n g = false := by rw [spareServes, hu, hswap]; rfl
  have hl : (⟨g.val, hg ▸ l.isLt⟩ : Fin 8) = l := Fin.ext hg
  rw [tgDetect, dif_pos (hg ▸ l.isLt : g.val < 8), hs, hu, hb, spareBusy_of_get hbusy]
  refine (if_neg (by decide)).trans ((if_pos (by decide)).trans ?_)
  rw [hl, hg, markFailed]

/-- CH_SPARE_STATUS lies apart from what a detection or a check writes. -/
theorem key_spareStatus_apart (n m : Fin 12) (d : Nat) :
    Reg.key .CH_SPARE_STATUS [n] ∉ Reg.key .FLT_SC_STAT [m] :: Reg.key .FLT_CNT [d] :: firstKeys := by
  rw [List.mem_cons, List.mem_cons, mem_firstKeys, key_spareStatus, key_scStat, key_fltCnt]
  omega

theorem key_scStat_apart (n m : Fin 12) : Reg.key .FLT_SC_STAT [n] ∉ Reg.key .CH_SPARE_STATUS [m] :: Reg.key .FLT_CNT [0x14] :: firstKeys := by
  rw [List.mem_cons, List.mem_cons, mem_firstKeys, key_spareStatus, key_scStat, key_fltCnt]
  omega

theorem markFailed_regsOnly : RegsOnly (Reg.key .CH_SPARE_STATUS [n] :: Reg.key .FLT_CNT [0x14] :: firstKeys) s (s.markFailed n l) :=
  ((s.regsOnly_detect 0x15 (16 * n + l) .repair false (s.ownerSlice n)).mono (fun _ h => List.mem_cons_of_mem _ h)).set F.CH_SPARE_STATUS_FAILED [n] _
    List.mem_cons_self

theorem markFailed_failed : bitOf ((s.markFailed n l).get F.CH_SPARE_STATUS_FAILED [n]) l = true := by
  rw [markFailed, bitOf_get_set_withBit _ _ _ _ (by decide) l.isLt, decide_eq_true rfl, Bool.true_or]

theorem markFailed_counted : counted F.FLT_CNT_COUNT [0x14] 1 s (s.markFailed n l) := by
  have h := s.counted_detect 0x15 (16 * n + l) .repair false (s.ownerSlice n)
  rw [counted] at h ⊢
  rwa [markFailed, freshK_set]

/-- The registers as a third check in a row has failed, before the swap. -/
def thirdFailed (s : State) (n : Fin 12) (l : Fin 8) (err : Int) : State :=
  ((s.checkFailed n (Fin.ofNat 9 l.val) err).setFails n (Fin.ofNat 9 l.val) 0).markFailed n l

theorem ofNat_nine_val (l : Fin 8) : (Fin.ofNat 9 l.val).val = l.val := Nat.mod_eq_of_lt (by omega)

theorem tgDetect_checkFailed (err : Int) (hbusy : s.get F.CH_SPARE_STATUS_BUSY [n] = 0) (hused : s.get F.CH_SPARE_STATUS_IN_USE [n] = 0)
    (hbad : s.get F.FLT_SC_STAT_TG8_BAD [n] = 0) (hswap : s.slices[n].swap = none) :
    ((s.checkFailed n (Fin.ofNat 9 l.val) err).setFails n (Fin.ofNat 9 l.val) 0).tgDetect n (Fin.ofNat 9 l.val) false =
      (s.thirdFailed n l err).spareStart n l false := by
  have hregs := s.checkFailed_regsOnly n (Fin.ofNat 9 l.val) err
  have hkey : Reg.key .CH_SPARE_STATUS [n] ∉ [Reg.key .FLT_SC_STAT [n]] := fun h =>
    key_spareStatus_apart n n 0 (List.mem_cons.mpr (.inl (List.mem_singleton.mp h)))
  refine tgDetect_swaps (ofNat_nine_val l) ?_ ?_ ?_ ?_
  · rw [setFails_get, hregs.get hkey, hbusy]
  · rw [setFails_get, hregs.get hkey, hused]
  · rw [setFails_get, checkFailed_tg8Bad, hbad]
  · rw [setFails_slices, hregs.eq_regs]
    exact hswap

theorem thirdFailed_spec (err : Int) : bitOf ((s.thirdFailed n l err).get F.FLT_SC_STAT_FAILING [n]) l = true ∧
    (s.thirdFailed n l err).flt.scFails[n][Fin.ofNat 9 l.val] = 0 ∧ (s.thirdFailed n l err).now = s.now ∧ (s.thirdFailed n l err).cal = s.cal ∧
    counted F.FLT_CNT_COUNT [0x14] 1 s (s.thirdFailed n l err) := by
  have hcheck := s.checkFailed_regsOnly n (Fin.ofNat 9 l.val) err
  have hmark := markFailed_regsOnly (s := (s.checkFailed n (Fin.ofNat 9 l.val) err).setFails n (Fin.ofNat 9 l.val) 0) (n := n) (l := l)
  have hfailing := s.checkFailed_failing n (Fin.ofNat 9 l.val) err
  rw [ofNat_nine_val] at hfailing
  refine ⟨?_, ?_, ?_, ?_, ?_⟩
  · rw [thirdFailed, hmark.get (key_scStat_apart n n), setFails_get, hfailing]
  · rw [thirdFailed, hmark.eq_regs]
    simp [setFails, modFlt]
  · rw [thirdFailed, hmark.now, setFails_now, hcheck.now]
  · rw [thirdFailed, hmark.eq_regs]
    rw [setFails_cal, hcheck.eq_regs]
  · have hcount := markFailed_counted (s := (s.checkFailed n (Fin.ofNat 9 l.val) err).setFails n (Fin.ofNat 9 l.val) 0) (n := n) (l := l)
    rw [counted, setFails_freshK, checkFailed_freshK] at hcount
    exact hcount

end Third

end State

end Sys2Proof.Machine
end

section

-- One declaration at a time: the whole text's check stays within its memory.
set_option Elab.async false

/-! The balls of the slices: what the machine does (O48). -/

namespace Sys2Proof.Machine

section BallsFollow

open State

/-- Settles O48: each clause is the effect of one step on the lanes it names. -/
theorem ballsFollowTheirRanks : Obligations.BallsFollowTheirRanks := by
  unfold Obligations.BallsFollowTheirRanks
  refine ⟨fun c s => ?_, fun c s => ?_, fun n l s => ?_, fun b mv s hout => exec_supplyBankReturn_out hout, fun b mv s hin => ?_,
    fun n l s hcross hbusy hused hbad hrun => ?_, fun n l s hcross hbusy hserves => ?_, fun n l err s hcross hbusy hused hlane hidle hinj hpass hrun => ?_,
    fun n w s hw hstage => ?_, fun n w s hw hstage => ?_, fun n w s hw hstage => ?_, fun n w s hw hstage => ?_,
    fun n g err s hperiod hfresh hinj hpass => ?_, fun n l err s hperiod hfresh hinj hfail hthird hswap hbusy hused hbad hrun => ?_⟩
  · obtain ⟨t, hexec, hballs, hlanes⟩ := s.exec_reflexAssert c
    refine ⟨t, hexec, fun n l hold => ?_, fun n l hr => (hlanes n l).marks hr, fun n l hr hnew => ?_, fun n l hr hnew hsafe hheld => ?_,
      fun n l hr hnew hsafe hheld hlast => ?_, hballs.regs_slices, hballs.regs⟩
    · exact Prod.mk.inj ((hlanes n l).kept hold)
    · obtain ⟨hlane, hcount⟩ := (hlanes n l).taken hr hnew
      obtain ⟨-, -, hvec⟩ := forcedLane_marks (s.lane n l) s.now (s.act F.CH_REFLEX_ALT [n, l])
      exact ⟨hcount, (congrArg Lane.vec hlane).trans hvec⟩
    · obtain ⟨hlane, -⟩ := (hlanes n l).taken hr hnew
      rw [forcedLane_of_free (l := (s.ballCount n l).1) hsafe hheld] at hlane
      exact (congrArg (laneEnable · s.now) hlane).trans (laneEnable_laneDrive _ _ _ _ _)
    · obtain ⟨hlane, -⟩ := (hlanes n l).taken hr hnew
      rw [forcedLane_of_free (l := (s.ballCount n l).1) hsafe hheld] at hlane
      exact (congrArg (laneLevel · (s.now + 246)) hlane).trans (laneLevel_laneDrive _ _ hlast)
  · obtain ⟨t, hexec, ⟨hballs, hregs⟩, hlanes⟩ := s.exec_reflexDeassert c
    refine ⟨t, hexec, fun n l hold => ?_, fun n l hcell hforced => ?_, fun n l v hcell hforced hplay hsafe hheld hvec => ?_, hballs.slices_only hregs⟩
    · refine (hlanes n l).trans ?_
      split
      next hcell =>
        rw [unforcedLane, lane, hold.resolve_left (absurd hcell)]
        rfl
      next => rfl
    · have hlane : t.lane n l = _ := (hlanes n l).trans (if_pos hcell)
      have hmarks := unforcedLane_marks (l := s.lane n l) hforced s.slices[n].feed.play.isSome s.now
      rw [← hlane] at hmarks
      exact hmarks
    · have hlane : t.lane n l = _ := (hlanes n l).trans (if_pos hcell)
      rw [unforcedLane_of_free (l := s.lane n l) hforced (by rw [hplay]; rfl) hsafe hheld] at hlane
      refine (congrArg (laneEnable · s.now) hlane).trans ((laneEnable_laneReturn (s.lane n l) s.now).trans ?_)
      rw [laneVec, lane, hvec]
      rfl
  · obtain ⟨t, hexec, hballs, hregs, hne, hlane, hothers⟩ := s.exec_modeChangeHizEnd n l
    obtain ⟨hhiz, hto⟩ := hizEnded_marks (s.lane n l) s.now
    obtain ⟨hkeepHiz, hkeepTo⟩ := laneKeep_hiz (hizEnded (s.lane n l) s.now) s.now (s.laneBankOff n l)
    refine ⟨t, hexec, ?_, fun h => ?_, ?_, hothers, hballs.slices n, hne, hballs.slices_only hregs⟩
    · exact (congrArg Lane.hiz hlane).trans (hkeepHiz.trans hhiz)
    · exact (congrArg Lane.hizTo hlane).trans (hkeepTo.trans (hto h))
    · exact (congrArg Lane.kept hlane).trans (laneKeep_kept _ _ _)
  · refine ⟨_, exec_supplyBankReturn_in hin, ?_, fun i hi => ?_, fun n => ?_, fun n => ?_, fun n l hbank hhiz => ?_, fun n l hkept => ?_,
      (s.bankBack_balls b mv).regs_slices, (s.bankBack_balls b mv).regs⟩
    · rw [bankBack_supply, if_pos rfl]
    · rw [bankBack_supply, if_neg hi]
    · have h := s.bankBack_banks b mv n
      cases b <;> exact h
    · exact (s.bankBack_balls b mv).slices n
    · refine (congrArg Lane.kept (s.bankBack_lane b mv n l)).trans ((laneKeep_kept _ _ _).trans ?_)
      rw [s.bankBack_laneBankOff mv hbank, lane, hhiz]
      rfl
    · refine (s.bankBack_lane b mv n l).trans ?_
      rw [laneKeep, lane, if_pos hkept]
  · have h := spareStart_spec (s := (s.down 1).set F.CH_SPARE_CTRL_LANE [n] l) hrun n l false
    rw [← spareForce_starts (s := s.down 1) hbusy hused hbad] at h
    refine ⟨_, exec_spareForce_of_crosses hcross, h.busy, ?_, h.swap, h.held, h.lane_ne, h.slice_ne, h.frame_ctrl, h.regs_ctrl⟩
    rw [h.get, get_set_key _ _ _ _ _ _ (key_spareStatus_ne_ctrl n).symm]
    exact (get_set_self _ F.CH_SPARE_CTRL_LANE _ _ (by decide)).trans (Nat.mod_eq_of_lt l.isLt)
  · rw [exec_spareForce_of_crosses hcross, spareForce_refused (s := s.down 1) hbusy hserves]
    rfl
  · have h := spareStart_spec (s := (s.down 1).set F.CH_SPARE_CTRL_LANE [n] l) hrun n l true
    rw [← spareRestore_starts (s := s.down 1) hbusy hused hlane hidle hinj hpass] at h
    exact ⟨_, exec_spareRestore_of_crosses hcross err, h.busy, h.swap, h.held, h.slice_ne, h.frame_ctrl, h.regs_ctrl⟩
  · exact congrArg Host.Outcome.next (spareStep_of_stage hw hstage)
  · exact congrArg Host.Outcome.next (spareStep_of_stage hw hstage)
  · exact (exec_spareLoopbackCheck_pass hw hstage).trans (congrArg Host.Outcome.next (spareStep_of_stage hw hstage))
  · obtain ⟨hbusy, hinUse, hlane, hgap⟩ := s.takenOver_status n w
    obtain ⟨hswap, hslices⟩ := takeover_slice (s := s) (n := n) (w := w)
    exact ⟨_, exec_spareTakeover_of_stage hw hstage, hswap, takeover_held, (takeover_get rfl).trans hbusy, (takeover_get rfl).trans hinUse,
      (takeover_get rfl).trans hlane, (takeover_get rfl).trans hgap, hslices, takeover_frame, takeover_regsSame⟩
  · have hregs := s.checkPassed_regsOnly n g
    refine ⟨_, exec_tgSelfCheck_pass hperiod hfresh hinj hpass, s.checkPassed_failing n g, ?_, s.checkPassed_tg8Bad n g, ?_, hregs.regs⟩
    · simp [setFails, modFlt]
    · rw [setFails, modFlt, hregs.eq_regs]
  · obtain ⟨hfailing, hfails, hnow, hcal, hcount⟩ := thirdFailed_spec (s := s) (n := n) (l := l) err
    have h := spareStart_spec (s := s.thirdFailed n l err) (by rw [hcal, hrun]) n l false
    refine ⟨_, (exec_tgSelfCheck_third hperiod hfresh hinj hfail hthird).trans
      (congrArg Host.Outcome.next (tgDetect_checkFailed err hbusy hused hbad hswap)), ?_, ?_, ?_, ?_, h.held, ?_⟩
    · rw [h.get, get_set_key _ _ _ _ _ _ (key_scStat_ne_status n n), hfailing]
    · simp only [h.flt]
      exact hfails
    · rw [h.get, get_set_field _ F.CH_SPARE_STATUS_BUSY _ _ _ _ (by decide) (by decide)]
      exact markFailed_failed
    · rw [h.swap, hnow]
    · rw [counted, h.freshK]
      exact hcount

end BallsFollow

end Sys2Proof.Machine
end

section

-- One declaration at a time: the whole text's check stays within its memory.
set_option Elab.async false

/-! Cores leaving and returning to service, injections and staged code (R464–R466). -/

namespace Sys2Proof.Machine

namespace State

theorem hostStrobe_of_crosses {s : State} (h : crosses s) (r : Reg) (ix : List Nat) (b : Nat) (act : State → State) :
    s.hostStrobe r ix b act = act (s.down 1) := by
  rw [hostStrobe, toField_of_crosses h, frames_barWr]

/-- A bit put into a narrow field leaves it narrow. -/
theorem putBit_lt {v i n : Nat} (x : Nat) (hv : v < 2 ^ n) (hi : i < n) : putBits v i 1 x < 2 ^ n := by
  refine Nat.lt_pow_two_of_testBit _ (fun j hj => ?_)
  rw [← bitOf_eq_testBit, bitOf_putBits, if_neg (by omega), bitOf_eq_testBit]
  exact Nat.testBit_lt_two_pow (lt_of_lt_of_le hv (Nat.pow_le_pow_right (by decide) hj))

theorem get_lt (s : State) (f : Fld) (ix : List Nat) : s.get f ix < 2 ^ f.width := Nat.mod_lt _ (by positivity)

theorem get_set_bit (s : State) (f : Fld) (ix : List Nat) {i : Nat} (x : Nat) (h : f.lsb + f.width ≤ 32) (hi : i < f.width) :
    (s.set f ix (putBits (s.get f ix) i 1 x)).get f ix = putBits (s.get f ix) i 1 x := by
  rw [get_set_self _ _ _ _ h, Nat.mod_eq_of_lt (putBit_lt x (s.get_lt f ix) hi)]

/-! ### Cores (R464) -/

section Cores

variable (s : State) (c : Fin 4)

theorem exec_fltCoreOffline_of_crosses (h : crosses s) : exec (.fltCoreOffline c) s = .next ((s.down 1).coreOffline c) :=
  congrArg Host.Outcome.next (hostStrobe_of_crosses h _ _ _ _)

theorem exec_fltCoreOnline_of_crosses (h : crosses s) : exec (.fltCoreOnline c) s = .next ((s.down 1).coreOnline c) :=
  congrArg Host.Outcome.next (hostStrobe_of_crosses h _ _ _ _)

variable {s c}

theorem coreOffline_refused (hstate : s.get F.FLT_CORE_STATE [c] = 0) (h : s.otherCores c < s.dedicatedCount + 1) :
    s.coreOffline c = s.raise F.FLT_CORE_REFUSED [c] := by rw [coreOffline, if_neg (by rw [hstate]; decide), if_pos h]

theorem coreOffline_idle (hstate : s.get F.FLT_CORE_STATE [c] = 0) (h : s.dedicatedCount + 1 ≤ s.otherCores c) (hidle : s.cores[c].st = .idle) :
    s.coreOffline c = (s.modCore c (fun r => { r with offReq := false })).set F.FLT_CORE_STATE [c] 2 := by
  rw [coreOffline, if_neg (by rw [hstate]; decide), if_neg (by omega), if_pos hidle]
  rfl

theorem coreOffline_waits (hstate : s.get F.FLT_CORE_STATE [c] = 0) (h : s.dedicatedCount + 1 ≤ s.otherCores c) (hruns : s.cores[c].st ≠ .idle) :
    s.coreOffline c = (s.modCore c (fun r => { r with offReq := true })).set F.FLT_CORE_STATE [c] 1 := by
  rw [coreOffline, if_neg (by rw [hstate]; decide), if_neg (by omega), if_neg hruns]

end Cores

/-! ### Injections (R466) -/

section Injections

variable {s : State}

theorem exec_injectionArm_of_crosses (h : crosses s) (n : Fin 65536) :
    exec (.injectionArm n) s = .next (((s.down 1).set F.FLT_INJ_CTRL_COUNT [] n).injArm n) := by
  refine congrArg Host.Outcome.next ?_
  rw [toField_of_crosses h, frames_barWr]

theorem exec_injectionCancel_of_crosses (h : crosses s) : exec .injectionCancel s = .next ((s.down 1).injCancel) :=
  congrArg Host.Outcome.next (hostStrobe_of_crosses h _ _ _ _)

/-- The unit of FLT_INJ_SEL, armed for `n`. -/
def armed (s : State) (n : Nat) : State :=
  (s.modFlt (fun f => { f with
    inj := some ⟨s.get F.FLT_INJ_SEL_DET, s.get F.FLT_INJ_SEL_UNIT, s.get F.FLT_INJ_SEL_VARIANT == 1, n⟩, injAt := s.now })).set F.FLT_INJ_CTRL_BUSY [] 1

theorem injArm_of_unit {n : Nat} (hbusy : s.get F.FLT_INJ_CTRL_BUSY = 0) (hn : n ≠ 0) (hunit : injUnit (s.get F.FLT_INJ_SEL_DET) (s.get F.FLT_INJ_SEL_UNIT) = true) :
    s.injArm n = s.armed n := by
  rw [injArm, if_neg (by rw [hbusy]; simp [hn])]
  exact if_pos hunit

theorem injArm_of_no_unit {n : Nat} (hbusy : s.get F.FLT_INJ_CTRL_BUSY = 0) (hn : n ≠ 0)
    (hunit : injUnit (s.get F.FLT_INJ_SEL_DET) (s.get F.FLT_INJ_SEL_UNIT) = false) : s.injArm n = s.raise F.FLT_INJ_CTRL_ERR := by
  rw [injArm, if_neg (by rw [hbusy]; simp [hn])]
  exact if_neg (by rw [hunit]; decide)

theorem injRailBack_of_no_rail {i : Inject} (h : s.flt.inj = some i) (h1 : i.det ≠ 0x12) (h2 : i.det ≠ 0x13) : s.injRailBack = s := by
  rw [injRailBack, h]
  exact if_neg (by simp [h1, h2])

theorem exec_injectionDurationEnd_of_inj {i : Inject} (h : s.flt.inj = some i) : exec .injectionDurationEnd s =
    .next (if injTimed i.det ∧ (1638400 * i.left : Int) ≤ s.now - s.flt.injAt then s.injCancel.raise F.FLT_INJ_CTRL_DONE else s) := by
  change execInjectionDurationEnd s = _
  rw [execInjectionDurationEnd, h]

theorem injCancel_regsOnly : RegsOnly [Reg.key .FLT_INJ_CTRL [], Reg.key .FLT_SUPPLY []] (s.modFlt (fun f => { f with inj := none })) s.injCancel := by
  have hrefl := RegsOnly.refl [Reg.key .FLT_INJ_CTRL [], Reg.key .FLT_SUPPLY []] (s.modFlt (fun f => { f with inj := none }))
  rw [injCancel, injRailBack]
  split
  next =>
    split
    next => exact (hrefl.set F.FLT_SUPPLY_OK [] _ (by decide)).set F.FLT_INJ_CTRL_BUSY [] 0 (by decide)
    next => exact hrefl.set F.FLT_INJ_CTRL_BUSY [] 0 (by decide)
  next => exact hrefl.set F.FLT_INJ_CTRL_BUSY [] 0 (by decide)

theorem injCancel_supply {i : Inject} (h : s.flt.inj = some i) (hunit : i.unit_ < 5) : s.injCancel.get F.FLT_SUPPLY_OK =
    if i.det = 0x12 ∨ i.det = 0x13 then putBits (s.get F.FLT_SUPPLY_OK) i.unit_ 1 1 else s.get F.FLT_SUPPLY_OK := by
  have hback : s.injRailBack.get F.FLT_SUPPLY_OK =
      if i.det = 0x12 ∨ i.det = 0x13 then putBits (s.get F.FLT_SUPPLY_OK) i.unit_ 1 1 else s.get F.FLT_SUPPLY_OK := by
    rw [injRailBack, h]
    dsimp only
    split
    · exact s.get_set_bit F.FLT_SUPPLY_OK [] 1 (by decide) hunit
    · rfl
  rw [injCancel, get_set_key _ _ _ _ _ _ (by decide), modFlt_get, hback]

end Injections

/-! ### Staged code (R465) -/

section Staged

variable {s : State} {k : Fin 16}

theorem exec_csStageSet_of_crosses (h : crosses s) : exec (.csStageSet k) s = .next ((s.down 1).stageSet k) :=
  congrArg Host.Outcome.next (hostStrobe_of_crosses h _ _ _ _)

theorem exec_csStageClear_of_crosses (h : crosses s) : exec (.csStageClear k) s = .next ((s.down 1).stageClear k) := by
  refine congrArg Host.Outcome.next ?_
  rw [toField_of_crosses h, frames_barWr]

theorem exec_csSwapGo_of_crosses (h : crosses s) : exec (.csSwapGo k) s = .next ((s.down 1).swapGo k) :=
  congrArg Host.Outcome.next (hostStrobe_of_crosses h _ _ _ _)

theorem stageSet_new (h : s.sess[k].staged = none) :
    s.stageSet k = (s.modSess k (fun x => { x with staged := some x.entries })).set F.FLT_CS_STAGE_STAGE [k] 1 := by
  rw [stageSet, h]
  rfl

theorem swapGo_idle {e : SMap (Option Nat)} (hstaged : s.sess[k].staged = some e) (hseq : s.sess[k].seq = none) (hburst : s.sess[k].burst = none) :
    s.swapGo k = (s.modSess k (fun x => { x with entries := e, swapWait := false })).set F.FLT_CS_SWAP_PENDING [k] 0 := by
  rw [swapGo, if_neg (by rw [hstaged]; exact Bool.false_ne_true), if_pos ⟨by rw [hseq]; rfl, by rw [hburst]; rfl⟩, doSwap, modSess, modSess, hstaged]
  rfl

theorem swapGo_waits (hstaged : s.sess[k].staged ≠ none) (hseq : s.sess[k].seq ≠ none) :
    s.swapGo k = (s.modSess k (fun x => { x with swapWait := true })).set F.FLT_CS_SWAP_PENDING [k] 1 := by
  rw [swapGo, if_neg (by simpa using hstaged), if_neg (fun h => hseq (Option.isNone_iff_eq_none.mp h.1))]

end Staged

end State

end Sys2Proof.Machine
end

section

-- One declaration at a time: the whole text's check stays within its memory.
set_option Elab.async false

/-! What the monitors find: patrol reads, supplies and the temperature (R104, R455–R457, R460, R461). -/

namespace Sys2Proof.Machine

namespace State

theorem takeInject_of_none {s : State} (h : s.flt.inj = none) (det unit_ : Nat) : s.takeInject det unit_ = (false, s) := by rw [takeInject, h]

/-- A detection whose response is no unit's, device's or repair's counts and no more. -/
theorem detect_of_light (s : State) (det unit_ : Nat) {cls : Resp} (injected : Bool) (owner : Option (Fin 16)) (h : cls = .report ∨ cls = .policy) :
    s.detect det unit_ cls injected owner = s.count F.FLT_CNT_COUNT [det - 1] := by
  rw [detect]
  refine if_neg (fun hc => ?_)
  rcases h with rfl | rfl <;> simp at hc

/-! ### Patrol reads (R457) -/

section Patrol

variable {s : State} {a : Nat}

theorem exec_ddrPatrolRead_of_lt (h : a < s.get F.RM_MEM_INST_MIB * 2 ^ 20) (ecc : Fin 3) : exec (.ddrPatrolRead a ecc) s = .next (s.ddrRead a ecc).1 :=
  if_pos h

theorem exec_ddrPatrolRead_of_le (h : s.get F.RM_MEM_INST_MIB * 2 ^ 20 ≤ a) (ecc : Fin 3) : exec (.ddrPatrolRead a ecc) s = .fault (.noSuchAddress a) :=
  if_neg (by omega)

theorem ddrRead_good (hinj : s.flt.inj = none) : (s.ddrRead a 0).1 = s := by
  simp [ddrRead, takeInject_of_none hinj]

theorem ddrRead_single (hinj : s.flt.inj = none) : (s.ddrRead a 1).1 = s.count F.FLT_CNT_COUNT [0] := by
  simp [ddrRead, takeInject_of_none hinj, detect_of_light]

theorem ddrRead_double (hinj : s.flt.inj = none) : (s.ddrRead a 2).1 =
    ((s.count F.FLT_CNT_COUNT [1]).set F.FLT_DDR_ADDR_LO_ADDR [] (a % 2 ^ 32)).set F.FLT_DDR_ADDR_HI_ADDR [] (a / 2 ^ 32) := by
  simp [ddrRead, takeInject_of_none hinj, detect_of_light]

theorem ddrAddr_shown (s : State) (ha : a < 2 ^ 36) :
    ((s.set F.FLT_DDR_ADDR_LO_ADDR [] (a % 2 ^ 32)).set F.FLT_DDR_ADDR_HI_ADDR [] (a / 2 ^ 32)).get F.FLT_DDR_ADDR_LO_ADDR +
      2 ^ 32 * ((s.set F.FLT_DDR_ADDR_LO_ADDR [] (a % 2 ^ 32)).set F.FLT_DDR_ADDR_HI_ADDR [] (a / 2 ^ 32)).get F.FLT_DDR_ADDR_HI_ADDR = a := by
  rw [get_set_key _ F.FLT_DDR_ADDR_HI_ADDR _ _ _ _ (by decide), get_set_self _ F.FLT_DDR_ADDR_LO_ADDR _ _ (by decide),
    get_set_self _ F.FLT_DDR_ADDR_HI_ADDR _ _ (by decide)]
  change a % 2 ^ 32 % 2 ^ 32 + 2 ^ 32 * (a / 2 ^ 32 % 2 ^ 4) = a
  omega

end Patrol

/-! ### Supplies (R461) -/

section Supply

variable {s : State} {r : Fin 3} {dev : Int}

theorem exec_supply_analogue : exec (.supply ⟨2, dev⟩) s = .next (if s.railOut 0x13 2 dev = true then s else s.setRail 2 true) := by
  change execSupply ⟨2, dev⟩ s = _
  exact if_pos rfl

theorem exec_supply_in (hr : r ≠ 2) (h : s.railOut 0x12 r dev = false) : exec (.supply ⟨r, dev⟩) s = .next (s.setRail r true) :=
  (if_neg hr).trans (congrArg Host.Outcome.next (if_neg (by rw [h]; decide)))

theorem exec_supply_out (hr : r ≠ 2) (h : s.railOut 0x12 r dev = true) : exec (.supply ⟨r, dev⟩) s =
    .next (((s.setRail r false).detect 0x12 r .device (s.injOn 0x12 r) none).faultDevice) :=
  (if_neg hr).trans (congrArg Host.Outcome.next (if_pos h))

end Supply

/-! ### The temperature (R460) -/

theorem signedOf_patternOf_twelve {x : Int} (hlo : -2048 ≤ x) (hhi : x < 2048) : signedOf (patternOf x 12) 12 = x := by
  simp only [signedOf, patternOf, bitOf, beq_iff_eq]
  split <;> omega

section Temperature

/-- A reading shows, and arms or disarms the detectors. -/
def tempShown (s : State) (x : Int) (warnArmed tripArmed : Bool) : State :=
  ((s.modFlt (fun f => { f with warnArmed := warnArmed, tripArmed := tripArmed })).set F.FLT_TEMP_TEMP [] (patternOf x 12)).set F.FLT_TEMP_WARN []
    (decide ((s.get F.FLT_TEMP_CFG_WARN : Int) ≤ x)).toNat

/-- A reading below both limits shows. -/
def coolShown (s : State) (x : Int) : State := (s.tempShown x true true).set F.FLT_TEMP_TRIP [] 0

/-- A reading at the warning's limit shows and counts. -/
def warnShown (s : State) (x : Int) : State := ((s.tempShown x false true).count F.FLT_CNT_COUNT [0xF]).set F.FLT_TEMP_TRIP [] 0

variable {s : State} {x : Int}

theorem exec_tempReading_cool (hinj : s.flt.inj = none) (hwarn : x < s.get F.FLT_TEMP_CFG_WARN - 20) (htrip : x < s.get F.FLT_TEMP_CFG_TRIP - 50) :
    exec (.tempReading x) s = .next ((s.coolShown x).calTemp x) := by
  have hw : ¬ (s.get F.FLT_TEMP_CFG_WARN : Int) ≤ x := by omega
  have ht : ¬ (s.get F.FLT_TEMP_CFG_TRIP : Int) ≤ x := by omega
  change execTempReading x s = _
  simp only [execTempReading, takeInject_of_none hinj, hwarn, htrip, hw, ht, decide_false, Bool.false_and, if_true, Bool.false_eq_true, if_false, coolShown,
    tempShown]

theorem exec_tempReading_warn (hinj : s.flt.inj = none) (hwarn : s.get F.FLT_TEMP_CFG_WARN ≤ x) (htrip : x < s.get F.FLT_TEMP_CFG_TRIP - 50)
    (harmed : s.flt.warnArmed = true) :
    exec (.tempReading x) s = .next ((s.warnShown x).calTemp x) := by
  have hw : ¬ x < (s.get F.FLT_TEMP_CFG_WARN : Int) - 20 := by omega
  have ht : ¬ (s.get F.FLT_TEMP_CFG_TRIP : Int) ≤ x := by omega
  change execTempReading x s = _
  simp only [execTempReading, takeInject_of_none hinj, hwarn, htrip, hw, ht, harmed, decide_false, decide_true, Bool.false_and, Bool.and_true, Bool.not_true, Bool.and_false, if_true,
    Bool.false_eq_true, if_false, warnShown, tempShown, detect_of_light _ _ _ _ _ (.inl rfl)]

theorem tempShown_kept (s : State) (x : Int) (warnArmed tripArmed : Bool) (k : Nat) : (s.tempShown x warnArmed tripArmed).freshK k = s.freshK k := by
  rw [tempShown, freshK_set, freshK_set, modFlt_freshK]

/-- The state the trip's detector meets: the reading shows, the detector is disarmed, and the warning has been judged. -/
def tripMet (s : State) (x : Int) : State :=
  let warns := decide ((s.get F.FLT_TEMP_CFG_WARN : Int) ≤ x) && s.flt.warnArmed
  let shown := s.tempShown x (if x < (s.get F.FLT_TEMP_CFG_WARN : Int) - 20 then true else s.flt.warnArmed && !warns) false
  if warns then shown.count F.FLT_CNT_COUNT [0xF] else shown

/-- The device tripped, as the drift of the offsets is judged. -/
def tripped (s : State) (x : Int) : State := (((s.tripMet x).detect 0x11 0 .device false none).set F.FLT_TEMP_TRIP [] 1).faultDevice

theorem exec_tempReading_trip (hinj : s.flt.inj = none) (htrip : s.get F.FLT_TEMP_CFG_TRIP ≤ x) (harmed : s.flt.tripArmed = true) :
    exec (.tempReading x) s = .next ((s.tripped x).calTemp x) := by
  have ht : ¬ x < (s.get F.FLT_TEMP_CFG_TRIP : Int) - 50 := by omega
  change execTempReading x s = _
  simp only [execTempReading, takeInject_of_none hinj, htrip, ht, harmed, decide_true, Bool.true_and, Bool.not_true, Bool.and_false, if_true,
    Bool.false_eq_true, if_false, tripped, tempShown, tripMet, modFlt, detect_of_light _ _ _ _ _ (.inl rfl)]

theorem tripMet_armed (s : State) (x : Int) : (s.tripMet x).flt.tripArmed = false := by
  unfold tripMet
  exact iteInduction (motive := fun u : State => u.flt.tripArmed = false) (fun _ => rfl) (fun _ => rfl)

theorem tripMet_trips (s : State) (x : Int) : (s.tripMet x).freshK (Reg.key .FLT_CNT [0x10]) = s.freshK (Reg.key .FLT_CNT [0x10]) := by
  unfold tripMet
  exact iteInduction (motive := fun u : State => u.freshK (Reg.key .FLT_CNT [0x10]) = s.freshK (Reg.key .FLT_CNT [0x10]))
    (fun _ => (freshK_count_ne _ F.FLT_CNT_COUNT [0xF] 1 _ (by decide)).trans (tempShown_kept ..)) (fun _ => tempShown_kept ..)

theorem calTemp_off (s : State) (x : Int) (h : s.get F.CAL_CFG_AUTO_EN = 0) : s.calTemp x = { s with cal := { s.cal with lastTemp := x } } := by
  rw [calTemp]
  exact if_neg (fun hc => absurd (h.symm.trans hc.2.1) (by decide))

end Temperature

end State

end Sys2Proof.Machine
end

section

-- One declaration at a time: the whole text's check stays within its memory.
set_option Elab.async false

/-! A device fault and the monitors (R454, R460, R461): what ending every sequence and cutting every unit leaves of what the monitors show. -/

namespace Sys2Proof.Machine

namespace State

/-- A key apart from the registers of the monitors and from the counts of detectors 0x11 and 0x12. -/
abbrev clearKey (k : Nat) : Prop := k < 0x80010 ∨ (0x80018 < k ∧ k < 0x80144) ∨ 0x80148 < k

/-- What the temperature and supply monitors show, their counts and the trip's arming are in `t` as in `s`. -/
structure MonitorsKept (s t : State) : Prop where
  main : ∀ k, 0x80010 ≤ k → k ≤ 0x80018 → t.getK k = s.getK k
  fresh : ∀ k, 0x80144 ≤ k → k ≤ 0x80148 → t.freshK k = s.freshK k
  armed : t.flt.tripArmed = s.flt.tripArmed

theorem clearKey_of_base {r : Reg} (h : 0x80148 < r.row.base) (ix : List Nat) : clearKey (r.key ix) :=
  .inr (.inr (lt_of_lt_of_le h (key_ge_base r ix)))

theorem clearKey_of_dim {r : Reg} {stride count i : Nat} (hd : r.row.dims = [(stride, count)]) (hi : i < count) (h : r.row.base + stride * count < 0x80010) :
    clearKey (r.key [i]) := by
  refine .inl (lt_of_le_of_lt ?_ h)
  simp only [Reg.key, hd, List.zip_cons_cons, List.zip_nil_left, List.map_cons, List.map_nil, List.sum_cons, List.sum_nil, Nat.add_zero]
  exact Nat.add_le_add_left (Nat.mul_le_mul_left _ hi.le) _

namespace MonitorsKept

variable {s t u : State}

theorem refl (s : State) : MonitorsKept s s := ⟨fun _ _ _ => rfl, fun _ _ _ => rfl, rfl⟩

theorem trans (h : MonitorsKept s t) (g : MonitorsKept t u) : MonitorsKept s u :=
  ⟨fun k h1 h2 => (g.main k h1 h2).trans (h.main k h1 h2), fun k h1 h2 => (g.fresh k h1 h2).trans (h.fresh k h1 h2), g.armed.trans h.armed⟩

theorem ite {c : Prop} [Decidable c] (h : MonitorsKept s t) (g : MonitorsKept s u) : MonitorsKept s (if c then t else u) := by
  split
  · exact h
  · exact g

/-- An update of neither a register nor the detectors. -/
theorem other (h : MonitorsKept s t) (regs : u.regs = t.regs) (flt : u.flt = t.flt) : MonitorsKept s u :=
  h.trans ⟨fun k _ _ => by rw [getK, getK, regs], fun k _ _ => by rw [freshK, freshK, regs], by rw [flt]⟩

theorem putK (h : MonitorsKept s t) {k : Nat} (hk : clearKey k) (v : Word) : MonitorsKept s (t.putK k v) :=
  h.trans ⟨fun j h1 h2 => getK_putK_ne t _ _ _ (by rcases hk with hk | ⟨hk, -⟩ | hk <;> omega), fun _ _ _ => rfl, rfl⟩

theorem putFresh (h : MonitorsKept s t) {k : Nat} (hk : clearKey k) (v : Word) : MonitorsKept s (t.putFresh k v) :=
  h.trans ⟨fun _ _ _ => rfl, fun j h1 h2 => freshK_putFresh_ne t _ _ _ (by rcases hk with hk | ⟨-, hk⟩ | hk <;> omega), rfl⟩

theorem set (h : MonitorsKept s t) {f : Fld} {ix : List Nat} (hk : clearKey (f.reg.key ix)) (v : Nat) : MonitorsKept s (t.set f ix v) := h.putK hk _

theorem count (h : MonitorsKept s t) {f : Fld} {ix : List Nat} (hk : clearKey (f.reg.key ix)) (n : Nat) : MonitorsKept s (t.count f ix n) := h.putFresh hk _

theorem raise (h : MonitorsKept s t) {f : Fld} {ix : List Nat} (hk : clearKey (f.reg.key ix)) : MonitorsKept s (t.raise f ix) := h.putFresh hk _

theorem foldl {α : Type} (f : State → α → State) (hf : ∀ s x, MonitorsKept s (f s x)) (l : List α) (s : State) : MonitorsKept s (l.foldl f s) :=
  foldl_keeps (R := MonitorsKept s) (fun u x hu => hu.trans (hf u x)) l s (refl s)

theorem modHost (h : MonitorsKept s t) (n : Fin 16) (f : HostSess → HostSess) : MonitorsKept s (t.modHost n f) := h.other rfl rfl

theorem modStile (h : MonitorsKept s t) (f : Stile → Stile) : MonitorsKept s (t.modStile f) := h.other rfl rfl

theorem modSess (h : MonitorsKept s t) (n : Fin 16) (f : Sess → Sess) : MonitorsKept s (t.modSess n f) := h.other rfl rfl

theorem modCal (h : MonitorsKept s t) (f : Calib → Calib) : MonitorsKept s (t.modCal f) := h.other rfl rfl

theorem modSlice (h : MonitorsKept s t) (n : Fin 12) (f : Slice → Slice) : MonitorsKept s (t.modSlice n f) := h.other rfl rfl

theorem modLane (h : MonitorsKept s t) (n : Fin 12) (l : Fin 8) (f : Lane → Lane) : MonitorsKept s (t.modLane n l f) := h.modSlice n _

theorem strobeSync (h : MonitorsKept s t) (n : Fin 12) : MonitorsKept s (t.strobeSync n) := by
  rw [State.strobeSync, strobeAt]
  exact h.modSlice n _

theorem modCalUnit (h : MonitorsKept s t) (u : Fin 36) (f : CalUnit → CalUnit) : MonitorsKept s (t.modCalUnit u f) := h.modCal _

/-- An update of the registers `ks` that lie apart. -/
theorem of_regsSame {ks : List Nat} (hks : ∀ k ∈ ks, clearKey k) (hregs : regsSame ks s t) (flt : t.flt = s.flt) : MonitorsKept s t := by
  refine ⟨fun k h1 h2 => (hregs k (fun hk => ?_)).1, fun k h1 h2 => (hregs k (fun hk => ?_)).2.2.2, by rw [flt]⟩
  · rcases hks k hk with h | ⟨h, -⟩ | h <;> omega
  · rcases hks k hk with h | ⟨-, h⟩ | h <;> omega

end MonitorsKept

/-! ### Detections and completions -/

theorem monitorsKept_takeInject (s : State) (det unit_ : Nat) : MonitorsKept s (s.takeInject det unit_).2 := by
  unfold takeInject
  split
  next =>
    split
    next =>
      split
      next =>
        have hinj : MonitorsKept s (s.modFlt (fun f => { f with inj := none })) := ⟨fun _ _ _ => rfl, fun _ _ _ => rfl, rfl⟩
        exact (hinj.set (f := F.FLT_INJ_CTRL_BUSY) (ix := []) (by decide) 0).raise (f := F.FLT_INJ_CTRL_DONE) (ix := []) (by decide)
      next => exact ⟨fun _ _ _ => rfl, fun _ _ _ => rfl, rfl⟩
    next => exact MonitorsKept.refl s
  next => exact MonitorsKept.refl s

theorem monitorsKept_detect (s : State) {det : Nat} (hdet : clearKey (Reg.key .FLT_CNT [det - 1])) (unit_ : Nat) (cls : Resp) (injected : Bool)
    (owner : Option (Fin 16)) : MonitorsKept s (s.detect det unit_ cls injected owner) := by
  have hregs := s.regsOnly_detect det unit_ cls injected owner
  refine MonitorsKept.of_regsSame (fun k hk => ?_) hregs.regs (by rw [hregs.eq_regs])
  rcases List.mem_cons.mp hk with rfl | hk
  · exact hdet
  · rcases mem_firstKeys.mp hk with rfl | rfl | rfl <;> decide

theorem monitorsKept_putEntry (s : State) (n : Fin 16) (r : Fin 4) (bytes : List Byte) (intr : Bool) : MonitorsKept s (s.putEntry n r bytes intr) := by
  obtain ⟨_, _, _, -, e, hregs⟩ := putEntry_frame s n r bytes intr
  refine MonitorsKept.of_regsSame (fun k hk => ?_) hregs (by rw [e]; rfl)
  rcases List.mem_pair.mp hk with rfl | rfl <;> exact clearKey_of_base (by decide) _

theorem monitorsKept_flushWaiting (n : Fin 16) (fuel : Nat) (s : State) : MonitorsKept s (s.flushWaiting n fuel) := by
  induction fuel generalizing s with
  | zero => exact MonitorsKept.refl s
  | succ fuel ih =>
    unfold State.flushWaiting
    split
    next => exact MonitorsKept.refl s
    next => exact MonitorsKept.ite ((((MonitorsKept.refl s).modHost _ _).trans (monitorsKept_putEntry _ _ _ _ _)).trans (ih _)) (MonitorsKept.refl s)

theorem monitorsKept_deliverCompletion (s : State) (n : Fin 16) (w : Waiting) : MonitorsKept s (s.deliverCompletion n w) :=
  ((MonitorsKept.refl s).modHost _ _).trans (monitorsKept_flushWaiting _ _ _)

theorem monitorsKept_staleMsg (s : State) (n : Fin 16) (tag epoch : Nat) : MonitorsKept s (s.staleMsg n tag epoch) := by
  have hcount := (MonitorsKept.refl s).count (f := F.DB_CNT1_STALE) (ix := [n]) (clearKey_of_base (by decide) _) 1
  exact MonitorsKept.ite hcount ((hcount.modHost _ _).trans (monitorsKept_deliverCompletion _ _ _))

theorem monitorsKept_forInst {s : State} {act : State → State} (h : MonitorsKept s (act s)) (n : Fin 16) (inst : Option (Nat × Nat)) :
    MonitorsKept s (s.forInst n inst act) := by
  unfold State.forInst
  split
  · exact MonitorsKept.ite h (monitorsKept_staleMsg _ _ _ _)
  · exact h

theorem monitorsKept_deliverMsg (s : State) (n : Fin 16) (m : Msg) : MonitorsKept s (s.deliverMsg n m) := by
  unfold State.deliverMsg
  split
  next => exact monitorsKept_forInst (monitorsKept_deliverCompletion _ _ _) _ _
  next =>
    refine monitorsKept_forInst ?_ _ _
    dsimp only
    split
    · exact monitorsKept_putEntry _ _ _ _ _
    · split
      · exact ((MonitorsKept.refl s).count (f := F.DB_CNT2_EVT_DROPPED) (ix := [n]) (clearKey_of_base (by decide) _) 1).modHost _ _
      · exact MonitorsKept.refl s
  next => exact monitorsKept_forInst ((MonitorsKept.refl s).other rfl rfl) _ _

/-! ### FIELD leaves UP and frames fail (R417, R425–R427) -/

theorem monitorsKept_failInst (s : State) (k : Fin 16) (i : Inst) : MonitorsKept s (s.failInst k i) :=
  MonitorsKept.ite (MonitorsKept.refl s) (((MonitorsKept.refl s).modHost _ _).trans (monitorsKept_deliverCompletion _ _ _))

theorem monitorsKept_overSess (f : Fin 16 → State → State) (hf : ∀ s k, MonitorsKept s (f k s)) (s : State) : MonitorsKept s (s.overSess f) :=
  MonitorsKept.foldl _ hf _ s

theorem monitorsKept_failLive (s : State) : MonitorsKept s s.failLive :=
  monitorsKept_overSess _ (fun s k => (MonitorsKept.foldl _ (fun s i => monitorsKept_failInst s k i) _ s).modHost _ _) s

theorem monitorsKept_fieldLeave (s : State) (st : Nat) : MonitorsKept s (s.fieldLeave st) := by
  have hset := (MonitorsKept.refl s).set (f := F.ST_STATUS_FIELD) (ix := []) (by decide) st
  exact MonitorsKept.ite ((hset.raise (f := F.ST_EVENTS_FIELD_DOWN) (ix := []) (by decide)).trans (monitorsKept_failLive _)) hset

theorem monitorsKept_frameFail (s : State) (toHost : Bool) : MonitorsKept s (s.frameFail toHost) := by
  have hdetect := (monitorsKept_takeInject s 7 toHost.toNat).trans (monitorsKept_detect _ (det := 7) (by decide) toHost.toNat .report
    (s.takeInject 7 toHost.toNat).1 none)
  unfold frameFail
  dsimp only
  generalize (s.takeInject 7 toHost.toNat).2.detect 7 toHost.toNat .report (s.takeInject 7 toHost.toNat).1 none = u at hdetect ⊢
  have hcrc : MonitorsKept s (if toHost = true then u.count F.ST_CNT_CRC_ERR else u.count F.ST_F_CNT_CRC_ERR) :=
    MonitorsKept.ite (hdetect.count (f := F.ST_CNT_CRC_ERR) (ix := []) (by decide) 1) (hdetect.count (f := F.ST_F_CNT_CRC_ERR) (ix := []) (by decide) 1)
  generalize (if toHost = true then u.count F.ST_CNT_CRC_ERR else u.count F.ST_F_CNT_CRC_ERR) = v at hcrc ⊢
  have hasked : MonitorsKept s ((v.modStile (fun x => if toHost then { x with failsH := x.failsH + 1 } else { x with failsF := x.failsF + 1 })).askReplay
      toHost 800) := hcrc.other rfl rfl
  generalize (v.modStile (fun x => if toHost then { x with failsH := x.failsH + 1 } else { x with failsF := x.failsF + 1 })).askReplay toHost 800 = w
    at hasked ⊢
  have hretry := (hasked.trans (monitorsKept_takeInject w 9 toHost.toNat)).raise (f := F.ST_EVENTS_RETRY_EXHAUST) (ix := []) (by decide)
  have hleave := (hretry.trans (monitorsKept_detect _ (det := 9) (by decide) toHost.toNat .policy (w.takeInject 9 toHost.toNat).1 none)).trans
    (monitorsKept_fieldLeave _ 4)
  exact MonitorsKept.ite hleave hasked

theorem monitorsKept_cross (s : State) (toHost : Bool) (p : Packet) {act : State → State} (hact : ∀ s, MonitorsKept s (act s)) :
    MonitorsKept s (s.cross toHost p act) := by
  have hsent : MonitorsKept s (s.keepSent toHost p) := (MonitorsKept.refl s).other rfl rfl
  have hpassed : MonitorsKept s (s.passFrames toHost p) := (MonitorsKept.refl s).other rfl rfl
  refine MonitorsKept.ite hsent (MonitorsKept.ite (hsent.trans (monitorsKept_frameFail _ _)) (MonitorsKept.ite ?_ ?_))
  · exact hsent.trans (MonitorsKept.foldl _ (fun s _ => monitorsKept_frameFail s _) _ _)
  · exact hpassed.trans (hact _)

theorem monitorsKept_sendMsg (s : State) (n : Fin 16) (m : Msg) : MonitorsKept s (s.sendMsg n m) :=
  MonitorsKept.ite (monitorsKept_cross s true _ (fun s => monitorsKept_deliverMsg s n m)) ((MonitorsKept.refl s).modStile _)

theorem monitorsKept_complete (s : State) (n : Fin 16) (tag epoch opcode : Nat) (st : Status) (cond f q d0 d1 : Nat) :
    MonitorsKept s (s.complete n tag epoch opcode st cond f q d0 d1) :=
  MonitorsKept.ite (MonitorsKept.refl s) (((MonitorsKept.refl s).modHost _ _).trans (monitorsKept_sendMsg _ _ _))

/-! ### A sequence ends (R20, R44, R148, R154) -/

theorem monitorsKept_reportCommit (s : State) (ring : Option (Nat × Nat × Nat)) (st : Status) : MonitorsKept s (s.reportCommit ring st) := by
  have hseq := (MonitorsKept.refl s).set (f := F.SYS_COMMIT_INFO_SEQ) (ix := []) (by decide) ((s.get F.SYS_COMMIT_INFO_SEQ [] + 1) % 2 ^ F.SYS_COMMIT_INFO_SEQ.width)
  unfold reportCommit
  dsimp only
  split
  next => exact (hseq.set (f := F.SYS_COMMIT_STATUS_STATUS) (ix := []) (by decide) _).set (f := F.SYS_COMMIT_STATUS_FIELD_ID) (ix := []) (by decide) _
  next =>
    split
    · exact hseq.trans (monitorsKept_complete _ _ _ _ _ _ _ _ _ _ _)
    · exact hseq

theorem monitorsKept_discardPends (s : State) (which : PendCommit → Bool) : MonitorsKept s (s.discardPends which) := by
  have hmod : MonitorsKept s (s.modCommit (fun c => { c with pends := c.pends.filter (fun p => !which p) })) := (MonitorsKept.refl s).other rfl rfl
  exact (hmod.trans (MonitorsKept.foldl _ (fun s p => monitorsKept_reportCommit s _ _) _ _)).set (f := F.SYS_COMMIT_STATUS_PENDING) (ix := []) (by decide) _

theorem monitorsKept_stopSeq (s : State) (k : Fin 16) : MonitorsKept s (s.stopSeq k) := by
  have hwait : MonitorsKept s (s.noteWait k) := by
    unfold noteWait
    split
    next => exact MonitorsKept.refl s
    next => exact (MonitorsKept.refl s).putFresh (clearKey_of_dim (r := .RM_SESS_WAIT) rfl k.isLt (by decide)) _
  have hnoted : MonitorsKept s (if s.sess[k].waitSince.isSome then s.noteWait k else s) := MonitorsKept.ite hwait (MonitorsKept.refl s)
  unfold stopSeq
  dsimp only
  split
  next c _ =>
    have hfree (u : State) : MonitorsKept u (u.freeCore c) := (MonitorsKept.refl u).other rfl rfl
    exact (hnoted.trans (hfree _)).modSess _ _
  next => exact hnoted.modSess _ _

/-! ### Calibrations (R344, R351) -/

theorem clearKey_calUnitStat (u : Fin 36) : clearKey (Reg.key .CAL_UNIT_STAT [u]) := clearKey_of_dim (r := .CAL_UNIT_STAT) rfl u.isLt (by decide)

theorem monitorsKept_calDue (s : State) (u : Fin 36) (cause : Nat) : MonitorsKept s (s.calDue u cause) := by
  refine MonitorsKept.ite (MonitorsKept.refl s) (MonitorsKept.ite ((MonitorsKept.refl s).modCal _) ?_)
  exact ((((MonitorsKept.refl s).modCal _).modCal _).set (f := F.CAL_UNIT_STAT_STATE) (ix := [u]) (clearKey_calUnitStat u) 2).set
    (f := F.CAL_STATUS_DUE) (ix := []) (by decide) _

theorem monitorsKept_calHold (s : State) (u : Nat) (on : Bool) : MonitorsKept s (s.calHold u on) := by
  unfold calHold
  split
  next => exact (MonitorsKept.refl s).other rfl rfl
  next => exact MonitorsKept.refl s

theorem monitorsKept_calHeldCause (s : State) (u : Fin 36) (accepted : Bool) : MonitorsKept s (s.calHeldCause u accepted) := by
  unfold calHeldCause
  split
  next => exact MonitorsKept.refl s
  next => exact MonitorsKept.ite ((MonitorsKept.refl s).modCal _) (((MonitorsKept.refl s).modCal _).trans (monitorsKept_calDue _ _ _))

theorem monitorsKept_calRest (s : State) (u : Fin 36) : MonitorsKept s (s.calRest u) :=
  (MonitorsKept.refl s).set (f := F.CAL_UNIT_STAT_STATE) (ix := [u]) (clearKey_calUnitStat u) _

theorem monitorsKept_calSliceBoundary (s : State) (n : Fin 12) : MonitorsKept s (s.calSliceBoundary n) := by
  have hrest := (((MonitorsKept.refl s).modCalUnit ⟨n, by omega⟩ (fun x => { x with
    accepted := true, temp := x.runTemp, start := x.runStart, trims := x.cand, cand := [] })).trans (monitorsKept_calRest _ ⟨n, by omega⟩)).set
    (f := F.CAL_UNIT_STAT_DEGRADED) (ix := [n]) (clearKey_calUnitStat ⟨n, by omega⟩) 0
  exact MonitorsKept.ite (((hrest.set (f := F.CAL_UNIT_STAT_TEMP) (ix := [n]) (clearKey_calUnitStat ⟨n, by omega⟩) _).trans
    (monitorsKept_calHold _ _ _)).trans (monitorsKept_calHeldCause _ _ _)) (MonitorsKept.refl s)

theorem monitorsKept_calAbandon (s : State) (u : Fin 36) : MonitorsKept s (s.calAbandon u) := by
  refine MonitorsKept.ite ?_ (MonitorsKept.refl s)
  have hfree : MonitorsKept s s.calFree := ((MonitorsKept.refl s).modCal _).set (f := F.CAL_STATUS_BUSY) (ix := []) (by decide) _
  exact ((((hfree.count (f := F.CAL_UNIT_CNT_ABANDONED) (ix := [u]) (clearKey_of_dim (r := .CAL_UNIT_CNT) rfl u.isLt (by decide)) 1).trans
    (monitorsKept_calHold _ _ _)).trans (monitorsKept_calRest _ _)).modCal _).trans (monitorsKept_calDue _ _ _)

/-! ### Units take their fault states (R120, R311) -/

theorem monitorsKept_safeLane (s : State) (n : Fin 12) (l : Fin 8) (t act : Nat) (kind : SafeKind) : MonitorsKept s (s.safeLane n l t act kind) := by
  have hedge : clearKey (Reg.key .EP_EDGE_CNT0 [n, l]) := .inl (by rw [key_edgeCnt]; omega)
  have hcmp : clearKey (Reg.key .CH_LANE_CNT [n, l]) := .inl (by rw [key_laneCnt]; omega)
  have hwiden := MonitorsKept.ite (c := safeMoved s.slices[n].lanes[l] t act kind) ((MonitorsKept.refl s).count (f := F.EP_EDGE_CNT0_EDGE_WIDEN) (ix := [n, l]) hedge 1)
    (MonitorsKept.refl s)
  rw [safeLane]
  exact (MonitorsKept.ite (c := s.slices[n].lanes[l].cmp.isSome) (hwiden.count (f := F.CH_LANE_CNT_MASKED) (ix := [n, l]) hcmp 1) hwiden).modLane n l _

theorem monitorsKept_safeSlice (s : State) (n : Fin 12) (kind : SafeKind) : MonitorsKept s (s.safeSlice n kind) := by
  have hlanes : MonitorsKept s (s.overLanes (fun l u => u.safeLane n l s.now
      (s.act (if kind = .fault then F.CH_SAFE_FAULT_ACT else F.CH_SAFE_ABORT_ACT) [n, l]) kind)) :=
    MonitorsKept.foldl _ (fun s l => monitorsKept_safeLane s _ _ _ _ _) _ s
  exact hlanes.strobeSync n

/-- A slice's part of a cut. -/
def cutSlice (s : State) (n : Fin 12) (kind : SafeKind) : State := ((s.safeSlice n kind).modSlice n (fun x => { x with feed := x.feed.clear })).calSliceBoundary n

theorem monitorsKept_cutSlice (s : State) (n : Fin 12) (kind : SafeKind) : MonitorsKept s (s.cutSlice n kind) :=
  ((monitorsKept_safeSlice s n kind).modSlice n _).trans (monitorsKept_calSliceBoundary _ n)

theorem monitorsKept_aoSafe (s : State) (o : Fin 16) (kind : SafeKind) : MonitorsKept s (s.aoSafe o kind) := (MonitorsKept.refl s).other rfl rfl

theorem monitorsKept_cutUnits (s : State) (k : Fin 16) (kind : SafeKind) : MonitorsKept s (s.cutUnits k kind) := by
  have hslices : MonitorsKept s (s.overSlices (fun n s => if s.ownsSlice k n then s.cutSlice n kind else s)) :=
    MonitorsKept.foldl _ (fun s n => MonitorsKept.ite (monitorsKept_cutSlice s n kind) (MonitorsKept.refl s)) _ s
  exact hslices.trans (MonitorsKept.foldl _ (fun s o => MonitorsKept.ite (monitorsKept_aoSafe s o kind) (MonitorsKept.refl s)) _ _)

/-! ### A device fault (R454) -/

theorem monitorsKept_endSeq (s : State) (k : Fin 16) (st : Status) : MonitorsKept s (s.endSeq k st) := by
  have hcond : MonitorsKept s (match endFlag st with
      | some b => (s.stopSeq k).seqCond k b
      | none => s.stopSeq k) := by
    split
    next => exact (monitorsKept_stopSeq s k).modSess _ _
    next => exact monitorsKept_stopSeq s k
  unfold endSeq
  split
  · dsimp only
    split
    · exact (hcond.trans (monitorsKept_cutUnits _ _ _)).trans (monitorsKept_discardPends _ _)
    · exact (hcond.trans (monitorsKept_cutUnits _ _ _)).trans (monitorsKept_discardPends _ _)
    · exact hcond.trans (monitorsKept_discardPends _ _)
  · exact MonitorsKept.refl s

theorem monitorsKept_coreFault (s : State) (c : Fin 4) (code addr : Nat) : MonitorsKept s (s.coreFault c code addr) := by
  have hk : clearKey (Reg.key .SQ_FAULT [c]) := clearKey_of_dim (r := .SQ_FAULT) rfl c.isLt (by decide)
  exact MonitorsKept.ite ((((MonitorsKept.refl s).set (f := F.SQ_FAULT_CODE) (ix := [c]) hk _).set (f := F.SQ_FAULT_ADDR) (ix := [c]) hk _).raise
    (f := F.SQ_FAULT_VALID) (ix := [c]) hk) (MonitorsKept.refl s)

theorem key_spanStk (c i : Nat) : Reg.key .SQ_SPAN_STK [c, i] = 0x10140 + 0x100 * c + 0x4 * i := by
  simp [Reg.key, Reg.row, RowOf.SQ_SPAN_STK, Nat.add_assoc]

theorem monitorsKept_spanRecord (s : State) (c : Fin 4) : MonitorsKept s (s.spanRecord c) := by
  have hrec : clearKey (Reg.key .SQ_SPAN_REC [c]) := clearKey_of_dim (r := .SQ_SPAN_REC) rfl c.isLt (by decide)
  have hlc0 : clearKey (Reg.key .SQ_SPAN_LC0 [c]) := clearKey_of_dim (r := .SQ_SPAN_LC0) rfl c.isLt (by decide)
  have hlc1 : clearKey (Reg.key .SQ_SPAN_LC1 [c]) := clearKey_of_dim (r := .SQ_SPAN_LC1) rfl c.isLt (by decide)
  unfold spanRecord
  split
  next => exact MonitorsKept.refl s
  next p _ =>
    have hhead := ((((MonitorsKept.refl s).set (f := F.SQ_SPAN_REC_START) (ix := [c]) hrec p.head).set (f := F.SQ_SPAN_REC_WORDS) (ix := [c]) hrec
      p.words).set (f := F.SQ_SPAN_REC_DEPTH) (ix := [c]) hrec p.start.stack.length).set (f := F.SQ_SPAN_LC0_COUNT) (ix := [c]) hlc0 p.start.lc0
    have hstack (s : State) (i : Nat) (hi : i < 8) (v w : Nat) :
        MonitorsKept s ((s.set F.SQ_SPAN_STK_ENTRY_LO [c, i] v).set F.SQ_SPAN_STK_ENTRY_HI [c, i] w) := by
      have hk : clearKey (Reg.key .SQ_SPAN_STK [c, i]) := .inl (by rw [key_spanStk]; omega)
      exact ((MonitorsKept.refl s).set (f := F.SQ_SPAN_STK_ENTRY_LO) (ix := [c, i]) hk v).set (f := F.SQ_SPAN_STK_ENTRY_HI) (ix := [c, i]) hk w
    refine MonitorsKept.ite (((hhead.set (f := F.SQ_SPAN_LC1_COUNT) (ix := [c]) hlc1 p.start.lc1).trans ?_).raise (f := F.SQ_SPAN_REC_VALID) (ix := [c]) hrec)
      (MonitorsKept.refl s)
    exact List.foldlRecOn (motive := MonitorsKept _) _ _ (MonitorsKept.refl _) (fun u hu i hi => hu.trans (hstack u i (List.mem_range.mp hi) _ _))

theorem monitorsKept_hardFaultCore (s : State) (c : Fin 4) (code : Nat) : MonitorsKept s (s.hardFaultCore c code) := by
  have hrec := (monitorsKept_coreFault s c code s.cores[c].ctx.pc).trans (monitorsKept_spanRecord _ c)
  unfold hardFaultCore
  dsimp only
  split
  · exact hrec.trans (monitorsKept_endSeq _ _ _)
  · exact hrec

theorem monitorsKept_hardFaultSess (s : State) (k : Fin 16) : MonitorsKept s (s.hardFaultSess k) := by
  unfold hardFaultSess
  split
  · exact monitorsKept_hardFaultCore _ _ _
  · exact monitorsKept_endSeq _ _ _

theorem monitorsKept_faultDevice (s : State) : MonitorsKept s s.faultDevice := by
  have hrun : MonitorsKept s (match s.cal.run with
      | some u => s.calAbandon u
      | none => s) := by
    split
    · exact monitorsKept_calAbandon _ _
    · exact MonitorsKept.refl s
  have hsess := hrun.trans (monitorsKept_overSess (fun k s => s.hardFaultSess k) monitorsKept_hardFaultSess _)
  exact (hsess.trans (MonitorsKept.foldl _ (fun s n => monitorsKept_cutSlice s n .fault) (List.finRange 12) _)).trans
    (MonitorsKept.foldl _ (fun s o => monitorsKept_aoSafe s o .fault) (List.finRange 16) _)

theorem monitorsKept_calTemp (s : State) (x : Int) : MonitorsKept s (s.calTemp x) := by
  have hmod := (MonitorsKept.refl s).modCal (fun c => { c with lastTemp := x })
  exact MonitorsKept.ite (hmod.trans (MonitorsKept.foldl _ (fun s u => MonitorsKept.ite (monitorsKept_calDue _ _ _) (MonitorsKept.refl s)) _ _)) hmod

end State

end Sys2Proof.Machine
end

section

-- One declaration at a time: the whole text's check stays within its memory.
set_option Elab.async false

/-! A device fault puts every unit into its fault state (R120, R311, R454). -/

namespace Sys2Proof.Machine

namespace State

/-! ### Slices -/

theorem calDue_units (s : State) (u : Fin 36) (cause : Nat) : (s.calDue u cause).slices = s.slices ∧ (s.calDue u cause).aos = s.aos := by
  rw [calDue]
  split
  · exact ⟨rfl, rfl⟩
  split
  · exact ⟨rfl, rfl⟩
  · exact ⟨rfl, rfl⟩

theorem calHold_slices (s : State) (u : Nat) (on : Bool) : (s.calHold u on).slices = s.slices := by
  rw [calHold]
  split <;> rfl

theorem calHeldCause_slices (s : State) (u : Fin 36) (accepted : Bool) : (s.calHeldCause u accepted).slices = s.slices := by
  rw [calHeldCause]
  split
  · rfl
  · dsimp only
    split
    · rfl
    · rw [(calDue_units _ _ _).1]
      rfl

theorem calSliceBoundary_slices (s : State) (n : Fin 12) : (s.calSliceBoundary n).slices = s.slices := by
  rw [calSliceBoundary]
  split
  · rw [calApply, calHeldCause_slices, calHold_slices, set_slices, set_slices, calRest, set_slices, modCalUnit, modCal_slices]
  · rfl

section SafeSlice

variable (s : State) (n : Fin 12) (l : Fin 8) (t act : Nat) (kind : SafeKind)

theorem lane_safeLane : (s.safeLane n l t act kind).lane n l = laneSafe (s.lane n l) t act kind := by
  rw [safeLane, lane_modLane, apply_ite (fun u => lane u n l), lane_count, ite_self, apply_ite (fun u => lane u n l), lane_count, ite_self]

theorem lane_safeLane_ne {m : Fin 12} {j : Fin 8} (h : (m, j) ≠ (n, l)) : (s.safeLane n l t act kind).lane m j = s.lane m j := by
  rw [safeLane, lane_modLane_ne _ n l _ h, apply_ite (fun u => lane u m j), lane_count, ite_self, apply_ite (fun u => lane u m j), lane_count, ite_self]

theorem safeLane_slices_ne {m : Fin 12} (h : m ≠ n) : (s.safeLane n l t act kind).slices[m] = s.slices[m] := by
  rw [safeLane, modLane_slices_ne _ _ _ _ h]
  split <;> split <;> simp only [count_slices]

theorem safeSlice_slices_ne {m : Fin 12} (h : m ≠ n) : (s.safeSlice n kind).slices[m] = s.slices[m] := by
  rw [safeSlice, strobeSync_slices_ne _ h]
  exact foldl_keeps (R := fun u : State => u.slices[m] = s.slices[m]) (fun u l hu => (safeLane_slices_ne u n l _ _ kind h).trans hu) _ s rfl

theorem safeSlice_safe : ((s.safeSlice n kind).lane n l).safe = kind := by
  rw [safeSlice, lane_strobeSync]
  exact (foldl_finRange (R := fun _ : State => True) (v := fun u (l : Fin 8) => u.lane n l) (P := fun _ _ y => y.safe = kind)
    (fun _ _ _ => trivial) (fun u l _ => by rw [lane_safeLane]; rfl)
    (fun u l j _ hj => lane_safeLane_ne u n l _ _ kind (fun e => hj (congrArg Prod.snd e))) s trivial).2 l

theorem cutSlice_slices_ne {m : Fin 12} (h : m ≠ n) : (s.cutSlice n kind).slices[m] = s.slices[m] := by
  simp only [cutSlice, calSliceBoundary_slices]
  rw [modSlice_ne _ n m _ h.symm, safeSlice_slices_ne s n kind h]

theorem cutSlice_safe : ((s.cutSlice n kind).lane n l).safe = kind := by
  rw [cutSlice, lane_of_slices (calSliceBoundary_slices _ n), lane_modSlice_of_lanes _ n _ (by intro _; rfl), safeSlice_safe]

theorem cutSlice_feed : (s.cutSlice n kind).slices[n].feed = (s.safeSlice n kind).slices[n].feed.clear := by
  simp only [cutSlice, calSliceBoundary_slices, modSlice_self]

end SafeSlice

/-- A unit's queue and play are empty. -/
def idleFeed (f : Feed) : Prop := f.play = none ∧ f.queue = []

/-- Every lane of a slice is in its fault state and the slice plays nothing. -/
def SliceFaulted (x : Slice) : Prop := (∀ l : Fin 8, x.lanes[l].safe = .fault) ∧ idleFeed x.feed

/-- An output is in its fault state and plays nothing. -/
def AoFaulted (x : Ao) : Prop := x.safe = .fault ∧ idleFeed x.feed

theorem AoFaulted.rests {x : Ao} (h : AoFaulted x) : x.safe = .fault ∧ x.feed.play = none ∧ x.feed.queue = [] := h

theorem SliceFaulted.rests {x : Slice} (h : SliceFaulted x) (l : Fin 8) : x.lanes[l].safe = .fault ∧ x.feed.play = none ∧ x.feed.queue = [] :=
  ⟨h.1 l, h.2⟩

theorem overSlices_cut (s : State) (n : Fin 12) : SliceFaulted (s.overSlices (fun n s => s.cutSlice n .fault)).slices[n] :=
  (foldl_finRange (R := fun _ : State => True) (v := fun u (n : Fin 12) => u.slices[n]) (P := fun _ _ y => SliceFaulted y) (fun _ _ _ => trivial)
    (fun u n _ => ⟨fun l => cutSlice_safe u n l .fault, by rw [cutSlice_feed]; exact ⟨rfl, rfl⟩⟩)
    (fun u n m _ hm => cutSlice_slices_ne u n .fault hm) s trivial).2 n

/-! ### Outputs -/

theorem aoSafe_slices (s : State) (o : Fin 16) (kind : SafeKind) : (s.aoSafe o kind).slices = s.slices := rfl

theorem aoSafe_aos_ne (s : State) (o : Fin 16) (kind : SafeKind) {i : Fin 16} (h : i ≠ o) : (s.aoSafe o kind).aos[i] = s.aos[i] := by
  rw [aoSafe, modAo_ne _ o i _ h.symm, aoHold, modAo_ne _ o i _ h.symm]

theorem aoSafe_faulted (s : State) (o : Fin 16) : AoFaulted (s.aoSafe o .fault).aos[o] := by
  rw [aoSafe, modAo_self]
  exact ⟨rfl, rfl, rfl⟩

theorem overOutputs_faulted (s : State) (o : Fin 16) : AoFaulted (s.overOutputs (fun o s => s.aoSafe o .fault)).aos[o] :=
  (foldl_finRange (R := fun _ : State => True) (v := fun u (o : Fin 16) => u.aos[o]) (P := fun _ _ y => AoFaulted y) (fun _ _ _ => trivial)
    (fun u o _ => aoSafe_faulted u o) (fun u o i _ hi => aoSafe_aos_ne u o .fault hi) s trivial).2 o

theorem overOutputs_slices (s : State) : (s.overOutputs (fun o s => s.aoSafe o .fault)).slices = s.slices :=
  foldl_keeps (R := fun u : State => u.slices = s.slices) (fun u o hu => (aoSafe_slices u o .fault).trans hu) _ s rfl

/-! ### Every unit (R454) -/

theorem faultDevice_eq (s : State) : s.faultDevice = ((((match s.cal.run with
      | some u => s.calAbandon u
      | none => s).overSess (fun k s => s.hardFaultSess k)).overSlices (fun n s => s.cutSlice n .fault)).overOutputs (fun o s => s.aoSafe o .fault)) := rfl

theorem faultDevice_slices (s : State) (n : Fin 12) : SliceFaulted s.faultDevice.slices[n] := by
  rw [faultDevice_eq]
  simp only [overOutputs_slices]
  exact overSlices_cut _ n

theorem faultDevice_aos (s : State) (o : Fin 16) : AoFaulted s.faultDevice.aos[o] := by
  rw [faultDevice_eq]
  exact overOutputs_faulted _ o

theorem calTemp_units (s : State) (x : Int) : (s.calTemp x).slices = s.slices ∧ (s.calTemp x).aos = s.aos := by
  rw [calTemp]
  split
  · refine foldl_keeps (R := fun u : State => u.slices = s.slices ∧ u.aos = s.aos) (fun u i hu => ?_) _ _ ⟨rfl, rfl⟩
    obtain ⟨hslices, haos⟩ := calDue_units u i 1
    exact iteInduction (motive := fun v : State => v.slices = s.slices ∧ v.aos = s.aos) (fun _ => ⟨hslices.trans hu.1, haos.trans hu.2⟩) (fun _ => hu)
  · exact ⟨rfl, rfl⟩

end State

end Sys2Proof.Machine
end

section

-- One declaration at a time: the whole text's check stays within its memory.
set_option Elab.async false

/-! A bank out of range (R104, R455). -/

namespace Sys2Proof.Machine

namespace State

theorem freshK_of_regs_eq {s t : State} (h : t.regs = s.regs) (k : Nat) : t.freshK k = s.freshK k := by rw [freshK, freshK, h]

section BankOut

variable {s : State} {b : Bool} {mv : Nat}

theorem bankVolts_now : (s.bankVolts b mv).now = s.now := rfl

/-- The monitor's registers and the drivers as a bank has gone out of range. -/
def bankShut (s : State) (b : Bool) (mv : Nat) : State :=
  (((s.bankVolts b mv).count F.FLT_CNT_COUNT [0x13]).setBank b false).setRail (if b then 4 else 3) false

/-- The bank is out of range and the strobes have met it. -/
def bankLost (s : State) (b : Bool) (mv : Nat) : State := (s.bankShut b mv).overSlices (fun n s => s.strobeSync n)

/-- The keys of the monitor's registers. -/
def bankLostKeys : List Nat := Reg.key .FLT_SUPPLY [] :: Reg.key .FLT_CNT [0x13] :: bankKeys

theorem bankShut_balls (s : State) (b : Bool) (mv : Nat) : BallsOnly bankLostKeys (s.bankVolts b mv) (s.bankShut b mv) := by
  obtain ⟨hballs, -⟩ := ((s.bankVolts b mv).count F.FLT_CNT_COUNT [0x13]).setBank_spec b false
  have hbank : ∀ k ∈ bankKeys, k ∈ bankLostKeys := fun _ h => List.mem_cons_of_mem _ (List.mem_cons_of_mem _ h)
  exact ((ballsOnly_count _ F.FLT_CNT_COUNT [0x13] (List.mem_cons_of_mem _ List.mem_cons_self)).trans (hballs.mono hbank)).trans
    (ballsOnly_set _ F.FLT_SUPPLY_OK [] _ List.mem_cons_self)

theorem bankLost_balls (s : State) (b : Bool) (mv : Nat) : BallsOnly bankLostKeys (s.bankVolts b mv) (s.bankLost b mv) :=
  (s.bankShut_balls b mv).trans ((syncAll _).1.mono (fun _ h => absurd h List.not_mem_nil))

theorem bankLost_regs (s : State) (b : Bool) (mv : Nat) : (s.bankLost b mv).regs = (s.bankShut b mv).regs := (syncAll _).2.1

theorem bankLost_bank (s : State) (b : Bool) (mv : Nat) (n : Fin 12) : (s.bankLost b mv).get (bankFld b) [n] = 0 := by
  obtain ⟨-, hbits, -⟩ := ((s.bankVolts b mv).count F.FLT_CNT_COUNT [0x13]).setBank_spec b false
  rw [get_of_regs_eq (s.bankLost_regs b mv), bankShut, setRail, get_set_key _ _ _ _ _ _ (key_bankFld_ne_supply _ n), (hbits n).1]
  rfl

theorem bankShut_lane (s : State) (b : Bool) (mv : Nat) (n : Fin 12) (l : Fin 8) :
    (s.bankShut b mv).lane n l = laneKeep (s.lane n l) s.now ((s.bankShut b mv).laneBankOff n l || (s.lane n l).hiz) := by
  obtain ⟨-, -, hlanes⟩ := ((s.bankVolts b mv).count F.FLT_CNT_COUNT [0x13]).setBank_spec b false
  have hcount : ((s.bankVolts b mv).count F.FLT_CNT_COUNT [0x13]).lane n l = s.lane n l := lane_count _ n l F.FLT_CNT_COUNT [0x13] 1
  have hkept := hlanes n l
  rw [hcount] at hkept
  rw [bankShut, setRail, lane_set, laneBankOff_set (by decide), hkept, count_now, bankVolts_now]

theorem bankLost_lane (s : State) (b : Bool) (mv : Nat) (n : Fin 12) (l : Fin 8) :
    (s.bankLost b mv).lane n l = laneKeep (s.lane n l) s.now ((s.bankLost b mv).laneBankOff n l || (s.lane n l).hiz) := by
  rw [laneBankOff_of_regs (s.bankLost_regs b mv), bankLost, (syncAll _).2.2, bankShut_lane]

theorem bankLost_supply (s : State) (b : Bool) (mv : Nat) : bitOf ((s.bankLost b mv).get F.FLT_SUPPLY_OK) (if b then 4 else 3) = false := by
  rw [get_of_regs_eq (s.bankLost_regs b mv), bankShut, setRail, bitOf_get_set _ _ _ _ _ (by decide) (by cases b <;> decide), if_pos rfl]
  rfl

theorem bankLost_counted (s : State) (b : Bool) (mv : Nat) : counted F.FLT_CNT_COUNT [0x13] 1 s (s.bankLost b mv) := by
  obtain ⟨hballs, -⟩ := ((s.bankVolts b mv).count F.FLT_CNT_COUNT [0x13]).setBank_spec b false
  have hkey : F.FLT_CNT_COUNT.reg.key [0x13] ∉ bankKeys := by decide
  have hcount := counted_count (s.bankVolts b mv) F.FLT_CNT_COUNT [0x13] 1 (by decide)
  rw [counted] at hcount ⊢
  rw [freshK_of_regs_eq (s.bankLost_regs b mv), bankShut, setRail, freshK_set, (hballs.regs _ hkey).2.2.2, hcount]
  rfl

theorem seOnBank_of_act {t : State} (h : ∀ f ix, t.act f ix = s.act f ix) (n : Nat) : t.seOnBank b n = s.seOnBank b n := by
  simp only [seOnBank, sliceBank, laneSe, h]

theorem exec_supplyBank_quiet (h : s.bankUsed b = false ∨ (s.injOn 0x14 (if b then 4 else 3) = false ∧ s.bankInRange b mv = true)) :
    exec (.supplyBank ⟨b, mv⟩) s = .next (s.bankVolts b mv) := by
  refine if_neg (fun hc => ?_)
  change (s.bankUsed b && (s.injOn 0x14 (if b then 4 else 3) || !s.bankInRange b mv)) = true at hc
  rcases h with h | ⟨h1, h2⟩
  · rw [h, Bool.false_and] at hc
    exact Bool.false_ne_true hc
  · rw [h1, h2, Bool.not_true, Bool.or_false, Bool.and_false] at hc
    exact Bool.false_ne_true hc

theorem exec_supplyBank_lost (hused : s.bankUsed b = true) (hout : s.injOn 0x14 (if b then 4 else 3) = true ∨ s.bankInRange b mv = false)
    (hfree : ∀ (k : Fin 16) (n : Fin 12), (s.ownsSlice k n && s.seOnBank b n) = false) : exec (.supplyBank ⟨b, mv⟩) s = .next (s.bankLost b mv) := by
  have hcond : (s.bankUsed b && (s.injOn 0x14 (if b then 4 else 3) || !s.bankInRange b mv)) = true := by
    rcases hout with h | h <;> simp [hused, h]
  have hact : ∀ f ix, (s.bankLost b mv).act f ix = s.act f ix := fun f ix => (s.bankLost_balls b mv).act f ix
  refine (if_pos hcond).trans (congrArg Host.Outcome.next ?_)
  dsimp only
  rw [detect_of_light _ _ _ _ _ (.inr rfl)]
  refine foldl_id _ _ (s.bankLost b mv) (fun k _ => if_neg ?_)
  rw [List.any_eq_true]
  rintro ⟨n, -, hn⟩
  rw [ownsSlice, hact, seOnBank_of_act hact] at hn
  exact Bool.false_ne_true ((hfree k n).symm.trans hn)

end BankOut

end State

end Sys2Proof.Machine
end

section

-- One declaration at a time: the whole text's check stays within its memory.
set_option Elab.async false

/-! The detectors' responses: what the machine does (O55). -/

namespace Sys2Proof.Machine

namespace State

theorem laneKeep_safe (l : Lane) (t : Nat) (on : Bool) : (laneKeep l t on).safe = l.safe := by
  rw [laneKeep]
  split <;> rfl

theorem get_set_of_lt (s : State) {f : Fld} (ix : List Nat) {v : Nat} (h : f.lsb + f.width ≤ 32) (hv : v < 2 ^ f.width) : (s.set f ix v).get f ix = v := by
  rw [get_set_self _ _ _ _ h, Nat.mod_eq_of_lt hv]

theorem setRail_false (s : State) {r : Nat} (h : r < 5) : bitOf ((s.setRail r false).get F.FLT_SUPPLY_OK) r = false := by
  rw [setRail, bitOf_get_set _ _ _ _ _ (by decide) h, if_pos rfl]
  rfl

theorem ddrRead_double_only (s : State) (a : Nat) : RegsOnly [Reg.key .FLT_CNT [1], Reg.key .FLT_DDR_ADDR_LO [], Reg.key .FLT_DDR_ADDR_HI []] s
    (((s.count F.FLT_CNT_COUNT [1]).set F.FLT_DDR_ADDR_LO_ADDR [] (a % 2 ^ 32)).set F.FLT_DDR_ADDR_HI_ADDR [] (a / 2 ^ 32)) :=
  (((RegsOnly.refl _ s).count F.FLT_CNT_COUNT [1] 1 (by decide)).set F.FLT_DDR_ADDR_LO_ADDR [] _ (by decide)).set F.FLT_DDR_ADDR_HI_ADDR [] _ (by decide)

theorem ddrRead_double_counted (s : State) (a : Nat) : counted F.FLT_CNT_COUNT [1] 1 s
    (((s.count F.FLT_CNT_COUNT [1]).set F.FLT_DDR_ADDR_LO_ADDR [] (a % 2 ^ 32)).set F.FLT_DDR_ADDR_HI_ADDR [] (a / 2 ^ 32)) := by
  rw [counted, freshK_set, freshK_set]
  exact counted_count s F.FLT_CNT_COUNT [1] 1 (by decide)

theorem RegsOnly.flt {ks : List Nat} {s t : State} (h : RegsOnly ks s t) : t.flt = s.flt := by rw [h.eq_regs]

/-! ### What a supply's fault and a trip leave -/

section Faults

variable {s : State} {x : Int}

theorem railFault_supply {r : Nat} (h : r < 5) (injected : Bool) :
    bitOf ((((s.setRail r false).detect 0x12 r .device injected none).faultDevice).get F.FLT_SUPPLY_OK) r = false := by
  have hdet : ((s.setRail r false).detect 0x12 r .device injected none).get F.FLT_SUPPLY_OK = (s.setRail r false).get F.FLT_SUPPLY_OK :=
    (regsOnly_detect _ _ _ _ _ _).get (by decide)
  rw [State.get, (monitorsKept_faultDevice _).main _ (by decide) (by decide), ← State.get, hdet, setRail_false s h]

theorem railFault_counted (r : Nat) (injected : Bool) :
    counted F.FLT_CNT_COUNT [0x11] 1 s ((s.setRail r false).detect 0x12 r .device injected none).faultDevice := by
  rw [counted, (monitorsKept_faultDevice _).fresh _ (by decide) (by decide)]
  exact counted_detect (s.setRail r false) 0x12 r .device injected none

theorem tripped_kept (s : State) (x : Int) :
    MonitorsKept (((s.tripMet x).detect 0x11 0 .device false none).set F.FLT_TEMP_TRIP [] 1) ((s.tripped x).calTemp x) :=
  (monitorsKept_faultDevice _).trans (monitorsKept_calTemp _ x)

theorem tripped_trip (s : State) (x : Int) : ((s.tripped x).calTemp x).get F.FLT_TEMP_TRIP = 1 := by
  rw [State.get, (s.tripped_kept x).main _ (by decide) (by decide), ← State.get, get_set_of_lt _ _ (by decide) (by decide)]

theorem tripped_counted (s : State) (x : Int) : counted F.FLT_CNT_COUNT [0x10] 1 s ((s.tripped x).calTemp x) := by
  have hcount := (s.tripMet x).counted_detect 0x11 0 .device false none
  have hkey : F.FLT_CNT_COUNT.reg.key [0x11 - 1] = Reg.key .FLT_CNT [0x10] := rfl
  rw [counted, hkey, tripMet_trips] at hcount
  rw [counted, (s.tripped_kept x).fresh _ (by decide) (by decide), freshK_set]
  exact hcount

theorem tripped_armed (s : State) (x : Int) : ((s.tripped x).calTemp x).flt.tripArmed = false := by
  rw [(s.tripped_kept x).armed, set_flt, ((s.tripMet x).regsOnly_detect 0x11 0 .device false none).flt, tripMet_armed]

theorem tripped_slices (s : State) (x : Int) (n : Fin 12) : SliceFaulted ((s.tripped x).calTemp x).slices[n] := by
  simp only [(calTemp_units (s.tripped x) x).1]
  exact faultDevice_slices _ n

theorem tripped_aos (s : State) (x : Int) (o : Fin 16) : AoFaulted ((s.tripped x).calTemp x).aos[o] := by
  simp only [(calTemp_units (s.tripped x) x).2]
  exact faultDevice_aos _ o

end Faults

/-! ### What a reading shows -/

section Shown

variable {s t : State} {x : Int} {w v : Bool} {ks : List Nat}

/-- The registers as the temperature is the last one of the offsets, nothing being due. -/
def judged (t : State) (x : Int) : State := { t with cal := { t.cal with lastTemp := x } }

theorem judged_get (f : Fld) (ix : List Nat) : (t.judged x).get f ix = t.get f ix := rfl

theorem judged_counted (f : Fld) (ix : List Nat) (n : Nat) (h : counted f ix n s t) : counted f ix n s (t.judged x) := h

theorem judged_eq (h : RegsOnly ks (s.modFlt (fun f => { f with warnArmed := w, tripArmed := v })) t) : t.judged x = { s with
      regs := (t.judged x).regs, flt := { s.flt with warnArmed := w, tripArmed := v }, cal := { s.cal with lastTemp := x } } :=
  congrArg (fun u : State => u.judged x) h.eq_regs

theorem judged_regs {f : Faults → Faults} (h : RegsOnly ks (s.modFlt f) t) : regsSame ks s (t.judged x) :=
  regsSame_other (regsSame_trans (regsSame_other (regsSame_refl ks s) rfl) h.regs) rfl

theorem tempShown_get {f : Fld} {ix : List Nat} (h : f.reg.key ix ≠ Reg.key .FLT_TEMP []) : (s.tempShown x w v).get f ix = s.get f ix := by
  rw [tempShown, get_set_key _ F.FLT_TEMP_WARN _ _ _ _ h, get_set_key _ F.FLT_TEMP_TEMP _ _ _ _ h, modFlt_get]

theorem tempShown_temp (hlo : -2048 ≤ x) (hhi : x < 2048) : signedOf ((s.tempShown x w v).get F.FLT_TEMP_TEMP) 12 = x := by
  rw [tempShown, get_set_field _ F.FLT_TEMP_WARN F.FLT_TEMP_TEMP _ _ _ (by decide) (by decide), get_set_self _ F.FLT_TEMP_TEMP _ _ (by decide),
    Nat.mod_eq_of_lt (by change (x % 4096).toNat < 4096; omega), signedOf_patternOf_twelve hlo hhi]

theorem tempShown_warn : (s.tempShown x w v).get F.FLT_TEMP_WARN = (decide ((s.get F.FLT_TEMP_CFG_WARN : Int) ≤ x)).toNat := by
  rw [tempShown, get_set_of_lt _ _ (by decide) (Bool.toNat_lt _)]

theorem tempShown_only (h : Reg.key .FLT_TEMP [] ∈ ks) : RegsOnly ks (s.modFlt (fun f => { f with warnArmed := w, tripArmed := v })) (s.tempShown x w v) :=
  ((RegsOnly.refl _ _).set F.FLT_TEMP_TEMP [] _ h).set F.FLT_TEMP_WARN [] _ h

theorem coolShown_only : RegsOnly [Reg.key .FLT_TEMP []] (s.modFlt (fun f => { f with warnArmed := true, tripArmed := true })) (s.coolShown x) :=
  (tempShown_only List.mem_cons_self).set F.FLT_TEMP_TRIP [] 0 List.mem_cons_self

theorem warnShown_only :
    RegsOnly [Reg.key .FLT_TEMP [], Reg.key .FLT_CNT [0xF]] (s.modFlt (fun f => { f with warnArmed := false, tripArmed := true })) (s.warnShown x) :=
  ((tempShown_only List.mem_cons_self).count F.FLT_CNT_COUNT [0xF] 1 (by decide)).set F.FLT_TEMP_TRIP [] 0 List.mem_cons_self

theorem coolShown_temp (hlo : -2048 ≤ x) (hhi : x < 2048) : signedOf (((s.coolShown x).judged x).get F.FLT_TEMP_TEMP) 12 = x := by
  rw [judged_get, coolShown, get_set_field _ F.FLT_TEMP_TRIP F.FLT_TEMP_TEMP _ _ _ (by decide) (by decide), tempShown_temp hlo hhi]

theorem warnShown_temp (hlo : -2048 ≤ x) (hhi : x < 2048) : signedOf (((s.warnShown x).judged x).get F.FLT_TEMP_TEMP) 12 = x := by
  rw [judged_get, warnShown, get_set_field _ F.FLT_TEMP_TRIP F.FLT_TEMP_TEMP _ _ _ (by decide) (by decide), get_count, tempShown_temp hlo hhi]

theorem coolShown_warn (h : x < s.get F.FLT_TEMP_CFG_WARN) : ((s.coolShown x).judged x).get F.FLT_TEMP_WARN = 0 := by
  rw [judged_get, coolShown, get_set_field _ F.FLT_TEMP_TRIP F.FLT_TEMP_WARN _ _ _ (by decide) (by decide), tempShown_warn, decide_eq_false (by omega)]
  rfl

theorem warnShown_warn (h : s.get F.FLT_TEMP_CFG_WARN ≤ x) : ((s.warnShown x).judged x).get F.FLT_TEMP_WARN = 1 := by
  rw [judged_get, warnShown, get_set_field _ F.FLT_TEMP_TRIP F.FLT_TEMP_WARN _ _ _ (by decide) (by decide), get_count, tempShown_warn, decide_eq_true h]
  rfl

theorem coolShown_trip : ((s.coolShown x).judged x).get F.FLT_TEMP_TRIP = 0 := by
  rw [judged_get, coolShown, get_set_of_lt _ _ (by decide) (by decide)]

theorem warnShown_trip : ((s.warnShown x).judged x).get F.FLT_TEMP_TRIP = 0 := by
  rw [judged_get, warnShown, get_set_of_lt _ _ (by decide) (by decide)]

theorem warnShown_counted : counted F.FLT_CNT_COUNT [0xF] 1 s (s.warnShown x) := by
  have h := counted_count (s.tempShown x false true) F.FLT_CNT_COUNT [0xF] 1 (by decide)
  rw [counted, tempShown_kept] at h
  rw [counted, warnShown, freshK_set]
  exact h

theorem calTemp_coolShown (hauto : s.get F.CAL_CFG_AUTO_EN = 0) : (s.coolShown x).calTemp x = (s.coolShown x).judged x :=
  calTemp_off _ x (by rw [coolShown, get_set_key _ F.FLT_TEMP_TRIP _ _ _ _ (by decide), tempShown_get (by decide), hauto])

theorem calTemp_warnShown (hauto : s.get F.CAL_CFG_AUTO_EN = 0) : (s.warnShown x).calTemp x = (s.warnShown x).judged x :=
  calTemp_off _ x (by rw [warnShown, get_set_key _ F.FLT_TEMP_TRIP _ _ _ _ (by decide), get_count, tempShown_get (by decide), hauto])

end Shown

/-! ### What a host strobe that changed one part of the state leaves -/

section Strobed

variable {s t : State} {ks : List Nat}

theorem core_strobed {c : Fin 4} {f : Core → Core} (h : RegsOnly ks ((s.down 1).modCore c f) t) :
    t = { s with regs := t.regs, cores := s.cores.set c (f s.cores[c]), stile := framesDown 1 s.stile } := h.eq_regs

theorem sess_strobed {k : Fin 16} {f : Sess → Sess} (h : RegsOnly ks ((s.down 1).modSess k f) t) :
    t = { s with regs := t.regs, sess := s.sess.set k (f s.sess[k]), stile := framesDown 1 s.stile } := h.eq_regs

theorem flt_strobed {f : Faults → Faults} (h : RegsOnly ks ((s.down 1).modFlt f) t) :
    t = { s with regs := t.regs, flt := f s.flt, stile := framesDown 1 s.stile } := h.eq_regs

theorem regs_strobed (h : RegsOnly ks (s.down 1) t) : t = { s with regs := t.regs, stile := framesDown 1 s.stile } := h.eq_regs

end Strobed

/-! ### Injections armed and ended -/

section Injected

variable {s : State} {n : Fin 65536}

theorem modFlt_set (s : State) (f : Fld) (ix : List Nat) (v : Nat) (g : Faults → Faults) : (s.set f ix v).modFlt g = (s.modFlt g).set f ix v := rfl

theorem down_get (s : State) (f : Fld) (ix : List Nat) : (s.down 1).get f ix = s.get f ix := rfl

/-- The device with the count to arm for. -/
def arming (s : State) (n : Nat) : State := (s.down 1).set F.FLT_INJ_CTRL_COUNT [] n

theorem arming_busy : (s.arming n).get F.FLT_INJ_CTRL_BUSY = s.get F.FLT_INJ_CTRL_BUSY := by
  rw [arming, get_set_field _ F.FLT_INJ_CTRL_COUNT F.FLT_INJ_CTRL_BUSY _ _ _ (by decide) (by decide), down_get]

theorem arming_sel {f : Fld} (h : f.reg.key [] ≠ Reg.key .FLT_INJ_CTRL []) : (s.arming n).get f = s.get f := by
  rw [arming, get_set_key _ F.FLT_INJ_CTRL_COUNT _ _ _ _ h, down_get]

theorem down_now (s : State) (k : Nat) : (s.down k).now = s.now := rfl

theorem set_now (s : State) (f : Fld) (ix : List Nat) (v : Nat) : (s.set f ix v).now = s.now := rfl

theorem arming_now : (s.arming n).now = s.now := by rw [arming, set_now, down_now]

/-- What the detectors hold of the armed injection. -/
def injected (s : State) (n : Nat) (f : Faults) : Faults :=
  { f with inj := some ⟨s.get F.FLT_INJ_SEL_DET, s.get F.FLT_INJ_SEL_UNIT, s.get F.FLT_INJ_SEL_VARIANT == 1, n⟩, injAt := s.now }

theorem armed_arming : (s.arming n).armed n = (((s.down 1).modFlt (s.injected n)).set F.FLT_INJ_CTRL_COUNT [] n).set F.FLT_INJ_CTRL_BUSY [] 1 := by
  rw [armed, arming_sel (f := F.FLT_INJ_SEL_DET) (by decide), arming_sel (f := F.FLT_INJ_SEL_UNIT) (by decide),
    arming_sel (f := F.FLT_INJ_SEL_VARIANT) (by decide), arming_now, arming, modFlt_set]
  rfl

theorem armed_only : RegsOnly [Reg.key .FLT_INJ_CTRL []] ((s.down 1).modFlt (s.injected n)) ((s.arming n).armed n) := by
  rw [armed_arming]
  exact ((RegsOnly.refl _ _).set F.FLT_INJ_CTRL_COUNT [] _ List.mem_cons_self).set F.FLT_INJ_CTRL_BUSY [] _ List.mem_cons_self

theorem armed_busy : ((s.arming n).armed n).get F.FLT_INJ_CTRL_BUSY = 1 := by rw [armed_arming, get_set_of_lt _ _ (by decide) (by decide)]

theorem armed_count : ((s.arming n).armed n).get F.FLT_INJ_CTRL_COUNT = n := by
  rw [armed_arming, get_set_field _ F.FLT_INJ_CTRL_BUSY F.FLT_INJ_CTRL_COUNT _ _ _ (by decide) (by decide), get_set_of_lt _ _ (by decide) n.isLt]

theorem injArm_arming (hbusy : s.get F.FLT_INJ_CTRL_BUSY = 0) (hn : n ≠ 0)
    (hunit : injUnit (s.get F.FLT_INJ_SEL_DET) (s.get F.FLT_INJ_SEL_UNIT) = true) : (s.arming n).injArm n = (s.arming n).armed n :=
  injArm_of_unit (arming_busy.trans hbusy) (fun h => hn (Fin.ext h))
    (by rw [arming_sel (f := F.FLT_INJ_SEL_DET) (by decide), arming_sel (f := F.FLT_INJ_SEL_UNIT) (by decide), hunit])

theorem injArm_arming_err (hbusy : s.get F.FLT_INJ_CTRL_BUSY = 0) (hn : n ≠ 0)
    (hunit : injUnit (s.get F.FLT_INJ_SEL_DET) (s.get F.FLT_INJ_SEL_UNIT) = false) :
    (s.arming n).injArm n = (s.arming n).raise F.FLT_INJ_CTRL_ERR :=
  injArm_of_no_unit (arming_busy.trans hbusy) (fun h => hn (Fin.ext h))
    (by rw [arming_sel (f := F.FLT_INJ_SEL_DET) (by decide), arming_sel (f := F.FLT_INJ_SEL_UNIT) (by decide), hunit])

theorem injErr_only : RegsOnly [Reg.key .FLT_INJ_CTRL []] (s.down 1) ((s.arming n).raise F.FLT_INJ_CTRL_ERR) :=
  ((RegsOnly.refl _ (s.down 1)).set F.FLT_INJ_CTRL_COUNT [] _ List.mem_cons_self).raise F.FLT_INJ_CTRL_ERR [] List.mem_cons_self

theorem injErr_busy (hbusy : s.get F.FLT_INJ_CTRL_BUSY = 0) : ((s.arming n).raise F.FLT_INJ_CTRL_ERR).get F.FLT_INJ_CTRL_BUSY = 0 := by
  rw [get_raise, arming_busy, hbusy]

theorem injCancel_busy (s : State) : s.injCancel.get F.FLT_INJ_CTRL_BUSY = 0 := get_set_of_lt _ _ (by decide) (by decide)

theorem injCancel_of_no_rail {i : Inject} (h : s.flt.inj = some i) (h1 : i.det ≠ 0x12) (h2 : i.det ≠ 0x13) :
    s.injCancel = (s.modFlt (fun f => { f with inj := none })).set F.FLT_INJ_CTRL_BUSY [] 0 := by
  rw [injCancel, injRailBack_of_no_rail h h1 h2]

theorem injEnd_only : RegsOnly [Reg.key .FLT_INJ_CTRL [], Reg.key .FLT_SUPPLY []] (s.modFlt (fun f => { f with inj := none }))
    (s.injCancel.raise F.FLT_INJ_CTRL_DONE) := injCancel_regsOnly.raise F.FLT_INJ_CTRL_DONE [] List.mem_cons_self

theorem injEnd_busy (s : State) : (s.injCancel.raise F.FLT_INJ_CTRL_DONE).get F.FLT_INJ_CTRL_BUSY = 0 := by
  rw [get_raise, injCancel_busy]

theorem injEnd_supply {i : Inject} (h : s.flt.inj = some i) (hunit : i.unit_ < 5) : (s.injCancel.raise F.FLT_INJ_CTRL_DONE).get F.FLT_SUPPLY_OK =
    if i.det = 0x12 ∨ i.det = 0x13 then putBits (s.get F.FLT_SUPPLY_OK) i.unit_ 1 1 else s.get F.FLT_SUPPLY_OK := by
  rw [get_raise, injCancel_supply h hunit]

theorem flt_ended {ks : List Nat} {t : State} {f : Faults → Faults} (h : RegsOnly ks (s.modFlt f) t) : t = { s with regs := t.regs, flt := f s.flt } :=
  h.eq_regs

end Injected

/-! ### Staged code -/

section Staging

variable (s : State) (k : Fin 16)

theorem stageClear_only : RegsOnly [Reg.key .FLT_CS_STAGE [k], Reg.key .FLT_CS_SWAP [k]]
    ((s.down 1).modSess k (fun x => { x with staged := none, swapWait := false })) ((s.down 1).stageClear k) :=
  ((RegsOnly.refl _ _).set F.FLT_CS_STAGE_STAGE [k] 0 List.mem_cons_self).set F.FLT_CS_SWAP_PENDING [k] 0 (List.mem_cons_of_mem _ List.mem_cons_self)

theorem stageClear_stage : ((s.down 1).stageClear k).get F.FLT_CS_STAGE_STAGE [k] = 0 := by
  have hne : Reg.key .FLT_CS_STAGE [k] ≠ Reg.key .FLT_CS_SWAP [k] := by
    change 0x80300 + (0x8 * k.val + 0) ≠ 0x80304 + (0x8 * k.val + 0)
    omega
  rw [stageClear, get_set_key _ F.FLT_CS_SWAP_PENDING _ _ _ _ hne, get_set_of_lt _ _ (by decide) (by decide)]

theorem stageClear_pending : ((s.down 1).stageClear k).get F.FLT_CS_SWAP_PENDING [k] = 0 := get_set_of_lt _ _ (by decide) (by decide)

end Staging

end State

end Sys2Proof.Machine
end

section

-- One declaration at a time: the whole text's check stays within its memory.
set_option Elab.async false

/-! The detectors' responses, clause by clause (O55). -/

namespace Sys2Proof.Machine

section FaultsDetected

open State

/-- Settles O55: each clause is the effect of one reading, one write or one end of a duration. -/
theorem faultsAreDetected : Obligations.FaultsAreDetected := by
  unfold Obligations.FaultsAreDetected
  refine ⟨fun b mv s h => exec_supplyBank_quiet h, fun b mv s hused hout hfree => ?_, fun a s hlt hinj => ?_, fun a s hlt hinj ha => ⟨?_, ?_⟩,
    fun a ecc s hle => exec_ddrPatrolRead_of_le hle ecc, fun dev s => exec_supply_analogue, fun r dev s hr hin => exec_supply_in hr hin,
    fun r dev s hr hout => ?_, fun x s hlo hwarn htrip hhi hinj hauto => ?_, fun x s hwarn htrip hhi hinj harmed hauto => ?_,
    fun x s htrip hinj harmed => ?_, fun c s hstate hcores hidle hcross => ?_, fun c s hstate hcores hruns hcross => ?_,
    fun c s hstate hcores hcross => ?_, fun c s hcross => ?_, fun n s hbusy hn hunit hcross => ?_, fun n s hbusy hn hunit hcross => ?_,
    fun i s hinj h12 h13 hcross => ?_, fun i s hinj hnot => ?_, fun i s hinj htimed hover hunit => ?_, fun k s hstaged hcross => ?_,
    fun k s hcross => ?_, fun k e s hstaged hseq hburst hcross => ?_, fun k s hstaged hseq hcross => ?_⟩
  · refine ⟨s.bankLost b mv, exec_supplyBank_lost hused hout hfree, fun n => ⟨s.bankLost_bank b mv n, (s.bankLost_balls b mv).slices n, fun l => ⟨?_, ?_⟩⟩,
      s.bankLost_supply b mv, s.bankLost_counted b mv, (s.bankLost_balls b mv).regs_slices, (s.bankLost_balls b mv).regs⟩
    · exact (congrArg Lane.safe (s.bankLost_lane b mv n l)).trans (laneKeep_safe _ _ _)
    · exact (congrArg Lane.kept (s.bankLost_lane b mv n l)).trans (laneKeep_kept _ _ _)
  · exact (exec_ddrPatrolRead_of_lt hlt 0).trans (congrArg Host.Outcome.next (ddrRead_good hinj))
  · have hread := (RegsOnly.refl [Reg.key .FLT_CNT [0]] s).count F.FLT_CNT_COUNT [0] 1 List.mem_cons_self
    exact ⟨_, (exec_ddrPatrolRead_of_lt hlt 1).trans (congrArg Host.Outcome.next (ddrRead_single hinj)), counted_count s F.FLT_CNT_COUNT [0] 1 (by decide),
      hread.eq_regs, hread.regs⟩
  · exact ⟨_, (exec_ddrPatrolRead_of_lt hlt 2).trans (congrArg Host.Outcome.next (ddrRead_double hinj)), s.ddrRead_double_counted a,
      ddrAddr_shown _ ha, (s.ddrRead_double_only a).eq_regs, (s.ddrRead_double_only a).regs⟩
  · exact ⟨_, exec_supply_out hr hout, railFault_supply (by omega) _, railFault_counted _ _, fun n l => SliceFaulted.rests (faultDevice_slices _ n) l,
      fun o => AoFaulted.rests (faultDevice_aos _ o)⟩
  · exact ⟨(s.coolShown x).judged x, (exec_tempReading_cool hinj hwarn htrip).trans (congrArg Host.Outcome.next (calTemp_coolShown hauto)),
      coolShown_temp hlo hhi, coolShown_warn (by omega), coolShown_trip, judged_eq coolShown_only, judged_regs coolShown_only⟩
  · exact ⟨(s.warnShown x).judged x, (exec_tempReading_warn hinj hwarn htrip harmed).trans (congrArg Host.Outcome.next (calTemp_warnShown hauto)),
      warnShown_temp (by omega) hhi, warnShown_warn hwarn, warnShown_trip, judged_counted _ _ _ warnShown_counted, judged_eq warnShown_only,
      judged_regs warnShown_only⟩
  · exact ⟨(s.tripped x).calTemp x, exec_tempReading_trip hinj htrip harmed, s.tripped_trip x, s.tripped_counted x, s.tripped_armed x,
      fun n l => (SliceFaulted.rests (s.tripped_slices x n) l).1, fun o => (AoFaulted.rests (s.tripped_aos x o)).1⟩
  · have hset := (RegsOnly.refl [Reg.key .FLT_CORE [c]] ((s.down 1).modCore c (fun r => { r with offReq := false }))).set F.FLT_CORE_STATE [c] 2 List.mem_cons_self
    exact ⟨_, (exec_fltCoreOffline_of_crosses s c hcross).trans (congrArg Host.Outcome.next (coreOffline_idle hstate hcores hidle)),
      get_set_of_lt _ _ (by decide) (by decide), core_strobed hset, hset.regs⟩
  · have hset := (RegsOnly.refl [Reg.key .FLT_CORE [c]] ((s.down 1).modCore c (fun r => { r with offReq := true }))).set F.FLT_CORE_STATE [c] 1 List.mem_cons_self
    exact ⟨_, (exec_fltCoreOffline_of_crosses s c hcross).trans (congrArg Host.Outcome.next (coreOffline_waits hstate hcores hruns)),
      get_set_of_lt _ _ (by decide) (by decide), core_strobed hset, hset.regs⟩
  · exact (exec_fltCoreOffline_of_crosses s c hcross).trans (congrArg Host.Outcome.next (coreOffline_refused hstate hcores))
  · have hset := ((RegsOnly.refl [Reg.key .FLT_CORE [c]] ((s.down 1).modCore c (fun r => { r with offReq := false }))).set F.FLT_CORE_STATE [c] 0
      List.mem_cons_self).set F.FLT_CORE_AUTO [c] 0 List.mem_cons_self
    exact ⟨_, exec_fltCoreOnline_of_crosses s c hcross,
      (get_set_field _ F.FLT_CORE_AUTO F.FLT_CORE_STATE _ _ _ (by decide) (by decide)).trans (get_set_of_lt _ _ (by decide) (by decide)),
      get_set_of_lt _ _ (by decide) (by decide), core_strobed hset, hset.regs⟩
  · exact ⟨(s.arming n).armed n, (exec_injectionArm_of_crosses hcross n).trans (congrArg Host.Outcome.next (injArm_arming hbusy hn hunit)), armed_busy,
      armed_count, flt_strobed armed_only, armed_only.regs⟩
  · exact ⟨(s.arming n).raise F.FLT_INJ_CTRL_ERR,
      (exec_injectionArm_of_crosses hcross n).trans (congrArg Host.Outcome.next (injArm_arming_err hbusy hn hunit)),
      freshK_raise_self _ F.FLT_INJ_CTRL_ERR [] (by decide), injErr_busy hbusy, regs_strobed injErr_only, injErr_only.regs⟩
  · have hset := (RegsOnly.refl [Reg.key .FLT_INJ_CTRL []] ((s.down 1).modFlt (fun f => { f with inj := none }))).set F.FLT_INJ_CTRL_BUSY [] 0
      List.mem_cons_self
    exact ⟨_, (exec_injectionCancel_of_crosses hcross).trans (congrArg Host.Outcome.next (injCancel_of_no_rail (s := s.down 1) hinj h12 h13)),
      get_set_of_lt _ _ (by decide) (by decide), flt_strobed hset, hset.regs⟩
  · have hwait : ¬ (injTimed i.det ∧ (1638400 * i.left : Int) ≤ s.now - s.flt.injAt) := by
      rintro ⟨htimed, hover⟩
      exact hnot.elim (fun h => Bool.false_ne_true (h.symm.trans htimed)) (fun h => by omega)
    exact (exec_injectionDurationEnd_of_inj hinj).trans (congrArg Host.Outcome.next (if_neg hwait))
  · exact ⟨s.injCancel.raise F.FLT_INJ_CTRL_DONE,
      (exec_injectionDurationEnd_of_inj hinj).trans (congrArg Host.Outcome.next (if_pos ⟨htimed, hover⟩)), s.injEnd_busy,
      freshK_raise_self _ F.FLT_INJ_CTRL_DONE [] (by decide), injEnd_supply hinj hunit, flt_ended injEnd_only, injEnd_only.regs⟩
  · have hset := (RegsOnly.refl [Reg.key .FLT_CS_STAGE [k]] ((s.down 1).modSess k (fun x => { x with staged := some x.entries }))).set
      F.FLT_CS_STAGE_STAGE [k] 1 List.mem_cons_self
    exact ⟨_, (exec_csStageSet_of_crosses hcross).trans (congrArg Host.Outcome.next (stageSet_new (s := s.down 1) hstaged)),
      get_set_of_lt _ _ (by decide) (by decide), sess_strobed hset, hset.regs⟩
  · exact ⟨_, exec_csStageClear_of_crosses hcross, s.stageClear_stage k, s.stageClear_pending k, sess_strobed (s.stageClear_only k),
      (s.stageClear_only k).regs⟩
  · have hset := (RegsOnly.refl [Reg.key .FLT_CS_SWAP [k]] ((s.down 1).modSess k (fun x => { x with entries := e, swapWait := false }))).set
      F.FLT_CS_SWAP_PENDING [k] 0 List.mem_cons_self
    exact ⟨_, (exec_csSwapGo_of_crosses hcross).trans (congrArg Host.Outcome.next (swapGo_idle (s := s.down 1) hstaged hseq hburst)),
      get_set_of_lt _ _ (by decide) (by decide), sess_strobed hset, hset.regs⟩
  · have hset := (RegsOnly.refl [Reg.key .FLT_CS_SWAP [k]] ((s.down 1).modSess k (fun x => { x with swapWait := true }))).set F.FLT_CS_SWAP_PENDING [k] 1
      List.mem_cons_self
    exact ⟨_, (exec_csSwapGo_of_crosses hcross).trans (congrArg Host.Outcome.next (swapGo_waits (s := s.down 1) hstaged hseq)),
      get_set_of_lt _ _ (by decide) (by decide), sess_strobed hset, hset.regs⟩

end FaultsDetected

end Sys2Proof.Machine
end

section

-- One declaration at a time: the whole text's check stays within its memory.
set_option Elab.async false

/-! The end of the DDR4's training and the SPI NOR boot (R473, R474, R477). -/

namespace Sys2Proof.Machine

namespace State

/-! ### Both copies of a shadowed field -/

section PutBoth

variable (s : State) (f : Fld) (ix : List Nat) (v : Nat)

theorem act_putBoth_self (h : f.lsb + f.width ≤ 32) : (s.putBoth f ix v).act f ix = v % 2 ^ f.width := by
  rw [act, putBoth, activeK_putActive_self, putBits_bits _ _ _ _ h, bitsOf_putBits_self]

theorem act_putBoth_ne {g : Fld} {jx : List Nat} (h : g.reg.key jx ≠ f.reg.key ix) : (s.putBoth f ix v).act g jx = s.act g jx := by
  rw [act, putBoth, activeK_putActive_ne _ _ _ _ h]
  rfl

end PutBoth

/-! ### The boot's status -/

section Spi

variable (s : State) (st err : Nat)

theorem spiEnd_only : RegsOnly [Reg.key .NVM_BOOT_STAT []] s (s.spiEnd st err) :=
  (((RegsOnly.refl _ s).set F.NVM_BOOT_STAT_SPI_STATE [] st List.mem_cons_self).set F.NVM_BOOT_STAT_SPI_ERR [] err List.mem_cons_self).set
    F.NVM_BOOT_STAT_BOOT_BUSY [] 0 List.mem_cons_self

theorem spiEnd_busy : (s.spiEnd st err).get F.NVM_BOOT_STAT_BOOT_BUSY = 0 := get_set_of_lt _ _ (by decide) (by decide)

variable {st err}

theorem spiEnd_err (h : err < 256) : (s.spiEnd st err).get F.NVM_BOOT_STAT_SPI_ERR = err := by
  rw [spiEnd, get_set_field _ F.NVM_BOOT_STAT_BOOT_BUSY F.NVM_BOOT_STAT_SPI_ERR _ _ _ (by decide) (by decide), get_set_of_lt _ _ (by decide) h]

theorem spiEnd_state (h : st < 4) : (s.spiEnd st err).get F.NVM_BOOT_STAT_SPI_STATE = st := by
  rw [spiEnd, get_set_field _ F.NVM_BOOT_STAT_BOOT_BUSY F.NVM_BOOT_STAT_SPI_STATE _ _ _ (by decide) (by decide),
    get_set_field _ F.NVM_BOOT_STAT_SPI_ERR F.NVM_BOOT_STAT_SPI_STATE _ _ _ (by decide) (by decide), get_set_of_lt _ _ (by decide) h]

/-- A boot begun, its fields but one left by what follows. -/
theorem spiBegin_only : RegsOnly [Reg.key .NVM_BOOT_CMT [], Reg.key .NVM_BOOT_STAT []] s s.spiBegin := by
  have hcmt : RegsOnly [Reg.key .NVM_BOOT_CMT [], Reg.key .NVM_BOOT_STAT []] s (s.putK (Reg.key .NVM_BOOT_CMT []) 0) :=
    ⟨⟨_, _, rfl⟩, regsSame_putK _ _ List.mem_cons_self (regsSame_refl _ _)⟩
  exact (((hcmt.set F.NVM_BOOT_STAT_SPI_ERR [] 0 (by decide)).set F.NVM_BOOT_STAT_SKIPPED [] 0 (by decide)).set F.NVM_BOOT_STAT_SPI_STATE [] 1
    (by decide)).set F.NVM_BOOT_STAT_BOOT_BUSY [] 1 (by decide)

theorem spiBegin_busy : s.spiBegin.get F.NVM_BOOT_STAT_BOOT_BUSY = 1 := get_set_of_lt _ _ (by decide) (by decide)

theorem spiBegin_state : s.spiBegin.get F.NVM_BOOT_STAT_SPI_STATE = 1 := by
  rw [spiBegin, get_set_field _ F.NVM_BOOT_STAT_BOOT_BUSY F.NVM_BOOT_STAT_SPI_STATE _ _ _ (by decide) (by decide), get_set_of_lt _ _ (by decide) (by decide)]

theorem spiBegin_err : s.spiBegin.get F.NVM_BOOT_STAT_SPI_ERR = 0 := by
  rw [spiBegin, get_set_field _ F.NVM_BOOT_STAT_BOOT_BUSY F.NVM_BOOT_STAT_SPI_ERR _ _ _ (by decide) (by decide),
    get_set_field _ F.NVM_BOOT_STAT_SPI_STATE F.NVM_BOOT_STAT_SPI_ERR _ _ _ (by decide) (by decide),
    get_set_field _ F.NVM_BOOT_STAT_SKIPPED F.NVM_BOOT_STAT_SPI_ERR _ _ _ (by decide) (by decide), get_set_of_lt _ _ (by decide) (by decide)]

theorem spiBegin_fail : s.spiBegin.get F.NVM_BOOT_STAT_DDR_FAIL = s.get F.NVM_BOOT_STAT_DDR_FAIL := by
  rw [spiBegin, get_set_field _ F.NVM_BOOT_STAT_BOOT_BUSY F.NVM_BOOT_STAT_DDR_FAIL _ _ _ (by decide) (by decide),
    get_set_field _ F.NVM_BOOT_STAT_SPI_STATE F.NVM_BOOT_STAT_DDR_FAIL _ _ _ (by decide) (by decide),
    get_set_field _ F.NVM_BOOT_STAT_SKIPPED F.NVM_BOOT_STAT_DDR_FAIL _ _ _ (by decide) (by decide),
    get_set_field _ F.NVM_BOOT_STAT_SPI_ERR F.NVM_BOOT_STAT_DDR_FAIL _ _ _ (by decide) (by decide)]
  exact congrArg (fun w : Word => bitsOf w.toNat _ _) (getK_putK_ne s _ _ _ (by decide))

end Spi

/-! ### The DDR4's training (R474) -/

section Training

variable {s : State} {mib : Fin 131072}

/-- The training has found the installed memory. -/
def ddrFound (s : State) (mib : Nat) : State := (s.set F.RM_MEM_INST_MIB [] mib).set F.NVM_BOOT_STAT_DDR_DONE [] 1

theorem ddrFound_only (s : State) (mib : Nat) : RegsOnly [Reg.key .RM_MEM_INST [], Reg.key .NVM_BOOT_STAT []] s (s.ddrFound mib) :=
  ((RegsOnly.refl _ s).set F.RM_MEM_INST_MIB [] mib (by decide)).set F.NVM_BOOT_STAT_DDR_DONE [] 1 (by decide)

theorem ddrFound_mib (s : State) (mib : Fin 131072) : (s.ddrFound mib).get F.RM_MEM_INST_MIB = mib := by
  rw [ddrFound, get_set_key _ F.NVM_BOOT_STAT_DDR_DONE _ _ _ _ (by decide), get_set_of_lt _ _ (by decide) mib.isLt]

theorem ddrFound_done (s : State) (mib : Nat) : (s.ddrFound mib).get F.NVM_BOOT_STAT_DDR_DONE = 1 := get_set_of_lt _ _ (by decide) (by decide)

theorem ddrFound_boot (s : State) (mib : Nat) : (s.ddrFound mib).boot = s.boot := by rw [ddrFound, set_boot, set_boot]

theorem exec_ddrTrainingDone_rests (hruns : s.stile.fieldRuns = true) (hboot : s.boot.boot = 0) :
    exec (.ddrTrainingDone true mib) s = .next (s.ddrFound mib) := by
  refine congrArg Host.Outcome.next ((if_pos hruns).trans ?_)
  rw [ddrDone, if_pos rfl]
  exact if_pos ((congrArg Boot.boot (s.ddrFound_boot mib)).trans hboot)

/-- The training has failed and the SPI NOR boot begins. -/
def ddrLost (s : State) : State := (s.set F.NVM_BOOT_STAT_DDR_FAIL [] 1).spiBegin

theorem ddrLost_only (s : State) : RegsOnly [Reg.key .NVM_BOOT_CMT [], Reg.key .NVM_BOOT_STAT []] s s.ddrLost :=
  ((RegsOnly.refl _ s).set F.NVM_BOOT_STAT_DDR_FAIL [] 1 (by decide)).trans (spiBegin_only _)

theorem ddrLost_fail (s : State) : s.ddrLost.get F.NVM_BOOT_STAT_DDR_FAIL = 1 := by
  rw [ddrLost, spiBegin_fail, get_set_of_lt _ _ (by decide) (by decide)]

theorem exec_ddrTrainingDone_boots (hruns : s.stile.fieldRuns = true) (hboot : s.boot.boot ≠ 0) :
    exec (.ddrTrainingDone false mib) s = .next s.ddrLost := by
  refine congrArg Host.Outcome.next ((if_pos hruns).trans ?_)
  rw [ddrDone, if_neg Bool.false_ne_true]
  exact if_neg hboot

end Training

/-! ### What the SPI NOR holds (R477) -/

section SpiDone

variable {s : State} {header image : List Byte}

theorem exec_spiNorBootDone (h : s.get F.NVM_BOOT_STAT_SPI_STATE = 1) (header image script : List Byte) :
    exec (.spiNorBootDone header image script) s = .next (s.spiDone header image script) := congrArg Host.Outcome.next (if_pos h)

theorem spiDone_of_bad (h : bootHeaderBad (padTo 32 header) = true) (image script : List Byte) :
    s.spiDone header image script = s.spiEnd (if s.boot.boot = 2 then 0 else 3) (if s.boot.boot = 2 then 0 else 0x20) := by
  rw [spiDone]
  refine (if_pos h).trans ?_
  split <;> rfl

theorem padTo_of_length {n : Nat} {b : List Byte} (h : b.length = n) : padTo n b = b := by
  subst h
  simp [padTo]

/-- An image that loads, without a script or a commit, ends the boot with its regions granted to the session. -/
theorem spiDone_of_image (hlen : header.length = 32) (hgood : bootHeaderBad header = false) (hscript : fieldAt header 16 4 = 0)
    (hcommit : fieldAt header 7 1 = 0) (himage : fieldAt header 8 4 + fieldAt image 12 4 ≤ 2 ^ 24) (hplace : fieldAt header 12 4 ≤ 2 ^ 24)
    (hsize : image.length = fieldAt image 12 4) (hok : s.imageErr (Fin.ofNat 16 (fieldAt header 6 1)) image (fieldAt image 12 4) true = none) :
    s.spiDone header image [] = ((s.runLoad (Fin.ofNat 16 (fieldAt header 6 1)) image (fieldAt image 12 4) true).2.grantRegions
      (Fin.ofNat 16 (fieldAt header 6 1)) (fieldAt image 8 2)).spiEnd 2 0 := by
  rw [spiDone]
  dsimp only
  rw [padTo_of_length hlen, padTo_of_length hsize, hscript, hcommit, hok, if_neg (by rw [hgood]; decide), if_neg (by omega)]
  rfl

end SpiDone

end State

end Sys2Proof.Machine
end

section

-- One declaration at a time: the whole text's check stays within its memory.
set_option Elab.async false

/-! What the resets of either die leave (R425, R471, R472). -/

namespace Sys2Proof.Machine

namespace State

/-! ### The registers of one die -/

theorem smGet_dieRegs_other {α : Type} (d : α) (m : SMap α) {host : Bool} {k : Nat} (h : keyOnHost k ≠ host) : smGet d (dieRegs host m) k = d := by
  refine smGet_of_not_mem _ _ _ (fun p hp e => h ?_)
  have hside := (List.mem_filter.mp hp).2
  rw [e] at hside
  exact beq_iff_eq.mp hside

theorem smGet_dieRegs_same {α : Type} (d : α) (m : SMap α) {host : Bool} {k : Nat} (h : keyOnHost k = host) :
    smGet d (dieRegs host m) k = smGet d m k := by
  induction m with
  | nil => rfl
  | cons p m ih =>
    obtain ⟨j, v⟩ := p
    by_cases hj : keyOnHost j = host
    · have hcons : dieRegs host ((j, v) :: m) = (j, v) :: dieRegs host m := List.filter_cons_of_pos (beq_iff_eq.mpr hj)
      rw [hcons, smGet, smGet, ih]
    · have hcons : dieRegs host ((j, v) :: m) = dieRegs host m := List.filter_cons_of_neg (fun e => hj (beq_iff_eq.mp e))
      have hne : k ≠ j := fun e => hj (e ▸ h)
      rw [hcons, ih, smGet, if_neg hne]

/-! ### The host die (R472) -/

section HostDie

variable {s : State}

theorem dropRingCommits_of_none (h : (s.commit.pin.bind (fun (j : PinJob) => j.ring)) = none) : s.dropRingCommits = s.modCommit (fun e => { e with
    pends := e.pends.filter (fun p => p.ring.isNone), wait := e.wait.filter (fun w => w.ring.isNone) }) := by
  rw [dropRingCommits, h]
  rfl

theorem readHostNvm_eq (s : State) : ∃ v copy a b l, s.readHostNvm =
    (s.set F.NVM_H_STAT_VALID [] v).modBoot (fun y => { y with copyH := copy, ssvid := a, ssid := b, link := l }) := by
  delta readHostNvm
  dsimp only
  generalize nvmChoose _ _ _ _ = c
  cases c <;> exact ⟨_, _, _, _, _, rfl⟩

/-- What a reset of the host die leaves, its supply apart and NVM_H_STAT, which the NVM's reading shows. -/
structure HostCleared (s t : State) : Prop where
  host : t.host = State.reset.host
  cleared : ∀ k : Nat, keyOnHost k = true → k ≠ Reg.key .NVM_H_STAT [] → t.getK k = resetVal k ∧ t.freshK k = 0
  field : ∀ k : Nat, keyOnHost k = false → t.getK k = s.getK k ∧ t.freshK k = s.freshK k
  stageH : t.boot.stageH = []
  mem : memSame s t
  slices : t.slices = s.slices
  aos : t.aos = s.aos
  sess : t.sess = s.sess
  cores : t.cores = s.cores
  tb : t.tb = s.tb

theorem HostCleared.readHostNvm {t : State} (h : HostCleared s t) : HostCleared s t.readHostNvm := by
  obtain ⟨v, copy, a, b, l, e⟩ := t.readHostNvm_eq
  have hkey : keyOnHost (Reg.key .NVM_H_STAT []) = true := by decide
  rw [e]
  refine ⟨h.host, fun k hk hne => ⟨?_, (h.cleared k hk hne).2⟩, fun k hk => ⟨?_, (h.field k hk).2⟩, h.stageH, h.mem, h.slices, h.aos, h.sess,
    h.cores, h.tb⟩
  · exact (getK_set_ne _ F.NVM_H_STAT_VALID _ _ _ hne).trans (h.cleared k hk hne).1
  · exact (getK_set_ne _ F.NVM_H_STAT_VALID _ _ _ (by rintro rfl; exact Bool.false_ne_true (hk.symm.trans hkey))).trans (h.field k hk).1

theorem readHostNvm_hostOn (t : State) : t.readHostNvm.boot.hostOn = t.boot.hostOn := by
  obtain ⟨v, copy, a, b, l, e⟩ := t.readHostNvm_eq
  rw [e, modBoot_boot, set_boot]

theorem hostReset_hostOn (h : (s.commit.pin.bind (fun (j : PinJob) => j.ring)) = none) : s.hostReset.boot.hostOn = s.boot.hostOn := by
  rw [hostReset, dropRingCommits_of_none h, readHostNvm_hostOn]
  rfl

theorem hostReset_cleared (h : (s.commit.pin.bind (fun (j : PinJob) => j.ring)) = none) : HostCleared s s.hostReset := by
  rw [hostReset, dropRingCommits_of_none h]
  refine HostCleared.readHostNvm ⟨rfl, fun k hk _ => ⟨?_, ?_⟩, fun k hk => ⟨?_, ?_⟩, rfl, memSame_refl s, rfl, rfl, rfl, rfl, rfl⟩
  · exact smGet_dieRegs_other _ _ (by rw [hk]; decide)
  · exact smGet_dieRegs_other _ _ (by rw [hk]; decide)
  · exact smGet_dieRegs_same _ _ hk
  · exact smGet_dieRegs_same _ _ hk

end HostDie

/-! ### The field die (R471) -/

section FieldDie

variable {s : State}

theorem fieldLeave_down {st : Nat} (h : s.get F.ST_STATUS_FIELD ≠ 3) : s.fieldLeave st = s.set F.ST_STATUS_FIELD [] st := by
  rw [fieldLeave]
  exact if_neg (fun e => h (beq_iff_eq.mp e))

theorem dropCommits_idle (h : s.commit = ⟨none, [], []⟩) : ∃ regs, s.dropCommits = { s with regs := regs } := by
  obtain ⟨regs, tb, slices, cores, cs, sess, host, aos, fws, trigs, masks, inputs, meas, gleaners, drained, cal, flt, commit, rest⟩ := s
  subst h
  exact ⟨_, rfl⟩

/-- What a field reset finds: the commits are dropped, and FIELD shows the reset. -/
theorem fieldDropped_eq (hdown : s.get F.ST_STATUS_FIELD ≠ 3) (h : s.commit = ⟨none, [], []⟩) :
    ∃ regs, (s.fieldLeave 0).dropCommits = { s with regs := regs } := by
  rw [fieldLeave_down hdown]
  obtain ⟨regs, e⟩ := dropCommits_idle (s := s.set F.ST_STATUS_FIELD [] 0) h
  exact ⟨regs, e⟩

/-- What a reset of the field die leaves; the supplies apart. -/
structure FieldCleared (s t : State) : Prop where
  runs : t.stile.fieldRuns = false
  slices : t.slices = State.reset.slices
  aos : ∀ o : Fin 16, t.aos[o] = { State.reset.aos[o] with table := s.aos[o].table }
  fws : ∀ g : Fin 4, t.fws[g] = { State.reset.fws[g] with table := s.fws[g].table }
  sess : t.sess = State.reset.sess
  host : t.host = s.host
  mem : memSame s t
  regs : ∀ k : Nat, keyOnHost k = false → k ≠ 0x78000 → t.getK k = resetVal k

theorem FieldCleared.modBoot {t : State} (h : FieldCleared s t) (f : Boot → Boot) : FieldCleared s (t.modBoot f) :=
  ⟨h.runs, h.slices, h.aos, h.fws, h.sess, h.host, h.mem, h.regs⟩

theorem fieldReset_cleared (hdown : s.get F.ST_STATUS_FIELD ≠ 3) (h : s.commit = ⟨none, [], []⟩) :
    FieldCleared s s.fieldReset ∧ s.fieldReset.boot.fieldOn = s.boot.fieldOn := by
  obtain ⟨regs, e⟩ := fieldDropped_eq hdown h
  rw [fieldReset, e]
  refine ⟨⟨rfl, rfl, fun o => ?_, fun g => ?_, rfl, rfl, memSame_refl s, fun k hk hne => ?_⟩, rfl⟩
  · exact Vector.getElem_ofFn _
  · exact Vector.getElem_ofFn _
  · exact (smGet_set_ne _ _ _ _ _ _ hne).trans (smGet_dieRegs_other _ _ (by rw [hk]; decide))

end FieldDie

end State

end Sys2Proof.Machine
end

section

-- One declaration at a time: the whole text's check stays within its memory.
set_option Elab.async false

/-! The field side's boot: what the configuration's copy brings (R119, R310, R473). -/

namespace Sys2Proof.Machine

namespace State

/-! ### What no step of the boot touches -/

theorem memSame_trans {s t u : State} (h : memSame s t) (g : memSame t u) : memSame s u := by
  intro a
  obtain ⟨h1, h2, h3, h4⟩ := h a
  obtain ⟨g1, g2, g3, g4⟩ := g a
  exact ⟨g1.trans h1, g2.trans h2, g3.trans h3, g4.trans h4⟩

/-- The memories, the Stile, the host, the cores and the sessions are in `t` as in `s`. -/
structure Rests (s t : State) : Prop where
  stile : t.stile = s.stile
  mem : memSame s t
  host : t.host = s.host
  cores : t.cores = s.cores
  sess : t.sess = s.sess

namespace Rests

variable {s t u : State}

theorem refl (s : State) : Rests s s := ⟨rfl, memSame_refl s, rfl, rfl, rfl⟩

theorem trans (h : Rests s t) (g : Rests t u) : Rests s u :=
  ⟨g.stile.trans h.stile, memSame_trans h.mem g.mem, g.host.trans h.host, g.cores.trans h.cores, g.sess.trans h.sess⟩

theorem ofRegs (s : State) (regs : Regs) : Rests s { s with regs := regs } := ⟨rfl, fun _ => ⟨rfl, rfl, rfl, rfl⟩, rfl, rfl, rfl⟩

theorem set (s : State) (f : Fld) (ix : List Nat) (v : Nat) : Rests s (s.set f ix v) := ofRegs s _

theorem putBoth (s : State) (f : Fld) (ix : List Nat) (v : Nat) : Rests s (s.putBoth f ix v) := ofRegs s _

theorem modSlice (s : State) (n : Fin 12) (f : Slice → Slice) : Rests s (s.modSlice n f) := ⟨rfl, fun _ => ⟨rfl, rfl, rfl, rfl⟩, rfl, rfl, rfl⟩

theorem modAo (s : State) (o : Fin 16) (f : Ao → Ao) : Rests s (s.modAo o f) := ⟨rfl, fun _ => ⟨rfl, rfl, rfl, rfl⟩, rfl, rfl, rfl⟩

theorem modBoot (s : State) (f : Boot → Boot) : Rests s (s.modBoot f) := ⟨rfl, fun _ => ⟨rfl, rfl, rfl, rfl⟩, rfl, rfl, rfl⟩

theorem modNet (s : State) (f : Net → Net) : Rests s (s.modNet f) := ⟨rfl, fun _ => ⟨rfl, rfl, rfl, rfl⟩, rfl, rfl, rfl⟩

end Rests

/-- A step that applies entries: it rests on what `Rests` names and shows nothing in the main copies. -/
structure Applied (s t : State) : Prop extends Rests s t where
  main : t.regs.main = s.regs.main

namespace Applied

variable {s t u : State}

theorem refl (s : State) : Applied s s := ⟨Rests.refl s, rfl⟩

theorem trans (h : Applied s t) (g : Applied t u) : Applied s u := ⟨h.toRests.trans g.toRests, g.main.trans h.main⟩

theorem putBoth (s : State) (f : Fld) (ix : List Nat) (v : Nat) : Applied s (s.putBoth f ix v) := ⟨Rests.putBoth s f ix v, rfl⟩

theorem modSlice (s : State) (n : Fin 12) (f : Slice → Slice) : Applied s (s.modSlice n f) := ⟨Rests.modSlice s n f, rfl⟩

theorem modAo (s : State) (o : Fin 16) (f : Ao → Ao) : Applied s (s.modAo o f) := ⟨Rests.modAo s o f, rfl⟩

theorem get (h : Applied s t) (f : Fld) (ix : List Nat) : t.get f ix = s.get f ix := by
  rw [State.get, State.get, getK, getK, h.main]

end Applied

/-! ### A lane's entry (R119) -/

theorem key_laneCfg (n l : Nat) : Reg.key .CH_LANE_CFG [n, l] = 0x20500 + 0x2000 * n + 0x20 * l := by
  simp [Reg.key, Reg.row, RowOf.CH_LANE_CFG, Nat.add_assoc]

theorem key_sliceCfg (n : Nat) : Reg.key .CH_SLICE_CFG [n] = 0x20400 + 0x2000 * n := by simp [Reg.key, Reg.row, RowOf.CH_SLICE_CFG]

theorem key_laneCfg_ne {n m : Fin 12} {l j : Fin 8} (h : (m, j) ≠ (n, l)) : Reg.key .CH_LANE_CFG [m, j] ≠ Reg.key .CH_LANE_CFG [n, l] := by
  rw [key_laneCfg, key_laneCfg]
  intro e
  have hm : m = n := Fin.ext (by omega)
  have hj : j = l := Fin.ext (by omega)
  exact h (Prod.ext hm hj)

theorem key_laneCfg_ne_sliceCfg (n m : Fin 12) (l : Fin 8) : Reg.key .CH_LANE_CFG [m, l] ≠ Reg.key .CH_SLICE_CFG [n] := by
  rw [key_laneCfg, key_sliceCfg]
  omega

theorem laneKeep_power (l : Lane) (t : Nat) (on : Bool) : (laneKeep l t on).power = l.power := by
  rw [laneKeep]
  split <;> rfl

/-- The power-up state and the mode of a lane, as they are in force. -/
def laneEntry (s : State) (n : Fin 12) (l : Fin 8) : Nat × Nat := ((s.lane n l).power, s.act F.CH_LANE_CFG_MODE [n, l])

theorem lane_putBoth (s : State) (f : Fld) (ix : List Nat) (v : Nat) (n : Fin 12) (l : Fin 8) : (s.putBoth f ix v).lane n l = s.lane n l := rfl

section BootLane

variable (s : State) (n : Fin 12) (l : Fin 8) (code mode : Nat)

theorem keepLanes_power (m : Fin 12) (j : Fin 8) : ((s.keepLanes n).lane m j).power = (s.lane m j).power := by
  by_cases h : m = n
  · subst h
    rw [lane_keepLanes, laneKeep_power]
  · rw [lane_of_lanes (s := s) (t := s.keepLanes n) (by rw [keepLanes, mapLanes, modSlice_ne s n m _ (Ne.symm h)])]

theorem keepLanes_act (f : Fld) (ix : List Nat) : (s.keepLanes n).act f ix = s.act f ix := (s.ballsOnly_keepLanes n).act f ix

theorem applied_keepLanes : Applied s (s.keepLanes n) := by
  rw [keepLanes, mapLanes]
  exact Applied.modSlice s n _

theorem applied_bootLane : Applied s (s.bootLane n l code mode) :=
  ((Applied.putBoth s _ _ _).trans (Applied.modSlice _ n _)).trans (applied_keepLanes _ n)

theorem laneEntry_bootLane (h : mode < 4) : (s.bootLane n l code mode).laneEntry n l = (code, mode) := by
  rw [laneEntry, bootLane, keepLanes_power, lane_modLane, keepLanes_act, modLane_act, act_putBoth_self _ _ _ _ (by decide)]
  exact congrArg (Prod.mk code) (Nat.mod_eq_of_lt h)

theorem laneEntry_bootLane_ne {m : Fin 12} {j : Fin 8} (h : (m, j) ≠ (n, l)) : (s.bootLane n l code mode).laneEntry m j = s.laneEntry m j := by
  rw [laneEntry, bootLane, keepLanes_power, lane_modLane_ne _ n l _ h, keepLanes_act, modLane_act, act_putBoth_ne _ _ _ _ (key_laneCfg_ne h), lane_putBoth,
    laneEntry]

end BootLane

/-! ### The slices' entries (R119, R481) -/

/-- The lanes' entries of a slice are applied. -/
def bootLanes (ok : Bool) (d : List Byte) (n : Fin 12) (s : State) : State :=
  overLanes (fun l s => s.bootLane n l ((if ok then fieldAt d (0x40 + 8 * n + l) 1 else 6) % 4) ((if ok then fieldAt d (0x40 + 8 * n + l) 1 else 6) / 4 % 4)) s

/-- A slice's own entry is applied. -/
def bootSlice (ok : Bool) (d : List Byte) (n : Fin 12) (s : State) : State :=
  (s.putBoth F.CH_SLICE_CFG_BANK [n] ((if ok then fieldAt d (0x20 + n) 1 else 0) % 2)).putBoth F.CH_SLICE_CFG_VIO_CLASS [n]
    ((if ok then fieldAt d (0x20 + n) 1 else 0) / 2 % 8)

/-- Every slice's entries are applied. -/
def bootSlices (ok : Bool) (d : List Byte) (s : State) : State := s.overSlices (fun n s => bootLanes ok d n (bootSlice ok d n s))

section BootSlices

variable (ok : Bool) (d : List Byte) (s : State) (n : Fin 12)

theorem applied_bootSlice : Applied s (bootSlice ok d n s) := (Applied.putBoth s _ _ _).trans (Applied.putBoth _ _ _ _)

theorem laneEntry_bootSlice (m : Fin 12) (l : Fin 8) : (bootSlice ok d n s).laneEntry m l = s.laneEntry m l := by
  have hkey := key_laneCfg_ne_sliceCfg n m l
  rw [laneEntry, bootSlice, act_putBoth_ne _ _ _ _ hkey, act_putBoth_ne _ _ _ _ hkey, lane_putBoth, lane_putBoth, laneEntry]

theorem bootLanes_spec : Applied s (bootLanes ok d n s) ∧ ∀ l : Fin 8, (bootLanes ok d n s).laneEntry n l =
    ((if ok then fieldAt d (0x40 + 8 * n + l) 1 else 6) % 4, (if ok then fieldAt d (0x40 + 8 * n + l) 1 else 6) / 4 % 4) :=
  foldl_finRange (R := fun u => Applied s u) (v := fun u (l : Fin 8) => u.laneEntry n l)
    (P := fun l _ y => y = ((if ok then fieldAt d (0x40 + 8 * n + l) 1 else 6) % 4, (if ok then fieldAt d (0x40 + 8 * n + l) 1 else 6) / 4 % 4))
    (fun u l hu => hu.trans (u.applied_bootLane n l _ _)) (fun u l _ => u.laneEntry_bootLane n l _ _ (by omega))
    (fun u l j _ hj => u.laneEntry_bootLane_ne n l _ _ (fun e => hj (congrArg Prod.snd e))) s (Applied.refl s)

theorem laneEntry_bootLanes_ne {m : Fin 12} (h : m ≠ n) (j : Fin 8) : (bootLanes ok d n s).laneEntry m j = s.laneEntry m j := by
  rw [bootLanes, overLanes]
  exact foldl_keeps (R := fun u => u.laneEntry m j = s.laneEntry m j)
    (fun u l hu => (u.laneEntry_bootLane_ne n l _ _ (fun e => h (congrArg Prod.fst e))).trans hu) (List.finRange 8) s rfl

theorem bootSlices_spec : Applied s (bootSlices ok d s) ∧ ∀ (n : Fin 12) (l : Fin 8), (bootSlices ok d s).laneEntry n l =
    ((if ok then fieldAt d (0x40 + 8 * n + l) 1 else 6) % 4, (if ok then fieldAt d (0x40 + 8 * n + l) 1 else 6) / 4 % 4) :=
  foldl_finRange (R := fun u => Applied s u) (v := fun u (n : Fin 12) => u.laneEntry n)
    (P := fun n _ y => ∀ l : Fin 8, y l =
      ((if ok then fieldAt d (0x40 + 8 * n + l) 1 else 6) % 4, (if ok then fieldAt d (0x40 + 8 * n + l) 1 else 6) / 4 % 4))
    (f := fun u n => bootLanes ok d n (bootSlice ok d n u))
    (fun u n hu => (hu.trans (applied_bootSlice ok d u n)).trans (bootLanes_spec ok d _ n).1) (fun u n _ => (bootLanes_spec ok d _ n).2)
    (fun u n m _ hm => funext fun j => (laneEntry_bootLanes_ne ok d _ n hm j).trans (laneEntry_bootSlice ok d u n m j)) s (Applied.refl s)

end BootSlices

/-! ### The outputs' entries (R310) -/

/-- Every output's entry is applied. -/
def bootOutputs (ok : Bool) (d : List Byte) (s : State) : State := s.overOutputs (fun o s =>
  s.bootOutput o (if ok then some (fieldAt d (0xA0 + 8 * o) 1 % 8, signedOf (fieldAt d (0xA4 + 8 * o) 4) 32) else none))

section BootOutputs

variable (ok : Bool) (d : List Byte) (s : State)

theorem key_aoCfg (o : Nat) : Reg.key .AO_CFG [o] = 0x58000 + 0x80 * o := by simp [Reg.key, Reg.row, RowOf.AO_CFG]

theorem key_laneCfg_ne_aoCfg (n : Fin 12) (l : Fin 8) (o : Fin 16) : Reg.key .CH_LANE_CFG [n, l] ≠ Reg.key .AO_CFG [o] := by
  rw [key_laneCfg, key_aoCfg]
  omega

theorem bootOutput_keeps (o : Fin 16) (e : Option (Nat × Int)) : Applied s (s.bootOutput o e) ∧
    ∀ (n : Fin 12) (l : Fin 8), (s.bootOutput o e).laneEntry n l = s.laneEntry n l := by
  cases e with
  | none =>
    rw [bootOutput]
    exact ⟨Applied.modAo s o _, fun n l => rfl⟩
  | some e =>
    rw [bootOutput]
    refine ⟨(Applied.putBoth s _ _ _).trans (Applied.modAo _ o _), fun n l => ?_⟩
    exact congrArg (Prod.mk (s.lane n l).power) (act_putBoth_ne s F.AO_CFG_SPAN [o] _ (key_laneCfg_ne_aoCfg n l o))

theorem bootOutputs_keeps : Applied s (bootOutputs ok d s) ∧ ∀ (n : Fin 12) (l : Fin 8), (bootOutputs ok d s).laneEntry n l = s.laneEntry n l :=
  foldl_keeps (R := fun u => Applied s u ∧ ∀ (n : Fin 12) (l : Fin 8), u.laneEntry n l = s.laneEntry n l)
    (fun u o hu => ⟨hu.1.trans (u.bootOutput_keeps o _).1, fun n l => ((u.bootOutput_keeps o _).2 n l).trans (hu.2 n l)⟩) _ s ⟨Applied.refl s, fun _ _ => rfl⟩

theorem bootOutput_off (o : Fin 16) : (s.bootOutput o none).aos[o].clamped = true ∧ (s.bootOutput o none).aos[o].park = none := by
  rw [bootOutput, modAo_self]
  exact ⟨rfl, rfl⟩

theorem bootOutputs_off (o : Fin 16) : (bootOutputs false d s).aos[o].clamped = true ∧ (bootOutputs false d s).aos[o].park = none :=
  (foldl_finRange (R := fun _ : State => True) (v := fun u (o : Fin 16) => u.aos[o]) (P := fun _ _ y => y.clamped = true ∧ y.park = none)
    (f := fun u o => u.bootOutput o none) (fun _ _ _ => trivial) (fun u o _ => u.bootOutput_off o)
    (fun u o m _ hm => modAo_ne u o m _ (Ne.symm hm)) s trivial).2 o

end BootOutputs

end State

end Sys2Proof.Machine
end

section

-- One declaration at a time: the whole text's check stays within its memory.
set_option Elab.async false

/-! The field side's boot: its banks, its units and its ports (R104, R343, R473). -/

namespace Sys2Proof.Machine

namespace State

/-! ### The copy in use (R481) -/

theorem nvmChoose_isSome (okA okB : Bool) (a b : Nat) : (nvmChoose okA okB a b).isSome = (okA || okB) := by cases okA <;> cases okB <;> rfl

/-- The configuration's copy that a boot takes. -/
def bootChoice (s : State) : Option Bool :=
  nvmChoose (cfgOk (s.cfgBytes false)) (cfgOk (s.cfgBytes true)) (fieldAt (s.cfgBytes false) 8 4) (fieldAt (s.cfgBytes true) 8 4)

/-- What NVM_F_STAT and NVM_F_COUNT show of it. -/
def cfgShown (s : State) : State :=
  ((s.set F.NVM_F_STAT_CFG_OK [] s.bootChoice.isSome.toNat).set F.NVM_F_STAT_CFG_COPY [] (s.bootChoice.getD false).toNat).set F.NVM_F_COUNT_WRITE_COUNT []
    (if s.bootChoice.isSome then fieldAt (s.cfgBytes (s.bootChoice.getD false)) 8 4 else 0)

/-- The role and the kind of boot, and the serial number. -/
def bootRole (ok : Bool) (d : List Byte) (s : State) : State :=
  (((s.set F.TL_ROLE_ROLE [] (if ok && bitOf (fieldAt d 0x10 1) 7 then fieldAt d 0x10 1 % 4 else s.net.strap)).set F.TL_ROLE_FROM_NVM []
    (ok && bitOf (fieldAt d 0x10 1) 7).toNat).modBoot (fun x => { x with boot := if ok then fieldAt d 0x11 1 % 4 else 0 })).modNet
      (fun n => { n with serial := Config.nvmContent 0 0 % 2 ^ 64 })

theorem bootNvm_eq (s : State) : s.bootNvm = bootRole s.bootChoice.isSome (s.cfgBytes (s.bootChoice.getD false))
    (bootOutputs s.bootChoice.isSome (s.cfgBytes (s.bootChoice.getD false)) (bootSlices s.bootChoice.isSome (s.cfgBytes (s.bootChoice.getD false)) s.cfgShown)) := rfl

section BootNvm

variable (s : State)

theorem rests_cfgShown : Rests s s.cfgShown := ((Rests.set s _ _ _).trans (Rests.set _ _ _ _)).trans (Rests.set _ _ _ _)

theorem rests_bootRole (ok : Bool) (d : List Byte) : Rests s (bootRole ok d s) :=
  (((Rests.set s _ _ _).trans (Rests.set _ _ _ _)).trans (Rests.modBoot _ _)).trans (Rests.modNet _ _)

theorem rests_bootNvm : Rests s s.bootNvm := by
  rw [bootNvm_eq]
  exact ((s.rests_cfgShown.trans (bootSlices_spec _ _ _).1.toRests).trans (bootOutputs_keeps _ _ _).1.toRests).trans (rests_bootRole _ _ _)

theorem get_bootRole (ok : Bool) (d : List Byte) {f : Fld} {ix : List Nat} (h : f.reg.key ix ≠ Reg.key .TL_ROLE []) :
    (bootRole ok d s).get f ix = s.get f ix := by
  rw [bootRole, modNet_get, modBoot_get, get_set_key _ F.TL_ROLE_FROM_NVM _ _ _ _ h, get_set_key _ F.TL_ROLE_ROLE _ _ _ _ h]

theorem cfgShown_ok : s.cfgShown.get F.NVM_F_STAT_CFG_OK = (cfgOk (s.cfgBytes false) || cfgOk (s.cfgBytes true)).toNat := by
  rw [cfgShown, get_set_key _ F.NVM_F_COUNT_WRITE_COUNT _ _ _ _ (by decide),
    get_set_field _ F.NVM_F_STAT_CFG_COPY F.NVM_F_STAT_CFG_OK _ _ _ (by decide) (by decide), get_set_of_lt _ _ (by decide) (Bool.toNat_lt _), bootChoice,
    nvmChoose_isSome]

theorem bootNvm_ok : s.bootNvm.get F.NVM_F_STAT_CFG_OK = (cfgOk (s.cfgBytes false) || cfgOk (s.cfgBytes true)).toNat := by
  rw [bootNvm_eq, get_bootRole _ _ _ (by decide), (bootOutputs_keeps _ _ _).1.get, (bootSlices_spec _ _ _).1.get, cfgShown_ok]

theorem bootRole_aos (ok : Bool) (d : List Byte) : (bootRole ok d s).aos = s.aos := rfl

theorem laneEntry_bootRole (ok : Bool) (d : List Byte) (n : Fin 12) (l : Fin 8) : (bootRole ok d s).laneEntry n l = s.laneEntry n l := rfl

theorem bootNvm_lanes (ha : cfgOk (s.cfgBytes false) = true) (hb : cfgOk (s.cfgBytes true) = false) (n : Fin 12) (l : Fin 8) : s.bootNvm.laneEntry n l =
    (fieldAt (s.cfgBytes false) (0x40 + 8 * n + l) 1 % 4, fieldAt (s.cfgBytes false) (0x40 + 8 * n + l) 1 / 4 % 4) := by
  have hc : s.bootChoice = some false := by rw [bootChoice, ha, hb]; rfl
  rw [bootNvm_eq, laneEntry_bootRole, (bootOutputs_keeps _ _ _).2, (bootSlices_spec _ _ _).2, hc]
  rfl

theorem bootNvm_outputs (ha : cfgOk (s.cfgBytes false) = false) (hb : cfgOk (s.cfgBytes true) = false) (o : Fin 16) :
    s.bootNvm.aos[o].clamped = true ∧ s.bootNvm.aos[o].park = none := by
  have hc : s.bootChoice = none := by rw [bootChoice, ha, hb]; rfl
  have haos : s.bootNvm.aos = (bootOutputs false (s.cfgBytes false) (bootSlices false (s.cfgBytes false) s.cfgShown)).aos := by
    rw [bootNvm_eq, bootRole_aos, hc, Option.isSome_none, Option.getD_none]
  simp only [haos]
  exact bootOutputs_off _ _ o

end BootNvm

/-! ### The banks (R104) -/

/-- Is the bank as it should be: no slice selects it, or the voltage is in range? -/
def bankFine (s : State) (b : Bool) (mv : Nat) : Bool := !s.bankUsed b || s.bankInRange b mv

/-- The supply monitor has found both banks' voltages. -/
def banksRead (s : State) (mvA mvB : Nat) : State := (s.bankVolts false mvA).bankVolts true mvB

/-- It has judged both. -/
def banksJudged (s : State) (a b : Bool) : State := ((s.setBank false a).setBank true b).set F.FLT_SUPPLY_OK [] (7 + 8 * a.toNat + 16 * b.toNat)

theorem bankFine_of_act {s t : State} (h : ∀ f ix, t.act f ix = s.act f ix) (b : Bool) (mv : Nat) : t.bankFine b mv = s.bankFine b mv := by
  have hbank : ∀ n, t.sliceBank n = s.sliceBank n := fun n => by rw [sliceBank, sliceBank, h]
  have hused : t.bankUsed b = s.bankUsed b := by simp only [bankUsed, hbank]
  have hclass : t.bankClass b = s.bankClass b := by simp only [bankClass, hbank, h]
  rw [bankFine, bankFine, hused, bankInRange, bankInRange, hclass]

theorem BallsOnly.rests {ks : List Nat} {s t : State} (h : BallsOnly ks s t) : Rests s t ∧ t.aos = s.aos ∧ t.boot = s.boot := by
  obtain ⟨_, _, _, e⟩ := h.frame
  rw [e]
  exact ⟨⟨rfl, fun _ => ⟨rfl, rfl, rfl, rfl⟩, rfl, rfl, rfl⟩, rfl, rfl⟩

section Banks

variable (s : State)

theorem rests_banksRead (mvA mvB : Nat) : Rests s (s.banksRead mvA mvB) := ⟨rfl, fun _ => ⟨rfl, rfl, rfl, rfl⟩, rfl, rfl, rfl⟩

theorem banksRead_bankMv (mvA mvB : Nat) : (s.banksRead mvA mvB).boot.bankMv = #v[mvA, mvB] := by
  change (s.boot.bankMv.set 0 mvA).set 1 mvB = _
  refine Vector.ext (fun i hi => ?_)
  match i with
  | 0 => simp
  | 1 => simp

variable (a b : Bool)

theorem banksJudged_balls : BallsOnly (Reg.key .FLT_SUPPLY [] :: bankKeys) s (s.banksJudged a b) := by
  have hbank : ∀ k ∈ bankKeys, k ∈ Reg.key .FLT_SUPPLY [] :: bankKeys := fun _ h => List.mem_cons_of_mem _ h
  exact (((s.setBank_spec false a).1.mono hbank).trans (((s.setBank false a).setBank_spec true b).1.mono hbank)).trans
    (ballsOnly_set _ F.FLT_SUPPLY_OK [] _ List.mem_cons_self)

theorem banksJudged_banks (n : Fin 12) : (s.banksJudged a b).get F.CH_BANK_STATUS_VIOA_OK [n] = a.toNat ∧
    (s.banksJudged a b).get F.CH_BANK_STATUS_VIOB_OK [n] = b.toNat := by
  obtain ⟨hset, hother⟩ := ((s.setBank false a).setBank_spec true b).2.1 n
  have hshown := ((s.setBank_spec false a).2.1 n).1
  exact ⟨((get_set_key _ F.FLT_SUPPLY_OK (bankFld false) _ _ _ (key_bankFld_ne_supply false n)).trans hother).trans hshown,
    (get_set_key _ F.FLT_SUPPLY_OK (bankFld true) _ _ _ (key_bankFld_ne_supply true n)).trans hset⟩

theorem banksJudged_supply : (s.banksJudged a b).get F.FLT_SUPPLY_OK = 7 + 8 * a.toNat + 16 * b.toNat :=
  get_set_of_lt _ _ (by decide) (by cases a <;> cases b <;> decide)

theorem laneEntry_banksJudged (n : Fin 12) (l : Fin 8) : (s.banksJudged a b).laneEntry n l = s.laneEntry n l := by
  rw [laneEntry, (s.banksJudged_balls a b).act, banksJudged, lane_set, ((s.setBank false a).setBank_spec true b).2.2, laneKeep_power,
    (s.setBank_spec false a).2.2, laneKeep_power, laneEntry]

end Banks

/-! ### What the calibration and the ports show -/

/-- Only the calibration and main copies of the keys of `K` differ. -/
structure ShownIn (K : Nat → Prop) (s t : State) : Prop where
  frame : ∃ main cal, t = { s with regs := { s.regs with main := main }, cal := cal }
  main : ∀ k, ¬ K k → t.getK k = s.getK k

namespace ShownIn

variable {K : Nat → Prop} {s t u : State}

theorem refl (K : Nat → Prop) (s : State) : ShownIn K s s := ⟨⟨_, _, rfl⟩, fun _ _ => rfl⟩

theorem trans (h : ShownIn K s t) (g : ShownIn K t u) : ShownIn K s u := by
  refine ⟨?_, fun k hk => (g.main k hk).trans (h.main k hk)⟩
  obtain ⟨_, _, e⟩ := h.frame
  obtain ⟨_, _, e'⟩ := g.frame
  exact ⟨_, _, e'.trans (by rw [e])⟩

theorem set (h : ShownIn K s t) {f : Fld} {ix : List Nat} (hk : K (f.reg.key ix)) (v : Nat) : ShownIn K s (t.set f ix v) :=
  h.trans ⟨⟨_, _, rfl⟩, fun _ hj => getK_set_ne _ _ _ _ _ (by rintro rfl; exact hj hk)⟩

theorem modCal (h : ShownIn K s t) (f : Calib → Calib) : ShownIn K s (t.modCal f) := h.trans ⟨⟨_, _, rfl⟩, fun _ _ => rfl⟩

theorem foldl {α : Type} (f : State → α → State) (hf : ∀ s x, ShownIn K s (f s x)) (l : List α) (s : State) : ShownIn K s (l.foldl f s) :=
  foldl_keeps (R := ShownIn K s) (fun u x hu => hu.trans (hf u x)) l s (refl K s)

theorem get (h : ShownIn K s t) {f : Fld} {ix : List Nat} (hk : ¬ K (f.reg.key ix)) : t.get f ix = s.get f ix := by
  rw [State.get, State.get, h.main _ hk]

theorem rests (h : ShownIn K s t) : Rests s t ∧ t.aos = s.aos ∧ t.slices = s.slices ∧ t.boot = s.boot := by
  obtain ⟨_, _, e⟩ := h.frame
  rw [e]
  exact ⟨⟨rfl, fun _ => ⟨rfl, rfl, rfl, rfl⟩, rfl, rfl, rfl⟩, rfl, rfl, rfl⟩

theorem act (h : ShownIn K s t) (f : Fld) (ix : List Nat) : t.act f ix = s.act f ix := by
  obtain ⟨_, _, e⟩ := h.frame
  rw [e]
  rfl

end ShownIn

/-- A key of the calibration or the ports. -/
abbrev unitKey (k : Nat) : Prop := 0x70000 ≤ k ∧ k < 0x79000

theorem unitKey_calUnit (u : Fin 36) : unitKey (Reg.key .CAL_UNIT_STAT [u]) := by
  have h : Reg.key .CAL_UNIT_STAT [u] = 0x70100 + 0x4 * u := by simp [Reg.key, Reg.row, RowOf.CAL_UNIT_STAT]
  rw [h]
  exact ⟨by omega, by omega⟩

theorem unitKey_port (p : Fin 4) : unitKey (Reg.key .TL_PORT_STAT [p]) := by
  have h : Reg.key .TL_PORT_STAT [p] = 0x78104 + 0x40 * p := by simp [Reg.key, Reg.row, RowOf.TL_PORT_STAT]
  rw [h]
  exact ⟨by omega, by omega⟩

theorem shownIn_calDue (s : State) (u : Fin 36) (cause : Nat) : ShownIn unitKey s (s.calDue u cause) := by
  rw [calDue]
  split
  · exact ShownIn.refl _ _
  split
  · exact (ShownIn.refl _ s).modCal _
  · exact ((((ShownIn.refl _ s).modCal _).modCal _).set (unitKey_calUnit u) _).set (f := F.CAL_STATUS_DUE) (ix := []) (by decide) _

/-- A unit takes its constants, and becomes due (R343). -/
def bootUnit (c : Option Bool) (s : State) (u : Fin 36) : State :=
  if calCode u then
    let s := if c.isNone then s.set F.CAL_UNIT_STAT_DEGRADED [u] 1 else s
    let r := (s.calRecord u).getD []
    (s.modCalUnit u (fun x => { x with temp := s.cal.lastTemp, start := (s.now : Int), trims := r })).calDue u 0
  else s

/-- The calibration's copy that a boot takes. -/
def calChoice (s : State) : Option Bool :=
  nvmChoose (s.calCopyOf false).isSome (s.calCopyOf true).isSome ((s.calCopyOf false).elim 0 (·.count)) ((s.calCopyOf true).elim 0 (·.count))

/-- What NVM_F_STAT shows of it. -/
def calShown (s : State) : State :=
  (s.set F.NVM_F_STAT_CAL_OK [] s.calChoice.isSome.toNat).set F.NVM_F_STAT_CAL_COPY [] (s.calChoice.getD false).toNat

theorem bootCal_eq (s : State) : s.bootCal = (List.finRange 36).foldl (bootUnit s.calChoice) s.calShown := rfl

theorem shownIn_bootUnit (c : Option Bool) (s : State) (u : Fin 36) : ShownIn unitKey s (bootUnit c s u) := by
  rw [bootUnit]
  refine iteInduction (fun _ => ?_) (fun _ => ShownIn.refl _ s)
  have hshown : ShownIn unitKey s (if c.isNone then s.set F.CAL_UNIT_STAT_DEGRADED [u] 1 else s) :=
    iteInduction (fun _ => (ShownIn.refl _ s).set (unitKey_calUnit u) 1) (fun _ => ShownIn.refl _ s)
  exact (hshown.modCal _).trans (shownIn_calDue _ u 0)

/-- Every port in use begins to train. -/
def bootPorts (s : State) : State := (List.finRange 4).foldl (fun s (p : Fin 4) => if s.portUsed p then s.set F.TL_PORT_STAT_STATE [p] 1 else s) s

theorem shownIn_bootPorts (s : State) : ShownIn unitKey s s.bootPorts :=
  ShownIn.foldl _ (fun s p => iteInduction (fun _ => (ShownIn.refl _ s).set (unitKey_port p) 1) (fun _ => ShownIn.refl _ s)) _ s

/-- The units' calibration and the ports have begun. -/
def unitsBegun (s : State) : State := (s.bootCal.set F.NVM_BOOT_STAT_NVM_DONE [] 1).bootPorts

/-- A key that the last steps of the boot show in. -/
abbrev lateKey (k : Nat) : Prop := unitKey k ∨ k = Reg.key .NVM_F_STAT [] ∨ k = Reg.key .NVM_BOOT_STAT []

theorem ShownIn.mono {K L : Nat → Prop} {s t : State} (h : ShownIn K s t) (hl : ∀ k, K k → L k) : ShownIn L s t :=
  ⟨h.frame, fun k hk => h.main k (fun hK => hk (hl k hK))⟩

section UnitsBegun

variable (s : State)

theorem shownIn_bootCal : ShownIn lateKey s s.bootCal ∧ s.bootCal.get F.NVM_F_STAT_CFG_OK = s.get F.NVM_F_STAT_CFG_OK := by
  have hunits : ShownIn unitKey s.calShown s.bootCal := by
    rw [bootCal_eq]
    exact ShownIn.foldl _ (shownIn_bootUnit _) _ _
  refine ⟨?_, ?_⟩
  · exact (((ShownIn.refl lateKey s).set (f := F.NVM_F_STAT_CAL_OK) (ix := []) (.inr (.inl rfl)) _).set (f := F.NVM_F_STAT_CAL_COPY) (ix := [])
      (.inr (.inl rfl)) _).trans (hunits.mono (fun _ h => .inl h))
  · rw [hunits.get (by decide), calShown, get_set_field _ F.NVM_F_STAT_CAL_COPY F.NVM_F_STAT_CFG_OK _ _ _ (by decide) (by decide),
      get_set_field _ F.NVM_F_STAT_CAL_OK F.NVM_F_STAT_CFG_OK _ _ _ (by decide) (by decide)]

theorem shownIn_unitsBegun : ShownIn lateKey s s.unitsBegun :=
  (s.shownIn_bootCal.1.set (f := F.NVM_BOOT_STAT_NVM_DONE) (ix := []) (.inr (.inr rfl)) 1).trans ((shownIn_bootPorts _).mono (fun _ h => .inl h))

theorem unitsBegun_done : s.unitsBegun.get F.NVM_BOOT_STAT_NVM_DONE = 1 := by
  rw [unitsBegun, (shownIn_bootPorts _).get (by decide), get_set_of_lt _ _ (by decide) (by decide)]

theorem unitsBegun_cfgOk : s.unitsBegun.get F.NVM_F_STAT_CFG_OK = s.get F.NVM_F_STAT_CFG_OK := by
  rw [unitsBegun, (shownIn_bootPorts _).get (by decide), get_set_key _ F.NVM_BOOT_STAT_NVM_DONE _ _ _ _ (by decide), s.shownIn_bootCal.2]

end UnitsBegun

end State

end Sys2Proof.Machine
end

section

-- One declaration at a time: the whole text's check stays within its memory.
set_option Elab.async false

/-! Resets of both dies and the boot, clause by clause (O57). -/

namespace Sys2Proof.Machine

namespace State

/-! ### The rows of the resets (R469–R472) -/

section Rows

variable {s : State}

/-- A power-on or a conventional reset of the host die. -/
def hostStarted (s : State) (on : Bool) : State := if on then s.hostReset.modBoot (fun b => { b with hostOn := true }) else s.hostReset

theorem hostStarted_reset (s : State) : s.hostStarted false = s.hostReset := if_neg Bool.false_ne_true

theorem hostStarted_power (s : State) : s.hostStarted true = s.hostReset.modBoot (fun b => { b with hostOn := true }) := if_pos rfl

theorem exec_hostStarts (s : State) (on : Bool) : exec (if on then .hostPowerOn else .hostConventionalReset) s = .next (s.hostStarted on) := by
  cases on
  · rw [hostStarted_reset]
    rfl
  · rw [hostStarted_power]
    rfl

theorem HostCleared.powered {t : State} (h : HostCleared s t) : HostCleared s (t.modBoot (fun b => { b with hostOn := true })) :=
  ⟨h.host, h.cleared, h.field, h.stageH, h.mem, h.slices, h.aos, h.sess, h.cores, h.tb⟩

theorem hostStarted_cleared (on : Bool) (h : (s.commit.pin.bind (fun (j : PinJob) => j.ring)) = none) : HostCleared s (s.hostStarted on) := by
  cases on
  · rw [hostStarted_reset]
    exact hostReset_cleared h
  · rw [hostStarted_power]
    exact (hostReset_cleared h).powered

theorem hostStarted_hostOn (on : Bool) (h : (s.commit.pin.bind (fun (j : PinJob) => j.ring)) = none) :
    (s.hostStarted on).boot.hostOn = (on || s.boot.hostOn) := by
  cases on
  · rw [hostStarted_reset, hostReset_hostOn h, Bool.false_or]
  · rw [hostStarted_power, modBoot_boot, Bool.true_or]

/-- What the scramble and output tables held is lost with the supply. -/
theorem FieldCleared.loseTables {t : State} (h : FieldCleared s t) : t.loseTables.aos = State.reset.aos ∧ t.loseTables.fws = State.reset.fws := by
  refine ⟨Vector.ext (fun i hi => ?_), Vector.ext (fun i hi => ?_)⟩
  · refine (Vector.getElem_map _ _).trans ((congrArg (fun o : Ao => { o with table := [] }) (h.aos ⟨i, hi⟩)).trans ?_)
    exact (congrArg (fun o : Ao => ({ o with table := [] } : Ao)) (Vector.getElem_replicate hi)).trans (Vector.getElem_replicate hi).symm
  · refine (Vector.getElem_map _ _).trans ((congrArg (fun g : Furrow => { g with table := [] }) (h.fws ⟨i, hi⟩)).trans ?_)
    exact (congrArg (fun g : Furrow => ({ g with table := [] } : Furrow)) (Vector.getElem_replicate hi)).trans (Vector.getElem_replicate hi).symm

/-- The field side without its supply. -/
def unpowered (t : State) : State := t.loseTables.modBoot (fun b => { b with fieldOn := false })

theorem rests_unpowered (t : State) : Rests t t.unpowered := ⟨rfl, fun _ => ⟨rfl, rfl, rfl, rfl⟩, rfl, rfl, rfl⟩

theorem unpowered_slices (t : State) : t.unpowered.slices = t.slices := rfl

theorem unpowered_getK (t : State) (k : Nat) : t.unpowered.getK k = t.getK k := rfl

/-- A reset that takes the supply away leaves the tables empty too. -/
theorem FieldCleared.unpowered {t : State} (h : FieldCleared s t) : t.unpowered.stile.fieldRuns = false ∧ t.unpowered.slices = State.reset.slices ∧
    t.unpowered.aos = State.reset.aos ∧ t.unpowered.fws = State.reset.fws ∧ t.unpowered.sess = State.reset.sess ∧ t.unpowered.host = s.host ∧
    memSame s t.unpowered ∧ ∀ k : Nat, keyOnHost k = false → k ≠ 0x78000 → t.unpowered.getK k = resetVal k := by
  obtain ⟨hstile, hmem, hhost, -, hsess⟩ := t.rests_unpowered
  obtain ⟨hao, hfw⟩ := h.loseTables
  exact ⟨(congrArg Stile.fieldRuns hstile).trans h.runs, t.unpowered_slices.trans h.slices, hao, hfw, hsess.trans h.sess, hhost.trans h.host,
    memSame_trans h.mem hmem, fun k hk hne => (t.unpowered_getK k).trans (h.regs k hk hne)⟩

end Rows

/-! ### The field side's boot, as a whole (R473) -/

/-- The NVM has been read. -/
def nvmApplied (s : State) : State := (s.modStile (fun x => { x with fieldRuns := true, nvmRead := true })).bootNvm

/-- The banks have been judged. -/
def banksKnown (s : State) (mvA mvB : Nat) : State :=
  (s.nvmApplied.banksRead mvA mvB).banksJudged ((s.nvmApplied.banksRead mvA mvB).bankFine false mvA) ((s.nvmApplied.banksRead mvA mvB).bankFine true mvB)

theorem banksRead_get (s : State) (mvA mvB : Nat) (f : Fld) (ix : List Nat) : (s.banksRead mvA mvB).get f ix = s.get f ix := rfl

theorem banksRead_aos (s : State) (mvA mvB : Nat) : (s.banksRead mvA mvB).aos = s.aos := rfl

theorem laneEntry_banksRead (s : State) (mvA mvB : Nat) (n : Fin 12) (l : Fin 8) : (s.banksRead mvA mvB).laneEntry n l = s.laneEntry n l := rfl

theorem modStile_cfgBytes (s : State) (f : Stile → Stile) (b : Bool) : (s.modStile f).cfgBytes b = s.cfgBytes b := rfl

/-- The field side has booted. -/
def booted (s : State) (mvA mvB : Nat) : State := (s.banksKnown mvA mvB).unitsBegun

section Booted

variable {s : State} {mvA mvB : Nat}

theorem exec_fieldBoot (hruns : s.stile.fieldRuns = false) (hon : s.boot.fieldOn = true) : exec (.fieldBoot mvA mvB) s = .next (s.booted mvA mvB) := by
  refine congrArg Host.Outcome.next (if_neg ?_)
  rw [hruns, hon]
  decide

variable (s mvA mvB)

theorem rests_booted : Rests (s.modStile (fun x => { x with fieldRuns := true, nvmRead := true })) (s.booted mvA mvB) :=
  (((rests_bootNvm _).trans (rests_banksRead _ _ _)).trans (banksJudged_balls _ _ _).rests.1).trans (shownIn_unitsBegun _).rests.1

theorem booted_done : (s.booted mvA mvB).get F.NVM_BOOT_STAT_NVM_DONE = 1 := unitsBegun_done _

theorem booted_bankMv : (s.booted mvA mvB).boot.bankMv = #v[mvA, mvB] := by
  rw [booted, (shownIn_unitsBegun _).rests.2.2.2, banksKnown, (banksJudged_balls _ _ _).rests.2.2, banksRead_bankMv]

theorem booted_fine (b : Bool) (mv : Nat) : (s.booted mvA mvB).bankFine b mv = (s.nvmApplied.banksRead mvA mvB).bankFine b mv :=
  bankFine_of_act (fun f ix => ((shownIn_unitsBegun _).act f ix).trans ((banksJudged_balls _ _ _).act f ix)) b mv

theorem booted_supply : (s.booted mvA mvB).get F.FLT_SUPPLY_OK =
    7 + 8 * ((s.booted mvA mvB).bankFine false mvA).toNat + 16 * ((s.booted mvA mvB).bankFine true mvB).toNat := by
  rw [booted_fine, booted_fine, booted, (shownIn_unitsBegun _).get (by decide), banksKnown, banksJudged_supply]

theorem booted_banks (n : Fin 12) : (s.booted mvA mvB).get F.CH_BANK_STATUS_VIOA_OK [n] = ((s.booted mvA mvB).bankFine false mvA).toNat ∧
    (s.booted mvA mvB).get F.CH_BANK_STATUS_VIOB_OK [n] = ((s.booted mvA mvB).bankFine true mvB).toNat := by
  have hkey : ¬ lateKey (Reg.key .CH_BANK_STATUS [n]) := by
    rw [key_bankStatus]
    rintro (⟨h, -⟩ | h | h)
    · omega
    · change _ = 0x90100 at h
      omega
    · change _ = 0x90114 at h
      omega
  rw [booted_fine, booted_fine, booted, (shownIn_unitsBegun _).get (f := F.CH_BANK_STATUS_VIOA_OK) hkey,
    (shownIn_unitsBegun _).get (f := F.CH_BANK_STATUS_VIOB_OK) hkey]
  exact banksJudged_banks _ _ _ n

theorem booted_cfgOk : (s.booted mvA mvB).get F.NVM_F_STAT_CFG_OK = (cfgOk (s.cfgBytes false) || cfgOk (s.cfgBytes true)).toNat := by
  have hkey : F.NVM_F_STAT_CFG_OK.reg.key [] ∉ Reg.key .FLT_SUPPLY [] :: bankKeys := by decide
  rw [booted, unitsBegun_cfgOk, banksKnown, (banksJudged_balls _ _ _).get hkey, banksRead_get, nvmApplied, bootNvm_ok, modStile_cfgBytes,
    modStile_cfgBytes]

theorem booted_lanes (ha : cfgOk (s.cfgBytes false) = true) (hb : cfgOk (s.cfgBytes true) = false) (n : Fin 12) (l : Fin 8) :
    (s.booted mvA mvB).laneEntry n l =
      (fieldAt (s.cfgBytes false) (0x40 + 8 * n + l) 1 % 4, fieldAt (s.cfgBytes false) (0x40 + 8 * n + l) 1 / 4 % 4) := by
  have hlate : (s.booted mvA mvB).laneEntry n l = (s.banksKnown mvA mvB).laneEntry n l := by
    rw [laneEntry, laneEntry, booted, lane_of_slices (shownIn_unitsBegun _).rests.2.2.1, (shownIn_unitsBegun _).act]
  rw [hlate, banksKnown, laneEntry_banksJudged, laneEntry_banksRead, nvmApplied, bootNvm_lanes _ (by rw [modStile_cfgBytes, ha])
    (by rw [modStile_cfgBytes, hb]), modStile_cfgBytes]

theorem booted_outputs (ha : cfgOk (s.cfgBytes false) = false) (hb : cfgOk (s.cfgBytes true) = false) (o : Fin 16) :
    (s.booted mvA mvB).aos[o].clamped = true ∧ (s.booted mvA mvB).aos[o].park = none := by
  have haos : (s.booted mvA mvB).aos = s.nvmApplied.aos := by
    rw [booted, (shownIn_unitsBegun _).rests.2.1, banksKnown, (banksJudged_balls _ _ _).rests.2.1, banksRead_aos]
  simp only [haos]
  exact bootNvm_outputs _ (by rw [modStile_cfgBytes, ha]) (by rw [modStile_cfgBytes, hb]) o

end Booted

end State

section ResetAndBoot

open State

/-- Settles O57: each clause is the effect of one reset, or of one step of the boot. -/
theorem theDiesResetAndBoot : Obligations.TheDiesResetAndBoot := by
  unfold Obligations.TheDiesResetAndBoot
  refine ⟨fun on s hpin => ?_, fun s hdown hcommit => ?_, fun mvA mvB s hruns hon => ?_, fun mib s hruns hboot => ?_, fun mib s hruns hboot => ?_,
    fun header image script s hstate hbad => ?_, fun header image s hstate hlen hgood hscript hcommit himage hplace hsize hok => ?_⟩
  · obtain ⟨hhost, hcleared, hfield, hstage, hmem, hslices, haos, hsess, hcores, htb⟩ := hostStarted_cleared on hpin
    exact ⟨s.hostStarted on, exec_hostStarts s on, hhost, hcleared, hfield, hostStarted_hostOn on hpin, hstage, hmem, hslices, haos, hsess, hcores, htb⟩
  · obtain ⟨hcleared, hon⟩ := fieldReset_cleared hdown hcommit
    obtain ⟨hruns, hslices, haos, hfws, hsess, hhost, hmem, hregs⟩ := hcleared.modBoot (fun b => { b with fieldOn := true })
    exact ⟨⟨_, rfl, rfl, hruns, hslices, haos, hfws, hsess, hhost, hmem, hregs⟩,
      ⟨_, rfl, hon, hcleared.runs, hcleared.slices, hcleared.aos, hcleared.fws, hcleared.sess, hcleared.host, hcleared.mem, hcleared.regs⟩,
      ⟨s.fieldReset.unpowered, rfl, rfl, hcleared.unpowered⟩⟩
  · obtain ⟨hstile, hmem, hhost, hcores, hsess⟩ := s.rests_booted mvA mvB
    exact ⟨s.booted mvA mvB, exec_fieldBoot hruns hon, hstile, s.booted_done mvA mvB, s.booted_bankMv mvA mvB, s.booted_supply mvA mvB, s.booted_cfgOk mvA mvB,
      s.booted_banks mvA mvB, fun n l ha hb => Prod.mk.inj (s.booted_lanes mvA mvB ha hb n l), fun o ha hb => s.booted_outputs mvA mvB ha hb o, hmem, hhost,
      hcores, hsess⟩
  · exact ⟨s.ddrFound mib, exec_ddrTrainingDone_rests hruns hboot, s.ddrFound_mib mib, s.ddrFound_done mib, (s.ddrFound_only mib).eq_regs,
      (s.ddrFound_only mib).regs⟩
  · exact ⟨s.ddrLost, exec_ddrTrainingDone_boots hruns hboot, s.ddrLost_fail, spiBegin_state _, spiBegin_busy _, spiBegin_err _, s.ddrLost_only.eq_regs,
      s.ddrLost_only.regs⟩
  · exact ⟨_, (exec_spiNorBootDone hstate _ _ _).trans (congrArg Host.Outcome.next (spiDone_of_bad hbad _ _)), spiEnd_busy _ _ _,
      spiEnd_state _ (by split <;> decide), spiEnd_err _ (by split <;> decide), (spiEnd_only _ _ _).eq_regs, (spiEnd_only _ _ _).regs⟩
  · refine ⟨_, (exec_spiNorBootDone hstate _ _ _).trans (congrArg Host.Outcome.next
      (spiDone_of_image hlen hgood hscript hcommit himage hplace hsize hok)), spiEnd_busy _ _ _, spiEnd_state _ (by decide), spiEnd_err _ (by decide), ?_⟩
    rw [(spiEnd_only _ _ _).act, grantRegions, act_putBoth_self _ _ _ _ (by decide)]

end ResetAndBoot

end Sys2Proof.Machine
end
